-- ==== Sys2Proof/Word.lean ====
section
/-!
DEFINITION. Bytes, little-endian fields and sparse tables: the plain words the model is written in.
-/

namespace Sys2Proof

/-- One byte, as the slots, frames and registers of the QD9816 hold it. -/
abbrev Byte := BitVec 8

/-- A run of bytes, the lowest address first. -/
abbrev Bytes := List Byte

/-- A sparse table: rising keys, an unlisted key holding the default its reader names. -/
abbrev Table (α : Type) := List (Nat × α)

/-- A budget amount per budget instance: the key is `code * 2^32 + instance` (Table 4.5). -/
abbrev Costs := Table Nat

end Sys2Proof
end

