-- ==== Sys2Proof/Syntax.lean ====
section
/-!
DEFINITION. The commands the QD9816 takes from outside: one constructor per row of spec/opcode_table.json, in the
table's order. A JCI command carries its slot (`Req`); an event carries what the outside world presents with it.
-/

namespace Sys2Proof

/-- A JCI command: its mailbox (0 to 3 the PCIe functions, 4 the NMC window) and the fields of its slot
that its row does not fix (Table 2.2). -/
structure Req where
  mbx : Nat
  flags : BitVec 8
  target : BitVec 32
  tag : BitVec 64
  payload : Bytes
  deriving DecidableEq, Repr

/-- How one DMA request ended that did not return its data (R52, R680). -/
inductive DmaFail where
  /-- a PCIe completion timeout -/
  | timeout
  /-- Unsupported Request, Completer Abort or a poisoned completion -/
  | refused
  deriving DecidableEq, Repr

/-- How the DMA of a command ended: its data, or the failing requests with their host addresses. -/
inductive DmaResult where
  | data (b : Bytes)
  | failed (l : List (Nat × DmaFail))
  deriving DecidableEq, Repr

/-- A received AU or TU pointer, as G.707 codes it: a value, an increment or decrement, all ones, or an invalid word. -/
inductive PtrIn where
  | value (n : Nat)
  | justified
  | allOnes
  | invalid
  deriving DecidableEq, Repr

/-- What one 125 µs frame carries for an AU-4: its number, its pointer, B3 errors and REI. -/
structure AuIn where
  a : Nat
  ptr : PtrIn
  b3 : Nat
  rei : Nat
  deriving DecidableEq, Repr

/-- What one 125 µs frame carries for a VC-12 with an E1: its location (a, k, l, m), its pointer, V5 errors and REI, the
data bits of the E1, and in the last frame of a multiframe the three C1 bits, the three C2 bits, S1 and S2 (R603). -/
structure TribIn where
  a : Nat
  k : Nat
  l : Nat
  m : Nat
  ptr : PtrIn
  bip : Nat
  rei : Nat
  bits : List Bool
  just : Option (List Bool × List Bool × Bool × Bool)
  deriving DecidableEq, Repr

/-- What one frame carries for a member of a VCAT group: group, list position, differential delay in µs from its MFI, its SQ, and for a
VC-12 or VC-3 its TU pointer, its B3 or V5 errors and REI. -/
structure MemberIn where
  group : Nat
  pos : Nat
  delay : Nat
  sq : Nat
  ptr : PtrIn
  bip : Nat
  rei : Nat
  deriving DecidableEq, Repr

/-- What a line lane presents in one 125 µs frame, after the demultiplexing of G.707: the bit positions at which the A1/A2
pattern begins, K1, K2, M1, B1 and B2 errors, the B2 error ratio in 10^-12, and the lower paths. -/
structure LineRx where
  patterns : List Nat
  k1 : Byte
  k2 : Byte
  m1 : Nat
  b1 : Nat
  b2 : Nat
  ber : Nat
  au : List AuIn
  trib : List TribIn
  members : List MemberIn
  deriving DecidableEq, Repr

/-- The commands, one constructor per row of the opcode table. -/
inductive Instr where
  /-- System command that returns its own payload (R65). JCI 0x0000. -/
  | echo (r : Req)
  /-- Returns JCI version, stepping, grade, mailbox, chain address, serial and ring sizes (R65). JCI 0x0001. -/
  | sysIdentify (r : Req)
  /-- Returns the current mode and the mode SHED will return to (R65). JCI 0x0002. -/
  | sysModeGet (r : Req)
  /-- Fences every mailbox and begins a cold or warm reset within 1 ms of its response, if the mailbox has reset rights (R68). JCI 0x0003. -/
  | systemReset (r : Req)
  /-- Fences all mailboxes, aborts outstanding commands and restarts the media plane with no objects (R69). JCI 0x0004. -/
  | mediaRestart (r : Req)
  /-- The media plane has restarted; OK response, Ready, held FaultNotices and ModeChanged are written (R69). -/
  | mediaRestartDone
  /-- Sets which event groups are stopped on the issuing mailbox (R66). JCI 0x0005. -/
  | eventMaskSet (r : Req)
  /-- Returns commands taken, BAD_CRC, SEQ_GAP and lost-event counts (R65). JCI 0x0006. -/
  | sysStatsGet (r : Req)
  /-- Host writes the command tail; the bridge takes slots up to it or flags a command-ring error (R32). -/
  | mbxCmdTailDoorbell (fn tail : Nat) (slots : List Bytes)
  /-- A FENCE command starts once every earlier command of its ring has completed and had its effect (R48). -/
  | fenceRelease (mbx : Nat)
  /-- Host returns response slots, or sets the ring error flag if the head leaves its range (R754). -/
  | mbxRspHeadWrite (fn head : Nat)
  /-- Host returns event slots; freed room lets held Ready, FaultNotices and EventsLost be written (R754). -/
  | mbxEvtHeadWrite (fn head : Nat)
  /-- CMD_EN 0 to 1 zeroes pointers and expected sequence and clears CMD_ERR (R755). -/
  | cmdRingEnable (fn : Nat)
  /-- CMD_EN 1 to 0 stops taking commands; taken commands complete (R755). -/
  | cmdRingDisable (fn : Nat)
  /-- RSP_EN 0 to 1 zeroes pointers and response sequence and clears RSP_ERR (R755). -/
  | rspRingEnable (fn : Nat)
  /-- RSP_EN 1 to 0 stops taking commands and discards responses of taken commands (R755). -/
  | rspRingDisable (fn : Nat)
  /-- EVT_EN 0 to 1 zeroes pointers; Ready, held FaultNotices and EventsLost are written first (R756). -/
  | evtRingEnable (fn : Nat)
  /-- EVT_EN 1 to 0; further events for the ring are dropped and counted (R755). -/
  | evtRingDisable (fn : Nat)
  /-- PCIe hot reset or PERST_N disables the function's rings and resets its MBX registers except FW_READY (R70). -/
  | pcieHotReset (fn : Nat)
  /-- The DMA reads of a command end; data are checked or the command ends with TIMEOUT or DENIED (R797). -/
  | dmaReadDone (mbx : Nat) (res : DmaResult)
  /-- The readback after a command's DMA write ends; the command completes or fails with TIMEOUT or DENIED (R798). -/
  | dmaWriteReadbackDone (mbx : Nat) (res : DmaResult)
  /-- Host write to a BAR0 register that has no behaviour of its own (R748). -/
  | registerWrite (fn offset : Nat) (data : List (Option Byte))
  /-- A full read of an RC register returns its value and clears it (R749). -/
  | rcRegisterRead (fn offset : Nat)
  /-- An engine instance faults; its items are dropped, outstanding commands aborted and FaultNotice raised (R88). -/
  | engineFault (kind inst cause : Nat)
  /-- A faulted instance is reset and returns to service within 10 ms (R90). -/
  | instanceReturn (kind inst : Nat)
  /-- An engine item exceeds 20 µs plus twice its nominal time and becomes an engine fault with cause 0x0003 (R299). -/
  | itemTimeout (id : Nat)
  /-- Reads ceiling, used and awaiting-release of one budget instance (R119). JCI 0x0F40. -/
  | budgetGet (r : Req)
  /-- 100 ms after the last shed with the condition still present, the next class is shed (R124). -/
  | shedClassEscalation
  /-- Quartz triggers the start of block n; block-boundary effects, banks swap and per-block work begins (R587). -/
  | blockStart
  /-- Beryl ends the mix of the previous block at t_mix; meters latch and the write application phase runs (R142). -/
  | mixEnd
  /-- Queues node writes for an apply block, admitting tile costs (R143). JCI 0x0300. -/
  | nodeSet (r : Req)
  /-- Reads up to 65,536 node writes by DMA and queues them for one apply block (R175). JCI 0x0301. -/
  | nodeSetBulk (r : Req)
  /-- Starts a stepped fade of one node toward a target gain (R150). JCI 0x0302. -/
  | nodeFade (r : Req)
  /-- Returns a node's gain in force, last scheduled gain and fade state (R172). JCI 0x0303. -/
  | nodeGet (r : Req)
  /-- Writes the tile occupancy bitmap to host memory (R176). JCI 0x0304. -/
  | matrixTileMapGet (r : Req)
  /-- Creates a meter subscription on matrix inputs or outputs (R172). JCI 0x0305. -/
  | meterSubscribe (r : Req)
  /-- Destroys a meter subscription (R172). JCI 0x0306. -/
  | meterUnsubscribe (r : Req)
  /-- At the end of each report period, MeterReport is raised with peak hold, peak, RMS and clip flag (R164). -/
  | meterReport (sub : Nat)
  /-- Creates a duck group in a session (R172). JCI 0x0307. -/
  | duckGroupCreate (r : Req)
  /-- Destroys a duck group; members return to full level at the next block (R177). JCI 0x0308. -/
  | duckGroupDestroy (r : Req)
  /-- Adds triggers, adds members or removes legs of a duck group (R169). JCI 0x0309. -/
  | duckMemberSet (r : Req)
  /-- Forces a duck group on or releases it from the next block (R177). JCI 0x030A. -/
  | duckForce (r : Req)
  /-- A group's hang time passes and its attenuation starts to release (R167). -/
  | duckHangExpiry (group : Nat)
  /-- Returns matrix statistics (R172). JCI 0x030B. -/
  | matrixStatsGet (r : Req)
  /-- Turns auto-mix on, writing the mesh and opening own nodes, or off (R158). JCI 0x0110. -/
  | sessionMixSet (r : Req)
  /-- Creates a session object (R212). JCI 0x0100. -/
  | sessionCreate (r : Req)
  /-- Destroys a session with no legs or duck groups (R212). JCI 0x0101. -/
  | sessionDestroy (r : Req)
  /-- Creates an audio leg, placing it on a matrix number and a Garnet core (R179). JCI 0x0200. -/
  | legCreate (r : Req)
  /-- Destroys an audio leg; its strip clears apply in its destroy block (R155). JCI 0x0201. -/
  | legDestroy (r : Req)
  /-- Moves a HELD audio leg to ACTIVE from the next block (R84). JCI 0x0202. -/
  | legEnable (r : Req)
  /-- Moves an ACTIVE audio leg to HELD from the next block (R83). JCI 0x0203. -/
  | legHold (r : Req)
  /-- Sets the leg chain flags and parameters (R184). JCI 0x0204. -/
  | legChainSet (r : Req)
  /-- Changes codec, packet times, J and frames, admitted as a change (R213). JCI 0x0205. -/
  | legCodecSet (r : Req)
  /-- Starts the leg's tone generator in band, by RFC 4733 event, or both (R204). JCI 0x0206. -/
  | legToneStart (r : Req)
  /-- Stops the running tone or clip from the next block (R207). JCI 0x0207. -/
  | legToneStop (r : Req)
  /-- Starts a loaded clip in the leg's output (R205). JCI 0x0208. -/
  | legPlay (r : Req)
  /-- A tone or clip runs out its repeats and PlayDone is raised (R204). -/
  | playDone (leg : Nat)
  /-- Loads a PCM clip into a clip number by DMA (R206). JCI 0x0209. -/
  | clipLoad (r : Req)
  /-- Frees a clip not in use (R206). JCI 0x020A. -/
  | clipFree (r : Req)
  /-- Returns audio leg statistics and receive state (R212). JCI 0x020B. -/
  | legStatsGet (r : Req)
  /-- Voice activity turns off after its hang time passes without speech (R187). -/
  | vadHangExpiry (leg : Nat)
  /-- After 60 ms of continuous concealment the leg's input becomes zero (SILENT) (R194). -/
  | concealmentEnd (leg : Nat)
  /-- No packet for the media timeout; the leg enters NO_MEDIA or the receiver enters SOURCE_LOST (R208). -/
  | mediaTimeout (key : Nat)
  /-- Reads and checks a kernel image by DMA and loads it (R244). JCI 0x0D00. -/
  | kernelLoad (r : Req)
  /-- Unloads a kernel with no bindings (R249). JCI 0x0D01. -/
  | kernelUnload (r : Req)
  /-- Binds a kernel to an effect slot of a leg from its effect block (R246). JCI 0x0D02. -/
  | kernelBind (r : Req)
  /-- Unbinds an effect slot from its effect block (R246). JCI 0x0D03. -/
  | kernelUnbind (r : Req)
  /-- Sets a binding's parameters from its effect block (R248). JCI 0x0D04. -/
  | kernelParamSet (r : Req)
  /-- Returns kernel statistics (R251). JCI 0x0D05. -/
  | kernelStatsGet (r : Req)
  /-- The invocation's cycle count reaches W − 128 before RET and the core stops it (R239). -/
  | cyclesException (leg slot : Nat)
  /-- A source submits a work descriptor; it is accepted with an ID, refused as malformed, or held by back-pressure (R260). -/
  | workSubmit (source : Nat) (desc : Bytes)
  /-- An instance takes the head item of the highest non-empty level of its list (R253). -/
  | workDispatch (kind inst : Nat)
  /-- An item ends and its completion record is released in flow order (R268). -/
  | itemComplete (id : Nat) (error : Bool) (result : Nat) (data : Bytes)
  /-- A queued or staged item's deadline arrives; it ends EXPIRED (R257). -/
  | itemDeadlineExpiry (id : Nat)
  /-- A cancel by item ID or handle removes, marks or leaves items by their state (R269). -/
  | workCancel (byHandle : Bool) (x : Nat)
  /-- A held submission is accepted once its list or flow frees an entry (R261). -/
  | submissionResume (source kind : Nat)
  /-- Takes an engine instance out of service, orderly or forced (R276). JCI 0x0F50. -/
  | dispatchDisable (r : Req)
  /-- Returns a disabled instance to service (R280). JCI 0x0F51. -/
  | dispatchEnable (r : Req)
  /-- Returns dispatcher list statistics (R282). JCI 0x0F52. -/
  | dispatchStatsGet (r : Req)
  /-- A draining instance passes its drain bound and has an engine fault (R277). -/
  | drainBoundExpiry (kind inst : Nat)
  /-- Creates or changes a sending leg's decode from its effect picture (R320). JCI 0x0420. -/
  | decodeSet (r : Req)
  /-- Removes a leg's decode (R320). JCI 0x0421. -/
  | decodeClear (r : Req)
  /-- Sends or defers a PLI or FIR on a sending video leg (R315). JCI 0x0422. -/
  | keyFrameRequest (r : Req)
  /-- Returns decode statistics and state (R319). JCI 0x0423. -/
  | decodeStatsGet (r : Req)
  /-- The start timeout passes in WAIT_RAP; concealed decoding starts at the next picture (R305). -/
  | decodeStartTimeout (leg : Nat)
  /-- A deferred key-frame request falls due 500 ms after the last and is sent or dropped (R315). -/
  | keyFrameRequestDeferred (leg : Nat)
  /-- Under policy 0x03, 500 ms after the PLI with no RAP a FIR is sent (R314). -/
  | firEscalation (leg : Nat)
  /-- Creates an encoding of 1–3 streams after its checks and admission (R336). JCI 0x0600. -/
  | encodingCreate (r : Req)
  /-- Destroys an encoding at its next frame boundary (R354). JCI 0x0601. -/
  | encodingDestroy (r : Req)
  /-- Enables an encoding at its next frame boundary with an IDR picture (R354). JCI 0x0602. -/
  | encodingEnable (r : Req)
  /-- Holds an encoding at its next frame boundary (R354). JCI 0x0603. -/
  | encodingHold (r : Req)
  /-- Changes a stream's rate control and cap at the next frame boundary (R354). JCI 0x0604. -/
  | encodingRateSet (r : Req)
  /-- Requests IDR pictures on selected streams, subject to key-frame spacing (R352). JCI 0x0605. -/
  | encodingKeyFrame (r : Req)
  /-- Returns statistics of one stream (R359). JCI 0x0606. -/
  | encodingStatsGet (r : Req)
  /-- A composition's frame boundary fires; commits, plane states, encode fill and picture output are handled (R387). -/
  | frameBoundary (comp : Nat)
  /-- At sample time S_k Opal items of composite slice k are submitted (R400). -/
  | compositeSliceStart (comp k : Nat)
  /-- Creates a composition on a frame grid after its checks (R387). JCI 0x0500. -/
  | compositionCreate (r : Req)
  /-- Destroys a composition at its next frame boundary (R412). JCI 0x0501. -/
  | compositionDestroy (r : Req)
  /-- Enables a composition at its next frame boundary (R412). JCI 0x0502. -/
  | compositionEnable (r : Req)
  /-- Holds a composition at its next frame boundary (R412). JCI 0x0503. -/
  | compositionHold (r : Req)
  /-- Writes one plane's attributes into the shadow (R390). JCI 0x0504. -/
  | planeSet (r : Req)
  /-- Copies the shadows, checks them and schedules them for a frame boundary at least 250 µs ahead (R406). JCI 0x0505. -/
  | compositionCommit (r : Req)
  /-- Returns a plane's shadow or in-force attributes (R416). JCI 0x0506. -/
  | planeGet (r : Req)
  /-- Returns composition statistics (R416). JCI 0x0507. -/
  | compositionStatsGet (r : Req)
  /-- Writes the scaler coefficient tables to host memory (R392). JCI 0x0508. -/
  | opalScalerTableGet (r : Req)
  /-- Creates a sending or receiving video leg (R360). JCI 0x0400. -/
  | videoLegCreate (r : Req)
  /-- Destroys a video leg at its frame boundary (R385). JCI 0x0401. -/
  | videoLegDestroy (r : Req)
  /-- Enables a video leg at its frame boundary (R385). JCI 0x0402. -/
  | videoLegEnable (r : Req)
  /-- Holds a video leg at its frame boundary (R385). JCI 0x0403. -/
  | videoLegHold (r : Req)
  /-- No picture passes within 100 ms of completion, so the leg's frame boundary falls then (R384). -/
  | videoLegBoundaryTimeout (leg : Nat)
  /-- Binds a receiving leg to a source and sets its limits (R381). JCI 0x0404. -/
  | forwardSet (r : Req)
  /-- Sets a receiving leg's target rate and re-chooses its wanted point (R366). JCI 0x0405. -/
  | forwardTargetSet (r : Req)
  /-- Returns video leg statistics (R385). JCI 0x0406. -/
  | videoLegStatsGet (r : Req)
  /-- At each TAI multiple of 100 ms, rates are recomputed and wanted points chosen (R366). -/
  | layerRecompute
  /-- An Ethernet frame is received whole, checked, classified, policed and queued (R420). -/
  | frameReceive (port t : Nat) (fecOk : Bool) (data : Bytes)
  /-- A received pause time runs out and the priority's egress resumes (R419). -/
  | pauseExpiry (port prio : Nat)
  /-- An Ethernet port's link goes up or down and PortState is raised (R450). -/
  | linkStateChange (port : Nat) (up : Bool)
  /-- A held queue write completes once space frees (R435). -/
  | queueWriteResume (queue : Nat)
  /-- Every half pause time a refresh PFC frame is sent while the notice is asserted (R443). -/
  | pfcRefresh (port prio : Nat)
  /-- A queue unread for its stale timeout pushes its partial tail to the consumer (R445). -/
  | staleTailTimeout (queue : Nat)
  /-- Host writes MBX_HPT_TAIL; the bridge takes and checks transmit records (R449). -/
  | hostTransmitDoorbell (fn tail : Nat) (recs : List Bytes)
  /-- Host returns slots of the host receive ring (R448). -/
  | hostReceiveHeadWrite (fn head : Nat)
  /-- Selects the network group port configuration and resets its ports (R450). JCI 0x0B00. -/
  | netGroupSet (r : Req)
  /-- Sets a port's enable, PFC, MAC, host function and maximum frame (R450). JCI 0x0B01. -/
  | portSet (r : Req)
  /-- Sets or removes a neighbour table entry (R427). JCI 0x0B02. -/
  | neighbourSet (r : Req)
  /-- Sets and enables a host receive or transmit ring of the issuing function (R448). JCI 0x0B03. -/
  | hostRingSet (r : Req)
  /-- Sets a queue's notice mode, watermarks, pin, PFC and stale timeout (R447). JCI 0x0B04. -/
  | queueNoticeSet (r : Req)
  /-- Returns queue statistics (R450). JCI 0x0B05. -/
  | queueStatsGet (r : Req)
  /-- Returns port statistics (R450). JCI 0x0B06. -/
  | portStatsGet (r : Req)
  /-- A port able to begin a frame selects the next packet by class, deadline and shapers (R459). -/
  | egressSelect (port t : Nat)
  /-- A leg shaper refills every 65,536 cycles, applying pending changes and testing head expiry (R456). -/
  | legShaperRefill (shaper : Nat)
  /-- A class or port shaper refills every 256 cycles (R456). -/
  | classShaperRefill (shaper : Nat)
  /-- Changes a leg shaper's rate, burst and class at its next refill (R462). JCI 0x0B10. -/
  | shaperSet (r : Req)
  /-- Sets a class or port shaper at once, tokens full or zero (R463). JCI 0x0B11. -/
  | classShaperSet (r : Req)
  /-- Sets a port's overhead and host class (R468). JCI 0x0B12. -/
  | egressPortSet (r : Req)
  /-- Returns a shaper's state (R469). JCI 0x0B13. -/
  | shaperGet (r : Req)
  /-- Unwraps and loads an SRTP or wrapping-key context (R481). JCI 0x0C00. -/
  | keyLoad (r : Req)
  /-- Erases a LOADED or SPENT key context (R478). JCI 0x0C01. -/
  | keyDestroy (r : Req)
  /-- Loads a pending key with switch indices N and M (R486). JCI 0x0C02. -/
  | keyUpdate (r : Req)
  /-- Returns SRTP context statistics (R503). JCI 0x0C03. -/
  | keyStatsGet (r : Req)
  /-- Loads one key phase into a link direction's class contexts, optionally activating it (R494). JCI 0x0C04. -/
  | linkKeyLoad (r : Req)
  /-- Returns OTP key and entropy state (R503). JCI 0x0C05. -/
  | keySystemGet (r : Req)
  /-- A health test fails; the source restarts and EntropyAlarm 0x01 is raised (R501). -/
  | entropyHealthFail (test : Nat)
  /-- The restarted source passes its start-up test; instances reseed and EntropyAlarm 0x03 is raised (R501). -/
  | entropyRecovered
  /-- An instance reaches 2^48 requests without reseed and stops (R502). -/
  | drbgExhausted (inst : Nat)
  /-- Creates a recorder partition with a ring in DDR5 (R504). JCI 0x0700. -/
  | partitionCreate (r : Req)
  /-- Destroys a partition without freeze ranges (R531). JCI 0x0701. -/
  | partitionDestroy (r : Req)
  /-- Taps copy from the next block (R531). JCI 0x0702. -/
  | partitionEnable (r : Req)
  /-- Taps copy nothing from the next block (R531). JCI 0x0703. -/
  | partitionHold (r : Req)
  /-- Adds or removes a tap, effective at the next block boundary (R512). JCI 0x0704. -/
  | tapSet (r : Req)
  /-- Sets a partition's export mode and rate (R521). JCI 0x0705. -/
  | exportSet (r : Req)
  /-- Host returns export buffer space up to a stream offset (R522). JCI 0x0706. -/
  | exportAck (r : Req)
  /-- Freezes the ring region of a capture-time range (R516). JCI 0x0707. -/
  | freezeSet (r : Req)
  /-- Releases a freeze range (R520). JCI 0x0708. -/
  | freezeRelease (r : Req)
  /-- Reads a ring range to host memory (R532). JCI 0x0709. -/
  | recorderRead (r : Req)
  /-- Returns partition statistics (R532). JCI 0x070A. -/
  | partitionStatsGet (r : Req)
  /-- Lists rings that survived a warm reset (R529). JCI 0x070B. -/
  | recorderSurvivorsGet (r : Req)
  /-- Walks a surviving ring and creates an EVIDENCE partition over it (R529). JCI 0x070C. -/
  | partitionAdopt (r : Req)
  /-- The recorder writes a record, or a filler, into the ring (R505). -/
  | recordWrite (part : Nat)
  /-- A picture copy not started within one frame period is dropped and counted (R509). -/
  | pictureCopyTimeout (part : Nat)
  /-- t2 of a growing freeze range passes and the region stops growing (R516). -/
  | freezeEnd (part range : Nat)
  /-- Export copies ring bytes to the host buffer with a status word, or sends a datagram (R521). -/
  | exportWrite (part : Nat)
  /-- Sets interleave grains and the DDR5 spill size (R569). JCI 0x0F60. -/
  | memLayoutSet (r : Req)
  /-- Sets k, idle timer, tracking offset and scrub period from the next block (R570). JCI 0x0F61. -/
  | memPolicySet (r : Req)
  /-- Returns one memory channel's status (R568). JCI 0x0F62. -/
  | memStatusGet (r : Req)
  /-- A refresh falls due; it is issued, postponed as owed, or forced (R546). -/
  | refreshDue (chan rank : Nat)
  /-- A real-time burst marking ends 2 µs after it began; owed refreshes are issued (R545). -/
  | realtimeBurstEnd (chan rank : Nat)
  /-- A memory channel's 8 µs calibration window opens (R550). -/
  | calibrationWindowStart (chan : Nat)
  /-- A calibration window ends and media traffic resumes (R550). -/
  | calibrationWindowEnd (chan : Nat)
  /-- A bank's idle timer reaches its value and the bank is precharged (R542). -/
  | pageIdleTimeout (chan bank : Nat)
  /-- Every 100 ms the DRAM temperatures are read and the refresh interval set (R544). -/
  | dramTemperatureRead (temps : List Int)
  /-- A corrected location is written back within 1 ms unless overwritten (R564). -/
  | correctedWriteBack (chan loc : Nat)
  /-- The scrubber reads a location, writing back corrections or raising MemError (R565). -/
  | scrubStep (chan : Nat) (errs : List Nat)
  /-- Sets or disables a PTP domain (R584). JCI 0x0800. -/
  | timeDomainSet (r : Req)
  /-- Sets Kp and Ki from the next update (R594). JCI 0x0801. -/
  | timeServoSet (r : Req)
  /-- Selects the active domain and AUTO at the domain's next update (R586). JCI 0x0802. -/
  | timeSelect (r : Req)
  /-- Sets the time counter outside service modes (R594). JCI 0x0803. -/
  | timeStep (r : Req)
  /-- Returns servo and domain status (R594). JCI 0x0804. -/
  | timeStatusGet (r : Req)
  /-- Selects the edges a TS_IN pin captures (R592). JCI 0x0805. -/
  | timeCaptureSet (r : Req)
  /-- An Announce message is taken into master selection (R575). -/
  | ptpAnnounceReceive (dom t : Nat) (msg : Bytes)
  /-- A Sync, or its Follow_Up, gives a servo update of θ and the frequency word (R580). -/
  | ptpSyncReceive (dom t : Nat) (msg : Bytes)
  /-- A Delay_Resp or Pdelay response updates the path delay history (R579). -/
  | ptpDelayResponseReceive (dom t : Nat) (msg : Bytes)
  /-- A Pdelay_Req is answered one-step or two-step (R577). -/
  | ptpPdelayReqReceive (port t : Nat) (msg : Bytes)
  /-- At its interval the bridge sends its Delay_Req or Pdelay_Req (R577). -/
  | ptpDelayReqSend (dom t : Nat)
  /-- No Sync for 3 intervals or announce timeout; the domain is LOST and may switch or enter HOLDOVER (R584). -/
  | domainLossTimeout (dom : Nat)
  /-- Writing TAKE latches the counter into the snapshot registers (R593). -/
  | timeSnapTake
  /-- ARM starts a pulse program, or sets LATE for a past single pulse (R590). -/
  | timePulseArm (pulse : Nat)
  /-- STOP ends a pulse program and any open pulse (R591). -/
  | timePulseStop (pulse : Nat)
  /-- A programmed PPS_OUT edge time arrives and the edge is emitted (R589). -/
  | pulseEdge (pulse : Nat)
  /-- A selected TS_IN edge captures the counter and raises TimeCapture (R592). -/
  | tsInEdge (pin t : Nat) (rising : Bool)
  /-- Sets a line lane's mode and creates its line path (R595). JCI 0x0E00. -/
  | lineCreate (r : Req)
  /-- Creates an E1 tributary path (R602). JCI 0x0E01. -/
  | e1PathCreate (r : Req)
  /-- Creates a VCAT group with its members and home lane (R616). JCI 0x0E02. -/
  | vcatGroupCreate (r : Req)
  /-- Destroys a framer path at the next line frame (R620). JCI 0x0E03. -/
  | pathDestroy (r : Req)
  /-- Enables a framer path at the next line frame (R619). JCI 0x0E04. -/
  | pathEnable (r : Req)
  /-- Holds a framer path at the next line frame (R620). JCI 0x0E05. -/
  | pathHold (r : Req)
  /-- Joins or separates a working and protection line pair (R612). JCI 0x0E06. -/
  | mspSet (r : Req)
  /-- Issues a local MSP request on a pair (R614). JCI 0x0E07. -/
  | mspCommand (r : Req)
  /-- Sets the ABCD value sent for a CAS channel (R607). JCI 0x0E08. -/
  | casSet (r : Req)
  /-- Returns framer path status (R620). JCI 0x0E09. -/
  | framerStatusGet (r : Req)
  /-- A 125 µs line frame is received and sent; alignment, overhead, pointers, K bytes, E1 and slips are handled (R599). -/
  | lineFrame (lane t : Nat) (rx : LineRx)
  /-- No transitions for 100 µs declares LOS on a line (R611). -/
  | losDeclare (lane : Nat)
  /-- 3 ms in SEARCH declares SDH LOF (R599). -/
  | lofDeclare (lane : Nat)
  /-- 3 ms in IN_FRAME clears SDH LOF (R599). -/
  | lofClear (lane : Nat)
  /-- No CRC-4 multiframe alignment within 8 ms; FAS alignment is taken as false and LOMF declared (R602). -/
  | crc4MultiframeTimeout (path : Nat)
  /-- In auto mode, 400 ms without multiframe alignment turns CRC-4 off (R602). -/
  | crc4AutoFallback (path : Nat)
  /-- 12 frames without an accepted K value declares FOP (R613). -/
  | fopDeclare (pair : Nat)
  /-- The WTR time passes in a revertive pair and the selector reverts (R615). -/
  | waitToRestoreExpiry (pair : Nat)
  /-- A GFP-F frame of a VCAT group is delineated, checked and handed on as Ethernet (R618). -/
  | gfpFrameReceive (group : Nat) (data : Bytes)
  /-- Chain frame assigning consecutive chain addresses (R627). -/
  | enumerate (frame : Bytes)
  /-- Chain frame writing bytes into the NMC window (R625). -/
  | windowWrite (frame : Bytes)
  /-- Chain frame reading bytes of the NMC window (R625). -/
  | windowRead (frame : Bytes)
  /-- GO in an IDLE window makes the bridge take the command in the window (R58). -/
  | doorbellGo (frame : Bytes)
  /-- ACK of a response or event returns the window to IDLE and releases NMC_ATTN_N (R58). -/
  | doorbellAck (frame : Bytes)
  /-- Chain frame collecting the attention mask (R623). -/
  | poll (frame : Bytes)
  /-- Chain frame reading window state, mode and waiting events (R623). -/
  | statusRead (frame : Bytes)
  /-- Chain Reset with ResetCold resets the device if the straps permit (R629). -/
  | chainResetCold (frame : Bytes)
  /-- Chain Reset with ResetWarm resets the device if the straps permit (R629). -/
  | chainResetWarm (frame : Bytes)
  /-- Prepares a member to join a cascade (R632). JCI 0x0900. -/
  | cascadeJoin (r : Req)
  /-- Brings up links, checks wiring and commits the cascade at block b (R633). JCI 0x0901. -/
  | cascadeForm (r : Req)
  /-- A cascade or trio formation not done within 200 ms completes with TIMEOUT (R633). -/
  | formationTimeout
  /-- Removes trunk legs and peers and moves the device to STANDALONE (R649). JCI 0x0902. -/
  | cascadeLeave (r : Req)
  /-- Creates a trunk with legs on two devices, admitted on all concerned (R641). JCI 0x0903. -/
  | trunkCreate (r : Req)
  /-- Removes a trunk's reachable ends at the next block boundary (R648). JCI 0x0904. -/
  | trunkDestroy (r : Req)
  /-- Records a session ID against a chosen device in the directory (R636). JCI 0x0905. -/
  | sessionPlace (r : Req)
  /-- Removes a directory entry (R650). JCI 0x0906. -/
  | sessionUnplace (r : Req)
  /-- Returns cascade status (R650). JCI 0x0907. -/
  | cascadeStatusGet (r : Req)
  /-- Writes the directory to host memory (R650). JCI 0x0908. -/
  | directoryGet (r : Req)
  /-- A link's lanes lock with FEC and alignment; HELLO frames start (R640). -/
  | linkLock (link : Nat)
  /-- An authenticated HELLO frame moves the link to UP or fails formation (R640). -/
  | hello (link : Nat) (data : Bytes)
  /-- A HEARTBEAT frame shows the master present and is forwarded (R640). -/
  | heartbeat (link : Nat) (data : Bytes)
  /-- A TIME request or response frame of the time relay (R645). -/
  | time (link t : Nat) (data : Bytes)
  /-- A CONTROL frame carries master and member messages (R638). -/
  | control (link : Nat) (data : Bytes)
  /-- A TRUNK frame delivers trunk signal samples (R644). -/
  | trunk (link : Nat) (data : Bytes)
  /-- 3 blocks without an authenticated frame, or lost alignment, take the link DOWN (R640). -/
  | linkSilenceTimeout (link : Nat)
  /-- 3 blocks without HEARTBEAT declare the master, or a member, lost (R647). -/
  | masterLost (peer : Nat)
  /-- Spanning commands not committed are rolled back 3 blocks after master loss (R647). -/
  | spanningCommandRollback
  /-- At 1.75 ms a trunk signal not arrived gives zero input and counts a gap (R644). -/
  | trunkArrivalDeadline (trunk : Nat)
  /-- Prepares a device for trio position 1 or 2 (R652). JCI 0x0A00. -/
  | trioJoin (r : Req)
  /-- Forms the trio and commits it at block b (R652). JCI 0x0A01. -/
  | trioForm (r : Req)
  /-- Leaves the trio, clearing critical entries (R673). JCI 0x0A02. -/
  | trioLeave (r : Req)
  /-- Sets or clears a critical-set entry (R653). JCI 0x0A03. -/
  | trioCriticalSet (r : Req)
  /-- Hands the lease to a named device (R673). JCI 0x0A04. -/
  | trioHandover (r : Req)
  /-- Sets the revert count or turns reverting off (R669). JCI 0x0A05. -/
  | trioRevertSet (r : Req)
  /-- Chooses a sync block and sends snapshots to a returning device (R672). JCI 0x0A06. -/
  | trioRejoin (r : Req)
  /-- Returns trio status (R673). JCI 0x0A07. -/
  | trioStatusGet (r : Req)
  /-- A MIRROR frame gives a follower a critical packet or key-frame request with its playout decision (R656). -/
  | mirror (link : Nat) (data : Bytes)
  /-- A DELTA frame gives a follower a critical change and its effect boundary (R655). -/
  | delta (link : Nat) (data : Bytes)
  /-- A DIGEST frame delivers another device's block digests (R661). -/
  | digest (link : Nat) (data : Bytes)
  /-- An ENDORSE frame grants the endorsed device the lease through block n + 2 (R667). -/
  | endorse (link : Nat) (data : Bytes)
  /-- A SNAPSHOT frame delivers chain state for the sync block (R672). -/
  | snapshot (link : Nat) (data : Bytes)
  /-- At V the device votes block d; handover, endorsement and revert follow (R662). -/
  | vote
  /-- A leader's lease runs out without endorsement; it stops and takeover follows (R668). -/
  | leaseExpiry
  /-- CLAIM takes a free CRC unit for the writing function (R683). -/
  | crcClaim (fn u : Nat)
  /-- RELEASE frees a CRC unit by its owner (R684). -/
  | crcRelease (fn u : Nat)
  /-- START loads the register and processes the fold (R685). -/
  | crcStart (fn u : Nat)
  /-- A write to CRCn_DATA feeds 1, 2 or 4 bytes (R686). -/
  | crcData (fn u : Nat) (data : Bytes)
  /-- DMA_GO starts feeding host memory bytes to the unit (R687). -/
  | crcDmaGo (fn u : Nat)
  /-- A CRC DMA run ends with DONE or DMA_ERR (R687). -/
  | crcDmaDone (u : Nat) (res : DmaResult)
  /-- Changes the power class, admitted under R129 (R699). JCI 0x0F00. -/
  | powerClassSet (r : Req)
  /-- Sets warn, shed and trip thresholds (R705). JCI 0x0F01. -/
  | thermalSet (r : Req)
  /-- Returns power and thermal status (R714). JCI 0x0F02. -/
  | powerStatusGet (r : Req)
  /-- Returns flight-recorder NVM status (R714). JCI 0x0F03. -/
  | nvmStatusGet (r : Req)
  /-- Every 10 µs the metered power updates the peak energy bucket (R701). -/
  | powerSample (w : Nat)
  /-- ISNS is sampled at 1 MHz; phases and the 360 A limit are evaluated (R694). -/
  | currentSample (phases : List Nat)
  /-- Rail above 400 A or a phase above 45 A for 2 µs acts as a trip (R694). -/
  | overCurrentFault (phase decamp : Nat)
  /-- Every 1 ms the adaptive voltage target moves by one step (R693). -/
  | avsUpdate (target : Nat)
  /-- Every 100 µs the core sensors are sampled and thresholds acted on (R706). -/
  | temperatureSample (temps : List Int)
  /-- Every 1 ms the always-on sensor is sampled for trip (R704). -/
  | aonTemperatureSample (temp : Int)
  /-- The always-on sensor stays 20 °C below trip for 10 s; rails are resequenced (R709). -/
  | tripCooldownExpiry
  /-- After 500 qualifying blocks the bridge leaves SHED (R707). -/
  | shedExit
  /-- REFCLK_25 lost; flight record, HALT and held cold reset (R691). -/
  | refclk25Loss
  /-- Root PLL lock lost in service; flight record, HALT, cold reset (R691). -/
  | rootPllUnlock
  /-- SERDES_REFCLK lost; every lane loses lock (R691). -/
  | serdesRefclkLoss
  /-- PCIE_REFCLK lost; the PCIe link goes down as for PERST_N (R691). -/
  | pcieRefclkLoss
  /-- The root PLL locks and the divided clocks start (R690). -/
  | rootPllLock
  /-- A rail's power good arrives; the next sequencing step follows 1 ms later (R695). -/
  | railPowerGood (rail : Nat)
  /-- 1 ms after power good the next rail is enabled (R695). -/
  | railSequenceStep
  /-- Power good misses its timeout; rails are powered down and retried (R697). -/
  | powerGoodTimeout
  /-- 1 s after a failed sequence the controller tries again (R697). -/
  | railRetry
  /-- A power good falls while its rail is up; fatal HALT and power-down (R697). -/
  | powerGoodFall (rail : Nat)
  /-- PMBus CLEAR_FAULTS clears latched status bits (R710). -/
  | clearFaults
  /-- PMBus VOUT_MODE read (R710). -/
  | voutMode
  /-- PMBus STATUS_WORD read (R710). -/
  | statusWord
  /-- PMBus read of VDD_CORE voltage (R710). -/
  | readVout
  /-- PMBus read of VDD_CORE current (R710). -/
  | readIout
  /-- PMBus read of the junction temperature (R710). -/
  | readTemperature1
  /-- PMBus read of the always-on sensor (R710). -/
  | readTemperature2
  /-- PMBus read of metered power (R710). -/
  | readPout
  /-- PMBus read of the last failing sequence step and count (R710). -/
  | mfrSeqStatus
  /-- Any other PMBus command is NACKed and sets CML (R710). -/
  | pmbusUnsupportedCommand (code : Nat)
  /-- An NVM word pulse ends; a held reset proceeds and the next word may pulse (R729). -/
  | nvmWordPulseEnd
  /-- A sector erase completes (R711). -/
  | nvmEraseDone
  /-- HALT's flight record is committed and the resetting cold reset is issued (R733). -/
  | flightRecordCommit
  /-- Moves between READY, STANDALONE and MAINTENANCE (R719). JCI 0x0F10. -/
  | modeSet (r : Req)
  /-- Writes flight records to host memory (R744). JCI 0x0F11. -/
  | flightRecordRead (r : Req)
  /-- Writes and checks a firmware slot (R744). JCI 0x0F12. -/
  | firmwareSlotWrite (r : Req)
  /-- Writes the key-encryption key to OTP (R744). JCI 0x0F13. -/
  | otpKekWrite (r : Req)
  /-- Raises the OTP security counter to the running image's version (R744). JCI 0x0F14. -/
  | firmwareCommit (r : Req)
  /-- Returns a debug challenge from the DRBG (R744). JCI 0x0F15. -/
  | debugChallengeGet (r : Req)
  /-- Unlocks JTAG and DBG on a valid signature and writes flight record 0x0C (R744). JCI 0x0F16. -/
  | debugUnlock (r : Req)
  /-- Sets a lane's loopback or PRBS test in MAINTENANCE (R744). JCI 0x0F17. -/
  | laneTestSet (r : Req)
  /-- Returns a lane test's counts (R744). JCI 0x0F18. -/
  | laneTestGet (r : Req)
  /-- VDD_AON comes within tolerance; power-on bring-up begins (R732). -/
  | powerOn (pclass pmaddr : Nat)
  /-- RESET_N low for 1 µs is taken as a cold reset (R723). -/
  | resetNAssert
  /-- The core domain leaves RESET; straps sampled and BOOT begins (R731). -/
  | resetRelease
  /-- The boot ROM verifies firmware slots and jumps, or enters HALT (R736). -/
  | bootRun
  /-- Firmware runs the CALIBRATE steps and enters READY or MAINTENANCE (R732). -/
  | calibrateRun
  /-- PWR_FAIL_N taken; flight record 0x07 is written (R741). -/
  | pwrFailNAssert
  /-- PWR_FAIL_N returns high without supply loss and FlightRecorded is raised (R741). -/
  | pwrFailNRelease
  /-- A control core unserviced for 20 ms causes a media restart (R739). -/
  | firstLevelWatchdogExpiry (core : Nat)
  /-- The second-level watchdog expires and causes a cold reset (R739). -/
  | secondLevelWatchdogExpiry
  /-- Writing CLR_HALT_COUNT sets HALT_COUNT to 0 (R759). -/
  | rstClrHaltCount (fn : Nat)
  /-- The throttled share of s × 250 µs at the start of a block ends, and items at levels 3–0 may again be staged or started (R281). -/
  | throttledShareEnd
  /-- REFCLK_25 has been present again for 10 ms and the held cold reset is released (R691). -/
  | refclk25Return
  /-- PERST_N rises and the PCIe endpoint begins link training, if BOOT has been entered (R731). -/
  | perstNDeassert
  /-- VDD_AON or VDDIO_AON leaves its range and the always-on domain enters power-on reset, losing retained memory, backup registers and rings (R777). -/
  | vddAonLoss
  /-- 1 ms after the previous step of a power-down, the next rail in reverse order is disabled (R696). -/
  | railPowerDownStep
  /-- The host clears the mask of an MSI-X vector or function with its pending bit set, and one message is sent (R757). -/
  | msixVectorUnmask (fn : Nat) (vec : Option Nat)
  /-- The QSPI programming and R736 check of a FirmwareSlotWrite end, up to 120 s after the command began, and the command completes (R744). -/
  | firmwareSlotWriteDone
  deriving DecidableEq, Repr

end Sys2Proof
end

