-- ==== Sys2Proof/Decode.lean ====
section
/-!
DEFINITION. The command a word spells. No row of the opcode table gives bits: a command of this block is a call on one of its
interfaces, not a word it fetches.
-/

namespace Sys2Proof

/-- The command that the `nbits` bits of `w` spell by the opcode table's bits: no row of the table has any. -/
def decodeTableWord (_nbits _w : Nat) : Option Instr := none

end Sys2Proof
end

