-- ==== Sys2Proof/Config.lean ====
section
/-!
DEFINITION. What a part fixes and what the spec leaves open: opaque constants, which nothing in Lean can evaluate.
Their log entries: 5 free values; 28 the part, its fuses, straps and flash; 33 audio codecs and stages; 36, 46 levels and bounds of work;
39, 98 Garnet; 47 video standards; 52, 53 the composer; 58 the host queues' burst; 66, 68, 108, 112 memory; 71 PTP; 74, 77 frames between
devices; 83 NVM; 84 debug; 119 SerDes lanes.
-/

namespace Sys2Proof

/-- What a CONTROL frame says (Table 20.7). The spec names the subjects (formation, admission, trunk set-up) and gives no
layout, so the bytes stay opaque: `Config.readControl` and `Config.writeControl`. -/
inductive Control where
  /-- to a member: the formation, its topology, chain addresses by position, cipher reserves by position, trio or not -/
  | form (trio : Bool) (topo : Nat) (addrs : List Nat) (reserves : List (List Nat))
  /-- from a member: links UP and reserves admitted, with its room in quanta and tiles -/
  | ready (quanta tiles : Nat)
  /-- from a member: budget 0x0006 cannot hold its reserves -/
  | noRoom (required available : Nat)
  /-- from a member: a HELLO showed wrong wiring -/
  | wrongWiring (pos link addr seen : Nat)
  /-- to a member: the formation is committed at a block -/
  | commit (block : Nat)
  /-- to a member: the formation is given up -/
  | abandon
  /-- from a member: its room in quanta and tiles -/
  | room (quanta tiles : Nat)
  /-- to a member: a trunk end to be admitted: trunk, whether it is end A, directions, flags, shed class, session handle and the
  other end's chain address -/
  | trunkAsk (id : Nat) (isA : Bool) (dirs flags cls session far : Nat)
  /-- from a member: the end is admitted, with its leg handle and matrix number -/
  | trunkYes (id handle m : Nat)
  /-- from a member: the end is refused, with a status code and payload -/
  | trunkNo (id status : Nat) (payload : Bytes)
  /-- to a member: the trunk is live from a block, with its charges on the member's links (instance, kbit/s) -/
  | trunkCommit (id block : Nat) (charges : List (Nat × Nat))
  /-- to a member: the trunk is given up -/
  | trunkAbandon (id : Nat)
  /-- to a member: the trunk is removed at a block -/
  | trunkDrop (id block : Nat)
  /-- in a trio: how it stands, for a device that comes back: its cascade ID, leader, sync block and devices -/
  | trio (id leader sync : Nat) (present : List Nat)
  /-- in a trio: the sender leaves -/
  | trioLeft
  /-- in a trio: the leader hands the lease over at a block -/
  | trioTurn (block addr : Nat)
  /-- in a trio: the revert count -/
  | trioRevert (n : Nat)
  deriving DecidableEq, Repr

/-- What a sequence parameter set says of a stream: the elements of Table 9.1 and R287, the size, and what R301 and R308 need of
it. -/
structure StreamParams where
  profile : Nat
  /-- constraint_set1_flag and constraint_set5_flag -/
  set1 : Bool
  set5 : Bool
  /-- level_idc, 9 for level 1b; general_level_idc for HEVC -/
  level : Nat
  highTier : Bool
  /-- frame_mbs_only_flag is 0, or field_seq_flag 1 -/
  fields : Bool
  chromaFormat : Nat
  lumaDepth : Nat
  chromaDepth : Nat
  /-- arbitrary slice order, data partitioning -/
  arbitrary : Bool
  partitioned : Bool
  /-- a range, screen-content or multilayer extension -/
  extended : Bool
  w : Nat
  h : Nat
  /-- pictures of the decoded picture buffer, pictures that may be reordered, and HEVC's sps_max_latency_increase_plus1 -/
  dpb : Nat
  reorder : Nat
  latency : Nat
  /-- gaps_in_frame_num_value_allowed_flag and MaxFrameNum of AVC (R308) -/
  gaps : Bool
  maxNum : Nat
  deriving DecidableEq, Repr

/-- What a picture parameter set says: the sequence parameter set it names, and whether it enables flexible macroblock order, redundant
slices or an extension (R287). -/
structure PicParams where
  sps : Nat
  flexible : Bool
  redundant : Bool
  extended : Bool
  deriving DecidableEq, Repr

/-- A picture of the decoded picture buffer as a slice may name it: its number in the model, its frame_num, its output order, and
whether it is there (AVC also marks frames that were never sent as references). -/
structure RefEntry where
  id : Nat
  num : Nat
  order : Int
  there : Bool
  deriving DecidableEq, Repr

/-- A NAL unit, or a fragment of one, in an RTP payload, as RFC 6184, 6190 and 7798 and the coding standard give it. -/
structure NalUnit where
  /-- dependency_id, temporal ID and quality_id -/
  s : Nat
  t : Nat
  quality : Nat
  /-- it holds slice data, and the first and the last bytes of its NAL unit -/
  slice : Bool
  first : Bool
  last : Bool
  /-- its slice data is a dependent slice segment of HEVC (R289) -/
  dependent : Bool
  /-- it is a prefix NAL unit (type 14): its temporal ID is that of the NAL unit after it (R363) -/
  prefix_ : Bool
  /-- its picture is used for reference -/
  ref : Bool
  /-- the number of the parameter set it carries, or of the picture parameter set its slice names -/
  set : Nat
  /-- its picture, or the picture its parameter sets belong to, is IDR or IRAP -/
  rap : Bool
  /-- its picture lets none before it be used after it: IDR, BLA, or memory_management_control_operation 5; and such a picture drops
  those not put out (no_output_of_prior_pics_flag) -/
  fresh : Bool
  dropPrior : Bool
  /-- its picture is RASL; its picture is for output -/
  rasl : Bool
  output : Bool
  /-- its picture is a switching point up to its temporal ID, and to every higher one (R303, R331) -/
  up : Bool
  upAll : Bool
  /-- frame_num of its picture (R308) -/
  num : Nat
  /-- the area of its slice: runs of 16 × 16 blocks in raster order, each by its first block and its length -/
  runs : List (Nat × Nat)
  /-- the sequence parameter set it carries, or the picture parameter set -/
  params : Option StreamParams
  pic : Option PicParams
  deriving DecidableEq, Repr

/-- What a stream is coded with (Table 10.1): codec and profile, level, the bits of a sample, the side of a macroblock or CTU in luma
samples, CABAC rather than CAVLC, the 8 × 8 transform of High, deblocking, SAO, and the range of the motion search in luma samples
either way, at quarter-sample precision. -/
structure CodingTools where
  codec : Nat
  profile : Nat
  level : Nat
  bits : Nat
  side : Nat
  cabac : Bool
  transform8 : Bool
  deblocking : Bool
  sao : Bool
  searchX : Nat
  searchY : Nat
  deriving DecidableEq, Repr

/-- What the parameter sets of a stream carry (R332): tools, picture size, frame rate, temporal layers and references, and of the
hypothetical reference decoder the bit rate in bits/s, the CPB size in bits and cbr_flag. -/
structure SetFields where
  tools : CodingTools
  w : Nat
  h : Nat
  rate : Nat × Nat
  layers : Nat
  refs : Nat
  bitRate : Nat
  cpb : Nat
  cbr : Bool
  deriving DecidableEq, Repr

/-- How a row of a slice is coded (R335, R338). -/
inductive RowCoding where
  /-- Jasper's syntax at a QP -/
  | jasper (qp : Nat) (syn : Bytes)
  /-- every one of its blocks skip: P_Skip, or HEVC skip with merge candidate 0 -/
  | skip (blocks : Nat)
  /-- every block DC intra prediction at a QP with its luma and chroma DC coefficients alone, none where these are zero -/
  | dc (qp : Nat) (coeffs : List (Option Bytes))
  deriving DecidableEq, Repr

/-- The DDR5 fitting (Table 17.1): one of its rows, DIMMs per memory channel, two ranks, 32 Gb devices. -/
structure Fitting where
  legal : Bool
  two : Bool
  ranks2 : Bool
  big : Bool
  deriving DecidableEq, Repr, Inhabited

end Sys2Proof

namespace Sys2Proof.Config

/-- The bytes of a CONTROL message, whose layout the spec leaves open. -/
opaque writeControl (c : Control) : Bytes

/-- The message of a CONTROL payload. -/
opaque readControl (b : Bytes) : Option Control

/-- What a check code that corrects one and detects two makes of these wrong bits where they are more: good, corrected or
uncorrectable. -/
opaque beyondCode (errs : List Nat) : Fin 3

/-- Free value number `n`: a value the spec leaves open where the machine goes on. -/
opaque freeValue : Nat → BitVec 64

/-- The chain state bytes of a SNAPSHOT (Table 21.1), whose layout the spec leaves open, and what they hold: the states of a
leg's decoder, encoder and voice stages, and its outgoing sequence number and timestamps. -/
opaque writeChain (dec enc voice : Bytes) (nums : List Nat) : Bytes
opaque readChain (b : Bytes) : Option (Bytes × Bytes × Bytes × List Nat)

/-- The fused serial number of the part, 64 bits. -/
opaque serial : BitVec 64

/-- The fused grade: true for QD9816-X (R1, Table 2.12). -/
opaque gradeX : Bool

/-- RECE: the reciprocal estimate, a fixed table the spec does not print (Table 7.5). -/
opaque rece (a b : BitVec 64) : BitVec 64

/-- RSQE: the reciprocal square-root estimate, a fixed table the spec does not print. -/
opaque rsqe (a b : BitVec 64) : BitVec 64

/-- DIVS: one signed divide step, defined outside the spec. -/
opaque divs (a b : BitVec 64) : BitVec 64

/-- MULW: how two 64-bit products of the w lanes fill one destination, which the spec does not say. -/
opaque mulw (a b : BitVec 64) : BitVec 64

/-- PACK in the H view, whose result the spec does not say. -/
opaque packH (sat : Bool) (a b : BitVec 64) : BitVec 64

/-- Where firmware would put items of these sizes in the pool of a core (Table 7.2): an offset for each. -/
opaque poolPlan (core : Nat) (sizes : List Nat) : List Nat

/-! The codecs of Table 6.2 and the stages of Table 6.3 stand in standards outside the spec. Each keeps its state as bytes. -/

/-- A received payload decoded and resampled to 48 kHz: the decoder's new state and the samples. -/
opaque decode (codec : Nat) (st payload : Bytes) : Bytes × List Int

/-- 96 samples of a codec's loss concealment (R194), given the next packet waiting and its distance in samples, whose in-band FEC
it may use (R181). -/
opaque conceal (codec : Nat) (st : Bytes) (next : Option (Nat × Bytes)) : Bytes × List Int

/-- 96 samples of comfort noise (R195). -/
opaque comfort (codec : Nat) (st : Bytes) : Bytes × List Int

/-- A received payload is a SID frame (R195). -/
opaque isSid (codec : Nat) (payload : Bytes) : Bool

/-- Samples resampled from 48 kHz and encoded at a bit rate under the chain flags. -/
opaque encode (codec rate flags : Nat) (st : Bytes) (x : List Int) : Bytes × Bytes

/-- Under discontinuous transmission these samples send no packet. -/
opaque dtxOmits (codec rate : Nat) (st : Bytes) (x : List Int) : Bool

/-- 16 timeslot samples, none where zeroed, expanded and resampled to 96 (Table 6.3 steps 1 to 3). -/
opaque tdmIn (codec : Nat) (st : Bytes) (x : List (Option Byte)) : Bytes × List Int

/-- 96 samples resampled and compressed to 16 timeslot samples. -/
opaque tdmOut (codec : Nat) (st : Bytes) (x : List Int) : Bytes × Bytes

/-- What echo suppression makes of a block and of the leg's own samples of the echo tail (R185): state, whether the outgoing signal
is active, whether the input holds speech of its own, and a gain for each sample in Q2.13. -/
opaque echo (st : Bytes) (x own : List Int) : Bytes × Bool × Bool × List Nat

/-- What noise suppression of a depth makes of a block (R186): state, and a gain for each sample in Q2.13. -/
opaque noise (depth : Nat) (st : Bytes) (x : List Int) : Bytes × List Nat

/-- The gain in 0.001 dB that gain control would bring a block to its target with (R186). -/
opaque agcWant (target : Nat) (st : Bytes) (x : List Int) : Bytes × Nat

/-- Whether speech is detected in a block at a sensitivity (R187). -/
opaque speech (sensitivity : Nat) (st : Bytes) (x : List Int) : Bytes × Bool

/-- Sample `n` of the dual tone of a telephone event. -/
opaque dtmf (event n : Nat) : Int

/-- Sample `n` of a tone of two frequencies in Hz at a level in -dBFS. -/
opaque tone (f1 f2 lvl n : Nat) : Int

/-! Video: what the payload formats and the coding standards give. -/

/-- The NAL units of an RTP payload of a codec; none for one that holds only padding. -/
opaque nalUnits (codec : Nat) (payload : Bytes) : List NalUnit

/-- The payload bytes of a unit's slice data, fragment headers taken off. -/
opaque nalBytes (codec : Nat) (payload : Bytes) (i : Nat) : Bytes

/-- The syntax Agate makes of a slice; none where the slice has a syntax error. -/
opaque sliceSyntax (codec : Nat) (slice : Bytes) : Option Bytes

/-- The reference pictures a slice names, each by its frame_num or output order in the stream, and the picture of the decoded picture
buffer that this is (by its number in the model), if any. -/
opaque sliceRefs (codec : Nat) (slice : Bytes) (dpb : List RefEntry) : List (Int × Option Nat)

/-- The output order of a slice's picture. -/
opaque sliceOrder (codec : Nat) (slice : Bytes) : Int

/-- The pictures that reference marking keeps in the decoded picture buffer once a picture, given by one of its slices, is decoded;
of AVC also once a frame that was never sent is marked (no slice, R308). -/
opaque dpbKeep (codec : Nat) (slice : Option Bytes) (dpb : List RefEntry) : List Nat

/-- The picture buffer after the pixel work of a slice: syntax, the buffer before, the reference pictures, and for SVC the syntax
of the slices of lower layers. -/
opaque pixels (codec : Nat) (syn buf : Bytes) (refs lower : List Bytes) : Bytes

/-- The SVC inter-layer upsampling filter (R309): samples of one size and depth made samples of another. -/
opaque upsample (size size' : Nat × Nat × Nat) (data : Bytes) : Bytes

/-- The RBSP of a parameter set of a NAL unit type that carries some properties of a stream (R332). -/
opaque setRbsp (nalType : Nat) (f : SetFields) : Bytes

/-- The slice header of a slice of a stream (R339): temporal ID, position, IDR, used for reference, its number. -/
opaque sliceHeader (f : SetFields) (tid pos : Nat) (idr ref : Bool) (slice : Nat) : List Bool

/-- The rate controller's fixed model (R338): the QP it wants for a row of a slice, from the stream's rate settings, the type and
temporal ID of the picture, the slice's cap, the bits used so far, the slice's samples and the rows before. -/
opaque modelQp (stream : Bytes) (idr : Bool) (tid cap used row : Nat) (src : Bytes) (before : List RowCoding) : Nat

/-- The bits it predicts for the rows of a slice from a row on at a QP. -/
opaque modelBits (t : CodingTools) (idr : Bool) (qp row : Nat) (src : Bytes) (refs : List Bytes) (before : List RowCoding) : Nat

/-- Jasper's syntax of a row of a slice at a QP. -/
opaque jasperRow (t : CodingTools) (idr : Bool) (qp row : Nat) (src : Bytes) (refs : List Bytes) (before : List RowCoding) : Bytes

/-- The luma and chroma DC coefficients of a block of a row under DC intra prediction at a QP (R335), and the bits a block takes with
some. -/
opaque dcCoeffs (t : CodingTools) (qp row block : Nat) (src : Bytes) (before : List RowCoding) : Bytes
opaque dcBits (t : CodingTools) (qp row block : Nat) (coeffs : Bytes) (before : List RowCoding) : Nat

/-- The bits Agate makes of a row of a slice after the rows before it, as they stand in the NAL unit. -/
opaque rowBits (t : CodingTools) (idr : Bool) (row : Nat) (r : RowCoding) (before : List RowCoding) : List Bool

/-- The samples of a slice as a decoder makes them of its rows as they were coded (R340). -/
opaque reconstruct (t : CodingTools) (idr : Bool) (slice : Nat) (rows : List RowCoding) (refs : List Bytes) : Bytes

/-- A sample of 10 bits brought to 8 for a stream that is coded at 8 bits; the spec does not say how. -/
opaque narrow (v : Nat) : Byte

/-- The scaler coefficients ch and cv of a set and phase (R392), Q2.14; the spec does not print them. -/
opaque scalerH (set phase : Nat) : List Int
opaque scalerV (set phase : Nat) : List Int

/-! Power, boot and resets. -/

/-- The fused start value of VDD_CORE in mV (R693). -/
opaque avsStart : Nat

/-- The straps STRAP_RST_PCIE and STRAP_RST_NMC as the board pulls them (R721, R783). -/
opaque strapPcie : Bool
opaque strapNmc : Bool

/-- What the factory has written to a firmware slot. -/
opaque factorySlot (slot : Nat) : Bytes

/-- The signing-key hash in OTP (R737). -/
opaque signingKeyHash : Bytes

/-- The debug key, x then y: OTP holds its hash (R737), and where the bridge takes the key from is not said. -/
opaque debugKey : Bytes

/-- A word of a sector fails to verify after it has been written (R712): sector, its cycles, word. -/
opaque wordFails (sector cycles word : Nat) : Bool

/-! Memory. -/

/-- The DIMMs fitted (R533). -/
opaque fitting : Fitting

/-- The steps of the eye that step 3 (read) or 4 (write) of training number `n` finds for a bit lane of a memory channel (R558). -/
opaque eye (n chan step lane : Nat) : Nat

/-- What firmware records for a fitting that breaks R533: memory channel, step and lane. -/
opaque fittingRecord : Nat × Nat × Nat

/-- The package fuse table of HBM3 (Table 17.12), 528 bytes. -/
opaque fuseTable : Bytes

/-- Training number `n` of a memory channel: bursts of a pattern run, its seed, the delay it ends with for a selection of Table 17.11,
and the read Vref of a subchannel. -/
opaque trainBursts (n chan step : Nat) : BitVec 16
opaque trainSeed (n chan step : Nat) : BitVec 32
opaque trainedDelay (n chan sel : Nat) : BitVec 9
opaque trainedVref (n chan subch : Nat) : BitVec 7

/-- What a pattern run compared: lanes that mismatched, check-bit lanes, and bursts. -/
opaque compared (n chan step : Nat) : BitVec 32 × BitVec 8 × BitVec 32

/-- The shadow sampler of a lane in a block or window: mismatches at delay − d and + d, and samples (R552, R554). -/
opaque shadow (time lane d : Nat) : Nat × Nat × Nat

/-- A byte of DDR5 that nothing has defined, at an internal address. -/
opaque ringByte (addr : Nat) : Byte

/-- A sample of a source picture outside it, where the picture is smaller than a plane's crop window. -/
opaque beyond (component x y : Nat) : Nat

/-- The clock identity of a port in PTP (IEEE 1588), which the spec does not give. -/
opaque clockIdentity (port : Nat) : BitVec 64

/-- The bridge's own IP address on a port for PTP messages, which the spec does not give. -/
opaque ptpAddress (port family : Nat) : Bytes

/-- The burst in bytes, 1 to 16,777,215, of the leg shaper of a host-sent frame queue, which the spec does not give. -/
opaque hostBurst : Fin 16777215

/-- A byte of an output buffer of a composition before anything was composed in it. -/
opaque storeByte (comp i : Nat) : Byte

/-- The place of a leg chain item among levels 12 to 15, less 12 (Table 8.3), which the spec does not give. -/
opaque chainLevel : Fin 4

/-- What the board section of a firmware image gives a SerDes lane (R785): polarity inversion, and a tap of its transmit equaliser. -/
opaque laneInvert (image : Bytes) (lane : Nat) : Bool
opaque laneTap (image : Bytes) (lane tap : Nat) : Int

/-- What a lane's receiver has adapted to in a block: the continuous-time equaliser, and a tap of the decision-feedback equaliser. -/
opaque laneCtle (lane block : Nat) : Nat
opaque laneDfe (lane block tap : Nat) : Int

/-- The bound in ns of a Garnet item, which the spec does not give. -/
opaque garnetBound : Nat

/-- The frame period in ns of a video leg's stream where no decode declares its rate. -/
opaque streamPeriod (leg : Nat) : Nat

end Sys2Proof.Config
end

