-- ==== Sys2Proof/Machine/State.lean ====
section
/-!
DEFINITION. Everything the spec gives the block, as plain data, and the state after a power-on reset.
-/

namespace Sys2Proof.Machine

/-- The twelve operating modes of Table 24.1 (R715). -/
inductive Mode where
  | reset | boot | calibrate | ready | standalone | cascadeMaster | cascadeMember
  | trioLeader | trioFollower | shed | maintenance | halt
  deriving DecidableEq, Repr

/-- The status codes of Table 2.10 (R64), in code order. -/
inductive Status where
  | ok | aborted | invalidOpcode | invalidArg | badLength | badCrc | seqGap | staleHandle
  | noSuchObject | wrongState | noBudget | noResource | busy | notMaster | leaseHeld
  | keyExhausted | planeTooWide | unsupported | timeout | denied
  deriving DecidableEq, Repr

/-- One slot as the bridge writes it: the header fields of Table 2.2 and the payload. The bytes, the
fold and the CRC are a function of it and of its ring number (`Slot.bytes`). -/
structure Slot where
  opcode : Nat
  flags : Nat
  seq : Nat
  target : Nat
  status : Nat
  tag : Nat
  payload : Bytes
  deriving DecidableEq, Repr

/-- One ring of a mailbox: its MBX registers and the sequence expected or next given (R26 to R30). -/
structure Ring where
  en : Bool
  base : BitVec 64
  log2n : Nat
  head : Nat
  tail : Nat
  seq : BitVec 32
  err : Bool
  deriving DecidableEq, Repr

/-- What a started command waits for before its response is written. -/
inductive Wait where
  /-- the DMA reads of its data (R797) -/
  | read
  /-- the readback after its DMA write (R798) -/
  | write
  /-- the restart of the media plane (R69) -/
  | restart
  /-- the formation of a cascade or a trio (R633, R652) -/
  | formation
  /-- the QSPI programming of a firmware slot (R744) -/
  | flash
  /-- room in the matrix write queue (R147) -/
  | room
  /-- the effects of earlier commands of its ring, for a command with FENCE (R48) -/
  | fence
  /-- the commands taken before it, for a SystemReset or a MediaRestart (R67) -/
  | drain
  deriving DecidableEq, Repr

/-- A command that has started and has no response yet. -/
structure Flight where
  op : Nat
  req : Req
  resp : Bytes
  wait : Wait
  deriving DecidableEq, Repr

/-- A command taken: one that passed steps 1 to 6 of Table 2.6, or one that failed with a status and payload. -/
inductive Taken where
  | run (op : Nat) (req : Req)
  | bad (op : Nat) (req : Req) (st : Status) (p : Bytes)
  deriving DecidableEq, Repr

/-- One mailbox: the four PCIe functions are 0 to 3, the NMC window is 4. -/
structure Mailbox where
  cmd : Ring
  rsp : Ring
  evt : Ring
  /-- RSP_IE, EVT_IE, HPR_IE, HPT_IE of MBX_CTRL [11:8] -/
  ie : BitVec 4
  fwReady : Bool
  heartbeat : BitVec 32
  /-- the event mask of EventMaskSet (R66) -/
  mask : BitVec 16
  /-- slots the host has rung for that the bridge has not taken yet -/
  rung : List Bytes
  /-- commands taken and checked to step 6, not yet started -/
  taken : List Taken
  /-- the started command without a response -/
  flight : Option Flight
  /-- how many of the responses to come are discarded: those of commands taken before the ring was disabled (R70, R755) -/
  drop : Nat
  /-- completed changes of this mailbox that have not had their effect (R48) -/
  outstanding : Nat
  nTaken : Nat
  nBadCrc : Nat
  nSeqGap : Nat
  nLost : Nat
  /-- events dropped since the last EventsLost, and the opcode of the first (Table 2.8) -/
  lostCount : Nat
  lostFirst : Nat
  /-- FaultNotices held for room, oldest first (R96) -/
  held : List Bytes
  lostBefore : Bool
  /-- Ready is the next event due on the ring (Table 2.8, R756) -/
  readyDue : Bool
  /-- firmware has reached the moment at which Ready is raised -/
  readyRaised : Bool
  /-- MSI-X vector masks, function mask, pending bits and table words (R757) -/
  msixMask : BitVec 4
  msixFnMask : Bool
  msixPending : BitVec 4
  msixTable : List (BitVec 32)
  deriving DecidableEq, Repr

/-- What every object shares (R83, R793): its creator, its state and the costs it reserves. -/
structure Obj where
  owner : Nat
  active : Bool
  /-- media flows: the state as its boundaries have put it in force (Table 3.4) -/
  flow : Bool
  /-- the destroy has completed and not yet taken effect -/
  dying : Bool
  /-- set up for a TrunkCreate that has not completed: no object yet (R641, R793) -/
  unborn : Bool
  shedClass : Nat
  /-- put to HELD by a shed (R125) -/
  shed : Bool
  cost : Costs
  deriving DecidableEq, Repr

/-- The command a scheduled change came from: whose ring, which tag and handle, Applied or not. -/
structure Origin where
  mbx : Nat
  tag : BitVec 64
  handle : Nat
  event : Bool
  deriving DecidableEq, Repr

/-- The boundary a scheduled change waits for (R795). -/
inductive Boundary where
  /-- the start of block `n` -/
  | block (n : Nat)
  /-- the next frame boundary of a composition -/
  | frame (comp : Nat)
  /-- the next frame boundary of a video leg, for a command completed at a time (the text after R384) -/
  | leg (leg since : Nat)
  /-- the next picture of the decoded stream of a sending video leg whose first packet comes after a time (R320) -/
  | picture (leg since : Nat)
  /-- the next 125 µs line frame -/
  | line
  /-- the next refill of the leg shaper of a queue (R462) -/
  | refill (queue : Nat)
  /-- the pictures chosen under R352: those streams of an encoding that have not coded theirs yet -/
  | keys (enc : Nat) (streams : List Nat)
  /-- the next CAS multiframe of an E1 path (R607) -/
  | cas (path : Nat)
  /-- the next update of a time domain, or for 3 the next one that feeds the servo (R586, R594) -/
  | update (dom : Nat)
  /-- the next temperature sample (R706) -/
  | sample
  deriving DecidableEq, Repr

/-- The states of the NMC window (Table 2.9), coded as NMC_STATUS [1:0]. -/
inductive WinState where
  | idle | busy | response | event
  deriving DecidableEq, Repr

/-- The chain side of the part: the NMC window, its event queue and the NMC registers (R58, R59, R765). -/
structure Nmc where
  addr : Nat
  enumerated : Bool
  window : Bytes
  wstate : WinState
  attn : Bool
  /-- event slots waiting for the window, oldest first (R59, R61) -/
  queue : List Slot
  overflow : BitVec 16
  fcrcErr : BitVec 16
  acted : BitVec 32
  evtDropped : BitVec 16
  deriving DecidableEq, Repr

/-- A media restart in progress (R69, R717). -/
structure Restart where
  /-- the mode the restart left -/
  from_ : Mode
  /-- the mailbox whose MediaRestart began it, if one did -/
  by_ : Option Nat
  /-- the cause of its FaultNotice (Table 3.9) -/
  cause : Nat
  /-- the commands outstanding when it began, the items dropped, and the block it began in -/
  aborted : Nat
  dropped : Nat
  block : Nat
  deriving DecidableEq, Repr

/-- A SystemReset or MediaRestart taken and not carried out (R67). -/
structure Fence where
  /-- the mailbox that took it -/
  mbx : Nat
  /-- how many commands each mailbox had taken then, this one included -/
  upTo : Table Nat
  /-- it has passed its checks -/
  begun : Bool
  deriving DecidableEq, Repr

/-- Modes, boot and debug (Tables 24.1, 25.3 to 25.5). -/
structure Sys where
  mode : Mode
  /-- the mode SHED will return to (R717) -/
  remembered : Option Mode
  restart : Option Restart
  /-- a reset held while an NVM word pulses (R729): true for cold, and its source -/
  resetDue : Option (Bool × Nat)
  /-- the cause of the HALT the bridge is in, and the source of a cold reset that waits for its flight record (R730) -/
  halted : Option Nat
  after : Option Nat
  /-- the SystemResets and MediaRestarts taken and not carried out, oldest first (R67) -/
  marks : List Fence
  /-- commands completed with ABORTED for the command that waits so, before its restart began (R93) -/
  aborts : Nat
  /-- a debug challenge that is valid (Table 24.14) -/
  challenge : Option Bytes
  /-- security version of the running image -/
  secVersion : Nat
  /-- lane tests of MAINTENANCE: mode by lane -/
  laneTests : Table Nat
  /-- PWR_FAIL_N has been taken low, and its flight record requested, and it has not returned (R741) -/
  pwrFail : Bool
  /-- PERST_N of a function has risen since BOOT was entered (R731) -/
  perst : Table Bool
  /-- the root PLL is locked, and REFCLK_25 is present -/
  pll : Bool
  refclk : Bool
  /-- the zero-fill of retained memory is due at the next BOOT (Table 24.7) -/
  fill : Bool
  fwBuild : Nat
  slot : Nat
  fallback : Bool
  otpCounter : Nat
  unlocked : Bool
  /-- straps: STRAP_RST_PCIE, STRAP_RST_NMC, PCLASS[1:0], PMADDR[2:0] (Table 25.4) -/
  strapPcie : Bool
  strapNmc : Bool
  pclass : Nat
  pmaddr : Nat
  /-- media restarts since the last reset (RST_MEDIA_RESTARTS) -/
  restarts : BitVec 16
  deriving DecidableEq, Repr

/-- A node of the matrix as a number: `input * 16384 + output` (R131). -/
abbrev Node := Nat

/-- What a placed entry of the write queue does in its apply block (R145, R156). -/
inductive Placed where
  /-- node writes of one command, in entry order, each with the keys of its two legs (R157) -/
  | writes (l : List (Node × BitVec 16 × Nat × Nat))
  /-- the two strip clears of a destroyed leg: its matrix number and its key -/
  | strip (m key : Nat)
  deriving DecidableEq, Repr

/-- One entry of the write queue: its apply block, what it writes and the command it came from. -/
structure QueueEntry where
  block : Nat
  what : Placed
  org : Origin
  deriving DecidableEq, Repr

/-- A fade: its node, the apply block of its first step, the gains its steps write (R150) and its command. -/
structure Fade where
  node : Node
  start : Nat
  gains : List (BitVec 16)
  step : Nat
  target : BitVec 16
  /-- ended by a later write of the node (R152): FADING up to its last step -/
  cut : Bool
  src : Nat
  dst : Nat
  org : Origin
  deriving DecidableEq, Repr

/-- One point of a meter subscription and what the period has gathered (R163, R164). -/
structure MeterPoint where
  leg : Nat
  output : Bool
  held : Int
  age : Nat
  peak : Nat
  msSum : Nat
  clipped : Bool
  deriving DecidableEq, Repr

/-- A meter subscription (Table 5.9). -/
structure MeterSub where
  period : Nat
  hold : Nat
  decay : Nat
  points : List MeterPoint
  /-- blocks gathered in the running period -/
  blocks : Nat
  deriving DecidableEq, Repr

/-- The states of a duck group (Table 5.13). -/
inductive DuckState where
  | idle | active | hang | release
  deriving DecidableEq, Repr

/-- A duck group (Table 5.11, R165 to R169). Attenuations are in 0.1 dB. -/
structure Duck where
  session : Nat
  depth : Nat
  mode : Nat
  attack : Nat
  release : Nat
  hang : Nat
  triggers : List Nat
  members : List Nat
  forced : Bool
  st : DuckState
  att : Nat
  /-- blocks of inactivity so far -/
  quiet : Nat
  deriving DecidableEq, Repr

/-- The Beryl matrix mixer (R130 to R177). -/
structure Matrix where
  /-- the gain plane in HBM3: unlisted nodes are open -/
  plane : Table (BitVec 16)
  /-- firmware's shadow copy of the plane in DDR5 (R171) -/
  shadow : Table (BitVec 16)
  /-- the gain of each node after every placed write and every fade's last step -/
  last : Table (BitVec 16)
  /-- population count of each tile; the occupancy bit is that the count is not 0 (R138) -/
  count : Table Nat
  queue : List QueueEntry
  fades : List Fade
  /-- per mailbox, the block below which its next command may not be placed (R146) -/
  floor : Table Nat
  /-- input bank Garnet writes, and the one Beryl mixes; 96 samples a matrix number -/
  inWrite : Table (List Int)
  inRead : Table (List Int)
  /-- output bank the mix fills, and the one Garnet reads -/
  outMix : Table (List Int)
  outRead : Table (List Int)
  /-- inputs with a poisoned word in the bank Garnet writes, and in the one Beryl mixes (R678) -/
  poisonWrite : List Nat
  poisonRead : List Nat
  /-- the mix of the previous block has not ended yet (Table 5.2) -/
  mixing : Bool
  /-- Beryl is out of service after a fault -/
  down : Bool
  /-- the last apply block whose application phase has ended -/
  upTo : Nat
  subs : Table MeterSub
  ducks : Table Duck
  applied : Nat
  rolled : Nat
  dropped : Nat
  clipped : Nat
  longest : Nat
  deriving DecidableEq, Repr

/-- A session (R158): auto-mix on, and its default gain. -/
structure Session where
  autoMix : Bool
  gain : BitVec 16
  deriving DecidableEq, Repr

/-- A tone or clip of a leg: its payload (Table 6.12 or 6.13), its first capture block, and the capture block from which
it is heard no more. -/
structure Play where
  isClip : Bool
  spec : Bytes
  start : Nat
  stop : Option Nat
  deriving DecidableEq, Repr

/-- A kernel bound in an effect slot (Table 7.10). -/
structure Binding where
  kernel : Nat
  quanta : Nat
  data : Bytes
  params : Bytes
  /-- times of its exceptions, newest first (R241) -/
  faults : List Nat
  suspended : Bool
  /-- an invocation has run out of cycles: its bundle and g7, until CYCLES_EXCEPTION (R239) -/
  overTimes : Option (Nat × Nat)
  deriving DecidableEq, Repr

/-- The counters of LegStatsGet (Table 6.14). -/
structure LegStats where
  received : Nat
  sent : Nat
  late : Nat
  early : Nat
  overRate : Nat
  expired : Nat
  lost : Nat
  refused : Nat
  concealed : Nat
  anchors : Nat
  gaps : Nat
  octets : Nat
  overlap : Nat
  deriving DecidableEq, Repr

/-- A telephone event being sent (R203): the capture block its run began in, its LegToneStart payload, its RTP timestamp and the
packets sent so far. -/
structure TelSend where
  run : Nat
  spec : Bytes
  ts : Nat
  n : Nat
  deriving DecidableEq, Repr

/-- An audio leg. `cfg` holds the LegCreate payload (Tables 6.6 to 6.8) as the codec changes have left it, `chain`
the LegChainSet payload (Table 6.10). -/
structure Leg where
  cfg : Bytes
  chain : Bytes
  m : Nat
  core : Nat
  inQ : Nat
  outQ : Nat
  /-- receive state of Table 6.4: 0 UNANCHORED, 1 PLAYING, 2 CONCEALING, 3 SILENT, 4 NO_MEDIA -/
  rx : Nat
  /-- the playout anchor: sample position and RTP timestamp (R190) -/
  anchor : Option (Nat × Nat)
  ssrc : Option Nat
  lastSeq : Option Nat
  /-- packets late- or early-refused in a row (R192) -/
  badRow : Nat
  lastArrival : Nat
  /-- sequence numbers accepted, of the 32,768 up to the highest, newest first: a repeat is a duplicate (R191) -/
  recent : List Nat
  /-- decoded samples not yet played: first position and samples -/
  pcm : List (Nat × List Int)
  /-- decoder, encoder and voice stage states, opaque to the model -/
  decSt : Bytes
  encSt : Bytes
  voiceSt : Bytes
  /-- comfort noise is being produced (R195) -/
  comfort : Bool
  /-- ms of continuous concealment (R194); 60 before a packet has played, when nothing is concealed -/
  concealMs : Nat
  /-- gain of step 6 in 0.001 dB (R186) -/
  agc : Nat
  /-- policer bucket in 10^-9 / 120 bytes and the time it was filled to (R121) -/
  tokens : Nat
  tokensAt : Nat
  voice : Bool
  /-- last block with speech (R187) -/
  lastSpeech : Nat
  /-- effect block of the last Enable: the first capture block that is sent -/
  since : Nat
  /-- the effect block of the Enable or codec change whose packets the encoder makes, and the configuration it makes them under (R197) -/
  grid : Nat
  encCfg : Bytes
  /-- codec changes in force whose blocks the encoder has not come to: effect block and configuration -/
  tx : List (Nat × Bytes)
  txSeq : Nat
  /-- the RTP timestamp at capture block `tsBlock` -/
  txTs : Nat
  tsBlock : Nat
  lastTs : Nat
  lastBlock : Nat
  /-- no packet has been sent since Enable; discontinuous transmission has been silent since the last speech packet (R198) -/
  marker : Bool
  quiet : Bool
  /-- samples of the outgoing packet not yet complete, and its first capture block (R197) -/
  part : List Int
  partFrom : Nat
  /-- the telephone event being sent (R203) -/
  telTx : Option TelSend
  /-- the last block the chain ran for, and the leg's own samples after step 14 of the last 128 ms, oldest first (R185) -/
  lastRun : Nat
  own : List Int
  tone : Option Play
  clip : Option Play
  /-- ended tones and clips whose last capture blocks are still to be output -/
  tails : List Play
  /-- the telephone event being received: code, RTP timestamp, and whether its end has been seen (R202) -/
  telEvent : Option (Nat × Nat × Bool)
  /-- its volume and duration in ms as last heard, and the timestamps of the events told so far (R202) -/
  telVol : Nat
  telMs : Nat
  telSeen : List Nat
  slot1 : Option Binding
  slot2 : Option Binding
  /-- the quanta placed on the leg's core, those that wait for their boundary included (R215, R116) -/
  quanta : Nat
  /-- the previous block of encoder input, and how many Beryl outputs have been missing since (R196) -/
  prevOut : List Int
  missing : Nat
  stats : LegStats
  deriving DecidableEq, Repr

/-- The audio legs, sessions and clips. -/
structure Audio where
  sessions : Table Session
  legs : Table Leg
  /-- clips by number: 16-bit PCM bytes (R205) -/
  clips : Table Bytes
  /-- matrix numbers not yet free, with the time from which they are (R179) -/
  busyM : Table Nat
  deriving DecidableEq, Repr

/-- A loaded kernel (Table 7.7, Table 7.13). -/
structure Kernel where
  w : Nat
  entry : Nat
  code : List (BitVec 128)
  consts : Bytes
  stateBytes : Nat
  scratch : Nat
  params : Nat
  mask : Nat
  invocations : Nat
  largest : Nat
  cycles : Nat
  others : Nat
  deriving DecidableEq, Repr

/-- The Garnet DSP cluster: the kernels and each core's scratch (R224). -/
structure Garnet where
  kernels : Table Kernel
  /-- the 8 KiB of scratch of each core, as invocations have left it -/
  scratch : Table Bytes
  /-- quanta placed on each core (R215) -/
  placed : Table Nat
  deriving DecidableEq, Repr

/-- Where an accepted work item is (Table 8.7). -/
inductive ItemState where
  | queued
  | staged (inst : Nat)
  | running (inst : Nat)
  /-- ended with a status of Table 8.6 and a result, its record waiting for its flow -/
  | ended (status result : Nat)
  deriving DecidableEq, Repr

/-- What an accepted item is for: what its end does to the rest of the block. -/
inductive Job where
  /-- an item whose effect lies outside the model -/
  | none
  /-- the leg chain of an audio leg for a block (R184) -/
  | chain (leg block : Nat)
  /-- a received SRTP or SRTCP packet of a leg (R421): its arrival and deadline -/
  | cipherIn (leg arrival deadline : Nat) (rtcp : Bool)
  /-- a slice: stage 0 Agate and 1 Jasper of a decode (object: leg), 2 Opal (composition), 3 Jasper and 4 Agate of an
  encode (encoding * 4 + stream); the picture, and the slice or band within it -/
  | video (stage obj pic slice : Nat)
  /-- a packet of a leg to protect and send on a port -/
  | cipherOut (leg port : Nat) (rtcp : Bool)
  /-- a BLP frame received on a link: its type and its arrival in ns -/
  | linkIn (link kind arrival : Nat)
  /-- a BLP frame to send on a link: its class, and the type, source, destination, hops left and block of its header -/
  | linkOut (link cls kind src dst hops block : Nat)
  deriving DecidableEq, Repr

/-- A submission as its source presents it: the descriptor, the data it points at, and what it is for. -/
structure Submission where
  desc : Bytes
  data : Bytes
  job : Job
  deriving DecidableEq, Repr

/-- An accepted work item (R258, R260). -/
structure Item where
  id : Nat
  list : Nat
  source : Nat
  desc : Bytes
  /-- the data the item works on, and then its result -/
  data : Bytes
  job : Job
  st : ItemState
  /-- a cancel has marked it while it runs (R269) -/
  marked : Bool
  /-- the time it started to run, in ns -/
  started : Nat
  deriving DecidableEq, Repr

/-- The states of an engine instance (Table 8.10). -/
inductive InstState where
  | enabled | draining | disabled | retired
  deriving DecidableEq, Repr

/-- One engine instance: its state, the times of its faults, and its reset after a fault (R90). -/
structure Inst where
  st : InstState
  faults : List Nat
  /-- being reset after a fault, until INSTANCE_RETURN -/
  down : Bool
  /-- the mailbox whose DispatchDisable drains it (R285) -/
  drainBy : Option Nat
  deriving DecidableEq, Repr

/-- The work dispatcher (R252 to R285). -/
structure Work where
  /-- outstanding items, in order of acceptance -/
  items : List Item
  /-- next ID count of each list (R260) -/
  next : Table Nat
  /-- engine instances by kind * 2^16 + instance; an unlisted one is ENABLED -/
  insts : Table Inst
  /-- submissions held back at a source, oldest first, by source * 2^8 + kind (R261, R262) -/
  held : Table (List Submission)
  /-- the throttled share of the running block is in force (R281) -/
  throttled : Bool
  /-- statistics of each list, by list * 64 + offset of Table 8.14 -/
  stats : Table Nat
  /-- completion records released, by internal address, newest first (R268) -/
  records : List (Nat × Bytes)
  /-- completion records returned to their sources, and descriptors refused to theirs, newest first (R259, R268) -/
  returned : List (Nat × Bytes)
  refused : List (Nat × Bytes)
  /-- items whose records have been released and whose jobs have not been passed on, oldest first; empty between steps -/
  released : List Item
  deriving DecidableEq, Repr

/-- A picture of the picture store (R300): planar 4:2:0 samples, one byte each, or two at 10 bits. -/
structure Picture where
  /-- number of the picture among those of its source, rising -/
  id : Nat
  w : Nat
  h : Nat
  depth : Nat
  ts : Nat
  data : Bytes
  /-- marked concealed (R310) -/
  concealed : Bool
  /-- luma rows available from the top (R402) -/
  rows : Nat
  /-- the time it became available whole; 0 before -/
  since : Nat
  /-- spatial and temporal layer, and output order -/
  s : Nat
  t : Nat
  order : Int
  /-- what the bounds of R106 and R107 run from: first and last luma row and a time in ns, an entry for the last packet of each
  slice of a decoded picture, and for each composite slice with new source slices -/
  arrived : List (Nat × Nat × Nat)
  deriving DecidableEq, Repr

/-- A whole slice received, as Agate gets it (R289): its unit with the area of all its segments, and its coded bytes. -/
structure Slice where
  unit : NalUnit
  data : Bytes
  /-- the arrival of its last packet -/
  at_ : Nat
  deriving DecidableEq, Repr

/-- A slice being collected: its first unit with the area so far, its bytes, the arrival of its last packet, and whether its last
NAL unit is whole. -/
structure OpenSlice where
  unit : NalUnit
  data : Bytes
  at_ : Nat
  whole : Bool
  deriving DecidableEq, Repr

/-- A picture being decoded. -/
structure DecPic where
  pic : Picture
  /-- slices with the dispatcher by number, the number of the next, and the units of those received -/
  slices : Table Slice
  next : Nat
  got : List NalUnit
  /-- runs of blocks decoded at the target layer -/
  done : List (Nat × Nat)
  /-- syntax of the slices decoded, by number, with their layers: those of lower layers predict the target layer (R302) -/
  syn : Table (Nat × Bytes)
  /-- its last packet has been seen -/
  closed : Bool
  /-- a RAP; a slice of it was lost, of whatever layer (R306, R310) -/
  rap : Bool
  lost : Bool
  /-- the slice of the target layer decoded first: it says how reference marking goes on -/
  head : Option Slice
  /-- its place among the frames of AVC has been taken (R308), and the references found missing, by their names in the stream -/
  begun : Bool
  miss : List Int
  deriving DecidableEq, Repr

/-- A picture of the decoded picture buffer: frame_num, and whether it is there; a frame that an AVC gap in frame_num leaves out is
not (R308). -/
structure RefPic where
  pic : Picture
  num : Nat
  there : Bool
  deriving DecidableEq, Repr

/-- A decode of a sending video leg (R289 to R321). -/
structure Decode where
  /-- Table 9.7 -/
  cfg : Bytes
  /-- 0 OFF, 1 WAIT_RAP, 2 CLEAN, 3 CONCEALED (Table 9.4) -/
  st : Nat
  /-- the start timeout is to run from the next picture (R305), and the time it began -/
  arm : Bool
  began : Option Nat
  /-- when it has passed: the next picture is decoded -/
  forced : Option Nat
  /-- targets in force (R303) -/
  sT : Nat
  tT : Nat
  /-- RefMissing is owed for a decode begun by the timeout -/
  owe : Bool
  /-- the active parameter set and its spatial layer; where there is none, what is declared stands for it (R318) -/
  active : Option (Nat × StreamParams)
  /-- sequence parameter sets received, by layer * 65,536 + number, and picture parameter sets by number (R318) -/
  sets : Table StreamParams
  pps : Table PicParams
  /-- temporal ID of a prefix NAL unit whose NAL unit has not ended (R363) -/
  prefix_ : Option Nat
  /-- the next sequence number in order, and packets ahead of it: number, timestamp, marker, arrival, payload (R306) -/
  expect : Option Nat
  buf : List (Nat × Nat × Bool × Nat × Bytes)
  /-- RTP timestamp of the picture being received, whether its last packet has been seen, whether it is decoded, whether slice data of it
  has come, and what of it is in the store: 0 nothing, 1 a lower layer, 2 the target layer -/
  ts : Option Nat
  ended : Bool
  taken : Bool
  data : Bool
  seen : Nat
  /-- the slice being collected; or the rest of one that has been lost, which is passed over -/
  open_ : Option OpenSlice
  hole : Bool
  /-- a slice of the picture has been lost -/
  bad : Bool
  /-- RASL pictures are passed over: decoding began at the IRAP picture before them (R301) -/
  skipRasl : Bool
  /-- whole slices of a RAP candidate (R304) -/
  held : List Slice
  pics : List DecPic
  /-- the decoded picture buffer, newest first, and frame_num of the reference picture before, none where nothing is known of it -/
  dpb : List RefPic
  prevNum : Option Nat
  /-- pictures waiting for output order, with HEVC's latency count (R301), and those put out, newest first -/
  wait : List (Picture × Nat)
  out : List Picture
  /-- the last picture put out, by spatial layer (R307); the newest decoded, by spatial layer * 8 + temporal layer (R309) -/
  lastOut : Table Picture
  newest : Table Picture
  next : Nat
  lastOrder : Option Int
  /-- bytes in the syntax buffer, by picture * 65,536 + slice, and the slices that found no room (R293) -/
  syntax_ : Table Nat
  overflow : List Nat
  /-- a RAP has decoded cleanly is awaited; pictures concealed in the episode -/
  run : Nat
  /-- the request episode: its start, and whether a FIR of it has been sent (R314) -/
  episode : Option (Nat × Bool)
  /-- counters by offset of Table 9.9; which no field shows: at 48 the NAL units of quality layers discarded (R287), at 52 and 56
  the occurrences of UNSUPPORTED and FORMAT (R312) -/
  stats : Table Nat
  deriving DecidableEq, Repr

/-- A source SSRC of a sending leg: highest sequence number, numbers never received so far, those numbers, the timestamp
of the last packet. -/
structure SrcIn where
  high : Option Nat
  /-- numbers never received so far within half the number space behind it: runs by first number and length, newest first -/
  holes : List (Nat × Nat)
  /-- timestamp of the picture that passes, when its first packet arrived, and that none of its packets has yet shown what
  picture it is -/
  ts : Option Nat
  picAt : Nat
  opening : Bool
  /-- temporal ID of a prefix NAL unit whose NAL unit has not come (R363) -/
  prefix_ : Option Nat
  deriving DecidableEq, Repr

/-- A key-frame request that waits (R315): method, media SSRC, and what it is for: 0 the decode, 1 forwarding, 2 the host. -/
structure KeyReq where
  method : Nat
  ssrc : Nat
  why : Nat
  deriving DecidableEq, Repr

/-- A video leg (R360 to R385). -/
structure VLeg where
  /-- Table 11.6 -/
  cfg : Bytes
  tokens : Nat
  tokensAt : Nat
  lastArrival : Nat
  enabledAt : Nat
  /-- sending: state of each source SSRC -/
  src : Table SrcIn
  /-- accepted packets of the last second: time, s, t, payload bits (R365) -/
  window : List (Nat × Nat × Nat × Nat)
  decode : Option Decode
  /-- the declaration of the last DecodeSet, none after DecodeClear -/
  decl : Option Bytes
  /-- time of the last DecodeError of each cause (R312) -/
  told : Table Nat
  lastReq : Option Nat
  deferred : List KeyReq
  fir : Nat
  /-- receiving: the source's key, its limits (Table 11.7) -/
  source : Option Nat
  /-- a source before it, forwarded until the switch (Table 11.3) -/
  old : Option Nat
  target : Nat
  maxS : Nat
  maxT : Nat
  /-- state of Table 11.3 -/
  st : Nat
  /-- the point in force, and the one wanted -/
  cur : Option (Nat × Nat)
  wanted : Option (Nat × Nat)
  /-- a key-frame request for the wanted point has been made (R369) -/
  asked : Bool
  seq : Nat
  offset : Nat
  /-- SSRC and key of the source of the last packet sent -/
  ssrc : Option Nat
  lastSrc : Option Nat
  /-- incoming sequence number forwarded last, outgoing timestamp of the last picture and when that picture began -/
  lastSeq : Option Nat
  outTs : Option Nat
  picAt : Nat
  /-- counters by offset of Table 11.8; at 48 the generic NACKs (Table 11.2), which no field shows -/
  stats : Table Nat
  deriving DecidableEq, Repr

/-- A picture being encoded for a stream: timestamp, type, position, the stream's settings at its boundary, slice caps, and by slice
the bits coded. -/
structure EncPic where
  id : Nat
  ts : Nat
  idr : Bool
  pos : Nat
  boundary : Nat
  cfg : Bytes
  /-- what the fill goes through from the picture before to this one (R333): a drain, and an upper bound where one is set -/
  drains : List (Nat × Option Nat)
  /-- by slice, once Opal has completed it: its samples as they are coded, and the time by which its packets depart (R106) -/
  src : Table Bytes
  due : Table Nat
  /-- coding has begun: the caps of the slices (R337) -/
  begun : Bool
  caps : List Nat
  bits : Table Nat
  /-- when its first packet was sent -/
  first : Option Nat
  /-- slices ended, one lost, rows at QP max, fallback rows -/
  ended : Nat
  lost : Bool
  maxed : Bool
  fell : Nat
  concealed : Bool
  /-- NAL units released so far, for the recorder taps, and the reconstructed samples by slice (R340) -/
  data : Bytes
  recon : Table Bytes
  deriving DecidableEq, Repr

/-- A stream of an encoding (R322 to R359). -/
structure Stream where
  /-- Table 10.9 -/
  cfg : Bytes
  /-- boundaries since the last Enable or cap change; the fill as of the last picture coded, what it goes through after the last
  picture begun, and the fill after the last picture as shown; position of the next picture (R329, R333) -/
  n : Nat
  fill : Nat
  drains : List (Nat × Option Nat)
  shown : Nat
  pos : Nat
  /-- the next picture is IDR: the first after Enable or after a lost slice (R351) -/
  due : Bool
  /-- a key-frame request waits, for a picture from a frame number on (R352, R657) -/
  req : Bool
  reqFrom : Nat
  /-- frame number of the last IDR picture -/
  lastIdr : Option Nat
  seq : Nat
  pics : List EncPic
  next : Nat
  /-- reference pictures, newest first: temporal ID and samples (R330) -/
  refs : List (Nat × Bytes)
  /-- bits of each slice of the previous picture of a type: type * 64 + slice (R337) -/
  weights : Table Nat
  /-- sent packets of the last second: time, temporal ID, bits -/
  window : List (Nat × Nat × Nat)
  /-- time of the last RateCapped of each mode -/
  told : Table Nat
  /-- counters by offset of Table 10.13 -/
  stats : Table Nat
  deriving DecidableEq, Repr

/-- An encoding. -/
structure Encoding where
  /-- Table 10.8 -/
  cfg : Bytes
  streams : List Stream
  deriving DecidableEq, Repr

/-- A plane of a composition in force (Table 12.4): 0 READY, 1 HOLDING, 2 FILLED; its counter; the newest picture seen, and
the time the source was last changed. -/
structure PlaneRun where
  st : Nat
  m : Nat
  seen : Option Nat
  since : Nat
  deriving DecidableEq, Repr

/-- The output picture being composed: frame number, slices submitted, items left per slice, slices complete. -/
structure CompRun where
  frame : Nat
  pic : Picture
  started : Nat
  left : Table Nat
  /-- the planes in force for the frame, and the pictures that they show, by slice (R402, R406) -/
  planes : List Bytes
  sel : Table (List (Option Picture))
  /-- slices lost, the planes found poisoned by slice, and slices of which an item did not end DONE (R415) -/
  bad : List Nat
  poison : Table Nat
  broken : List Nat
  done : Nat
  deriving DecidableEq, Repr

/-- A composition (R386 to R416). -/
structure Comp where
  /-- Table 12.1 -/
  cfg : Bytes
  /-- the eight shadows and the eight planes in force (Table 12.2) -/
  shadow : List Bytes
  planes : List Bytes
  run : List PlaneRun
  /-- commits that wait, in effect order: frame number and planes -/
  commits : List (Nat × List Bytes)
  /-- the next frame boundary -/
  next : Nat
  cur : Option CompRun
  /-- the picture before it, while it is not complete -/
  last : Option CompRun
  /-- a commit that took effect while HELD, in force from the next Enable (R409) -/
  parked : Option (List Bytes)
  /-- by slice, the frame last composed and what each plane showed in it: source handle and picture -/
  showed : Table (Nat × List (Option (Nat × Nat)))
  /-- output pictures, newest first: the last two buffers -/
  out : List Picture
  /-- flatten cache by slice: what each plane showed when it was built, and the highest plane cached (R397) -/
  flat : Table (List Bytes × Nat)
  /-- counters by offset of Table 12.7 -/
  stats : Table Nat
  deriving DecidableEq, Repr

/-- The video side: sending and receiving legs, compositions, encodings. -/
structure Video where
  legs : Table VLeg
  comps : Table Comp
  encs : Table Encoding
  deriving DecidableEq, Repr

/-- A packet record in a queue (Table 13.3), with the bytes of the packet and the priority it leaves under. -/
structure Rec where
  kind : Nat
  /-- bit 0 POISON_IN, bit 1 CIPHERED -/
  flags : Nat
  obj : Nat
  arrival : Nat
  deadline : Nat
  /-- the sample position at which an audio packet plays (R190), the port of a host-bound record (Table 13.6); no field of Table 13.3 -/
  start : Nat
  data : Bytes
  /-- an audio packet of the wrong type or a repeat, for the reader of its queue to refuse (R421, R191); no field of Table 13.3 -/
  refuse : Bool := false
  /-- the parity bit stored with each 64-bit word of header and data, and the words known poisoned (R438, R439) -/
  par : List Bool := []
  marks : List Nat := []
  deriving DecidableEq, Repr

/-- A hardware queue (R428 to R447). -/
structure Queue where
  /-- spill allowance in KiB of its spill memory (R430) -/
  spill : Nat
  recs : List Rec
  /-- bytes in the head buffer, the cells of the middle by pool index, oldest first, and bytes in the tail buffer (R429, R430) -/
  head : Nat
  cells : List Nat
  tail : Nat
  /-- the packet a line-fed producer holds while the queue is full (R436) -/
  held : Option Rec
  /-- a producer's write held for space (R435) -/
  waiting : List Rec
  /-- QueueNoticeSet payload bytes 2 to 19 (Table 13.12): mode, flags, watermarks, pin, port, priority, timeout -/
  notice : Bytes
  asserted : Bool
  lastRead : Nat
  /-- bytes of the partial tail offered by a stale push (R445) -/
  pushed : Bool
  lastPushEvent : Nat
  /-- statistics by offset of Table 13.13 -/
  stats : Table Nat
  deriving DecidableEq, Repr

/-- An Ethernet port (Tables 13.9 and 14.6). -/
structure Port where
  en : Bool
  pfc : Bool
  quanta : Nat
  mac : Bytes
  hostFn : Nat
  maxFrame : Nat
  overhead : Int
  hostClass : Nat
  up : Bool
  linkBlock : Nat
  /-- per priority, the time until which egress is paused (R419) -/
  paused : Table Nat
  /-- frames that came to a paused priority past the scheduler: deadline, queue and frame, oldest first -/
  parked : List (Nat × Nat × Bytes)
  /-- statistics by offset of Table 13.14 -/
  stats : Table Nat
  deriving DecidableEq, Repr

/-- A neighbour table entry (Table 13.10). -/
structure Neighbour where
  port : Nat
  family : Nat
  addr : Bytes
  mac : Bytes
  deriving DecidableEq, Repr

/-- A host ring of a function (Tables 13.7 and 13.11). -/
structure HostRing where
  en : Bool
  slotSize : Nat
  log2n : Nat
  spill : Nat
  base : Nat
  head : Nat
  tail : Nat
  err : Bool
  deriving DecidableEq, Repr

/-- A policer of a frame rate and a byte rate, in frames and bytes of the running second (R425). -/
structure HostPolice where
  second : Nat
  frames : Nat
  bytes : Nat
  deriving DecidableEq, Repr

/-- The packet engine and the queue manager. -/
structure Net where
  /-- configuration of NetGroupSet, 0 before the first (Table 1.4) -/
  config : Nat
  /-- ports 0 to 7 and line lanes 24 to 31; an unlisted one has its reset settings -/
  ports : Table Port
  neigh : List Neighbour
  /-- classification keys of destroyed audio legs, whose packets are refused (R209): port, VLAN, family, address, UDP port -/
  gone : List (Nat × Nat × Nat × Bytes × Nat)
  queues : Table Queue
  /-- the tag array of the middle cells, by the tag's internal address (Table 13.4) -/
  tags : Table (BitVec 64)
  /-- host rings by 2 * function + direction -/
  rings : Table HostRing
  policeIn : HostPolice
  policeOut : HostPolice
  /-- bytes of the running second the host has sent per port (R425) -/
  portOut : Table Nat
  deriving DecidableEq, Repr

/-- A shaper (R454 to R457). Tokens are bytes with 16 fractional bits. -/
structure Shaper where
  rate : Nat
  burst : Nat
  tokens : Int
  cls : Nat
  /-- a pending rate, burst and class (R462) -/
  pend : Option (Nat × Nat × Nat)
  packets : Nat
  expired : Nat
  skips : Nat
  deriving DecidableEq, Repr

/-- The egress scheduler: leg shapers by queue ID, class and port shapers by number (Table 14.1). -/
structure Egress where
  legs : Table Shaper
  classes : Table Shaper
  deriving DecidableEq, Repr

/-- A learned SSRC state of a key context (Table 15.3): the highest authenticated index and its replay bitmap, bit `d`
set where index `high - d` has been accepted. -/
structure SsrcState where
  ssrc : Nat
  high : Nat
  bitmap : BitVec 128
  deriving DecidableEq, Repr

/-- The states of an SRTP context (Table 15.5). -/
inductive KeyState where
  | loaded | bound | exhausted | spent
  deriving DecidableEq, Repr

/-- A key context (R477, Table 15.3). A wrapping key has profile 0 and its 32 bytes in `keyA`. -/
structure KeyCtx where
  profile : Nat
  /-- 1 receive, 2 send, 0 for a wrapping key -/
  dir : Nat
  st : KeyState
  /-- slot A: the current master key and salt -/
  keyA : Bytes
  /-- slot B: the pending or the retained key -/
  keyB : Bytes
  /-- role of slot B: 0 none, 1 pending, 2 retained -/
  role : Nat
  n : Nat
  m : Nat
  roc : Nat
  /-- learned states of a receive context, the least recently used first -/
  ssrcs : List SsrcState
  /-- SRTCP: next index to send, or highest index received, with the replay bitmap -/
  rtcp : Nat
  rtcpSeen : Bool
  rtcpMap : BitVec 128
  /-- next SRTP index of a send context (R485) -/
  next : Nat
  /-- the send SSRC's initial sequence is known and a packet protected -/
  sent : Bool
  warned : Bool
  warnedRtcp : Bool
  /-- a KeyAuthFail has been raised -/
  told : Bool
  /-- the leg it is bound to, by its key -/
  leg : Option Nat
  packets : Nat
  authFailed : Nat
  replayed : Nat
  repeated : Nat
  exhaustedCount : Nat
  /-- the number of the first free value of the mask that its shares were last refreshed with (R498) -/
  share : Nat
  /-- the time of the last KeyAuthFail, and the failures since -/
  failSecond : Nat
  failCount : Nat
  deriving DecidableEq, Repr

/-- A link context set: link and direction, with its two phases (R493). -/
structure LinkKey where
  phase0 : Option Bytes
  phase1 : Option Bytes
  active : Nat
  /-- frame counter of each class and phase: class * 2 + phase -/
  counter : Table Nat
  warned : Table Bool
  /-- number of the first of the eight free values that its shares were last refreshed with (R498) -/
  share : Nat
  deriving DecidableEq, Repr

/-- The Onyx cipher cluster: key contexts by index, link keys by 2 * link + direction, and the entropy source. -/
structure Onyx where
  keys : Table KeyCtx
  links : Table LinkKey
  /-- the key-encryption key in OTP, none while blank (R479) -/
  otp : Option Bytes
  /-- 0 healthy, 1 alarm, 2 failed (Table 15.13) -/
  entropy : Nat
  rct : Nat
  apt : Nat
  /-- requests since reseed of each DRBG instance 0 to 8 (R500) -/
  requests : Table Nat
  /-- bits left of the last generate request of each instance -/
  spare : Table Nat
  /-- instances that have stopped (R502) -/
  stopped : BitVec 9
  deriving DecidableEq, Repr



/-- A tap (Table 16.1): kind, object, stream; it copies; it is being removed; copies lost since its last record. -/
structure Tap where
  kind : Nat
  obj : Nat
  stream : Nat
  on : Bool
  dying : Bool
  lost : Nat
  cost : Costs
  deriving DecidableEq, Repr

/-- A copy taken at a tap and not yet written: capture and completion times in ns, source stamp, and for a picture the time
by which it must start. -/
structure Copy where
  tap : Nat
  kind : Nat
  obj : Nat
  concealed : Bool
  capture : Nat
  stamp : Nat
  done : Nat
  deadline : Nat
  data : Bytes
  deriving DecidableEq, Repr

/-- A record in a ring: stream offset, bytes from its header to its end, capture and completion times, whether it is a
filler, and its header with its data. -/
structure Record where
  off : Nat
  len : Nat
  capture : Nat
  done : Nat
  filler : Bool
  bytes : Bytes
  deriving DecidableEq, Repr

/-- A freeze range (R516): capture times in ns, the stream offsets it spans (`lo = hi` while it holds nothing), growing. -/
structure Freeze where
  t1 : Nat
  t2 : Nat
  lo : Nat
  hi : Nat
  growing : Bool
  deriving DecidableEq, Repr

/-- A recorder partition (R504 to R532). -/
structure Part where
  base : Nat
  size : Nat
  evidence : Bool
  /-- stream offset of the write position, sequence of the next record -/
  write : Nat
  seq : Nat
  taps : Table Tap
  ingest : List Copy
  pics : List Copy
  recs : List Record
  freezes : Table Freeze
  /-- Table 16.7 -/
  cfg : Bytes
  /-- stream offset exported up to, and acknowledged -/
  exported : Nat
  acked : Nat
  start : Bool
  skipped : Bool
  dgram : Nat
  written : Nat
  bytes : Nat
  lost : Nat
  lostExport : Nat
  /-- export lag high water in µs, and the time of the last ExportLagged -/
  lag : Nat
  laggedAt : Option Nat
  deriving DecidableEq, Repr

/-- A ring that has survived a warm reset (R529): its region, the stream offset and the freeze ranges saved at the last
block start, and what the ring holds. -/
structure Survivor where
  base : Nat
  size : Nat
  saved : Nat
  freezes : Table Freeze
  recs : List Record
  write : Nat
  deriving DecidableEq, Repr

/-- The recorder: partitions, surviving rings, and what retained memory holds of each partition since the last block start
(R528): stream offset and freeze ranges. -/
structure Recorder where
  parts : Table Part
  survivors : List Survivor
  saved : Table (Nat × Table Freeze)
  deriving DecidableEq, Repr


/-- A rank of a DDR5 memory channel, or an HBM3 pseudo-channel: refreshes owed, and a real-time burst running (R545,
R546). -/
structure RankRun where
  owed : Nat
  burst : Bool
  deriving DecidableEq, Repr

/-- A memory channel (Table 17.16): 0 to 7 of DDR5, 8 + p for HBM3 pseudo-channel p. -/
structure MemChan where
  /-- a calibration window is open, and the block of the latest one -/
  window : Bool
  last : Nat
  /-- the rank ZQ calibration takes next -/
  zq : Nat
  temp : Int
  corrected : Nat
  uncorrected : Nat
  passes : Nat
  forced : Nat
  mostOwed : Nat
  moved : Nat
  warned : Nat
  /-- corrections since the last MemError of kind 1, and the time of that event -/
  count : Nat
  toldAt : Option Nat
  /-- location the scrubber reads next -/
  scrub : Nat
  deriving DecidableEq, Repr

/-- Tracking of a byte lane's delay (R552 to R555): steps from the trained value, held at its limit, narrow, and the last
block that met a test of R552. -/
structure MemLane where
  drift : Int
  limit : Bool
  narrow : Bool
  bad : Nat
  deriving DecidableEq, Repr

/-- The memory system (R533 to R570). -/
structure Mem where
  /-- interleave grains of DDR5 and HBM3, and the spill size in 256 MiB units (R536, R540) -/
  g5 : Nat
  g3 : Nat
  spill : Nat
  /-- DDR5 and HBM3 are in use -/
  ddr : Bool
  hbm : Bool
  /-- the failing memory channel, step and lane of the last training, kept in retained memory (R558) -/
  failed : Option (Nat × Nat × Nat)
  /-- policy of DDR5 and of HBM3 (Table 17.15) -/
  k5 : Nat
  idle5 : Nat
  d : Nat
  scrub5 : Nat
  k3 : Nat
  idle3 : Nat
  scrub3 : Nat
  chans : Table MemChan
  /-- by channel * 4 + rank -/
  ranks : Table RankRun
  /-- by channel * 32 + 16 for write delays + subchannel * 5 + lane -/
  lanes : Table MemLane
  /-- open rows by channel * 1024 + bank -/
  rows : Table Nat
  /-- the time of the last access to a bank that keeps its row open, by channel * 1024 + bank (R543) -/
  touched : Table Nat
  /-- activates whose neighbour refresh waits for the precharge: channel * 1024 + bank, and row; and how many have been issued, by
  channel (R548) -/
  neigh : List (Nat × Nat)
  neighDone : Table Nat
  /-- the bits that read wrong, by location: channel * 2^36 + location (R561, R562) -/
  errs : Table (List Nat)
  /-- the words that carry the reserved check pattern, by location, as a mask (R563) -/
  dead : Table Nat
  /-- the training helper registers of each DDR5 controller, by channel * 64 + offset, 0 where unlisted (Table 17.9) -/
  mct : Table (BitVec 32)
  /-- delays that MCT_DLY_VAL reaches, by channel * 4096 + selection (Table 17.11) -/
  delays : Table (BitVec 9)
  /-- the delays of the pseudo-channels, 16 bytes each, as written from the fuse table (R560) -/
  hbmDelays : Bytes
  /-- corrected locations not yet written back: channel and local address (R564) -/
  fixes : List (Nat × Nat)
  /-- the second of the last MemError of kinds 2 and 3, and how many it has seen -/
  second : Nat
  told : Nat
  deriving DecidableEq, Repr

/-- What an Announce message says of a master (clause 9.3.4 of IEEE 1588-2019). -/
structure PtpMaster where
  /-- its port identity, 10 bytes -/
  source : Bytes
  priority1 : Nat
  cls : Nat
  accuracy : Nat
  variance : Nat
  priority2 : Nat
  identity : Bytes
  steps : Nat
  utc : Nat
  deriving DecidableEq, Repr

/-- A time domain (R574, R584). Times are in 2^-16 ns. -/
structure TimeDomain where
  /-- the TimeDomainSet payload (Table 18.9) -/
  cfg : Bytes
  /-- 0 DISABLED, 1 LISTENING, 2 TRACKING, 3 LOST -/
  st : Nat
  /-- the masters heard of -/
  masters : List PtpMaster
  /-- Sync interval in ns -/
  tau : Nat
  /-- a two-step Sync that waits for its Follow_Up: sequence, t2, correction, interval in ns -/
  sync : Option (Nat × Int × Int × Nat)
  /-- t1 and t2 of the last Sync -/
  t12 : Option (Int × Int)
  /-- the last delays doubled, newest first (R579) -/
  delays : List Int
  theta : Option Int
  /-- the delay request sent: sequence and time of departure -/
  req : Option (Nat × Int)
  /-- a two-step Pdelay_Resp that waits for its Follow_Up: sequence, t2, t4, correction -/
  presp : Option (Nat × Int × Int × Int)
  reqSeq : Nat
  deriving DecidableEq, Repr

/-- A pulse program (R589, Tables 18.6 and 18.7). -/
structure Pulse where
  armed : Bool
  pol : Bool
  late : Bool
  startNs : Nat
  startLo : Nat
  startHi : Nat
  period : Nat
  width : Nat
  count : Nat
  done : Nat
  /-- the number of the next or open pulse, counted from the start time -/
  k : Nat
  /-- a pulse is open -/
  opened : Bool
  deriving DecidableEq, Repr

/-- The Quartz time unit (R571 to R594). Corrections are exact, in units of 2^-32 × 10^-9. -/
structure Quartz where
  /-- 0 FREERUN, 1 ACQUIRING, 2 LOCKED, 3 HOLDOVER -/
  servo : Nat
  y : Int
  yi : Int
  /-- yi after the last 64 updates, newest first (R583) -/
  hist : List Int
  kp : Nat
  ki : Nat
  /-- Kp and Ki from the next update on -/
  pendK : Option (Nat × Nat)
  /-- updates in a row below and above (R582) -/
  below : Nat
  above : Nat
  /-- the active domain: 0, 1, or 2 for the relay -/
  active : Option Nat
  auto : Bool
  /-- a TimeSelect that waits for its domain's update: domain and AUTO -/
  sel : Option (Nat × Bool)
  /-- an episode of refused steps lasts (R581) -/
  refused : Bool
  /-- the relay answers, and it has been lost since it was last active (R646) -/
  relay : Bool
  relayLost : Bool
  /-- time of the last TimeAlarm by kind * 256 + domain -/
  told : Table Nat
  doms : Table TimeDomain
  /-- PTP messages of no enabled domain (R576) -/
  discarded : Nat
  /-- the snapshot: ns of TAI, fraction, TIME_SNAP_STATE -/
  snap : Nat × Nat × Nat
  pulses : Table Pulse
  /-- edges a TS_IN pin captures: bit 0 rising, bit 1 falling -/
  edges : Table Nat
  /-- captures waiting: pin, edge, ns, fraction -/
  caps : List (Nat × Nat × Nat × Nat)
  /-- captures dropped, by pin -/
  dropped : Table Nat
  /-- a step has set the counter to the very start of a block, whose trigger has not fired yet (R588) -/
  due : Bool
  deriving DecidableEq, Repr

/-- The time unit after a power-on reset (R583). -/
def Quartz.init : Quartz where
  servo := 0
  y := 0
  yi := 0
  hist := []
  kp := 179
  ki := 77
  pendK := none
  below := 0
  above := 0
  active := none
  auto := false
  sel := none
  refused := false
  relay := false
  relayLost := false
  told := []
  doms := []
  discarded := 0
  snap := (0, 0, 0x300)
  pulses := []
  edges := []
  caps := []
  dropped := []
  due := false

/-- A pointer interpreter with the states of G.783: 0 NORM, 1 AIS, 2 LOP (R598). -/
structure PtrState where
  st : Nat
  value : Nat
  cand : Nat
  same : Nat
  bad : Nat
  ones : Nat
  deriving DecidableEq, Repr

/-- The line framer's view of an E1 bit stream (R599 to R606). -/
structure E1Rx where
  inFrame : Bool
  /-- candidates of SEARCH: the bits since each one's FAS (R600, R601) -/
  cands : List Nat
  /-- the last 512 bits, newest first -/
  last : List Bool
  /-- bits of the frame being received, oldest first -/
  frame : List Bool
  /-- the next frame is a FAS frame -/
  even : Bool
  badFas : Nat
  aRow : Nat
  /-- bit 1 of the last six NFAS frames, oldest first -/
  mfas : List Bool
  /-- frames since each multiframe alignment signal of the last 8 ms was seen (R602) -/
  mfasAges : List Nat
  crcOn : Bool
  /-- frames since FAS alignment without CRC-4 alignment -/
  crcAge : Nat
  /-- number of the frame in its CRC-4 multiframe -/
  crcFrame : Nat
  /-- CRC-4 of the running and of the last sub-multiframe, and the check bits received in the running one -/
  crcRun : Nat
  crcLast : Nat
  crcBits : List Bool
  /-- sub-multiframes still to pass before a received CRC-4 can be compared -/
  crcSkip : Nat
  /-- CRC-4 blocks in the running thousand, and those in error -/
  crcBlocks : Nat
  crcErrors : Nat
  /-- the results of the last two blocks, for the E bits -/
  eBits : List Bool
  /-- CRC-4 given up until the path is held and enabled again (R602) -/
  crcOff : Bool
  /-- TS16 frames since the CAS alignment signal, 16 when not aligned -/
  casFrame : Nat
  /-- last received and accepted ABCD by channel (R607) -/
  casLast : Table Nat
  casAcc : Table Nat
  deriving DecidableEq, Repr

/-- An E1 tributary (Table 19.8). -/
structure E1 where
  lane : Nat
  a : Nat
  k : Nat
  l : Nat
  m : Nat
  crcMode : Nat
  ts16 : Nat
  idle : Nat
  ptr : PtrState
  rx : E1Rx
  /-- the slip buffer, oldest first, and the frame read last (R605) -/
  slip : List Bytes
  lastRead : Bytes
  /-- frames that left the slip buffer in the running block and in the one before, oldest first; none where zeroed -/
  rxNow : List (Option Bytes)
  rxDone : List (Option Bytes)
  /-- samples waiting to be sent, by timeslot -/
  tx : Table Bytes
  casTx : Table Nat
  /-- frame number sent, CRC-4 of the running and of the last sub-multiframe sent -/
  txFrame : Nat
  txCrc : Nat
  txCrcLast : Nat
  /-- V5 BIP-2 errors to be returned as REI (R598) -/
  rei : Nat
  defects : BitVec 32
  /-- statistics by offset of Table 19.10 -/
  stats : Table Nat
  deriving DecidableEq, Repr

/-- A member of a VCAT group: its lane and location, its measured delay and received SQ, its TU pointer, and the BIP errors to be
returned as REI. -/
structure Member where
  lane : Nat
  a : Nat
  k : Nat
  lm : Nat
  delay : Nat
  sq : Nat
  ptr : PtrState
  rei : Nat
  deriving DecidableEq, Repr

/-- A VCAT group (Table 19.9). -/
structure Vcat where
  ty : Nat
  members : List Member
  maxDelay : Nat
  home : Nat
  pfcs : Bool
  /-- GFP delineation: 0 HUNT, 1 PRESYNC, 2 SYNC (R618) -/
  gfp : Nat
  /-- the last 43 bits of scrambled payload sent and received (R618) -/
  scrTx : BitVec 43
  scrRx : BitVec 43
  defects : BitVec 32
  stats : Table Nat
  deriving DecidableEq, Repr

/-- An MSP 1+1 pair, held by its working line (R612 to R615). -/
structure Msp where
  prot : Nat
  bidir : Bool
  revertive : Bool
  wtr : Nat
  /-- command in force of MspCommand -/
  cmd : Nat
  /-- the protection line is selected -/
  sel : Bool
  /-- wait-to-restore runs -/
  waiting : Bool
  /-- a non-revertive pair stays on protection -/
  dnr : Bool
  k1 : Nat
  k2 : Nat
  /-- the K1 and K2 received last, and how many frames in a row each pair has been the same -/
  k1Last : Nat
  k2Last : Nat
  k1Same : Nat
  k2Same : Nat
  /-- frames without a new value accepted -/
  stale : Nat
  /-- code of the local request for the working line that was in force last: 13 SF, 11 SD (R615) -/
  failed : Nat
  /-- the received architecture or mode differs (R614) -/
  mismatch : Bool
  deriving DecidableEq, Repr

/-- A line lane (Table 19.7). -/
structure Lane where
  mode : Nat
  loop : Bool
  sf : Nat
  sd : Nat
  inFrame : Bool
  /-- tracked candidates: their bit positions (R600, R601) -/
  cands : List Nat
  pos : Nat
  badA : Nat
  /-- frames in a row with K2 bits 6 to 8 all ones -/
  aisRow : Nat
  /-- AU-4 pointer interpreters by a, of a working line behind its selector -/
  au : Table PtrState
  /-- B2 errors to be returned in M1, and B3 errors by AU-4 to be returned in G1 (R598) -/
  rei : Nat
  auRei : Table Nat
  msp : Option Msp
  defects : BitVec 32
  stats : Table Nat
  deriving DecidableEq, Repr

/-- The line framer: lanes 24 to 31, E1 tributaries 0 to 503 and VCAT groups 0 to 63. -/
structure Framer where
  lanes : Table Lane
  e1 : Table E1
  groups : Table Vcat
  deriving DecidableEq, Repr


/-- A BLP link (Table 20.8). -/
structure BlpLink where
  /-- 0 DOWN, 1 HELLO, 2 UP -/
  st : Nat
  /-- an authenticated frame has come in the running block, and blocks in a row without one -/
  heard : Bool
  silent : Nat
  discarded : Nat
  /-- highest frame counter accepted, by class * 2 + phase; one above it, 0 for none -/
  last : Table Nat
  deriving DecidableEq, Repr

/-- A trunk leg's end of a trunk on this device, by leg index (R641 to R644). -/
structure TrunkEnd where
  trunk : Nat
  /-- chain address of the other end -/
  far : Nat
  /-- the signal it sends, and the signal it receives -/
  send : Option Nat
  recv : Option Nat
  prot : Bool
  /-- a copy of the running block's signal has arrived -/
  arrived : Bool
  /-- a gap lasts; the protection copy is in use -/
  gap : Bool
  onProt : Bool
  /-- time of the last TrunkState -/
  told : Nat
  /-- admitted and not yet committed: the block of its admission -/
  prepared : Option Nat
  deriving DecidableEq, Repr

/-- A trunk in the master's books: chain addresses, directions, leg handles and matrix numbers of A and B, and the charges
on each device's link instances: chain address, instance, kbit/s. -/
structure TrunkRec where
  a : Nat
  b : Nat
  dirs : Nat
  flags : Nat
  legA : Nat
  legB : Nat
  mA : Nat
  mB : Nat
  charges : List (Nat × Nat × Nat)
  /-- answers of the ends awaited: chain address, status code, payload -/
  answers : List (Nat × Nat × Bytes)
  /-- the block it is committed at, and the block its TrunkDestroy takes effect at: until then it is charged -/
  commit : Option Nat
  gone : Option Nat
  /-- the mailbox whose TrunkCreate waits for it -/
  mbx : Nat
  deriving DecidableEq, Repr

/-- A formation under way (R633, R652). -/
structure Forming where
  trio : Bool
  topo : Nat
  addrs : List Nat
  reserves : List (List Nat)
  /-- when it began -/
  since : Nat
  /-- devices that have reported: chain address, and the NO_BUDGET figures where the reserves do not fit -/
  reports : List (Nat × Option (Nat × Nat))
  commit : Option Nat
  deriving DecidableEq, Repr

/-- The cascade or trio as a set of linked devices (R630 to R650). -/
structure Cascade where
  /-- 0 none, 1 joined, 2 in service, 3 master lost (Table 20.15) -/
  st : Nat
  id : Nat
  topo : Nat
  pos : Nat
  /-- chain addresses by position -/
  addrs : List Nat
  master : Nat
  /-- cipher reserves of this device's links -/
  reserve : List Nat
  /-- the cipher reserves of every position -/
  reserves : List (List Nat)
  /-- trunk ends on a lost device that are still to be removed: chain address and trunk (R648) -/
  owed : List (Nat × Nat)
  /-- the mailbox of CascadeJoin, CascadeForm or the trio commands, which owns the peers (R633) -/
  mbx : Nat
  links : Table BlpLink
  forming : Option Forming
  /-- last block in which a frame of a device came, by chain address; HEARTBEAT for the master -/
  heardFrom : Table Nat
  /-- devices declared lost -/
  lost : List Nat
  /-- the last block whose HEARTBEAT has been forwarded -/
  beat : Nat
  /-- the directory: session ID to chain address (R636) -/
  dir : Table Nat
  /-- reported room of other devices: quanta and tiles -/
  rooms : Table (Nat × Nat)
  trunks : Table TrunkRec
  ends : Table TrunkEnd
  /-- what each trunk costs on this device's links, by trunk ID: instance and kbit/s -/
  charges : Table (List (Nat × Nat))
  gaps : Nat
  /-- CascadeLeave takes effect at this block -/
  leaving : Option Nat
  /-- samples received for a trunk leg, by its index: the matrix input of the running capture block (Table 20.9) -/
  trunkIn : Table (List Int)
  /-- what waits in the queues of the links for Onyx, by queue ID (Table 13.2, R638): its item's job and its bytes -/
  queues : Table (List (Job × Bytes))
  /-- the counts of those queues, by queue ID and offset of Table 13.13 -/
  linkStats : Table (Table Nat)
  /-- time relay: sequence and t1 of the request sent, and answers missed in a row (R645, R646) -/
  seq : Nat
  t1 : Nat
  waiting : Bool
  missed : Nat
  deriving DecidableEq, Repr


/-- An entry of the critical set (R653): the object's key, ACTIVE or PENDING, and the configuration digests that devices
have sent for it, by chain address. -/
structure CritEntry where
  key : Nat
  active : Bool
  configs : Table (BitVec 64)
  deriving DecidableEq, Repr

/-- The trio group (R651 to R673). Audio entries are 0 to 1023, video entries 1024 to 1087. -/
structure Trio where
  /-- the cascade ID of the trio, 0 outside one -/
  id : Nat
  topo : Nat
  pos : Nat
  /-- chain addresses by position, and those of the devices still in the trio -/
  addrs : List Nat
  present : List Nat
  leader : Nat
  entries : Table CritEntry
  /-- while a change of a critical object is being made: the time before which it may not take effect (R655); none
  between steps -/
  effectAt : Option Nat
  /-- the block through whose end this device holds the lease; it has lost and sends nothing critical (R664, R667) -/
  lease : Option Nat
  stopped : Bool
  /-- the last block in which the leader was endorsed, as this device knows -/
  endorsed : Nat
  /-- digests of the block to be voted: block, device, entry, digest; and the last block of which a device's have come -/
  digests : List (Nat × Nat × Nat × BitVec 64)
  came : Table Nat
  /-- bytes of protected packets completed in the running block, by entry (R660) -/
  packets : Table Bytes
  /-- the last block in which an entry's digest is flagged ABSENT (R659) -/
  absent : Table Nat
  /-- critical packets held without the lease: deadline, port, frame (R663) -/
  held : List (Nat × Nat × Bytes)
  /-- critical ingress of a follower: block, leg, arrival time, frame bytes, packet; and how much was discarded (R658) -/
  standby : List (Nat × Nat × Nat × Nat × Bytes)
  dropped : Nat
  /-- clean blocks in a row, and the counts of Table 21.5 -/
  clean : Nat
  dissent : Nat
  split : Nat
  missing : Nat
  late : Nat
  /-- clean blocks that bring the lease back to the preferred device, 0 for never (R669) -/
  revert : Nat
  /-- time of the last TrioVote of an entry -/
  told : Table Nat
  /-- the leader brings back a device: its chain address and since when; the sync block; this device does not vote yet -/
  rejoin : Option (Nat × Nat)
  sync : Option Nat
  mute : Bool
  /-- a change of leader agreed: block, new leader, cause (R669) -/
  turn : Option (Nat × Nat × Nat)
  /-- the block at which this device leaves -/
  leaving : Option Nat
  /-- what mirroring is charged on the links (Table 4.7) -/
  charged : Costs
  deriving DecidableEq, Repr


/-- A CRC unit (Tables 22.3 to 22.6). -/
structure CrcUnit where
  /-- 0 free, 1 to 4 a function, 8 firmware -/
  owner : Nat
  width : Nat
  refin : Bool
  refout : Bool
  foldLen : Nat
  poly : BitVec 64
  init : BitVec 64
  xorout : BitVec 64
  fold : BitVec 64
  dmaAddr : BitVec 64
  dmaLen : BitVec 32
  busy : Bool
  done : Bool
  dmaErr : Bool
  ignored : Bool
  /-- the CRC register -/
  r : BitVec 64
  /-- a release has ended a DMA run: RESULT reads 0 until the next START (R684) -/
  dead : Bool
  deriving DecidableEq, Repr

/-- A CRC unit at reset (Table 22.3). -/
def CrcUnit.reset : CrcUnit where
  owner := 0
  width := 32
  refin := true
  refout := true
  foldLen := 0
  poly := 0x1EDC6F41
  init := 0xFFFFFFFF
  xorout := 0xFFFFFFFF
  fold := 0
  dmaAddr := 0
  dmaLen := 0
  busy := false
  done := false
  dmaErr := false
  ignored := false
  r := 0xFFFFFFFF
  dead := false


/-- The power controller (R692 to R709). Powers in mW, currents in 0.1 A, energies in units of 5/9 nJ. -/
structure Power where
  /-- the class in force, 1 to 3 (150, 200, 250 W), and the one the controller works to (R699) -/
  cls : Nat
  target : Nat
  energy : Nat
  /-- the last sample of metered power -/
  last : Nat
  /-- sum and count of the samples of the running block (R698) -/
  sum : Nat
  count : Nat
  /-- M of the last block, and the highest since the last read, in 0.1 W -/
  m : Nat
  mMax : Nat
  /-- the throttle (R702) -/
  share : Nat
  recovering : Bool
  since : Nat
  /-- blocks in a row that meet R703 -/
  overTimes : Nat
  /-- the last samples of the rail current, newest first; the averaged current is at its limit; active phases and the time
  they last changed -/
  amps : List Nat
  limit : Bool
  phases : Nat
  phaseAt : Option Nat
  /-- VDD_CORE in mV, and adaptive-voltage steps -/
  mv : Nat
  steps : Nat
  temps : List Int
  aon : Int
  dram : List Int
  warn : Int
  shed : Int
  trip : Int
  /-- warn, shed and trip that the next sample takes up (R706) -/
  pend : Option (Int × Int × Int)
  /-- warn is asserted -/
  warned : Bool
  /-- time of the last PowerAlarm (kind) and ThermalAlarm (16 + kind) -/
  told : Table Nat
  /-- a shed condition of Table 23.7 is present, as of the last block boundary; a shed condition was met in the running block; the class shed last and when -/
  cond : Bool
  seen : Bool
  cls4 : Nat
  shedAt : Nat
  /-- blocks in a row that meet R707, and a sample of the running block that does not -/
  calm : Nat
  broke : Bool
  throttled : Nat
  entries : Nat
  /-- PWR registers as of the last block boundary, by offset -/
  shown : Table Nat
  deriving DecidableEq, Repr

/-- The rail sequencer (R695 to R697). -/
structure Rails where
  /-- rails up -/
  on : Nat
  /-- a power good is awaited; the 1 ms before the next step runs; a power-down runs -/
  waiting : Bool
  gap : Bool
  down : Bool
  failStep : Nat
  fails : Nat
  /-- rails are off after a failure and await a retry; after a trip they await cooling -/
  retry : Bool
  hot : Bool
  /-- latched PMBus status: VOUT, IOUT, TEMPERATURE, CML, MFR -/
  pmVout : Bool
  pmIout : Bool
  pmTemp : Bool
  pmCml : Bool
  pmMfr : Bool
  deriving DecidableEq, Repr

/-- A sector of the flight-recorder NVM (R711). -/
inductive SectorState where
  /-- erased and ready; holds a record; written in part or with an aborted erase, to be erased; retired -/
  | erased | record | dirty | retired
  deriving DecidableEq, Repr

/-- The flight-recorder NVM (R711 to R713, R743). -/
structure Nvm where
  /-- state and cycles of the sectors written or erased so far; an unlisted one is erased with no cycles -/
  sectors : Table (SectorState × Nat)
  /-- records held, newest first: sector and bytes -/
  records : List (Nat × Bytes)
  /-- records to write, oldest first; the first is being written -/
  jobs : List Bytes
  /-- sector and word of the record being written; a word pulses -/
  sector : Nat
  word : Nat
  /-- a sector being erased -/
  erase : Option Nat
  seq : Nat
  /-- records begun and not complete, found and discarded at the last boot -/
  partials : Nat
  discarded : Nat
  /-- the remaining life has fallen below 10 % and below 1 % -/
  low10 : Bool
  low1 : Bool
  deriving DecidableEq, Repr

/-- The reset controller (Table 25.8). -/
structure Rst where
  source : Nat
  held : Bool
  promoted : Bool
  haltCount : Nat
  flight : Nat
  history : Nat
  /-- cause of the last flight record since the last reset -/
  last : Nat
  /-- the causes of the HALTs of the last 60 s and their times on the always-on clock, newest first -/
  halts : List (Nat × Nat)
  /-- strength of the reset the core domain is in: 3 power-on, 2 cold, 1 warm -/
  kind : Nat
  /-- DDR5 has passed training since the last power-on or cold reset (R726) -/
  trained : Bool
  /-- how often DDR5 has been trained in full; the model's own field, which numbers what training finds (`Config.eye`) -/
  trainings : Nat
  deriving DecidableEq, Repr

/-- The power controller after power-on of a class. -/
def Power.init (cls : Nat) : Power where
  cls := cls
  target := cls
  energy := if cls = 3 then 180000000000 else if cls = 2 then 144000000000 else 108000000000
  last := 0
  sum := 0
  count := 0
  m := 0
  mMax := 0
  share := 0
  recovering := false
  since := 0
  overTimes := 0
  amps := []
  limit := false
  phases := 12
  phaseAt := none
  mv := Config.avsStart
  steps := 0
  temps := List.replicate 16 0
  aon := 0
  dram := List.replicate 9 0
  warn := if Config.gradeX then 100 else 92
  shed := if Config.gradeX then 108 else 98
  trip := if Config.gradeX then 120 else 115
  pend := none
  warned := false
  told := []
  cond := false
  seen := false
  cls4 := 4
  shedAt := 0
  calm := 0
  broke := false
  throttled := 0
  entries := 0
  shown := []


/-- A SerDes lane (R785): its polarity inversion and the five taps of its transmit equaliser from the board section of the firmware image; the
continuous-time equaliser and the twelve taps of the decision-feedback equaliser as its receiver has adapted them last. -/
structure SerdesLane where
  invert : Bool
  ffe : List Int
  ctle : Nat
  dfe : List Int
  deriving DecidableEq, Repr

/-- The PIN region (Table 25.10). -/
structure Pins where
  actLow : BitVec 8
  openDrain : BitVec 8
  fctlOe : BitVec 8
  force : BitVec 8
  forceEn : BitVec 8
  ppsOe : BitVec 4
  noPull : BitVec 4
  drvFctl : BitVec 2
  drvPps : BitVec 2
  /-- the pin configuration has been applied (step 6 of Table 24.8) -/
  applied : Bool
  /-- SerDes lanes 0 to 31 from CALIBRATE on (R785) -/
  lanes : Table SerdesLane
  deriving DecidableEq, Repr

/-- What a scheduled change does at its boundary. -/
inductive Act where
  /-- nothing but its Applied event -/
  | applied
  /-- reserved budget is released (R116) -/
  | release (c : Costs)
  /-- the object becomes FREE (R78): its key is `type * 2^20 + index` -/
  | free (key : Nat)
  /-- the object becomes ACTIVE or HELD -/
  | live (key : Nat) (active : Bool)
  /-- the legs of a duck group change: operation of Table 5.12 and leg keys -/
  | duckSet (group op : Nat) (legs : List Nat)
  /-- a duck group is forced on or released -/
  | duckForce (group : Nat) (on : Bool)
  /-- the chain settings of a leg (Table 6.10) -/
  | chain (leg : Nat) (p : Bytes)
  /-- the codec settings of a leg (Table 6.11) -/
  | codec (leg : Nat) (p : Bytes)
  /-- a tone (`clip = false`) or a clip starts -/
  | play (leg : Nat) (clip : Bool) (p : Bytes)
  /-- the running tone and clip stop -/
  | stopPlay (leg : Nat)
  /-- a kernel is bound to an effect slot, its parameters written -/
  | bind (leg slot kernel quanta : Nat) (params : Bytes)
  /-- an effect slot is unbound -/
  | unbind (leg slot : Nat)
  /-- quanta of a leg no longer placed on its core -/
  | unplace (leg n : Nat)
  /-- what a trunk costs this device's links is charged (R641) -/
  | charge (trunk : Nat) (c : Costs)
  /-- a trunk leg joins its session (R158) -/
  | join (leg : Nat)
  /-- a trunk stands: its TrunkCreate completes (R641) -/
  | trunkUp (id : Nat)
  /-- a decode is set or changed (R320), or removed -/
  | decodeSet (leg : Nat) (p : Bytes)
  | decodeClear (leg : Nat)
  /-- new rate settings of a stream (Table 10.11) -/
  | rate (enc : Nat) (p : Bytes)
  /-- the policy of a memory (Table 17.15) -/
  | memPolicy (p : Bytes)
  /-- a recorder tap copies from here on, or is removed (R512) -/
  | tapOn (part tap : Nat)
  | tapOff (part tap : Nat)
  /-- new parameters of a binding -/
  | params (leg slot : Nat) (p : Bytes)
  /-- the ABCD value of a CAS channel of an E1 path (R607) -/
  | cas (path ch v : Nat)
  deriving DecidableEq, Repr

/-- A completed change that waits for its boundary (R47, R795). -/
structure Sched where
  at_ : Boundary
  org : Origin
  act : Act
  /-- the time before which the boundary does not count (R655) -/
  from_ : Nat
  deriving DecidableEq, Repr

/-- What a VC-12 with an E1 is sent with: path, V5 without its BIP-2, whether S1 is a justification bit, and its E1 frame. -/
structure TribTx where
  path : Nat
  v5 : Nat
  stuff : Bool
  frame : Bytes
  deriving DecidableEq, Repr

/-- What a VCAT member is sent with: group, list position, the SQ and MFI of H4 or K4, its signal label in C2 or K4, its V5 or G1
without BIP, and whether the group sends GFP idle frames only (R616 to R618). -/
structure MemberTx where
  group : Nat
  pos : Nat
  sq : Nat
  mfi : Nat
  label : Nat
  status : Nat
  idle : Bool
  deriving DecidableEq, Repr

/-- A 125 µs frame sent on a line lane, before the multiplexing of G.707 and its BIPs: loop timing in force (R597), K1, K2, M1, S1, the
byte of J0, J1 and J2, and of each AU-4 its number, C2 and G1 (R598). A VC-12 that is not listed is unequipped. -/
structure LineTx where
  loop : Bool
  k1 : Nat
  k2 : Nat
  m1 : Nat
  s1 : Nat
  trace : Nat
  au : List (Nat × Nat × Nat)
  trib : List TribTx
  members : List MemberTx
  deriving DecidableEq, Repr

/-- A codeword of a cascade link (Table 20.5): the 10-bit symbols of each lane, and whether it carries an alignment marker. -/
structure Codeword where
  marker : Bool
  lanes : List (List (BitVec 10))
  deriving DecidableEq, Repr

/-- What the block gives the outside world, one entry an output. -/
inductive Out where
  /-- a response (`k = 1`) or event (`k = 2`) slot written to a ring of a function, at a slot index -/
  | slot (mbx k index : Nat) (s : Slot)
  /-- an MSI-X message of a function's vector -/
  | msix (fn vec : Nat)
  /-- a DMA write of host memory -/
  | hostWrite (addr : Nat) (data : Bytes)
  /-- a DMA write of host memory whose words at some offsets are poisoned: the EP bit is set on every TLP that carries one (R680) -/
  | hostPoison (addr : Nat) (data : Bytes) (words : List Nat)
  /-- an Ethernet frame sent on a port -/
  | frame (port : Nat) (data : Bytes)
  /-- bytes returned by a read of a register or of PMBus -/
  | read (data : Bytes)
  /-- a level or an edge driven on a pin: group, number, level -/
  | pin (group num level : Nat)
  /-- a frame passed on, or returned, on the NMC chain -/
  | chain (data : Bytes)
  /-- a BLP frame sent on a link: its type and payload -/
  | blp (link kind : Nat) (data : Bytes)
  /-- the codewords that carry it on the lanes of the link (R637) -/
  | lanes (link : Nat) (words : List Codeword)
  /-- a 125 µs frame sent on a line lane -/
  | line (lane : Nat) (tx : LineTx)
  /-- an all-bank refresh issued to a rank or pseudo-channel (R544) -/
  | refresh (chan rank : Nat)
  /-- a neighbour refresh issued to a bank: the row refreshed (R548) -/
  | rowRefresh (chan bank row : Nat)
  deriving DecidableEq, Repr

/-- The state of the block. -/
structure State where
  /-- the Quartz time counter, whole nanoseconds of TAI (R571) -/
  now : Nat
  /-- its fraction, in 2^-16 ns -/
  nowFrac : Nat
  /-- the commands waiting, first in, first out -/
  pending : List Instr
  /-- what the block has put out, newest first -/
  out : List Out
  /-- how many free values have been drawn; the model's own field, no register of the part -/
  fresh : Nat
  /-- modes, boot, debug and straps -/
  sys : Sys
  /-- the mailboxes: 0 to 3 the PCIe functions, 4 the NMC window -/
  mbx : Table Mailbox
  /-- the NMC window and the chain registers -/
  nmc : Nmc
  /-- the generation of each index, 1 where unlisted (R76); key type * 2^20 + index -/
  gens : Table Nat
  /-- the live objects (R793); key type * 2^20 + index -/
  objs : Table Obj
  /-- used value of each budget instance (R111), 0 where unlisted -/
  used : Costs
  /-- amount of each budget instance awaiting release at a boundary (R119) -/
  awaiting : Costs
  /-- completed changes that wait for their boundary, in order of completion -/
  sched : List Sched
  /-- the Beryl matrix mixer -/
  matrix : Matrix
  /-- sessions, audio legs and clips; legs and sessions by index -/
  audio : Audio
  /-- loaded kernels, and the scratch of each core -/
  garnet : Garnet
  /-- the work dispatcher and the engine instances -/
  work : Work
  /-- counted against each object: items by how they ended (Table 8.6), packets refused at a full queue (R436): key * 8 + status, + 6, or
poisoned packets and samples discarded (R439, R678): + 7 -/
  objCtr : Table Nat
  /-- video legs, compositions and encodings -/
  video : Video
  /-- the packet engine, the ports and the queues -/
  net : Net
  /-- the egress scheduler's shapers; an unlisted class or port shaper is unlimited with burst 16,777,215 -/
  egress : Egress
  /-- the Onyx cipher cluster and the key store -/
  onyx : Onyx
  /-- the recorder -/
  recorder : Recorder
  /-- the memory system -/
  mem : Mem
  /-- the Quartz time unit -/
  quartz : Quartz
  /-- the line framer -/
  framer : Framer
  /-- the cascade, its links and its trunks -/
  cascade : Cascade
  /-- the trio group -/
  trio : Trio
  /-- the four CRC units; an unlisted one is at reset -/
  crc : Table CrcUnit
  /-- the power controller -/
  pwr : Power
  /-- the rail sequencer -/
  rails : Rails
  /-- the flight-recorder NVM -/
  nvm : Nvm
  /-- the reset controller -/
  rst : Rst
  /-- retained memory (R742): bytes 0 to 0xFFFF in canonical form, 0 where unlisted -/
  retained : List Host.Cell
  /-- the backup registers (R766), 0 where unlisted -/
  bkp : Table (BitVec 32)
  /-- the firmware slots written in the field; an unlisted one holds what the factory put there -/
  flash : Table Bytes
  /-- ns on the always-on clock before the time counter last restarted; the model's own field -/
  aonBase : Nat
  /-- the PIN region -/
  pins : Pins
  deriving DecidableEq, Repr

/-- Why the block stops. -/
inductive Fault where
  /-- An event names a unit that the spec says does not exist (a pin, port, lane, channel or unit number out of its
  range). Raised by the event's own meaning. Safe: such an event cannot happen. -/
  | noSuchUnit
  deriving DecidableEq, Repr

/-- Why a command has no meaning. -/
inductive Refusal where
  /-- The command has no meaning in the model yet. Raised by `exec` alone. Safe. -/
  | notModelled (mnemonic : String)
  /-- An access to the DBG region after DebugUnlock, whose contents the manual leaves out (R768). Raised by
  `execRegisterWrite` and `execRcRegisterRead`. Safe: the model stops where the hardware goes on. -/
  | debugRegion
  deriving DecidableEq, Repr

/-- A mailbox with its rings disabled and its registers at reset (Table 25.6). -/
def Mailbox.init : Mailbox where
  cmd := { en := false, base := 0, log2n := 4, head := 0, tail := 0, seq := 0, err := false }
  rsp := { en := false, base := 0, log2n := 4, head := 0, tail := 0, seq := 0, err := false }
  evt := { en := false, base := 0, log2n := 4, head := 0, tail := 0, seq := 0, err := false }
  ie := 0
  fwReady := false
  heartbeat := 0
  mask := 0
  rung := []
  taken := []
  flight := none
  drop := 0
  outstanding := 0
  nTaken := 0
  nBadCrc := 0
  nSeqGap := 0
  nLost := 0
  lostCount := 0
  lostFirst := 0
  held := []
  lostBefore := false
  readyDue := false
  readyRaised := false
  msixMask := 0xF
  msixFnMask := false
  msixPending := 0
  msixTable := []


/-- The machine right after a power-on reset: the always-on domain in power-on reset, the core domain in RESET. -/
def State.reset : State where
  now := 0
  nowFrac := 0
  pending := []
  out := []
  fresh := 0
  sys := { mode := .reset, remembered := none, restart := none, resetDue := none, halted := none, after := none, marks := [], aborts := 0, challenge := none, secVersion := 0, laneTests := [], pwrFail := false, perst := [], pll := false, refclk := true, fill := true, fwBuild := 0, slot := 0, fallback := false, otpCounter := 0, unlocked := false, strapPcie := false, strapNmc := false, pclass := 0, pmaddr := 0, restarts := 0 }
  mbx := []
  nmc := { addr := 0, enumerated := false, window := [], wstate := .idle, attn := false, queue := [], overflow := 0, fcrcErr := 0, acted := 0, evtDropped := 0 }
  gens := []
  objs := []
  used := []
  awaiting := []
  sched := []
  matrix := { plane := [], shadow := [], last := [], count := [], queue := [], fades := [], floor := [], inWrite := [], inRead := [], outMix := [], outRead := [], poisonWrite := [], poisonRead := [], mixing := false, down := false, upTo := 0, subs := [], ducks := [], applied := 0, rolled := 0, dropped := 0, clipped := 0, longest := 0 }
  audio := { sessions := [], legs := [], clips := [], busyM := [] }
  garnet := { kernels := [], scratch := [], placed := [] }
  work := { items := [], next := [], insts := [], held := [], throttled := false, stats := [], records := [], returned := [], refused := [], released := [] }
  objCtr := []
  video := { legs := [], comps := [], encs := [] }
  net := { config := 0, ports := [], neigh := [], gone := [], queues := [], tags := [], rings := [], policeIn := { second := 0, frames := 0, bytes := 0 }, policeOut := { second := 0, frames := 0, bytes := 0 }, portOut := [] }
  egress := { legs := [], classes := [] }
  onyx := { keys := [], links := [], otp := none, entropy := 0, rct := 0, apt := 0, requests := [], spare := [], stopped := 0 }
  recorder := { parts := [], survivors := [], saved := [] }
  mem := { g5 := 12, g3 := 11, spill := 8, ddr := false, hbm := false, failed := none, k5 := 8, idle5 := 128, d := 8, scrub5 := 24, k3 := 8, idle3 := 32, scrub3 := 1, chans := [], ranks := [], lanes := [], rows := [], touched := [], neigh := [], neighDone := [], errs := [], dead := [], mct := [], delays := [], hbmDelays := [], fixes := [], second := 0, told := 0 }
  quartz := Quartz.init
  framer := { lanes := [], e1 := [], groups := [] }
  cascade := { st := 0, id := 0, topo := 0, pos := 0, addrs := [], master := 0, reserve := [], reserves := [], owed := [], mbx := 0, links := [], forming := none, heardFrom := [], lost := [], beat := 0, dir := [], rooms := [], trunks := [], ends := [], charges := [], gaps := 0, leaving := none, trunkIn := [], queues := [], linkStats := [], seq := 0, t1 := 0, waiting := false, missed := 0 }
  trio := { id := 0, topo := 0, pos := 0, addrs := [], present := [], leader := 0, entries := [], effectAt := none, lease := none, stopped := false, endorsed := 0, digests := [], came := [], packets := [], absent := [], held := [], standby := [], dropped := 0, clean := 0, dissent := 0, split := 0, missing := 0, late := 0, revert := 500, told := [], rejoin := none, sync := none, mute := false, turn := none, leaving := none, charged := [] }
  crc := []
  pwr := Power.init 1
  rails := { on := 0, waiting := false, gap := false, down := false, failStep := 0, fails := 0, retry := false, hot := false, pmVout := false, pmIout := false, pmTemp := false, pmCml := false, pmMfr := false }
  nvm := { sectors := [], records := [], jobs := [], sector := 0, word := 0, erase := none, seq := 0, partials := 0, discarded := 0, low10 := false, low1 := false }
  rst := { source := 1, held := false, promoted := false, haltCount := 0, flight := 0, history := 0, last := 0, halts := [], kind := 3, trained := false, trainings := 0 }
  retained := []
  bkp := []
  flash := []
  aonBase := 0
  pins := { actLow := 0xFF, openDrain := 0, fctlOe := 0, force := 0, forceEn := 0, ppsOe := 0, noPull := 0, drvFctl := 1, drvPps := 1, applied := false, lanes := [] }

end Sys2Proof.Machine
end

