-- ==== Sys2Proof/Machine/Operands.lean ====
section
/-!
DEFINITION. The operand forms of a command: little-endian fields of a payload, the slot of Table 2.2 in bytes, its
CRC-32C with fold, and the sparse tables the state is held in.
-/

namespace Sys2Proof

/-- The target handle of a command as a number. -/
def Req.tgt (r : Req) : Nat := r.target.toNat

/-- EFFECT_EVENT is set (Table 2.3). -/
def Req.effect (r : Req) : Bool := r.flags.getLsbD 1

/-- FENCE is set (Table 2.3). -/
def Req.fence (r : Req) : Bool := r.flags.getLsbD 0

/-- The origin of a command's change, its Applied to carry `handle`. -/
def Req.origin (r : Req) (handle : Nat) : Machine.Origin :=
  { mbx := r.mbx, tag := r.tag, handle := handle, event := r.effect }

end Sys2Proof

namespace Sys2Proof.Machine

/-! ### Sparse tables -/

/-- The entry listed at `k`. -/
def tget? {α : Type} : Table α → Nat → Option α
  | [], _ => none
  | (k', v) :: r, k => if k' = k then some v else tget? r k

/-- The entry at `k`, or the default. -/
def tget {α : Type} (d : α) (t : Table α) (k : Nat) : α := (tget? t k).getD d

/-- `v` listed at `k`, the keys kept rising. -/
def tset {α : Type} : Table α → Nat → α → Table α
  | [], k, v => [(k, v)]
  | (k', w) :: r, k, v =>
    if k' = k then (k, v) :: r
    else if k < k' then (k, v) :: (k', w) :: r
    else (k', w) :: tset r k v

/-- The entry at `k` unlisted. -/
def tdel {α : Type} (t : Table α) (k : Nat) : Table α := t.filter fun e => e.1 != k

/-- The entry at `k` changed, where one is listed. -/
def tupd {α : Type} (t : Table α) (k : Nat) (f : α → α) : Table α :=
  t.map fun e => if e.1 = k then (e.1, f e.2) else e

/-- Every entry changed. -/
def tmap {α : Type} (t : Table α) (f : Nat → α → α) : Table α := t.map fun e => (e.1, f e.1 e.2)

/-- Whether `k` is listed. -/
def thas {α : Type} (t : Table α) (k : Nat) : Bool := (tget? t k).isSome

/-! ### Little-endian fields -/

/-- The `k` bytes of `n`, the lowest first. -/
def le : Nat → Nat → Bytes
  | 0, _ => []
  | k + 1, n => BitVec.ofNat 8 n :: le k (n / 256)

/-- The number whose bytes, lowest first, are `b`. -/
def unle : Bytes → Nat
  | [] => 0
  | b :: r => b.toNat + 256 * unle r

/-- The `k`-byte field at offset `i`; bytes past the end read 0. -/
def fld (p : Bytes) (i k : Nat) : Nat := unle ((p.drop i).take k)

/-- One byte at offset `i`. -/
def u8 (p : Bytes) (i : Nat) : Nat := (p.getD i 0).toNat

/-- A 2-byte field. -/
def u16 (p : Bytes) (i : Nat) : Nat := fld p i 2

/-- A 4-byte field. -/
def u32 (p : Bytes) (i : Nat) : Nat := fld p i 4

/-- An 8-byte field. -/
def u64 (p : Bytes) (i : Nat) : Nat := fld p i 8

/-- A field in network order. -/
def be (k n : Nat) : Bytes := (le k n).reverse

/-- A field of a frame in network order. -/
def bfld (p : Bytes) (i k : Nat) : Nat := unle ((p.drop i).take k).reverse

/-- Bytes written into a list at an offset. -/
def poke (b : Bytes) (i : Nat) (v : Bytes) : Bytes := b.take i ++ v ++ b.drop (i + v.length)

/-- The `k` bytes at offset `i` are all 0: a reserved field (R8). -/
def zeros (p : Bytes) (i k : Nat) : Bool := ((p.drop i).take k).all (· == 0)

/-- A two's complement field of `bits` bits. -/
def signed (bits n : Nat) : Int := if n < 2 ^ (bits - 1) then n else (n : Int) - 2 ^ bits

/-- An integer in a two's complement field of `bits` bits. -/
def unsigned (bits : Nat) (i : Int) : Nat := (i % (2 ^ bits : Nat)).toNat

/-- An integer held to a range. -/
def clampI (lo hi i : Int) : Int := if i < lo then lo else if hi < i then hi else i

/-- Division rounded up. -/
def ceilDiv (a b : Nat) : Nat := (a + b - 1) / b

/-- `b` cut or padded with zeros to `n` bytes. -/
def padTo (n : Nat) (b : Bytes) : Bytes := (b ++ List.replicate (n - b.length) 0).take n

/-- A list cut into runs of `n`, at least one run. -/
def chunksFuel (n : Nat) : Nat → Bytes → List Bytes
  | 0, b => [b]
  | f + 1, b => if b.length ≤ n then [b] else b.take n :: chunksFuel n f (b.drop n)

/-- The payload slots of an event (R55, R95): runs of 224 bytes. -/
def chunks (b : Bytes) : List Bytes := chunksFuel 224 (b.length / 224) b

/-! ### CRC-32C with fold (R38) -/

/-- One bit of the reflected CRC-32C, polynomial 0x1EDC6F41 reflected. -/
def crcBit (c : BitVec 32) : BitVec 32 :=
  if c.getLsbD 0 then (c >>> 1) ^^^ 0x82F63B78#32 else c >>> 1

/-- One byte of the reflected CRC-32C. -/
def crcByte (c : BitVec 32) (b : Byte) : BitVec 32 :=
  crcBit (crcBit (crcBit (crcBit (crcBit (crcBit (crcBit (crcBit (c ^^^ b.setWidth 32))))))))

/-- CRC-32C of a byte stream: initial value and final XOR 0xFFFF_FFFF (R38). -/
def crc32c (b : Bytes) : BitVec 32 := (b.foldl crcByte 0xFFFFFFFF#32) ^^^ 0xFFFFFFFF#32

/-- The ring number of Table 2.4: `k` is 0 for command, 1 for response, 2 for event. -/
def ringNo (mbx k : Nat) : Nat := if mbx < 4 then 4 * mbx + k else 0x10 + k

/-- Bytes 0 to 27 of a slot's header (Table 2.2). -/
def Slot.head (s : Slot) : Bytes :=
  le 2 s.opcode ++ le 1 s.flags ++ le 1 3 ++ le 4 s.seq ++ le 4 s.target ++
  le 2 s.payload.length ++ le 2 s.status ++ le 8 s.tag ++ le 4 0

/-- The CRC of a slot on ring `ring`: fold, header bytes 0 to 27, payload (R38). -/
def Slot.crc (ring : Nat) (s : Slot) : BitVec 32 :=
  crc32c (le 2 ring ++ le 4 s.seq ++ s.head ++ s.payload)

/-- The 256 bytes of a slot on ring `ring` (R35). -/
def Slot.bytes (ring : Nat) (s : Slot) : Bytes :=
  padTo 256 (s.head ++ le 4 (s.crc ring).toNat ++ s.payload)

/-! ### Statuses and modes as codes -/

/-- The code of a status (Table 2.10). -/
def Status.code : Status → Nat
  | .ok => 0x00 | .aborted => 0x01 | .invalidOpcode => 0x02 | .invalidArg => 0x03
  | .badLength => 0x04 | .badCrc => 0x05 | .seqGap => 0x06 | .staleHandle => 0x07
  | .noSuchObject => 0x08 | .wrongState => 0x09 | .noBudget => 0x0A | .noResource => 0x0B
  | .busy => 0x0C | .notMaster => 0x0D | .leaseHeld => 0x0E | .keyExhausted => 0x0F
  | .planeTooWide => 0x10 | .unsupported => 0x11 | .timeout => 0x12 | .denied => 0x13

/-- The code of a mode (Table 24.1). -/
def Mode.code : Mode → Nat
  | .reset => 0x00 | .boot => 0x01 | .calibrate => 0x02 | .ready => 0x03 | .standalone => 0x04
  | .cascadeMaster => 0x05 | .cascadeMember => 0x06 | .trioLeader => 0x07 | .trioFollower => 0x08
  | .shed => 0x09 | .maintenance => 0x0A | .halt => 0x0B

/-- The modes with open mailboxes (Table 24.1). -/
def Mode.isOpen : Mode → Bool
  | .reset | .boot | .calibrate | .halt => false
  | _ => true

/-- The service modes (Table 24.1). -/
def Mode.service : Mode → Bool
  | .standalone | .cascadeMaster | .cascadeMember | .trioLeader | .trioFollower | .shed => true
  | _ => false

end Sys2Proof.Machine
end

