-- ==== Sys2Proof/Machine/Blp.lean ====
section
/-!
DEFINITION. The line coding of a cascade link (R637, Table 20.5): codeword data, the scrambler, RS(544,532) and the four lanes.
-/

namespace Sys2Proof.Machine

/-! ### Codeword data -/

/-- The bytes of frames that a codeword holds behind its first-frame pointer. -/
def cwFrames : Nat := 663

/-- The data of the codewords that carry a frame from the start of a codeword on: the pointer names offset 0 in the first and no frame in
the others; fill follows the frame. `n` bounds how many there are. -/
def cwData : Nat → Nat → Bytes → List Bytes
  | 0, _, _ => []
  | n + 1, ptr, f =>
    if f.isEmpty then []
    else (be 2 ptr ++ padTo cwFrames (f.take cwFrames)) :: cwData n 0xFFFF (f.drop cwFrames)

/-! ### The scrambler -/

/-- The bits of some bytes, each byte's most significant first (DESIGN CHOICE, log entry 104). -/
def bitsOf (d : Bytes) : List Bool := d.flatMap fun b => (List.range 8).map fun i => b.getLsbD (7 - i)

/-- The self-synchronous scrambler x^58 + x^39 + 1 over some bits, from the last 58 bits it sent, the newest lowest. -/
def scramble58 : BitVec 58 → List Bool → BitVec 58 × List Bool
  | r, [] => (r, [])
  | r, b :: l =>
    let o := b ^^ (r.getLsbD 57 ^^ r.getLsbD 38)
    let (r, t) := scramble58 ((r <<< 1) ||| (if o then 1 else 0)) l
    (r, o :: t)

/-! ### RS(544,532) -/

/-- A symbol times x in GF(2^10), whose field polynomial is x^10 + x^3 + 1 (PRESUMED, log entry 104). -/
def gfX (a : BitVec 10) : BitVec 10 := if a.getLsbD 9 then (a <<< 1) ^^^ 9 else a <<< 1

/-- The product of two symbols. -/
def gfMul (a b : BitVec 10) : BitVec 10 :=
  [9, 8, 7, 6, 5, 4, 3, 2, 1, 0].foldl (fun p i => gfX p ^^^ (if b.getLsbD i then a else 0)) 0

/-- A polynomial, highest power first, times (x - r). -/
def timesRoot (g : List (BitVec 10)) (r : BitVec 10) : List (BitVec 10) :=
  List.zipWith (· ^^^ ·) (g ++ [0]) (0 :: g.map (gfMul r))

/-- The powers of x from `r` on. -/
def gfPowers : Nat → BitVec 10 → List (BitVec 10)
  | 0, _ => []
  | n + 1, r => r :: gfPowers n (gfX r)

/-- The generator polynomial without its highest term: its roots are the first 12 powers of x. -/
def rsGen : List (BitVec 10) := ((gfPowers 12 1).foldl timesRoot [1]).drop 1

/-- The 12 check symbols of a message: the remainder by the generator. -/
def rsCheck (m : List (BitVec 10)) : List (BitVec 10) :=
  m.foldl (fun p s =>
    let f := s ^^^ p.headD 0
    List.zipWith (· ^^^ ·) (p.drop 1 ++ [0]) (rsGen.map (gfMul f))) (List.replicate 12 0)

/-- Bits taken ten at a time as symbols, the first bit highest. -/
def symbolsOf : List Bool → List (BitVec 10)
  | a :: b :: c :: d :: e :: f :: g :: h :: i :: j :: r =>
    [a, b, c, d, e, f, g, h, i, j].foldl (fun n x => (n <<< 1) ||| (if x then 1 else 0)) (0 : BitVec 10) :: symbolsOf r
  | _ => []

/-! ### The lanes -/

/-- Symbols striped round robin over the four lanes. -/
def stripes (l : List (BitVec 10)) : List (List (BitVec 10)) :=
  [0, 1, 2, 3].map fun k => (l.zipIdx.filter fun e => e.2 % 4 == k).map (·.1)

/-- Codewords as the lanes carry them, from a scrambler state and the number of the first: each is scrambled, encoded and striped, and one
in 16,384 carries an alignment marker on each lane. -/
def codewords : BitVec 58 → Nat → List Bytes → List Codeword
  | _, _, [] => []
  | r, n, d :: l =>
    let (r, b) := scramble58 r (bitsOf d)
    let m := symbolsOf b
    { marker := n % 16384 == 0, lanes := stripes (m ++ rsCheck m) } :: codewords r (n + 1) l

/-- The codewords that carry a BLP frame. Those of fill alone before it are not listed, so that the scrambler's state and the number of the
first are free values (log entry 104). -/
def frameLines (seed number : BitVec 64) (f : Bytes) : List Codeword :=
  codewords (seed.setWidth 58) number.toNat (cwData 8 0 f)

end Sys2Proof.Machine
end

