-- ==== Sys2Proof/Machine/Cipher.lean ====
section
/-!
DEFINITION. The ciphers the spec names by their standards: AES (FIPS 197), AES key wrap (RFC 3394, R479), AES-GCM
(R471, R492), SRTP and SRTCP (RFC 3711 and RFC 7714, R470 to R474), SHA-1, SHA-384 and ECDSA P-384 (R736). PRESUMED: the
steps are the public standards', which the spec names and does not print (log entry 31). Words are numbers, so that the
kernel can evaluate a whole packet.
-/

namespace Sys2Proof.Machine

/-- The number whose bytes, highest first, are `b`. -/
def unbe (b : Bytes) : Nat := b.foldl (fun n x => n * 256 + x.toNat) 0

/-! ### AES -/

/-- The S-box, entry 0 in the lowest byte. -/
def sboxBits : Nat :=
  0x16bb54b00f2d99416842e6bf0d89a18cdf2855cee9871e9b948ed9691198f8e19e1dc186b95735610ef6034866b53e708a8bbd4b1f74dde8c6b4a61c2e2578ba08ae7a65eaf4566ca94ed58d6d37c8e779e4959162acd3c25c2406490a3a32e0db0b5ede14b8ee4688902a22dc4f816073195d643d7ea7c41744975fec130ccdd2f3ff1021dab6bcf5389d928f40a351a89f3c507f02f94585334d43fbaaefd0cf584c4a39becb6a5bb1fc20ed00d153842fe329b3d63b52a05a6e1b1a2c830975b227ebe28012079a059618c323c7041531d871f1e5a534ccf73f362693fdb7c072a49cafa2d4adf04759fa7dc982ca76abd7fe2b670130c56f6bf27b777c63

/-- The inverse S-box. -/
def invSboxBits : Nat :=
  0x7d0c2155631469e126d677ba7e042b17619953833cbbebc8b0f52aae4d3be0a0ef9cc9939f7ae52d0d4ab519a97f51605fec8027591012b131c7078833a8dd1ff45acd78fec0db9a2079d2c64b3e56fc1bbe18aa0e62b76f89c5291d711af1476edf751ce837f9e28535ade72274ac9673e6b4f0cecff297eadc674f4111913a6b8a130103bdafc1020f3fca8f1e2cd00645b3b80558e4f70ad3bc8c00abd890849d8da75746155edab9edfd5048706c92b6655dcc5ca4d41698688664f6f87225d18b6d49a25b76b224d92866a12e084ec3fa420b954cee3d23c2a632947b54cbe9dec444438e3487ff2f9b8239e37cfbd7f3819ea340bf38a53630d56a0952

/-- One byte through a box. -/
def subByte (box x : Nat) : Nat := box >>> (8 * x) % 256

/-- A byte times x in the field of AES. -/
def xtime (a : Nat) : Nat := if a < 128 then 2 * a else (2 * a) ^^^ 0x11b

/-- Each byte of a 32-bit word through the S-box. -/
def subWord (w : Nat) : Nat :=
  subByte sboxBits (w / 16777216 % 256) * 16777216 + subByte sboxBits (w / 65536 % 256) * 65536 +
    subByte sboxBits (w / 256 % 256) * 256 + subByte sboxBits (w % 256)

/-- The key schedule: `n` more words, the newest word of `acc` first; `i` numbers the next word and `rcon` is its round's. -/
def aesExpand (nk : Nat) : Nat → Nat → Nat → List Nat → List Nat
  | 0, _, _, acc => acc
  | n + 1, i, rcon, acc =>
    let t := acc.headD 0
    let t' :=
      if i % nk = 0 then subWord (t % 16777216 * 256 + t / 16777216) ^^^ (rcon * 16777216)
      else if nk = 8 ∧ i % nk = 4 then subWord t else t
    aesExpand nk n (i + 1) (if i % nk = 0 then xtime rcon else rcon) ((acc.getD (nk - 1) 0 ^^^ t') :: acc)

/-- The 32-bit words of a byte string. -/
def words (b : Bytes) : List Nat := (List.range (b.length / 4)).map fun i => unbe ((b.drop (4 * i)).take 4)

/-- The round keys of a 16 or 32 byte key, as the words of one list, the first round's first. -/
def aesKeys (key : Bytes) : List Nat :=
  let nk := key.length / 4
  (aesExpand nk (3 * nk + 28) nk 1 (words key).reverse).reverse

/-- A round key added to a state of 16 bytes. -/
def addKey (ks st : List Nat) : List Nat :=
  (List.range 16).map fun i => st.getD i 0 ^^^ (ks.getD (i / 4) 0 >>> (8 * (3 - i % 4)) % 256)

/-- One column mixed. -/
def mixColumn (a b c d : Nat) : List Nat :=
  let t := a ^^^ b ^^^ c ^^^ d
  [a ^^^ t ^^^ xtime (a ^^^ b), b ^^^ t ^^^ xtime (b ^^^ c), c ^^^ t ^^^ xtime (c ^^^ d), d ^^^ t ^^^ xtime (d ^^^ a)]

/-- One column unmixed. -/
def unmixColumn (a b c d : Nat) : List Nat :=
  let u := xtime (xtime (a ^^^ c))
  let v := xtime (xtime (b ^^^ d))
  mixColumn (a ^^^ u) (b ^^^ v) (c ^^^ u) (d ^^^ v)

/-- A column operation on each of the four columns. -/
def columns (f : Nat → Nat → Nat → Nat → List Nat) : List Nat → List Nat
  | a :: b :: c :: d :: r => f a b c d ++ columns f r
  | _ => []

/-- SubBytes and ShiftRows. -/
def subShift (st : List Nat) : List Nat := (List.range 16).map fun i => subByte sboxBits (st.getD ((5 * i) % 16) 0)

/-- Their inverses. -/
def unsubShift (st : List Nat) : List Nat := (List.range 16).map fun i => subByte invSboxBits (st.getD ((13 * i) % 16) 0)

/-- The rounds of the cipher after the first key. -/
def aesRounds : List Nat → List Nat → List Nat
  | a :: b :: c :: d :: e :: r, st => aesRounds (e :: r) (addKey [a, b, c, d] (columns mixColumn (subShift st)))
  | ks, st => addKey ks (subShift st)

/-- A byte string as 16 numbers. -/
def stateOf (b : Bytes) : List Nat := (padTo 16 b).map (·.toNat)

/-- 16 numbers as bytes. -/
def bytesOf (st : List Nat) : Bytes := st.map (BitVec.ofNat 8)

/-- AES of one block under its round keys. -/
def aesBlock (ks : List Nat) (b : Bytes) : Bytes := bytesOf (aesRounds (ks.drop 4) (addKey ks (stateOf b)))

/-- The words of a key schedule in fours. -/
def fours : List Nat → List (List Nat)
  | a :: b :: c :: d :: r => [a, b, c, d] :: fours r
  | _ => []

/-- The inverse rounds after the last key: undo the S-box and the shift, add the round's key, and unmix but for the first
round's key. -/
def unrounds (st : List Nat) : List (List Nat) → List Nat
  | [] => st
  | [k] => addKey k (unsubShift st)
  | k :: r => unrounds (columns unmixColumn (addKey k (unsubShift st))) r

/-- AES decryption of one block under the round keys. -/
def aesUnblock (ks : List Nat) (b : Bytes) : Bytes :=
  match (fours ks).reverse with
  | [] => b
  | k :: r => bytesOf (unrounds (addKey k (stateOf b)) r)

/-- AES-256 of one block (Table 15.13). -/
def aes256 (key block : Bytes) : Bytes := aesBlock (aesKeys key) block

/-! ### AES key wrap (RFC 3394) -/

/-- The unwrapping steps from step `t` down, on the 64-bit integrity register and the blocks, the last block first. -/
def unwrapSteps (ks : List Nat) : Nat → Bytes → List Bytes → Bytes × List Bytes
  | 0, a, rs => (a, rs)
  | t + 1, a, [] => unwrapSteps ks t a []
  | t + 1, a, r :: rs =>
    let b := aesUnblock ks (be 8 (unbe a ^^^ (t + 1)) ++ r)
    unwrapSteps ks t (b.take 8) (rs ++ [b.drop 8])

/-- The 8-byte blocks of a byte string. -/
def eights (b : Bytes) : List Bytes := (List.range (b.length / 8)).map fun i => (b.drop (8 * i)).take 8

/-- AES key unwrap under a 256-bit key (R479): none where the integrity check fails (R481). -/
def keyUnwrap (kek blob : Bytes) : Option Bytes :=
  let rs := (eights (blob.drop 8)).reverse
  let (a, rs) := unwrapSteps (aesKeys kek) (6 * rs.length) (blob.take 8) rs
  if blob.length % 8 = 0 ∧ 24 ≤ blob.length ∧ a = List.replicate 8 0xA6 then some rs.reverse.flatten else none

/-! ### AES counter mode and GCM -/

/-- Two byte strings added bit by bit. -/
def xorBytes (a b : Bytes) : Bytes := List.zipWith (· ^^^ ·) a b

/-- The 16-byte blocks of a byte string, the last one short. -/
def blocks16 (b : Bytes) : List Bytes := (List.range ((b.length + 15) / 16)).map fun i => (b.drop (16 * i)).take 16

/-- The keystream added to data: block `i` under counter `ctr i`. -/
def ctrMode (ks : List Nat) (ctr : Nat → Nat) (data : Bytes) : Bytes :=
  ((blocks16 data).mapIdx fun i b => xorBytes b (aesBlock ks (be 16 (ctr i)))).flatten

/-- The product in the field of GHASH, bit 127 of a number being the first bit; `n` bits of `x` remain. -/
def ghashMul (x : Nat) : Nat → Nat → Nat → Nat
  | 0, _, z => z
  | n + 1, v, z =>
    ghashMul x n (if v.testBit 0 then (v / 2) ^^^ (0xE1 <<< 120) else v / 2) (if x.testBit n then z ^^^ v else z)

/-- GHASH of padded data under the hash key. -/
def ghash (h : Nat) (data : Bytes) : Nat :=
  (blocks16 data).foldl (fun y b => ghashMul (y ^^^ unbe b) 128 h 0) 0

/-- A byte string padded with zeros to whole blocks. -/
def pad16 (b : Bytes) : Bytes := b ++ List.replicate ((16 - b.length % 16) % 16) 0

/-- The counter block of a 12-byte IV, `i` blocks on. -/
def gcmCounter (iv : Bytes) (i : Nat) : Nat := unbe iv * 2 ^ 32 + (i + 1) % 2 ^ 32

/-- The 16-byte tag of a ciphertext and its associated data. -/
def gcmTag (ks : List Nat) (iv head ct : Bytes) : Bytes :=
  let h := unbe (aesBlock ks (List.replicate 16 0))
  let g := ghash h (pad16 head ++ pad16 ct ++ be 8 (8 * head.length) ++ be 8 (8 * ct.length))
  be 16 (g ^^^ unbe (aesBlock ks (be 16 (gcmCounter iv 0))))

/-- AES-GCM: ciphertext, then the tag. -/
def gcmSeal (key iv head data : Bytes) : Bytes :=
  let ks := aesKeys key
  let ct := ctrMode ks (fun i => gcmCounter iv (i + 1)) data
  ct ++ gcmTag ks iv head ct

/-- AES-GCM verified and decrypted: none where the tag differs. -/
def gcmOpen (key iv head data : Bytes) : Option Bytes :=
  let ks := aesKeys key
  let n := data.length - 16
  let ct := data.take n
  if 16 ≤ data.length ∧ gcmTag ks iv head ct = data.drop n then some (ctrMode ks (fun i => gcmCounter iv (i + 1)) ct)
  else none

/-! ### SHA-1 with HMAC, and SHA-384 -/

/-- A rotation left of a word of `w` bits. -/
def rotl (w n x : Nat) : Nat := (x <<< n ||| x >>> (w - n)) % 2 ^ w

/-- A message padded to blocks of `n` bytes: 0x80, zeros, and its bit length in `l` bytes. -/
def hashPad (n l : Nat) (m : Bytes) : Bytes :=
  m ++ [0x80] ++ List.replicate ((2 * n - 1 - l - m.length % n) % n) 0 ++ be l (8 * m.length)

/-- A byte string in blocks of `n` bytes. -/
def blocksOf (n : Nat) (b : Bytes) : List Bytes := (List.range (b.length / n)).map fun i => (b.drop (n * i)).take n

/-- The message schedule of SHA-1, the newest word first. -/
def sha1Words : Nat → List Nat → List Nat
  | 0, w => w
  | n + 1, w => sha1Words n (rotl 32 1 (w.getD 2 0 ^^^ w.getD 7 0 ^^^ w.getD 13 0 ^^^ w.getD 15 0) :: w)

/-- The running value of SHA-1. -/
structure Sha1 where
  a : Nat
  b : Nat
  c : Nat
  d : Nat
  e : Nat
  deriving DecidableEq, Repr

/-- Round `t` of SHA-1. -/
def sha1Round (x : Sha1) (t w : Nat) : Sha1 :=
  let f :=
    if t < 20 then (x.b &&& x.c) ||| ((x.b ^^^ 0xFFFFFFFF) &&& x.d)
    else if 40 ≤ t ∧ t < 60 then (x.b &&& x.c) ||| (x.b &&& x.d) ||| (x.c &&& x.d)
    else x.b ^^^ x.c ^^^ x.d
  let k := if t < 20 then 0x5A827999 else if t < 40 then 0x6ED9EBA1 else if t < 60 then 0x8F1BBCDC else 0xCA62C1D6
  { a := (rotl 32 5 x.a + f + x.e + k + w) % 2 ^ 32, b := x.a, c := rotl 32 30 x.b, d := x.c, e := x.d }

/-- One block of SHA-1. -/
def sha1Block (h : Sha1) (b : Bytes) : Sha1 :=
  let w := (sha1Words 64 (words b).reverse).reverse
  let x := (w.zipIdx).foldl (fun x e => sha1Round x e.2 e.1) h
  { a := (h.a + x.a) % 2 ^ 32, b := (h.b + x.b) % 2 ^ 32, c := (h.c + x.c) % 2 ^ 32, d := (h.d + x.d) % 2 ^ 32,
    e := (h.e + x.e) % 2 ^ 32 }

/-- SHA-1. -/
def sha1 (m : Bytes) : Bytes :=
  let h := (blocksOf 64 (hashPad 64 8 m)).foldl sha1Block
    { a := 0x67452301, b := 0xEFCDAB89, c := 0x98BADCFE, d := 0x10325476, e := 0xC3D2E1F0 }
  be 4 h.a ++ be 4 h.b ++ be 4 h.c ++ be 4 h.d ++ be 4 h.e

/-- HMAC-SHA1 under a key of at most 64 bytes. -/
def hmacSha1 (key m : Bytes) : Bytes :=
  let k := padTo 64 key
  sha1 (k.map (· ^^^ 0x5C) ++ sha1 (k.map (· ^^^ 0x36) ++ m))

/-- The 80 round constants of SHA-384, 64 bits each, the first lowest. -/
def sha384Consts : Nat :=
  0x6c44198c4a4758175fcb6fab3ad6faec597f299cfc657e2a4cc5d4becb3e42b6431d67c49c100d4c3c9ebe0a15c9bebc32caab7b40c7249328db77f523047d841b710b35131c471b113f9804bef90dae0a637dc5a2c898a606f067aa72176fbaf57d4f7fee6ed178eada7dd6cde0eb1ed186b8c721c0c207ca273eceea26619cc67178f2e372532bbef9a3f7b2c67915a4506cebde82bde990befffa23631e288cc702081a6439ec84c87814a1f0ab7278a5636f43172f60748f82ee5defb2fc682e6ff3d6b2b8a35b9cca4f7763e3734ed8aa4ae3418acb391c0cb3c5c95a6334b0bcb5e19b48a82748774cdf8eeb991e376c085141ab5319a4c116b8d2d0c8106aa07032bbd1b8f40e35855771202ad69906245565a910d192e819d6ef5218c76c51a30654be30c24b8b70d0f89791a81a664bbc423001a2bfe8a14cf1036492722c851482353b81c2c92e47edaee6766a0abb3c77b2a8650a73548baf63de53380d139d95b3df4d2c6dfc5ac42aed2e1b21385c26c92627b70a8546d22ffc142929670a0e6e7006ca6351e003826fd5a79147930aa725c6e00bf33da88fc2bf597fc7beef0ee4b00327c898fb213fa831c66d2db43210983e5152ee66dfab76f988da831153b55cb0a9dcbd41fbd44a7484aa6ea6e4832de92c6f592b0275240ca1cc77ac9c650fc19dc68b8cd5b5efbe4786384f25e3e49b69c19ef14ad2c19bf174cf6926949bdc06a725c7123580deb1fe3b1696b172be5d74f27b896f550c7dc3d5ffb4e2243185be4ee4b28c12835b0145706fbed807aa98a3030242ab1c5ed5da6d8118923f82a4af194f9b59f111f1b605d0193956c25bf348b538e9b5dba58189dbbcb5c0fbcfec4d3b2f7137449123ef65cd428a2f98d728ae22

/-- A rotation right of a 64-bit word. -/
def rotr (n x : Nat) : Nat := rotl 64 (64 - n) x

/-- The message schedule of SHA-384, the newest word first. -/
def sha384Words : Nat → List Nat → List Nat
  | 0, w => w
  | n + 1, w =>
    let a := w.getD 1 0
    let b := w.getD 14 0
    let s1 := rotr 19 a ^^^ rotr 61 a ^^^ a >>> 6
    let s0 := rotr 1 b ^^^ rotr 8 b ^^^ b >>> 7
    sha384Words n ((s1 + w.getD 6 0 + s0 + w.getD 15 0) % 2 ^ 64 :: w)

/-- One round of SHA-384 on the eight working words. -/
def sha384Round (x : List Nat) (t w : Nat) : List Nat :=
  match x with
  | [a, b, c, d, e, f, g, h] =>
    let t1 := h + (rotr 14 e ^^^ rotr 18 e ^^^ rotr 41 e) + ((e &&& f) ^^^ ((e ^^^ (2 ^ 64 - 1)) &&& g)) +
      sha384Consts >>> (64 * t) % 2 ^ 64 + w
    let t2 := (rotr 28 a ^^^ rotr 34 a ^^^ rotr 39 a) + ((a &&& b) ^^^ (a &&& c) ^^^ (b &&& c))
    [(t1 + t2) % 2 ^ 64, a, b, c, (d + t1) % 2 ^ 64, e, f, g]
  | _ => x

/-- The 64-bit words of a byte string. -/
def words64 (b : Bytes) : List Nat := (eights b).map unbe

/-- One block of SHA-384. -/
def sha384Block (h : List Nat) (b : Bytes) : List Nat :=
  let w := (sha384Words 64 (words64 b).reverse).reverse
  let x := (w.zipIdx).foldl (fun x e => sha384Round x e.2 e.1) h
  List.zipWith (fun a b => (a + b) % 2 ^ 64) h x

/-- SHA-384. -/
def sha384 (m : Bytes) : Bytes :=
  let h := (blocksOf 128 (hashPad 128 16 m)).foldl sha384Block
    [0xcbbb9d5dc1059ed8, 0x629a292a367cd507, 0x9159015a3070dd17, 0x152fecd8f70e5939,
     0x67332667ffc00b31, 0x8eb44a8768581511, 0xdb0c2e0d64f98fa7, 0x47b5481dbefa4fa4]
  (h.take 6).flatMap (be 8)

/-! ### ECDSA P-384 -/

/-- The prime of P-384. -/
def p384 : Nat := 2 ^ 384 - 2 ^ 128 - 2 ^ 96 + 2 ^ 32 - 1

/-- The order of its base point. -/
def n384 : Nat :=
  0xffffffffffffffffffffffffffffffffffffffffffffffffc7634d81f4372ddf581a0db248b0a77aecec196accc52973

/-- The coefficient b of the curve. -/
def b384 : Nat :=
  0xb3312fa7e23ee7e4988e056be3f82d19181d9c6efe8141120314088f5013875ac656398d8a2ed19d2a85c8edd3ec2aef

/-- The base point. -/
def g384 : Nat × Nat :=
  (0xaa87ca22be8b05378eb1c71ef320ad746e1d3b628ba79b9859f741e082542a385502f25dbf55296c3a545e3872760ab7,
   0x3617de4a96262c6f5d9e98bf9292dc29f8f41dbd289a147ce9da3113b5f0b8c00a60b1ce1d7e819d7a431d7c90ea0e5f)

/-- A power modulo `m`, from the `k` low bits of the exponent. -/
def powMod (m b e : Nat) : Nat → Nat
  | 0 => 1 % m
  | k + 1 =>
    let h := powMod m (b * b % m) (e / 2) k
    if e % 2 = 1 then b * h % m else h

/-- A point of the curve in Jacobian coordinates; z = 0 is the point at infinity. -/
structure Point where
  x : Nat
  y : Nat
  z : Nat
  deriving DecidableEq, Repr

/-- A difference modulo the prime. -/
def sub384 (a b : Nat) : Nat := (a + (p384 - b % p384)) % p384

/-- A point doubled. -/
def Point.dbl (q : Point) : Point :=
  let yy := q.y * q.y % p384
  let zz := q.z * q.z % p384
  let s := 4 * q.x * yy % p384
  let m := 3 * sub384 q.x zz * (q.x + zz) % p384
  let x := sub384 (m * m) (2 * s)
  { x := x, y := sub384 (m * sub384 s x) (8 * yy * yy), z := 2 * q.y * q.z % p384 }

/-- Two points added. -/
def Point.add (q r : Point) : Point :=
  if q.z = 0 then r
  else if r.z = 0 then q
  else
    let zz := q.z * q.z % p384
    let ww := r.z * r.z % p384
    let u1 := q.x * ww % p384
    let u2 := r.x * zz % p384
    let s1 := q.y * ww * r.z % p384
    let s2 := r.y * zz * q.z % p384
    if u1 = u2 then (if s1 = s2 then q.dbl else { x := 1, y := 1, z := 0 })
    else
      let h := sub384 u2 u1
      let w := sub384 s2 s1
      let hh := h * h % p384
      let c := hh * h % p384
      let v := u1 * hh % p384
      let x := sub384 (w * w) (c + 2 * v)
      { x := x, y := sub384 (w * sub384 v x) (s1 * c), z := q.z * r.z * h % p384 }

/-- A multiple of a point, from the `n` low bits of `k`. -/
def Point.mul (q : Point) (k : Nat) : Nat → Point
  | 0 => { x := 1, y := 1, z := 0 }
  | n + 1 =>
    let h := (q.mul (k / 2) n).dbl
    if k % 2 = 1 then h.add q else h

/-- ECDSA P-384 with SHA-384 (Table 24.9): the key is x then y, the signature r then s, all big-endian. -/
def verify384 (key message signature : Bytes) : Bool :=
  let x := unbe (key.take 48)
  let y := unbe (key.drop 48)
  let r := unbe (signature.take 48)
  let s := unbe (signature.drop 48)
  let w := powMod n384 s (n384 - 2) 384
  let e := unbe (sha384 message)
  let g : Point := { x := g384.1, y := g384.2, z := 1 }
  let q : Point := { x := x, y := y, z := 1 }
  let t := (g.mul (e * w % n384) 384).add (q.mul (r * w % n384) 384)
  let iz := powMod p384 t.z (p384 - 2) 384
  decide (x < p384) && decide (y < p384) && y * y % p384 == (x * x % p384 * x + 3 * (p384 - x) + b384) % p384 &&
    decide (1 ≤ r) && decide (r < n384) && decide (1 ≤ s) && decide (s < n384) && t.z != 0 &&
    t.x * iz % p384 * iz % p384 % n384 == r

/-! ### SRTP and SRTCP (R470 to R474) -/

/-- The master key length of a profile (Table 15.1). -/
def srtpKeyLen (profile : Nat) : Nat := if profile = 2 then 32 else 16

/-- The session salt length of a profile. -/
def srtpSaltLen (profile : Nat) : Nat := if profile ≤ 2 then 12 else 14

/-- The `n` session bytes of label `label` from a master key with its salt, the derivation rate 0 (R473). -/
def srtpDerive (profile : Nat) (master : Bytes) (label n : Nat) : Bytes :=
  let salt := unbe (padTo 14 (master.drop (srtpKeyLen profile)))
  ctrMode (aesKeys (master.take (srtpKeyLen profile))) (fun i => (salt ^^^ (label * 2 ^ 48)) * 65536 + i) (List.replicate n 0)

/-- The header length of an RTP packet: CSRC list and header extension counted. -/
def rtpHeadLen (d : Bytes) : Nat :=
  let n := 12 + 4 * (u8 d 0 % 16)
  if u8 d 0 / 16 % 2 = 1 then n + 4 + 4 * bfld d (n + 2) 2 else n

/-- The SRTP IV of the GCM profiles (R471): (0x0000, SSRC, ROC, sequence number) XOR the session salt. -/
def gcmRtpIv (salt : Bytes) (ssrc index : Nat) : Bytes := be 12 ((ssrc * 2 ^ 48 + index) ^^^ unbe salt)

/-- The counter of the HMAC profiles (RFC 3711). -/
def cmCounter (salt : Bytes) (ssrc index i : Nat) : Nat :=
  ((unbe salt * 65536) ^^^ (ssrc * 2 ^ 64) ^^^ (index * 65536)) + i

/-- The payload of an SRTP packet enciphered or deciphered under an HMAC profile, `k` the first label. -/
def cmData (profile : Nat) (master : Bytes) (k ssrc index : Nat) (data : Bytes) : Bytes :=
  ctrMode (aesKeys (srtpDerive profile master k 16)) (cmCounter (srtpDerive profile master (k + 2) 14) ssrc index) data

/-- The SRTP tag length of an HMAC profile (Table 15.1). -/
def cmTagLen (profile : Nat) : Nat := if profile = 4 then 4 else 10

/-- An RTP packet protected under a profile, a master key with salt and a packet index. -/
def srtpProtect (profile : Nat) (master : Bytes) (index : Nat) (d : Bytes) : Bytes :=
  let n := rtpHeadLen d
  let ssrc := bfld d 8 4
  if profile ≤ 2 then
    d.take n ++ gcmSeal (srtpDerive profile master 0 (srtpKeyLen profile))
      (gcmRtpIv (srtpDerive profile master 2 12) ssrc index) (d.take n) (d.drop n)
  else
    let m := d.take n ++ cmData profile master 0 ssrc index (d.drop n)
    m ++ (hmacSha1 (srtpDerive profile master 1 20) (m ++ be 4 (index / 65536))).take (cmTagLen profile)

/-- An SRTP packet verified and decrypted: none where authentication fails (R484). -/
def srtpOpen (profile : Nat) (master : Bytes) (index : Nat) (d : Bytes) : Option Bytes :=
  let n := rtpHeadLen d
  let ssrc := bfld d 8 4
  if profile ≤ 2 then
    (gcmOpen (srtpDerive profile master 0 (srtpKeyLen profile)) (gcmRtpIv (srtpDerive profile master 2 12) ssrc index)
      (d.take n) (d.drop n)).map (d.take n ++ ·)
  else
    let t := cmTagLen profile
    let m := d.take (d.length - t)
    let tag := (hmacSha1 (srtpDerive profile master 1 20) (m ++ be 4 (index / 65536))).take t
    if n + t ≤ d.length ∧ tag = d.drop (d.length - t) then some (m.take n ++ cmData profile master 0 ssrc index (m.drop n))
    else none

/-- The SRTCP IV of the GCM profiles (RFC 7714, section 9). -/
def gcmRtcpIv (salt : Bytes) (ssrc index : Nat) : Bytes := be 12 ((ssrc * 2 ^ 48 + index) ^^^ unbe salt)

/-- An RTCP packet protected, its E flag set (R474). -/
def srtcpProtect (profile : Nat) (master : Bytes) (index : Nat) (d : Bytes) : Bytes :=
  let ssrc := bfld d 4 4
  let word := be 4 (2 ^ 31 + index)
  if profile ≤ 2 then
    d.take 8 ++ gcmSeal (srtpDerive profile master 3 (srtpKeyLen profile))
      (gcmRtcpIv (srtpDerive profile master 5 12) ssrc index) (d.take 8 ++ word) (d.drop 8) ++ word
  else
    let m := d.take 8 ++ cmData profile master 3 ssrc index (d.drop 8) ++ word
    m ++ (hmacSha1 (srtpDerive profile master 4 20) m).take 10

/-- An SRTCP packet verified and decrypted; one with E clear is accepted once it has authenticated (R474). -/
def srtcpOpen (profile : Nat) (master : Bytes) (d : Bytes) : Option Bytes :=
  let ssrc := bfld d 4 4
  if profile ≤ 2 then
    let word := d.drop (d.length - 4)
    let m := d.take (d.length - 4)
    let index := unbe word % 2 ^ 31
    let key := srtpDerive profile master 3 (srtpKeyLen profile)
    let iv := gcmRtcpIv (srtpDerive profile master 5 12) ssrc index
    if d.length < 28 then none
    else if unbe word / 2 ^ 31 = 1 then (gcmOpen key iv (m.take 8 ++ word) (m.drop 8)).map (m.take 8 ++ ·)
    else
      let p := m.take (m.length - 16)
      (gcmOpen key iv (p ++ word) (m.drop (m.length - 16))).map (p ++ ·)
  else
    let m := d.take (d.length - 10)
    let p := m.take (m.length - 4)
    let word := unbe (m.drop (m.length - 4))
    if d.length < 22 then none
    else if (hmacSha1 (srtpDerive profile master 4 20) m).take 10 ≠ d.drop (d.length - 10) then none
    else if word / 2 ^ 31 = 1 then some (p.take 8 ++ cmData profile master 3 ssrc (word % 2 ^ 31) (p.drop 8))
    else some p

end Sys2Proof.Machine
end

