-- ==== Sys2Proof/Machine/Ready.lean ====
section
/-!
DEFINITION. Ready lists, submission, ordered flows and the instances (R252 to R262, R273), and Onyx as a frame meets it that a core can take at
once (R495, R498).
-/

namespace Sys2Proof.Machine

/-- The instances of an engine kind (Table 8.1). -/
def kindCount : Nat → Nat
  | 1 => 256 | 3 => 32 | 4 => 32 | 5 => 16 | 6 => 8 | _ => 0

/-- The dispatcher changed. -/
def State.updWork (s : State) (f : Work → Work) : State := { s with work := f s.work }

/-- The ready list of an item of a kind, for a Garnet core its own (R252). -/
def listOf (kind core : Nat) : Nat :=
  match kind with
  | 0x01 => core | 0x03 => 256 | 0x04 => 257 | 0x05 => 258 | _ => 259

/-- The capacity of a ready list (Table 8.1). -/
def listCap (l : Nat) : Nat :=
  if l < 256 then 128 else if l = 256 then 2048 else if l = 257 then 2048 else if l = 258 then 1024 else 4096

/-- The items an instance of a list runs at once (Table 8.1). -/
def runCap (l : Nat) : Nat := if l = 259 then 4 else 1

/-! Fields of a descriptor (Table 8.4). -/

/-- Engine kind. -/
def dKind (d : Bytes) : Nat := u8 d 0
/-- Level 0 to 15. -/
def dLevel (d : Bytes) : Nat := u8 d 1 % 16
/-- The ORDERED flag. -/
def dOrdered (d : Bytes) : Bool := u8 d 1 / 16 % 2 == 1
/-- The flow. -/
def dFlow (d : Bytes) : Nat := u16 d 2
/-- The object's handle. -/
def dObj (d : Bytes) : Nat := u32 d 4
/-- The Garnet core. -/
def dCore (d : Bytes) : Nat := u16 d 8
/-- The engine operation. -/
def dFunc (d : Bytes) : Nat := u16 d 10
/-- The deadline in ns, 0 for none. -/
def dDeadline (d : Bytes) : Nat := 2 * u64 d 16
/-- The completion address. -/
def dAddr (d : Bytes) : Nat := u64 d 24

/-- The engine kind, level, core and reserved fields of a descriptor meet Table 8.4 (R259). -/
def descOk (d : Bytes) : Bool :=
  d.length == 64 && kindCount (dKind d) != 0 && u8 d 1 / 32 == 0 &&
  (if dKind d = 1 then decide (dCore d < 256) else dCore d == 0xFFFF) && zeros d 12 4 && decide (dAddr d < 2 ^ 48)

/-- The list of a descriptor. -/
def dList (d : Bytes) : Nat := listOf (dKind d) (dCore d)

/-- A statistic of a list raised, held at `cap`. -/
def Work.bump (w : Work) (l off n cap : Nat) : Work :=
  { w with stats := tset w.stats (l * 64 + off) (min cap (tget 0 w.stats (l * 64 + off) + n)) }

/-- The items waiting in a list. -/
def Work.depth (w : Work) (l : Nat) : Nat := (w.items.filter fun i => i.list == l && i.st == .queued).length

/-- The item takes no place of its flow any more only once it is released: the outstanding items of a flow (R265). -/
def Work.flowLen (w : Work) (flow : Nat) : Nat :=
  (w.items.filter fun i => dOrdered i.desc && dFlow i.desc == flow).length

/-- The ID the next item of a list takes (R260). -/
def Work.nextId (w : Work) (l : Nat) : Nat := l * 2 ^ 20 + tget 0 w.next l

/-- A submission is accepted now: the list has an entry, the flow has room, the ID is free (R260, R261, R265). -/
def Work.accepts (w : Work) (d : Bytes) : Bool :=
  decide (w.depth (dList d) < listCap (dList d)) && (!dOrdered d || decide (w.flowLen (dFlow d) < 256)) &&
  !(w.items.any fun i => i.id == w.nextId (dList d))

/-- The depth high water of a list raised to its depth (Table 8.14). -/
def Work.noteDepth (w : Work) (l : Nat) : Work :=
  { w with stats := tset w.stats (l * 64 + 34) (max (tget 0 w.stats (l * 64 + 34)) (w.depth l)) }

/-- The item that a submission becomes. -/
def Work.item (w : Work) (src : Nat) (x : Submission) : Item :=
  { id := w.nextId (dList x.desc), list := dList x.desc, source := src, desc := x.desc, data := x.data, job := x.job,
    st := .queued, marked := false, started := 0 }

/-- An item accepted (R260). -/
def Work.accept (w : Work) (src : Nat) (x : Submission) : Work :=
  let l := dList x.desc
  let w := { w with items := w.items ++ [w.item src x], next := tset w.next l ((tget 0 w.next l + 1) % 2 ^ 20) }
  let w := w.bump l 0 1 (2 ^ 64 - 1)
  w.noteDepth l

/-- A list that a descriptor names, malformed or not: there is one for its kind, and for Garnet for its core. -/
def dHasList (d : Bytes) : Bool := kindCount (dKind d) != 0 && (dKind d != 1 || decide (dCore d < 256))

/-- A malformed descriptor (R259): its source is told, and the list it names counts it. -/
def Work.refuse (w : Work) (src : Nat) (d : Bytes) : Work :=
  let w := { w with refused := (src, d) :: w.refused }
  if dHasList d then w.bump (dList d) 38 1 0xFFFF else w

/-- The submissions a source holds back from a kind, once the first of them meet the dispatcher: those it accepts go, and the
rest wait, the new head counted as a stall where it is stopped (R261, R262). -/
def Work.enter (src : Nat) : List Submission → Work → Work × List Submission
  | [], w => (w, [])
  | x :: r, w => if w.accepts x.desc then Work.enter src r (w.accept src x) else (w.bump (dList x.desc) 36 1 0xFFFF, x :: r)

/-- What a source holds back from a kind. -/
def Work.waiting (w : Work) (src kind : Nat) : List Submission := tget [] w.held (src * 256 + kind)

/-- What a source holds back replaced; a source that holds nothing is not listed. -/
def Work.hold (w : Work) (src kind : Nat) (l : List Submission) : Work :=
  { w with held := if l.isEmpty then tdel w.held (src * 256 + kind) else tset w.held (src * 256 + kind) l }

/-- A submission: refused as malformed, accepted, or held back at its source, behind what the source holds for the kind
already (R259 to R262). -/
def State.submit (s : State) (src : Nat) (x : Submission) : State :=
  let d := x.desc
  s.updWork fun w =>
    if !descOk d then w.refuse src d
    else if !(w.waiting src (dKind d)).isEmpty then w.hold src (dKind d) (w.waiting src (dKind d) ++ [x])
    else
      let (w, l) := Work.enter src [x] w
      w.hold src (dKind d) l

/-- A source may submit to a kind: it holds no submission back (R262). -/
def State.canSubmit (s : State) (src kind : Nat) : Bool := (s.work.waiting src kind).isEmpty

/-- A descriptor the bridge builds itself (Table 8.4); `deadline` in ns, 0 for none. -/
def descriptor (kind level flow obj core func deadline : Nat) (args : Bytes) : Bytes :=
  le 1 kind ++ le 1 (level + (if flow = 0 then 0 else 16)) ++ le 2 flow ++ le 4 obj ++ le 2 core ++ le 2 func ++ le 4 0 ++
  le 8 (deadline / 2) ++ le 8 0 ++ padTo 32 args

/-! The 65,536 ordered flows of Table 1.1 as firmware gives them to objects (DESIGN CHOICE, log entry 95): 1 to 32,768 the key
contexts, then the link contexts, the two stages of each decode, the two of each stream, and the compositions. -/

/-- The flow of a key context. -/
def keyFlow (ctx : Nat) : Nat := ctx % 32768 + 1
/-- The flow of a link context: link, direction and class (R495). -/
def linkFlow (link dir cls : Nat) : Nat := 32769 + link * 16 + dir * 8 + cls
/-- The flow of a decode's Agate (0) or Jasper (1) items. -/
def decodeFlow (stage leg : Nat) : Nat := 32833 + stage * 8192 + leg
/-- The flow of a stream's Jasper (3) or Agate (4) items: encoding * 4 + stream. -/
def encodeFlow (stage stream : Nat) : Nat := 49217 + (stage - 3) * 4096 + stream
/-- The flow of a composition's Opal items. -/
def opalFlow (comp : Nat) : Nat := 57409 + comp

/-! ### Records -/

/-- The 16 bytes of a completion record (Table 8.5). -/
def recordOf (i : Item) (st res : Nat) : Bytes :=
  le 4 i.id ++ le 4 (dObj i.desc) ++ le 1 st ++ le 1 (dLevel i.desc) ++
  le 2 (if dOrdered i.desc then u16 i.desc 2 else 0) ++ le 4 (if st = 0 || st = 5 then res else 0)

/-- The record of a released item. -/
def Item.record (i : Item) : Bytes :=
  match i.st with
  | .ended st res => recordOf i st res
  | _ => recordOf i 0 0

/-- A released item's record written to its completion address, or returned to its source (R268). -/
def Work.report (w : Work) (i : Item) : Work :=
  if dAddr i.desc = 0 then { w with returned := (i.source, i.record) :: w.returned }
  else { w with records := (dAddr i.desc, i.record) :: w.records }

/-! ### Instances -/

/-- The key of an engine instance. -/
def instKey (kind inst : Nat) : Nat := kind * 2 ^ 16 + inst

/-- An instance at reset: ENABLED. -/
def Inst.init : Inst := { st := .enabled, faults := [], down := false, drainBy := none }

/-- An engine instance. -/
def State.inst (s : State) (kind inst : Nat) : Inst := tget Inst.init s.work.insts (instKey kind inst)

/-- An engine instance changed. -/
def State.updInst (s : State) (kind inst : Nat) (f : Inst → Inst) : State :=
  s.updWork fun w => { w with insts := tset w.insts (instKey kind inst) (f (s.inst kind inst)) }

/-- An engine instance is being reset after a fault, or retired: it takes nothing on. -/
def State.unitDown (s : State) (kind inst : Nat) : Bool := (s.inst kind inst).down || (s.inst kind inst).st == .retired

/-- The list an instance takes its items from. -/
def instList (kind inst : Nat) : Nat := listOf kind inst

/-- The instance number items carry: 0 for a Garnet core, whose list it has alone. -/
def instNo (kind inst : Nat) : Nat := if kind = 1 then 0 else inst

/-- The running items of an instance. -/
def State.running (s : State) (kind inst : Nat) : List Item :=
  s.work.items.filter fun i => i.list == instList kind inst && i.st == .running (instNo kind inst)

/-- The staged item of an instance. -/
def State.staged (s : State) (kind inst : Nat) : Option Item :=
  s.work.items.find? fun i => i.list == instList kind inst && i.st == .staged (instNo kind inst)

/-- An item may be dispatched: queued, its deadline later than now, and not held by the throttle (R257, R281). -/
def State.eligible (s : State) (i : Item) : Bool :=
  i.st == .queued && (dDeadline i.desc == 0 || decide (s.now < dDeadline i.desc)) &&
  !(s.work.throttled && decide (dLevel i.desc < 4))

/-- The head item of the highest non-empty level of a list (R253). -/
def State.headItem (s : State) (l : Nat) : Option Item :=
  (s.work.items.filter fun i => i.list == l && s.eligible i).foldl (fun b i =>
    match b with
    | none => some i
    | some b => if dLevel b.desc < dLevel i.desc then some i else some b) none

/-! ### The cipher cluster -/

/-- The cluster changed. -/
def State.updOnyx (s : State) (f : Onyx → Onyx) : State := { s with onyx := f s.onyx }

/-- `n` bits drawn from DRBG instance `inst`: a generate request gives 4,096, and the instance reseeds after 2^20 of them while the
source is healthy (R500). -/
def State.drawn (s : State) (inst n : Nat) : State :=
  let o := s.onyx
  let left := tget 0 o.spare inst
  if n ≤ left then { s with onyx := { o with spare := tset o.spare inst (left - n) } }
  else
    let k := tget 0 o.requests inst + 1
    { s with onyx := { o with spare := tset o.spare inst (left + 4096 - n),
                              requests := tset o.requests inst (if o.entropy = 0 then k % 2 ^ 20 else k) } }


/-- Shares refreshed for a packet with 512 bits from a core's DRBG, eight free values: `f` notes the number of the first (R498). -/
def State.refresh512 (s : State) (core : Nat) (f : Nat → Onyx → Onyx) : State :=
  { ((s.drawn core 512).updOnyx (f s.fresh)) with fresh := s.fresh + 8 }

/-- The Onyx core that takes an item as it is submitted: in service, with a place and nothing staged; none while the dispatcher is being
reset, another item waits in the list, or one of the flow is outstanding (R253, R256, R264). -/
def State.coreFor (s : State) (d : Bytes) : Option Nat :=
  if s.unitDown 0x0A 0 || s.work.depth 259 != 0 || s.work.flowLen (dFlow d) != 0 || !s.work.accepts d || !s.canSubmit 1 6 then none
  else (List.range 8).find? fun c =>
    (s.inst 6 c).st == .enabled && !s.unitDown 6 c && !s.onyx.stopped.getLsbD c && (s.staged 6 c).isNone &&
    decide ((s.running 6 c).length < 4)

/-- An item that passes Onyx in the step that submits it: accepted, dispatched, done, and its record returned (DESIGN CHOICE, log entry
103). -/
def State.passOnyx (s : State) (src : Nat) (d : Bytes) : State :=
  s.updWork fun w =>
    let x : Submission := { desc := d, data := [], job := .none }
    (({ w.accept src x with items := w.items }).bump 259 8 1 (2 ^ 64 - 1)).report { w.item src x with st := .ended 0 0 }

end Sys2Proof.Machine
end

