-- ==== Sys2Proof/Machine/Ops.lean ====
section
/-!
DEFINITION. The named operations every family shares: mailboxes, responses and events, handles, admission, scheduled
changes and the frame of a JCI command.
-/

namespace Sys2Proof.Machine

/-! ### Small updates of the state -/

/-- An output put out. -/
def State.emit (s : State) (o : Out) : State := { s with out := o :: s.out }

/-- Several outputs, the first first. -/
def State.emits (s : State) (l : List Out) : State := { s with out := l.reverse ++ s.out }

/-- A count against the object of a handle: 6 full-refused (R436), 7 poisoned (R439). -/
def State.objCount (s : State) (handle k n : Nat) : State :=
  let i := (handle / 2 ^ 27 * 2 ^ 20 + handle % 2 ^ 20) * 8 + k
  { s with objCtr := tset s.objCtr i (tget 0 s.objCtr i + n) }

/-- The mailbox `f`. -/
def State.mb (s : State) (f : Nat) : Mailbox := tget Mailbox.init s.mbx f

/-- The mailbox `f` replaced. -/
def State.setMb (s : State) (f : Nat) (m : Mailbox) : State := { s with mbx := tset s.mbx f m }

/-- The mailbox `f` changed. -/
def State.updMb (s : State) (f : Nat) (g : Mailbox → Mailbox) : State := s.setMb f (g (s.mb f))

/-- Time moved on to `t`, never back. -/
def State.at (s : State) (t : Nat) : State := if s.now < t then { s with now := t, nowFrac := 0 } else s

/-- The next free value: a value the spec leaves open, drawn once. -/
def State.draw (s : State) : BitVec 64 × State := (Config.freeValue s.fresh, { s with fresh := s.fresh + 1 })

/-- The length of a block in ns (R587). -/
def blockNs : Nat := 2000000

/-- The block the time counter lies in. -/
def State.block (s : State) : Nat := s.now / blockNs

/-- The number of the next block trigger (R588): that of the running block where a step has set the counter to its start. -/
def State.nextTrigger (s : State) : Nat := if s.quartz.due then s.block else s.block + 1

/-- The first block start after now (R795); for a change of a critical object, the first that lies at least 4 ms after
completion, or where its DELTA puts it (R655). -/
def State.nextBlock (s : State) : Nat :=
  match s.trio.effectAt with
  | none => s.nextTrigger
  | some t => max s.nextTrigger ((t + blockNs - 1) / blockNs)

/-- The current mode. -/
def State.mode (s : State) : Mode := s.sys.mode

/-- Mailboxes are open and no media restart is in progress. -/
def State.serving (s : State) : Bool := s.sys.mode.isOpen && s.sys.restart.isNone

/-- Media objects may be created (R716). -/
def State.inService (s : State) : Bool := s.sys.mode.service

/-! ### Rings -/

/-- The number of slots of a ring (R27). -/
def Ring.size (r : Ring) : Nat := 2 ^ r.log2n

/-- The filled slots of a ring (R30). -/
def Ring.filled (r : Ring) : Nat := (r.tail + r.size - r.head) % r.size

/-- The free slots of a ring: at most N - 1 are filled (R30). -/
def Ring.free (r : Ring) : Nat := r.size - 1 - r.filled

/-- The ring after the bridge has filled one slot. -/
def Ring.push (r : Ring) : Ring := { r with tail := (r.tail + 1) % r.size, seq := r.seq + 1 }

/-- One MSI-X vector signalled: sent, pended or nothing (R757). -/
def State.msix (s : State) (f v : Nat) : State :=
  let m := s.mb f
  if m.ie.getLsbD v then
    if m.msixFnMask || m.msixMask.getLsbD v then
      s.setMb f { m with msixPending := m.msixPending ||| BitVec.ofNat 4 (2 ^ v) }
    else s.emit (.msix f v)
  else s

/-- The next waiting event placed in an IDLE window (R60): NMC_ATTN_N is asserted. -/
def State.placeEvent (s : State) : State :=
  match s.nmc.wstate, s.nmc.queue with
  | .idle, e :: q =>
    let m := s.mb 4
    let e := { e with seq := m.evt.seq.toNat }
    let s := s.setMb 4 { m with evt := { m.evt with seq := m.evt.seq + 1 } }
    { s with nmc := { s.nmc with window := e.bytes (ringNo 4 2), wstate := .event, attn := true, queue := q } }
  | _, _ => s

/-- One event slot written to the event ring of function `f` (R33). -/
def State.pushEvent (s : State) (f : Nat) (e : Slot) : State :=
  let m := s.mb f
  let e := { e with seq := m.evt.seq.toNat }
  ((s.setMb f { m with evt := m.evt.push }).emit (.slot f 2 m.evt.tail e)).msix f 1

/-- The slots of an event, MORE set on all but the last (R55). -/
def eventSlots (op target : Nat) (tag : Nat) (p : Bytes) : List Slot :=
  let cs := chunks p
  cs.zipIdx.map fun c =>
    { opcode := op, flags := if c.2 + 1 < cs.length then 4 else 0, seq := 0, target := target, status := 0,
      tag := tag, payload := c.1 }

/-- Room for `k` event slots of mailbox `f`: the ring's free slots, or the NMC queue's entries (R59, R96). -/
def State.eventRoom (s : State) (f k : Nat) : Bool :=
  let m := s.mb f
  if f < 4 then m.evt.en && !m.evt.err && decide (k ≤ m.evt.free)
  else decide (s.nmc.queue.length + k ≤ 64)

/-- The slots of an event written, or queued for the window. -/
def State.writeEvents (s : State) (f : Nat) (l : List Slot) : State :=
  if f < 4 then l.foldl (fun s e => s.pushEvent f e) s
  else State.placeEvent { s with nmc := { s.nmc with queue := s.nmc.queue ++ l } }

/-- An event dropped and counted (R56). -/
def State.dropEvent (s : State) (f op : Nat) : State :=
  let m := s.mb f
  let s := s.setMb f { m with nLost := m.nLost + 1, lostCount := m.lostCount + 1,
                              lostFirst := if m.lostCount = 0 then op else m.lostFirst }
  if f < 4 then s
  else { s with nmc := { s.nmc with evtDropped := if s.nmc.evtDropped = 0xFFFF then 0xFFFF else s.nmc.evtDropped + 1 } }

/-- The event group of an event opcode: g of 0xF0 + g (R66). -/
def eventGroup (op : Nat) : Nat := op / 256 % 16

/-- Nothing stands before a new event: no Ready due, no held notice, no EventsLost owed (R56, R96). -/
def Mailbox.clear (m : Mailbox) : Bool := !m.readyDue && m.held.isEmpty && m.lostCount == 0

/-- An event raised on mailbox `f` (R54 to R56, R66): masked, written, or dropped and counted. In a mode without open mailboxes
none is raised (Table 24.1, R709). -/
def State.raiseOn (s : State) (f op target tag : Nat) (p : Bytes) : State :=
  let m := s.mb f
  let l := eventSlots op target tag p
  if !s.sys.mode.isOpen || m.mask.getLsbD (eventGroup op) then s
  else if m.clear && s.eventRoom f l.length then s.writeEvents f l
  else s.dropEvent f op

/-- A FaultNotice with LOST_BEFORE set where it is owed (R96, Table 3.7). -/
def markLost (b : Bool) (p : Bytes) : Bytes :=
  if b then p.set 6 ((p.getD 6 0) ||| 4#8) else p

/-- The held notices written in order while there is room (R96). -/
def State.flushHeld (f : Nat) : List Bytes → State → State
  | [], s => s.updMb f fun m => { m with held := [] }
  | p :: r, s =>
    let l := eventSlots 0xF003 0 0 (markLost (s.mb f).lostBefore p)
    if s.eventRoom f l.length then
      State.flushHeld f r ((s.writeEvents f l).updMb f fun m => { m with lostBefore := false })
    else s.updMb f fun m => { m with held := p :: r }

/-- Ready written where it is due and there is room (Table 2.8, R756). -/
def State.flushReady (s : State) (f : Nat) : State :=
  if (s.mb f).readyDue && s.eventRoom f 1 then
    (s.writeEvents f (eventSlots 0xF000 0 0 (le 2 3 ++ le 2 1))).updMb f
      fun m => { m with readyDue := false, fwReady := true }
  else s

/-- EventsLost written where it is owed and there is room (R56). -/
def State.flushLost (s : State) (f : Nat) : State :=
  let m := s.mb f
  if m.held.isEmpty && decide (0 < m.lostCount) && s.eventRoom f 1 then
    (s.writeEvents f (eventSlots 0xF001 0 0 (le 4 m.lostCount ++ le 2 m.lostFirst ++ le 2 0))).updMb f
      fun m => { m with lostCount := 0, lostFirst := 0 }
  else s

/-- What waits for room on mailbox `f`, in the order of R56: Ready, held FaultNotices, EventsLost. -/
def State.pump (s : State) (f : Nat) : State :=
  let s := s.flushReady f
  if (s.mb f).readyDue then s else (State.flushHeld f (s.mb f).held s).flushLost f

/-- A FaultNotice for mailbox `f`: written, held, or dropped as the seventeenth (R96). -/
def State.notice (s : State) (f : Nat) (p : Bytes) : State :=
  if f < 4 && !(s.mb f).evt.en then s
  else if (s.mb f).held.length < 16 then
    (s.updMb f fun m => { m with held := m.held ++ [p] }).pump f
  else (s.dropEvent f 0xF003).updMb f fun m => { m with lostBefore := true }

/-- A system event, on every enabled event ring and the NMC mailbox (R54). -/
def State.raiseAll (s : State) (op : Nat) (p : Bytes) : State :=
  [0, 1, 2, 3, 4].foldl (fun s f => if f < 4 && !(s.mb f).evt.en then s else s.raiseOn f op 0 0 p) s

/-- A response written to the ring of mailbox `f`, or placed in the window (R33, R58): discarded where the response ring is
disabled or stopped, or was disabled after the command was taken (R754, R755). -/
def State.respond (s : State) (f op : Nat) (r : Req) (st : Status) (target : Nat) (p : Bytes) : State :=
  let m := s.mb f
  let e : Slot := { opcode := op, flags := (r.flags &&& 3#8).toNat, seq := m.rsp.seq.toNat, target := target,
                    status := st.code, tag := r.tag.toNat, payload := p }
  if f < 4 then
    if 0 < m.drop then s.setMb f { m with drop := m.drop - 1 }
    else if m.rsp.en && !m.rsp.err then
      ((s.setMb f { m with rsp := m.rsp.push }).emit (.slot f 1 m.rsp.tail e)).msix f 0
    else s
  else
    let s := s.setMb f { m with rsp := { m.rsp with seq := m.rsp.seq + 1 } }
    { s with nmc := { s.nmc with window := e.bytes (ringNo 4 1), wstate := .response, attn := true } }

/-! ### Handles (R71 to R81) -/

/-- The table key of index `i` of type `ty`. -/
def okey (ty i : Nat) : Nat := ty * 2 ^ 20 + i

/-- The type of a key. -/
def ktype (k : Nat) : Nat := k / 2 ^ 20

/-- The index of a key. -/
def kidx (k : Nat) : Nat := k % 2 ^ 20

/-- The quota of a type (Table 3.2). -/
def quota : Nat → Nat
  | 0x01 => 4096 | 0x02 => 16384 | 0x03 => 8192 | 0x04 => 512 | 0x05 => 1024 | 0x06 => 16
  | 0x07 => 64 | 0x08 => 32784 | 0x09 => 576 | 0x0A => 7 | 0x0B => 1 | 0x0C => 4096 | 0x0D => 1024
  | _ => 0

/-- The current generation of a key (R76). -/
def State.gen (s : State) (k : Nat) : Nat := tget 1 s.gens k

/-- The generation after a destroy: 127 wraps to 1 (R77). -/
def nextGen (g : Nat) : Nat := if g = 127 then 1 else g + 1

/-- The generation before one. -/
def prevGen (g : Nat) : Nat := if g = 1 then 127 else g - 1

/-- The generation of a key moved on. -/
def State.bumpGen (s : State) (k : Nat) : State := { s with gens := tset s.gens k (nextGen (s.gen k)) }

/-- The object of a key, where one lives. -/
def State.obj (s : State) (k : Nat) : Option Obj := tget? s.objs k

/-- The generation under which the object of a key was created: its index has moved on where its destroy has completed (R77). -/
def State.ownGen (s : State) (k : Nat) : Nat :=
  match s.obj k with
  | some o => if o.dying then prevGen (s.gen k) else s.gen k
  | none => s.gen k

/-- The handle of the object of a key (Table 3.1), as events name it until its destroy takes effect (R793); where none lives,
that of the index's current generation. -/
def State.handle (s : State) (k : Nat) : Nat := ktype k * 2 ^ 27 + s.ownGen k * 2 ^ 20 + kidx k

/-- The object a handle was given for still lives (R793). -/
def State.named (s : State) (h : Nat) : Bool :=
  (match s.obj (okey (h / 2 ^ 27) (h % 2 ^ 20)) with | some o => !o.unborn | none => false) && s.handle (okey (h / 2 ^ 27) (h % 2 ^ 20)) == h

/-- A live object of a key that its handle names. -/
def State.objLive (s : State) (k : Nat) : Bool :=
  match s.obj k with
  | some o => !o.dying && !o.unborn
  | none => false

/-- An ACTIVE object. -/
def State.isActive (s : State) (k : Nat) : Bool :=
  match s.obj k with
  | some o => o.active
  | none => false

/-- An object whose media flows. -/
def State.flows (s : State) (k : Nat) : Bool :=
  match s.obj k with
  | some o => o.flow
  | none => false

/-- The checks of Table 3.3 on a handle the opcode needs, of one of the types `tys`: its key, or the status. -/
def State.checkHandle (s : State) (h : Nat) (tys : List Nat) : Except Status Nat :=
  let ty := h / 2 ^ 27
  let g := h / 2 ^ 20 % 128
  let i := h % 2 ^ 20
  if h = 0 then .error .noSuchObject
  else if !tys.contains ty then .error .noSuchObject
  else if g = 0 || decide (quota ty ≤ i) then .error .noSuchObject
  else if g ≠ s.gen (okey ty i) then .error .staleHandle
  else if !s.objLive (okey ty i) then .error .noSuchObject
  else .ok (okey ty i)

/-- The lowest free index of a range of a type, at most `n` of them from `lo` (R74). -/
def State.lowestFree (s : State) (ty : Nat) : Nat → Nat → Option Nat
  | _, 0 => none
  | lo, n + 1 => if thas s.objs (okey ty lo) then State.lowestFree s ty (lo + 1) n else some lo

/-! ### Scheduled changes -/

/-- The time before which a boundary does not count: that of a change of a critical object (R655), and a frame boundary, line frame or
multiframe must begin after the completion (R125, R795). -/
def State.notBefore (s : State) (b : Boundary) : Nat :=
  match b with
  | .frame _ | .line | .cas _ => max (s.trio.effectAt.getD 0) (s.now + 1)
  | _ => s.trio.effectAt.getD 0

/-- A change put among those that wait for a boundary. -/
def State.addSched (s : State) (b : Boundary) (o : Origin) (a : Act) : State :=
  { s with sched := s.sched ++ [({ at_ := b, org := o, act := a, from_ := s.notBefore b } : Sched)] }

/-- A change waiting for its boundary (R47). -/
def State.schedule (s : State) (b : Boundary) (o : Origin) (a : Act) : State :=
  if 5 ≤ o.mbx then s.addSched b o a
  else (s.addSched b o a).updMb o.mbx fun m => { m with outstanding := m.outstanding + 1 }

/-- A change without a command behind it. -/
def noOrigin : Origin := { mbx := 5, tag := 0, handle := 0, event := false }

/-- A change has taken effect: Applied where EFFECT_EVENT asks for it (R47), and the fence count falls (R48). -/
def State.applied (s : State) (o : Origin) : State :=
  let s := s.updMb o.mbx fun m => { m with outstanding := m.outstanding - 1 }
  if o.event then s.raiseOn o.mbx 0xF002 o.handle o.tag.toNat [] else s

/-- Changes that an update has brought in force: their Applied, and the fence counts (R47, R48). -/
def State.inForce (s : State) (b : Boundary) : State :=
  (s.sched.filter fun e => e.at_ == b).foldl (fun s e => if e.org.mbx < 5 then s.applied e.org else s)
    { s with sched := s.sched.filter fun e => e.at_ != b }

/-- An object's event, on its creator's mailbox (R54). No rule gives its Host tag: 0 (DESIGN CHOICE, log entry 123). -/
def State.raise (s : State) (k op : Nat) (p : Bytes) : State :=
  match s.obj k with
  | some o => s.raiseOn o.owner op (s.handle k) 0 p
  | none => s

/-- The mode changed: ModeChanged where both modes have open mailboxes (R717). -/
def State.toMode (s : State) (m : Mode) : State :=
  if s.sys.mode = m then s
  else
    let old := s.sys.mode
    let s := { s with sys := { s.sys with mode := m } }
    if old.isOpen && m.isOpen then s.raiseAll 0xF004 (le 1 m.code ++ le 1 old.code ++ le 2 0) else s

/-- A change of the mode of service; in SHED it is the remembered mode that changes (Table 24.2). -/
def State.toRole (s : State) (m : Mode) : State :=
  if s.sys.mode = .shed then { s with sys := { s.sys with remembered := some m } } else s.toMode m

/-! ### BLP frames sent (R492, R638) -/

/-- A link key set with nothing loaded. -/
def LinkKey.init : LinkKey := { phase0 := none, phase1 := none, active := 0, counter := [], warned := [], share := 0 }

/-- The link key of a link and direction (0 receive, 1 send). -/
def State.linkKey (s : State) (l d : Nat) : LinkKey := tget LinkKey.init s.onyx.links (2 * l + d)

/-- A loaded phase. -/
def LinkKey.phase (k : LinkKey) (p : Nat) : Option Bytes := if p = 0 then k.phase0 else k.phase1

/-- A link key replaced. -/
def State.setLinkKey (s : State) (l d : Nat) (k : LinkKey) : State :=
  s.updOnyx fun o => { o with links := tset o.links (2 * l + d) k }

/-- The payload of KeyWarning and KeyExhausted for a link counter (Table 15.14). -/
def linkCounterEvent (l d cls value block : Nat) : Bytes :=
  le 1 3 ++ le 1 l ++ le 1 (d + 1) ++ le 1 cls ++ le 4 0 ++ le 8 value ++ le 8 block

/-- A link counter that has reached its warning value or its limit: KeyWarning and KeyExhausted, each once (R491). The
events have no context, so they are system events. -/
def State.linkCount (s : State) (l d cls ph n : Nat) : State :=
  let k := s.linkKey l d
  if 2 ^ 62 ≤ n && !tget false k.warned (cls * 2 + ph) then
    (s.setLinkKey l d { k with warned := tset k.warned (cls * 2 + ph) true }).raiseAll 0xFC00 (linkCounterEvent l d cls n s.block)
  else s

/-- The nonce of a link context: salt, class, counter (R492). -/
def linkNonce (key : Bytes) (cls n : Nat) : Bytes := (key.drop 32).take 3 ++ le 1 cls ++ be 8 n

/-- The descriptor of the Onyx item of a frame of a link, direction (0 receive, 1 send) and class (Table 15.7, R495). -/
def linkDesc (l dir cls : Nat) : Bytes := descriptor 6 13 (linkFlow l dir cls) 0 0xFFFF 0 0 []

/-- The shares of a link context refreshed for a frame (R498). -/
def State.linkShares (s : State) (core l d : Nat) : State :=
  s.refresh512 core fun n o => { o with links := tupd o.links (2 * l + d) fun k => { k with share := n } }

/-- A frame protected under the send context of its link and class (R492, R493, Table 20.6): none without a key, and none once the
counter has reached its limit. -/
def State.sealLink (s : State) (l cls kind src dst hops block : Nat) (payload : Bytes) : State × Option Bytes :=
  let k := s.linkKey l 1
  match k.phase k.active with
  | none => (s, none)
  | some key =>
    let i := cls * 2 + k.active
    let n := tget 0 k.counter i
    if 2 ^ 63 ≤ n then (s, none)
    else
      let head := be 2 0xB17A ++ le 1 (16 + 8 * k.active + cls) ++ le 1 kind ++ le 1 src ++ le 1 dst ++ le 1 hops ++ le 1 0 ++
        be 8 n ++ be 8 block ++ be 2 payload.length ++ le 6 0
      let s := (s.setLinkKey l 1 { k with counter := tset k.counter i (n + 1) }).linkCount l 1 cls k.active (n + 1)
      let s := if n + 1 = 2 ^ 63 then s.raiseAll 0xFC01 (linkCounterEvent l 1 cls (n + 1) s.block) else s
      (s, some (head ++ gcmSeal (key.take 32) (linkNonce key cls n) head payload))

/-- A protected frame put on its link, and the codewords that carry it on the lanes (R637). -/
def State.emitLink (s : State) (l kind : Nat) (f : Bytes) : State :=
  let (a, s) := s.draw
  let (b, s) := s.draw
  s.emits [.blp l kind f, .lanes l (frameLines a b f)]

/-- The queue of a link, direction and class (Table 13.2). -/
def linkQueue (l : Nat) (out : Bool) (cls : Nat) : Nat := 0xB200 + 16 * l + (if out then 0 else 8) + cls

/-- What an item does for a link and direction. -/
def Job.onLink (j : Job) (l : Nat) (out : Bool) : Bool :=
  match j with
  | .linkOut x _ _ _ _ _ _ => out && x == l
  | .linkIn x _ _ => !out && x == l
  | _ => false

/-- A frame of a link and direction is with Onyx. -/
def State.linkBusy (s : State) (l : Nat) (out : Bool) : Bool :=
  (s.work.items.any fun i => i.job.onLink l out && match i.st with | .ended _ _ => false | _ => true) ||
  (s.work.waiting 1 6).any fun x => x.job.onLink l out

/-- What a link queue holds. -/
def State.inLinkQueue (s : State) (l : Nat) (out : Bool) (cls : Nat) : List (Job × Bytes) := tget [] s.cascade.queues (linkQueue l out cls)

/-- A link queue's content set. -/
def State.setLinkQueue (s : State) (l : Nat) (out : Bool) (cls : Nat) (x : List (Job × Bytes)) : State :=
  let q := linkQueue l out cls
  let t := s.cascade.queues
  { s with cascade := { s.cascade with queues := if x.isEmpty then tdel t q else tset t q x } }

/-- The fill bytes of a frame in a link queue: record header, frame and padding (R432); `d` is what is kept of a frame to be sent, its
payload, or a frame received. -/
def linkSize (out : Bool) (d : Bytes) : Nat := 24 + 8 * ceilDiv (if out then 32 + d.length else d.length) 8

/-- The fill of a link queue. -/
def State.linkFill (s : State) (l : Nat) (out : Bool) (cls : Nat) : Nat := ((s.inLinkQueue l out cls).map fun e => linkSize out e.2).sum

/-- Some counts of a link queue raised by (offset, amount) pairs, and its high water (Table 13.13). -/
def State.linkNote (s : State) (l : Nat) (out : Bool) (cls : Nat) (adds : List (Nat × Nat)) (high : Nat) : State :=
  let q := linkQueue l out cls
  let t := adds.foldl (fun t e => tset t e.1 (tget 0 t e.1 + e.2)) (tget [] s.cascade.linkStats q)
  { s with cascade := { s.cascade with linkStats := tset s.cascade.linkStats q (tset t 36 (max (tget 0 t 36) high)) } }

/-- A frame of `n` fill bytes that passes its link queue at once counted: written and read. -/
def State.linkThrough (s : State) (l : Nat) (out : Bool) (cls n : Nat) : State :=
  s.linkNote l out cls [(0, 1), (16, n), (8, 1), (24, n)] n

/-- The next frame of a link's queues given to Onyx once the one before it has left: class 7 first (R638). -/
def State.serveLink (s : State) (l : Nat) (out : Bool) : State :=
  if s.linkBusy l out then s
  else
    match [7, 6, 5, 4, 3, 2, 1, 0].find? fun c => !(s.inLinkQueue l out c).isEmpty with
    | none => s
    | some c =>
      match s.inLinkQueue l out c with
      | [] => s
      | x :: r => ((s.setLinkQueue l out c r).linkNote l out c [(8, 1), (24, linkSize out x.2)] 0).submit 1 { desc := linkDesc l (if out then 1 else 0) c, data := x.2, job := x.1 }

/-- A frame put in its link queue. -/
def State.queueLink (s : State) (l : Nat) (out : Bool) (cls : Nat) (j : Job) (d : Bytes) : State :=
  let s := s.setLinkQueue l out cls (s.inLinkQueue l out cls ++ [(j, d)])
  (s.linkNote l out cls [(0, 1), (16, linkSize out d)] (s.linkFill l out cls)).serveLink l out

/-- The Onyx core that a frame of a link may pass at once: none while one before it waits or is on its way (R638). -/
def State.linkCore (s : State) (l : Nat) (out : Bool) (cls : Nat) : Option Nat :=
  if s.linkBusy l out || ((List.range 8).any fun c => !(s.inLinkQueue l out c).isEmpty) then none
  else s.coreFor (linkDesc l (if out then 1 else 0) cls)

/-- A BLP frame sent on a link (R492, R493, R495, R638): it passes Onyx at once where a core can take it, and waits in its link queue
where none can (log entry 103). A link engine that is being reset sends none. -/
def State.blpSend (s : State) (l cls kind src dst hops block : Nat) (payload : Bytes) : State :=
  let k := s.linkKey l 1
  let x := linkDesc l 1 cls
  if (k.phase k.active).isNone || s.unitDown 0x0C l then s
  else
    match s.linkCore l true cls with
    | none => s.queueLink l true cls (.linkOut l cls kind src dst hops block) payload
    | some c =>
      match (((s.linkThrough l true cls (linkSize true payload)).passOnyx 1 x).linkShares c l 1).sealLink l cls kind src dst hops block payload with
      | (s, some f) => s.emitLink l kind f
      | (s, none) => s

/-- The link a route from position `p` to position `q` leaves on, of `n` devices (R631). -/
def routeLink (topo n p q : Nat) : Nat :=
  if topo = 3 then (if p % 2 ≠ q % 2 then 0 else if p / 2 % 2 ≠ q / 2 % 2 then 1 else 2)
  else if (q + n - p) % n ≤ (p + n - q) % n then 0 else 1

/-- The hops a frame may take to any device. -/
def maxHops : Nat := 7

/-! ### The critical set of a trio (R653 to R655) -/

/-- The mode, or in SHED the mode it will return to. -/
def State.role (s : State) : Mode := if s.sys.mode = .shed then s.sys.remembered.getD .shed else s.sys.mode

/-- The object of a key is in the critical set. -/
def State.critical (s : State) (key : Nat) : Bool := s.trio.entries.any fun e => e.2.key == key

/-- The handles a change command names, in the order they are checked. -/
def namedHandles (op : Nat) (p : Bytes) (target : Nat) : List Nat :=
  if op = 0x0300 then (List.range (u16 p 0)).flatMap fun i => [u32 p (4 + 12 * i), u32 p (8 + 12 * i)]
  else if op = 0x0302 then [u32 p 0, u32 p 4]
  else if op = 0x0309 then (List.range (u8 p 1)).map fun i => u32 p (4 + 4 * i)
  else if [0x0202, 0x0203, 0x0204, 0x0205, 0x0206, 0x0207, 0x0208, 0x0D02, 0x0D03, 0x0D04, 0x0402, 0x0403, 0x0404, 0x0405,
    0x0420, 0x0421, 0x0501, 0x0502, 0x0503, 0x0504, 0x0505, 0x0601, 0x0602, 0x0603, 0x0604].contains op then [target]
  else []

/-- The critical-set entry a handle names. -/
def State.critEntry (s : State) (h : Nat) : Option Nat :=
  (s.trio.entries.find? fun e => s.handle e.2.key == h).map (·.1)

/-- The first critical-set entry among some handles, while a trio stands. -/
def State.critOf (s : State) (hs : List Nat) : Option Nat := if s.trio.id = 0 then none else hs.findSome? s.critEntry

/-! ### Admission (R111 to R117) -/

/-- The key of a budget instance. -/
def bkey (code inst : Nat) : Nat := code * 2 ^ 32 + inst

/-- An amount added to a cost, the key listed once. -/
def addCost (c : Costs) (k n : Nat) : Costs := if n = 0 then c else tset c k (tget 0 c k + n)

/-- A cost from its parts: code, instance, amount. -/
def costOf (l : List (Nat × Nat × Nat)) : Costs := l.foldl (fun c e => addCost c (bkey e.1 e.2.1) e.2.2) []

/-- Two costs added. -/
def plusCost (a b : Costs) : Costs := b.foldl (fun c e => addCost c e.1 e.2) a

/-- What `a` has above `b`, per budget. -/
def overCost (a b : Costs) : Costs :=
  (a.map fun e => (e.1, e.2 - tget 0 b e.1)).filter fun e => e.2 != 0

/-- An amount taken off a cost, where it is there. -/
def minusCost (a b : Costs) : Costs :=
  (a.map fun e => (e.1, e.2 - tget 0 b e.1)).filter fun e => e.2 != 0

/-! ### The frame of a JCI command (R40, R45, R47) -/

/-- What a command's own part answers. -/
inductive Eff where
  /-- it completes with OK and has its effect at once: its payload, the handle its response carries, the state -/
  | done (p : Bytes) (target : Nat) (s : State)
  /-- it completes with OK and its change waits for a boundary (R47) -/
  | later (p : Bytes) (target : Nat) (s : State)
  /-- a check fails: the command has no effect (R40) -/
  | fail (st : Status) (p : Bytes)
  /-- a payload field names no unit of its command (R799): found at step 8, with the handles -/
  | noUnit
  /-- a check fails and is counted -/
  | refuse (st : Status) (p : Bytes) (s : State)
  /-- it has started and its response follows later (R797, R798) -/
  | wait (w : Wait) (resp : Bytes) (s : State)

/-- A check: the status where it fails, the rest where it holds. -/
def need (b : Bool) (st : Status) (k : Eff) : Eff := if b then k else .fail st []

/-- The check of a payload field that names the unit a command acts on (R799). -/
def needUnit (b : Bool) (k : Eff) : Eff := if b then k else .noUnit

/-- The check of a handle the opcode needs (Table 3.3). -/
def State.withHandle (s : State) (h : Nat) (tys : List Nat) (k : Nat → Eff) : Eff :=
  match s.checkHandle h tys with
  | .error st => .fail st []
  | .ok key => k key

/-- The check of a handle field that may be null: `none` for the null handle. -/
def State.withHandle0 (s : State) (h : Nat) (tys : List Nat) (k : Option Nat → Eff) : Eff :=
  if h = 0 then k none else s.withHandle h tys fun key => k (some key)

/-- The check of a target that must be null (step 1 of Table 3.3). -/
def nullTarget (r : Req) (k : Eff) : Eff := need (r.target == 0) .invalidArg k

/-- A command that writes host memory: its response follows the readback (R798); with nothing written there is none. -/
def writeThen (target addr : Nat) (data resp : Bytes) (s : State) : Eff :=
  if data.isEmpty then .done resp target s else .wait .write resp (s.emit (.hostWrite addr data))

/-- A DMA write of host memory; `bad` are the offsets of its poisoned words (R680). -/
def dmaWrite (addr : Nat) (data : Bytes) (bad : List Nat) : Out := if bad.isEmpty then .hostWrite addr data else .hostPoison addr data bad

/-- A command that reads host memory waits for its data (R797); of length 0 it reads none. -/
def readThen (len : Nat) (own : State → Eff) (s : State) : Eff := if len = 0 then own s else .wait .read [] s

/-- A free response slot that no taken command has claimed (R34). -/
def Mailbox.rspRoom (m : Mailbox) : Bool :=
  m.rsp.en && !m.rsp.err && decide (m.taken.length + (if m.flight.isSome then 1 else 0) - m.drop < m.rsp.free)

/-- A command of mailbox `f` may be taken now (R32, R34, R59, R755). -/
def State.canTake (s : State) (f : Nat) : Bool :=
  let m := s.mb f
  if f < 4 then m.cmd.en && !m.cmd.err && m.rspRoom
  else s.nmc.wstate == .idle && s.nmc.queue.isEmpty

/-- A command counted as taken, its sequence passed (R41). -/
def State.countTaken (s : State) (f : Nat) : State :=
  s.updMb f fun m => { m with nTaken := m.nTaken + 1, cmd := { m.cmd with seq := m.cmd.seq + 1 } }

/-- The number of the command mailbox `f` starts next, counted from 1. -/
def State.nextNo (s : State) (f : Nat) : Nat := (s.mb f).nTaken + 1 - (s.mb f).taken.length

/-- The command mailbox `f` starts next was taken after the oldest fence that stands, and what of `p` holds of that fence. -/
def State.behindFence (s : State) (f : Nat) (p : Fence → Bool) : Bool :=
  match s.sys.marks with
  | x :: _ => p x && decide (tget 0 x.upTo f < s.nextNo f)
  | [] => false

/-- The command mailbox `f` starts next is aborted: it was taken after a SystemReset or MediaRestart that has begun, or a restart
of the media plane is in progress (R67, R739). -/
def State.aborting (s : State) (f : Nat) : Bool := s.sys.restart.isSome || s.behindFence f (·.begun)

/-- The command mailbox `f` starts next waits: it was taken after a MediaRestart that has not been started, so that whether that
one acts as a fence is not decided yet (R67). -/
def State.undecided (s : State) (f : Nat) : Bool := s.sys.restart.isNone && s.behindFence f fun x => !x.begun && x.mbx != f

/-- Only some of the fences stand; with none the count of what was aborted for them starts again. -/
def State.keepFences (s : State) (p : Fence → Bool) : State :=
  let l := s.sys.marks.filter p
  { s with sys := { s.sys with marks := l, aborts := if l.isEmpty then 0 else s.sys.aborts } }

/-- A command that waits for the others to drain. -/
def Mailbox.draining (m : Mailbox) : Bool := match m.flight with | some x => x.wait == .drain | none => false

/-- The responses of taken commands that failed steps 1 to 6, written as they come to the front (R45). -/
def State.flushBad (f : Nat) : List Taken → State → State
  | .bad op r st p :: rest, s => State.flushBad f rest ((s.updMb f fun m => { m with taken := rest }).respond f op r st r.tgt p)
  | _, s => s

/-- They are written where no command of the mailbox is in flight. -/
def State.settleTaken (s : State) (f : Nat) : State :=
  if (s.mb f).flight.isNone then State.flushBad f (s.mb f).taken s else s

/-- The start of a command on its mailbox: the state in which it runs, or `none` where it is not its turn (R45).
A command at the front of the taken ones is started; where none is taken and none is in flight, the command is
taken and started in one step (DESIGN CHOICE, log entry 2). -/
def State.start (s : State) (op : Nat) (r : Req) : Option State :=
  let m := s.mb r.mbx
  if !(decide (r.mbx < 5) && s.sys.mode.isOpen && m.flight.isNone) || s.undecided r.mbx then none
  else
    match m.taken with
    | c :: rest => if c = .run op r then some (s.setMb r.mbx { m with taken := rest }) else none
    | [] =>
      if s.canTake r.mbx then
        let s := s.countTaken r.mbx
        some (if r.mbx < 4 then s else { s with nmc := { s.nmc with wstate := .busy } })
      else none

/-- A command in flight until what it waits for ends. -/
def State.fly (s : State) (op : Nat) (r : Req) (w : Wait) (resp : Bytes) : State :=
  s.updMb r.mbx fun m => { m with flight := some { op := op, req := r, resp := resp, wait := w } }

/-- The answer of a command's own part written as its response. With EFFECT_EVENT, a command that completes with OK and changes
nothing at a boundary (Echo and the Get commands among them) raises Applied as it completes (DESIGN CHOICE, log entry 92). -/
def State.finish (s : State) (op : Nat) (r : Req) (e : Eff) : State :=
  match e with
  | .done p target s' =>
    let s' := s'.respond r.mbx op r .ok target p
    if r.effect then s'.raiseOn r.mbx 0xF002 target r.tag.toNat [] else s'
  | .later p target s' => s'.respond r.mbx op r .ok target p
  | .fail st p => s.respond r.mbx op r st r.tgt p
  | .noUnit => s.respond r.mbx op r .invalidArg r.tgt []
  | .refuse st p s' => s'.respond r.mbx op r st r.tgt p
  | .wait w resp s' => s'.fly op r w resp

/-! The frame grid of compositions (R387), in root cycles of 1/6 ns. -/

/-- The frame period in root cycles (R387), 0 where the rate is none. -/
def periodOf (p : Bytes) : Nat := 6000000000 * u16 p 8 / u32 p 4
/-- The frame period of a composition. -/
def Comp.period (c : Comp) : Nat := periodOf c.cfg
/-- The phase in root cycles. -/
def Comp.phase (c : Comp) : Nat := u32 c.cfg 12

/-- Frame boundary `n` in root cycles. -/
def Comp.boundary (c : Comp) (n : Nat) : Nat := c.phase + n * c.period

/-- The first frame boundary at or after a time in ns. -/
def Comp.frameFrom (c : Comp) (t : Nat) : Nat := ceilDiv (6 * t - c.phase) c.period

/-- The block at which a change of a critical object takes effect: that of the first change it has scheduled; for a frame
boundary, the block it lies in. -/
def State.effectBlock (s : State) (before : Nat) : Nat :=
  ((s.sched.drop before).findSome? fun e =>
    match e.at_ with
    | .block b => some b
    | .frame i => (tget? s.video.comps i).map fun c => c.boundary (c.frameFrom (max s.now e.from_)) / 6 / blockNs
    | _ => none).getD s.nextBlock

/-- A BLP frame sent to the other devices of the trio. -/
def State.toOthers (s : State) (cls kind : Nat) (p : Bytes) : State :=
  (s.trio.addrs.zipIdx.filter fun e => e.2 != s.trio.pos && s.trio.present.contains e.1).foldl (fun s e =>
    s.blpSend (routeLink 1 3 s.trio.pos e.2) cls kind s.nmc.addr e.1 maxHops s.block p) s

/-- The DELTA of an accepted change sent to the other devices of the trio (R655, Table 21.1). -/
def State.sendDelta (s : State) (entry op block : Nat) (p : Bytes) : State :=
  s.toOthers 6 9 (be 8 block ++ be 2 entry ++ be 2 op ++ p)

/-- This device leads the trio and holds the lease (R667). -/
def State.leads (s : State) : Bool :=
  s.trio.leader == s.nmc.addr && !s.trio.stopped && (match s.trio.lease with | some b => decide (s.block ≤ b) | none => false)

/-- An object may send: a critical one only under the lease (R667). -/
def State.mayTransmit (s : State) (key : Nat) : Bool := s.trio.id == 0 || !s.critical key || s.leads

/-- This device follows in a trio. -/
def State.following (s : State) : Bool := s.trio.id != 0 && s.trio.leader != s.nmc.addr

/-- The ACTIVE critical-set entry of an object. -/
def State.activeEntry (s : State) (key : Nat) : Option Nat :=
  if s.trio.id = 0 then none else (s.trio.entries.find? fun e => e.2.key == key && e.2.active).map (·.1)

/-- The leader mirrors an accepted packet (kind 1) or a key-frame request (kind 2) of an ACTIVE object (R656, R657). -/
def State.mirror (s : State) (key kind block pos pic : Nat) (d : Bytes) : State :=
  match s.activeEntry key with
  | none => s
  | some e =>
    if s.trio.leader = s.nmc.addr then s.toOthers 5 8 (be 2 e ++ be 1 kind ++ be 1 0 ++ be 8 block ++ be 4 pos ++ be 4 pic ++ d) else s

/-- No change of a critical object is being made any more. -/
def State.clearEffect (s : State) : State := { s with trio := { s.trio with effectAt := none } }

/-- The first block that later commands of a ring may take moved on to that of a change of a critical object (R146). -/
def State.raiseFloor (s : State) (f before : Nat) : State :=
  match (s.sched.drop before).findSome? fun e => match e.at_ with | .block b => some b | _ => none with
  | some b => { s with matrix := { s.matrix with floor := tset s.matrix.floor f (max b (tget 0 s.matrix.floor f)) } }
  | none => s

/-- A command's own part run and answered. One that names a critical object completes with LEASE_HELD on a follower once
its handles and the units it names are good (R799), and on the leader takes effect at least 4 ms later and is sent on as a DELTA (R655). -/
def State.judge (s : State) (op : Nat) (r : Req) (names : List Nat) (own : State → Eff) : State :=
  match s.critOf names with
  | none => s.finish op r (own s)
  | some entry =>
    if s.role = .trioFollower then
      match own s with
      | .fail .staleHandle p => s.finish op r (.fail .staleHandle p)
      | .fail .noSuchObject p => s.finish op r (.fail .noSuchObject p)
      | .fail .badLength p => s.finish op r (.fail .badLength p)
      | .noUnit => s.finish op r .noUnit
      | _ => s.finish op r (.fail .leaseHeld [])
    else
      let s1 := { s with trio := { s.trio with effectAt := some (s.now + 4000000) } }
      let send (s2 : State) : State := ((s2.sendDelta entry op (s2.effectBlock s.sched.length) r.payload).clearEffect).raiseFloor r.mbx s.sched.length
      match own s1 with
      | .done p t s2 => s.finish op r (.done p t (send s2))
      | .later p t s2 => s.finish op r (.later p t (send s2))
      | .wait w p s2 => s.finish op r (.wait w p s2.clearEffect)
      | .fail st p => s.finish op r (.fail st p)
      | .noUnit => s.finish op r .noUnit
      | .refuse st p s2 => s.finish op r (.refuse st p s2.clearEffect)

/-- Commands completed with ABORTED, counted for the FaultNotice of the restart they are aborted for (R93, Table 3.7). -/
def State.countAborts (s : State) (n : Nat) : State :=
  { s with sys :=
    match s.sys.restart with
    | some r => { s.sys with restart := some { r with aborted := r.aborted + n } }
    | none => if !s.sys.marks.isEmpty then { s.sys with aborts := s.sys.aborts + n } else s.sys }

/-- A JCI command: its turn (R45), FENCE (R48), the flags (step 5), the payload length (step 7), then its own part.
With FENCE set and an earlier change of its ring without its effect yet, the command is held. -/
def State.command (s : State) (op : Nat) (len : Nat → Bool) (r : Req) (own : State → Eff) : State :=
  match s.start op r with
  | none => s
  | some s' =>
    if s.aborting r.mbx then (s'.countAborts 1).finish op r (.fail .aborted [])
    else if r.flags.getLsbD 0 && decide (0 < (s'.mb r.mbx).outstanding) && decide (r.mbx < 4) then s'.fly op r .fence []
    else if 4 ≤ r.flags.toNat then s'.finish op r (.fail .invalidArg [])
    else s'.judge op r (namedHandles op r.payload r.tgt) fun s => need (len r.payload.length) .badLength (own s)

/-- The NO_BUDGET payload of Table 4.8. -/
def noBudget (code addr inst required available : Nat) : Bytes :=
  le 2 code ++ le 1 addr ++ le 1 0 ++ le 4 inst ++ le 4 required ++ le 4 available

end Sys2Proof.Machine
end

