-- ==== Sys2Proof/Machine/Budget.lean ====
section
/-!
DEFINITION. The admission account (R111 to R118): the ceiling of each budget instance, admission and release.
-/

namespace Sys2Proof.Machine

/-- The ports a configuration of NetGroupSet gives, and their rate in kbit/s (Table 1.4). -/
def netConfig : Nat → Nat × Nat
  | 1 => (1, 400000000) | 2 => (2, 200000000) | 3 => (4, 100000000) | 4 => (8, 50000000)
  | 5 => (8, 25000000) | 6 => (8, 10000000) | _ => (0, 0)

/-- The payload rate of a VCAT member in kbit/s (Table 19.5). -/
def memberRate : Nat → Nat
  | 1 => 2176 | 2 => 48384 | 3 => 149760 | _ => 0

/-- The payload rate of a group in kbit/s. -/
def Vcat.rate (g : Vcat) : Nat := g.members.length * memberRate g.ty

/-- The VCAT groups whose home lane is `l`, by index (R619). -/
def State.homeGroups (s : State) (l : Nat) : List (Nat × Vcat) := s.framer.groups.filter fun e => e.2.home == l

/-- The Ethernet rate in kbit/s of a line lane: its own in a mode of 10GbE or 25GbE, the payload rate of the ACTIVE group
on a home lane, otherwise 0 (R619, R794). -/
def State.laneRate (s : State) (l : Nat) : Nat :=
  match tget? s.framer.lanes l with
  | some x => if x.mode = 5 then 10000000 else if x.mode = 6 then 25000000 else homeRate
  | none => homeRate
where homeRate : Nat :=
  match (s.homeGroups l).find? fun e => s.isActive (okey 9 (504 + e.1)) with
  | some e => e.2.rate
  | none => 0

/-- A line lane that runs Ethernet: a lane of 10GbE or 25GbE, or a home lane (R619). -/
def State.laneEth (s : State) (l : Nat) : Bool :=
  (match tget? s.framer.lanes l with | some x => x.mode == 5 || x.mode == 6 | none => false) || !(s.homeGroups l).isEmpty

/-- The rate of an Ethernet port in kbit/s: 0 for a number that is none (Table 13.9). -/
def State.portRate (s : State) (p : Nat) : Nat :=
  if p < (netConfig s.net.config).1 then (netConfig s.net.config).2
  else if 24 ≤ p ∧ p < 32 then s.laneRate p else 0

/-- A port number of the configuration, or a lane that runs Ethernet (R799). -/
def State.portOk (s : State) (p : Nat) : Bool :=
  decide (p < (netConfig s.net.config).1) || (decide (24 ≤ p) && decide (p < 32) && s.laneEth p)

/-- A port at its reset settings (R450). -/
def Port.init : Port where
  en := false
  pfc := false
  quanta := 0
  mac := List.replicate 6 0
  hostFn := 0
  maxFrame := 1518
  overhead := 20
  hostClass := 1
  up := false
  linkBlock := 0
  paused := []
  parked := []
  stats := []

/-- An Ethernet port. -/
def State.port (s : State) (p : Nat) : Port := tget Port.init s.net.ports p

/-- The keys of the live legs carried on a port. -/
def State.carried (s : State) (p : Nat) : List Nat :=
  ((s.audio.legs.filter fun e => u8 e.2.cfg 0 == 1 && u8 e.2.cfg 32 == p).map fun e => okey 2 e.1) ++
  ((s.video.legs.filter fun e => u8 e.2.cfg 16 == p).map fun e => okey 3 e.1)

/-- The instances of a kind that are out of service: draining, disabled or retired (R273). -/
def State.outOf (s : State) (kind : Nat) : Nat :=
  (s.work.insts.filter fun e => e.1 / 2 ^ 16 == kind && e.2.st != .enabled).length

/-- The scaled ceiling of Table 4.6: a ceiling at 250 W times the factor of the power class, rounded down (R112). -/
def State.scaled (s : State) (n : Nat) : Nat :=
  if s.pwr.cls = 3 then n else if s.pwr.cls = 2 then n * 62 / 100 else n * 25 / 100

/-- A ceiling reduced by the instances of its kind that are out of service, then scaled (R273). -/
def State.engineCeiling (s : State) (kind share : Nat) : Nat := s.scaled ((kindCount kind - s.outOf kind) * share)

/-- The ceiling of a budget instance (Tables 4.5, 4.6 and 8.8, R112, R273, R794). -/
def State.ceiling (s : State) (code inst : Nat) : Nat :=
  match code with
  | 0x0001 => s.engineCeiling 1 64
  | 0x0002 => s.scaled 65536
  | 0x0003 => s.engineCeiling 4 480000
  | 0x0004 => s.engineCeiling 3 576000
  | 0x0005 => s.engineCeiling 5 576000
  | 0x0006 => s.engineCeiling 6 96000000
  | 0x0007 => s.scaled 144000000
  | 0x0008 => s.scaled 144000000
  | 0x0009 => 602112000
  | 0x000A => if Config.fitting.two then 245862400 else 280985600
  | 0x000B => 96 * s.portRate inst / 100
  | 0x000C => 2097152
  | 0x000D => s.mem.spill * 2 ^ 18
  | 0x000E => 12582912
  | 0x000F => if s.cascade.id = 0 then 0 else min 216000000 (s.cascade.reserve.getD (inst / 2) 0)
  | _ => 0

/-- What is left of a budget instance; 0 when the used amount is at or above the ceiling (Table 4.8). -/
def State.roomOf (s : State) (k : Nat) : Nat := s.ceiling (k / 2 ^ 32) (k % 2 ^ 32) - tget 0 s.used k

/-- The first increase that does not fit, in ascending code and instance (R115). -/
def State.firstOver (s : State) : Costs → Option (Nat × Nat)
  | [] => none
  | (k, n) :: r => if s.roomOf k < n then some (k, n) else s.firstOver r

/-- A cost reserved. -/
def State.reserve (s : State) (c : Costs) : State := { s with used := plusCost s.used c }

/-- A cost whose release waits for boundary `b` (R116, R119). -/
def State.releaseAt (s : State) (b : Boundary) (c : Costs) : State :=
  if c.isEmpty then s
  else { s.addSched b noOrigin (.release c) with awaiting := plusCost s.awaiting c }

/-- A cost released now. -/
def State.releaseNow (s : State) (c : Costs) : State := { s with used := minusCost s.used c }

/-- A cost released at its boundary. -/
def State.releaseDue (s : State) (c : Costs) : State :=
  { s with used := minusCost s.used c, awaiting := minusCost s.awaiting c }

/-- The NO_BUDGET payload for the increase `n` of budget key `k`. -/
def State.noBudgetFor (s : State) (k n : Nat) : Bytes := noBudget (k / 2 ^ 32) 0 (k % 2 ^ 32) n (s.roomOf k)

/-- Admission of a change from cost `old` to cost `new` (R115): the increases reserved, the rest told the
decreases, which it schedules at its boundary. -/
def State.admission (s : State) (new old : Costs) (k : State → Costs → Eff) : Eff :=
  match s.firstOver (overCost new old) with
  | some (b, n) => .fail .noBudget (s.noBudgetFor b n)
  | none => k (s.reserve (overCost new old)) (overCost old new)

end Sys2Proof.Machine
end

