-- ==== Sys2Proof/Machine/Gain.lean ====
section
/-!
DEFINITION. Exact gain arithmetic: the levels and gains of R150, the meter levels of R162 and the saturations of R134.
Every logarithm is decided by comparing integer powers, so no rounding enters.
-/

namespace Sys2Proof.Machine

/-- Clamp to a signed field of `bits` bits. -/
def satN (bits : Nat) (i : Int) : Int := clampI (-(2 ^ (bits - 1) : Nat)) ((2 ^ (bits - 1) : Nat) - 1) i

/-- sat24 of R134. -/
def sat24 (i : Int) : Int := satN 24 i

/-- sat48 of R134. -/
def sat48 (i : Int) : Int := satN 48 i

/-- The Q2.13 value of a gain (R133). -/
def gainInt (g : BitVec 16) : Int := g.toInt

/-- A sample through a Q2.13 gain with rounding and sat24 (R134, R165, Table 6.3). -/
def scale (x : Int) (g : Int) : Int := sat24 ((x * g + 4096) / 8192)

/-- The largest `n < 2^bits` that passes a test which holds up to some point: built bit by bit. -/
def largest (test : Nat → Bool) : Nat → Nat → Nat
  | 0, n => n
  | b + 1, n => if test (n + 2 ^ b) then largest test b (n + 2 ^ b) else largest test b n

/-- floor(`k` × log10(`a`/`b`)) + `off`, for a level that lies within `-off` and `2^bits - off`:
the largest n with a^k × 10^off ≥ b^k × 10^n. -/
def logFloor (k a b off bits : Nat) : Nat := largest (fun n => decide (b ^ k * 10 ^ n ≤ a ^ k * 10 ^ off)) bits 0

/-- level(g) of R150 in 0.1 dB: 200 log10(|g|/8192) rounded half away from zero; `a` is |g|, not 0.
Twice the level is compared, so that the half falls on an integer: n - 1000 for the largest n with
8192^400 × 10^(2n - 1) ≤ a^400 × 10^2000. A tie cannot arise. -/
def levelAbs (a : Nat) : Int :=
  let n := largest (fun n => decide (8192 ^ 400 * 10 ^ (2 * n) ≤ a ^ 400 * 10 ^ 2001)) 11 0
  (n : Int) - 1000

/-- |g| of a gain. -/
def gainAbs (g : BitVec 16) : Nat := (gainInt g).natAbs

/-- level(g) of R150. -/
def level (g : BitVec 16) : Int := levelAbs (gainAbs g)

/-- 8192 × 10^(L/200) rounded half away from zero, for L from -1000: the largest n whose half-below still lies
under it. -/
def gainOfLevel (L : Int) : Nat :=
  let e := (L + 1000).toNat
  largest (fun n => decide ((2 * n - 1) ^ 200 * 10 ^ 1000 ≤ 16384 ^ 200 * 10 ^ e)) 17 0

/-- gain(L, s) of R150. -/
def gainAt (L : Int) (neg : Bool) : BitVec 16 :=
  let a : Int := clampI 1 32767 (gainOfLevel L)
  BitVec.ofInt 16 (if neg then -a else a)

/-- The fade floor of R150. -/
def fadeFloor : Int := -600

/-- `L` moved toward `t` by at most `S`. -/
def moveBy (L t : Int) (S : Nat) : Int := if L < t then min t (L + S) else max t (L - S)

/-- The loop of R150: the gains written, one an apply block. `passing` is set until the floor has been reached on
the way to a sign change. -/
def fadeLoop (gt : BitVec 16) (S : Nat) (Lt : Int) : Nat → Int → Bool → Bool → List (BitVec 16)
  | 0, _, _, _ => [gt]
  | f + 1, L, neg, passing =>
    let L' := moveBy L (if passing then fadeFloor else Lt) S
    let turned := passing && L' == fadeFloor
    let neg := if turned then decide (gainInt gt < 0) else neg
    let passing := passing && !turned
    if L' == Lt && gt != 0 && !passing then [gt]
    else if L' == fadeFloor && gt == 0 then [gainAt L' neg, 0]
    else gainAt L' neg :: fadeLoop gt S Lt f L' neg passing

/-- The gains a fade from `gc` to `gt` in steps of `S` writes (R150), one an apply block. -/
def fadeGains (gc gt : BitVec 16) (S : Nat) : List (BitVec 16) :=
  if gc = gt then []
  else if (gt == 0 && gc != 0 && decide (level gc < fadeFloor)) || (gc == 0 && gt != 0 && decide (level gt < fadeFloor)) then [gt]
  else
    let neg := if gc = 0 then decide (gainInt gt < 0) else decide (gainInt gc < 0)
    let L := if gc = 0 then fadeFloor - S else level gc
    let Lt := if gt = 0 then fadeFloor else level gt
    let passing := gt != 0 && gc != 0 && (decide (gainInt gt < 0) != decide (gainInt gc < 0))
    fadeLoop gt S Lt 2000 L neg passing

/-- g_duck of R165 for an attenuation in 0.1 dB. -/
def duckGain (att : Nat) : Nat := gainOfLevel (-(att : Int))

/-- The peak level of R162 in 0.1 dB: 200 log10(peak/2^23) rounded toward minus infinity; -32768 for 0. -/
def peakLevel (p : Nat) : Int := if p = 0 then -32768 else (logFloor 200 p (2 ^ 23) 2048 12 : Int) - 2048

/-- The RMS level of R162 in 0.1 dB of the mean of `n` block mean squares whose sum is `sum` (R164): 100 log10(sum/(n × 2^46))
rounded toward minus infinity; -32768 for 0. -/
def rmsLevel (sum n : Nat) : Int := if sum = 0 then -32768 else (logFloor 100 sum (n * 2 ^ 46) 2048 12 : Int) - 2048

/-- The block peak level in 0.001 dB that peak hold works in (R163): rounded toward minus infinity as R162 rounds the reported
levels, and -3,276,800 for a peak of 0 (DESIGN CHOICE, log entry 96). -/
def peakMilli (p : Nat) : Int := if p = 0 then -3276800 else (logFloor 20000 p (2 ^ 23) 262144 19 : Int) - 262144

/-- The largest |x| of a block (R161). -/
def blockPeak (x : List Int) : Nat := x.foldl (fun m v => max m v.natAbs) 0

/-- floor(Σx²/96) (R161). -/
def blockMeanSquare (x : List Int) : Nat := x.foldl (fun m v => m + v.natAbs * v.natAbs) 0 / 96

end Sys2Proof.Machine
end

