-- ==== Sys2Proof/Machine/Matrix.lean ====
section
/-!
DEFINITION. The Beryl matrix mixer (R130 to R177, R796): node writes and their queue, fades, auto-mix, the mix,
meters and duck groups, and the matrix commands.
-/

namespace Sys2Proof.Machine

/-- The matrix changed. -/
def State.updMatrix (s : State) (f : Matrix → Matrix) : State := { s with matrix := f s.matrix }

/-- The audio leg of a key. -/
def State.leg (s : State) (key : Nat) : Option Leg := tget? s.audio.legs (kidx key)

/-- The matrix number of a leg's key. -/
def State.legM (s : State) (key : Nat) : Nat := match s.leg key with | some l => l.m | none => 0

/-- The audio leg of a key changed. -/
def State.updLeg (s : State) (key : Nat) (f : Leg → Leg) : State :=
  { s with audio := { s.audio with legs := tupd s.audio.legs (kidx key) f } }

/-- Node (i, o) (R131). -/
def node (i o : Nat) : Node := i * 16384 + o

/-- The tile of a node (R137). -/
def tileOf (n : Node) : Nat := n / 16384 / 64 * 256 + n % 16384 / 64

/-- The HBM3 address of a node's gain (R137). -/
def nodeAddr (n : Node) : Nat :=
  0x100000000000 + tileOf n * 8192 + (n / 16384 % 64 * 64 + n % 16384 % 64) * 2

/-- A gain written into a plane; an open node is unlisted. -/
def putGain (t : Table (BitVec 16)) (n : Node) (g : BitVec 16) : Table (BitVec 16) :=
  if g = 0 then tdel t n else tset t n g

/-- The row and the column of matrix number `m` opened (R155). -/
def stripClear (t : Table (BitVec 16)) (m : Nat) : Table (BitVec 16) :=
  t.filter fun e => e.1 / 16384 != m && e.1 % 16384 != m

/-- A node of the row or the column of matrix number `m`. -/
def onStrip (m : Nat) (n : Node) : Bool := n / 16384 == m || n % 16384 == m

/-- The population counts of a plane's occupied tiles. -/
def tileCounts (t : Table (BitVec 16)) : Table Nat :=
  t.foldl (fun c e => tset c (tileOf e.1) (tget 0 c (tileOf e.1) + 1)) []

/-! ### The write queue -/

/-- The writes an entry counts against the limit of R144: a strip clear counts as 256 (R156). -/
def Placed.size : Placed → Nat
  | .writes l => l.length
  | .strip _ _ => 512

/-- The gain a fade writes in apply block `b`. -/
def Fade.at (f : Fade) (b : Nat) : Option (BitVec 16) := if f.start ≤ b then f.gains[b - f.start]? else none

/-- The block of a fade's last step. -/
def Fade.last (f : Fade) : Nat := f.start + f.gains.length - 1

/-- The room of an apply block (R796). -/
def Matrix.room (x : Matrix) (b : Nat) : Nat :=
  65536 - ((x.queue.filter fun e => e.block == b).map fun e => e.what.size).sum
        - (x.fades.filter fun f => (f.at b).isSome).length

/-- The first apply block a command of mailbox `f` may take (R143, R146). -/
def State.firstBlock (s : State) (f : Nat) : Nat := max s.nextBlock (tget 0 s.matrix.floor f)

/-- The apply block of a command of `n` writes of mailbox `f`: the first with room among the next four (R145 to
R147). Slots that fades give back because of the command's own writes count as room only once it is placed (DESIGN CHOICE, log
entry 96). -/
def State.placeBlock (s : State) (f n : Nat) : Option Nat :=
  ([1, 2, 3, 4].map (s.block + ·)).find? fun b => decide (s.firstBlock f ≤ b) && decide (n ≤ s.matrix.room b)

/-- The apply block of `n` writes that no command places (a shed, a trunk's join or end): the first from `b` on with room, beyond the
next four where none of them has any. Blocks not yet in the queue hold nothing but what stands in `queue` and at most 16,384
fade steps, so one among as many as there are entries has room. -/
def State.ownBlock (s : State) (n b : Nat) : Nat :=
  (((List.range (s.matrix.queue.length + 5)).map (max b (s.block + 1) + ·)).find? fun k => decide (n ≤ s.matrix.room k)).getD b

/-- A command placed in block `b`: its ring's floor moves, and it counts as rolled where `b` is not the first, whether it
writes nodes or not (R146; what no mailbox sent is no command). -/
def State.placedAt (s : State) (f b : Nat) : State :=
  if 5 ≤ f then s
  else s.updMatrix fun x => { x with floor := tset x.floor f b, rolled := x.rolled + (if s.nextBlock < b then 1 else 0) }

/-- What a queue entry makes of one node's gain. -/
def QueueEntry.on (e : QueueEntry) (n : Node) (g : BitVec 16) : BitVec 16 :=
  match e.what with
  | .writes l => l.foldl (fun g w => if w.1 = n && decide (w.2.2.1 < 2 ^ 30) && decide (w.2.2.2 < 2 ^ 30) then w.2.1 else g) g
  | .strip m _ => if n / 16384 = m || n % 16384 = m then 0 else g

/-- An entry is a strip clear: it applies after the writes of its block. -/
def QueueEntry.isStrip (e : QueueEntry) : Bool := match e.what with | .strip _ _ => true | _ => false

/-- One node's gain after apply block `b`, from its gain before it: the steps of running fades, the queue, a fade's first
step behind what was placed ahead of it, the strip clears (Table 5.2, R148, R150). -/
def Matrix.nodeStep (x : Matrix) (n : Node) (b : Nat) (g : BitVec 16) : BitVec 16 :=
  let fade (first : Bool) (g : BitVec 16) : BitVec 16 :=
    x.fades.foldl (fun g f => if f.node = n && (b == f.start) == first then (f.at b).getD g else g) g
  let q := x.queue.filter fun e => e.block == b
  let g := fade true ((q.filter fun e => !e.isStrip).foldl (fun g e => e.on n g) (fade false g))
  (q.filter (·.isStrip)).foldl (fun g e => e.on n g) g

/-- The last apply block whose application phase has ended, as the running block knows it: its own, or the one before (Table 5.2). -/
def State.planeBlock (s : State) : Nat := if s.block ≤ s.matrix.upTo then s.block else s.block - 1

/-- The blocks up to `b` that hold queue entries, and those after `lo` that hold fade steps, ascending. -/
def Matrix.blocksOf (x : Matrix) (lo b : Nat) : List Nat :=
  (((x.queue.map (·.block) ++ (x.fades.flatMap fun f => (List.range f.gains.length).map (f.start + ·)).filter (decide <| lo < ·)).filter
    (decide <| · ≤ b)).foldl (fun t k => tset t k ()) ([] : Table Unit)).map (·.1)

/-- The block whose application phase is the last to have ended; a step of the counter may have set it back. -/
def State.planeFrom (s : State) : Nat := min s.matrix.upTo s.block

/-- A node's gain after apply block `b`, writes placed and not yet applied included. -/
def State.gainAfter (s : State) (n : Node) (b : Nat) : BitVec 16 :=
  let x := { s.matrix with fades := s.matrix.fades.filter fun f => f.node == n }
  (x.blocksOf s.planeFrom b).foldl (fun g k => x.nodeStep n k g) (tget 0 x.plane n)

/-- A fade cut at block `b`: the steps before it stand (R152). -/
def cutFade (n : Node) (b : Nat) (f : Fade) : Fade :=
  if f.node = n && decide (f.start ≤ b) && decide (b ≤ f.last) then { f with gains := f.gains.take (b - f.start), cut := true, org := noOrigin } else f

/-- The fades after writes to the nodes `l` in block `b`. -/
def cutFades (l : List Node) (b : Nat) (fs : List Fade) : List Fade :=
  (fs.map fun f => l.foldl (fun f n => cutFade n b f) f).filter fun f => !f.gains.isEmpty

/-- A write of node `n` that will apply: one that names a destroyed leg is dropped (R157). -/
def Placed.names (n : Node) : Placed → Bool
  | .writes l => l.any fun w => w.1 == n && decide (w.2.2.1 < 2 ^ 30) && decide (w.2.2.2 < 2 ^ 30)
  | .strip _ _ => false

/-- A write of node `n` is placed in a block after `b`. -/
def Matrix.writtenAfter (x : Matrix) (n : Node) (b : Nat) : Bool :=
  (x.queue.any fun e => decide (b < e.block) && e.what.names n) || x.fades.any fun f => f.node == n && decide (b < f.start)

/-- The last gain of each node after writes in block `b`: what a later block holds for a node stays its last. -/
def lastAfter (x : Matrix) (b : Nat) (l : List (Node × BitVec 16)) : Table (BitVec 16) :=
  l.foldl (fun t w => if x.writtenAfter w.1 b then t else putGain t w.1 w.2) x.last

/-- The tiles of some nodes, each once. -/
def tilesOf (l : List Node) : List Nat := (l.map tileOf).eraseDups

/-- The cost of `n` occupied tiles (Table 4.7). -/
def tileCost (n : Nat) : Costs := costOf [(0x0002, 0, n), (0x0009, 0, 4096 * n)]

/-! ### Occupied tiles as placed (R140) -/

/-- The writes of an entry applied to the plane; a write that names a destroyed leg (a key above 2^30) is dropped
(R157). -/
def applyEntry (p : Table (BitVec 16)) : Placed → Table (BitVec 16)
  | .writes l => l.foldl (fun p w => if 2 ^ 30 ≤ w.2.2.1 || 2 ^ 30 ≤ w.2.2.2 then p else putGain p w.1 w.2.1) p
  | .strip m _ => stripClear p m

/-- The nodes that are not open and those that a placed write or fade names. -/
def Matrix.nodes (x : Matrix) : List Node :=
  x.plane.map (·.1) ++ x.fades.map (·.node) ++
  x.queue.flatMap fun e => match e.what with | .writes l => l.map (·.1) | .strip _ _ => []

/-- A matrix's plane, fades and writes, those of tile `t` alone. -/
def Matrix.inTile (x : Matrix) (t : Nat) : Matrix :=
  { x with
    plane := x.plane.filter fun e => tileOf e.1 == t
    fades := x.fades.filter fun f => tileOf f.node == t
    queue := x.queue.map fun e => match e.what with
      | .writes l => { e with what := .writes (l.filter fun w => tileOf w.1 == t) }
      | .strip _ _ => e }

/-- The steps of running fades, or the first steps of fades, that apply in block `b`, written into the plane. -/
def Matrix.fadeSteps (x : Matrix) (b : Nat) (first : Bool) (p : Table (BitVec 16)) : Table (BitVec 16) :=
  (x.fades.filter fun f => (b == f.start) == first).foldl (fun p f => match f.at b with | some g => putGain p f.node g | none => p) p

/-- The plane after apply block `b` from the plane before it, with the entries `q`: the steps of running fades, the
writes in queue order, a fade's first step behind what was placed ahead of it, the strip clears (Table 5.2, R148). -/
def Matrix.stepPlane (x : Matrix) (b : Nat) (q : List QueueEntry) (p : Table (BitVec 16)) : Table (BitVec 16) :=
  let p := (q.filter fun e => !e.isStrip).foldl (fun p e => applyEntry p e.what) (x.fadeSteps b false p)
  (q.filter (·.isStrip)).foldl (fun p e => applyEntry p e.what) (x.fadeSteps b true p)

/-- The plane after apply block `b` from the plane as the phase of block `lo` left it: the blocks between in their order, those a
fault has made late among them (R170). -/
def Matrix.planeAt (x : Matrix) (lo b : Nat) : Table (BitVec 16) :=
  (x.blocksOf lo b).foldl (fun p k => x.stepPlane k (x.queue.filter fun e => e.block == k) p) x.plane

/-- The last apply block that holds a placed write or fade step, `b` at least. -/
def Matrix.horizon (x : Matrix) (b : Nat) : Nat := (x.queue.map (·.block) ++ x.fades.map Fade.last).foldl max b

/-- Whether the plane holds a node that is not open, after block `b` and each of the `n` blocks that follow. -/
def Matrix.track (x : Matrix) : Nat → Nat → Table (BitVec 16) → List Bool
  | 0, _, p => [!p.isEmpty]
  | n + 1, b, p => (!p.isEmpty) :: x.track n (b + 1) (x.stepPlane (b + 1) (x.queue.filter fun e => e.block == b + 1) p)

/-- The blocks in which an occupancy that starts with block `b` falls. -/
def falls : Nat → List Bool → List Nat
  | _, [] => []
  | b, x :: r => (if x && r.head? == some false then [b + 1] else []) ++ falls (b + 1) r

/-- A tile from the running block on, as the placed writes and fades of `x` leave it: the blocks in which its last
node opens, and how many occupations of it are held. -/
def State.tileRuns (s : State) (x : Matrix) (t : Nat) : List Nat × Nat :=
  let y := x.inTile t
  let l := y.track (y.horizon s.block - s.block) s.block (y.planeAt s.planeFrom s.block)
  let e := falls s.block l
  (e, e.length + if l.getLastD false then 1 else 0)

/-- How many tiles of `tiles` a change of the placed writes to `x` newly occupies, none netted against another. -/
def State.tileAsk (s : State) (x : Matrix) (tiles : List Nat) : Nat :=
  (tiles.map fun t => (s.tileRuns x t).2 - (s.tileRuns s.matrix t).2).sum

/-- The release of one tile that waits for block `b` taken back. -/
def dropRelease (l : List Sched) (b : Nat) : List Sched :=
  l.eraseP fun e => e.at_ == .block b && e.act == .release (tileCost 1)

/-- The placed writes become `x`: each tile of `tiles` is released at the boundary of the block in which its last node
opens, one no longer occupied at block `b` (R140). -/
def State.retile (s : State) (x : Matrix) (b : Nat) (tiles : List Nat) : State :=
  let ends (y : Matrix) (t : Nat) : List Nat := (s.tileRuns y t).1
  let gone := tiles.flatMap fun t => (ends s.matrix t).filter fun e => !(ends x t).contains e
  let come := tiles.flatMap fun t => ((ends x t).filter fun e => !(ends s.matrix t).contains e) ++
    List.replicate ((s.tileRuns s.matrix t).2 - (s.tileRuns x t).2) b
  { s with
    matrix := x
    sched := gone.foldl dropRelease s.sched ++ come.map fun e =>
      ({ at_ := .block e, org := noOrigin, act := .release (tileCost 1), from_ := s.trio.effectAt.getD 0 } : Sched)
    awaiting := minusCost (plusCost s.awaiting (tileCost come.length)) (tileCost gone.length) }

/-- The matrix with writes placed in block `b`. -/
def Matrix.withWrites (x : Matrix) (b : Nat) (o : Origin) (l : List (Node × BitVec 16 × Nat × Nat)) : Matrix :=
  { x with
    queue := x.queue ++ [({ block := b, what := .writes l, org := o } : QueueEntry)]
    fades := cutFades (l.map (·.1)) b x.fades
    last := lastAfter x b (l.map fun w => (w.1, w.2.1)) }

/-- Node writes of one command placed in the queue (R140, R145 to R149): admission of the tiles they newly occupy, the
apply block handed to `k`; held where no block has room. A command without writes takes no room. -/
def State.writeNodes (s : State) (f : Nat) (o : Origin) (l : List (Node × BitVec 16 × Nat × Nat)) (hold : Bytes)
    (k : State → Nat → Eff) : Eff :=
  let tiles := tilesOf (l.map (·.1))
  if l.isEmpty then k (s.placedAt f (s.firstBlock f)) (s.firstBlock f)
  else
    match s.placeBlock f l.length with
    | none => s.admission (tileCost (s.tileAsk (s.matrix.withWrites s.nextBlock o l) tiles)) [] fun _ _ => .wait .room hold s
    | some b =>
      let x := s.matrix.withWrites b o l
      s.admission (tileCost (s.tileAsk x tiles)) [] fun s' _ => k ((s'.retile x b tiles).placedAt f b) b

/-! ### The write application phase (R142) -/

/-- The writes of an entry that R157 drops. -/
def droppedIn : Placed → Nat
  | .writes l => (l.filter fun w => decide (2 ^ 30 ≤ w.2.2.1) || decide (2 ^ 30 ≤ w.2.2.2)).length
  | .strip _ _ => 0

/-- The writes that blocks after its destroy hold for a leg, marked to be dropped when they come to be applied (R157). -/
def markDead (key : Nat) (e : QueueEntry) : QueueEntry :=
  match e.what with
  | .writes l => { e with what := .writes (l.map fun w =>
      (w.1, w.2.1, if w.2.2.1 = key then 2 ^ 30 else w.2.2.1, if w.2.2.2 = key then 2 ^ 30 else w.2.2.2)) }
  | .strip _ _ => e

/-- FadeDone for each fade whose last step block `b` wrote, or that ended while Beryl was out of service (R153, R170): it carries the
block of that application phase (DESIGN CHOICE, log entry 123). -/
def State.fadesDone (s : State) (b : Nat) (l : List Fade) : State :=
  l.foldl (fun s f =>
    if f.last ≤ b && f.org.mbx < 5 then
      s.raiseOn f.org.mbx 0xF302 (s.handle f.dst) 0
        (le 4 (s.handle f.src) ++ le 4 (s.handle f.dst) ++ le 2 (f.gains.getLastD 0).toNat ++ le 2 0 ++ le 8 b)
    else s) s

/-- The write application phase of apply block `b`: fade steps, queued writes in queue order, strip clears; the
counts follow, and the shadow copy (R138, R140, R142). What earlier blocks still hold, Beryl having been out of service, applies
first, block by block (R170). -/
def State.applyPhase (s : State) (b : Nat) : State :=
  let x := s.matrix
  let lo := min x.upTo (b - 1)
  let q := x.queue.filter fun e => decide (e.block ≤ b)
  let p := x.planeAt lo b
  let later := x.queue.filter fun e => decide (b < e.block)
  let steps := (x.fades.map fun f => ((List.range f.gains.length).filter fun k => decide (lo < f.start + k) && decide (f.start + k ≤ b)).length).sum
  let s := s.updMatrix fun x => { x with
    plane := p, upTo := b, shadow := p, count := tileCounts p, queue := later,
    fades := x.fades.filter fun f => decide (b < f.last) || (f.cut && b == f.last),
    applied := x.applied + steps + (q.map fun e => e.what.size - droppedIn e.what).sum,
    dropped := x.dropped + (q.map fun e => droppedIn e.what).sum }
  s.fadesDone b x.fades

/-! ### The mix (R134) -/

/-- The samples of one output: the plane's nodes of that output in ascending input order, one tile row at a time. -/
def mixSample (row : List (Nat × Int)) (x : Table (List Int)) (t : Nat) : Int :=
  let part (r : Nat) : Int :=
    ((row.filter fun e => e.1 / 64 == r).map fun e => (tget [] x e.1).getD t 0 * e.2).sum
  let acc := (row.map fun e => e.1 / 64).eraseDups.foldl (fun a r => sat48 (a + part r)) 0
  (acc + 4096) / 8192

/-- The inputs and gains of one output, in ascending input order. -/
def outRow (p : Table (BitVec 16)) (o : Nat) : List (Nat × Int) :=
  (p.filter fun e => e.1 % 16384 == o).map fun e => (e.1 / 16384, gainInt e.2)

/-- The 96 samples of one output before sat24. -/
def mixOutput (p : Table (BitVec 16)) (x : Table (List Int)) (o : Nat) : List Int :=
  (List.range 96).map fun t => mixSample (outRow p o) x t

/-- t_mix in ns for `T` occupied tiles (R141). -/
def tMix (T : Nat) : Nat := min (1400 + (ceilDiv T 4 + 255) * 64) 1050000

/-- One meter point after a block: peak hold (R163) and the period's peak, mean square and clip flag (R164). -/
def MeterPoint.block (e : MeterPoint) (hold decay : Nat) (x : List Int) (clip : Bool) : MeterPoint :=
  let p := peakMilli (blockPeak x)
  let e := { e with peak := max e.peak (blockPeak x), msSum := e.msSum + blockMeanSquare x, clipped := e.clipped || clip }
  if e.held ≤ p then { e with held := p, age := 0 }
  else
    let age := e.age + 2
    if hold < age then { e with age := age, held := if decay = 0 then p else max p (e.held - 2 * decay) }
    else { e with age := age }

/-- The mix of the previous block ended: outputs, clip counts and meters (Table 5.2). An input with a poisoned word contributes zero to
every output (R678). -/
def State.mixBlock (s : State) : State :=
  let x := { s.matrix with inRead := s.matrix.inRead.filter fun e => !s.matrix.poisonRead.contains e.1 }
  let ms := s.audio.legs.map fun e => e.2.m
  let raw := ms.map fun m => (m, mixOutput x.plane x.inRead m)
  let gone := ((x.plane.map fun e => e.1 % 16384).filter fun m => !ms.contains m).eraseDups
  let clips := (raw.map (·.2) ++ gone.map (mixOutput x.plane x.inRead)).map fun l => (l.filter fun v => sat24 v != v).length
  let out : Table (List Int) := raw.foldl (fun t e => tset t e.1 (e.2.map sat24)) []
  let clippedOut (m : Nat) : Bool := raw.any fun e => e.1 == m && e.2.any fun v => sat24 v != v
  let subs := tmap x.subs fun _ u => { u with
    blocks := u.blocks + 1,
    points := u.points.map fun pt =>
      let m := s.legM pt.leg
      if pt.output then pt.block u.hold u.decay (tget [] out m) (clippedOut m)
      else pt.block u.hold u.decay (tget [] x.inRead m) false }
  let s := (s.audio.legs.filter fun e => s.matrix.poisonRead.contains e.2.m).foldl (fun s e => s.objCount (s.handle (okey 2 e.1)) 7 1) s
  s.updMatrix fun x => { x with
    outMix := out, subs := subs, poisonRead := [], clipped := x.clipped + clips.sum, longest := max x.longest (tMix x.count.length) }

/-! ### Node commands -/

/-- The entries of a node write list: source, destination, gain, reserved (Table 5.5). -/
def nodeEntries (p : Bytes) (n : Nat) : List (Nat × Nat × BitVec 16 × Nat) :=
  (List.range n).map fun i =>
    (u32 p (12 * i), u32 p (12 * i + 4), BitVec.ofNat 16 (u16 p (12 * i + 8)), u16 p (12 * i + 10))

/-- The handles of node entries checked in entry order: the writes, or the status and index of the first failure
(R173). -/
def State.nodeWrites (s : State) : Nat → List (Nat × Nat × BitVec 16 × Nat) →
    Except (Status × Nat) (List (Node × BitVec 16 × Nat × Nat))
  | _, [] => .ok []
  | i, (a, b, g, _) :: r =>
    match s.checkHandle a [0x02] with
    | .error st => .error (st, i)
    | .ok ka =>
      match s.checkHandle b [0x02] with
      | .error st => .error (st, i)
      | .ok kb =>
        match s.nodeWrites (i + 1) r with
        | .error e => .error e
        | .ok l => .ok ((node (s.legM ka) (s.legM kb), g, ka, kb) :: l)

/-- A node write that would let a critical output depend on an input outside the critical set (R654). -/
def State.breaksNode (s : State) (ka kb : Nat) (g : BitVec 16) : Bool := g != 0 && s.critical kb && !s.critical ka

/-- The checks of node entries, handles first, then reserved fields, each in entry order (R173, R175). -/
def State.checkNodes (s : State) (l : List (Nat × Nat × BitVec 16 × Nat))
    (k : List (Node × BitVec 16 × Nat × Nat) → Eff) : Eff :=
  match s.nodeWrites 0 l with
  | .error (st, i) => .fail st (le 4 i)
  | .ok ws =>
    match l.findIdx? fun e => e.2.2.2 != 0 with
    | some i => .fail .invalidArg (le 4 i)
    | none =>
      match ws.findIdx? fun w => s.breaksNode w.2.2.1 w.2.2.2 w.2.1 with
      | some i => .fail .invalidArg (le 4 i)
      | none => k ws

/-- Node writes answered with their apply block, Applied at its start (R149). -/
def State.nodeSet (s : State) (r : Req) (ws : List (Node × BitVec 16 × Nat × Nat)) (hold : Bytes) : Eff :=
  s.writeNodes r.mbx (r.origin r.tgt) ws hold fun s b =>
    .later (le 8 b) r.tgt (s.schedule (.block b) (r.origin r.tgt) .applied)

/-- The own part of NodeSet (R143, R172 to R174). The entries are checked before the reserved header field, so that a bad entry's
index is answered wherever there is one (DESIGN CHOICE, log entry 96). -/
def effNodeSet (r : Req) (s : State) : Eff :=
  nullTarget r (
  need (r.payload.length == 4 + 12 * u16 r.payload 0) .badLength (
  s.checkNodes (nodeEntries (r.payload.drop 4) (u16 r.payload 0)) fun ws =>
  need (zeros r.payload 2 2) .invalidArg (
  s.nodeSet r ws [])))

/-- NODE_SET. -/
def execNodeSet (r : Req) (s : State) : Host.Outcome State Fault Refusal :=
  .next (s.command 0x0300 (fun n => n == 4 + 12 * u16 r.payload 0) r (effNodeSet r))

/-- NodeSetBulk once its entries are read (R175). -/
def effNodeSetBulkData (r : Req) (d : Bytes) (s : State) : Eff :=
  s.checkNodes (nodeEntries d (u32 r.payload 0)) fun ws => s.nodeSet r ws d

/-- NodeSetBulk up to its DMA read (R175): the count, the descriptor length and the reserved header fields. -/
def effNodeSetBulk (r : Req) (s : State) : Eff :=
  nullTarget r (
  need (decide (u32 r.payload 0 ≤ 65536) && u32 r.payload 16 == 12 * u32 r.payload 0) .invalidArg (
  need (zeros r.payload 4 4 && zeros r.payload 20 4) .invalidArg (
  readThen (u32 r.payload 16) (effNodeSetBulkData r []) s)))

/-- NODE_SET_BULK. -/
def execNodeSetBulk (r : Req) (s : State) : Host.Outcome State Fault Refusal :=
  .next (s.command 0x0301 (· == 24) r (effNodeSetBulk r))

/-- The first block after `b` in which a write of node `n`, or a fade of it, is already placed. -/
def Matrix.nextWrite (x : Matrix) (n : Node) (b : Nat) : Option Nat :=
  (((x.queue.filter fun e => e.what.names n).map (·.block) ++
    (x.fades.filter fun f => f.node == n).map (·.start)).filter fun k => decide (b < k)).min?

/-- The steps of a fade placed in block `b`, up to the block of a write that is placed already (R152). -/
def Matrix.cutSteps (x : Matrix) (n : Node) (b : Nat) (gains : List (BitVec 16)) : List (BitVec 16) :=
  match x.nextWrite n b with
  | some k => gains.take (k - b)
  | none => gains

/-- The apply block of a fade: the first of the next four from which each block that its steps reach has room for its
step (R796), with the gains of its steps from there and whether a write placed already ends it. It starts from the gain last
scheduled for that block, the step of the fade it replaces included (R150, R152); the slots which that one gives back count as
room (DESIGN CHOICE, log entry 96). -/
def State.placeFade (s : State) (f : Nat) (n : Node) (gt : BitVec 16) (S : Nat) : Option (Nat × List (BitVec 16) × Bool) :=
  ([1, 2, 3, 4].map (s.block + ·)).findSome? fun b =>
    let x := { s.matrix with fades := cutFades [n] b s.matrix.fades }
    let gc := s.gainAfter n b
    let all := fadeGains gc gt S
    let gains := x.cutSteps n b all
    let fits := (List.range gains.length).all fun k => decide (1 ≤ x.room (b + k))
    if s.firstBlock f ≤ b && fits then some (b, gains, decide (gains.length < all.length)) else none

/-- The matrix with a fade placed: the node's earlier fade ends (R152), one of no step ends at once. -/
def Matrix.withFade (x : Matrix) (fd : Fade) : Matrix :=
  { x with
    fades := cutFades [fd.node] fd.start x.fades ++ (if fd.gains.isEmpty then [] else [fd])
    last := if x.writtenAfter fd.node fd.start then x.last else putGain x.last fd.node fd.target }

/-- The nodes that run a fade, or have one placed (R151). -/
def Matrix.fading (x : Matrix) : List Node := (x.fades.map (·.node)).eraseDups

/-- A fade of node `n` with some steps may start: at most 16,384 run at once, one replaced or one of no step beside them (R151). -/
def Matrix.mayFade (x : Matrix) (n : Node) (steps : Nat) : Bool :=
  steps == 0 || x.fading.contains n || decide (x.fading.length < 16384)

/-- The fade of a NodeFade command, from leg `ka` to leg `kb`: no FadeDone where a write placed already ends it (R152). -/
def fadeOf (r : Req) (s : State) (ka kb b : Nat) (gains : List (BitVec 16)) (cut : Bool) : Fade where
  node := node (s.legM ka) (s.legM kb)
  start := b
  gains := gains
  step := u8 r.payload 10
  target := BitVec.ofNat 16 (u16 r.payload 8)
  cut := cut
  src := ka
  dst := kb
  org := if cut then noOrigin else r.origin kb

/-- The own part of NodeFade (R150 to R153). -/
def effNodeFade (r : Req) (s : State) : Eff :=
  let p := r.payload
  nullTarget r (
  s.withHandle (u32 p 0) [0x02] fun ka =>
  s.withHandle (u32 p 4) [0x02] fun kb =>
  need (decide (1 ≤ u8 p 10) && decide (u8 p 10 ≤ 10) && zeros p 11 1 &&
    !s.breaksNode ka kb (BitVec.ofNat 16 (u16 p 8))) .invalidArg (
  let n := node (s.legM ka) (s.legM kb)
  let gt := BitVec.ofNat 16 (u16 p 8)
  match s.placeFade r.mbx n gt (u8 p 10) with
  | none => need (s.matrix.mayFade n 1) .noResource (.wait .room [] s)
  | some (b, gains, cut) =>
    need (s.matrix.mayFade n gains.length) .noResource (
    let x := s.matrix.withFade (fadeOf r s ka kb b gains cut)
    s.admission (tileCost (s.tileAsk x [tileOf n])) [] fun s' _ =>
      .later (le 8 b) r.tgt (((s'.retile x b [tileOf n]).placedAt r.mbx b).schedule (.block b) (r.origin r.tgt) .applied))))

/-- NODE_FADE. -/
def execNodeFade (r : Req) (s : State) : Host.Outcome State Fault Refusal :=
  .next (s.command 0x0302 (· == 12) r (effNodeFade r))

/-- The own part of NodeGet (Table 5.8). -/
def effNodeGet (r : Req) (s : State) : Eff :=
  nullTarget r (
  s.withHandle (u32 r.payload 0) [0x02] fun ka =>
  s.withHandle (u32 r.payload 4) [0x02] fun kb =>
  let n := node (s.legM ka) (s.legM kb)
  let fd := s.matrix.fades.find? fun f => f.node == n && decide (f.start ≤ s.block) && (decide (s.block < f.last) || (f.cut && s.block == f.last))
  let tail := match fd with
    | some f => le 2 f.target.toNat ++ le 1 1 ++ le 1 f.step
    | none => le 4 0
  .done (le 2 (s.gainAfter n s.block).toNat ++ le 2 (s.gainAfter n (s.block + 4)).toNat ++ tail) r.tgt s)

/-- NODE_GET. -/
def execNodeGet (r : Req) (s : State) : Host.Outcome State Fault Refusal :=
  .next (s.command 0x0303 (· == 8) r (effNodeGet r))

/-- The 8,192-byte occupancy bitmap: bit t mod 8 of byte t / 8 (R176). -/
def tileMap (c : Table Nat) : Bytes :=
  (List.range 8192).map fun i =>
    BitVec.ofNat 8 (((List.range 8).map fun b => if tget 0 c (8 * i + b) = 0 then 0 else 2 ^ b).sum)

/-- The own part of MatrixTileMapGet (R176): the map written by DMA, the capture block it serves in the response. -/
def effMatrixTileMapGet (r : Req) (s : State) : Eff :=
  nullTarget r (
  need (u32 r.payload 8 == 8192 && zeros r.payload 12 4) .invalidArg (
  .wait .write (le 8 s.planeBlock) (s.emit (.hostWrite (u64 r.payload 0) (tileMap s.matrix.count)))))

/-- MATRIX_TILE_MAP_GET. -/
def execMatrixTileMapGet (r : Req) (s : State) : Host.Outcome State Fault Refusal :=
  .next (s.command 0x0304 (· == 16) r (effMatrixTileMapGet r))

/-- The own part of MatrixStatsGet (Table 5.14): the longest mix starts again. -/
def effMatrixStatsGet (r : Req) (s : State) : Eff :=
  let x := s.matrix
  nullTarget r (
  .done (le 4 x.count.length ++ le 4 x.fading.length ++ le 8 x.applied ++ le 8 x.rolled ++ le 8 x.dropped ++
      le 8 x.clipped ++ le 4 x.longest ++ le 4 0) r.tgt (s.updMatrix fun x => { x with longest := 0 }))

/-- MATRIX_STATS_GET. -/
def execMatrixStatsGet (r : Req) (s : State) : Host.Outcome State Fault Refusal :=
  .next (s.command 0x030B (· == 0) r (effMatrixStatsGet r))

/-! ### Objects -/

/-- An object created at the lowest free index of `n` indices from `lo` of type `ty`: its key. -/
def State.create (s : State) (ty lo n : Nat) (k : Nat → Eff) : Eff :=
  match s.lowestFree ty lo n with
  | none => .fail .noResource []
  | some i => k (okey ty i)

/-- An object entered in the table of live objects (R83). -/
def State.addObj (s : State) (key owner : Nat) (active : Bool) (cls : Nat) (cost : Costs) : State :=
  { s with objs := tset s.objs key { owner := owner, active := active, flow := false, dying := false, unborn := false, shedClass := cls, shed := false,
                                     cost := cost } }

/-- A destroy completed: the generation moves on, the object still lives until its boundary (R77, R793). -/
def State.dying (s : State) (key : Nat) : State :=
  { s with objs := tupd s.objs key fun o => { o with dying := true } }.bumpGen key

/-- The object gone: its index is free (R78). -/
def State.dropObj (s : State) (key : Nat) : State := { s with objs := tdel s.objs key }

/-- An object's record changed. -/
def State.updObj (s : State) (key : Nat) (f : Obj → Obj) : State := { s with objs := tupd s.objs key f }

/-- The cost an object reserves. -/
def State.objCost (s : State) (key : Nat) : Costs := match s.obj key with | some o => o.cost | none => []

/-- A destroy that takes effect at boundary `b`: generation now, index and budget at the boundary (R77, R116). -/
def State.destroyAt (s : State) (r : Req) (key : Nat) (b : Boundary) : Eff :=
  let c := s.objCost key
  .later [] r.tgt (((s.dying key).releaseAt b c).schedule b (r.origin r.tgt) (.free key))

/-! ### Meters -/

/-- The points of a subscription, handles checked in entry order. The peak hold begins at the level of silence (DESIGN CHOICE, log
entry 96). -/
def State.meterPoints (s : State) (p : Bytes) : Nat → Nat → Except Status (List MeterPoint)
  | _, 0 => .ok []
  | i, n + 1 =>
    match s.checkHandle (u32 p (8 + 8 * i)) [0x02] with
    | .error st => .error st
    | .ok k =>
      match s.meterPoints p (i + 1) n with
      | .error st => .error st
      | .ok l => .ok ({ leg := k, output := u8 p (12 + 8 * i) == 2, held := peakMilli 0, age := 0, peak := 0,
                        msSum := 0, clipped := false } :: l)

/-- The own part of MeterSubscribe (Table 5.9). -/
def effMeterSubscribe (r : Req) (s : State) : Eff :=
  let p := r.payload
  let n := u8 p 6
  nullTarget r (
  match s.meterPoints p 0 n with
  | .error st => .fail st []
  | .ok pts =>
    need (s.inService) .wrongState (
    need (decide (20 ≤ u16 p 0) && decide (u16 p 0 ≤ 10000) && u16 p 0 % 2 == 0 && decide (u16 p 2 ≤ 10000) &&
      decide (u16 p 4 ≤ 1000) && decide (1 ≤ n) && decide (n ≤ 16) && zeros p 7 1 &&
      (List.range n).all fun i => (u8 p (12 + 8 * i) == 1 || u8 p (12 + 8 * i) == 2) && zeros p (13 + 8 * i) 3)
      .invalidArg (
    s.create 0x0C 0 4096 fun key =>
      .done [] (s.handle key) ((s.addObj key r.mbx true 0 []).updMatrix fun x => { x with
        subs := tset x.subs (kidx key) {
          period := u16 p 0, hold := u16 p 2, decay := u16 p 4, points := pts, blocks := 0 } }))))

/-- METER_SUBSCRIBE. -/
def execMeterSubscribe (r : Req) (s : State) : Host.Outcome State Fault Refusal :=
  .next (s.command 0x0305 (fun n => n == 8 + 8 * u8 r.payload 6) r (effMeterSubscribe r))

/-- The own part of MeterUnsubscribe: FREE at the next block boundary (Table 3.5). -/
def effMeterUnsubscribe (r : Req) (s : State) : Eff :=
  s.withHandle r.tgt [0x0C] fun key => s.destroyAt r key (.block (s.firstBlock r.mbx))

/-- METER_UNSUBSCRIBE. -/
def execMeterUnsubscribe (r : Req) (s : State) : Host.Outcome State Fault Refusal :=
  .next (s.command 0x0306 (· == 0) r (effMeterUnsubscribe r))

/-- One entry of a MeterReport (Table 5.10). -/
def State.meterEntry (s : State) (blocks : Nat) (e : MeterPoint) : Bytes :=
  le 4 (s.handle e.leg) ++ le 1 (if e.output then 2 else 1) ++ le 1 (if e.clipped then 1 else 0) ++
  le 2 (unsigned 16 (max (-32768) (e.held / 100))) ++ le 2 (unsigned 16 (peakLevel e.peak)) ++
  le 2 (unsigned 16 (rmsLevel e.msSum blocks))

/-- METER_REPORT: at the end of the report period, MeterReport on the creator's mailbox (R164). The period counts the blocks whose
meters were latched: while Beryl is out of service it stands still (DESIGN CHOICE, log entry 96). -/
def execMeterReport (sub : Nat) (s : State) : Host.Outcome State Fault Refusal :=
  match tget? s.matrix.subs sub with
  | none => .next s
  | some u =>
    if u.period ≤ 2 * u.blocks then
      let s' := s.raise (okey 0x0C sub) 0xF300
        (le 8 (s.matrix.upTo - 1) ++ le 1 u.points.length ++ List.replicate 7 0 ++
         (u.points.map (s.meterEntry u.blocks)).flatten)
      .next (s'.updMatrix fun x => { x with subs := tset x.subs sub { u with
        blocks := 0, points := u.points.map fun e => { e with peak := 0, msSum := 0, clipped := false } } })
    else .next s

/-! ### Duck groups -/

/-- The own part of DuckGroupCreate (Table 5.11). -/
def effDuckGroupCreate (r : Req) (s : State) : Eff :=
  let p := r.payload
  nullTarget r (
  s.withHandle (u32 p 0) [0x01] fun ses =>
  need s.inService .wrongState (
  need (decide (u8 p 4 ≤ 60) && decide (1 ≤ u8 p 5) && decide (u8 p 5 ≤ 3) && decide (1 ≤ u16 p 6) &&
    decide (u16 p 6 ≤ 600) && decide (1 ≤ u16 p 8) && decide (u16 p 8 ≤ 600) && decide (u16 p 10 ≤ 5000) &&
    u16 p 10 % 2 == 0) .invalidArg (
  s.create 0x0D 0 1024 fun key =>
    .done [] (s.handle key) ((s.addObj key r.mbx true 0 []).updMatrix fun x => { x with
      ducks := tset x.ducks (kidx key) {
        session := kidx ses, depth := 10 * u8 p 4, mode := u8 p 5, attack := u16 p 6, release := u16 p 8,
        hang := u16 p 10, triggers := [], members := [], forced := false, st := .idle, att := 0, quiet := 0 } }))))

/-- DUCK_GROUP_CREATE. -/
def execDuckGroupCreate (r : Req) (s : State) : Host.Outcome State Fault Refusal :=
  .next (s.command 0x0307 (· == 12) r (effDuckGroupCreate r))

/-- The own part of DuckGroupDestroy: ducking ends at the next block boundary (R177, Table 3.5). -/
def effDuckGroupDestroy (r : Req) (s : State) : Eff :=
  s.withHandle r.tgt [0x0D] fun key => s.destroyAt r key (.block (s.firstBlock r.mbx))

/-- DUCK_GROUP_DESTROY. -/
def execDuckGroupDestroy (r : Req) (s : State) : Host.Outcome State Fault Refusal :=
  .next (s.command 0x0308 (· == 0) r (effDuckGroupDestroy r))

/-- A duck group after one DuckMemberSet operation on one leg (R169): 1 adds a trigger, 2 a member, 3 removes. -/
def Duck.change (d : Duck) (op leg : Nat) : Duck :=
  if op = 1 then { d with triggers := if d.triggers.contains leg then d.triggers else d.triggers ++ [leg] }
  else if op = 2 then { d with members := if d.members.contains leg then d.members else d.members ++ [leg] }
  else { d with triggers := d.triggers.filter (· != leg), members := d.members.filter (· != leg) }

/-- The duck groups a change of block `b` must leave room in: what takes effect by then has, and of the rest the additions
count, so that the limits hold in every later block too. -/
def State.ducksAhead (s : State) (b : Nat) : Table Duck :=
  let by_ (e : Sched) : Bool := match e.at_ with | .block n => decide (n ≤ b) | _ => false
  let gone (k : Nat) (t : Table Duck) : Table Duck :=
    if ktype k = 0x0D then tdel t (kidx k) else if ktype k = 2 then tmap t fun _ d => d.change 3 k else t
  let step (t : Table Duck) (e : Sched) : Table Duck :=
    match e.act with
    | .duckSet g op legs => if by_ e || op != 3 then tupd t g fun d => legs.foldl (fun d l => d.change op l) d else t
    | .free k => if by_ e then gone k t else t
    | _ => t
  (s.sched.filter fun e => !by_ e).foldl step ((s.sched.filter by_).foldl step s.matrix.ducks)

/-- How many groups a leg belongs to, as trigger or member. -/
def groupsOf (t : Table Duck) (leg : Nat) : Nat :=
  (t.filter fun e => e.2.triggers.contains leg || e.2.members.contains leg).length

/-- The limits of R169 after an addition. -/
def withinLimits (t : Table Duck) (g leg : Nat) : Bool :=
  let d := tget? t g
  match d with
  | some d => decide (d.triggers.length ≤ 64) && decide (d.members.length ≤ 1024) && decide (groupsOf t leg ≤ 8)
  | none => true

/-- The entries of DuckMemberSet in order: the leg keys, or the status and index of the first failure. Handles come
first for every entry, then each entry's session and limits (R81, R169, R173). -/
def State.duckLegs (s : State) (p : Bytes) : Nat → Nat → Except (Status × Nat) (List Nat)
  | _, 0 => .ok []
  | i, n + 1 =>
    match s.checkHandle (u32 p (4 + 4 * i)) [0x02] with
    | .error st => .error (st, i)
    | .ok k =>
      match s.duckLegs p (i + 1) n with
      | .error e => .error e
      | .ok l => .ok (k :: l)

/-- A group with a critical member and a trigger outside the critical set (R654). -/
def State.breaksDuck (s : State) (d : Duck) : Bool := d.members.any s.critical && d.triggers.any fun k => !s.critical k

/-- The first entry that may not be added to a group: a leg outside its session, a trunk leg as a trigger, or a leg that makes the
group break R654. -/
def State.duckWrong (s : State) (op : Nat) : Duck → Nat → List Nat → Option Nat
  | _, _, [] => none
  | d, i, k :: r =>
    let d' := d.change op k
    let outside := match s.leg k with | some l => u32 l.cfg 4 % 2 ^ 20 != d.session || (op == 1 && u8 l.cfg 0 == 4) | none => d.session != 0
    if op ≠ 3 && (outside || s.breaksDuck d') then some i else s.duckWrong op d' (i + 1) r

/-- The first entry that breaks a limit of R169. -/
def State.duckFull (g op : Nat) : Table Duck → Nat → List Nat → Option Nat
  | _, _, [] => none
  | t, i, k :: r =>
    let t' := tupd t g fun d => d.change op k
    if op ≠ 3 && !withinLimits t' g k then some i else State.duckFull g op t' (i + 1) r

/-- A duck group with nothing in it. -/
def Duck.init : Duck where
  session := 0
  depth := 0
  mode := 0
  attack := 0
  release := 0
  hang := 0
  triggers := []
  members := []
  forced := false
  st := .idle
  att := 0
  quiet := 0

/-- The first entry that fails, with its status: the listed values (step 10 of Table 2.6) of every entry come before the limits
(step 11). -/
def State.duckBreak (s : State) (g op : Nat) (t : Table Duck) (legs : List Nat) : Option (Status × Nat) :=
  match s.duckWrong op (tget Duck.init t g) 0 legs with
  | some i => some (.invalidArg, i)
  | none => (State.duckFull g op t 0 legs).map fun i => (.noResource, i)

/-- The own part of DuckMemberSet (R169, R173, R177). -/
def effDuckMemberSet (r : Req) (s : State) : Eff :=
  let p := r.payload
  let op := u8 p 0
  s.withHandle r.tgt [0x0D] fun key =>
  match s.duckLegs p 0 (u8 p 1) with
  | .error (st, i) => .fail st (le 4 i)
  | .ok legs =>
    need (decide (1 ≤ op) && decide (op ≤ 3) && decide (u8 p 1 ≤ 54) && zeros p 2 2) .invalidArg (
    match s.duckBreak (kidx key) op (s.ducksAhead (s.firstBlock r.mbx)) legs with
    | some (st, i) => .fail st (le 4 i)
    | none => .later [] r.tgt
        (s.schedule (.block (s.firstBlock r.mbx)) (r.origin r.tgt) (.duckSet (kidx key) op legs)))

/-- DUCK_MEMBER_SET. -/
def execDuckMemberSet (r : Req) (s : State) : Host.Outcome State Fault Refusal :=
  .next (s.command 0x0309 (fun n => n == 4 + 4 * u8 r.payload 1) r (effDuckMemberSet r))

/-- The own part of DuckForce (R177). -/
def effDuckForce (r : Req) (s : State) : Eff :=
  s.withHandle r.tgt [0x0D] fun key =>
  need (decide (u8 r.payload 0 ≤ 1) && zeros r.payload 1 3) .invalidArg (
  .later [] r.tgt
    (s.schedule (.block (s.firstBlock r.mbx)) (r.origin r.tgt) (.duckForce (kidx key) (u8 r.payload 0 == 1))))

/-- DUCK_FORCE. -/
def execDuckForce (r : Req) (s : State) : Host.Outcome State Fault Refusal :=
  .next (s.command 0x030A (· == 4) r (effDuckForce r))

/-- A group is called active by its triggers or by force in the block that ends (R166). -/
def State.duckCall (s : State) (d : Duck) : Bool :=
  (d.mode != 2 && d.triggers.any fun k => match s.leg k with | some l => l.voice && s.flows k | none => false) ||
  (d.mode != 1 && d.forced)

/-- The attenuation of a group lowered by one release step. -/
def Duck.fall (d : Duck) : Duck :=
  let a := d.att - d.release
  { d with att := a, st := if a = 0 then .idle else .release }

/-- A duck group at a block start, called active or not (R167, Table 5.13). A hang time of 0 has passed at once. -/
def Duck.move (d : Duck) (call : Bool) : Duck :=
  if call then { d with st := .active, att := min d.depth (d.att + d.attack), quiet := 0 }
  else
    match d.st with
    | .active => if d.hang = 0 then d.fall else { d with st := .hang, quiet := 1 }
    | .hang => { d with quiet := d.quiet + 1 }
    | .release => d.fall
    | .idle => d

/-- DuckStateChanged (Table 5.4). -/
def State.duckEvent (s : State) (g : Nat) (on : Bool) : State :=
  s.raise (okey 0x0D g) 0xF301 (le 1 (if on then 1 else 0) ++ le 3 0 ++ le 8 s.block)

/-- The groups that the block that ends calls active. -/
def State.duckCalls (s : State) : List Nat := (s.matrix.ducks.filter fun e => s.duckCall e.2).map (·.1)

/-- Every duck group moved on at a block start, those of `calls` being active. -/
def State.duckBlock (calls : List Nat) (s : State) : State :=
  s.matrix.ducks.foldl (fun s e =>
    let d := e.2.move (calls.contains e.1)
    let s := s.updMatrix fun x => { x with ducks := tset x.ducks e.1 d }
    if e.2.st = .idle && d.st = .active then s.duckEvent e.1 true
    else if e.2.st ≠ .idle && d.st = .idle then s.duckEvent e.1 false
    else s) s

/-- DUCK_HANG_EXPIRY: the hang time of an inactive group has passed and its release begins (R167). -/
def execDuckHangExpiry (group : Nat) (s : State) : Host.Outcome State Fault Refusal :=
  .next (s.updMatrix fun x => { x with ducks := tupd x.ducks group fun d =>
    if d.st = .hang && d.hang ≤ 2 * d.quiet then { d with st := .release } else d })

/-- The attenuation a leg takes: the largest of its groups, a group it triggers left out (R168). -/
def State.legAtt (s : State) (key : Nat) : Nat :=
  s.matrix.ducks.foldl (fun a e =>
    if e.2.members.contains key && !e.2.triggers.contains key && e.2.st != .idle then max a e.2.att else a) 0

/-! ### Auto-mix (R158 to R160) -/

/-- The live legs of a session, in index order, those being destroyed included where `all`. -/
def State.members (s : State) (ses : Nat) (all : Bool) : List Nat :=
  (s.audio.legs.filter fun e => u32 e.2.cfg 4 % 2 ^ 20 == ses && (all || s.objLive (okey 2 e.1))).map fun e => okey 2 e.1

/-- The writes of a join: the nodes between a new leg of number `m` and the other members (R158). -/
def State.joinWrites (s : State) (ses m key : Nat) (g : BitVec 16) : List (Node × BitVec 16 × Nat × Nat) :=
  ((s.members ses false).filter (· != key)).flatMap fun k => [(node m (s.legM k), g, key, k), (node (s.legM k) m, g, k, key)]

/-- The writes of SessionMixSet: the whole mesh, and every own node that is not open (R158). An own node counts as open by its gain
after the last block of the write queue (DESIGN CHOICE, log entry 96). -/
def State.meshWrites (s : State) (ses : Nat) (g : BitVec 16) : List (Node × BitVec 16 × Nat × Nat) :=
  let ks := s.members ses false
  (ks.flatMap fun a => (ks.filter (· != a)).map fun b => (node (s.legM a) (s.legM b), g, a, b)) ++
  (ks.filter fun a => s.gainAfter (node (s.legM a) (s.legM a)) (s.block + 4) != 0).map fun a =>
    (node (s.legM a) (s.legM a), 0, a, a)

/-- An auto-mix session that would hold critical legs beside others (R654). -/
def State.breaksSession (s : State) (l : List Nat) : Bool := l.any s.critical && l.any fun k => !s.critical k

/-- The own part of SessionMixSet (R158 to R160). -/
def effSessionMixSet (r : Req) (s : State) : Eff :=
  let p := r.payload
  let g := BitVec.ofNat 16 (u16 p 2)
  s.withHandle r.tgt [0x01] fun key =>
  need (!(u8 p 0 == 1 && decide (256 < (s.members (kidx key) true).length))) .wrongState (
  need (decide (u8 p 0 ≤ 1) && zeros p 1 1 && !(u8 p 0 == 1 && s.breaksSession (s.members (kidx key) false))) .invalidArg (
  let on (s : State) : State := { s with audio := { s.audio with
    sessions := tset s.audio.sessions (kidx key) { autoMix := u8 p 0 == 1, gain := g } } }
  if u8 p 0 = 0 then .done [] r.tgt (on s)
  else
    s.writeNodes r.mbx (r.origin r.tgt) (s.meshWrites (kidx key) g) [] fun s b =>
      .later [] r.tgt ((on s).schedule (.block b) (r.origin r.tgt) .applied)))

/-- SESSION_MIX_SET. -/
def execSessionMixSet (r : Req) (s : State) : Host.Outcome State Fault Refusal :=
  .next (s.command 0x0110 (· == 4) r (effSessionMixSet r))

end Sys2Proof.Machine
end

