-- ==== Sys2Proof/Machine/Work.lean ====
section
/-!
DEFINITION. The work dispatcher (R252 to R285): ready lists, item IDs, staging, deadlines, ordered flows, completion
records, cancellation and the instances.
-/

namespace Sys2Proof.Machine

/-- WORK_SUBMIT. -/
def execWorkSubmit (source : Nat) (desc : Bytes) (s : State) : Host.Outcome State Fault Refusal :=
  if source < 8 then .next (s.submit source { desc := desc, data := desc.drop 32, job := .none }) else .fault .noSuchUnit

/-- SUBMISSION_RESUME: held submissions are accepted in order once their list, flow and ID are free (R261). -/
def execSubmissionResume (source kind : Nat) (s : State) : Host.Outcome State Fault Refusal :=
  .next (s.updWork fun w =>
    match w.waiting source kind with
    | [] => w
    | x :: r =>
      if w.accepts x.desc then
        let (w, l) := Work.enter source r (w.accept source x)
        w.hold source kind l
      else w)

/-! ### Ends and records -/

/-- The items split into those kept and those released in order: an ended item is released once no earlier item
of its flow is kept (R264 to R266). `blocked` are the flows with a kept item. -/
def releaseItems : List Nat → List Item → List Item × List Item
  | _, [] => ([], [])
  | blocked, i :: r =>
    match i.st with
    | .ended _ _ =>
      if dOrdered i.desc && blocked.contains (dFlow i.desc) then
        let (k, o) := releaseItems blocked r
        (i :: k, o)
      else
        let (k, o) := releaseItems blocked r
        (k, i :: o)
    | _ =>
      let (k, o) := releaseItems (if dOrdered i.desc then dFlow i.desc :: blocked else blocked) r
      (i :: k, o)

/-- The records due released, in order (R264 to R268); what the items were for is passed on by `State.settle`. -/
def State.release (s : State) : State :=
  let (k, o) := releaseItems [] s.work.items
  s.updWork fun w => o.foldl Work.report { w with items := k, released := w.released ++ o }

/-- The statistics offset of each end status in Table 8.14. -/
def statOffset : Nat → Option Nat
  | 1 => some 16 | 2 => some 20 | 3 => some 24 | 4 => some 28 | _ => none

/-- Items that meet a test ended with a status, counted in their list and against their object (Table 8.6). -/
def State.endWhere (s : State) (p : Item → Bool) (st res : Nat) : State :=
  let hit := s.work.items.filter p
  let s := s.updWork fun w => { w with items := w.items.map fun i => if p i then { i with st := .ended st res } else i }
  let s := hit.foldl (fun s i =>
    let s := match statOffset st with | some o => s.updWork fun w => w.bump i.list o 1 (2 ^ 32 - 1) | none => s
    if 2 ≤ st && st ≤ 4 && dObj i.desc != 0 then
      let k := dObj i.desc / 2 ^ 27 * 2 ^ 20 + dObj i.desc % 2 ^ 20
      { s with objCtr := tset s.objCtr (k * 8 + st) (tget 0 s.objCtr (k * 8 + st) + 1) }
    else s) s
  s.release

/-- An item is held by an instance: staged or running on it. -/
def Item.heldBy (i : Item) (l inst : Nat) : Bool :=
  i.list == l && (i.st == .staged inst || i.st == .running inst)

/-- ITEM_DEADLINE_EXPIRY: an item queued or staged when its deadline arrives ends EXPIRED (R257). -/
def State.expireItem (s : State) (id : Nat) : State :=
  (s.endWhere (fun i => i.id == id && dDeadline i.desc != 0 && decide (dDeadline i.desc ≤ s.now) &&
    match i.st with | .queued => true | .staged _ => true | _ => false) 2 0)

/-- A cancel of the items that meet a test (R269): queued and staged ones end CANCELLED, running ones are marked. -/
def State.cancelWhere (s : State) (p : Item → Bool) : State :=
  let s := s.updWork fun w => { w with items := w.items.map fun i =>
    match i.st with | .running _ => if p i then { i with marked := true } else i | _ => i }
  s.endWhere (fun i => p i && match i.st with | .queued => true | .staged _ => true | _ => false) 1 0

/-! ### Instances -/

/-- An item's place changed. -/
def State.setItem (s : State) (id : Nat) (st : ItemState) : State :=
  s.updWork fun w => { w with items := w.items.map fun i => if i.id = id then { i with st := st, started := s.now } else i }

/-- An item started on an instance, or staged behind the running ones. -/
def State.take (s : State) (kind inst : Nat) (free : Bool) (it : Item) : State × Option Item :=
  if free then (s.setItem it.id (.running (instNo kind inst)), some it) else (s.setItem it.id (.staged (instNo kind inst)), none)

/-- The item an instance takes from its list, counted as dispatched. -/
def State.takeHead (s : State) (kind inst : Nat) (free : Bool) : State × Option Item :=
  match s.headItem (instList kind inst) with
  | none => (s, none)
  | some it => (s.updWork fun w => w.bump (instList kind inst) 8 1 (2 ^ 64 - 1)).take kind inst free it

/-- What an instance does next: start its staged item, start or stage the head of its list; the item started, if one
is. A DRAINING, disabled or faulted instance takes nothing (R253, R256, R276). A staged item that the throttle stops keeps no
item of levels 15 to 4 waiting (R281). -/
def State.dispatch (s : State) (kind inst : Nat) : State × Option Item :=
  let i := s.inst kind inst
  if i.st != .enabled || i.down then (s, none)
  else
    let free := decide ((s.running kind inst).length < runCap (instList kind inst))
    match s.staged kind inst with
    | some it =>
      if !free then (s, none)
      else if s.work.throttled && decide (dLevel it.desc < 4) then s.takeHead kind inst true
      else if dDeadline it.desc == 0 || decide (s.now < dDeadline it.desc) then s.take kind inst true it
      else (s, none)
    | none => s.takeHead kind inst free

/-- The checks of R283: a kind with ready lists and an instance in its range. -/
def unitOk (kind inst : Nat) : Bool := decide (inst < kindCount kind)

/-- InstanceDrained on the mailbox that sent DispatchDisable (R285). -/
def State.drained (s : State) (kind inst : Nat) : State :=
  match (s.inst kind inst).drainBy with
  | some f => (s.updInst kind inst fun i => { i with drainBy := none }).raiseOn f 0xFF50 0 0
      (le 1 kind ++ le 1 0 ++ le 2 inst ++ le 4 0 ++ le 8 s.block)
  | none => s

/-- The own part of DispatchEnable (R280, R283). Enabling an ENABLED instance has no effect. -/
def effDispatchEnable (r : Req) (s : State) : Eff :=
  let k := u8 r.payload 0
  let i := u16 r.payload 2
  nullTarget r (
  need (unitOk k i) .invalidArg (
  need ((s.inst k i).st != .draining && (s.inst k i).st != .retired) .wrongState (
  need (zeros r.payload 1 1) .invalidArg (
  .done [] 0 (s.updInst k i fun x => { x with st := .enabled })))))

/-- DISPATCH_ENABLE. -/
def execDispatchEnable (r : Req) (s : State) : Host.Outcome State Fault Refusal :=
  .next (s.command 0x0F51 (· == 4) r (effDispatchEnable r))

/-- The own part of DispatchStatsGet (Table 8.14): high water and stalls start again. -/
def effDispatchStatsGet (r : Req) (s : State) : Eff :=
  let k := u8 r.payload 0
  let i := u16 r.payload 2
  let l := instList k i
  let g := fun o => tget 0 s.work.stats (l * 64 + o)
  nullTarget r (
  need (unitOk k i && (k == 1 || i == 0)) .invalidArg (
  need (zeros r.payload 1 1) .invalidArg (
  .done (le 8 (g 0) ++ le 8 (g 8) ++ le 4 (g 16) ++ le 4 (g 20) ++ le 4 (g 24) ++ le 4 (g 28) ++
      le 2 (s.work.depth l) ++ le 2 (g 34) ++ le 2 (g 36) ++ le 2 (g 38)) 0
    (s.updWork fun w => { w with stats := tset (tset w.stats (l * 64 + 34) (w.depth l)) (l * 64 + 36) 0 }))))

/-- DISPATCH_STATS_GET. -/
def execDispatchStatsGet (r : Req) (s : State) : Host.Outcome State Fault Refusal :=
  .next (s.command 0x0F52 (· == 4) r (effDispatchStatsGet r))

/-- THROTTLED_SHARE_END: items at levels 3 to 0 may again be staged or started (R281). -/
def execThrottledShareEnd (s : State) : Host.Outcome State Fault Refusal :=
  .next (s.updWork fun w => { w with throttled := false })

end Sys2Proof.Machine
end

