-- ==== Sys2Proof/Machine/Dram.lean ====
section
/-!
DEFINITION. What a memory controller does with an access: fitting and areas (R533 to R537), interleave (R538 to R541), rows (R542,
R543), neighbour refresh (R548, R549), check codes, poison and write-backs (R561 to R566, R676, R677).
-/

namespace Sys2Proof.Machine

/-- The memory system changed. -/
def State.updMem (s : State) (f : Mem → Mem) : State := { s with mem := f s.mem }

/-! ### Fitting and areas -/

/-- DIMMs per memory channel. -/
def fitDimms : Nat := if Config.fitting.two then 2 else 1
/-- Ranks per DIMM. -/
def fitRanks : Nat := if Config.fitting.ranks2 then 2 else 1

/-- Capacity of a DDR5 memory channel in GiB (Table 17.1). -/
def fitGiB : Nat := fitDimms * (32 * fitRanks * (if Config.fitting.big then 2 else 1))

/-- The bytes of the spill area (R536). -/
def Mem.spillBytes (m : Mem) : Nat := m.spill * 2 ^ 28

/-- The first MiB of the recorder area, and its end (Table 17.2). -/
def Mem.recLo (m : Mem) : Nat := (0x40000000 + m.spillBytes + m.spillBytes / 32) / 2 ^ 20
def recHi : Nat := 8 * fitGiB * 1024

/-! ### Interleave (R538 to R541) -/

/-- The channel and local address of a DDR5 address. -/
def ddrMap (g a : Nat) : Nat × Nat :=
  let h := a / 2 ^ (g + 3)
  let fold := (h % 8).xor ((h / 8 % 8).xor (h / 64 % 8))
  ((a / 2 ^ g % 8).xor fold, h * 2 ^ g + a % 2 ^ g)

/-- Its inverse. -/
def ddrUnmap (g chan l : Nat) : Nat :=
  let h := l / 2 ^ g
  let fold := (h % 8).xor ((h / 8 % 8).xor (h / 64 % 8))
  h * 2 ^ (g + 3) + (chan.xor fold) * 2 ^ g + l % 2 ^ g

/-- The pseudo-channel and local address of an HBM3 address. -/
def hbmMap (g a : Nat) : Nat × Nat :=
  let x := a - 0x100000000000
  let h := x / 2 ^ (g + 5)
  let fold := (h % 32).xor (h / 32 % 32)
  ((x / 2 ^ g % 32).xor fold, h * 2 ^ g + x % 2 ^ g)

/-- The bank and row of a DDR5 local address (Table 17.4); the bank number holds DIMM, rank, subchannel, group and bank. -/
def ddrBank (l : Nat) : Nat × Nat :=
  let rank := if Config.fitting.ranks2 then l / 2 ^ 19 % 2 else 0
  let l2 := if Config.fitting.ranks2 then l / 2 ^ 20 else l / 2 ^ 19
  let dimm := if Config.fitting.two then l2 % 2 else 0
  let row := if Config.fitting.two then l2 / 2 else l2
  let group := (l / 2 ^ 14 % 8).xor (row % 8)
  let bank := (l / 2 ^ 17 % 4).xor (row / 8 % 4)
  (((dimm * 2 + rank) * 2 + l / 64 % 2) * 32 + group * 4 + bank, row)

/-- The bank and row of an HBM3 local address. -/
def hbmBank (l : Nat) : Nat × Nat :=
  let row := l / 2 ^ 14
  ((l / 2 ^ 10 % 4).xor (row % 4) * 4 + (l / 2 ^ 12 % 4).xor (row / 4 % 4), row)

/-- Channel, bank, row and local address of an internal address; HBM3 pseudo-channels follow the eight DDR5 channels. -/
def Mem.place (m : Mem) (a : Nat) : Nat × Nat × Nat × Nat :=
  if 0x100000000000 ≤ a then
    let (pc, l) := hbmMap m.g3 a
    (8 + pc, (hbmBank l).1, (hbmBank l).2, l)
  else
    let (c, l) := ddrMap m.g5 a
    (c, (ddrBank l).1, (ddrBank l).2, l)

/-- The channel and the local address of an internal address; HBM3 pseudo-channels follow the eight DDR5 channels. -/
def Mem.chanOf (m : Mem) (a : Nat) : Nat × Nat :=
  if 0x100000000000 ≤ a then (8 + (hbmMap m.g3 a).1, (hbmMap m.g3 a).2) else ddrMap m.g5 a

/-- The bytes of a location: a 64-byte burst of DDR5, a 32-byte access of HBM3. -/
def locBytes (c : Nat) : Nat := if c < 8 then 64 else 32

/-- A piece of an access: its channel, its local address, its bytes, and its offset within the access. -/
structure Piece where
  chan : Nat
  at_ : Nat
  len : Nat
  off : Nat
  deriving DecidableEq, Repr

/-- The first and the last location of a piece. -/
def Piece.lo (p : Piece) : Nat := p.at_ / locBytes p.chan
def Piece.hi (p : Piece) : Nat := (p.at_ + p.len - 1) / locBytes p.chan

/-- The pieces of an access to `n` bytes from `a`, one in each interleave grain. -/
def Mem.pieces (m : Mem) (a n : Nat) : List Piece :=
  let g := 2 ^ (if 0x100000000000 ≤ a then m.g3 else m.g5)
  (List.range (if n = 0 then 0 else ceilDiv (a % g + n) g)).map fun i =>
    let lo := max a (a / g * g + i * g)
    let hi := min (a + n) (a / g * g + (i + 1) * g)
    { chan := (m.chanOf lo).1, at_ := (m.chanOf lo).2, len := hi - lo, off := lo - a }

/-! ### Channels -/

/-- A memory channel at reset. -/
def MemChan.init : MemChan where
  window := false
  last := 0
  zq := 0
  temp := 0
  corrected := 0
  uncorrected := 0
  passes := 0
  forced := 0
  mostOwed := 0
  moved := 0
  warned := 0
  count := 0
  toldAt := none
  scrub := 0

/-- A channel, and a channel changed. -/
def Mem.chan (m : Mem) (c : Nat) : MemChan := tget MemChan.init m.chans c
def State.updChan (s : State) (c : Nat) (f : MemChan → MemChan) : State :=
  s.updMem fun m => { m with chans := tset m.chans c (f (m.chan c)) }

/-- A rank. -/
def Mem.rank (m : Mem) (c r : Nat) : RankRun := tget { owed := 0, burst := false } m.ranks (c * 4 + r)
/-- A rank changed. -/
def State.updRank (s : State) (c r : Nat) (f : RankRun → RankRun) : State :=
  s.updMem fun m => { m with ranks := tset m.ranks (c * 4 + r) (f (m.rank c r)) }

/-- A channel and rank that exist. -/
def rankOk (c r : Nat) : Bool := if c < 8 then decide (r < fitDimms * fitRanks) else decide (c < 40) && r == 0

/-- Locations of a channel: 64-byte bursts of DDR5, 32-byte accesses of HBM3. -/
def locations (c : Nat) : Nat := if c < 8 then fitGiB * 2 ^ 24 else 2 ^ 24

/-- The internal address of a location. -/
def Mem.addrOf (m : Mem) (c l : Nat) : Nat :=
  if c < 8 then ddrUnmap m.g5 c (l * 64)
  else
    let h := l * 32 / 2 ^ m.g3
    let fold := (h % 32).xor (h / 32 % 32)
    0x100000000000 + h * 2 ^ (m.g3 + 5) + ((c - 8).xor fold) * 2 ^ m.g3 + l * 32 % 2 ^ m.g3

/-- MemError (Table 17.13). -/
def State.memError (s : State) (c kind count l : Nat) : State :=
  s.raiseAll 0xFF60 (le 1 (if c < 8 then 1 else 2) ++ le 1 (if c < 8 then c else (c - 8) / 2) ++
    le 1 (if c < 8 then l % 2 else (c - 8) % 2) ++ le 1 kind ++ le 4 count ++ le 8 (s.mem.addrOf c l) ++ le 8 s.block)

/-- A correction counted; MemError at most once a second for each memory channel. -/
def State.corrected (s : State) (c l : Nat) : State :=
  let x := s.mem.chan c
  let due := match x.toldAt with | some t => decide (t + 1000000000 ≤ s.now) | none => true
  let s := s.updChan c fun x => { x with
    corrected := x.corrected + 1, count := if due then 0 else x.count + 1, toldAt := if due then some s.now else x.toldAt }
  if due then s.memError c 1 (x.count + 1) l else s

/-- An uncorrectable location counted; MemError of kinds 2 and 3 at most ten times a second. -/
def State.uncorrected (s : State) (c kind l : Nat) : State :=
  let sec := s.now / 1000000000
  let n := if s.mem.second = sec then s.mem.told else 0
  let s := (s.updChan c fun x => { x with uncorrected := x.uncorrected + 1 }).updMem fun m => { m with second := sec, told := n + 1 }
  if n < 10 then s.memError c kind 1 l else s

/-! ### Rows (R542, R543, R548, R549) -/

/-- The controller clock of a channel at a time: 1.6 GHz, 1.4 GHz where two DIMMs are fitted (R533, R535). -/
def memClock (c t : Nat) : Nat := if c < 8 ∧ fitDimms = 2 then t * 7 / 5 else t * 8 / 5

/-- The idle timer's value on a channel in controller clocks (R542). -/
def Mem.idle (m : Mem) (c : Nat) : Nat := if c < 8 then m.idle5 else m.idle3

/-- The rows of a bank (Table 17.4, R535). -/
def rowCount (c : Nat) : Nat := if c < 8 then (if Config.fitting.big then 2 ^ 17 else 2 ^ 16) else 2 ^ 15

/-- The rows one below and one above a row; row 0 and the highest row have one neighbour only (R548). -/
def neighbours (c row : Nat) : List Nat :=
  (if row = 0 then [] else [row - 1]) ++ (if row + 1 < rowCount c then [row + 1] else [])

/-- A bank precharged: its row closes, and then the neighbour refreshes that waited for it are issued (R548). -/
def State.precharge (s : State) (k : Nat) : State :=
  let l := s.mem.neigh.filter fun e => e.1 == k
  (s.emits (l.flatMap fun e => (neighbours (k / 1024) e.2).map fun r => .rowRefresh (k / 1024) (k % 1024) r)).updMem fun m => { m with
    rows := tdel m.rows k, neigh := m.neigh.filter fun e => e.1 != k
    neighDone := if l = [] then m.neighDone else tset m.neighDone (k / 1024) (tget 0 m.neighDone (k / 1024) + l.length) }

/-- The rank or pseudo-channel that a bank number of a channel lies in. -/
def rankOfBank (c b : Nat) : Nat := if c < 8 then b / 128 * fitRanks + b / 64 % 2 else 0

/-- `n` due refreshes issued to a rank: its banks are precharged for them, and the neighbour refreshes that wait follow behind, none
dropped (R544, R549). -/
def State.refreshRank (s : State) (c r n : Nat) : State :=
  let ks := ((s.mem.rows.map (·.1)) ++ s.mem.neigh.map (·.1)).eraseDups.filter fun k => k / 1024 == c && rankOfBank c (k % 1024) == r
  ks.foldl State.precharge (s.emits (List.replicate n (.refresh c r)))

/-- A row activated: k bits are drawn, and where all are 0 the rows beside it are to be refreshed (R548). -/
def State.openRow (s : State) (c k row : Nat) : State :=
  let bits := if c < 8 then s.mem.k5 else s.mem.k3
  let (free, s) := s.draw
  (s.drawn 8 bits).updMem fun m => { m with
    rows := tset m.rows k row, neigh := if free.toNat % 2 ^ bits = 0 then m.neigh ++ [(k, row)] else m.neigh }

/-- A state of which another has changed the memory system, the draws and the outputs only. -/
def State.memOnly (s t : State) : State := { s with mem := t.mem, fresh := t.fresh, onyx := t.onyx, out := t.out }

/-- An access to a row: the open row of its bank is kept or replaced, and its idle timer restarts; where the timer's value is 0 the
row closes at once (R542). -/
def State.touch (s : State) (c l : Nat) : State :=
  let (b, row) := if c < 8 then ddrBank l else hbmBank l
  let k := c * 1024 + b
  let t := if tget? s.mem.rows k = some row then s else (s.precharge k).openRow c k row
  s.memOnly (if t.mem.idle c = 0 then t.precharge k else t.updMem fun m => { m with touched := tset m.touched k s.now })

/-- The idle timer of a bank has run out: no access has reached the bank within its value, nor in the clock of its expiry (R543). -/
def State.idleOver (s : State) (c b : Nat) : Bool :=
  match tget? s.mem.touched (c * 1024 + b) with
  | some t => decide (memClock c t + s.mem.idle c ≤ memClock c s.now) && decide (memClock c t < memClock c s.now)
  | none => true

/-! ### Check codes and poison (R561 to R564, R676, R677) -/

/-- The key of a location. -/
def locKey (c l : Nat) : Nat := c * 2 ^ 36 + l

/-- The devices of a DDR5 burst, or the bits of one HBM3 word, that some wrong bits lie in: a burst has 16 beats of ten ×4 devices
(R561), an HBM3 access four words of 64 data and 8 check bits (R562). -/
def wrongUnits (c w : Nat) (errs : List Nat) : Nat :=
  if c < 8 then ((errs.map fun b => b % 40 / 4).eraseDups).length else ((errs.filter fun b => b / 72 == w).eraseDups).length

/-- What a code that corrects one and detects two makes of `n` wrong units: 0 good, 1 corrected, 2 uncorrectable. Of more than two the
spec says nothing: a free value. -/
def codeOutcome (n : Nat) (errs : List Nat) : Nat := if n ≤ 2 then n else (Config.beyondCode errs).val

/-- What a read of a location finds: the words it delivers poisoned, as a mask, and whether it corrected something. `dead` is the mask
of words that carry the reserved check pattern (R563). -/
def readLoc (c : Nat) (errs : List Nat) (dead : Nat) : Nat × Bool :=
  if c < 8 then
    let out := codeOutcome (wrongUnits c 0 errs) errs
    if dead ≠ 0 ∨ out = 2 then (255, false) else (0, out == 1)
  else
    let out (w : Nat) : Nat := if dead.testBit w then 2 else codeOutcome (wrongUnits c w errs) (errs.filter fun b => b / 72 == w)
    (((List.range 4).map fun w => if out w = 2 then 2 ^ w else 0).sum, (List.range 4).any fun w => out w == 1)

/-- What a read of one location finds in the memory as it stands. -/
def Mem.found (m : Mem) (c l : Nat) : Nat × Bool := readLoc c (tget [] m.errs (locKey c l)) (tget 0 m.dead (locKey c l))

/-- The locations of a piece that do not read as good. -/
def Mem.suspects (m : Mem) (p : Piece) : List Nat :=
  ((m.errs.map (·.1)) ++ m.dead.map (·.1)).eraseDups.filterMap fun k =>
    if k / 2 ^ 36 = p.chan ∧ p.lo ≤ k % 2 ^ 36 ∧ k % 2 ^ 36 ≤ p.hi then some (k % 2 ^ 36) else none

/-- A location read: a correction is counted and its write-back is due, an uncorrectable one is counted and told (R563, R564). -/
def State.readOne (s : State) (c kind l : Nat) : State :=
  let (bad, fixed) := s.mem.found c l
  let s := if fixed then (s.updMem fun m => { m with fixes := m.fixes ++ [(c, l)] }).corrected c l else s
  if bad = 0 then s else s.uncorrected c kind l

/-- `n` bytes read from an internal address: the offsets of the words that come poisoned. -/
def State.memRead (s : State) (a n : Nat) : State × List Nat :=
  (s.mem.pieces a n).foldl (fun r p =>
    let m := r.1.mem
    let bad := (m.suspects p).flatMap fun l => (List.range 8).filterMap fun w =>
      let x := l * locBytes p.chan + 8 * w
      if (m.found p.chan l).1.testBit w && decide (x < p.at_ + p.len) && decide (p.at_ < x + 8) then some (p.off + x - p.at_) else none
    ((m.suspects p).foldl (fun s l => s.readOne p.chan 2 l) (r.1.touch p.chan p.at_), r.2 ++ bad)) (s, [])

/-- A location written from byte `lo` up to byte `hi` of it: what it covers whole is clean again; of what it covers in part, the
uncorrectable keeps its state by the reserved check pattern, and the correctable is corrected (R563, R677). DDR5 is covered
by the burst, HBM3 by the word. -/
def Mem.writeLoc (m : Mem) (c l lo hi : Nat) : Mem :=
  let k := locKey c l
  let errs := tget [] m.errs k
  let bad := (m.found c l).1
  let whole (w : Nat) : Bool := if c < 8 then lo == 0 && hi == 64 else decide (lo ≤ 8 * w) && decide (8 * w + 8 ≤ hi)
  let hit (w : Nat) : Bool := c < 8 || (decide (lo < 8 * w + 8) && decide (8 * w < hi))
  let dead := ((List.range 8).map fun w => if (if hit w then bad.testBit w && !whole w else (tget 0 m.dead k).testBit w) then 2 ^ w else 0).sum
  let left := errs.filter fun b => c ≥ 8 && !hit (b / 72)
  { m with errs := if left = [] then tdel m.errs k else tset m.errs k left, dead := if dead = 0 then tdel m.dead k else tset m.dead k dead }

/-- A location written back corrected: what is uncorrectable in it stays (R564). -/
def Mem.fixLoc (m : Mem) (c l : Nat) : Mem :=
  let k := locKey c l
  let bad := (m.found c l).1
  let left := (tget [] m.errs k).filter fun b => bad.testBit (if c < 8 then 0 else b / 72)
  { m with errs := if left = [] then tdel m.errs k else tset m.errs k left, fixes := m.fixes.filter fun e => e != (c, l) }

/-- `n` bytes written from an internal address; the write-backs due to the locations it reaches are dropped (R566). -/
def State.memWrite (s : State) (a n : Nat) : State :=
  (s.mem.pieces a n).foldl (fun s p =>
    (s.touch p.chan p.at_).updMem fun m =>
      let m := (m.suspects p).foldl (fun m l =>
        let o := l * locBytes p.chan
        m.writeLoc p.chan l (p.at_ - o) (min (locBytes p.chan) (p.at_ + p.len - o))) m
      { m with fixes := m.fixes.filter fun e => !(e.1 == p.chan && decide (p.lo ≤ e.2) && decide (e.2 ≤ p.hi)) }) s

/-! ### Real-time bursts (R545) -/

/-- A real-time burst marked on a rank. -/
def State.markBurst (s : State) (c r : Nat) : State := s.updRank c r fun x => { x with burst := true }

end Sys2Proof.Machine
end

