-- ==== Sys2Proof/Machine/Pins.lean ====
section
/-!
DEFINITION. The levels of the FCTL and PPS pins (R589, R738, R762, R764, Table 25.10).
-/

namespace Sys2Proof.Machine

/-- The notice mode: 0 none, 1 watermark, 2 stale-tail (Table 13.12). -/
def Queue.mode (q : Queue) : Nat := u8 q.notice 0
/-- The notice flags: bit 0 events, bit 1 FCTL, bit 2 PFC. -/
def Queue.flag (q : Queue) (b : Nat) : Bool := u8 q.notice 1 / 2 ^ b % 2 == 1
/-- The FCTL pin. -/
def Queue.pin (q : Queue) : Nat := u8 q.notice 10
/-- Some queue mapped to FCTL pin `n` has its notice asserted (R442). -/
def State.fctl (s : State) (n : Nat) : Bool :=
  s.net.queues.any fun e => e.2.mode == 1 && e.2.flag 1 && e.2.asserted && e.2.pin == n

/-- The level FCTL pin `n` shows: ASSERTED or the forced value, with its polarity; released pins are pulled up
(Table 25.10). -/
def State.fctlLevel (s : State) (n : Nat) : Nat :=
  let act := if s.pins.forceEn.getLsbD n then s.pins.force.getLsbD n else s.fctl n
  if !s.pins.applied || !s.pins.fctlOe.getLsbD n then 1
  else if s.pins.actLow.getLsbD n then (if act then 0 else 1)
  else if act then 1 else 0

/-- FCTL pin `n` driven where its level changes from what it was in `s0`. -/
def State.driveFctl (s s0 : State) (n : Nat) : State :=
  if s.fctlLevel n = s0.fctlLevel n then s else s.emit (.pin 0 n (s.fctlLevel n))

/-- The FCTL pins driven where their levels differ from those of `s0`. -/
def State.driveAll (s s0 : State) : State := (List.range 8).foldl (fun s n => s.driveFctl s0 n) s

/-- A pulse program at reset (Table 18.7). -/
def Pulse.init : Pulse where
  armed := false
  pol := false
  late := false
  startNs := 0
  startLo := 0
  startHi := 0
  period := 0
  width := 0
  count := 0
  done := 0
  k := 0
  opened := false

/-- The program of a pin. -/
def State.pulse (s : State) (n : Nat) : Pulse := tget Pulse.init s.quartz.pulses n

/-- The level a program gives its pin. -/
def Pulse.level (x : Pulse) : Nat := if x.opened = x.pol then 0 else 1

/-- The pins in the states of Table 24.11, whatever the registers hold: outputs off, each released pin pulled up (R738, R762). -/
def State.pinsOff (s : State) : State :=
  let low (n : Nat) : Bool := s.pins.applied && s.pins.ppsOe.getLsbD n && (s.pulse n).level == 0
  (State.driveAll { s with pins := { s.pins with applied := false } } s).emits (((List.range 4).filter low).map fun n => .pin 1 n 1)

end Sys2Proof.Machine
end

