-- ==== Sys2Proof/Machine/Packet.lean ====
section
/-!
DEFINITION. The packet engine's queues, notices, ports and host rings (R417 to R450). What a received frame does to the
leg it belongs to stands with the legs; classification stands in Ingress.lean.
-/

namespace Sys2Proof.Machine

/-- The packet engine changed. -/
def State.updNet (s : State) (f : Net → Net) : State := { s with net := f s.net }

/-- A port changed. -/
def State.updPort (s : State) (p : Nat) (f : Port → Port) : State :=
  s.updNet fun n => { n with ports := tset n.ports p (f (s.port p)) }

/-- A port statistic raised (offsets of Table 13.14). -/
def State.portBump (s : State) (p off n : Nat) : State :=
  s.updPort p fun x => { x with stats := tset x.stats off (tget 0 x.stats off + n) }

/-! ### Ethernet frames -/

/-- One bit of the reflected IEEE 802.3 CRC-32. -/
def fcsBit (c : BitVec 32) : BitVec 32 := if c.getLsbD 0 then (c >>> 1) ^^^ 0xEDB88320#32 else c >>> 1

/-- One byte of the FCS. -/
def fcsByte (c : BitVec 32) (b : Byte) : BitVec 32 :=
  fcsBit (fcsBit (fcsBit (fcsBit (fcsBit (fcsBit (fcsBit (fcsBit (c ^^^ b.setWidth 32))))))))

/-- The FCS of a frame's bytes. -/
def fcs (b : Bytes) : BitVec 32 := (b.foldl fcsByte 0xFFFFFFFF#32) ^^^ 0xFFFFFFFF#32

/-- A frame padded to 60 bytes with its FCS behind it. -/
def withFcs (b : Bytes) : Bytes :=
  let b := b ++ List.replicate (60 - b.length) 0
  b ++ le 4 (fcs b).toNat

/-- The PFC frame of R443 for a port's address, a priority and a pause time. -/
def pfcFrame (src : Bytes) (prio time : Nat) : Bytes :=
  withFcs ([0x01, 0x80, 0xC2, 0x00, 0x00, 0x01] ++ padTo 6 src ++ be 2 0x8808 ++ be 2 0x0101 ++ be 2 (2 ^ prio) ++
    ((List.range 8).map fun i => be 2 (if i = prio then time else 0)).flatten)

/-! ### Queues -/

/-- The bytes a record fills: its header and the packet padded to 8 (R432). -/
def Rec.size (r : Rec) : Nat := 24 + (r.data.length + 7) / 8 * 8

/-- The record as the queue holds it: the header of Table 13.3, the packet, and zeros up to a multiple of 8. -/
def Rec.bytes (r : Rec) : Bytes :=
  le 2 r.data.length ++ le 1 r.kind ++ le 1 r.flags ++ le 4 r.obj ++ le 8 (r.arrival / 2) ++ le 8 (r.deadline / 2) ++
  padTo ((r.data.length + 7) / 8 * 8) r.data

/-- The parity bit of a 64-bit word: set so that the 65 bits hold an even number of ones (R438). -/
def parity64 (n : Nat) : Bool :=
  let n := n.xor (n / 2 ^ 32)
  let n := n.xor (n / 2 ^ 16)
  let n := n.xor (n / 2 ^ 8)
  let n := n.xor (n / 2 ^ 4)
  let n := n.xor (n / 2 ^ 2)
  n.xor (n / 2) % 2 == 1

/-- The parity bits of `n` words. -/
def wordParity : Nat → Bytes → List Bool
  | 0, _ => []
  | n + 1, b => parity64 (u64 b 0) :: wordParity n (b.drop 8)

/-- The record with the parity of every word stored beside it. -/
def Rec.stored (r : Rec) : Rec := { r with par := wordParity (r.size / 8) r.bytes }

/-- The words of a record that are poisoned: those marked, and those whose parity check fails (R438). -/
def Rec.bad (r : Rec) : List Nat :=
  (r.marks ++ (((r.par.zip (wordParity (r.size / 8) r.bytes)).zipIdx.filter fun e => e.1.1 != e.1.2).map (·.2))).eraseDups

/-- A poisoned packet (R439). -/
def Rec.poisoned (r : Rec) : Bool := r.flags % 2 == 1 || !r.bad.isEmpty

/-- The byte offsets in a record's data of its poisoned words. -/
def Rec.poisonAt (r : Rec) : List Nat := (r.bad.filter fun w => decide (3 ≤ w)).map fun w => 8 * (w - 3)

/-- A queue's fill in bytes. -/
def Queue.fill (q : Queue) : Nat := (q.recs.map Rec.size).sum

/-- A queue's capacity in bytes (R429). -/
def Queue.cap (q : Queue) : Nat := 512 + 1024 * q.spill

/-- A queue at its creation: empty, notice mode none. -/
def Queue.init (spill now : Nat) : Queue where
  spill := spill
  recs := []
  head := 0
  cells := []
  tail := 0
  held := none
  waiting := []
  notice := List.replicate 22 0
  asserted := false
  lastRead := now
  pushed := false
  lastPushEvent := 0
  stats := []

/-- The high watermark. -/
def Queue.hw (q : Queue) : Nat := u32 q.notice 2
/-- The low watermark. -/
def Queue.lw (q : Queue) : Nat := u32 q.notice 6
/-- The PFC port. -/
def Queue.pfcPort (q : Queue) : Nat := u8 q.notice 11
/-- The PFC priority. -/
def Queue.pfcPrio (q : Queue) : Nat := u8 q.notice 12
/-- The stale timeout in µs. -/
def Queue.stale (q : Queue) : Nat := u32 q.notice 14

/-- A statistic of a queue raised (offsets of Table 13.13). -/
def Queue.bump (q : Queue) (off n : Nat) : Queue := { q with stats := tset q.stats off (tget 0 q.stats off + n) }

/-- A queue by its ID. -/
def State.queue? (s : State) (id : Nat) : Option Queue := tget? s.net.queues id

/-- A queue replaced. -/
def State.setQueue (s : State) (id : Nat) (q : Queue) : State := s.updNet fun n => { n with queues := tset n.queues id q }

/-- A queue created with its owner (R428). -/
def State.addQueue (s : State) (id spill : Nat) : State := s.setQueue id (Queue.init spill s.now)

/-- The mailbox that hears of a queue: its owner's creator, the ring's function, or none (R450). -/
def State.queueMbx (s : State) (id : Nat) : Option Nat :=
  let own (k : Nat) : Option Nat := (s.obj k).map (·.owner)
  if id < 0x4000 then own (okey 2 id)
  else if id < 0x8000 then own (okey 2 (id - 0x4000))
  else if id < 0xA000 then own (okey 3 (id - 0x8000))
  else if id < 0xB000 then own (okey 5 ((id - 0xA000) / 4))
  else if id < 0xB010 then own (okey 6 (id - 0xB000))
  else if 0xB100 ≤ id ∧ id < 0xB140 then own (okey 9 (504 + (id - 0xB100)))
  else if 0xB300 ≤ id ∧ id < 0xB308 then some ((id - 0xB300) / 2)
  else none

/-- A queue ID of Table 13.2 whose owner lives; the link and firmware queues always exist. -/
def State.queueLives (s : State) (id : Nat) : Bool :=
  thas s.net.queues id || (decide (0xB200 ≤ id) && decide (id < 0xB240)) || (decide (0xF000 ≤ id) && decide (id < 0x10000)) ||
  (decide (0xB300 ≤ id) && decide (id < 0xB308))

/-- QueueNotice for a queue: kind 1 asserted, 2 released, 3 stale push (Table 13.8). -/
def State.queueEvent (s : State) (id kind fill : Nat) : State :=
  match s.queueMbx id with
  | some f => s.raiseOn f 0xFB01 0 0 (le 2 id ++ le 1 kind ++ le 1 0 ++ le 4 fill ++ le 8 s.block)
  | none => s

/-- Some queue asserts PFC on a port and priority (R443). -/
def State.pfcOn (s : State) (port prio : Nat) : Bool :=
  s.net.queues.any fun e => e.2.mode == 1 && e.2.flag 2 && e.2.asserted && e.2.pfcPort == port && e.2.pfcPrio == prio

/-- The 8 bits of a byte, bit 1 of the timeslot first. -/
def toBits (b : Nat) : List Bool := (List.range 8).map fun i => b / 2 ^ (7 - i) % 2 == 1

/-- CRC-16 of G.7041, polynomial x^16 + x^12 + x^5 + 1, initial value 0. -/
def crc16Bit (c : BitVec 16) (b : Bool) : BitVec 16 :=
  if c.getLsbD 15 != b then (c <<< 1) ^^^ 0x1021#16 else c <<< 1

/-- CRC-16 of some bytes. -/
def crc16 (b : Bytes) : BitVec 16 := ((b.map fun x => toBits x.toNat).flatten).foldl crc16Bit 0

/-- One bit of the payload scrambler x^43 + 1 (R618): its last 43 scrambled bits, and the bit that comes out; `rx` for the
descrambler, which keeps what comes in. -/
def scrambleBit (rx : Bool) (a : BitVec 43 × List Bool) (b : Bool) : BitVec 43 × List Bool :=
  let o := b != a.1.getLsbD 42
  ((a.1 <<< 1) ||| (if (if rx then b else o) then 1#43 else 0#43), a.2 ++ [o])

/-- Bytes scrambled or descrambled, the first bit of each first. -/
def scramble (rx : Bool) (k : BitVec 43) : Bytes → BitVec 43 × Bytes
  | [] => (k, [])
  | b :: l =>
    let (k, o) := (toBits b.toNat).foldl (scrambleBit rx) (k, [])
    let (k, t) := scramble rx k l
    (k, BitVec.ofNat 8 (o.foldl (fun n b => 2 * n + (if b then 1 else 0)) 0) :: t)

/-- A core header with the DC balance code of G.7041 on or off it. -/
def gfpBalance (h : Bytes) : Bytes := be 4 (bfld h 0 4 ^^^ 0xB6AB31E0)

/-- The core header of a GFP frame: the length of its payload area with its cHEC. -/
def gfpHead (pli : Nat) : Bytes := gfpBalance (be 2 pli ++ be 2 (crc16 (be 2 pli)).toNat)

/-- The payload area of an Ethernet frame in a GFP frame (R618): type header with PTI 000, EXI 0000 and UPI 0x01, and the pFCS where
the group sends one. -/
def gfpArea (pfcs : Bool) (f : Bytes) : Bytes :=
  let ty := be 2 ((if pfcs then 0x1000 else 0) + 1)
  ty ++ be 2 (crc16 ty).toNat ++ f ++ (if pfcs then be 4 (fcs f).toNat else [])

/-- An Ethernet frame in a GFP frame, its payload area scrambled; the scrambler after it. -/
def gfpFrame (k : BitVec 43) (pfcs : Bool) (f : Bytes) : BitVec 43 × Bytes :=
  let (k, a) := scramble false k (gfpArea pfcs f)
  (k, gfpHead a.length ++ a)

/-- The group that a home lane carries: the one in force (R619). -/
def State.carrier (s : State) (port : Nat) : Option (Nat × Vcat) := (s.homeGroups port).find? fun e => s.flows (okey 9 (504 + e.1))

/-- A frame as it leaves a port: in GFP on a home lane (R618, R619). -/
def State.onWire (s : State) (port : Nat) (f : Bytes) : Bytes :=
  match s.carrier port with
  | some e => (gfpFrame e.2.scrTx e.2.pfcs f).2
  | none => f

/-- The scrambler of a home lane's group after a frame. -/
def State.scrambled (s : State) (port : Nat) (f : Bytes) : State :=
  match s.carrier port with
  | some e => { s with framer := { s.framer with groups := tset s.framer.groups e.1 { e.2 with scrTx := (gfpFrame e.2.scrTx e.2.pfcs f).1 } } }
  | none => s

/-- A frame sent on a port whose link is up, counted (Table 13.14). -/
def State.sendFrame (s : State) (port : Nat) (f : Bytes) : State :=
  if (s.port port).up then (((s.scrambled port f).emit (.frame port (s.onWire port f))).portBump port 8 1).portBump port 24 f.length else s

/-- The VLAN priority of a frame: its PCP, 0 when untagged (R419). -/
def framePrio (d : Bytes) : Nat := if bfld d 12 2 = 0x8100 then u8 d 14 / 32 else 0

/-- The priority of a head is paused under R419. -/
def State.paused (s : State) (port prio : Nat) : Bool :=
  match tget? (s.port port).paused prio with | some t => decide (s.now < t) | none => false

/-- A frame of queue `q` that reaches its port past the scheduler, from Onyx or made by the bridge: while its priority is paused it
waits, behind what waits there (R419). -/
def State.sendPaced (s : State) (port q deadline : Nat) (f : Bytes) : State :=
  if s.paused port (framePrio f) || (s.port port).parked.any fun e => framePrio e.2.2 == framePrio f then
    s.updPort port fun x => { x with parked := x.parked ++ [(deadline, q, f)] }
  else s.sendFrame port f

/-- A PFC frame sent on a port whose link is up (R443, R444). -/
def State.sendPfc (s : State) (port prio time : Nat) : State :=
  if (s.port port).up then (s.sendFrame port (pfcFrame (s.port port).mac prio time)).portBump port 76 1 else s

/-- A change of the notices carried outside: pins, PFC frames of assertion and release (R442, R443). `s0` is the state
before the change. -/
def State.noticeOut (s s0 : State) (port prio pin : Nat) : State :=
  let s := s.driveFctl s0 pin
  if !s0.pfcOn port prio && s.pfcOn port prio then s.sendPfc port prio (s.port port).quanta
  else if s0.pfcOn port prio && !s.pfcOn port prio then s.sendPfc port prio 0
  else s

/-- The watermarks of a queue evaluated on its fill (R441). -/
def State.evalNotice (s : State) (id : Nat) : State :=
  match s.queue? id with
  | none => s
  | some q =>
    if q.mode ≠ 1 then s
    else
      let on := if q.asserted then decide (q.lw < q.fill) else decide (q.hw ≤ q.fill)
      if on = q.asserted then s
      else
        let q' := { q with asserted := on }
        let s' := (s.setQueue id (if on then q'.bump 60 1 else q')).noticeOut s q.pfcPort q.pfcPrio q.pin
        if q.flag 0 then s'.queueEvent id (if on then 1 else 2) q.fill else s'

/-! ### Head, middle and tail (R429, R430, R433) -/

/-- The spill memory of a queue is DDR5 for recorder partitions and VCAT groups, HBM3 for the others (R429). -/
def deepQueue (id : Nat) : Bool := (decide (0xB000 ≤ id) && decide (id < 0xB010)) || (decide (0xB100 ≤ id) && decide (id < 0xB140))

/-- The internal address of a cell of a queue's spill memory, and that of its tag (Tables 17.2 and 17.3). -/
def cellAddr (id c : Nat) : Nat := (if deepQueue id then 0x40000000 else 0x100020000000) + 256 * c
def Mem.tagAddr (m : Mem) (id c : Nat) : Nat := (if deepQueue id then 0x40000000 + m.spillBytes else 0x1000A0000000) + 8 * c

/-- The cells in a queue's spill memory. -/
def Mem.poolSize (m : Mem) (id : Nat) : Nat := if deepQueue id then m.spillBytes / 256 else 8388608

/-- The cells of a pool that queues hold. -/
def State.cellsUsed (s : State) (id : Nat) : List Nat :=
  (s.net.queues.filter fun e => deepQueue e.1 == deepQueue id).flatMap fun e => e.2.cells

/-- A free cell of a queue's pool; which one, the spec leaves open. -/
def State.freeCell (s : State) (id : Nat) : Nat × State :=
  let (free, s) := s.draw
  let used := s.cellsUsed id
  let n := s.mem.poolSize id
  let at_ (i : Nat) : Nat := if n = 0 then 0 else (free.toNat + i) % n
  ((((List.range (used.length + 1)).map at_).find? fun c => !used.contains c).getD 0, s)

/-- The poisoned words of some records among the 32 from word `lo` on, as a mask; `o` is the place of the first record. -/
def cellPoison (lo : Nat) : Nat → List Rec → Nat
  | _, [] => 0
  | o, r :: rs =>
    ((r.bad.filter fun w => decide (lo ≤ o + w) && decide (o + w < lo + 32)).map fun w => 2 ^ (o + w - lo)).sum +
      cellPoison lo (o + r.size / 8) rs

/-- Those words as they stand in memory: their poison is the cell's tag's, and they have parity again when they come back. -/
def cellClean (lo : Nat) : Nat → List Rec → List Rec
  | _, [] => []
  | o, r :: rs =>
    let out (w : Nat) : Bool := !(decide (lo ≤ o + w) && decide (o + w < lo + 32))
    { r with marks := r.marks.filter out
             par := ((r.par.zip (wordParity (r.size / 8) r.bytes)).zipIdx.map fun e => if out e.2 then e.1.1 else e.1.2) } ::
      cellClean lo (o + r.size / 8) rs

/-- A word of some records marked poisoned. -/
def markWord : Nat → List Rec → List Rec
  | _, [] => []
  | w, r :: rs => if w < r.size / 8 then { r with marks := if r.marks.contains w then r.marks else r.marks ++ [w] } :: rs
                  else r :: markWord (w - r.size / 8) rs

/-- The oldest 256 bytes of the tail written to the middle as one cell, with its tag (R430, R433); `done` bytes of the first record
have been read. The tag of the cell before it takes its index as NEXT. -/
def State.spillTail (s : State) (id done : Nat) : State :=
  match s.queue? id with
  | none => s
  | some q =>
    let (c, s) := s.freeCell id
    let lo := (done + q.head + 256 * q.cells.length) / 8
    let tag (t : Table (BitVec 64)) : Table (BitVec 64) :=
      let t := match q.cells.getLast? with
        | some p => tupd t (s.mem.tagAddr id p) fun x => (x &&& 0xFFFFFFFF#64) ||| (BitVec.ofNat 64 (c % 2 ^ 24) <<< 32)
        | none => t
      tset t (s.mem.tagAddr id c) (BitVec.ofNat 64 (cellPoison lo 0 q.recs))
    let s := (s.setQueue id { q with recs := cellClean lo 0 q.recs, cells := q.cells ++ [c], tail := q.tail - 256 }).updNet fun n => { n with tags := tag n.tags }
    (s.memWrite (cellAddr id c) 256).memWrite (s.mem.tagAddr id c) 8

/-- `n` bytes that have entered the tail: what fills a free head goes there, a full tail goes to the middle while the allowance has
room (R430). In stale-tail mode the head takes whole cells only (R445). -/
def State.pushBytes (id : Nat) : Nat → Nat → State → State
  | 0, _, s => s
  | f + 1, n, s =>
    match s.queue? id with
    | none => s
    | some q =>
      if n = 0 then s
      else
        let t := if q.tail < 256 then min n (256 - q.tail) else n
        let q := { q with tail := q.tail + t }
        if q.head = 0 ∧ q.cells = [] ∧ q.tail ≤ 256 ∧ (u8 q.notice 0 ≠ 2 ∨ q.tail = 256) then
          State.pushBytes id f (n - t) (s.setQueue id { q with head := q.tail, tail := 0 })
        else if q.tail = 256 ∧ q.cells.length < 4 * q.spill then State.pushBytes id f (n - t) ((s.setQueue id q).spillTail id 0)
        else State.pushBytes id f (n - t) (s.setQueue id q)

/-- A record put at the end of a queue, counted. -/
def Queue.put (q : Queue) (r : Rec) : Queue :=
  let q := { q with recs := q.recs ++ [r.stored] }
  let q := (q.bump 0 1).bump 16 r.size
  { q with stats := tset q.stats 36 (max (tget 0 q.stats 36) q.fill) }

/-- A record written to a queue that has room for it, and the watermarks evaluated. -/
def State.enqueue (s : State) (id : Nat) (q : Queue) (r : Rec) : State :=
  (State.pushBytes id (r.size / 256 + 2) r.size (s.setQueue id (q.put r))).evalNotice id

/-- A write to a queue (R430, R435, R436): put where it fits; a line-fed producer holds one packet and refuses the
next; another producer's write waits. -/
def State.writeQueue (s : State) (id : Nat) (r : Rec) (lineFed : Bool) : State :=
  match s.queue? id with
  | none => s
  | some q =>
    if q.held.isNone && q.waiting.isEmpty && decide (q.fill + r.size ≤ q.cap) then s.enqueue id q r
    else if lineFed then
      if q.held.isNone then s.setQueue id { q with held := some r }
      else
        (s.setQueue id (q.bump 40 1)).objCount r.obj 6 1
    else s.setQueue id { q.bump 44 1 with waiting := q.waiting ++ [r] }

/-- A packet of a leg counted as late-refused (R120): in Table 6.14 or Table 11.8. -/
def State.lateRefused (s : State) (handle : Nat) : State :=
  let i := handle % 2 ^ 20
  if handle / 2 ^ 27 = 2 then s.updLeg (okey 2 i) fun l => { l with stats := { l.stats with late := l.stats.late + 1 } }
  else if handle / 2 ^ 27 = 3 then
    { s with video := { s.video with legs := tupd s.video.legs i fun l => { l with stats := tset l.stats 16 (tget 0 l.stats 16 + 1) } } }
  else s

/-- A held write completed where it now fits: the held packet first, then waiting writes (R435). A held packet whose deadline has
passed is refused (R436). -/
def State.resumeQueue (s : State) (id : Nat) : State :=
  match s.queue? id with
  | none => s
  | some q =>
    match q.held, q.waiting with
    | some r, _ => if r.deadline ≠ 0 ∧ r.deadline < s.now then (s.setQueue id { q with held := none }).lateRefused r.obj
                   else if q.fill + r.size ≤ q.cap then s.enqueue id { q with held := none } r else s
    | none, r :: w => if q.fill + r.size ≤ q.cap then s.enqueue id { q with waiting := w } r else s
    | none, [] => s

/-- A poisoned record header or cell tag: every record dropped and counted, the middle cells back in their pool, QueuePoison with
FLUSHED (R440). -/
def State.flushQueue (s : State) (id words : Nat) : State :=
  match s.queue? id with
  | none => s
  | some q =>
    let s := q.recs.foldl (fun s r => s.objCount r.obj 7 1) s
    let s' := (s.setQueue id (({ q with recs := [], head := 0, cells := [], tail := 0 }.bump 52 1).bump 48 words)).evalNotice id
    match s'.queueMbx id with
    | some f => s'.raiseOn f 0xFB02 0 0 (le 2 id ++ le 1 1 ++ le 1 0 ++ le 4 words ++ le 8 s'.block)
    | none => s'

/-- The head buffer of a queue refilled: from the oldest cell of the middle, or where there is none from the tail (R430). `done` bytes of
the first record have been read. Words that the tag or the memory gives as poisoned are marked; a tag that cannot be read
loses the chain (R439, R440). The refill of an audio or forwarded-video queue is real-time (R545). -/
def State.refill (s : State) (id done : Nat) : State :=
  match s.queue? id with
  | none => s
  | some q =>
    match q.cells with
    | [] => if u8 q.notice 0 = 2 ∧ q.pushed = false ∧ q.tail < 256 then s
            else s.setQueue id { q with head := min 256 q.tail, tail := q.tail - min 256 q.tail }
    | c :: cs =>
      let a := cellAddr id c
      let s := if id < 0xA000 then (s.mem.pieces a 256).foldl (fun s p => s.markBurst p.chan 0) s else s
      let (s, lost) := s.memRead (s.mem.tagAddr id c) 8
      if lost ≠ [] then s.flushQueue id lost.length
      else
        let (s, bad) := s.memRead a 256
        let tag := tget 0 s.net.tags (s.mem.tagAddr id c)
        let hit := (List.range 32).filter fun w => tag.getLsbD w || bad.contains (8 * w)
        let s := s.updNet fun n => { n with tags := tdel n.tags (s.mem.tagAddr id c) }
        let q := { q with head := 256, cells := cs, recs := hit.foldl (fun l w => markWord (done / 8 + w) l) q.recs }
        let s := s.setQueue id q
        if 256 ≤ q.tail then s.spillTail id done else s

/-- `n` bytes read from a queue, `done` of its first record before them. -/
def State.pullBytes (id : Nat) : Nat → Nat → Nat → State → State
  | 0, _, _, s => s
  | f + 1, n, done, s =>
    match s.queue? id with
    | none => s
    | some q =>
      let t := min n q.head
      let s := s.setQueue id { q with head := q.head - t }
      let s := if q.head ≤ n then s.refill id (done + t) else s
      if n ≤ t then s else State.pullBytes id f (n - t) (done + t) s

/-- The bytes a consumer is offered: all, in stale-tail mode the whole cells and a tail that has been pushed (R445). -/
def Queue.offered (q : Queue) : Nat :=
  if q.mode = 2 ∧ q.pushed = false then q.head + 256 * q.cells.length + q.tail / 256 * 256 else q.fill

/-- The record at the head of a queue that its consumer is offered. -/
def State.front (s : State) (id : Nat) : Option Rec :=
  (s.queue? id).bind fun q => match q.recs with
    | r :: _ => if q.mode ≠ 2 ∨ r.size ≤ q.offered then some r else none
    | [] => none

/-- The head record taken from a queue by its consumer (R431), every word of it checked (R438); a poisoned header flushes the queue
(R440). -/
def State.readQueue (s : State) (id : Nat) : State × Option Rec :=
  match s.front id with
  | none => (s, none)
  | some r =>
    let s := State.pullBytes id (r.size / 256 + 2) r.size 0 s
    match s.queue? id with
    | none => (s, none)
    | some q =>
      match q.recs with
      | [] => (s, none)
      | r :: rest =>
        let bad := r.bad
        if bad.any fun w => decide (w < 3) then (s.flushQueue id bad.length, none)
        else
          let q := (({ q with recs := rest, lastRead := s.now, pushed := q.pushed && decide (0 < q.tail) }.bump 8 1).bump 24 r.size).bump 48 bad.length
          ((s.setQueue id q).evalNotice id, some { r with marks := bad, par := [] })

/-- A queue gone with its owner: its packets dropped (R437). -/
def State.dropQueue (s : State) (id : Nat) : State :=
  match s.queue? id with
  | none => s
  | some q =>
    let s' := s.setQueue id { q with recs := [], asserted := false }
    let s' := if q.asserted then s'.noticeOut s q.pfcPort q.pfcPrio q.pin else s'
    s'.updNet fun n => { n with queues := tdel n.queues id }

/-- QUEUE_WRITE_RESUME (R435). -/
def execQueueWriteResume (queue : Nat) (s : State) : Host.Outcome State Fault Refusal := .next (s.resumeQueue queue)

/-- PFC_REFRESH: the PFC frame of an asserted notice is sent again (R443). -/
def execPfcRefresh (port prio : Nat) (s : State) : Host.Outcome State Fault Refusal :=
  .next (if s.pfcOn port prio then s.sendPfc port prio (s.port port).quanta else s)

/-- A port's link goes up or down: PortState on every mailbox, and a PFC frame for each notice still asserted when the
link comes up (R444, R450). -/
def State.setLink (s : State) (port : Nat) (up : Bool) : State :=
  let s := s.updPort port fun p => { p with up := up, linkBlock := s.block }
  let s := if up then (List.range 8).foldl (fun s i => if s.pfcOn port i then s.sendPfc port i (s.port port).quanta else s) s
           else s
  s.raiseAll 0xFB00 (le 1 port ++ le 1 (if up then 1 else 0) ++ le 6 0 ++ le 8 s.block)

/-- LINK_STATE_CHANGE. -/
def execLinkStateChange (port : Nat) (up : Bool) (s : State) : Host.Outcome State Fault Refusal :=
  if s.portOk port then .next (s.setLink port up) else .fault .noSuchUnit

/-! ### Host rings -/

/-- The host ring of function `f`, direction `d` (0 receive, 1 transmit), at reset where unlisted. -/
def State.hring (s : State) (f d : Nat) : HostRing :=
  tget { en := false, slotSize := 2048, log2n := 6, spill := 0, base := 0, head := 0, tail := 0, err := false }
    s.net.rings (2 * f + d)

/-- A host ring replaced. -/
def State.setHring (s : State) (f d : Nat) (h : HostRing) : State :=
  s.updNet fun n => { n with rings := tset n.rings (2 * f + d) h }

/-- The free slots of a host ring (R30, R448). -/
def HostRing.free (h : HostRing) : Nat := 2 ^ h.log2n - 1 - (h.tail + 2 ^ h.log2n - h.head) % 2 ^ h.log2n

/-- The 32-byte header of Table 13.6 for a received record. -/
def hostHeader (obj len port kind : Nat) (poison : List Nat) (arrival : Nat) : Bytes :=
  le 4 obj ++ le 2 len ++ le 1 port ++ le 1 kind ++ le 1 (if poison.isEmpty then 0 else 1) ++ le 1 0 ++ le 2 (poison.foldl min (poison.headD 0)) ++ le 4 0 ++ le 8 arrival ++ le 8 0

/-- The counters of the running second of a policer. -/
def HostPolice.at (p : HostPolice) (now : Nat) : HostPolice :=
  if p.second = now / 1000000000 then p else { second := now / 1000000000, frames := 0, bytes := 0 }

/-- A record that passes a queue at once, counted there. -/
def State.passQueue (s : State) (id : Nat) (r : Rec) : State :=
  match s.queue? id with
  | none => s
  | some q =>
    let q := (((q.bump 0 1).bump 16 r.size).bump 8 1).bump 24 r.size
    s.setQueue id { q with stats := tset q.stats 36 (max (tget 0 q.stats 36) (q.fill + r.size)), lastRead := s.now }

/-- The queue of the host receive ring of function `f` (Table 13.2). -/
def hostRxQueue (f : Nat) : Nat := 0xB300 + 2 * f

/-- A record put in the next slot of the host receive ring of function `f`; none where the ring has no room for it (R426). Its `start`
is its port. -/
def State.hostSlot (s : State) (f : Nat) (r : Rec) : Option State :=
  let h := s.hring f 0
  if h.en ∧ h.err = false ∧ 0 < h.free ∧ 32 + r.data.length ≤ h.slotSize then
    let s := s.emit (dmaWrite (h.base + h.tail * h.slotSize)
      (hostHeader r.obj r.data.length r.start r.kind r.poisonAt (r.arrival / 2) ++ r.data) (r.poisonAt.map (· + 32)))
    some ((s.setHring f 0 { h with tail := (h.tail + 1) % 2 ^ h.log2n }).msix f 2)
  else none

/-- What the queue of a host receive ring offers, moved to the ring; a record the ring has no slot for is discarded and counted as host
refused (R426). -/
def State.hostDrain (f : Nat) : Nat → State → State
  | 0, s => s
  | n + 1, s =>
    match s.readQueue (hostRxQueue f) with
    | (s, none) => s
    | (s, some r) => State.hostDrain f n ((s.hostSlot f r).getD (s.portBump (if r.start = 0xFF then 0 else r.start) 64 1))

/-- A record for the host receive ring of function `f`: through its queue to the next slot; none where the ring has no room for it
(R426). In stale-tail mode it waits in the queue until its cells are whole or its tail is pushed (R445). -/
def State.hostPut (s : State) (f : Nat) (r : Rec) : Option State :=
  let q := hostRxQueue f
  if ((s.queue? q).map Queue.mode) = some 2 then
    let s := s.writeQueue q r true
    some (State.hostDrain f (((s.queue? q).map fun q => q.recs.length).getD 0) s)
  else (s.passQueue q r).hostSlot f r

/-- `n` frame bytes of host-bound traffic within the limits of R425 together; none beyond them. -/
def State.hostBound (s : State) (n : Nat) : Option State :=
  let pol := s.net.policeIn.at s.now
  if pol.frames < 1000000 ∧ pol.bytes + n ≤ 1000000000 then
    some (s.updNet fun x => { x with policeIn := { pol with frames := pol.frames + 1, bytes := pol.bytes + n } })
  else none

/-- A host-bound frame of function `f` (R424 to R426), `n` frame bytes long: policed, put in the next receive slot, or discarded and
counted as host refused. -/
def State.toHost (s : State) (f obj port kind arrival n : Nat) (d : Bytes) : State :=
  let r : Rec := { kind := kind, flags := 0, obj := obj, arrival := arrival, deadline := 0, start := port, data := d }
  match (s.hostBound n).bind fun s => s.hostPut f r with
  | some s => s.portBump port 60 1
  | none => s.portBump port 64 1

/-- STALE_TAIL_TIMEOUT: the partial tail of a queue unread for its stale timeout is offered and the timer restarts (R445), a host
receive ring's to its ring; QueueNotice at most once a second where events are selected (R450). -/
def execStaleTailTimeout (queue : Nat) (s : State) : Host.Outcome State Fault Refusal :=
  match s.queue? queue with
  | none => .next s
  | some q =>
    if q.mode = 2 ∧ q.recs ≠ [] ∧ q.lastRead + 1000 * q.stale ≤ s.now then
      let due := q.flag 0 && decide (q.lastPushEvent + 1000000000 ≤ s.now)
      let q' := { q.bump 56 1 with lastRead := s.now, pushed := true,
                                   lastPushEvent := if due then s.now else q.lastPushEvent }
      let s' := s.setQueue queue q'
      let s' := if due then s'.queueEvent queue 3 q.fill else s'
      .next (if 0xB300 ≤ queue ∧ queue < 0xB308 ∧ queue % 2 = 0 then State.hostDrain ((queue - 0xB300) / 2) q.recs.length s' else s')
    else .next s

/-- The head of the host receive ring written: slots returned, or its error flag set (R448, R753, R754). -/
def State.hprHead (s : State) (fn head : Nat) : State :=
  let h := s.hring fn 0
  let n := 2 ^ h.log2n
  if !h.en || decide (n ≤ head) then s
  else if (head + n - h.head) % n ≤ (h.tail + n - h.head) % n then s.setHring fn 0 { h with head := head }
  else s.setHring fn 0 { h with err := true }

/-- HOST_RECEIVE_HEAD_WRITE. -/
def execHostReceiveHeadWrite (fn head : Nat) (s : State) : Host.Outcome State Fault Refusal :=
  if 4 ≤ fn then .fault .noSuchUnit else .next (s.hprHead fn head)

/-- The own part of HostRingSet (Table 13.11, R758). -/
def effHostRingSet (r : Req) (s : State) : Eff :=
  let p := r.payload
  let d := u8 p 0 - 1
  let h := s.hring r.mbx d
  let size := if u8 p 1 = 2 then 10240 else 2048
  let on := u8 p 3 % 2 == 1
  let same := h.slotSize == size && h.log2n == u8 p 2 && h.spill == u32 p 4 && h.base == u64 p 8
  nullTarget r (
  need (decide (1 ≤ u8 p 0) && decide (u8 p 0 ≤ 2) && decide (r.mbx < 4)) .invalidArg (
  -- whether an enabled ring allows the change rests on the encodings, which come first where no table lists them (R799)
  need ((u8 p 1 == 1 || u8 p 1 == 2) && decide (6 ≤ u8 p 2) && decide (u8 p 2 ≤ 16)) .invalidArg (
  need (!(h.en && (on || !same))) .wrongState (
  need (decide (u8 p 3 ≤ 1) &&
    decide (u32 p 4 ≤ 1048576) && (u8 p 0 == 1 || u32 p 4 == 0) && u64 p 8 % 4096 == 0 &&
    u32 p 16 == 2 ^ u8 p 2 * size && zeros p 20 4) .invalidArg (
  s.admission (costOf [(0x000C, 0, u32 p 4)]) (costOf [(0x000C, 0, h.spill)]) fun s' dec =>
    let h' : HostRing := { en := on, slotSize := size, log2n := u8 p 2, spill := u32 p 4, base := u64 p 8,
                           head := if on then 0 else h.head, tail := if on then 0 else h.tail,
                           err := if on then false else h.err }
    let q := hostRxQueue r.mbx + d
    let s' := (s'.releaseNow dec).setHring r.mbx d h'
    .done [] 0 (match s'.queue? q with
      | some x => s'.setQueue q { x with spill := u32 p 4 }
      | none => s'.addQueue q (u32 p 4)))))))

/-- HOST_RING_SET. -/
def execHostRingSet (r : Req) (s : State) : Host.Outcome State Fault Refusal :=
  .next (s.command 0x0B03 (· == 24) r (effHostRingSet r))

/-! ### Port, neighbour and queue commands -/

/-- A queue's notice set to mode none, released where it was asserted (R447, R450). -/
def State.clearNotice (s : State) (id : Nat) : State :=
  match s.queue? id with
  | none => s
  | some q =>
    let s' := s.setQueue id { q with notice := List.replicate 22 0, asserted := false }
    if q.asserted then
      let s' := s'.noticeOut s q.pfcPort q.pfcPrio q.pin
      if q.flag 0 then s'.queueEvent id 2 q.fill else s'
    else s'

/-- The own part of NetGroupSet (R450). -/
def effNetGroupSet (r : Req) (s : State) : Eff :=
  let c := u8 r.payload 0
  nullTarget r (
  need (s.mode == .ready || s.mode == .maintenance) .wrongState (
  need (decide (1 ≤ c) && decide (c ≤ 6) && zeros r.payload 1 3) .invalidArg (
  if c = s.net.config then .done [] 0 s
  else
    let ids := (s.net.queues.filter fun e => e.2.mode == 1 && e.2.flag 2 && decide (e.2.pfcPort < 8)).map (·.1)
    let s := ids.foldl (fun s id => s.clearNotice id) s
    let s := s.updNet fun n => { n with
      config := c
      ports := n.ports.map fun e => if 8 ≤ e.1 then e else
        (e.1, { e.2 with en := false, pfc := false, quanta := 0, mac := List.replicate 6 0, maxFrame := 1518, hostFn := 0, overhead := 20, hostClass := 1 })
      neigh := n.neigh.filter fun e => decide (8 ≤ e.port) }
    .done [] 0 { s with egress := { s.egress with
      legs := s.egress.legs.map fun e => if 0xF000 ≤ e.1 ∧ e.1 < 0xF008 then (e.1, { e.2 with cls := 1 }) else e
      classes := s.egress.classes.filter fun e => decide (128 ≤ e.1) } })))

/-- NET_GROUP_SET. -/
def execNetGroupSet (r : Req) (s : State) : Host.Outcome State Fault Refusal :=
  .next (s.command 0x0B00 (· == 4) r (effNetGroupSet r))

/-- The own part of PortSet (Table 13.9). -/
def effPortSet (r : Req) (s : State) : Eff :=
  let p := r.payload
  let n := u8 p 0
  let on := u8 p 1 % 2 == 1
  let pfc := u8 p 1 / 2 % 2 == 1
  nullTarget r (
  need (s.portOk n) .invalidArg (
  need (on || !(s.port n).en || (s.carried n).isEmpty) .wrongState (
  need (decide (u8 p 1 ≤ 3) && (pfc == decide (1 ≤ u16 p 2)) && u8 p 4 % 2 == 0 && decide (u8 p 10 ≤ 3) && zeros p 11 1 &&
    decide (1518 ≤ u16 p 12) && decide (u16 p 12 ≤ 9216) && zeros p 14 2) .invalidArg (
  .done [] 0 (s.updPort n fun x => { x with
    en := on, pfc := pfc, quanta := u16 p 2, mac := (p.drop 4).take 6, hostFn := u8 p 10, maxFrame := u16 p 12 })))))

/-- PORT_SET. -/
def execPortSet (r : Req) (s : State) : Host.Outcome State Fault Refusal :=
  .next (s.command 0x0B01 (· == 16) r (effPortSet r))

/-- The neighbour entry of a port and remote address (R427). -/
def State.neighbour (s : State) (port family : Nat) (addr : Bytes) : Option Neighbour :=
  s.net.neigh.find? fun e => e.port == port && e.family == family && e.addr == addr

/-- The own part of NeighbourSet (Table 13.10): a table of 32,768 entries. -/
def effNeighbourSet (r : Req) (s : State) : Eff :=
  let p := r.payload
  let n := u8 p 0
  let fam := u8 p 1
  let addr := (p.drop 16).take 16
  nullTarget r (
  need (s.portOk n) .invalidArg (
  need ((fam == 4 || fam == 6) && (u8 p 2 == 1 || u8 p 2 == 2) && zeros p 3 1 && zeros p 10 6 &&
    (u8 p 2 == 1 || zeros p 4 6) && (fam == 6 || zeros p 20 12)) .invalidArg (
  let rest := s.net.neigh.filter fun e => !(e.port == n && e.family == fam && e.addr == addr)
  if u8 p 2 = 2 then .done [] 0 (s.updNet fun x => { x with neigh := rest })
  else
    need (decide (rest.length < 32768)) .noResource (
    .done [] 0 (s.updNet fun x => { x with
      neigh := rest ++ [{ port := n, family := fam, addr := addr, mac := (p.drop 4).take 6 }] })))))

/-- NEIGHBOUR_SET. -/
def execNeighbourSet (r : Req) (s : State) : Host.Outcome State Fault Refusal :=
  .next (s.command 0x0B02 (· == 32) r (effNeighbourSet r))

/-- The own part of QueueNoticeSet (Table 13.12, R447). -/
def effQueueNoticeSet (r : Req) (s : State) : Eff :=
  let p := r.payload
  let id := u16 p 0
  let mode := u8 p 2
  let fl := u8 p 3
  let cap := match s.queue? id with | some q => q.cap | none => 512
  nullTarget r (
  need (s.queueLives id) .invalidArg (
  need (decide (mode ≤ 2) && decide (fl ≤ 7) && (mode == 1 || decide (fl ≤ 1)) &&
    (if mode = 1 then decide (1 ≤ u32 p 4) && decide (u32 p 4 ≤ cap) && decide (u32 p 8 < u32 p 4) else zeros p 4 8) &&
    (if fl / 2 % 2 = 1 then decide (u8 p 12 ≤ 7) else u8 p 12 == 0) &&
    (if fl / 4 % 2 = 1 then (s.portOk (u8 p 13) && (s.port (u8 p 13)).pfc && decide (u8 p 14 ≤ 7)) else zeros p 13 2) &&
    zeros p 15 1 && (if mode = 2 then decide (1 ≤ u32 p 16) && decide (u32 p 16 ≤ 1000000) else zeros p 16 4) && zeros p 20 4)
    .invalidArg (
  let s1 := if (s.queue? id).isSome then s else s.addQueue id 0
  let q := match s1.queue? id with | some q => q | none => Queue.init 0 s.now
  let keep := mode == 1 && q.mode == 1 && q.asserted && q.pin == u8 p 12 && q.pfcPort == u8 p 13 && q.pfcPrio == u8 p 14 &&
    q.flag 1 == (fl / 2 % 2 == 1) && q.flag 2 == (fl / 4 % 2 == 1) && decide (u32 p 8 < q.fill)
  let s2 := if keep then s1 else s1.clearNotice id
  let q2 := match s2.queue? id with | some q => q | none => q
  let s3 := s2.setQueue id { q2 with notice := p.drop 2, lastRead := s.now }
  .done [] 0 (s3.evalNotice id))))

/-- QUEUE_NOTICE_SET. -/
def execQueueNoticeSet (r : Req) (s : State) : Host.Outcome State Fault Refusal :=
  .next (s.command 0x0B04 (· == 24) r (effQueueNoticeSet r))

/-- The own part of QueueStatsGet (Table 13.13). -/
def effQueueStatsGet (r : Req) (s : State) : Eff :=
  let p := r.payload
  let id := u16 p 0
  let q := match s.queue? id with | some q => q | none => Queue.init 0 s.now
  -- a link queue: its link, direction and class stand in its number (Table 13.2)
  let link := decide (0xB200 ≤ id) && decide (id < 0xB240)
  let l := (id - 0xB200) / 16
  let out := id / 8 % 2 == 0
  let fill := if link then s.linkFill l out (id % 8) else q.fill
  let g := fun o => if link then tget 0 (tget [] s.cascade.linkStats id) o else tget 0 q.stats o
  nullTarget r (
  need (s.queueLives id) .invalidArg (
  need (decide (u8 p 2 ≤ 1) && zeros p 3 1) .invalidArg (
  .done (le 8 (g 0) ++ le 8 (g 8) ++ le 8 (g 16) ++ le 8 (g 24) ++ le 4 fill ++ le 4 (g 36) ++ le 4 (g 40) ++
      le 4 (min (g 44) 0xFFFFFFFF) ++ le 4 (g 48) ++ le 4 (g 52) ++ le 4 (g 56) ++ le 4 (g 60)) 0
    (if u8 p 2 ≠ 1 then s
     else if link then
       { s with cascade := { s.cascade with linkStats := tset s.cascade.linkStats id (tset (tget [] s.cascade.linkStats id) 36 fill) } }
     else if (s.queue? id).isSome then s.setQueue id { q with stats := tset q.stats 36 q.fill } else s))))

/-- QUEUE_STATS_GET. -/
def execQueueStatsGet (r : Req) (s : State) : Host.Outcome State Fault Refusal :=
  .next (s.command 0x0B05 (· == 4) r (effQueueStatsGet r))

/-- The own part of PortStatsGet (Table 13.14). -/
def effPortStatsGet (r : Req) (s : State) : Eff :=
  let n := u8 r.payload 0
  let x := s.port n
  let g := fun o => tget 0 x.stats o
  nullTarget r (
  need (s.portOk n) .invalidArg (
  need (zeros r.payload 1 3) .invalidArg (
  .done (([0, 8, 16, 24].map fun o => le 8 (g o)).flatten ++
      ((List.range 13).map fun i => le 4 (g (32 + 4 * i))).flatten ++
      le 1 (if x.up then 1 else 0) ++ le 3 0 ++ le 8 x.linkBlock) 0 s)))

/-- PORT_STATS_GET. -/
def execPortStatsGet (r : Req) (s : State) : Host.Outcome State Fault Refusal :=
  .next (s.command 0x0B06 (· == 4) r (effPortStatsGet r))

end Sys2Proof.Machine
end

