-- ==== Sys2Proof/Machine/Framer.lean ====
section
/-!
DEFINITION. The SDH and E1 line framer (R595 to R620): alignment, pointers, E1 frames with CRC-4 and CAS, slip buffers,
defects and their masking, MSP 1+1, VCAT groups with GFP, and the framer commands. What G.707 lays out inside a frame
reaches the model demultiplexed, as `LineRx`.
-/

namespace Sys2Proof.Machine

/-- The framer changed. -/
def State.updFramer (s : State) (f : Framer → Framer) : State := { s with framer := f s.framer }

/-- A lane changed. -/
def State.updLane (s : State) (l : Nat) (f : Lane → Lane) : State :=
  s.updFramer fun x => { x with lanes := tupd x.lanes l f }

/-- An E1 tributary changed. -/
def State.updE1 (s : State) (i : Nat) (f : E1 → E1) : State := s.updFramer fun x => { x with e1 := tupd x.e1 i f }

/-- A VCAT group changed. -/
def State.updGroup (s : State) (g : Nat) (f : Vcat → Vcat) : State :=
  s.updFramer fun x => { x with groups := tupd x.groups g f }

/-- The key of a framer path: an E1 tributary, a group or a lane (Table 3.2). -/
def e1Key (i : Nat) : Nat := okey 9 i
def groupKey (g : Nat) : Nat := okey 9 (504 + g)
def laneKey (l : Nat) : Nat := okey 9 (544 + l)

/-- The AU-4s of a mode, 0 for Ethernet and for a code that is none (Table 19.1). -/
def modeAus : Nat → Nat
  | 1 => 1 | 2 => 4 | 3 => 16 | 4 => 64 | _ => 0

/-! ### Pointers (R598) -/

/-- A pointer interpreter before its first pointer. -/
def PtrState.init : PtrState := { st := 2, value := 0, cand := 0, same := 0, bad := 0, ones := 0 }

/-- One received pointer: a new value is accepted after 3 identical ones, LOP declared after 8 invalid ones in a row, AIS
after 3 of all ones. -/
def PtrState.next (p : PtrState) : PtrIn → PtrState
  | .justified => { p with bad := 0, ones := 0, same := 0 }
  | .allOnes =>
    let n := p.ones + 1
    { p with ones := n, same := 0, bad := 0, st := if 3 ≤ n then 1 else p.st }
  | .invalid =>
    let n := p.bad + 1
    { p with bad := n, ones := 0, same := 0, st := if 8 ≤ n then 2 else p.st }
  | .value v =>
    if p.st = 0 && v == p.value then { p with bad := 0, ones := 0, same := 0 }
    else
      let n := if v = p.cand then p.same + 1 else 1
      if 3 ≤ n then { st := 0, value := v, cand := v, same := 0, bad := 0, ones := 0 }
      else { p with cand := v, same := n, ones := 0, bad := p.bad + (if p.st = 0 then 1 else 0) }

/-! ### E1 reception (R600 to R607) -/

/-- The FAS in bits 2 to 8 (R600). -/
def fasWord : List Bool := [false, false, true, true, false, true, true]

/-- The CRC-4 multiframe alignment signal in bit 1 of six NFAS frames (G.704). -/
def mfasWord : List Bool := [false, false, true, false, true, true]

/-- The number whose bits, most significant first, are `l`. -/
def ofBits (l : List Bool) : Nat := l.foldl (fun n b => 2 * n + (if b then 1 else 0)) 0

/-- The bytes of a frame's bits. -/
def frameBytes (f : List Bool) : Bytes := (List.range 32).map fun i => BitVec.ofNat 8 (ofBits ((f.drop (8 * i)).take 8))

/-- One bit through the CRC-4 of G.704, polynomial x^4 + x + 1. -/
def crc4Bit (c : Nat) (b : Bool) : Nat :=
  let top := c / 8 % 2 == 1
  let c := c * 2 % 16 + (if b then 1 else 0)
  if top then c ^^^ 3 else c

/-- A receiver before alignment. -/
def E1Rx.init : E1Rx where
  inFrame := false
  cands := []
  last := []
  frame := []
  even := true
  badFas := 0
  aRow := 0
  mfas := []
  mfasAges := []
  crcOn := false
  crcAge := 0
  crcFrame := 0
  crcRun := 0
  crcLast := 0
  crcBits := []
  crcSkip := 0
  crcBlocks := 0
  crcErrors := 0
  eBits := [true, true]
  crcOff := false
  casFrame := 16
  casLast := []
  casAcc := []

/-- SEARCH begun again: what the receiver remembers across it stays. -/
def E1Rx.search (r : E1Rx) : E1Rx :=
  { E1Rx.init with last := r.last, crcOff := r.crcOff, crcAge := r.crcAge, casAcc := r.casAcc, casLast := r.casLast }

/-- What a received bit has brought about: statistics by offset of Table 19.10, CAS changes, and a whole frame. -/
structure E1Out where
  stats : List Nat
  cas : List (Nat × Nat)
  frames : List Bytes
  deriving DecidableEq, Repr

/-- An ABCD value received on a channel: accepted when it is the same twice in a row (R607). -/
def E1Rx.abcd (r : E1Rx) (ch v : Nat) : E1Rx × List (Nat × Nat) :=
  let new := tget? r.casLast ch == some v && tget? r.casAcc ch != some v
  ({ r with casLast := tset r.casLast ch v, casAcc := if new then tset r.casAcc ch v else r.casAcc },
    if new then [(ch, v)] else [])

/-- TS16 of a frame of a CAS path (R607). -/
def E1Rx.cas (r : E1Rx) (f : List Bool) : E1Rx × List (Nat × Nat) :=
  let hi := ofBits ((f.drop 128).take 4)
  let lo := ofBits ((f.drop 132).take 4)
  let n := if hi = 0 then 0 else if r.casFrame < 15 then r.casFrame + 1 else 16
  let r := { r with casFrame := n }
  if 1 ≤ n ∧ n ≤ 15 then
    let (r, a) := r.abcd n hi
    let (r, b) := r.abcd (n + 15) lo
    (r, a ++ b)
  else (r, [])

/-- The CRC-4 part of a whole frame: sub-multiframes, block errors and E bits (R606). The list holds statistics. -/
def E1Rx.crc (r : E1Rx) (f : List Bool) : E1Rx × List Nat :=
  let b1 := f.headD false
  let n := r.crcFrame
  let body := if n % 2 = 0 then false :: f.drop 1 else f
  let r := { r with crcRun := body.foldl crc4Bit r.crcRun, crcBits := if n % 2 = 0 then r.crcBits ++ [b1] else r.crcBits,
                    crcFrame := (n + 1) % 16 }
  let far := if (n == 13 || n == 15) && !b1 then [12] else []
  if n % 8 = 7 then
    let run := [false, false, false, false].foldl crc4Bit r.crcRun
    let bad := r.crcSkip == 0 && ofBits r.crcBits != r.crcLast
    let blocks := r.crcBlocks + (if r.crcSkip = 0 then 1 else 0)
    let errs := r.crcErrors + (if bad then 1 else 0)
    ({ r with crcLast := run, crcRun := 0, crcBits := [], crcSkip := r.crcSkip - 1, crcBlocks := if blocks = 1000 then 0 else blocks,
              crcErrors := if blocks = 1000 && errs < 915 then 0 else errs,
              eBits := r.eBits.drop 1 ++ [!bad] }, far ++ (if bad then [4] else []))
  else (r, far)

/-- A whole frame received in frame. -/
def E1Rx.whole (r : E1Rx) (crcMode ts16 : Nat) (f : List Bool) : E1Rx × E1Out :=
  let (r, cas) := if ts16 = 1 then r.cas f else (r, [])
  let (r, st) := if r.crcOn then r.crc f else ({ r with crcAge := r.crcAge + 1, mfasAges := (r.mfasAges.map (· + 1)).filter fun n => decide (n ≤ 64) }, [])
  let out : E1Out := { stats := st, cas := cas, frames := [frameBytes f] }
  if 915 ≤ r.crcErrors then (r.search, { out with stats := 28 :: st })
  else if r.even then
    let bad := if (f.drop 1).take 7 = fasWord then 0 else r.badFas + 1
    if 3 ≤ bad then (r.search, { out with stats := 28 :: st })
    else ({ r with even := false, badFas := bad, frame := [] }, out)
  else
    let m := (r.mfas ++ [f.headD false]).drop ((r.mfas.length + 1) - 6)
    let r := { r with even := true, aRow := if (f.drop 2).headD false then r.aRow + 1 else 0, mfas := m, frame := [] }
    if (crcMode != 0 && !r.crcOff && !r.crcOn) && m == mfasWord then
      if r.mfasAges.any fun n => n % 16 == 0 then
        ({ r with crcOn := true, crcFrame := 12, crcAge := 0, crcRun := 0, crcBits := [], crcSkip := 2 }, out)
      else ({ r with mfasAges := 0 :: r.mfasAges }, out)
    else (r, out)

/-- One received bit (R600, R601): a candidate of SEARCH sees bit 2 of the next frame 250 bits after its FAS and the FAS
again after 512. -/
def E1Rx.bit (crcMode ts16 : Nat) (a : E1Rx × E1Out) (b : Bool) : E1Rx × E1Out :=
  let r := { a.1 with last := (b :: a.1.last).take 512 }
  if r.inFrame then
    let f := r.frame ++ [b]
    if f.length = 256 then
      let (r, o) := r.whole crcMode ts16 f
      (r, { stats := a.2.stats ++ o.stats, cas := a.2.cas ++ o.cas, frames := a.2.frames ++ o.frames })
    else ({ r with frame := f }, a.2)
  else
    let hit := (r.last.take 7).reverse == fasWord
    let ages := (r.cands.map (· + 1)).filter fun n => !(n == 250 && !b) && !(n == 512 && !hit)
    if ages.any (· == 512) then
      ({ r with inFrame := true, cands := [], frame := (r.last.take 8).reverse, even := true, badFas := 0, mfas := [],
                mfasAges := [], crcOn := false }, a.2)
    else ({ r with cands := if hit && decide (ages.length < 4) then ages ++ [0] else ages }, a.2)

/-! ### Defects (R611) -/

/-- The defect word of a path. -/
def State.defects (s : State) (key : Nat) : BitVec 32 :=
  let i := kidx key
  if i < 504 then (match tget? s.framer.e1 i with | some e => e.defects | none => 0)
  else if i < 568 then (match tget? s.framer.groups (i - 504) with | some g => g.defects | none => 0)
  else match tget? s.framer.lanes (i - 544) with | some l => l.defects | none => 0

/-- The line whose received signal serves the lower paths of working line `w` (R612 to R615). -/
def State.serving? (s : State) (w : Nat) : Nat :=
  match tget? s.framer.lanes w with
  | some l => match l.msp with | some p => if p.sel then p.prot else w | none => w
  | none => w

/-- Some defect of a lower code than `c` holds in a word. -/
def lowerDefect (d : BitVec 32) (c : Nat) : Bool := (List.range c).any fun i => d.getLsbD i

/-- The AU-4 `a` of working line `w` has no valid pointer: AU-LOP or AU-AIS. -/
def State.auDown (s : State) (w a : Nat) : Bool :=
  match tget? s.framer.lanes w with
  | some l => (tget PtrState.init l.au a).st != 0
  | none => true

/-- A defect code of a path is masked: by a defect listed above it on the path, or by any defect of the line or the AU-4 that contains
the path (R611). FOP is a defect of the pair, not of its working line. -/
def State.masked (s : State) (key c : Nat) : Bool :=
  let i := kidx key
  let within (l a : Nat) : Bool := s.defects (laneKey (s.serving? l)) &&& 0x3E#32 != 0 || s.auDown l a
  (c != 14 && lowerDefect (s.defects key) c) ||
  (if i < 504 then (match tget? s.framer.e1 i with | some e => within e.lane e.a | none => false)
   else if i < 568 then (match tget? s.framer.groups (i - 504) with | some g => g.members.any fun m => within m.lane m.a | none => false)
   else false)

/-- A defect declared or cleared: FramerAlarm where it is not masked. -/
def State.setDefect (s : State) (key c : Nat) (on : Bool) : State :=
  if (s.defects key).getLsbD c = on then s
  else
    let f : BitVec 32 → BitVec 32 := fun d => if on then d ||| BitVec.ofNat 32 (2 ^ c) else d &&& ~~~(BitVec.ofNat 32 (2 ^ c))
    let i := kidx key
    let s' := if i < 504 then s.updE1 i fun e => { e with defects := f e.defects }
              else if i < 568 then s.updGroup (i - 504) fun g => { g with defects := f g.defects }
              else s.updLane (i - 544) fun l => { l with defects := f l.defects }
    if s'.masked key c then s'
    else s'.raise key 0xFE00 (le 1 c ++ le 1 (if on then 1 else 2) ++ le 6 0 ++ le 8 s'.block)

/-- A statistic of a path raised (offsets of Table 19.10). -/
def State.pathBump (s : State) (key off n : Nat) : State :=
  let i := kidx key
  let f : Table Nat → Table Nat := fun t => if n = 0 then t else tset t off (tget 0 t off + n)
  if i < 504 then s.updE1 i fun e => { e with stats := f e.stats }
  else if i < 568 then s.updGroup (i - 504) fun g => { g with stats := f g.stats }
  else s.updLane (i - 544) fun l => { l with stats := f l.stats }

/-- The E1 tributaries of working line `w`, by index. -/
def State.tribsOf (s : State) (w : Nat) : List Nat := (s.framer.e1.filter fun e => e.2.lane == w).map (·.1)

/-- SEARCH entered by an E1 path: OOF counted and E1 LOF declared where it was in frame (Table 19.3). -/
def State.e1Search (s : State) (i : Nat) : State :=
  match tget? s.framer.e1 i with
  | none => s
  | some e =>
    let s := s.updE1 i fun e => { e with rx := e.rx.search }
    if e.rx.inFrame then (s.pathBump (e1Key i) 28 1).setDefect (e1Key i) 8 true else s

/-- The lower paths of a pair realign after a switch: its E1 paths, and the frames of the groups with members on it (R615). -/
def State.realign (s : State) (w : Nat) : State :=
  let hunt (g : Vcat) : Vcat := if g.members.any fun m => m.lane == w then { g with gfp := 0 } else g
  ((s.tribsOf w).foldl State.e1Search s).updFramer fun f => { f with groups := tmap f.groups fun _ g => hunt g }

/-! ### MSP 1+1 (R612 to R615) -/

/-- The request with the higher priority code; the first wins a tie. -/
def maxReq (a b : Nat × Nat) : Nat × Nat := if a.1 < b.1 then b else a

/-- The request of an MspCommand: its code and channel (G.841 clause 7). -/
def cmdReq : Nat → Nat × Nat
  | 1 => (15, 0) | 2 => (14, 1) | 3 => (14, 0) | 4 => (8, 1) | 5 => (8, 0) | _ => (0, 0)

/-- A signal fail: LOS, LOF, MS-AIS or SF. -/
def sigFail (d : BitVec 32) : Bool := d &&& 0x1E#32 != 0

/-- A signal degrade. -/
def sigDegrade (d : BitVec 32) : Bool := d.getLsbD 5

/-- The highest local request of a pair (R614). -/
def State.localReq (s : State) (w : Nat) (p : Msp) : Nat × Nat :=
  let dw := s.defects (laneKey w)
  let dp := s.defects (laneKey p.prot)
  [cmdReq p.cmd, (if sigFail dp then (13, 0) else (0, 0)), (if sigFail dw then (13, 1) else (0, 0)),
   (if sigDegrade dp then (11, 0) else (0, 0)), (if sigDegrade dw then (11, 1) else (0, 0)),
   (if p.waiting then (6, 1) else (0, 0)), (if p.dnr then (1, 1) else (0, 0))].foldl maxReq (0, 0)

/-- The accepted remote request, where the pair heeds it: a bidirectional pair without FOP or mismatch; a reverse request
asks for nothing (R613, R614). -/
def State.remoteReq (s : State) (w : Nat) (p : Msp) : Nat × Nat :=
  if p.bidir && !p.mismatch && !(s.defects (laneKey w)).getLsbD 14 && p.k1 / 16 != 2 then (p.k1 / 16, p.k1 % 16) else (0, 0)

/-- The pair evaluated: wait-to-restore entered once SF and SD have cleared on the working line, do-not-revert when a switch ends, the
selector moved, and MspSwitched raised (R614, R615). -/
def State.mspEval (s : State) (w : Nat) : State :=
  match tget? s.framer.lanes w with
  | none => s
  | some l =>
    match l.msp with
    | none => s
    | some p =>
      let loc := s.localReq w { p with waiting := false, dnr := false }
      let base := maxReq loc (s.remoteReq w p)
      let ended := p.sel && p.failed != 0
      let p1 := { p with
        waiting := p.revertive && (p.waiting || ended) && decide (base.1 ≤ 6)
        dnr := !p.revertive && (p.dnr || (p.sel && base.1 == 0)) && decide (base.1 ≤ 1)
        failed := if loc.2 = 1 ∧ (loc.1 = 13 ∨ loc.1 = 11) then loc.1 else 0 }
      let req := maxReq (s.localReq w p1) (s.remoteReq w p1)
      let sel := req.2 == 1 && req.1 != 15 && req.1 != 0
      let s' := s.updLane w fun l => { l with msp := some { p1 with sel := sel } }
      if sel = p.sel then s'
      else (s'.realign w).raise (laneKey w) 0xFE01 (le 1 (if sel then 1 else 0) ++ le 1 p.k1 ++ le 1 p.k2 ++ le 5 0 ++ le 8 s'.block)

/-- The K1 and K2 a pair sends on its protection line: the local request in force, or a reverse request (R614). -/
def State.mspSend (s : State) (w : Nat) (p : Msp) : Nat × Nat :=
  let loc := s.localReq w p
  let rem := s.remoteReq w p
  let ch := (maxReq loc rem).2
  ((if loc.1 < rem.1 then 0x20 + rem.2 else loc.1 * 16 + loc.2), ch * 16 + (if p.bidir then 5 else 4))

/-- The K bytes received on the protection line of working line `w` (R612, R613). -/
def State.mspReceive (s : State) (w : Nat) (p : Msp) (k1 k2 : Nat) : State :=
  let n1 := if k1 = p.k1Last then min 3 (p.k1Same + 1) else 1
  let n2 := if k2 = p.k2Last then min 3 (p.k2Same + 1) else 1
  let p' := { p with k1Last := k1, k2Last := k2, k1Same := n1, k2Same := n2,
                     k1 := if n1 = 3 then k1 else p.k1, k2 := if n2 = 3 then k2 else p.k2,
                     stale := if n1 = 3 then 0 else p.stale + 1 }
  let bad := p'.k2 / 8 % 2 == 1 || (p'.k2 % 8 != (if p.bidir then 5 else 4) && decide (p'.k2 % 8 < 6) && p'.k2 != 0)
  let s := s.updLane w fun l => { l with msp := some { p' with mismatch := bad } }
  let s := if n1 == 3 || n2 == 3 || bad then s.setDefect (laneKey w) 14 bad else s
  s.mspEval w

/-- FOP_DECLARE: 12 frames without an accepted value, K1 not the same in three of them (R613). The pair is named by its
working line's lane. -/
def execFopDeclare (pair : Nat) (s : State) : Host.Outcome State Fault Refusal :=
  match tget? s.framer.lanes pair with
  | none => .next s
  | some l =>
    match l.msp with
    | some p => if 12 ≤ p.stale then .next ((s.setDefect (laneKey pair) 14 true).mspEval pair) else .next s
    | none => .next s

/-- WAIT_TO_RESTORE_EXPIRY: the pair reverts (R615). -/
def execWaitToRestoreExpiry (pair : Nat) (s : State) : Host.Outcome State Fault Refusal :=
  match tget? s.framer.lanes pair with
  | none => .next s
  | some l =>
    match l.msp with
    | some p =>
      if p.waiting && (maxReq (s.localReq pair { p with waiting := false }) (s.remoteReq pair p)).1 == 0 then
        let s := s.updLane pair fun l => { l with msp := some { p with waiting := false, sel := false } }
        .next ((s.realign pair).raise (laneKey pair) 0xFE01 (le 1 0 ++ le 1 p.k1 ++ le 1 p.k2 ++ le 5 0 ++ le 8 s.block))
      else .next s
    | none => .next s

/-! ### Frames -/

/-- The candidates open after a frame: each position of the pattern is taken while fewer than 4 are tracked; `old` are those that still
await their position (R601). -/
def openCands (old pats : List Nat) : List Nat :=
  pats.foldl (fun new q => if (old.filter fun c => decide (q < c)).length + new.length < 4 then new ++ [q] else new) []

/-- The alignment of an SDH lane on the positions where the pattern begins (R599 to R601). -/
def State.laneAlign (s : State) (l : Nat) (pats : List Nat) : State :=
  match tget? s.framer.lanes l with
  | none => s
  | some x =>
    if x.inFrame then
      if pats.contains x.pos then s.updLane l fun x => { x with badA := 0 }
      else if x.badA + 1 < 5 then s.updLane l fun x => { x with badA := x.badA + 1 }
      else (s.updLane l fun x => { x with inFrame := false, badA := 0, cands := (pats.filter fun q => decide (x.pos < q)).take 4 }).pathBump (laneKey l) 28 1
    else
      let good := x.cands.filter pats.contains
      match good.foldl (fun a b => match a with | none => some b | some a => some (min a b)) none with
      | some p => s.updLane l fun x => { x with inFrame := true, pos := p, badA := 0, cands := [] }
      | none => s.updLane l fun x => { x with cands := openCands x.cands pats }

/-- The section and line overhead of an aligned lane: error counts, MS-AIS, SF and SD (R598, Table 19.4). -/
def State.laneOverhead (s : State) (l : Nat) (rx : LineRx) : State :=
  match tget? s.framer.lanes l with
  | none => s
  | some x =>
    let k := laneKey l
    let s := ((s.pathBump k 4 rx.b1).pathBump k 8 rx.b2).pathBump k 12 rx.m1
    let row := if rx.k2.toNat % 8 = 7 then x.aisRow + 1 else 0
    let s := s.updLane l fun x => { x with aisRow := row, rei := x.rei + rx.b2 }
    let s := s.setDefect k 3 (decide (3 ≤ row))
    let s := s.setDefect k 4 (x.sf != 0 && decide (10 ^ (12 - x.sf) < rx.ber))
    s.setDefect k 5 (x.sd != 0 && decide (10 ^ (12 - x.sd) < rx.ber))

/-- The AU-4s of working line `w` behind its selector: pointers, and the B3 errors and REI of VC-4 members, which return in G1 (R598). -/
def State.auRx (s : State) (w : Nat) (l : List AuIn) : State :=
  match tget? s.framer.lanes w with
  | none => s
  | some x =>
    let au := l.foldl (fun t a => tset t a.a ((tget PtrState.init t a.a).next a.ptr)) x.au
    let js := (l.filter fun a => a.ptr == .justified).length
    let s := (s.updLane w fun x => { x with au := au, auRei := l.map fun a => (a.a, a.b3) }).pathBump (laneKey w) 16 js
    let s := s.setDefect (laneKey w) 6 (au.any fun e => e.2.st != 0)
    s.framer.groups.foldl (fun s e =>
      if e.2.ty = 3 then
        (l.filter fun a => e.2.members.any fun m => m.lane == w && m.a == a.a).foldl (fun s a =>
          (s.pathBump (groupKey e.1) 4 a.b3).pathBump (groupKey e.1) 12 a.rei) s
      else s) s

/-- A frame written to the slip buffer: with two waiting, one whole frame is deleted and counted (R605). -/
def E1.slipIn (e : E1) (f : Bytes) : E1 × Nat :=
  if 2 ≤ e.slip.length then ({ e with slip := e.slip.drop 1 ++ [f] }, 1) else ({ e with slip := e.slip ++ [f] }, 0)

/-- The bits of a tributary received: the justification decisions of R603, alignment and frames. -/
def State.tribRx (s : State) (i : Nat) (t : TribIn) : State :=
  match tget? s.framer.e1 i with
  | none => s
  | some e =>
    let maj : List Bool → Bool := fun l => decide (2 ≤ (l.filter id).length)
    let extra := match t.just with
      | some (c1, c2, s1, s2) => (if maj c1 then [] else [s1]) ++ (if maj c2 then [] else [s2])
      | none => []
    let js := match t.just with | some (c1, _, _, _) => if maj c1 then 1 else 0 | none => 0
    let ptr := e.ptr.next t.ptr
    let k := e1Key i
    let s := (s.updE1 i fun e => { e with ptr := ptr, rei := t.bip })
    let s := s.setDefect k 7 (ptr.st != 0)
    let s := ((s.pathBump k 4 t.bip).pathBump k 12 t.rei).pathBump k 16 (js + (if t.ptr = .justified then 1 else 0))
    if ptr.st ≠ 0 then s.e1Search i
    else
      let (r, o) := (t.bits ++ extra).foldl (E1Rx.bit e.crcMode e.ts16) (e.rx, { stats := [], cas := [], frames := [] })
      let fs := if r.inFrame then o.frames else []
      let (e1, slips) := fs.foldl (fun a f => let (x, n) := a.1.slipIn f; (x, a.2 + n)) ({ e with rx := r, ptr := ptr, rei := t.bip }, 0)
      let s := s.updE1 i fun x => { e1 with stats := x.stats, defects := x.defects }
      let s := (o.stats.foldl (fun s off => s.pathBump k off 1) s).pathBump k 20 slips
      let s := o.cas.foldl (fun s c => s.raise k 0xFE02 (le 1 c.1 ++ le 1 c.2 ++ le 2 0 ++ le 8 s.block)) s
      let s := s.setDefect k 8 (!r.inFrame)
      let s := s.setDefect k 9 (decide (r.last.length = 512) && decide ((r.last.filter (!·)).length < 3))
      let s := if r.crcOn || e.crcMode = 0 || r.crcOff then s.setDefect k 10 false else s
      s.setDefect k 11 (decide (3 ≤ r.aRow))

/-- The frame read from the slip buffer at the bridge's 8 kHz: with none waiting the last one is repeated and counted; a
path in defect gives no samples (R605, R610). -/
def E1.read (e : E1) (bad : Bool) : E1 × Nat :=
  if bad || !e.rx.inFrame then ({ e with rxNow := e.rxNow ++ [none] }, 0)
  else
    match e.slip with
    | f :: r => ({ e with slip := r, lastRead := f, rxNow := e.rxNow ++ [some f] }, 0)
    | [] => ({ e with rxNow := e.rxNow ++ [some e.lastRead] }, 1)

/-- The E1 sends CRC-4. -/
def E1.sendsCrc (e : E1) : Bool := e.crcMode != 0 && !e.rx.crcOff

/-- Bit 1 of TS0 of frame `n` of the CRC-4 multiframe (R606). -/
def E1.bitOne (e : E1) (n : Nat) : Bool :=
  if !e.sendsCrc then true
  else if n % 2 = 0 then e.txCrcLast / 2 ^ (3 - n / 2 % 4) % 2 == 1
  else if n = 13 then e.rx.eBits.headD true
  else if n = 15 then (e.rx.eBits.drop 1).headD true
  else mfasWord.getD (n / 2) true

/-- TS0 of frame `n`: FAS, or NFAS with the A bit and Sa bits of 1 (R606). -/
def E1.ts0 (e : E1) (n : Nat) : Nat :=
  ofBits (e.bitOne n :: (if n % 2 = 0 then fasWord
    else [true, (e.defects &&& 0x300#32) != 0, true, true, true, true, true]))

/-- TS16 of frame `n` of the CAS multiframe: the alignment signal, or two channels (R607). -/
def E1.ts16Out (e : E1) (n : Nat) : Nat :=
  if n = 0 then 0x0B else tget 0xD e.casTx n * 16 + tget 0xD e.casTx (n + 15)

/-- The E1 frame sent: all ones while HELD, otherwise TS0, TS16 of a CAS path, samples that wait, and the idle byte (R608,
R609). -/
def E1.send (e : E1) (active : Bool) : E1 × Bytes :=
  let n := e.txFrame
  let ts (i : Nat) : Byte :=
    if i = 0 then BitVec.ofNat 8 (e.ts0 n)
    else if i = 16 && e.ts16 == 1 then BitVec.ofNat 8 (e.ts16Out n)
    else match tget? e.tx i with
      | some (b :: _) => b
      | _ => BitVec.ofNat 8 e.idle
  let f := if active then (List.range 32).map ts else List.replicate 32 0xFF
  let bits := (f.map fun b => toBits b.toNat).flatten
  let body := if n % 2 = 0 then false :: bits.drop 1 else bits
  let run := body.foldl crc4Bit e.txCrc
  let full := n % 8 == 7
  ({ e with tx := tmap e.tx fun _ l => l.drop 1, txFrame := (n + 1) % 16, txCrc := if full then 0 else run,
            txCrcLast := if full then [false, false, false, false].foldl crc4Bit run else e.txCrcLast }, f)

/-- A member of a group received on working line `w`: delay and SQ noted, its TU pointer, errors counted (R598, R617). -/
def State.memberRx (w : Nat) (s : State) (m : MemberIn) : State :=
  match tget? s.framer.groups m.group with
  | none => s
  | some g =>
    let tu := g.ty != 3
    let here (x : Member × Nat) : Bool := x.2 == m.pos && x.1.lane == w
    let note (x : Member × Nat) : Member :=
      if here x then { x.1 with delay := m.delay, sq := m.sq, ptr := if tu then x.1.ptr.next m.ptr else x.1.ptr, rei := m.bip } else x.1
    let s := s.updGroup m.group fun g => { g with members := g.members.zipIdx.map note }
    if tu && g.members.zipIdx.any here then
      ((s.pathBump (groupKey m.group) 4 m.bip).pathBump (groupKey m.group) 12 m.rei).pathBump (groupKey m.group) 16
        (if m.ptr = .justified then 1 else 0)
    else s

/-- A member's TU pointer is lost: TU-LOP or TU-AIS. A VC-4 member has none. -/
def Vcat.tuDown (g : Vcat) (m : Member) : Bool := g.ty != 3 && m.ptr.st != 0

/-- LOA of a group evaluated (R617), its members' TU defects, and the link state of its home port (R619). -/
def State.groupEval (s : State) (gi : Nat) : State :=
  match tget? s.framer.groups gi with
  | none => s
  | some g =>
    let lo := g.members.foldl (fun a m => min a m.delay) (match g.members with | m :: _ => m.delay | [] => 0)
    let hi := g.members.foldl (fun a m => max a m.delay) 0
    let far := decide ((if g.maxDelay = 0 then 125 else 1000 * g.maxDelay) < hi - lo)
    let sq := g.members.zipIdx.any fun x => x.1.sq != x.2
    let lost := g.members.any fun m => s.defects (laneKey (s.serving? m.lane)) &&& 0x6#32 != 0 || s.auDown m.lane m.a || g.tuDown m
    let s := (s.updGroup gi fun g => { g with stats := tset g.stats 32 (hi - lo) }).setDefect (groupKey gi) 7 (g.members.any g.tuDown)
    let s := s.setDefect (groupKey gi) 13 (far || sq || lost)
    let up := s.flows (groupKey gi) && !(s.defects (groupKey gi)).getLsbD 13
    if s.flows (groupKey gi) || !((s.homeGroups g.home).any fun e => s.flows (groupKey e.1)) then
      if (s.port g.home).up = up then s else s.setLink g.home up
    else s

/-- V5 without its BIP-2: REI, signal label and RDI (R598, Table 19.4). -/
def v5Of (rei label : Nat) (rdi : Bool) : Nat := (if rei = 0 then 0 else 32) + label * 2 + (if rdi then 1 else 0)

/-- G1: the count of REI and RDI. -/
def g1Of (rei : Nat) (rdi : Bool) : Nat := min rei 8 * 16 + (if rdi then 8 else 0)

/-- S1 of the multiframe sent for a tributary: whether it is a justification bit depends on the mapper's FIFO, whose fill the spec does
not give; a free value decides each, in the first frame of a multiframe (R604). -/
def State.justify (s : State) (i : Nat) : State × Bool :=
  match tget? s.framer.e1 i with
  | some e =>
    if e.txFrame % 4 = 0 then
      let (v, s) := s.draw
      if v.getLsbD 0 then (s.pathBump (e1Key i) 16 1, true) else (s, false)
    else (s, false)
  | none => (s, false)

/-- The E1 of a tributary sent in its VC-12. -/
def State.tribTx (a : State × List TribTx) (i : Nat) : State × List TribTx :=
  match tget? a.1.framer.e1 i with
  | none => a
  | some e =>
    let (e', f) := e.send (a.1.flows (e1Key i))
    let (s, stuff) := (a.1.updE1 i fun _ => { e' with rei := 0 }).justify i
    (s, a.2 ++ [{ path := i, v5 := v5Of e.rei 2 (e.defects.getLsbD 7), stuff := stuff, frame := f }])

/-- The multiframe indicator sent: of VC-3 and VC-4 it counts frames, of VC-12 units of 16 ms. Its origin the spec leaves open. -/
def State.mfi (s : State) (ty : Nat) : Nat := if ty = 1 then s.now / 16000000 % 32 else s.now / 125000 % 4096

/-- The VCAT members sent on working line `w` (R616 to R618). -/
def State.membersTx (s : State) (w : Nat) : List MemberTx :=
  s.framer.groups.flatMap fun e => (e.2.members.zipIdx.filter fun m => m.1.lane == w).map fun m =>
    { group := e.1, pos := m.2, sq := m.2, mfi := s.mfi e.2.ty, label := if e.2.ty = 1 then 0x0D else 0x1B
      status := if e.2.ty = 1 then v5Of m.1.rei 5 (e.2.tuDown m.1) else g1Of m.1.rei (if e.2.ty = 2 then e.2.tuDown m.1 else s.auDown w m.1.a)
      idle := !(s.port e.2.home).up }

/-- The AU-4s sent on working line `w`: C2 for TUG structure or a VCAT member, 0 while the line is HELD, and G1 (R598, R620). -/
def State.auTx (s : State) (w : Nat) (l : Lane) : List (Nat × Nat × Nat) :=
  (List.range (modeAus l.mode)).map fun i =>
    let a := i + 1
    let member := s.framer.groups.any fun e => e.2.ty == 3 && e.2.members.any fun m => m.lane == w && m.a == a
    (a, if !s.flows (laneKey w) then 0 else if member then 0x1B else 2, g1Of (tget 0 l.auRei a) (thas l.au a && s.auDown w a))

/-- The lower paths of working line `w` for one frame, received on the line that serves it: AU-4s, tributaries and members, then the
read at 8 kHz and the frames sent. -/
def State.lowerPaths (s : State) (w x : Nat) (rx : LineRx) : State × List TribTx :=
  let bad := s.defects (laneKey x) &&& 0xE#32 != 0 || !(match tget? s.framer.lanes x with | some l => l.inFrame | none => false)
  let s := if bad then s else s.auRx w rx.au
  let s := (s.tribsOf w).foldl (fun s i =>
    match tget? s.framer.e1 i with
    | none => s
    | some e =>
      let bad := bad || s.auDown w e.a
      let t := rx.trib.find? fun t => t.a == e.a && t.k == e.k && t.l == e.l && t.m == e.m
      let s := match t with | some t => if bad then s else s.tribRx i t | none => s
      match tget? s.framer.e1 i with
      | none => s
      | some e =>
        let (e, n) := e.read (bad || t.isNone || e.ptr.st != 0)
        (s.updE1 i fun y => { e with stats := y.stats }).pathBump (e1Key i) 20 n) s
  let s := if bad then s else rx.members.foldl (State.memberRx w) s
  let (s, fs) := (s.tribsOf w).foldl State.tribTx (s, [])
  ((s.framer.groups.map (·.1)).foldl State.groupEval s, fs)

/-- The working line that a lane protects. -/
def State.protects (s : State) (x : Nat) : Option (Nat × Msp) :=
  s.framer.lanes.findSome? fun e => match e.2.msp with | some p => if p.prot = x then some (e.1, p) else none | none => none

/-- The frame sent on lane `y` of working line `w`, and the errors it returns spent. -/
def State.lineSend (s : State) (w y k1 k2 : Nat) (fs : List TribTx) : State :=
  match tget? s.framer.lanes w, tget? s.framer.lanes y with
  | some l, some x =>
    let held := !s.flows (laneKey w)
    let rdi := s.defects (laneKey y) &&& 0xE#32 != 0
    (s.emit (.line y {
      loop := x.loop && !x.defects.getLsbD 1, k1 := k1, k2 := if rdi then k2 / 8 * 8 + 6 else k2, m1 := x.rei, s1 := 0x0F
      trace := if s.now / 125000 % 16 = 0 then 1 else 0, au := s.auTx w l, trib := if held then [] else fs
      members := if held then [] else s.membersTx w })).updLane y fun x => { x with rei := 0 }
  | _, _ => s

/-- One 125 µs frame of an SDH lane, received and sent (R595 to R615). -/
def State.lineFrame (s : State) (x : Nat) (rx : LineRx) : State :=
  match tget? s.framer.lanes x with
  | none => s
  | some l =>
    if modeAus l.mode = 0 then s
    else
      let s := s.laneAlign x rx.patterns
      let aligned := match tget? s.framer.lanes x with | some l => l.inFrame | none => false
      let s := if rx.patterns.isEmpty then s else s.setDefect (laneKey x) 1 false
      let s := if aligned then s.laneOverhead x rx else s
      let prot := s.protects x
      let s := match prot with
        | some (w, p) => if aligned then s.mspReceive w p rx.k1.toNat rx.k2.toNat else s.mspEval w
        | none => s.mspEval x
      let w := match prot with | some (w, _) => w | none => x
      if s.serving? w ≠ x then s
      else
        let (s, fs) := s.lowerPaths w x rx
        match (tget? s.framer.lanes w).bind (·.msp) with
        | some p =>
          let (k1, k2) := s.mspSend w p
          (s.lineSend w w 0 0 fs).lineSend w p.prot k1 k2 fs
        | none => s.lineSend w w 0 0 fs

/-- LOS_DECLARE: no transitions for 100 µs (Table 19.4); a loop-timed lane sends with local timing meanwhile (R597). -/
def execLosDeclare (lane : Nat) (s : State) : Host.Outcome State Fault Refusal :=
  if lane < 24 ∨ 32 ≤ lane then .fault .noSuchUnit
  else
    match tget? s.framer.lanes lane with
    | none => .next s
    | some l =>
      if modeAus l.mode = 0 then .next s
      else
        let s := if l.inFrame then s.pathBump (laneKey lane) 28 1 else s
        let s := (s.updLane lane fun l => { l with inFrame := false, cands := [] }).setDefect (laneKey lane) 1 true
        .next (s.mspEval (match s.protects lane with | some (w, _) => w | none => lane))

/-- LOF_DECLARE: 3 ms in SEARCH (R599). -/
def execLofDeclare (lane : Nat) (s : State) : Host.Outcome State Fault Refusal :=
  match tget? s.framer.lanes lane with
  | none => .next s
  | some l =>
    if l.inFrame || modeAus l.mode == 0 then .next s
    else
      let s := s.setDefect (laneKey lane) 2 true
      .next (s.mspEval (match s.protects lane with | some (w, _) => w | none => lane))

/-- LOF_CLEAR: 3 ms in IN_FRAME (R599). -/
def execLofClear (lane : Nat) (s : State) : Host.Outcome State Fault Refusal :=
  match tget? s.framer.lanes lane with
  | none => .next s
  | some l =>
    if !l.inFrame then .next s
    else
      let s := s.setDefect (laneKey lane) 2 false
      .next (s.mspEval (match s.protects lane with | some (w, _) => w | none => lane))

/-- CRC4_MULTIFRAME_TIMEOUT: no CRC-4 multiframe alignment within 8 ms of FAS alignment; the alignment was false, SEARCH
restarts and LOMF is declared (R602). -/
def execCrc4MultiframeTimeout (path : Nat) (s : State) : Host.Outcome State Fault Refusal :=
  match tget? s.framer.e1 path with
  | none => .next s
  | some e =>
    if e.rx.inFrame && !e.rx.crcOn && e.crcMode != 0 && !e.rx.crcOff then
      let s := (s.updE1 path fun e => { e with rx := e.rx.search }).pathBump (e1Key path) 28 1
      .next ((s.setDefect (e1Key path) 8 true).setDefect (e1Key path) 10 true)
    else .next s

/-- CRC4_AUTO_FALLBACK: in auto mode, 400 ms without multiframe alignment; the path goes on without CRC-4 (R602). -/
def execCrc4AutoFallback (path : Nat) (s : State) : Host.Outcome State Fault Refusal :=
  match tget? s.framer.e1 path with
  | none => .next s
  | some e =>
    if e.crcMode = 2 ∧ e.rx.crcOn = false ∧ e.rx.crcOff = false then
      let s := s.updE1 path fun e => { e with rx := { e.rx with crcOff := true } }
      .next ((s.setDefect (e1Key path) 10 false).setDefect (e1Key path) 12 true)
    else .next s

/-! ### The block side of TDM legs (R609, R610) -/

/-- The 16 samples of a timeslot in the frames of the block just ended; a missing one is zero, `none`. -/
def State.tdmSamples (s : State) (path ts : Nat) : List (Option Byte) :=
  match tget? s.framer.e1 path with
  | none => List.replicate 16 none
  | some e => (List.range 16).map fun i => match e.rxDone.getD i none with | some f => f[ts]? | none => none

/-- Samples to send in a timeslot. -/
def State.tdmSend (s : State) (path ts : Nat) (b : Bytes) : State :=
  s.updE1 path fun e => { e with tx := tset e.tx ts (((tget? e.tx ts).getD []) ++ b) }

/-- At a block start the frames of the running block close, and none of them is delivered in a later one (R610); samples missing for a
live leg are counted as zeroed. -/
def State.framerBlock (s : State) : State :=
  (s.framer.e1.map (·.1)).foldl (fun s i =>
    match tget? s.framer.e1 i with
    | none => s
    | some e =>
      let got := (e.rxNow.filter Option.isSome).length
      let legs := (s.audio.legs.filter fun l => u8 l.2.cfg 0 == 2 && u32 l.2.cfg 24 % 2 ^ 20 == i).length
      (s.updE1 i fun e => { e with rxDone := e.rxNow.take 16, rxNow := [] }).pathBump (e1Key i) 24 ((16 - got) * legs)) s

/-! ### GFP (R618) -/

/-- A GFP core header of 4 bytes, its single-bit error corrected where `fix` allows (R618). -/
def gfpCore (fix : Bool) (h : Bytes) : Option Nat :=
  let ok (n : Nat) : Bool := crc16 (be 2 (n / 65536)) == BitVec.ofNat 16 (n % 65536)
  let n := bfld (gfpBalance h) 0 4
  if ok n then some (n / 65536)
  else if fix then ((List.range 32).map fun i => n ^^^ 2 ^ i).findSome? fun m => if ok m then some (m / 65536) else none
  else none

/-- A received GFP frame of a group, its payload area descrambled with `k`: the delineation state, the descrambler, the Ethernet frame,
and whether the frame is counted as discarded (R618). -/
def gfpReceive (st : Nat) (k : BitVec 43) (d : Bytes) : Nat × BitVec 43 × Option Bytes × Bool :=
  match gfpCore (st == 2) d with
  | none => (0, k, none, false)
  | some pli =>
    if st < 2 then (st + 1, k, none, false)
    else if pli < 4 then (2, k, none, false)
    else
      let (k, p) := scramble true k ((d.drop 4).take pli)
      let ty := bfld p 0 2
      let area := p.drop 4
      let pfi := ty / 4096 % 2 == 1
      let body := if pfi then area.take (area.length - 4) else area
      let ok := crc16 (be 2 ty) == BitVec.ofNat 16 (bfld p 2 2) && ty / 8192 == 0 && ty / 256 % 16 == 0 && ty % 256 == 1 &&
        (!pfi || bfld area (area.length - 4) 4 == (fcs body).toNat)
      if ok then (2, k, some body, false) else (2, k, none, true)

/-! ### Commands -/

/-- A lane is an SDH working line: it lives, it is no protection line. -/
def State.sdhWorking (s : State) (l : Nat) : Bool :=
  s.objLive (laneKey l) && (match tget? s.framer.lanes l with | some x => modeAus x.mode != 0 | none => false) &&
  (s.protects l).isNone

/-- The own part of LineCreate (Table 19.7). -/
def effLineCreate (r : Req) (s : State) : Eff :=
  let p := r.payload
  let l := u8 p 0
  let sdh := modeAus (u8 p 1) != 0
  nullTarget r (
  need (decide (24 ≤ l) && decide (l < 32)) .invalidArg (
  need ((s.inService || s.mode == .maintenance) && !thas s.objs (laneKey l)) .wrongState (
  need (decide (1 ≤ u8 p 1) && decide (u8 p 1 ≤ 6) && decide (u8 p 3 ≤ 1) && zeros p 6 2 &&
    (if sdh then (u8 p 2 == 1 || u8 p 2 == 2) && decide (3 ≤ u8 p 4) && decide (u8 p 4 ≤ 5) &&
       (u8 p 5 == 0 || (decide (5 ≤ u8 p 5) && decide (u8 p 5 ≤ 9)))
     else u8 p 2 == 0 && u8 p 4 == 0 && u8 p 5 == 0)) .invalidArg (
  let x : Lane := { mode := u8 p 1, loop := u8 p 2 == 2, sf := u8 p 4, sd := u8 p 5, inFrame := false, cands := [], pos := 0,
                    badA := 0, aisRow := 0, au := [], rei := 0, auRei := [], msp := none, defects := 0, stats := [] }
  let s := (s.addObj (laneKey l) r.mbx (u8 p 3 == 1) 0 []).updFramer fun f => { f with lanes := tset f.lanes l x }
  let h := s.handle (laneKey l)
  if u8 p 3 = 1 then .later [] h (s.schedule .line (r.origin h) (.live (laneKey l) true)) else .done [] h s))))

/-- LINE_CREATE. -/
def execLineCreate (r : Req) (s : State) : Host.Outcome State Fault Refusal :=
  .next (s.command 0x0E00 (· == 8) r (effLineCreate r))

/-- A location (a, k, l, m) lies in an AU-4 structure of `n` AU-4s: VC-4 has k = l = m = 0, VC-3 l = m = 0 (R596). -/
def locOk (ty n a k l m : Nat) : Bool :=
  decide (1 ≤ a) && decide (a ≤ n) &&
  (if ty = 3 then k == 0 && l == 0 && m == 0
   else decide (1 ≤ k) && decide (k ≤ 3) &&
     (if ty = 2 then l == 0 && m == 0
      else decide (1 ≤ l) && decide (l ≤ 7) && decide (1 ≤ m) && decide (m ≤ 3)))

/-- Two locations of one line overlap: a 0 in either takes in every value. -/
def locOverlap (a k lm b j lm' : Nat) : Bool :=
  a == b && (k == 0 || j == 0 || k == j) && (lm == 0 || lm' == 0 || lm == lm')

/-- A location of a line is terminated by an E1 path or a VCAT member. -/
def State.terminated (s : State) (lane a k lm : Nat) : Bool :=
  (s.framer.e1.any fun e => e.2.lane == lane && locOverlap a k lm e.2.a e.2.k (e.2.l * 16 + e.2.m)) ||
  (s.framer.groups.any fun g => g.2.members.any fun m => m.lane == lane && locOverlap a k lm m.a m.k m.lm)

/-- The own part of E1PathCreate (Table 19.8). -/
def effE1PathCreate (r : Req) (s : State) : Eff :=
  let p := r.payload
  nullTarget r (
  s.withHandle (u32 p 0) [9] fun lk =>
  let lane := kidx lk - 544
  let n := match tget? s.framer.lanes lane with | some x => modeAus x.mode | none => 0
  need s.inService .wrongState (
  need (decide (568 ≤ kidx lk) && s.sdhWorking lane && locOk 1 n (u8 p 4) (u8 p 5) (u8 p 6) (u8 p 7) && decide (u8 p 8 ≤ 2) &&
    decide (u8 p 9 ≤ 1) && decide (u8 p 11 ≤ 1)) .invalidArg (
  need (!s.terminated lane (u8 p 4) (u8 p 5) (u8 p 6 * 16 + u8 p 7)) .noResource (
  s.create 9 0 504 fun key =>
  let e : E1 := { lane := lane, a := u8 p 4, k := u8 p 5, l := u8 p 6, m := u8 p 7, crcMode := u8 p 8, ts16 := u8 p 9,
                  idle := u8 p 10, ptr := PtrState.init, rx := E1Rx.init, slip := [], lastRead := [], rxNow := [], rxDone := [],
                  tx := [], casTx := [], txFrame := 0, txCrc := 0, txCrcLast := 0, rei := 0, defects := 0, stats := [] }
  let s := (s.addObj key r.mbx (u8 p 11 == 1) 0 []).updFramer fun f => { f with e1 := tset f.e1 (kidx key) e }
  let h := s.handle key
  if u8 p 11 = 1 then .later [] h (s.schedule .line (r.origin h) (.live key true)) else .done [] h s))))

/-- E1_PATH_CREATE. -/
def execE1PathCreate (r : Req) (s : State) : Host.Outcome State Fault Refusal :=
  .next (s.command 0x0E01 (· == 12) r (effE1PathCreate r))

/-- The members of a VcatGroupCreate payload. -/
def vcatMembers (p : Bytes) : List Member :=
  (List.range (u8 p 1)).map fun i =>
    let o := 16 + 4 * i
    { lane := u8 p o, a := u8 p (o + 1), k := u8 p (o + 2), lm := u8 p (o + 3), delay := 0, sq := i, ptr := PtrState.init, rei := 0 }

/-- The cost of a VCAT group (Table 4.7). -/
def vcatCost (ty x delay : Nat) : Costs :=
  let rate := x * memberRate ty * 125
  if delay = 0 then [] else costOf [(0x000A, 0, ceilDiv (2 * rate) 1000), (0x000D, 0, ceilDiv (rate * delay) 1024000)]

/-- No two members of a list overlap. -/
def membersApart : List Member → Bool
  | [] => true
  | m :: r => (r.all fun x => !(x.lane == m.lane && locOverlap m.a m.k m.lm x.a x.k x.lm)) && membersApart r

/-- The ceiling of a home lane's port for a group (R619). -/
def Vcat.ceiling (g : Vcat) : Nat := 96 * g.rate / 100

/-- The own part of VcatGroupCreate (Table 19.9, R616, R619). -/
def effVcatGroupCreate (r : Req) (s : State) : Eff :=
  let p := r.payload
  let ty := u8 p 0
  let x := u8 p 1
  let home := u8 p 3
  let ms := vcatMembers p
  let on := u8 p 5 == 1
  let aus (l : Nat) : Nat := match tget? s.framer.lanes l with | some x => modeAus x.mode | none => 0
  nullTarget r (
  need (decide (24 ≤ home) && decide (home < 32) && ms.all fun m => decide (24 ≤ m.lane) && decide (m.lane < 32)) .invalidArg (
  need s.inService .wrongState (
  need (decide (1 ≤ ty) && decide (ty ≤ 3) && decide (1 ≤ x) && decide (x ≤ (if ty = 3 then 16 else 48)) &&
    decide (u8 p 2 ≤ 64) && decide (u8 p 4 ≤ 1) && decide (u8 p 5 ≤ 1) && zeros p 6 10 &&
    ms.all fun m => s.sdhWorking m.lane && locOk ty (aus m.lane) m.a m.k (m.lm / 16) (m.lm % 16)) .invalidArg (
  need (membersApart ms && ms.all fun m => !s.terminated m.lane m.a m.k m.lm) .noResource (
  need (!(on && (s.homeGroups home).any fun e => s.isActive (groupKey e.1))) .noResource (
  s.create 9 504 64 fun key =>
  let g := kidx key - 504
  let v : Vcat := { ty := ty, members := ms, maxDelay := u8 p 2, home := home, pfcs := u8 p 4 == 1, gfp := 0, scrTx := 0, scrRx := 0, defects := 0, stats := [] }
  let cost := vcatCost ty x (u8 p 2)
  s.admission cost [] fun s1 _ =>
  let used := tget 0 s.used (bkey 0x000B home)
  if on && decide (v.ceiling < used) then .fail .noBudget (noBudget 0x000B 0 home used v.ceiling)
  else
    let s1 := if (s.homeGroups home).isEmpty then s1.updPort home fun q => { q with overhead := if v.pfcs then 12 else 8 } else s1
    let s1 := ((s1.addObj key r.mbx on 0 cost).updFramer fun f => { f with groups := tset f.groups g v }).addQueue (0xB100 + g)
      (tget 0 cost (bkey 0x000D 0))
    let h := s1.handle key
    if on then .later [] h (s1.schedule .line (r.origin h) (.live key true)) else .done [] h s1))))))

/-- VCAT_GROUP_CREATE. -/
def execVcatGroupCreate (r : Req) (s : State) : Host.Outcome State Fault Refusal :=
  .next (s.command 0x0E02 (· == 16 + 4 * u8 r.payload 1) r (effVcatGroupCreate r))

/-- What blocks the destroy of a framer path (Table 3.5): TDM legs on an E1, lower paths inside a line. -/
def State.pathBusy (s : State) (key : Nat) : Bool :=
  let i := kidx key
  if i < 504 then s.audio.legs.any fun l => u8 l.2.cfg 0 == 2 && u32 l.2.cfg 24 % 2 ^ 20 == i
  else if i < 568 then false
  else (s.framer.e1.any fun e => e.2.lane == i - 544) || s.framer.groups.any fun g => g.2.members.any fun m => m.lane == i - 544

/-- The own part of PathDestroy. -/
def effPathDestroy (r : Req) (s : State) : Eff :=
  s.withHandle r.tgt [9] fun key => need (!s.pathBusy key) .wrongState (s.destroyAt r key .line)

/-- PATH_DESTROY. -/
def execPathDestroy (r : Req) (s : State) : Host.Outcome State Fault Refusal :=
  .next (s.command 0x0E03 (· == 0) r (effPathDestroy r))

/-- A framer path gone at its boundary. -/
def State.dropPath (s : State) (key : Nat) : State :=
  let i := kidx key
  if i < 504 then s.updFramer fun f => { f with e1 := tdel f.e1 i }
  else if i < 568 then
    let home := match tget? s.framer.groups (i - 504) with | some g => g.home | none => 0
    let s := (s.updFramer fun f => { f with groups := tdel f.groups (i - 504) }).dropQueue (0xB100 + (i - 504))
    if (s.port home).up && !((s.homeGroups home).any fun e => s.flows (groupKey e.1)) then s.setLink home false else s
  else
    s.updFramer fun f =>
      let clear : Lane → Lane := fun l => match l.msp with | some p => if p.prot = i - 544 then { l with msp := none } else l | none => l
      { f with lanes := (tdel f.lanes (i - 544)).map fun e => (e.1, clear e.2) }

/-- A path's state of an Enable or Hold in force: an E1 that returns may look for CRC-4 again (R602), a group's port
follows (R620). -/
def State.pathFlow (s : State) (key : Nat) (on : Bool) : State :=
  let i := kidx key
  if i < 504 then
    if on then
      (s.updE1 i fun e => { e with rx := { e.rx with crcOff := false } }).setDefect key 12 false
    else s
  else if i < 568 then
    if on then s.groupEval (i - 504)
    else match tget? s.framer.groups (i - 504) with
      | some g => if (s.port g.home).up then s.setLink g.home false else s
      | none => s
  else s

/-- The own part of PathEnable (R619, R620). -/
def effPathEnable (r : Req) (s : State) : Eff :=
  s.withHandle r.tgt [9] fun key =>
  let g := if 504 ≤ kidx key && kidx key < 568 then tget? s.framer.groups (kidx key - 504) else none
  need (!s.isActive key && (match g with
    | some v => !(s.homeGroups v.home).any fun e => s.isActive (groupKey e.1)
    | none => true)) .wrongState (
  let go := Eff.later [] r.tgt ((s.updObj key fun o => { o with active := true }).schedule .line (r.origin r.tgt) (.live key true))
  match g with
  | some v =>
    let used := tget 0 s.used (bkey 0x000B v.home)
    if v.ceiling < used then .fail .noBudget (noBudget 0x000B 0 v.home used v.ceiling) else go
  | none => go)

/-- PATH_ENABLE. -/
def execPathEnable (r : Req) (s : State) : Host.Outcome State Fault Refusal :=
  .next (s.command 0x0E04 (· == 0) r (effPathEnable r))

/-- The own part of PathHold. -/
def effPathHold (r : Req) (s : State) : Eff :=
  s.withHandle r.tgt [9] fun key =>
  need (s.isActive key) .wrongState (
  .later [] r.tgt ((s.updObj key fun o => { o with active := false }).schedule .line (r.origin r.tgt) (.live key false)))

/-- PATH_HOLD. -/
def execPathHold (r : Req) (s : State) : Host.Outcome State Fault Refusal :=
  .next (s.command 0x0E05 (· == 0) r (effPathHold r))

/-- A pair as MspSet makes it. -/
def Msp.new (prot flags wtr : Nat) : Msp where
  prot := prot
  bidir := flags % 2 == 1
  revertive := flags / 2 == 1
  wtr := wtr
  cmd := 0
  sel := false
  waiting := false
  dnr := false
  k1 := 0
  k2 := 0
  k1Last := 0
  k2Last := 0
  k1Same := 0
  k2Same := 0
  stale := 0
  failed := 0
  mismatch := false

/-- The own part of MspSet: a null protection line dissolves the pair. -/
def effMspSet (r : Req) (s : State) : Eff :=
  let p := r.payload
  s.withHandle r.tgt [9] fun wk =>
  s.withHandle0 (u32 p 0) [9] fun pk? =>
  let w := kidx wk - 544
  let lane (l : Nat) : Option Lane := tget? s.framer.lanes l
  let lower (l : Nat) : Bool := s.pathBusy (laneKey l)
  let mode (l : Nat) : Nat := match lane l with | some x => x.mode | none => 0
  let fl := u8 p 4
  need (decide (568 ≤ kidx wk) && modeAus (mode w) != 0) .noSuchObject (
  match pk? with
  | none =>
    need ((match lane w with | some l => l.msp.isSome | none => false) && !lower w) .wrongState (
    need (fl == 0 && u8 p 5 == 0 && zeros p 6 2) .invalidArg (
    .done [] r.tgt (s.updLane w fun l => { l with msp := none })))
  | some pk =>
    let q := kidx pk - 544
    need (decide (568 ≤ kidx pk) && q != w) .invalidArg (
    need (!lower w && !lower q && mode w == mode q && (s.protects w).isNone &&
      (match s.protects q with | some (x, _) => x == w | none => true) &&
      (match lane q with | some l => l.msp.isNone | none => true)) .wrongState (
    need (decide (fl ≤ 3) && (if fl / 2 = 1 then decide (1 ≤ u8 p 5) && decide (u8 p 5 ≤ 12) else u8 p 5 == 0) && zeros p 6 2)
      .invalidArg (
    .done [] r.tgt (s.updLane w fun l => { l with msp := some (Msp.new q fl (u8 p 5)) })))))

/-- MSP_SET. -/
def execMspSet (r : Req) (s : State) : Host.Outcome State Fault Refusal :=
  .next (s.command 0x0E06 (· == 8) r (effMspSet r))

/-- The own part of MspCommand (R614): clear also ends a running wait-to-restore. -/
def effMspCommand (r : Req) (s : State) : Eff :=
  let p := r.payload
  s.withHandle r.tgt [9] fun wk =>
  let w := kidx wk - 544
  need (decide (568 ≤ kidx wk)) .noSuchObject (
  match (tget? s.framer.lanes w).bind (·.msp) with
  | none => .fail .wrongState []
  | some m =>
    need (decide (u8 p 0 ≤ 5) && zeros p 1 3) .invalidArg (
    .done [] r.tgt ((s.updLane w fun l => { l with msp := some { m with cmd := u8 p 0, waiting := m.waiting && u8 p 0 != 0 } }).mspEval w)))

/-- MSP_COMMAND. -/
def execMspCommand (r : Req) (s : State) : Host.Outcome State Fault Refusal :=
  .next (s.command 0x0E07 (· == 4) r (effMspCommand r))

/-- The ABCD value of a channel from a CAS multiframe on. -/
def State.setCas (s : State) (path ch v : Nat) : State := s.updE1 path fun e => { e with casTx := tset e.casTx ch v }

/-- An E1 path whose next frame sent on lane `x` begins a CAS multiframe (R607). -/
def State.casStarts (s : State) (x path : Nat) : Bool :=
  match tget? s.framer.e1 path with
  | some e => e.txFrame == 0 && s.serving? e.lane == x
  | none => false

/-- The own part of CasSet (R607). -/
def effCasSet (r : Req) (s : State) : Eff :=
  let p := r.payload
  s.withHandle r.tgt [9] fun key =>
  match (if kidx key < 504 then tget? s.framer.e1 (kidx key) else none) with
  | none => .fail .noSuchObject []
  | some e =>
    need (decide (1 ≤ u8 p 0) && decide (u8 p 0 ≤ 30)) .invalidArg (
    need (e.ts16 == 1) .wrongState (
    need (decide (1 ≤ u8 p 1) && decide (u8 p 1 ≤ 15) && zeros p 2 2) .invalidArg (
    .later [] r.tgt (s.schedule (.cas (kidx key)) (r.origin r.tgt) (.cas (kidx key) (u8 p 0) (u8 p 1))))))

/-- CAS_SET. -/
def execCasSet (r : Req) (s : State) : Host.Outcome State Fault Refusal :=
  .next (s.command 0x0E08 (· == 4) r (effCasSet r))

/-- The own part of FramerStatusGet (Table 19.10). -/
def effFramerStatusGet (r : Req) (s : State) : Eff :=
  s.withHandle r.tgt [9] fun key =>
  let i := kidx key
  let st : Table Nat :=
    if i < 504 then (match tget? s.framer.e1 i with | some e => e.stats | none => [])
    else if i < 568 then (match tget? s.framer.groups (i - 504) with | some g => g.stats | none => [])
    else match tget? s.framer.lanes (i - 544) with | some l => l.stats | none => []
  let m := if 568 ≤ i then (tget? s.framer.lanes (i - 544)).bind (·.msp) else none
  let g := fun o => tget 0 st o
  .done (le 4 (s.defects key).toNat ++ ((List.range 9).map fun n => le 4 (g (4 + 4 * n))).flatten ++
    (match m with | some p => le 1 (if p.sel then 1 else 0) ++ le 1 p.k1 ++ le 1 p.k2 | none => le 3 0) ++
    le 1 (if s.isActive key then 1 else 0) ++ le 4 0) r.tgt s

/-- FRAMER_STATUS_GET. -/
def execFramerStatusGet (r : Req) (s : State) : Host.Outcome State Fault Refusal :=
  .next (s.command 0x0E09 (· == 0) r (effFramerStatusGet r))

end Sys2Proof.Machine
end

