-- ==== Sys2Proof/Machine/Garnet.lean ====
section
/-!
DEFINITION. The Garnet DSP cores as a kernel sees them (R214 to R251): bundles, the operations of Table 7.5, loops,
timing and exceptions; the image checks of the kernel loader; kernels and bindings.
-/

namespace Sys2Proof.Machine

/-! ### Operations -/

/-- A 31-bit slot operation as a number (Table 7.4). -/
abbrev KOp := Nat

def KOp.cls (o : KOp) : Nat := o / 2 ^ 27 % 16
def KOp.pred (o : KOp) : Nat := o / 2 ^ 23 % 16
def KOp.sat (o : KOp) : Bool := o / 2 ^ 22 % 2 == 1
def KOp.func (o : KOp) : Nat := o / 2 ^ 18 % 16
def KOp.d (o : KOp) : Nat := o / 2 ^ 12 % 64
def KOp.a (o : KOp) : Nat := o / 64 % 64
def KOp.b (o : KOp) : Nat := o % 64
/-- The 12-bit signed immediate. -/
def KOp.imm (o : KOp) : Int := signed 12 (o % 4096)
/-- The accumulator or predicate named in [14:12]. -/
def KOp.d3 (o : KOp) : Nat := o / 2 ^ 12 % 8

/-- Slot `i` of a bundle (Table 7.3). -/
def slotOp (b : BitVec 128) (i : Nat) : KOp := b.toNat / 2 ^ (31 * i) % 2 ^ 31

/-- LE0 and LE1 of a bundle. -/
def le0 (b : BitVec 128) : Bool := b.getLsbD 127
def le1 (b : BitVec 128) : Bool := b.getLsbD 126

/-- The functions listed for a class (Table 7.5). -/
def funcOk (cls f : Nat) : Bool :=
  match cls with
  | 0 => f == 0 | 1 => decide (f ≤ 8) | 2 => decide (f ≤ 4) | 3 => decide (f ≤ 1) | 4 => true | 5 => decide (f ≤ 3)
  | 6 => decide (f % 8 ≤ 3) | 7 => decide (f ≤ 3) | 8 => decide (f ≤ 5) | 9 => f == 0 || f == 2 || f == 4 || f == 5
  | 10 => decide (f ≤ 5) | 11 => decide (f % 8 ≤ 5) | 12 => decide (f ≤ 3) | _ => false

/-- The slots a class allows. -/
def slotAllowed (cls i : Nat) : Bool :=
  match cls with
  | 5 | 6 | 7 | 12 => i == 2 || i == 3
  | 8 | 9 => i == 0 || i == 1
  | 10 => i == 1
  | _ => true

/-- S = 1 is no error for the operation (Table 7.5): ACLR and AMOV stand in a class where S has a meaning. -/
def satAllowed (cls f : Nat) : Bool :=
  match cls with
  | 1 => true | 2 => f == 0 || f == 2 | 4 => true | 5 => f == 3 | 6 => true | 7 => true | _ => false

/-- An operation valid under R229: all of a NOP's bits are 0; PAIR2W names an even accumulator. -/
def opOk (o : KOp) (i : Nat) : Bool :=
  (if o.cls = 0 then o == 0 else true) && funcOk o.cls o.func && slotAllowed o.cls i && (!o.sat || satAllowed o.cls o.func) &&
  !(o.cls == 6 && o.func % 8 == 3 && o.d3 % 2 == 1)

/-- What an operation writes: (kind, register, latency), kind 0 for g, 1 for p, 2 for an accumulator that is not added to. -/
def KOp.dests (o : KOp) : List (Nat × Nat × Nat) :=
  match o.cls with
  | 1 | 2 | 3 | 4 => [(0, o.d, 1)]
  | 5 => [(0, o.d, 3)]
  | 7 => if o.func = 3 then [(0, o.d, 2)] else [(2, o.d3, 2)]
  | 8 => (0, o.d, 3) :: (if o.b / 32 = 1 then [(0, o.a, 1)] else [])
  | 9 => if o.b / 32 = 1 then [(0, o.a, 1)] else []
  | 11 => [(1, o.d3, 1)]
  | 12 => [(0, o.d, 2)]
  | _ => []

/-- Two slots of a bundle name the same destination with the same latency (R232). -/
def clash (b : BitVec 128) : Bool :=
  let l := [0, 1, 2, 3].map fun i => (slotOp b i).dests
  [(0, 1), (0, 2), (0, 3), (1, 2), (1, 3), (2, 3)].any fun e => (l.getD e.1 []).any fun x => (l.getD e.2 []).contains x

/-- The loop level an operation starts, 2 for none. -/
def loopLevel (b : BitVec 128) : Nat :=
  let o := slotOp b 1
  if o.cls = 10 then (if o.func = 2 || o.func = 3 then 0 else if o.func = 4 then 1 else 2) else 2

/-- The last bundle of the body that starts at `s`: the first from there with its end bit. -/
def bodyEnd (code : List (BitVec 128)) (level s : Nat) : Option Nat :=
  ((code.drop s).findIdx? fun b => if level = 0 then le0 b else le1 b).map (s + ·)

/-- The loop bodies of an image: level, first and last bundle; none where one does not end. -/
def bodies (code : List (BitVec 128)) : List (Nat × Nat × Option Nat) :=
  (code.zipIdx.filter fun x => loopLevel x.1 != 2).map fun x => (loopLevel x.1, x.2 + 1, bodyEnd code (loopLevel x.1) (x.2 + 1))

/-- Bundle `i` lies in a body. -/
def inBody (i : Nat) (x : Nat × Nat × Option Nat) : Bool :=
  decide (x.2.1 ≤ i) && match x.2.2 with | some e => decide (i ≤ e) | none => true

/-- The target of a BR in bundle `i`, none before the image's first bundle. -/
def brTarget (i : Nat) (o : KOp) : Option Nat :=
  let t : Int := (i : Int) + signed 18 (o % 2 ^ 18)
  if t < 0 then none else some t.toNat

/-- Bundle `i` breaks R235. A loop whose body no later bundle ends is refused with them (DESIGN CHOICE, log entry 98). -/
def breaks (code : List (BitVec 128)) (i : Nat) (b : BitVec 128) : Bool :=
  let ls := bodies code
  let here := ls.filter (inBody i)
  let o := slotOp b 1
  let loopBad := loopLevel b != 2 &&
    match bodyEnd code (loopLevel b) (i + 1) with
    | none => true
    | some e => (here.filter (inBody (i + 1))).any fun x =>
        (match x.2.2 with | some e' => decide (e' ≤ e) | none => true) || (x.1 == 0 && loopLevel b == 1)
  let aims (x : Nat × Nat × Option Nat) : Bool := match brTarget i o with | some t => inBody t x | none => false
  let brBad := o.cls == 10 && o.func == 0 && (here.any (fun x => !aims x) || ls.any fun x => aims x && !inBody i x)
  let pBad := [0, 1, 2, 3].any fun k => (slotOp b k).cls == 11 && (slotOp b k).d3 == 0
  loopBad || brBad || pBad

/-- The bundles of an image's code. -/
def bundles (code : Bytes) (n : Nat) : List (BitVec 128) :=
  (List.range n).map fun i => BitVec.ofNat 128 (fld code (16 * i) 16)

/-- The image checks of Table 7.8 on the bytes a descriptor of length `len` read: the reason and bundle of the first
failure. -/
def imageCheck (d : Bytes) : Option (Nat × Nat) :=
  let n := u16 d 12
  let code := bundles (d.drop 32) n
  if !(u32 d 0 == 0x314B4751 && u16 d 4 == 1 && u16 d 6 == 0x00B1) then some (1, 0)
  else if d.length ≠ 32 + 16 * n + u32 d 16 then some (2, 0)
  else if (crc32c (d.drop 32)).toNat ≠ u32 d 28 then some (3, 0)
  else if !(decide (129 ≤ u32 d 8) && decide (u32 d 8 ≤ 2944000) && decide (1 ≤ n) && decide (n ≤ 1024) && decide (u16 d 14 < n) &&
    decide (u32 d 16 ≤ 32768) && u32 d 16 % 8 == 0 && decide (u16 d 20 ≤ 4096) && u16 d 20 % 8 == 0 && decide (u16 d 22 ≤ 8192) &&
    u16 d 22 % 8 == 0 && decide (u8 d 24 ≤ 64) && decide (1 ≤ u8 d 25) && decide (u8 d 25 ≤ 3) && zeros d 26 2) then some (4, 0)
  else
    match code.findIdx? fun b => !([0, 1, 2, 3].all fun i => opOk (slotOp b i) i) || b.toNat / 2 ^ 124 % 4 != 0 with
    | some i => some (5, i)
    | none =>
      match code.findIdx? clash with
      | some i => some (6, i)
      | none =>
        match (code.zipIdx.find? fun x => breaks code x.2 x.1).map (·.2) with
        | some i => some (7, i)
        | none => none

/-! ### The core -/

/-- The registers and windows of one invocation (Tables 7.1 and 7.2). Accumulator entries 8 to 15 are the running sums
that a further MAC adds to (R231). -/
structure KCore where
  g : Table (BitVec 64)
  a : Table (BitVec 80)
  p : BitVec 16
  rrb : Nat
  lc0 : Nat
  ec0 : Nat
  lc1 : Nat
  rotating : Bool
  /-- body starts of the levels, one more than the bundle; 0 while the level does not run -/
  body0 : Nat
  body1 : Nat
  /-- results in flight: the bundle count at which they land, slot, kind (0 g, 1 p, 2 accumulator, 3 accumulator and
  running sum), register, value -/
  flight : List (Nat × Nat × Nat × Nat × Int)
  inp : Bytes
  out : Bytes
  par : Bytes
  scr : Bytes
  con : Bytes
  st : Bytes
  g5 : Nat
  g6 : Nat

/-- How an invocation ends. -/
inductive KEnd where
  | ret
  /-- cause of Table 7.14 and bundle -/
  | fault (cause bundle : Nat)
  deriving DecidableEq, Repr

/-- The physical register of a name (R220). -/
def KCore.phys (c : KCore) (n : Nat) : Nat := if n < 32 then n else 32 + (n - 32 + c.rrb) % 32

/-- A g register read; g0 is 0. -/
def KCore.gr (c : KCore) (n : Nat) : BitVec 64 := if n = 0 then 0 else tget 0 c.g (c.phys n)

/-- Its signed value. -/
def KCore.gi (c : KCore) (n : Nat) : Int := (c.gr n).toInt

/-- Lane `i` of `w` bits of a register, signed. -/
def lane (w i : Nat) (x : BitVec 64) : Int := signed w (x.toNat / 2 ^ (w * i) % 2 ^ w)

/-- Lanes of `w` bits put together, the lowest first. -/
def ofLanes (w : Nat) (l : List Int) : BitVec 64 :=
  BitVec.ofNat 64 ((l.zipIdx.map fun x => unsigned w x.1 * 2 ^ (w * x.2)).sum)

/-- A result of `w` bits: saturated where `sat`, otherwise wrapped by the field it lands in. -/
def satOr (sat : Bool) (w : Nat) (x : Int) : Int := if sat then satN w x else x

/-- ALU functions (class 0x1). -/
def alu (f : Nat) (x y : BitVec 64) : Int :=
  match f with
  | 0 => x.toInt + y.toInt
  | 1 => x.toInt - y.toInt
  | 2 => (x &&& y).toInt
  | 3 => (x ||| y).toInt
  | 4 => (x ^^^ y).toInt
  | 5 => min x.toInt y.toInt
  | 6 => max x.toInt y.toInt
  | 7 => x.toInt.natAbs
  | _ => -x.toInt

/-- One lane of class 0x4; `n` is the shift count. -/
def laneOp (f : Nat) (x y : Int) (n : Nat) : Int :=
  match f with
  | 0 => x + y
  | 1 => x - y
  | 2 => x * 2 ^ n
  | 3 => x / 2 ^ n
  | 4 => min x y
  | 5 => max x y
  | _ => x.natAbs

/-- Class 0x4: lanes, shift counts in h0 of B, PACK from the w lanes of A and B to the h lanes. -/
def laneAlu (f : Nat) (sat : Bool) (x y : BitVec 64) : BitVec 64 :=
  let w := if 8 ≤ f then 16 else 32
  let n := y.toNat % 2 ^ 16
  if f = 7 then ofLanes 16 ([lane 32 0 x, lane 32 1 x, lane 32 0 y, lane 32 1 y].map (satOr sat 16))
  else if f = 15 then Config.packH sat x y
  else ofLanes w ((List.range (64 / w)).map fun i => satOr sat w (laneOp (f % 8) (lane w i x) (lane w i y) n))

/-- Class 0x5. MULH4 takes the high 16 bits of each product and saturates -1 × -1 with S. -/
def multiply (f : Nat) (sat : Bool) (x y : BitVec 64) : BitVec 64 :=
  match f with
  | 0 => BitVec.ofInt 64 (x.toInt * y.toInt)
  | 1 => BitVec.ofInt 64 (x.toInt * y.toInt / 2 ^ 64)
  | 2 => Config.mulw x y
  | _ => ofLanes 16 ((List.range 4).map fun i =>
      if sat && lane 16 i x == -32768 && lane 16 i y == -32768 then 32767 else lane 16 i x * lane 16 i y / 65536)

/-- The products of class 0x6 for the accumulators they go to. -/
def macTerms (f d : Nat) (x y : BitVec 64) : List (Nat × Int) :=
  match f % 8 with
  | 0 => [(d, ((List.range 4).map fun i => lane 16 i x * lane 16 i y).sum)]
  | 1 => [(d, lane 32 0 x * lane 16 0 y + lane 32 1 x * lane 16 1 y)]
  | 2 => [(d, lane 32 0 x * lane 16 2 y + lane 32 1 x * lane 16 3 y)]
  | _ => [(d, lane 32 0 x * lane 16 0 y), (d + 1, lane 32 1 x * lane 16 0 y)]

/-- NORM: the redundant sign bits of a 64-bit value. -/
def normBits (x : BitVec 64) : Nat :=
  let m := if x.toInt < 0 then (-x.toInt - 1).toNat else x.toNat
  63 - (if m = 0 then 0 else Nat.log2 m + 1)

/-- A result put in flight. -/
def KCore.put (c : KCore) (due slot kind reg : Nat) (v : Int) : KCore :=
  { c with flight := c.flight ++ [(due, slot, kind, reg, v)] }

/-- The results that land at bundle count `n`, in the order of their slots: the higher slot stays (R230, R232). -/
def KCore.land (c : KCore) (n : Nat) : KCore :=
  let due := c.flight.filter fun e => decide (e.1 ≤ n)
  let c := { c with flight := c.flight.filter fun e => decide (n < e.1) }
  ([0, 1, 2, 3].flatMap fun s => due.filter fun e => e.2.1 == s).foldl (fun c e =>
    let r := e.2.2.2.1
    let v := e.2.2.2.2
    match e.2.2.1 with
    | 0 => if r = 0 then c else { c with g := tset c.g r (BitVec.ofInt 64 v) }
    | 1 => { c with p := (c.p &&& ~~~(BitVec.ofNat 16 (2 ^ r))) ||| (if v = 0 then 0 else BitVec.ofNat 16 (2 ^ r)) }
    | 2 => { c with a := tset c.a r (BitVec.ofInt 80 v) }
    | _ => { c with a := tset (tset c.a r (BitVec.ofInt 80 v)) (8 + r) (BitVec.ofInt 80 v) }) c

/-- The window that holds `n` bytes at an address, as (window, offset); writable windows alone where `wr` (Table 7.2). -/
def KCore.window (c : KCore) (addr n : Nat) (wr : Bool) : Option (Nat × Nat) :=
  let inn (base len : Nat) : Bool := decide (base ≤ addr) && decide (addr + n ≤ base + len)
  if inn 0x10200 384 then some (1, addr - 0x10200)
  else if inn 0x12000 c.scr.length then some (3, addr - 0x12000)
  else if inn c.g5 c.st.length then some (5, addr - c.g5)
  else if wr then none
  else if inn 0x10000 384 then some (0, addr - 0x10000)
  else if inn 0x10400 c.par.length then some (2, addr - 0x10400)
  else if inn c.g6 c.con.length then some (4, addr - c.g6)
  else none

/-- The bytes of a window. -/
def KCore.bytes (c : KCore) : Nat → Bytes
  | 0 => c.inp | 1 => c.out | 2 => c.par | 3 => c.scr | 4 => c.con | _ => c.st

/-- A store into a window. -/
def KCore.store (c : KCore) (w i : Nat) (v : Bytes) : KCore :=
  match w with
  | 1 => { c with out := poke c.out i v }
  | 3 => { c with scr := poke c.scr i v }
  | _ => { c with st := poke c.st i v }

/-- Size in bytes, unit of the offset and alignment of a memory function (R226). -/
def memForm : Nat → Nat × Nat × Nat
  | 0 | 1 => (2, 2, 2) | 2 | 3 => (4, 4, 4) | 4 => (8, 4, 4) | _ => (8, 8, 8)

/-- A load or store (R221, R225, R226): its address register read at issue, the post-increment landing one bundle on. -/
def KCore.mem (c : KCore) (rd : KCore) (n slot : Nat) (o : KOp) (bundle : Nat) : Except KEnd KCore :=
  let (size, unit, al) := memForm o.func
  let off := signed 5 (o.b % 32) * unit
  let post := o.b / 32 == 1
  let base := ((rd.gr o.a).toNat : Int)
  let addr := ((base + (if post then 0 else off)) % 2 ^ 17).toNat
  if addr % al ≠ 0 then .error (.fault 2 bundle)
  else
    match c.window addr size (o.cls == 9) with
    | none => .error (.fault 1 bundle)
    | some (w, i) =>
      let c := if post then c.put (n + 1) slot 0 (rd.phys o.a) (base + off) else c
      if o.cls = 9 then .ok (c.store w i (le size (rd.gr o.d).toNat))
      else
        let v := fld (c.bytes w) i size
        let r : Int := match o.func with | 0 => signed 16 v | 2 => signed 32 v | _ => v
        .ok (if o.d = 0 then c else c.put (n + 3) slot 0 (rd.phys o.d) r)

/-- A running sum and the value it reads: an accumulator as a further MAC sees it. -/
def KCore.sum (c : KCore) (d : Nat) : Int := (tget 0 c.a (8 + d)).toInt

/-- A compare (class 0xB) on signed and unsigned views. -/
def kcompare (f : Nat) (a b : Int) (ua ub : Nat) : Bool :=
  match f with
  | 0 => a == b | 1 => a != b | 2 => decide (a < b) | 3 => decide (a ≤ b) | 4 => decide (ua < ub) | _ => decide (ua ≤ ub)

/-- One operation other than a branch issued as bundle number `n`; `rd` holds the registers as the bundle reads them. -/
def KCore.issue (c : KCore) (rd : KCore) (n slot : Nat) (o : KOp) (bundle : Nat) : Except KEnd KCore :=
  let x := rd.gr o.a
  let y := rd.gr o.b
  let g (lat : Nat) (v : Int) : KCore := c.put (n + lat) slot 0 (rd.phys o.d) v
  if !rd.p.getLsbD o.pred then .ok c
  else
    match o.cls with
    | 1 => .ok (g 1 (satOr o.sat 64 (alu o.func x y)))
    | 2 => .ok (g 1 (match o.func with
        | 0 => satOr o.sat 64 ((rd.gi o.d) + o.imm)
        | 1 => (rd.gr o.d &&& BitVec.ofInt 64 o.imm).toInt
        | 2 => satOr o.sat 64 (x.toInt * 2 ^ o.b)
        | 3 => x.toInt / 2 ^ o.b
        | _ => (x >>> o.b).toInt))
    | 3 => .ok (g 1 (if o.func = 0 then o.imm else (rd.gr o.d).toNat * 4096 + o % 4096))
    | 4 => .ok (g 1 (laneAlu o.func o.sat x y).toInt)
    | 5 => .ok (g 3 (multiply o.func o.sat x y).toInt)
    | 6 => .ok ((macTerms o.func o.d3 x y).foldl (fun c e =>
        let v := satOr o.sat 80 (c.sum e.1 + (if 8 ≤ o.func then -e.2 else e.2))
        { c with a := tset c.a (8 + e.1) (BitVec.ofInt 80 v) }.put (n + 3) slot 2 e.1 v) c)
    | 7 =>
      let acc (d : Nat) : Int := (tget 0 rd.a d).toInt
      match o.func with
      | 0 => .ok (c.put (n + 2) slot 3 o.d3 0)
      | 1 => .ok (c.put (n + 2) slot 3 o.d3 x.toInt)
      | 2 => .ok (c.put (n + 2) slot 3 o.d3 (satOr o.sat 80 (acc o.d3 + acc (o.a % 8))))
      | _ =>
        let s := acc (o.a % 8)
        let r := if o.b = 0 then s else (s + 2 ^ (o.b - 1)) / 2 ^ o.b
        .ok (g 2 (if o.sat then satN 32 r else signed 32 (unsigned 32 r)))
    | 8 | 9 => c.mem rd n slot o bundle
    | 11 =>
      let a : Int := if 8 ≤ o.func then lane 16 0 x else x.toInt
      let b : Int := if 8 ≤ o.func then lane 16 0 y else y.toInt
      let ua := if 8 ≤ o.func then x.toNat % 65536 else x.toNat
      let ub := if 8 ≤ o.func then y.toNat % 65536 else y.toNat
      let r := kcompare (o.func % 8) a b ua ub
      .ok (c.put (n + 1) slot 1 o.d3 (if r = true then 1 else 0))
    | 12 => .ok (g 2 (match o.func with
        | 0 => normBits x | 1 => (Config.rece x y).toInt | 2 => (Config.rsqe x y).toInt | _ => (Config.divs x y).toInt))
    | _ => .ok c

/-- p8 set or cleared, p9 to p15 shifted up (R234). -/
def stageShift (p : BitVec 16) (p8 : Bool) : BitVec 16 :=
  (p &&& 0xFF#16) ||| ((p &&& 0x7F00#16) <<< 1) ||| (if p8 then 0x100#16 else 0)

/-- The end of an iteration of level 0: the next bundle where it goes to its body start (R234). -/
def KCore.end0 (c : KCore) : KCore × Option Nat :=
  if c.rotating then
    let c := { c with rrb := (c.rrb + 31) % 32 }
    if 1 < c.lc0 then ({ c with p := stageShift c.p true, lc0 := c.lc0 - 1 }, some (c.body0 - 1))
    else if 0 < c.ec0 then ({ c with p := stageShift c.p false, lc0 := 0, ec0 := c.ec0 - 1 }, some (c.body0 - 1))
    else ({ c with p := stageShift c.p (c.p.getLsbD 8), body0 := 0 }, none)
  else if 1 < c.lc0 then ({ c with lc0 := c.lc0 - 1 }, some (c.body0 - 1))
  else ({ c with body0 := 0 }, none)

/-- The end of an iteration of level 1. -/
def KCore.end1 (c : KCore) : KCore × Option Nat :=
  if 1 < c.lc1 then ({ c with lc1 := c.lc1 - 1 }, some (c.body1 - 1)) else ({ c with body1 := 0 }, none)

/-- The branch and loop operation of slot 1 after the bundle has issued: the core, where a branch or a skipped body goes,
and whether it returns (R233, R234). -/
def KCore.branch (c : KCore) (rd : KCore) (code : List (BitVec 128)) (pc : Nat) (o : KOp) : KCore × Option Nat × Bool × Bool :=
  if o.cls ≠ 10 || !rd.p.getLsbD o.pred then (c, none, false, false)
  else
    let n := if o / 2 ^ 14 % 2 = 1 then (rd.gr o.a).toNat % 65536 else o % 4096
    let skip (level : Nat) : Option Nat := (bodyEnd code level (pc + 1)).map (· + 1)
    match o.func with
    -- before the first bundle there is no code, as past the last
    | 0 => (c, some ((brTarget pc o).getD code.length), true, false)
    | 1 => (c, none, false, true)
    | 2 => if n = 0 then (c, skip 0, false, false) else ({ c with lc0 := n, rotating := false, body0 := pc + 2 }, none, false, false)
    | 3 =>
      if n = 0 then (c, skip 0, false, false)
      else ({ c with lc0 := n, ec0 := o / 2 ^ 15 % 8, rotating := true, body0 := pc + 2,
                     p := (c.p &&& 0xFF#16) ||| 0x100#16 }, none, false, false)
    | 4 => if n = 0 then (c, skip 1, false, false) else ({ c with lc1 := n, body1 := pc + 2 }, none, false, false)
    | _ => ({ c with rrb := o % 32 }, none, false, false)

/-- The bundle loop: `n` bundles issued, `cyc` cycles counted of the limit `lim` (R227, R233, R239). -/
def KCore.run (code : List (BitVec 128)) (lim : Nat) : Nat → Nat → Nat → Nat → KCore → KCore × KEnd × Nat
  | 0, _, cyc, pc, c => (c, .fault 3 pc, cyc)
  | fuel + 1, n, cyc, pc, c =>
    if lim ≤ cyc then (c, .fault 3 pc, cyc)
    else
      let c := c.land n
      match code[pc]? with
      | none => (c, .fault 3 (code.length - 1), lim)
      | some b =>
        let r := [0, 1, 2, 3].foldl (fun x i =>
          match x with
          | .error e => .error e
          | .ok (k : KCore) =>
            match k.issue c n i (slotOp b i) pc with
            | .ok k' => .ok k'
            | .error e => .error (k, e)) (Except.ok c : Except (KCore × KEnd) KCore)
        match r with
        | .error (k, e) => (k, e, cyc + 1)
        | .ok k =>
          let (k, dest, taken, ret) := k.branch c code pc (slotOp b 1)
          if ret then (k, .ret, cyc + 1)
          else
            match dest with
            | some t => KCore.run code lim fuel (n + 1) (cyc + 1 + (if taken then 2 else 0)) t k
            | none =>
              let (k, nx) := if le0 b && k.body0 != 0 && c.body0 != 0 then k.end0 else (k, none)
              match nx with
              | some t => KCore.run code lim fuel (n + 1) (cyc + 1) t k
              | none =>
                let (k, nx) := if le1 b && k.body1 != 0 && c.body1 != 0 then k.end1 else (k, none)
                KCore.run code lim fuel (n + 1) (cyc + 1) (nx.getD (pc + 1)) k

/-- 96 samples as the words of an input or output block (Table 7.2). -/
def blockBytes (x : List Int) : Bytes := ((List.range 96).map fun i => le 4 (unsigned 32 (x.getD i 0))).flatten

/-- The words of an output block through sat24 (R223). -/
def blockSamples (b : Bytes) : List Int := (List.range 96).map fun i => sat24 (signed 32 (u32 b (4 * i)))

/-- The core at entry (R236, Table 7.6). -/
def KCore.enter (k : Kernel) (x : List Int) (par st scr : Bytes) (g5 g6 blk m slot : Nat) : KCore where
  g := [(1, 0x10000), (2, 0x10200), (3, 0x10400), (4, 0x12000), (5, BitVec.ofNat 64 g5), (6, BitVec.ofNat 64 g6),
        (7, BitVec.ofNat 64 blk), (8, BitVec.ofNat 64 m), (9, BitVec.ofNat 64 slot)]
  a := []
  p := 1
  rrb := 0
  lc0 := 0
  ec0 := 0
  lc1 := 0
  rotating := false
  body0 := 0
  body1 := 0
  flight := []
  inp := blockBytes x
  out := blockBytes x
  par := par.take k.params
  scr := padTo k.scratch scr
  con := k.consts
  st := st
  g5 := g5
  g6 := g6

/-! ### Bindings -/

/-- The Garnet cluster changed. -/
def State.updGarnet (s : State) (f : Garnet → Garnet) : State := { s with garnet := f s.garnet }

/-- A kernel by its index. -/
def State.kernel (s : State) (i : Nat) : Option Kernel := tget? s.garnet.kernels i

/-- A kernel changed. -/
def State.updKernel (s : State) (i : Nat) (f : Kernel → Kernel) : State :=
  s.updGarnet fun g => { g with kernels := tupd g.kernels i f }

/-- The binding in slot 1 or 2 of a leg. -/
def Leg.binding (l : Leg) (slot : Nat) : Option Binding := if slot = 1 then l.slot1 else l.slot2

/-- A slot of a leg set. -/
def Leg.setBinding (l : Leg) (slot : Nat) (b : Option Binding) : Leg :=
  if slot = 1 then { l with slot1 := b } else { l with slot2 := b }

/-- An exception of a binding: KernelFault, and suspension at the third within 60 s (R240, R241). -/
def State.kernelFault (s : State) (leg slot cause bundle blk : Nat) : State :=
  match s.leg leg with
  | none => s
  | some l =>
    match l.binding slot with
    | none => s
    | some b =>
      let times := (s.now :: b.faults).filter fun t => decide (s.now < t + 60000000000)
      let susp := decide (3 ≤ times.length)
      let s := s.updLeg leg fun l => l.setBinding slot (some { b with faults := times, suspended := susp, overTimes := none })
      let s := s.updKernel b.kernel fun k =>
        if cause = 3 then { k with cycles := k.cycles + 1 } else { k with others := k.others + 1 }
      s.raise leg 0xFD00 (le 4 (s.handle (okey 7 b.kernel)) ++ le 1 slot ++ le 1 cause ++ le 1 (if susp then 1 else 0) ++
        le 1 0 ++ le 4 bundle ++ le 4 0 ++ le 8 blk)

/-- What the pool of a core holds (R221, R250): each kernel's constants once, under leg 0 and slot 0, and each binding's state,
with its size. -/
def State.poolItems (s : State) (core : Nat) : List ((Nat × Nat × Nat) × Nat) :=
  let bs := (s.audio.legs.filter fun e => e.2.core == core).flatMap fun e =>
    [1, 2].filterMap fun n => (e.2.binding n).map fun b => ((okey 2 e.1, n, b.kernel), b.data.length)
  ((bs.map fun e => e.1.2.2).eraseDups.map fun k =>
    ((0, 0, k), match s.kernel k with | some x => x.consts.length | none => 0)) ++ bs

/-- Items one after the other. -/
def packed : Nat → List Nat → List Nat
  | _, [] => []
  | a, n :: l => a :: packed (a + n) l

/-- Places that items of these sizes can have in the pool: doublewords in its 48 KiB, no two sharing a byte. -/
def placesOk (at_ sizes : List Nat) : Bool :=
  let l := (at_.zip sizes).filter fun e => e.2 != 0
  at_.length == sizes.length && (l.all fun e => e.1 % 8 == 0 && decide (e.1 + e.2 ≤ 49152)) &&
  l.zipIdx.all fun x => l.zipIdx.all fun y => x.2 == y.2 || decide (x.1.1 + x.1.2 ≤ y.1.1) || decide (y.1.1 + y.1.2 ≤ x.1.1)

/-- The base of an item in the pool of a core: where firmware puts it, which is open but for what `placesOk` says. -/
def State.poolBase (s : State) (core : Nat) (item : Nat × Nat × Nat) : Nat :=
  let items := s.poolItems core
  let sizes := items.map (·.2)
  let plan := Config.poolPlan core sizes
  let at_ := if placesOk plan sizes then plan else packed 0 sizes
  0x14000 + at_.getD (items.findIdx fun e => e.1 == item) 0

/-- The kernel of an effect slot run on a block (R216, R222, R223, R237, R240): the slot's output. An invocation that runs
out of cycles is stopped here, and its exception taken at CYCLES_EXCEPTION. -/
def State.runSlot (s : State) (leg slot blk : Nat) (x : List Int) : State × List Int :=
  match s.leg leg with
  | none => (s, x)
  | some l =>
    match l.binding slot with
    | none => (s, x)
    | some b =>
      match s.kernel b.kernel with
      | none => (s, x)
      | some k =>
        if b.suspended then (s, x)
        else
          let c := KCore.enter k x b.params b.data (tget [] s.garnet.scratch l.core) (s.poolBase l.core (leg, slot, b.kernel))
            (s.poolBase l.core (0, 0, b.kernel)) blk l.m slot
          let (c, e, cyc) := KCore.run k.code (k.w - 128) (k.w + 1) 0 0 k.entry c
          let s := s.updGarnet fun g => { g with scratch := tset g.scratch l.core (poke (padTo 8192 (tget [] g.scratch l.core)) 0 c.scr) }
          let s := s.updKernel b.kernel fun k => { k with invocations := k.invocations + 1, largest := max k.largest (min cyc (k.w - 128)) }
          let s := s.updLeg leg fun l => l.setBinding slot (some { b with data := c.st })
          match e with
          | .ret => (s, blockSamples c.out)
          | .fault cause bundle =>
            if cause = 3 then
              (s.updLeg leg fun l => l.setBinding slot (some { b with data := c.st, overTimes := some (bundle, blk) }), x)
            else (s.kernelFault leg slot cause bundle blk, x)

/-- CYCLES_EXCEPTION: the exception of an invocation stopped at W - 128 cycles (R239 to R241). -/
def execCyclesException (leg slot : Nat) (s : State) : Host.Outcome State Fault Refusal :=
  match (s.leg (okey 2 leg)).bind (·.binding slot) with
  | some b =>
    match b.overTimes with
    | some (bundle, blk) => .next (s.kernelFault (okey 2 leg) slot 3 bundle blk)
    | none => .next s
  | none => .next s

/-- The binding of a slot as the changes already scheduled will leave it: kernel and quanta; SUSPENDED or not (R248). -/
def State.slotAhead (s : State) (leg slot : Nat) : Option (Nat × Nat × Bool) :=
  s.sched.foldl (fun x e =>
    match e.act with
    | .bind l n k q _ => if l = leg && n = slot then some (k, q, false) else x
    | .unbind l n => if l = leg && n = slot then none else x
    | _ => x)
    (match (s.leg leg).bind (·.binding slot) with | some b => some (b.kernel, b.quanta, b.suspended) | none => none)

/-- The bindings a core has promised its pool to, as leg, slot and kernel: those in force, and those scheduled. -/
def State.boundOn (s : State) (core : Nat) : List (Nat × Nat × Nat) :=
  ((s.audio.legs.filter fun e => e.2.core == core).flatMap fun e => [1, 2].flatMap fun n =>
    ((e.2.binding n).map fun b => (okey 2 e.1, n, b.kernel)).toList ++
    s.sched.filterMap fun x => match x.act with
      | .bind l n' k _ _ => if l = okey 2 e.1 ∧ n' = n then some (okey 2 e.1, n, k) else none
      | _ => none).eraseDups

/-- The pool bytes in use on a core: each kernel's constants once, each binding's state (R250). -/
def State.poolUsed (s : State) (l : List (Nat × Nat × Nat)) : Nat :=
  let size (f : Kernel → Nat) (k : Nat) : Nat := match s.kernel k with | some x => f x | none => 0
  (((l.map (·.2.2)).eraseDups).map (size fun x => x.consts.length)).sum + (l.map fun e => size (·.stateBytes) e.2.2).sum

/-- The room of a core in quanta (R215). -/
def State.coreRoom (s : State) (core : Nat) : Nat := 64 - tget 0 s.garnet.placed core

/-- Quanta of a leg placed on its core. -/
def State.place (s : State) (key n : Nat) : State :=
  match s.leg key with
  | none => s
  | some l =>
    (s.updGarnet fun g => { g with placed := tset g.placed l.core (tget 0 g.placed l.core + n) }).updLeg key fun l =>
      { l with quanta := l.quanta + n }

/-- Quanta of a leg off its core. -/
def State.unplace (s : State) (key n : Nat) : State :=
  match s.leg key with
  | none => s
  | some l =>
    (s.updGarnet fun g => { g with placed := tset g.placed l.core (tget 0 g.placed l.core - n) }).updLeg key fun l =>
      { l with quanta := l.quanta - n }

/-- Quanta of a leg that leave its core at block `b`. -/
def State.unplaceAt (s : State) (key n b : Nat) : State :=
  if n = 0 then s else s.addSched (.block b) noOrigin (.unplace key n)

/-! ### Commands -/

/-- KernelLoad once its image is read (R244, R251). -/
def effKernelLoadData (r : Req) (d : Bytes) (s : State) : Eff :=
  match imageCheck d with
  | some (reason, b) => .fail .invalidArg (le 2 reason ++ le 2 0 ++ le 4 b)
  | none =>
    let n := u16 d 12
    let used := (s.garnet.kernels.map fun e => e.2.code.length).sum
    s.create 7 0 64 fun key =>
    need (decide (used + n ≤ 8192)) .noResource (
    let k : Kernel := { w := u32 d 8, entry := u16 d 14, code := bundles (d.drop 32) n, consts := d.drop (32 + 16 * n),
                        stateBytes := u16 d 20, scratch := u16 d 22, params := u8 d 24, mask := u8 d 25,
                        invocations := 0, largest := 0, cycles := 0, others := 0 }
    .done [] (s.handle key) ((s.addObj key r.mbx true 0 []).updGarnet fun g => { g with kernels := tset g.kernels (kidx key) k }))

/-- KernelLoad up to its DMA read: the descriptor's reserved field (R51). -/
def effKernelLoad (r : Req) (s : State) : Eff :=
  nullTarget r (
  need s.inService .wrongState (
  need (zeros r.payload 12 4) .invalidArg (readThen (u32 r.payload 8) (effKernelLoadData r []) s)))

/-- KERNEL_LOAD. -/
def execKernelLoad (r : Req) (s : State) : Host.Outcome State Fault Refusal :=
  .next (s.command 0x0D00 (· == 16) r (effKernelLoad r))

/-- A kernel has a binding, in force or scheduled (R249). -/
def State.kernelBound (s : State) (k : Nat) : Bool :=
  (s.audio.legs.any fun e => [1, 2].any fun n => match e.2.binding n with | some b => b.kernel == k | none => false) ||
  s.sched.any fun e => match e.act with | .bind _ _ k' _ _ => k' == k | _ => false

/-- The own part of KernelUnload (Table 3.5). -/
def effKernelUnload (r : Req) (s : State) : Eff :=
  s.withHandle r.tgt [7] fun key =>
  need (!s.kernelBound (kidx key)) .wrongState (s.destroyAt r key (.block (s.firstBlock r.mbx)))

/-- KERNEL_UNLOAD. -/
def execKernelUnload (r : Req) (s : State) : Host.Outcome State Fault Refusal :=
  .next (s.command 0x0D01 (· == 0) r (effKernelUnload r))

/-- A leg is a trunk leg (R643). -/
def Leg.trunk (l : Leg) : Bool := u8 l.cfg 0 == 4

/-- The own part of KernelBind (R215, R246, R250, R643). -/
def effKernelBind (r : Req) (s : State) : Eff :=
  let p := r.payload
  let slot := u8 p 4
  s.withHandle r.tgt [2] fun key =>
  s.withHandle (u32 p 0) [7] fun kk =>
  needUnit (slot == 1 || slot == 2) (
  match s.leg key, s.kernel (kidx kk) with
  | some l, some k =>
    need (!l.trunk && u8 p 5 == k.params && k.mask / slot % 2 == 1 && zeros p 6 2 && zeros p (8 + u8 p 5) (64 - u8 p 5)) .invalidArg (
    let others := (s.boundOn l.core).filter fun e => !(e.1 == key && e.2.1 == slot)
    need (decide (s.poolUsed ((key, slot, kidx kk) :: others) ≤ 49152)) .noResource (
    let q := ceilDiv k.w 46000
    let old := match s.slotAhead key slot with | some b => b.2.1 | none => 0
    s.admission (costOf [(1, 0, q)]) (costOf [(1, 0, old)]) fun s' dec =>
    let room := s.coreRoom l.core
    if room < q - old then .fail .noBudget (noBudget 1 0 0 (q - old) room)
    else
      let s' := ((s'.place key (q - old)).unplaceAt key (old - q) (s.firstBlock r.mbx)).releaseAt (.block (s.firstBlock r.mbx)) dec
      let s' := s'.updObj key fun o => { o with cost := plusCost (minusCost o.cost (costOf [(1, 0, old)])) (costOf [(1, 0, q)]) }
      .later [] r.tgt (s'.schedule (.block (s.firstBlock r.mbx)) (r.origin r.tgt) (.bind key slot (kidx kk) q ((p.drop 8).take (u8 p 5))))))
  | _, _ => .fail .noSuchObject [])

/-- KERNEL_BIND. -/
def execKernelBind (r : Req) (s : State) : Host.Outcome State Fault Refusal :=
  .next (s.command 0x0D02 (· == 72) r (effKernelBind r))

/-- The own part of KernelUnbind. -/
def effKernelUnbind (r : Req) (s : State) : Eff :=
  let slot := u8 r.payload 0
  s.withHandle r.tgt [2] fun key =>
  needUnit (slot == 1 || slot == 2) (
  match s.slotAhead key slot with
  | none => .fail .wrongState []
  | some (_, q, _) =>
    need (zeros r.payload 1 3) .invalidArg (
    let s' := ((s.unplaceAt key q (s.firstBlock r.mbx)).releaseAt (.block (s.firstBlock r.mbx)) (costOf [(1, 0, q)])).updObj key fun o =>
      { o with cost := minusCost o.cost (costOf [(1, 0, q)]) }
    .later [] r.tgt (s'.schedule (.block (s.firstBlock r.mbx)) (r.origin r.tgt) (.unbind key slot))))

/-- KERNEL_UNBIND. -/
def execKernelUnbind (r : Req) (s : State) : Host.Outcome State Fault Refusal :=
  .next (s.command 0x0D03 (· == 4) r (effKernelUnbind r))

/-- The own part of KernelParamSet. -/
def effKernelParamSet (r : Req) (s : State) : Eff :=
  let p := r.payload
  let slot := u8 p 0
  s.withHandle r.tgt [2] fun key =>
  needUnit (slot == 1 || slot == 2) (
  match s.slotAhead key slot with
  | none => .fail .wrongState []
  | some (k, _, susp) =>
    need (!susp) .wrongState (
    need ((match s.kernel k with | some x => u8 p 1 == x.params | none => false) && zeros p 2 2 && zeros p (4 + u8 p 1) (64 - u8 p 1))
      .invalidArg (
    .later [] r.tgt (s.schedule (.block (s.firstBlock r.mbx)) (r.origin r.tgt) (.params key slot ((p.drop 4).take (u8 p 1)))))))

/-- KERNEL_PARAM_SET. -/
def execKernelParamSet (r : Req) (s : State) : Host.Outcome State Fault Refusal :=
  .next (s.command 0x0D04 (· == 68) r (effKernelParamSet r))

/-- The own part of KernelStatsGet (Table 7.13). -/
def effKernelStatsGet (r : Req) (s : State) : Eff :=
  s.withHandle r.tgt [7] fun key =>
  match s.kernel (kidx key) with
  | none => .fail .noSuchObject []
  | some k =>
    let bs := s.audio.legs.flatMap fun e => [1, 2].filterMap fun n => (e.2.binding n).filter fun b => b.kernel == kidx key
    .done (le 4 bs.length ++ le 4 (bs.filter (·.suspended)).length ++ le 8 k.invocations ++ le 4 k.largest ++ le 4 k.cycles ++
      le 4 k.others ++ le 4 0) r.tgt s

/-- KERNEL_STATS_GET. -/
def execKernelStatsGet (r : Req) (s : State) : Host.Outcome State Fault Refusal :=
  .next (s.command 0x0D05 (· == 0) r (effKernelStatsGet r))

/-! ### Changes at a block start -/

/-- A bind in force: state zero-filled, parameters written, a suspension ended (R246). -/
def State.applyBind (s : State) (leg slot kernel quanta : Nat) (params : Bytes) : State :=
  let n := match s.kernel kernel with | some k => k.stateBytes | none => 0
  s.updLeg leg fun l => l.setBinding slot (some {
    kernel := kernel, quanta := quanta, data := List.replicate n 0, params := params, faults := [], suspended := false,
    overTimes := none })

/-- New parameters in force. -/
def State.applyParams (s : State) (leg slot : Nat) (params : Bytes) : State :=
  s.updLeg leg fun l => l.setBinding slot ((l.binding slot).map fun b => { b with params := params })

end Sys2Proof.Machine
end

