-- ==== Sys2Proof/Machine/Onyx.lean ====
section
/-!
DEFINITION. The Onyx cipher cluster (R470 to R503): key contexts, packet indices and replay, key change, counter limits,
link keys, entropy, and the key commands. The algorithms stand in
Cipher.lean.
-/

namespace Sys2Proof.Machine

/-- A key context by its index. -/
def State.keyCtx (s : State) (i : Nat) : Option KeyCtx := tget? s.onyx.keys i

/-- A key context replaced. -/
def State.setKey (s : State) (i : Nat) (c : KeyCtx) : State := s.updOnyx fun o => { o with keys := tset o.keys i c }

/-- The limit and the warning value of the SRTP and SRTCP indices (Table 15.6). -/
def rtpLimit : Nat := 2 ^ 48 - 1
def rtpWarn : Nat := 2 ^ 48 - 2 ^ 16
def rtcpLimit : Nat := 2 ^ 31 - 1
def rtcpWarn : Nat := 2 ^ 31 - 2 ^ 16

/-- The packet index of a sequence number near the highest index (R482, Appendix A of RFC 3711). -/
def estimate (high seq : Nat) : Nat :=
  let roc := high / 65536
  let sl := high % 65536
  let v := if sl < 32768 then (if 32768 < seq - sl && decide (sl < seq) then (roc + 2 ^ 32 - 1) % 2 ^ 32 else roc)
           else if seq < sl - 32768 then (roc + 1) % 2 ^ 32 else roc
  v * 65536 + seq

/-- The replay check of R484 against a window of 128 below the highest index. -/
def fresh? (high : Nat) (map : BitVec 128) (i : Nat) : Bool :=
  decide (high < i) || (decide (high < i + 128) && !map.getLsbD (high - i))

/-- The bitmap after an accepted index. -/
def accepted (high : Nat) (map : BitVec 128) (i : Nat) : Nat × BitVec 128 :=
  if high < i then (i, (map <<< (i - high)) ||| 1#128) else (high, map ||| ((1#128) <<< (high - i)))

/-- The key that serves an index: from the switch index on the new key, below it the old one (R486). -/
def KeyCtx.keyFor (c : KeyCtx) (rtcp : Bool) (i : Nat) : Bytes :=
  let new := decide ((if rtcp then c.m else c.n) ≤ i)
  match c.role with
  | 1 => if new then c.keyB else c.keyA
  | 2 => if new then c.keyA else c.keyB
  | _ => c.keyA

/-- A context in which the key that served index `i` is in force: the pending key becomes the current one, and the old one is kept for the
indices below N and M (R486, R490). The Bool says that this was the first packet under it. -/
def KeyCtx.switched (c : KeyCtx) (rtcp : Bool) (i : Nat) : KeyCtx × Bool :=
  if c.role = 1 && decide ((if rtcp then c.m else c.n) ≤ i) then ({ c with keyA := c.keyB, keyB := c.keyA, role := 2 }, true)
  else (c, false)

/-- What a bound context covers, SRTP and SRTCP (Table 15.2). -/
def State.covers (s : State) (c : KeyCtx) : Bool × Bool :=
  match c.leg with
  | none => (true, true)
  | some k =>
    if ktype k = 2 then (true, false)
    else match tget? s.video.legs (kidx k) with
      | some l => ((u8 l.cfg 0 == 1) == (c.dir == 1), true)
      | none => (true, true)

/-- The retained key erased once it serves no index any more, of SRTP and of SRTCP as far as the context covers them: a receive context's
once no index in the window needs it (R488), a send context's once both indices have reached the switch (R486). -/
def KeyCtx.erase (c : KeyCtx) (cov : Bool × Bool) : KeyCtx :=
  let rtp := if c.dir = 1 then c.ssrcs.all fun x => decide (c.n + 127 ≤ x.high) else decide (c.n ≤ c.next)
  let rtcp := if c.dir = 1 then c.rtcpSeen && decide (c.m + 127 ≤ c.rtcp) else decide (c.m ≤ c.rtcp)
  if c.role = 2 && (!cov.1 || rtp) && (!cov.2 || rtcp) then { c with keyB := [], role := 0 } else c

/-- A key event on a context (R490, R491). -/
def State.keyEvent (s : State) (i op : Nat) (kind dir value : Nat) : State :=
  s.raise (okey 8 i) op (if op = 0xFC02 then le 1 kind ++ le 7 0 ++ le 8 value ++ le 8 s.block
    else le 1 kind ++ le 1 0 ++ le 1 dir ++ le 1 0 ++ le 4 0 ++ le 8 value ++ le 8 s.block)

/-- An authentication failure counted; KeyAuthFail reports those since the last one, at most once a second (R503, log entry 64). -/
def State.keyAuthFail (s : State) (i : Nat) (c : KeyCtx) : State :=
  let n := c.failCount + 1
  if !c.told || decide (c.failSecond + 1000000000 ≤ s.now) then
    (s.setKey i { c with authFailed := c.authFailed + 1, told := true, failSecond := s.now, failCount := 0 }).raise (okey 8 i) 0xFC03
      (le 4 n ++ le 4 0 ++ le 8 s.block)
  else s.setKey i { c with authFailed := c.authFailed + 1, failCount := n }

/-- A packet refused at a limit (R491): counted; the first one exhausts the context. -/
def State.keyRefuse (s : State) (i : Nat) (c : KeyCtx) (kind value : Nat) : State :=
  let s' := s.setKey i { c with exhaustedCount := c.exhaustedCount + 1, st := .exhausted }
  if c.st = .exhausted then s' else s'.keyEvent i 0xFC01 kind c.dir value

/-- The warning of a counter that has reached its value, once (R491). -/
def State.keyWarn (s : State) (i : Nat) (rtcp : Bool) (value : Nat) : State :=
  match s.keyCtx i with
  | none => s
  | some c =>
    if rtcp then
      if rtcpWarn ≤ value && !c.warnedRtcp then (s.setKey i { c with warnedRtcp := true }).keyEvent i 0xFC00 2 c.dir value
      else s
    else if rtpWarn ≤ value && !c.warned then (s.setKey i { c with warned := true }).keyEvent i 0xFC00 1 c.dir value
    else s

/-- The end of an accepted or protected packet of index `v`: the context stored, KeySwitched and KeyWarning raised. -/
def State.keyDone (s : State) (i : Nat) (c : KeyCtx) (rtcp : Bool) (v : Nat) : State :=
  let (c, first) := c.switched rtcp v
  let s := s.setKey i (({ c with packets := c.packets + 1 }).erase (s.covers c))
  let s := if first then s.keyEvent i 0xFC02 (if rtcp then 2 else 1) c.dir v else s
  s.keyWarn i rtcp v

/-- An SRTP packet verified and decrypted under receive context `i` (R482 to R484): the plain packet, none where it is
discarded. -/
def State.openRtp (s : State) (i : Nat) (d : Bytes) : State × Option Bytes :=
  match s.keyCtx i with
  | none => (s, none)
  | some c =>
    let ssrc := bfld d 8 4
    let seq := bfld d 2 2
    let known := c.ssrcs.find? fun x => x.ssrc == ssrc
    let v := match known with | some x => estimate x.high seq | none => c.roc * 65536 + seq
    if c.st ≠ .bound then (s.setKey i { c with exhaustedCount := c.exhaustedCount + (if c.st = .exhausted then 1 else 0) }, none)
    else if (match known with | some x => !fresh? x.high x.bitmap v | none => false) then
      (s.setKey i { c with replayed := c.replayed + 1 }, none)
    else
      match srtpOpen c.profile (c.keyFor false v) v d with
      | none => (s.keyAuthFail i c, none)
      | some p =>
        if rtpLimit ≤ v then (s.keyRefuse i c 1 v, none) else
        let x : SsrcState := match known with
          | some x => let (h, b) := accepted x.high x.bitmap v; { ssrc := ssrc, high := h, bitmap := b }
          | none => { ssrc := ssrc, high := v, bitmap := 1 }
        let rest := c.ssrcs.filter fun x => x.ssrc != ssrc
        let rest := if 3 ≤ rest.length then rest.drop 1 else rest
        (s.keyDone i { c with ssrcs := rest ++ [x] } false v, some p)

/-- A received SRTCP packet (R474, R484): its index lies before the tag, its E flag above it. -/
def State.openRtcp (s : State) (i : Nat) (d : Bytes) : State × Option Bytes :=
  match s.keyCtx i with
  | none => (s, none)
  | some c =>
    let tag := if c.profile = 3 || c.profile = 4 then 10 else 0
    let v := bfld d (d.length - tag - 4) 4 % 2 ^ 31
    if c.st ≠ .bound then (s.setKey i { c with exhaustedCount := c.exhaustedCount + (if c.st = .exhausted then 1 else 0) }, none)
    else if c.rtcpSeen && !fresh? c.rtcp c.rtcpMap v then (s.setKey i { c with replayed := c.replayed + 1 }, none)
    else
      match srtcpOpen c.profile (c.keyFor true v) d with
      | none => (s.keyAuthFail i c, none)
      | some p =>
        if rtcpLimit ≤ v then (s.keyRefuse i c 2 v, none) else
        let (h, b) := if c.rtcpSeen then accepted c.rtcp c.rtcpMap v else (v, 1)
        (s.keyDone i { c with rtcp := h, rtcpMap := b, rtcpSeen := true } true v, some p)

/-- An RTP packet protected under send context `i` (R485). -/
def State.protectRtp (s : State) (i : Nat) (d : Bytes) : State × Option Bytes :=
  match s.keyCtx i with
  | none => (s, none)
  | some c =>
    let seq := bfld d 2 2
    let v := if c.sent then estimate (c.next - 1) seq else c.roc * 65536 + seq
    if c.st ≠ .bound then (s.setKey i { c with exhaustedCount := c.exhaustedCount + (if c.st = .exhausted then 1 else 0) }, none)
    else if rtpLimit ≤ v then (s.keyRefuse i c 1 v, none)
    else if c.sent && decide (v < c.next) then (s.setKey i { c with repeated := c.repeated + 1 }, none)
    else (s.keyDone i { c with next := v + 1, sent := true } false v,
      some (srtpProtect c.profile (c.keyFor false v) v d))

/-- An RTCP packet protected under send context `i` (R474). -/
def State.protectRtcp (s : State) (i : Nat) (d : Bytes) : State × Option Bytes :=
  match s.keyCtx i with
  | none => (s, none)
  | some c =>
    let v := c.rtcp
    if c.st ≠ .bound then (s.setKey i { c with exhaustedCount := c.exhaustedCount + (if c.st = .exhausted then 1 else 0) }, none)
    else if rtcpLimit ≤ v then (s.keyRefuse i c 2 v, none)
    else (s.keyDone i { c with rtcp := v + 1 } true v, some (srtcpProtect c.profile (c.keyFor true v) v d))

/-- The levels of Onyx items (Table 15.7). -/
def onyxLevel (audio rtcp : Bool) : Nat := if rtcp then 7 else if audio then 14 else 10

/-- An Onyx item of a context in one direction: all of them share one ordered flow (R495). Flow 0 is not used. -/
def onyxItem (ctx level obj deadline : Nat) (data : Bytes) (job : Job) : Submission :=
  { desc := descriptor 6 level (keyFlow ctx) obj 0xFFFF 0 deadline [], data := data, job := job }

/-! ### Binding (R477, R478) -/

/-- A context a create command may bind: an SRTP context of the direction, LOADED (R477). -/
def State.bindable (s : State) (key dir : Nat) : Bool :=
  match s.keyCtx (kidx key) with
  | some c => decide (kidx key < 32768) && c.dir == dir && c.st == .loaded
  | none => false

/-- A context bound to a leg (Table 15.5); `seq` is the leg's first sequence number. -/
def State.bindKey (s : State) (h : Nat) (leg seq : Nat) : State :=
  if h = 0 then s
  else
    match s.keyCtx (h % 2 ^ 20) with
    | none => s
    | some c => s.setKey (h % 2 ^ 20) { c with st := .bound, leg := some leg, next := c.roc * 65536 + seq }

/-- The contexts of a leg SPENT: key material and packet state erased (R478). -/
def State.spendKeys (s : State) (leg : Nat) : State :=
  let spend : KeyCtx → KeyCtx := fun c =>
    if c.leg = some leg then { c with
      st := .spent, keyA := [], keyB := [], role := 0, n := 0, m := 0, ssrcs := [], rtcp := 0, rtcpSeen := false, rtcpMap := 0, next := 0,
      sent := false, leg := none } else c
  s.updOnyx fun o => { o with keys := tmap o.keys fun _ => spend }

/-! ### Masking (R498) -/

/-- Byte `j` of the 512 bits a context's shares were last refreshed with: eight free values from number `n` on. -/
def maskByte (n j : Nat) : Byte := BitVec.ofNat 8 ((Config.freeValue (n + j / 8 % 8)).toNat / 2 ^ (j % 8 * 8))

/-- The two Boolean shares in which key material is held: their XOR is the key. -/
def KeyCtx.shares (c : KeyCtx) (key : Bytes) : Bytes × Bytes :=
  let mask := (List.range key.length).map (maskByte c.share)
  (List.zipWith (· ^^^ ·) key mask, mask)

/-- The shares of a context refreshed for a packet with 512 bits from the core's DRBG. -/
def State.refreshShares (s : State) (core ctx : Nat) : State :=
  s.refresh512 core fun n o => { o with keys := tupd o.keys ctx fun c => { c with share := n } }

/-! ### Key loading (R479 to R481) -/

/-- The blob length of a profile, 0 where the profile is none (Table 15.4). -/
def blobLen : Nat → Nat
  | 1 => 40 | 2 => 56 | 3 => 40 | 4 => 40 | _ => 0

/-- The padding bytes at the end of a profile's plaintext (Table 15.4). -/
def padLen : Nat → Nat
  | 1 => 4 | 2 => 4 | 3 => 2 | 4 => 2 | _ => 0

/-- The unwrapping key of a field: the OTP key for null, else the wrapping-key context (R479). -/
def State.kek (s : State) (h : Nat) : Option Bytes :=
  if h = 0 then s.onyx.otp else (s.keyCtx (h % 2 ^ 20)).map (·.keyA)

/-- An unwrapped key whose padding of `pad` bytes is 0 and whose length is right, the padding cut (R481). -/
def State.unwrapKey (s : State) (h : Nat) (blob : Bytes) (pad : Nat) : Option Bytes :=
  match s.kek h with
  | none => none
  | some k =>
    match keyUnwrap k blob with
    | none => none
    | some p => if p.length + 8 == blob.length && zeros p (p.length - pad) pad then some (p.take (p.length - pad)) else none

/-- An unwrapping-key field checked at step 8: null, or a wrapping-key context. -/
def State.withKek (s : State) (h : Nat) (k : Eff) : Eff :=
  s.withHandle0 h [8] fun o => need (match o with | none => true | some x => decide (32768 ≤ kidx x)) .invalidArg k

/-- A new key context. -/
def KeyCtx.new (profile dir roc rtcp : Nat) (key : Bytes) : KeyCtx where
  profile := profile
  dir := dir
  st := .loaded
  keyA := key
  keyB := []
  role := 0
  n := 0
  m := 0
  roc := roc
  ssrcs := []
  rtcp := rtcp
  rtcpSeen := false
  rtcpMap := 0
  next := roc * 65536
  sent := false
  warned := false
  warnedRtcp := false
  told := false
  leg := none
  packets := 0
  authFailed := 0
  replayed := 0
  repeated := 0
  exhaustedCount := 0
  share := 0
  failSecond := 0
  failCount := 0

/-- The own part of KeyLoad (Table 15.9). -/
def effKeyLoad (r : Req) (s : State) : Eff :=
  let p := r.payload
  let wrap := u8 p 0 == 2
  let len := if wrap then 40 else blobLen (u8 p 1)
  nullTarget r (
  s.withKek (u32 p 4) (
  need (s.inService && s.onyx.otp.isSome) .wrongState (
  need ((u8 p 0 == 1 || wrap) &&
    (if wrap then u8 p 1 == 0 && u8 p 2 == 0 && u32 p 4 == 0 && u32 p 8 == 0 && u32 p 12 == 0
     else blobLen (u8 p 1) != 0 && (u8 p 2 == 1 || u8 p 2 == 2) &&
       (if u8 p 2 = 2 then decide (u32 p 12 ≤ 2 ^ 31 - 2) else u32 p 12 == 0)) &&
    u8 p 3 == len && zeros p (16 + len) (56 - len)) .invalidArg (
  match s.lowestFree 8 (if wrap then 32768 else 0) (if wrap then 16 else 32768) with
  | none => .fail .noResource []
  | some i =>
    match s.unwrapKey (u32 p 4) ((p.drop 16).take len) (if wrap then 0 else padLen (u8 p 1)) with
    | none => .fail .denied []
    | some key =>
      let s := s.addObj (okey 8 i) r.mbx true 0 []
      .done [] (s.handle (okey 8 i)) (s.setKey i (KeyCtx.new (u8 p 1) (u8 p 2) (u32 p 8) (u32 p 12) key))))))

/-- KEY_LOAD. -/
def execKeyLoad (r : Req) (s : State) : Host.Outcome State Fault Refusal :=
  .next (s.command 0x0C00 (· == 72) r (effKeyLoad r))

/-- The own part of KeyDestroy (Table 15.5): at completion the key material is erased. -/
def effKeyDestroy (r : Req) (s : State) : Eff :=
  s.withHandle r.tgt [8] fun k =>
  match s.keyCtx (kidx k) with
  | none => .fail .noSuchObject []
  | some c =>
    need (c.st == .loaded || c.st == .spent) .wrongState (
    .done [] r.tgt (((s.bumpGen k).dropObj k).updOnyx fun o => { o with keys := tdel o.keys (kidx k) }))

/-- KEY_DESTROY. -/
def execKeyDestroy (r : Req) (s : State) : Host.Outcome State Fault Refusal :=
  .next (s.command 0x0C01 (· == 0) r (effKeyDestroy r))

/-- An SRTP context as a target: a wrapping key is no object the opcode accepts (Table 3.3 step 3). -/
def State.withSrtp (s : State) (h : Nat) (k : Nat → KeyCtx → Eff) : Eff :=
  s.withHandle h [8] fun key =>
  if 32768 ≤ kidx key then .fail .noSuchObject []
  else match s.keyCtx (kidx key) with
    | none => .fail .noSuchObject []
    | some c => k (kidx key) c

/-- The own part of KeyUpdate (R486, R487, R489). -/
def effKeyUpdate (r : Req) (s : State) : Eff :=
  let p := r.payload
  s.withSrtp r.tgt fun i c =>
  s.withKek (u32 p 12) (
  need (c.st != .spent) .wrongState (
  need (c.st != .exhausted) .keyExhausted (
  need (s.onyx.otp.isSome || u32 p 12 != 0) .wrongState (
  need (decide (u64 p 0 ≤ 2 ^ 48 - 2) && decide (u32 p 8 ≤ 2 ^ 31 - 2) && u8 p 16 == blobLen c.profile && zeros p 17 7 &&
    zeros p (24 + blobLen c.profile) (56 - blobLen c.profile)) .invalidArg (
  match s.unwrapKey (u32 p 12) ((p.drop 24).take (blobLen c.profile)) (padLen c.profile) with
  | none => .fail .denied []
  | some key =>
    let n := if c.dir = 2 then max (u64 p 0) c.next else u64 p 0
    let m := if c.dir = 2 then max (u32 p 8) c.rtcp else u32 p 8
    .done (le 8 n ++ le 4 m ++ le 4 0) r.tgt (s.setKey i { c with keyB := key, role := 1, n := n, m := m }))))))

/-- KEY_UPDATE. -/
def execKeyUpdate (r : Req) (s : State) : Host.Outcome State Fault Refusal :=
  .next (s.command 0x0C02 (· == 80) r (effKeyUpdate r))

/-- The code of a context state (Table 15.11). -/
def KeyState.code : KeyState → Nat
  | .loaded => 0 | .bound => 1 | .exhausted => 2 | .spent => 3

/-- The SRTP index of KeyStatsGet: the next to send, or the highest received. -/
def KeyCtx.index (c : KeyCtx) : Nat :=
  if c.dir = 2 then c.next else c.ssrcs.foldl (fun h x => max h x.high) 0

/-- The own part of KeyStatsGet (Table 15.11). -/
def effKeyStatsGet (r : Req) (s : State) : Eff :=
  s.withSrtp r.tgt fun _ c =>
  .done (le 8 c.packets ++ le 4 c.authFailed ++ le 4 c.replayed ++ le 4 c.repeated ++ le 4 c.exhaustedCount ++
    le 8 c.index ++ le 4 c.rtcp ++ le 1 c.st.code ++ le 1 c.role ++ le 2 0) r.tgt s

/-- KEY_STATS_GET. -/
def execKeyStatsGet (r : Req) (s : State) : Host.Outcome State Fault Refusal :=
  .next (s.command 0x0C03 (· == 0) r (effKeyStatsGet r))

/-- The own part of LinkKeyLoad (R493, R494): one phase into the 8 class contexts of a link and direction. -/
def effLinkKeyLoad (r : Req) (s : State) : Eff :=
  let p := r.payload
  let l := u8 p 0
  let d := u8 p 1 - 1
  let ph := u8 p 2
  let k := s.linkKey l d
  nullTarget r (
  need (decide (l < 4)) .invalidArg (
  s.withKek (u32 p 4) (
  need (s.onyx.otp.isSome || u32 p 4 != 0) .wrongState (
  need ((u8 p 1 == 1 || u8 p 1 == 2) && decide (ph ≤ 1)) .invalidArg (
  need (!(d == 1 && ph == k.active && (k.phase ph).isSome)) .wrongState (
  need (decide (u8 p 3 ≤ d)) .invalidArg (
  match s.unwrapKey (u32 p 4) ((p.drop 8).take 48) 5 with
  | none => .fail .denied []
  | some key =>
    let k := { k with phase0 := if ph = 0 then some key else k.phase0, phase1 := if ph = 1 then some key else k.phase1,
                      counter := k.counter.filter fun e => e.1 % 2 != ph,
                      warned := k.warned.filter fun e => e.1 % 2 != ph,
                      active := if d = 1 && u8 p 3 = 1 then ph else k.active }
    .done [] 0 (s.updOnyx fun o => { o with links := tset o.links (2 * l + d) k }))))))))

/-- LINK_KEY_LOAD. -/
def execLinkKeyLoad (r : Req) (s : State) : Host.Outcome State Fault Refusal :=
  .next (s.command 0x0C04 (· == 56) r (effLinkKeyLoad r))

/-- The own part of KeySystemGet (Table 15.13). -/
def effKeySystemGet (r : Req) (s : State) : Eff :=
  let o := s.onyx
  let check := match o.otp with | some k => padTo 4 (aes256 k (List.replicate 16 0)) | none => le 4 0
  nullTarget r (
  .done (check ++ le 1 (if o.otp.isSome then 1 else 0) ++ le 1 o.entropy ++ le 2 0 ++ le 4 o.rct ++ le 4 o.apt ++
    le 8 (o.requests.foldl (fun m e => max m e.2) 0)) 0 s)

/-- KEY_SYSTEM_GET. -/
def execKeySystemGet (r : Req) (s : State) : Host.Outcome State Fault Refusal :=
  .next (s.command 0x0C05 (· == 0) r (effKeySystemGet r))

/-! ### Entropy (R499 to R502) -/

/-- EntropyAlarm, a system event. -/
def State.entropyAlarm (s : State) (st test inst : Nat) : State :=
  s.raiseAll 0xFC04 (le 1 st ++ le 1 test ++ le 1 inst ++ le 5 0 ++ le 8 s.block)

/-- ENTROPY_HEALTH_FAIL: a health test fails (1 repetition count, 2 adaptive proportion, 3 start-up) and the source
restarts (R501). -/
def execEntropyHealthFail (test : Nat) (s : State) : Host.Outcome State Fault Refusal :=
  if 1 ≤ test ∧ test ≤ 3 then
    .next ((s.updOnyx fun o => { o with
      entropy := max o.entropy 1, rct := o.rct + (if test = 1 then 1 else 0), apt := o.apt + (if test = 2 then 1 else 0) })
      |>.entropyAlarm 1 test 0)
  else .fault .noSuchUnit

/-- ENTROPY_RECOVERED: the source is healthy and every running instance reseeds (R501). -/
def execEntropyRecovered (s : State) : Host.Outcome State Fault Refusal :=
  .next ((s.updOnyx fun o => { o with entropy := if o.stopped = 0 then 0 else 2, requests := [] }).entropyAlarm 3 0 0)

/-- DRBG_EXHAUSTED: an instance reaches 2^48 requests without a reseed and stops (R502). -/
def execDrbgExhausted (inst : Nat) (s : State) : Host.Outcome State Fault Refusal :=
  if inst < 9 then
    .next ((s.updOnyx fun o => { o with entropy := 2, requests := tset o.requests inst (2 ^ 48),
                                        stopped := o.stopped ||| BitVec.ofNat 9 (2 ^ inst) }).entropyAlarm 2 0 inst)
  else .fault .noSuchUnit

end Sys2Proof.Machine
end

