-- ==== Sys2Proof/Machine/Shape.lean ====
section
/-!
DEFINITION. Token buckets of the egress scheduler (R454 to R458): shapers, their refills, and the time a frame takes on a port.
-/

namespace Sys2Proof.Machine

/-- The unlimited rate (R455). -/
def unlimited : Nat := 0xFFFFFFFF

/-- An unlimited shaper with the largest burst, as after a reset (R469). -/
def Shaper.open (cls : Nat) : Shaper where
  rate := unlimited
  burst := 16777215
  tokens := 16777215 * 65536
  cls := cls
  pend := none
  packets := 0
  expired := 0
  skips := 0

/-- The leg shaper of a queue. -/
def State.legShaper (s : State) (q : Nat) : Shaper := tget (Shaper.open 0) s.egress.legs q

/-- A class or port shaper (Table 14.1). -/
def State.classShaper (s : State) (n : Nat) : Shaper := tget (Shaper.open 0) s.egress.classes n

/-- A leg shaper replaced. -/
def State.setLegShaper (s : State) (q : Nat) (x : Shaper) : State :=
  { s with egress := { s.egress with legs := tset s.egress.legs q x } }

/-- A class or port shaper replaced. -/
def State.setClassShaper (s : State) (n : Nat) (x : Shaper) : State :=
  { s with egress := { s.egress with classes := tset s.egress.classes n x } }

/-- A leg shaper made with its queue: its tokens start at its burst (R456). -/
def State.addShaper (s : State) (q rate burst cls : Nat) : State :=
  s.setLegShaper q { Shaper.open cls with rate := rate, burst := burst, tokens := (burst : Int) * 65536 }

/-- A rewrite of a leg shaper that waits for its refill (R462, R465). -/
def State.pendShaper (s : State) (q rate burst cls : Nat) : State :=
  s.setLegShaper q { s.legShaper q with pend := some (rate, burst, cls) }

/-- The slot of a port: lanes 24 to 31 are slots 8 to 15 (R451). -/
def portSlot (p : Nat) : Nat := if 24 ≤ p then p - 16 else p

/-- The refill of a shaper over `cyc` CLK_PKT cycles (R456): rate × 1000 / 8 × cyc / 1.2e9 bytes, in 2^-16 bytes. -/
def Shaper.refill (x : Shaper) (cyc : Nat) : Shaper :=
  let x := match x.pend with
    | some (r, b, c) => { x with rate := r, burst := b, cls := c, pend := none }
    | none => x
  if x.rate = 0 ∨ x.rate = unlimited then x
  else { x with tokens := min ((x.burst : Int) * 65536) (x.tokens + (x.rate * 1000 * cyc * 65536 / 9600000000 : Nat)) }

/-- A shaper admits a packet of shaped length `L` (R457). -/
def Shaper.admits (x : Shaper) (L : Nat) : Bool :=
  x.rate == unlimited || (x.rate != 0 && decide (((min L x.burst : Nat) : Int) * 65536 ≤ x.tokens))

/-- `L` debited (R457); an unlimited shaper's tokens are not counted (R455). -/
def Shaper.debit (x : Shaper) (L : Nat) : Shaper :=
  { x with tokens := if x.rate = unlimited then x.tokens else x.tokens - (L : Int) * 65536, packets := x.packets + 1 }

/-- The shaped length of a packet on a port: frame bytes through the FCS plus the overhead (R454). -/
def State.shapedLen (s : State) (p : Nat) (len : Nat) : Nat := ((len : Int) + (s.port p).overhead).toNat

/-- The time in ns to send `L` bytes at the port rate, rounded up. -/
def State.sendTime (s : State) (p L : Nat) : Nat := ceilDiv (L * 8 * 1000000) (s.portRate p)

end Sys2Proof.Machine
end

