-- ==== Sys2Proof/Machine/Mem.lean ====
section
/-!
DEFINITION. The memory system beside its accesses (R544 to R570): refresh, calibration windows, tracking, scrubbing and the memory
commands.
-/

namespace Sys2Proof.Machine

/-- The refresh interval in 10 ns at a temperature (Table 17.5). -/
def trefi (temp : Int) : Nat := if 85 < temp then 195 else 390

/-! ### Refresh (R544 to R547) -/

/-- The end of a rank's burst: the owed refreshes are issued (R546). -/
def State.endBurst (s : State) (c r : Nat) : State :=
  (s.refreshRank c r (s.mem.rank c r).owed).updRank c r fun _ => { owed := 0, burst := false }

/-- The tile fetches of a mix (R137, R539), real-time accesses (R545): the tiles whose words come poisoned. -/
def State.tileFetch (s : State) : State × List Nat :=
  s.matrix.count.foldl (fun r e =>
    let a := 0x100000000000 + e.1 * 8192
    let s := (r.1.mem.pieces a 8192).foldl (fun s p => s.markBurst p.chan 0) r.1
    let (s, bad) := s.memRead a 8192
    (s, if bad = [] then r.2 else r.2 ++ [e.1])) (s, [])

/-- The engines mark bursts again as long as they run: the tile fetches of a mix that lasts (Table 17.6). -/
def State.burstGoesOn (s : State) (c : Nat) : Bool :=
  s.matrix.mixing && s.matrix.count.any fun e => (s.mem.pieces (0x100000000000 + e.1 * 8192) 8192).any fun p => p.chan == c

/-- REFRESH_DUE: issued; owed while a real-time burst runs; forced where a fifth would be owed (R546). One that falls due
in a calibration window is issued within it (R551). -/
def execRefreshDue (chan rank : Nat) (s : State) : Host.Outcome State Fault Refusal :=
  if !rankOk chan rank then .fault .noSuchUnit
  else
    let x := s.mem.rank chan rank
    if x.burst && !(s.mem.chan chan).window then
      if x.owed < 4 then
        .next ((s.updRank chan rank fun x => { x with owed := x.owed + 1 }).updChan chan fun c => { c with mostOwed := max c.mostOwed (x.owed + 1) })
      else .next ((s.refreshRank chan rank 1).updChan chan fun c => { c with forced := c.forced + 1 })
    else .next ((s.refreshRank chan rank (x.owed + 1)).updRank chan rank fun x => { x with owed := 0 })

/-- REALTIME_BURST_END: 2 µs after a marking it ends; a new one begins at once while the mix goes on, else the owed
refreshes are issued (R545, R546). -/
def execRealtimeBurstEnd (chan rank : Nat) (s : State) : Host.Outcome State Fault Refusal :=
  if !rankOk chan rank then .fault .noSuchUnit
  else if (s.mem.rank chan rank).burst && !s.burstGoesOn chan then .next (s.endBurst chan rank)
  else .next s

/-- The tile fetches end with the mix: bursts end and owed refreshes are issued (Table 17.6). -/
def State.endBursts (s : State) : State :=
  s.mem.ranks.foldl (fun s e => if 32 ≤ e.1 ∧ e.2.burst = true then s.endBurst (e.1 / 4) (e.1 % 4) else s) s

/-- PAGE_IDLE_TIMEOUT: the bank is precharged (R542). An access in the same controller clock wins: the row stays open (R543). -/
def execPageIdleTimeout (chan bank : Nat) (s : State) : Host.Outcome State Fault Refusal :=
  if chan < 8 ∧ bank < 256 ∨ 8 ≤ chan ∧ chan < 40 ∧ bank < 16 then
    .next (if s.idleOver chan bank then s.precharge (chan * 1024 + bank) else s)
  else .fault .noSuchUnit

/-! ### Tracking (R552 to R555) -/

/-- MemMargin (Table 17.13). -/
def State.margin (s : State) (chan lane st : Nat) : State :=
  s.raiseAll 0xFF61 (le 1 1 ++ le 1 chan ++ le 1 lane ++ le 1 st ++ le 4 0 ++ le 8 s.block)

/-- One lane tracked: moved a step where the counts say so and its limit of 32 steps allows, its margin told. -/
def State.trackLane (s : State) (time chan i : Nat) : State :=
  let key := chan * 32 + i
  let lane := i % 16
  let (mm, mp, n) := Config.shadow time key s.mem.d
  let x : MemLane := tget { drift := 0, limit := false, narrow := false, bad := 0 } s.mem.lanes key
  let move : Int := if 16 ≤ mm + mp then (if 2 * mp < mm then 1 else if 2 * mm < mp then -1 else 0) else 0
  let narrow := decide (n ≤ 256 * mm) && decide (n ≤ 256 * mp)
  let overTimes := decide (move ≠ 0) && (decide (32 < x.drift + move) || decide (x.drift + move < -32))
  let moved := decide (move ≠ 0) && !overTimes
  let y := { x with
    drift := if moved then x.drift + move else x.drift
    bad := if move ≠ 0 ∨ narrow then s.block else x.bad
    limit := x.limit || overTimes
    narrow := x.narrow || narrow }
  let back := (y.limit || y.narrow) && decide (y.bad + 500 ≤ s.block)
  let y := if back then { y with limit := false, narrow := false } else y
  let s := s.updMem fun m => { m with lanes := tset m.lanes key y }
  let s := if moved then s.updChan chan fun c => { c with moved := c.moved + 1 } else s
  let s := if narrow then (s.updChan chan fun c => { c with warned := c.warned + 1 }).margin chan lane 1 else s
  let s := if overTimes && !x.limit then s.margin chan lane 2 else s
  if back then s.margin chan lane 3 else s

/-- The read delays of every DDR5 lane tracked at a block boundary (R552, R553). -/
def State.trackRead (s : State) : State :=
  if s.mem.ddr then (List.range 8).foldl (fun s c => (List.range 10).foldl (fun s i => s.trackLane s.block c i) s) s else s

/-! ### Calibration windows (R550, R551) -/

/-- The channels of a memory channel: an HBM3 one has two pseudo-channels. -/
def windowChans (c : Nat) : List Nat := if c < 8 then [c] else [8 + (c - 8) / 2 * 2, 8 + (c - 8) / 2 * 2 + 1]

/-- CALIBRATION_WINDOW_START: owed refreshes are issued, a rank gets ZQ calibration, and DDR5 write delays are tracked. -/
def execCalibrationWindowStart (chan : Nat) (s : State) : Host.Outcome State Fault Refusal :=
  if 40 ≤ chan then .fault .noSuchUnit
  else if !(if chan < 8 then s.mem.ddr else s.mem.hbm) then .next s
  else
    let s := (windowChans chan).foldl (fun s c => (List.range 4).foldl (fun s r =>
      if thas s.mem.ranks (c * 4 + r) then (s.refreshRank c r (s.mem.rank c r).owed).updRank c r fun x => { x with owed := 0 } else s)
      (s.updChan c fun x => { x with window := true, last := s.block, zq := if c < 8 then (x.zq + 1) % (fitDimms * fitRanks) else 0 })) s
    .next (if chan < 8 then (List.range 10).foldl (fun s i => s.trackLane s.now chan (16 + i)) s else s)

/-- CALIBRATION_WINDOW_END: media traffic resumes. -/
def execCalibrationWindowEnd (chan : Nat) (s : State) : Host.Outcome State Fault Refusal :=
  if 40 ≤ chan then .fault .noSuchUnit
  else .next ((windowChans chan).foldl (fun s c => s.updChan c fun x => { x with window := false }) s)

/-! ### Scrubbing (R564 to R566, R568) -/

/-- SCRUB_STEP: the scrubber reads the next location of a channel, in which the bits `errs` have come to read wrong. What the check
code corrects is written back; an uncorrectable location is left as it is and told (R561, R562, R565). -/
def execScrubStep (chan : Nat) (errs : List Nat) (s : State) : Host.Outcome State Fault Refusal :=
  if 40 ≤ chan then .fault .noSuchUnit
  else if !(if chan < 8 then s.mem.ddr else s.mem.hbm) then .next s
  else
    let l := (s.mem.chan chan).scrub
    let k := locKey chan l
    let s := s.updChan chan fun x => if l + 1 < locations chan then { x with scrub := l + 1 } else { x with scrub := 0, passes := x.passes + 1 }
    let s := if errs = [] then s else s.updMem fun m => { m with errs := tset m.errs k (tget [] m.errs k ++ errs).eraseDups }
    .next ((s.touch chan (l * locBytes chan)).readOne chan 3 l)

/-- CORRECTED_WRITE_BACK: the corrected data are written to a location no write has reached since (R564, R566). -/
def execCorrectedWriteBack (chan loc : Nat) (s : State) : Host.Outcome State Fault Refusal :=
  if 40 ≤ chan then .fault .noSuchUnit
  else if s.mem.fixes.contains (chan, loc) then
    .next ((s.touch chan (loc * locBytes chan)).updMem fun m => m.fixLoc chan loc)
  else .next s

/-! ### Training (R533, R534, R556 to R560) -/

/-- The eyes that a training of a memory channel finds: step and lane, both subchannels, check bits among them. -/
def eyes (n c : Nat) : List (Nat × Nat × Nat) :=
  [3, 4].flatMap fun step => (List.range 80).map fun lane => (step, lane, Config.eye n c step lane)

/-- The narrowest eye of a training of a memory channel. -/
def narrowestEye (n c : Nat) : Nat := ((eyes n c).map (·.2.2)).foldl min 255

/-- The failing memory channel, step and lane of training number `n`: a fitting that breaks R533 fails untrained (R534), a bit whose
eye is below 16 steps fails its channel (R558). -/
def trainingFault (n : Nat) : Option (Nat × Nat × Nat) :=
  if !Config.fitting.legal then some Config.fittingRecord
  else (List.range 8).findSome? fun c => ((eyes n c).find? fun e => decide (e.2.2 < 16)).map fun e => (c, e.1, e.2.1)

/-- The fuse table has its magic, version and entry count, and its CRC-32C matches (R560). -/
def fusesGood : Bool :=
  let t := Config.fuseTable
  u16 t 0 == 0x4846 && u8 t 2 == 1 && u8 t 3 == 32 && u32 t 12 == (crc32c ((t.drop 16).take 512)).toNat

/-- A helper register of a DDR5 controller. -/
def State.mctReg (s : State) (c off : Nat) : BitVec 32 := tget 0 s.mem.mct (c * 64 + off)
def State.setMct (s : State) (c off : Nat) (v : BitVec 32) : State :=
  s.updMem fun m => { m with mct := if v = 0 then tdel m.mct (c * 64 + off) else tset m.mct (c * 64 + off) v }

/-- The selection of MCT_DLY_SEL (Table 17.11), 11 bits. -/
def State.mctSel (s : State) (c : Nat) : Nat := (s.mctReg c 0x18).toNat % 2048

/-- A read of a helper register by firmware: the compare results and the shadow counts clear (Table 17.9). -/
def State.mctRead (s : State) (c off : Nat) : BitVec 32 × State :=
  let v := if off = 0x1C then ((tget 0 s.mem.delays (c * 4096 + s.mctSel c)).setWidth 32) else s.mctReg c off
  (v, if off = 0x0C ∨ off = 0x10 ∨ off = 0x14 ∨ off = 0x28 then s.setMct c off 0 else s)

/-- A pattern run (R557, Table 17.10): 0 bursts end at once with no access; else bursts of the selected subchannel are written in the
training region (OP 00 and 10), what is read back is compared (OP 00 and 01), and DONE is set. -/
def State.mctRun (s : State) (n c step : Nat) : State :=
  let ctrl := s.mctReg c 0
  let op := ctrl.toNat / 4 % 4
  let bursts := ctrl.toNat / 65536
  let start := (s.mctReg c 0x08).toNat % 2 ^ 21 / 128 * 128 + (if ctrl.getLsbD 8 then 64 else 0)
  let s := if op = 1 then s
           else (List.range bursts).foldl (fun s i => s.memWrite (ddrUnmap s.mem.g5 c ((start + 128 * i) % 2 ^ 21)) 64) s
  let (err, ecc, cnt) := Config.compared n c step
  let s := if op = 2 ∨ bursts = 0 then s
           else ((s.setMct c 0x0C (s.mctReg c 0x0C ||| err)).setMct c 0x10 (s.mctReg c 0x10 ||| ecc.setWidth 32)).setMct c 0x14 (s.mctReg c 0x14 + cnt)
  s.setMct c 0 ((ctrl &&& 0xFFFFFFFE#32) ||| 2#32)

/-- A write of a helper register by firmware (Tables 17.9 to 17.11). A reserved code leaves its field unchanged (R9); the compare results
and the shadow counts are read only. START begins a run. -/
def State.mctWrite (s : State) (n c step off : Nat) (v : BitVec 32) : State :=
  if off = 0x00 then
    let old := s.mctReg c 0
    let op := if v.toNat / 4 % 4 = 3 then old.toNat / 4 % 4 else v.toNat / 4 % 4
    let pat := if 3 < v.toNat / 16 % 16 then old.toNat / 16 % 16 else v.toNat / 16 % 16
    let done := if v.getLsbD 1 then 0 else old.toNat / 2 % 2
    let s := s.setMct c 0 (BitVec.ofNat 32 (2 * done + 4 * op + 16 * pat + v.toNat / 256 % 8 * 256 + v.toNat / 65536 * 65536))
    if v.getLsbD 0 then s.mctRun n c step else s
  else if off = 0x04 then s.setMct c off v
  else if off = 0x08 then s.setMct c off (v &&& 0x1FFFC0#32)
  else if off = 0x18 then s.setMct c off (v &&& 0x7FF#32)
  else if off = 0x1C then s.updMem fun m => { m with delays := tset m.delays (c * 4096 + s.mctSel c) (v.setWidth 9) }
  else if off = 0x20 then s.setMct c off (v &&& 0x7F#32)
  else if off = 0x24 then
    let d := if 2 ≤ v.toNat % 32 ∧ v.toNat % 32 ≤ 16 then v.toNat % 32 else (s.mctReg c off).toNat % 32
    s.setMct c off (BitVec.ofNat 32 (d + v.toNat / 256 % 2 * 256))
  else s

/-- The selections of a memory channel that are trained: rank and DIMM fitted, each kind's lanes (Table 17.11). -/
def trainedSels : List Nat :=
  (List.range (fitDimms * fitRanks)).flatMap fun r =>
    let place := r / fitRanks * 1024 + r % fitRanks * 512
    [0, 1].flatMap fun sub => ((List.range 40).flatMap fun l => [l, 64 + l]).map (place + 256 * sub + ·) ++
      ((List.range 5).flatMap fun l => [128 + l, 192 + l]).map (place + 256 * sub + ·)

/-- A memory channel trained with its helpers (Table 17.8): the pattern runs of steps 3 and 4, then the delays and Vref they end with,
and the shadow samplers on. -/
def State.trainChannel (s : State) (n c : Nat) : State :=
  let run (s : State) (step op : Nat) : State :=
    let s := (s.mctWrite n c step 0x04 (Config.trainSeed n c step)).mctWrite n c step 0x08 0
    let s := s.mctWrite n c step 0x00 (BitVec.ofNat 32 (1 + 4 * op) ||| ((Config.trainBursts n c step).setWidth 32 <<< 16))
    let s := (((s.mctRead c 0x0C).2.mctRead c 0x10).2.mctRead c 0x14).2
    s.mctWrite n c step 0x00 2
  let s := run (run s 3 1) 4 0
  let s := trainedSels.foldl (fun s sel => (s.mctWrite n c 5 0x18 (BitVec.ofNat 32 sel)).mctWrite n c 5 0x1C ((Config.trainedDelay n c sel).setWidth 32)) s
  (s.mctWrite n c 5 0x20 ((Config.trainedVref n c 0).setWidth 32)).mctWrite n c 5 0x24 (BitVec.ofNat 32 (256 + s.mem.d))

/-- DDR5 trained, or its training restored and steps 2 to 4 repeated: nothing is trained where the fitting breaks R533 (R534, R556). -/
def State.trainDdr (s : State) (n : Nat) : State :=
  if Config.fitting.legal then (List.range 8).foldl (fun s c => s.trainChannel n c) s else s

/-! ### Commands (R568 to R570) -/

/-- The own part of MemLayoutSet (R569). -/
def effMemLayoutSet (r : Req) (s : State) : Eff :=
  let p := r.payload
  let discard := u8 p 3 % 2 == 1
  nullTarget r (
  need ((s.mode == .ready || s.mode == .maintenance) && s.objs.isEmpty) .wrongState (
  -- whether survivors forbid the change rests on the flags (R799)
  need (s.recorder.survivors.isEmpty || decide (u8 p 3 ≤ 1)) .invalidArg (
  need (discard || s.recorder.survivors.isEmpty) .wrongState (
  need (decide (8 ≤ u8 p 0) && decide (u8 p 0 ≤ 16) && decide (8 ≤ u8 p 1) && decide (u8 p 1 ≤ 13) && decide (u8 p 2 ≤ 16) &&
    decide (u8 p 3 ≤ 1) && zeros p 4 12) .invalidArg (
  .done [] 0 { s with mem := { s.mem with g5 := u8 p 0, g3 := u8 p 1, spill := u8 p 2 },
                      recorder := { s.recorder with survivors := [] } })))))

/-- MEM_LAYOUT_SET. -/
def execMemLayoutSet (r : Req) (s : State) : Host.Outcome State Fault Refusal :=
  .next (s.command 0x0F60 (· == 16) r (effMemLayoutSet r))

/-- A memory policy in force. -/
def Mem.setPolicy (m : Mem) (p : Bytes) : Mem :=
  if u8 p 0 = 1 then { m with k5 := u8 p 1, idle5 := u16 p 2, d := u8 p 4, scrub5 := u8 p 5 }
  else { m with k3 := u8 p 1, idle3 := u16 p 2, scrub3 := u8 p 5 }

/-- The own part of MemPolicySet (Table 17.15, R570). -/
def effMemPolicySet (r : Req) (s : State) : Eff :=
  let p := r.payload
  let ddr := u8 p 0 == 1
  nullTarget r (
  need ((ddr || u8 p 0 == 2) && decide (8 ≤ u8 p 1) && decide (u8 p 1 ≤ 16) && decide (u16 p 2 ≤ 1023) &&
    (if ddr then decide (2 ≤ u8 p 4) && decide (u8 p 4 ≤ 16) else u8 p 4 == 0) && decide (1 ≤ u8 p 5) &&
    decide (u8 p 5 ≤ (if ddr then 168 else 24)) && zeros p 6 10) .invalidArg (
  .later [] 0 (s.schedule (.block (s.firstBlock r.mbx)) (r.origin 0) (.memPolicy p))))

/-- MEM_POLICY_SET. -/
def execMemPolicySet (r : Req) (s : State) : Host.Outcome State Fault Refusal :=
  .next (s.command 0x0F61 (· == 16) r (effMemPolicySet r))

/-- The lanes of a DDR5 channel that are tracked. -/
def Mem.lanesOf (m : Mem) (c : Nat) : List MemLane := (m.lanes.filter fun e => e.1 / 32 == c).map (·.2)

/-- The largest drift of some lanes, by size. -/
def largestDrift (l : List MemLane) : Int := l.foldl (fun b x => if b.natAbs < x.drift.natAbs then x.drift else b) 0

/-- The own part of MemStatusGet (Table 17.16). -/
def effMemStatusGet (r : Req) (s : State) : Eff :=
  let p := r.payload
  let ddr := u8 p 0 == 1
  let n := u8 p 1
  let cs := if ddr then [n] else windowChans (8 + 2 * n)
  let m := s.mem
  let sum (f : MemChan → Nat) : Nat := (cs.map fun c => f (m.chan c)).sum
  let ls := if ddr then m.lanesOf n else []
  let up := if ddr then m.ddr else m.hbm
  let st := if !up then 2 else if ls.any (·.limit) then 3 else 1
  nullTarget r (
  need ((ddr || u8 p 0 == 2) && decide (n < (if ddr then 8 else 16))) .invalidArg (
  need (zeros p 2 2) .invalidArg (
  .done (le 1 (u8 p 0) ++ le 1 n ++ le 1 st ++ le 1 (unsigned 8 ((cs.map fun c => (m.chan c).temp).foldl max (-128))) ++
    le 2 (if ddr then (if fitDimms = 1 then 6400 else 5600) else 6400) ++ le 1 (if ddr then fitDimms else 0) ++
    le 1 (if ddr then fitRanks else 0) ++ le 4 (if ddr then fitGiB else 1) ++ le 4 (sum (·.corrected)) ++ le 4 (sum (·.uncorrected)) ++
    le 4 ((cs.map fun c => (m.chan c).passes).foldl min (m.chan (cs.headD 0)).passes) ++ le 8 ((cs.map fun c => tget 0 m.neighDone c).sum) ++
    le 4 (sum (·.forced)) ++
    le 1 ((cs.map fun c => (m.chan c).mostOwed).foldl max 0) ++ le 1 (unsigned 8 (largestDrift ls)) ++
    le 1 (if ddr then narrowestEye (s.rst.trainings - 1) n else 0) ++ le 1 0 ++ le 4 (sum (·.moved)) ++ le 4 (sum (·.warned)) ++
    le 8 (m.chan (cs.headD 0)).last ++ le 8 0) 0 s)))

/-- MEM_STATUS_GET. -/
def execMemStatusGet (r : Req) (s : State) : Host.Outcome State Fault Refusal :=
  .next (s.command 0x0F62 (· == 4) r (effMemStatusGet r))

end Sys2Proof.Machine
end

