-- ==== Sys2Proof/Machine/Tap.lean ====
section
/-!
DEFINITION. Taking copies at recorder taps (R507 to R511): what the media paths call.
-/

namespace Sys2Proof.Machine

/-- The recorder changed. -/
def State.updRec (s : State) (f : Recorder → Recorder) : State := { s with recorder := f s.recorder }

/-- A partition, and a partition changed. -/
def State.part (s : State) (key : Nat) : Option Part := if ktype key = 6 then tget? s.recorder.parts (kidx key) else none
def State.updPart (s : State) (key : Nat) (f : Part → Part) : State :=
  s.updRec fun x => { x with parts := tupd x.parts (kidx key) f }

/-- The bytes of a record (R505). -/
def recordLen (n : Nat) : Nat := 64 + ceilDiv n 64 * 64

/-- The bytes waiting in an ingest buffer. -/
def Part.ingestFill (p : Part) : Nat := (p.ingest.map fun c => recordLen c.data.length).sum

/-- A copy dropped and counted against its tap (R509). -/
def Part.drop (p : Part) (tap : Nat) : Part :=
  { p with lost := p.lost + 1, taps := tupd p.taps tap fun t => { t with lost := t.lost + 1 } }

/-- A copy taken into a partition: by its ingest buffer of 256 KiB, or waiting for the recorder's DMA (R508, R509). -/
def Part.take (p : Part) (c : Copy) : Part :=
  if 5 ≤ c.kind then { p with pics := p.pics ++ [c] }
  else if p.ingestFill + recordLen c.data.length ≤ 2 ^ 18 then { p with ingest := p.ingest ++ [c] }
  else p.drop c.tap

/-- A copy at one point of an object into every ACTIVE partition that taps it (R507, R513): kind, object key, stream,
concealed mark, capture time, source stamp, and a picture's frame period in ns. -/
def State.tapCopy (s : State) (kind key stream : Nat) (concealed : Bool) (capture stamp period : Nat) (d : Bytes) : State :=
  s.recorder.parts.foldl (fun s e =>
    if s.flows (okey 6 e.1) then
      e.2.taps.foldl (fun s t =>
        if t.2.on && t.2.kind == kind && t.2.obj == key && t.2.stream == stream then
          s.updPart (okey 6 e.1) fun p => p.take {
            tap := t.1, kind := kind, obj := s.handle key, concealed := concealed, capture := capture, stamp := stamp,
            done := s.now, deadline := s.now + period, data := d }
        else s) s
    else s) s

/-- A copy found to hold a poisoned word before it is written: not written, dropped and counted (R681). -/
def State.tapPoisoned (s : State) (kind key stream capture : Nat) : State :=
  s.recorder.parts.foldl (fun s e =>
    e.2.taps.foldl (fun s t =>
      if t.2.kind == kind && t.2.obj == key && t.2.stream == stream && e.2.ingest.any fun c => c.tap == t.1 && c.capture == capture then
        s.updPart (okey 6 e.1) fun p => { p with ingest := p.ingest.filter fun c => !(c.tap == t.1 && c.capture == capture) }.drop t.1
      else s) s) s

/-- The points of a kind that are tapped in some ACTIVE partition: object keys. -/
def State.tapped (s : State) (kind : Nat) : List Nat :=
  (s.recorder.parts.flatMap fun e => if s.flows (okey 6 e.1) then
    (e.2.taps.filter fun t => t.2.on && t.2.kind == kind).map (·.2.obj) else []).eraseDups

end Sys2Proof.Machine
end

