-- ==== Sys2Proof/Machine/Leg.lean ====
section
/-!
DEFINITION. Audio legs and sessions (R178 to R213, R792): their commands, playout, the leg chain, packetising, tones and
clips.
-/

namespace Sys2Proof.Machine

/-! ### The configuration of a leg (Tables 6.6 to 6.8) -/

def Leg.kind (l : Leg) : Nat := u8 l.cfg 0
def Leg.codec (l : Leg) : Nat := u8 l.cfg 1
def Leg.session (l : Leg) : Nat := u32 l.cfg 4 % 2 ^ 20
def Leg.depth (l : Leg) : Nat := u16 l.cfg 10
def Leg.inPt (l : Leg) : Nat := u8 l.cfg 12
def Leg.port (l : Leg) : Nat := u8 l.cfg 32
def Leg.inMax (l : Leg) : Nat := u16 l.cfg 46
/-- A chain flag (Table 6.10). -/
def Leg.flag (l : Leg) (b : Nat) : Bool := u16 l.chain 0 / 2 ^ b % 2 == 1
/-- The codec and the AMR-WB mode, as the codec functions take it. -/
def codecKey (c : Bytes) : Nat := u8 c 1 + 256 * (u8 c 39 / 2 % 2)

/-- The RTP clock of a codec in kHz (R181). -/
def rtpClock (codec : Nat) : Nat := if codec = 5 then 48 else if codec = 4 ∨ codec = 6 then 16 else 8

/-- A packet time of a codec, in and out (Table 6.2). -/
def ptOk (codec pt : Nat) : Bool :=
  match codec with
  | 1 | 2 | 3 => [10, 20, 30, 40, 60].contains pt
  | 4 | 6 => [20, 40, 60].contains pt
  | 5 => [10, 20, 40, 60].contains pt
  | _ => false

/-- A bit rate of a codec in 100 bit/s (Table 6.2). -/
def rateOk (codec n : Nat) : Bool :=
  match codec with
  | 1 | 2 | 3 => n == 640
  | 4 => [66, 885, 1265, 1425, 1585, 1825, 1985, 2305, 2385].contains n
  | 5 => decide (60 ≤ n) && decide (n ≤ 1280)
  | 6 => [72, 80, 96, 132, 164, 244].contains n
  | _ => false

/-- Chain flags that a kind and codec allow (Table 6.10). -/
def flagsOk (kind codec f : Nat) : Bool :=
  decide (f < 256) && (f / 4 % 2 == 0 || kind == 2 || codec == 1 || codec == 2) && (f / 16 % 2 == 0 || decide (4 ≤ codec)) &&
  (f / 32 % 2 == 0 || codec == 5)

/-- The quanta of a codec (Table 4.7). A host leg costs by its codec as any other, where Table 4.7 names host legs with 1 quantum beside
the rows by codec (DESIGN CHOICE, log entry 123). -/
def codecQuanta (kind codec : Nat) : Nat :=
  if kind = 2 ∨ kind = 4 then 1 else if codec = 4 ∨ codec = 5 then 2 else if codec = 6 then 4 else 1

/-- The overhead of the port of a leg's configuration; a host leg has none. -/
def State.cfgOver (s : State) (c : Bytes) : Int := if u8 c 0 = 1 then (s.port (u8 c 32)).overhead else 0

/-- The wire bytes of a maximum frame in (`o = 46`) or out (`o = 48`). -/
def State.wireBytes (s : State) (c : Bytes) (o : Nat) : Nat := ((u16 c o : Int) + s.cfgOver c).toNat

/-- The outgoing wire rate in kbit/s, rounded up (R114). -/
def State.outRate (s : State) (c : Bytes) : Nat := ceilDiv (s.wireBytes c 48 * 8) (u8 c 13)

/-- The cost of a leg's configuration (Table 4.7, R113, R114). -/
def State.legCost (s : State) (c : Bytes) : Costs :=
  let q := (0x0001, 0, codecQuanta (u8 c 0) (u8 c 1))
  if u8 c 0 = 2 ∨ u8 c 0 = 4 then costOf [q]
  else
    let inB := s.wireBytes c 46
    let inPt := u8 c 12
    let inRate := ceilDiv (inB * 8) inPt
    let out := s.outRate c
    let rtp := u8 c 0 == 1
    costOf [q,
      (0x0006, 0, if rtp then (if u32 c 24 = 0 then 0 else inRate) + (if u32 c 28 = 0 then 0 else out) else 0),
      (0x0007, 0, ceilDiv 1000 inPt), (0x0008, 0, ceilDiv 1000 (u8 c 13)),
      (0x0009, 0, if 512 * inPt < u16 c 10 * inB then ceilDiv (2 * inB) inPt else 0),
      (0x000B, u8 c 32, if rtp then out else 0),
      (0x000C, 0, ceilDiv (u16 c 10 * inB) (inPt * 1024))]

/-- The spill allowance of a leg's ingress queue (R430). -/
def State.legSpill (s : State) (c : Bytes) : Nat := tget 0 (s.legCost c) (bkey 0x000C 0)

/-- A configuration with the settings of LegCodecSet in it (Table 6.11); a TDM configuration has no RTP part. -/
def withCodec (c p : Bytes) : Bytes :=
  let c := poke (poke (poke (poke (poke c 1 (le 1 (u8 p 0))) 3 (le 1 (u8 p 1))) 10 (le 2 (u16 p 6)))
    12 (le 1 (u8 p 2) ++ le 1 (u8 p 3))) 14 (le 2 (u16 p 4))
  if u8 c 0 = 2 then c
  else poke (poke (poke c 34 (le 1 (u8 p 13) ++ le 1 (u8 p 14))) 37 (le 1 (u8 p 12))) 46 (le 2 (u16 p 8) ++ le 2 (u16 p 10))

/-- The configuration of a leg as the codec changes already scheduled will leave it. -/
def State.cfgAhead (s : State) (key : Nat) (c : Bytes) : Bytes :=
  s.sched.foldl (fun c e => match e.act with | .codec k p => if k = key then withCodec c p else c | _ => c) c

/-! ### What mirroring costs (Table 4.7) -/

/-- The incoming wire rate in kbit/s of a configuration of an audio leg. -/
def State.inRate (s : State) (c : Bytes) : Nat := if u8 c 0 = 2 ∨ u8 c 0 = 4 then 0 else ceilDiv (s.wireBytes c 46 * 8) (u8 c 12)

/-- The wire rate of a critical leg's ingress in kbit/s: while codec changes wait, the highest of those it will have, since a rise is
charged at completion and a fall at its boundary (R116). -/
def State.mirrorRate (s : State) (key : Nat) : Nat :=
  if ktype key = 2 then
    match s.leg key with
    | some l => (s.sched.foldl (fun (x : Bytes × Nat) e => match e.act with
        | .codec k p => if k = key then (withCodec x.1 p, max x.2 (s.inRate (withCodec x.1 p))) else x
        | _ => x) (l.cfg, s.inRate l.cfg)).2
    | none => 0
  else if ktype key = 3 then (match tget? s.video.legs (kidx key) with | some l => if u8 l.cfg 0 = 1 then u32 l.cfg 32 else 0 | none => 0)
  else 0

/-- A mirrored rate on the links it takes: on the leader the send side of each link to a follower, on a follower the receive side of its
link to the leader. -/
def State.mirrorLinks (s : State) (rate : Nat) : Costs :=
  let t := s.trio
  if t.id = 0 then []
  else if t.leader = s.nmc.addr then
    costOf ((t.addrs.zipIdx.filter fun e => e.2 != t.pos && t.present.contains e.1).map fun e => (0x000F, 2 * routeLink 1 3 t.pos e.2, rate))
  else match t.addrs.findIdx? (· == t.leader) with
    | some q => costOf [(0x000F, 2 * routeLink 1 3 t.pos q + 1, rate)]
    | none => []

/-- What mirroring is charged for the ACTIVE entries. -/
def State.mirrorCost (s : State) : Costs :=
  s.mirrorLinks ((s.trio.entries.filter fun e => e.2.active).map fun e => s.mirrorRate e.2.key).sum

/-- The mirroring charge brought up to date. An entry that becomes ACTIVE is charged at that block start, and no room is asked for, since
TrioCriticalSet has no NO_BUDGET and R115 names no other place (DESIGN CHOICE, log entry 123). -/
def State.chargeMirror (s : State) : State :=
  let c := s.mirrorCost
  if c = s.trio.charged then s
  else { (s.releaseNow s.trio.charged).reserve c with trio := { s.trio with charged := c } }

/-- The rise of the mirroring charge with a new configuration of a mirrored leg (R115). -/
def State.mirrorRise (s : State) (key : Nat) (new : Bytes) : Costs :=
  if (s.activeEntry key).isSome then s.mirrorLinks (s.inRate new - s.mirrorRate key) else []

/-- The chain flags of a leg as the changes already scheduled will leave them. -/
def State.flagsAhead (s : State) (key : Nat) (l : Leg) : Nat :=
  s.sched.foldl (fun f e => match e.act with | .chain k p => if k = key then u16 p 0 else f | _ => f) (u16 l.chain 0)

/-- The codec, packet times, rate, J and frames of a kind (Tables 6.6 and 6.7). -/
def codecFields (kind codec inPt outPt rate j inMax outMax burst : Nat) : Bool :=
  decide (j ≤ 400) &&
  (if kind = 2 then (codec == 1 || codec == 2) && inPt == 0 && outPt == 0 && rate == 640 && j == 0 && inMax == 0 && outMax == 0 && burst == 0
   else
     let ok (n : Nat) : Bool := if kind = 3 then decide (12 ≤ n) && decide (n ≤ 1500) else decide (64 ≤ n) && decide (n ≤ 1518)
     ptOk codec inPt && ptOk codec outPt && rateOk codec rate && ok inMax && ok outMax && decide (1 ≤ burst))

/-- The common fields of LegCreate (Table 6.6). -/
def legCommonOk (p : Bytes) : Bool :=
  decide (u8 p 2 ≤ 1) && decide (u8 p 3 ≤ 3) && (decide (u16 p 8 < 16384) || u16 p 8 == 0xFFFF) &&
  flagsOk (u8 p 0) (u8 p 1) (u16 p 16) && zeros p 20 4 &&
  (if u8 p 0 = 2 then u16 p 18 == 0 else u16 p 18 == 0 || (decide (100 ≤ u16 p 18) && decide (u16 p 18 ≤ 60000)))

/-- The RTP and host part of LegCreate (Table 6.7). -/
def legRtpOk (p : Bytes) : Bool :=
  codecFields (u8 p 0) (u8 p 1) (u8 p 12) (u8 p 13) (u16 p 14) (u16 p 10) (u16 p 46) (u16 p 48) (u8 p 37) &&
  decide (u8 p 34 < 128) && decide (u8 p 35 < 128) && ((decide (96 ≤ u8 p 36) && decide (u8 p 36 < 128)) || u8 p 36 == 255) &&
  decide (u8 p 38 < 64) && decide (u8 p 39 < 8) &&
  (if u8 p 39 / 4 = 1 then u16 p 40 / 4096 % 2 == 0 else u16 p 40 == 0) && zeros p 50 2 && zeros p 58 2 &&
  (if u8 p 0 = 3 then zeros p 24 10 && zeros p 42 4 && zeros p 64 32
   else (u8 p 33 == 4 || u8 p 33 == 6) && (u8 p 33 == 6 || (zeros p 68 12 && zeros p 84 12)))

/-- The classification key of an RTP leg (R420 step 8): port, VLAN, family, local address, local UDP port. -/
def legKeyOf (c : Bytes) : Nat × Nat × Nat × Bytes × Nat :=
  (u8 c 32, if u8 c 39 / 4 % 2 = 1 then u16 c 40 % 4096 else 4096, u8 c 33, (c.drop 64).take 16, u16 c 42)

/-- The classification key of a video leg. -/
def videoKeyOf (c : Bytes) : Nat × Nat × Nat × Bytes × Nat :=
  (u8 c 16, if u8 c 19 / 2 % 2 = 1 then u16 c 20 % 4096 else 4096, u8 c 17, (c.drop 72).take 16, u16 c 24)

/-- Some live leg holds a classification key (R423). -/
def State.keyHeld (s : State) (k : Nat × Nat × Nat × Bytes × Nat) : Bool :=
  (s.audio.legs.any fun e => u8 e.2.cfg 0 == 1 && legKeyOf e.2.cfg == k) || s.video.legs.any fun e => videoKeyOf e.2.cfg == k

/-- A timeslot of an E1 path that a TDM leg may take (R609). -/
def State.timeslotOk (s : State) (p : Bytes) : Bool :=
  let i := kidx (u32 p 24 % 2 ^ 20)
  match tget? s.framer.e1 i with
  | none => false
  | some e =>
    decide (1 ≤ u8 p 28) && decide (u8 p 28 ≤ 31) && !(e.ts16 != 0 && u8 p 28 == 16) &&
    !(s.audio.legs.any fun x => u8 x.2.cfg 0 == 2 && u32 x.2.cfg 24 % 2 ^ 20 == i && u8 x.2.cfg 28 == u8 p 28)

/-! ### Creation -/

/-- Chain settings at their defaults with the flags of LegCreate (Table 6.10). -/
def chainOf (flags : Nat) : Bytes :=
  le 2 flags ++ [18, 12, 12, 64, 1, 0] ++ le 2 200 ++ le 2 0x2000 ++ le 2 0x2000 ++ le 2 0

/-- Statistics at zero. -/
def LegStats.zero : LegStats :=
  { received := 0, sent := 0, late := 0, early := 0, overRate := 0, expired := 0, lost := 0, refused := 0, concealed := 0,
    anchors := 0, gaps := 0, octets := 0, overlap := 0 }

/-- A new leg with its matrix number, core and queues; its policer starts full. -/
def Leg.new (c : Bytes) (m core inQ outQ now block : Nat) : Leg where
  cfg := c
  chain := chainOf (u16 c 16)
  m := m
  core := core
  inQ := inQ
  outQ := outQ
  rx := 0
  anchor := none
  ssrc := none
  lastSeq := none
  badRow := 0
  lastArrival := now
  recent := []
  pcm := []
  decSt := []
  encSt := []
  voiceSt := []
  comfort := false
  concealMs := 60
  agc := 0
  tokens := u8 c 37 * u16 c 46 * 120000000000
  tokensAt := now
  voice := false
  lastSpeech := 0
  since := block
  grid := block
  encCfg := c
  tx := []
  txSeq := u16 c 56
  txTs := u32 c 60
  tsBlock := block
  lastTs := 0
  lastBlock := 0
  marker := true
  quiet := false
  part := []
  partFrom := block
  telTx := none
  lastRun := 0
  own := []
  tone := none
  clip := none
  tails := []
  telEvent := none
  telVol := 0
  telMs := 0
  telSeen := []
  slot1 := none
  slot2 := none
  quanta := 0
  prevOut := []
  missing := 0
  stats := LegStats.zero

/-- A leg that lives owns matrix number `m`, or its release time has not come (R179). -/
def State.busyNumber (s : State) (m : Nat) : Bool :=
  (s.audio.legs.any fun e => e.2.m == m) || decide (s.now < tget 0 s.audio.busyM m)

/-- The lowest free matrix number from `m`, of `n` numbers. -/
def State.lowestNumber (s : State) : Nat → Nat → Option Nat
  | _, 0 => none
  | m, n + 1 => if s.busyNumber m then State.lowestNumber s (m + 1) n else some m

/-- The matrix number a create asks for, where it is free (R179). -/
def State.pickNumber (s : State) (m : Nat) : Option Nat :=
  if m = 0xFFFF then s.lowestNumber 0 16384 else if s.busyNumber m then none else some m

/-- The cores a leg may be placed on: the ENABLED ones. -/
def State.coreEnabled (s : State) (c : Nat) : Bool := (s.inst 1 c).st == .enabled

/-- The lowest-numbered enabled core with room for `q` quanta (R215). -/
def State.pickCore (s : State) (q : Nat) : Option Nat :=
  (List.range 256).find? fun c => s.coreEnabled c && decide (q ≤ s.coreRoom c)

/-- The largest room of one enabled core (R215). -/
def State.largestRoom (s : State) : Nat :=
  (List.range 256).foldl (fun n c => if s.coreEnabled c then max n (s.coreRoom c) else n) 0

/-- The legs that make up a leg's session in auto-mix mode, and the gain to join at (R158, R180). -/
def State.autoGain (s : State) (ses : Nat) : Option (BitVec 16) :=
  match tget? s.audio.sessions ses with
  | some x => if x.autoMix then some x.gain else none
  | none => none

/-- The writes of a join in auto-mix mode. -/
def State.joinOf (s : State) (ses m key : Nat) : List (Node × BitVec 16 × Nat × Nat) :=
  match s.autoGain ses with
  | some g => s.joinWrites ses m key g
  | none => []

/-- The tiles some node writes of mailbox `f` would newly occupy. -/
def State.tilesFor (s : State) (f : Nat) (l : List (Node × BitVec 16 × Nat × Nat)) : Costs :=
  tileCost (s.tileAsk (s.matrix.withWrites ((s.placeBlock f l.length).getD s.nextBlock) noOrigin l) (tilesOf (l.map (·.1))))

/-- A leg put in place once everything has been reserved: object, queues, keys, shaper; ACTIVE from the next block. -/
def State.putLeg (s : State) (owner key : Nat) (c : Bytes) (m core : Nat) (cost : Costs) : State :=
  let i := kidx key
  let tdm := u8 c 0 == 2 || u8 c 0 == 4
  let b := s.firstBlock owner
  let l := Leg.new c m core (if tdm then 0xFFFF else i) (if tdm then 0xFFFF else 0x4000 + i) s.now b
  let s := s.addObj key owner (u8 c 2 == 1) (u8 c 3) cost
  let s := ({ s with audio := { s.audio with legs := tset s.audio.legs i l } } : State).place key (codecQuanta (u8 c 0) (u8 c 1))
  let s := s.updNet fun n => { n with gone := if u8 c 0 = 1 then n.gone.filter (· != legKeyOf c) else n.gone }
  if tdm then s
  else
    let s := (s.addQueue i (s.legSpill c)).addQueue (0x4000 + i) 0
    let s := s.addShaper (0x4000 + i) (s.outRate c) (2 * u16 c 48) 6
    if u8 c 0 = 1 then (s.bindKey (u32 c 24) key 0).bindKey (u32 c 28) key (u16 c 56) else s

/-- LegCreate once its fields have passed (R115, R158, R179, R180, R215). -/
def State.createLeg (s : State) (r : Req) (c : Bytes) : Eff :=
  let ses := u32 c 4 % 2 ^ 20
  match s.pickNumber (u16 c 8), s.lowestFree 2 0 16384 with
  | some m, some i =>
    let key := okey 2 i
    let ws := s.joinOf ses m key
    let cost := s.legCost c
    let q := codecQuanta (u8 c 0) (u8 c 1)
    s.admission (plusCost cost (s.tilesFor r.mbx ws)) [] fun _ _ =>
    match s.pickCore q with
    | none => .fail .noBudget (noBudget 1 0 0 q s.largestRoom)
    | some core =>
      if !ws.isEmpty && (s.placeBlock r.mbx ws.length).isNone then .wait .room [] s
      else
      let first := s.firstBlock r.mbx
      let s1 := (s.reserve cost).putLeg r.mbx key c m core cost
      s1.writeNodes r.mbx (r.origin (s1.handle key)) ws [] fun s2 b =>
        let s3 := if u8 c 2 = 1 then s2.addSched (.block first) noOrigin (.live key true) else s2
        let inQ := if u8 c 0 = 2 then 0xFFFF else i
        let outQ := if u8 c 0 = 2 then 0xFFFF else 0x4000 + i
        .later (le 2 m ++ le 2 inQ ++ le 2 outQ ++ le 2 0) (s3.handle key)
          (s3.schedule (.block b) (r.origin (s3.handle key)) .applied)
  | _, _ => .fail .noResource []

/-- The two handles at offsets 24 and 28 of LegCreate (R81): the E1 path a TDM leg needs; the key contexts of an RTP leg, each or
null; none for a host leg. A kind that is not listed names none: it is refused at step 10 (R792). -/
def State.legHandles (s : State) (p : Bytes) (k : Option Nat → Option Nat → Eff) : Eff :=
  match u8 p 0 with
  | 1 => s.withHandle0 (u32 p 24) [0x08] fun a => s.withHandle0 (u32 p 28) [0x08] fun b => k a b
  | 2 => s.withHandle (u32 p 24) [0x09] fun a => k (some a) none
  | 3 => need (zeros p 24 8) .invalidArg (k none none)
  | _ => k none none

/-- The checks of LegCreate that come after its length (R81, R180, R423, R477, R609, R654, R716, R792, R799). -/
def effLegCreate (r : Req) (s : State) : Eff :=
  let p := r.payload
  let kind := u8 p 0
  nullTarget r (
  s.withHandle (u32 p 4) [0x01] fun ses =>
  s.legHandles p fun first second =>
  need (kind != 1 || s.portOk (u8 p 32)) .invalidArg (
  need (s.inService && !((s.autoGain (kidx ses)).isSome && decide (256 ≤ (s.members (kidx ses) true).length))) .wrongState (
  need (decide (1 ≤ kind) && decide (kind ≤ 3) && legCommonOk p &&
    (if kind = 2 then codecFields 2 (u8 p 1) (u8 p 12) (u8 p 13) (u16 p 14) (u16 p 10) 0 0 0 && s.timeslotOk p && zeros p 29 3
     else legRtpOk p) &&
    (kind != 3 || decide (r.mbx < 4)) && (kind != 1 || !s.keyHeld (legKeyOf p)) &&
    (kind != 1 || ((match first with | some k => s.bindable k 1 | none => true) &&
      (match second with | some k => s.bindable k 2 | none => true))) &&
    !((s.autoGain (kidx ses)).isSome && (s.members (kidx ses) false).any s.critical)) .invalidArg (
  s.createLeg r p))))

/-- LEG_CREATE: the length is judged by the kind (R792). -/
def execLegCreate (r : Req) (s : State) : Host.Outcome State Fault Refusal :=
  .next (s.command 0x0200 (fun n =>
    if u8 r.payload 0 = 1 ∨ u8 r.payload 0 = 3 then n == 96 else if u8 r.payload 0 = 2 then n == 32 else n == 96 || n == 32)
    r (effLegCreate r))

/-! ### Sessions -/

/-- The own part of SessionCreate. -/
def effSessionCreate (r : Req) (s : State) : Eff :=
  nullTarget r (
  need s.inService .wrongState (
  s.create 1 0 4096 fun key =>
  .done [] (s.handle key) { s.addObj key r.mbx true 0 [] with
    audio := { s.audio with sessions := tset s.audio.sessions (kidx key) { autoMix := false, gain := 0 } } }))

/-- SESSION_CREATE. -/
def execSessionCreate (r : Req) (s : State) : Host.Outcome State Fault Refusal :=
  .next (s.command 0x0100 (· == 0) r (effSessionCreate r))

/-- The own part of SessionDestroy: FREE at completion; any leg or duck group in it blocks (Table 3.5). -/
def effSessionDestroy (r : Req) (s : State) : Eff :=
  s.withHandle r.tgt [0x01] fun key =>
  need ((s.members (kidx key) true).isEmpty && !(s.video.legs.any fun e => u32 e.2.cfg 4 % 2 ^ 20 == kidx key) && !(s.matrix.ducks.any fun e => e.2.session == kidx key)) .wrongState (
  .done [] r.tgt { (s.bumpGen key).dropObj key with audio := { s.audio with sessions := tdel s.audio.sessions (kidx key) } })

/-- SESSION_DESTROY. -/
def execSessionDestroy (r : Req) (s : State) : Host.Outcome State Fault Refusal :=
  .next (s.command 0x0101 (· == 0) r (effSessionDestroy r))

/-! ### Destroy, enable and hold -/

/-- The matrix with a leg's strip clears placed in block `b`: fades of its nodes end there, and later writes that name it
will be dropped (R155 to R157). -/
def Matrix.withStrip (x : Matrix) (b m key : Nat) (o : Origin) : Matrix :=
  { x with
    queue := (x.queue.map fun e => if b < e.block then markDead key e else e) ++
      [({ block := b, what := .strip m key, org := o } : QueueEntry)]
    fades := ((x.fades.filter fun g => !(onStrip m g.node && decide (b < g.start))).map fun g =>
      if onStrip m g.node then cutFade g.node b g else g).filter fun g => !g.gains.isEmpty
    last := stripClear x.last m }

/-- A leg's destroy placed in apply block `b` (R155, R156, R793): strip clears, tiles and budget released, its number
busy until 1.3 ms into the block (R179). -/
def State.placeDestroy (s : State) (f : Nat) (o : Origin) (key b : Nat) : State :=
  let m := s.legM key
  let x := s.matrix.withStrip b m key o
  let tiles := tilesOf (s.matrix.nodes.filter (onStrip m))
  -- the budget of its plays goes with their PlayDone, or with the leg (R205)
  let play := (s.objCost key).filter fun e => e.1 == bkey 0x000A 0
  let c := (s.objCost key).filter fun e => e.1 != bkey 0x000A 0
  let s := ((((s.reserve (tileCost (s.tileAsk x tiles))).retile x b tiles).placedAt f b).dying key).releaseAt (.block b) c
  let s := ({ s with awaiting := plusCost s.awaiting play } : State).updObj key fun o => { o with cost := play }
  let s := { s with audio := { s.audio with busyM := tset s.audio.busyM m (b * blockNs + 1300000) } }
  s.schedule (.block b) o (.free key)

/-- The own part of LegDestroy: a trunk leg and a trio critical-set entry stay (R643, Table 3.5). -/
def effLegDestroy (r : Req) (s : State) : Eff :=
  s.withHandle r.tgt [0x02] fun key =>
  match s.leg key with
  | none => .fail .noSuchObject []
  | some l =>
    need (!l.trunk && !s.critical key) .wrongState (
    match s.placeBlock r.mbx 512 with
    | none => .wait .room [] s
    | some b => .later [] r.tgt (s.placeDestroy r.mbx (r.origin r.tgt) key b))

/-- LEG_DESTROY. -/
def execLegDestroy (r : Req) (s : State) : Host.Outcome State Fault Refusal :=
  .next (s.command 0x0201 (· == 0) r (effLegDestroy r))

/-- A HELD object enabled at a boundary: a shed one not while the bridge is in SHED (R83, R84, R126). -/
def State.enableAt (s : State) (r : Req) (key : Nat) (b : Boundary) : Eff :=
  match s.obj key with
  | none => .fail .noSuchObject []
  | some o =>
    need (!o.active && !(o.shed && s.mode == .shed)) .wrongState (
    .later [] r.tgt ((s.updObj key fun o => { o with active := true, shed := false }).schedule b (r.origin r.tgt) (.live key true)))

/-- An ACTIVE object held at a boundary (R83). -/
def State.holdAt (s : State) (r : Req) (key : Nat) (b : Boundary) : Eff :=
  match s.obj key with
  | none => .fail .noSuchObject []
  | some o =>
    need o.active .wrongState (
    .later [] r.tgt ((s.updObj key fun o => { o with active := false }).schedule b (r.origin r.tgt) (.live key false)))

/-- The own part of LegEnable. -/
def effLegEnable (r : Req) (s : State) : Eff :=
  s.withHandle r.tgt [0x02] fun key => s.enableAt r key (.block (s.firstBlock r.mbx))

/-- LEG_ENABLE. -/
def execLegEnable (r : Req) (s : State) : Host.Outcome State Fault Refusal :=
  .next (s.command 0x0202 (· == 0) r (effLegEnable r))

/-- The own part of LegHold. -/
def effLegHold (r : Req) (s : State) : Eff :=
  s.withHandle r.tgt [0x02] fun key => s.holdAt r key (.block (s.firstBlock r.mbx))

/-- LEG_HOLD. -/
def execLegHold (r : Req) (s : State) : Host.Outcome State Fault Refusal :=
  .next (s.command 0x0203 (· == 0) r (effLegHold r))

/-! ### Chain and codec -/

/-- The fields of LegChainSet on a kind and codec (Table 6.10). -/
def chainOk (kind codec : Nat) (p : Bytes) : Bool :=
  flagsOk kind codec (u16 p 0) && decide (10 ≤ u8 p 2) && decide (u8 p 2 ≤ 30) && decide (u8 p 3 ≤ 24) && decide (u8 p 4 ≤ 24) &&
  decide (8 ≤ u8 p 5) && decide (u8 p 5 ≤ 128) && u8 p 5 % 8 == 0 && decide (u8 p 6 ≤ 3) && zeros p 7 1 &&
  decide (u16 p 8 ≤ 2000) && u16 p 8 % 2 == 0 && zeros p 14 2

/-- The own part of LegChainSet (R184, R207). -/
def effLegChainSet (r : Req) (s : State) : Eff :=
  s.withHandle r.tgt [0x02] fun key =>
  match s.leg key with
  | none => .fail .noSuchObject []
  | some l =>
    need (!l.trunk) .wrongState (
    need (chainOk l.kind (u8 (s.cfgAhead key l.cfg) 1) r.payload) .invalidArg (
    .later [] r.tgt (s.schedule (.block (s.firstBlock r.mbx)) (r.origin r.tgt) (.chain key r.payload))))

/-- LEG_CHAIN_SET. -/
def execLegChainSet (r : Req) (s : State) : Host.Outcome State Fault Refusal :=
  .next (s.command 0x0204 (· == 16) r (effLegChainSet r))

/-- The fields of LegCodecSet on a kind with chain flags `f` in force (Table 6.11, R213). -/
def codecSetOk (kind f : Nat) (p : Bytes) : Bool :=
  codecFields kind (u8 p 0) (u8 p 2) (u8 p 3) (u16 p 4) (u16 p 6) (u16 p 8) (u16 p 10) (u8 p 12) &&
  decide (u8 p 1 ≤ 3) && decide (u8 p 13 < 128) && decide (u8 p 14 < 128) && zeros p 15 1 && flagsOk kind (u8 p 0) f

/-- The own part of LegCodecSet (R213, R215, R465). -/
def effLegCodecSet (r : Req) (s : State) : Eff :=
  let p := r.payload
  s.withHandle r.tgt [0x02] fun key =>
  match s.leg key with
  | none => .fail .noSuchObject []
  | some l =>
    need (!l.trunk) .wrongState (
    need (codecSetOk l.kind (s.flagsAhead key l) p) .invalidArg (
    let old := s.cfgAhead key l.cfg
    let new := withCodec old p
    let q := codecQuanta l.kind (u8 new 1)
    let q0 := codecQuanta l.kind (u8 old 1)
    -- a mirrored leg's rise on its links is admitted and charged with the rest (R115)
    let rise := s.mirrorRise key new
    s.admission (plusCost (s.legCost new) rise) (s.legCost old) fun s' dec =>
    if s.coreRoom l.core < q - q0 then .fail .noBudget (noBudget 1 0 0 (q - q0) (s.coreRoom l.core))
    else
      let s' := { s' with trio := { s'.trio with charged := plusCost s'.trio.charged rise } }
      let b := Boundary.block (s.firstBlock r.mbx)
      let s' := ((s'.place key (q - q0)).unplaceAt key (q0 - q) (s.firstBlock r.mbx)).releaseAt b dec
      let s' := s'.updObj key fun o => { o with cost := plusCost (minusCost o.cost (s.legCost old)) (s.legCost new) }
      let s' := if l.kind = 2 then s' else s'.pendShaper l.outQ (s.outRate new) (2 * u16 new 48) (((s'.legShaper l.outQ).pend.map (·.2.2)).getD (s'.legShaper l.outQ).cls)
      .later [] r.tgt (s'.schedule b (r.origin r.tgt) (.codec key p))))

/-- LEG_CODEC_SET. -/
def execLegCodecSet (r : Req) (s : State) : Host.Outcome State Fault Refusal :=
  .next (s.command 0x0205 (· == 16) r (effLegCodecSet r))

/-! ### Tones and clips -/

/-- The coded rate of a codec in Hz, the lower where it has two (Table 6.2). -/
def codedRate (codec rate : Nat) : Nat :=
  match codec with
  | 1 | 2 => 8000 | 3 | 4 => 16000 | 6 => if rate ≤ 80 then 16000 else 32000 | _ => 48000

/-- The fields of LegToneStart (Table 6.12): `tel` says that the leg has a telephone-event payload type. -/
def toneOk (tel : Bool) (coded : Nat) (p : Bytes) : Bool :=
  let m := u8 p 0
  let f (n : Nat) : Bool := decide (100 * n ≤ 45 * coded)
  decide (1 ≤ m) && decide (m ≤ 3) && (u8 p 1 == 1 || u8 p 1 == 2) && (if m = 1 then u8 p 2 == 0 else tel && decide (u8 p 2 ≤ 15)) &&
  decide (3 ≤ u8 p 3) && decide (u8 p 3 ≤ 40) && f (u16 p 4) && f (u16 p 6) && !(m != 2 && u16 p 4 == 0 && u16 p 6 == 0) &&
  decide (2 ≤ u16 p 8) && decide (u16 p 8 ≤ 10000) && u16 p 8 % 2 == 0 && decide (u16 p 10 ≤ 10000) && u16 p 10 % 2 == 0 &&
  zeros p 14 2

/-- The own part of LegToneStart (R204, R207, R643). -/
def effLegToneStart (r : Req) (s : State) : Eff :=
  let p := r.payload
  s.withHandle r.tgt [0x02] fun key =>
  match s.leg key with
  | none => .fail .noSuchObject []
  | some l =>
    need (l.trunk || s.isActive key) .wrongState (
    let c := s.cfgAhead key l.cfg
    need (!l.trunk && toneOk (l.kind != 2 && u8 c 36 != 255) (codedRate (u8 c 1) (u16 c 14)) p) .invalidArg (
    .later [] r.tgt (s.schedule (.block (s.firstBlock r.mbx)) (r.origin r.tgt) (.play key false p))))

/-- LEG_TONE_START. -/
def execLegToneStart (r : Req) (s : State) : Host.Outcome State Fault Refusal :=
  .next (s.command 0x0206 (· == 16) r (effLegToneStart r))

/-- The own part of LegToneStop: no effect on a trunk leg (R643). -/
def effLegToneStop (r : Req) (s : State) : Eff :=
  s.withHandle r.tgt [0x02] fun key =>
  .later [] r.tgt (s.schedule (.block (s.firstBlock r.mbx)) (r.origin r.tgt) (.stopPlay key))

/-- LEG_TONE_STOP. -/
def execLegToneStop (r : Req) (s : State) : Host.Outcome State Fault Refusal :=
  .next (s.command 0x0207 (· == 0) r (effLegToneStop r))

/-- The cost of a running LegPlay (R205). -/
def playCost : Costs := costOf [(0x000A, 0, 96)]

/-- The own part of LegPlay (R205, R207, R643). -/
def effLegPlay (r : Req) (s : State) : Eff :=
  let p := r.payload
  s.withHandle r.tgt [0x02] fun key =>
  match s.leg key with
  | none => .fail .noSuchObject []
  | some l =>
    need (decide (u16 p 0 < 256)) .invalidArg (
    need (l.trunk || s.isActive key) .wrongState (
    need (!l.trunk && thas s.audio.clips (u16 p 0) && (u8 p 2 == 1 || u8 p 2 == 2) && zeros p 3 1 && zeros p 6 2) .invalidArg (
    s.admission playCost [] fun s' _ =>
    let s' := s'.updObj key fun o => { o with cost := plusCost o.cost playCost }
    .later [] r.tgt (s'.schedule (.block (s.firstBlock r.mbx)) (r.origin r.tgt) (.play key true p)))))

/-- LEG_PLAY. -/
def execLegPlay (r : Req) (s : State) : Host.Outcome State Fault Refusal :=
  .next (s.command 0x0208 (· == 8) r (effLegPlay r))

/-- A clip is used by a running play, by one that waits to start, or by one whose last capture blocks are still to come out
(R206). -/
def State.clipUsed (s : State) (n : Nat) : Bool :=
  (s.audio.legs.any fun e => (e.2.clip.toList ++ e.2.tails).any fun x => x.isClip && u16 x.spec 0 == n) ||
  s.sched.any fun e => match e.act with | .play _ c p => c && u16 p 0 == n | _ => false

/-- ClipLoad once its samples are read: the store holds 64 MiB (R205, R206). -/
def effClipLoadData (r : Req) (d : Bytes) (s : State) : Eff :=
  let n := u16 r.payload 0
  need (!s.clipUsed n) .wrongState (
  need (decide ((((tdel s.audio.clips n).map fun e => e.2.length).sum) + d.length ≤ 2 ^ 26)) .noResource (
  .done [] 0 { s with audio := { s.audio with clips := tset s.audio.clips n d } }))

/-- ClipLoad up to its DMA read (R206). -/
def effClipLoad (r : Req) (s : State) : Eff :=
  let p := r.payload
  let n := u32 p 12
  nullTarget r (
  need (decide (u16 p 0 < 256)) .invalidArg (
  need (!s.clipUsed (u16 p 0)) .wrongState (
  need (zeros p 2 2 && zeros p 16 4 && decide (2 ≤ n) && decide (n ≤ 2 ^ 24) && n % 2 == 0) .invalidArg (
  .wait .read [] s))))

/-- CLIP_LOAD. -/
def execClipLoad (r : Req) (s : State) : Host.Outcome State Fault Refusal :=
  .next (s.command 0x0209 (· == 20) r (effClipLoad r))

/-- The own part of ClipFree (R206). -/
def effClipFree (r : Req) (s : State) : Eff :=
  let n := u16 r.payload 0
  nullTarget r (
  need (decide (n < 256)) .invalidArg (
  need (!s.clipUsed n) .wrongState (
  need (zeros r.payload 2 2) .invalidArg (
  .done [] 0 { s with audio := { s.audio with clips := tdel s.audio.clips n } }))))

/-- CLIP_FREE. -/
def execClipFree (r : Req) (s : State) : Host.Outcome State Fault Refusal :=
  .next (s.command 0x020A (· == 4) r (effClipFree r))

/-- The own part of LegStatsGet (Table 6.14). -/
def effLegStatsGet (r : Req) (s : State) : Eff :=
  s.withHandle r.tgt [0x02] fun key =>
  match s.leg key with
  | none => .fail .noSuchObject []
  | some l =>
    let x := l.stats
    .done (le 8 x.received ++ le 8 x.sent ++ (([x.late, x.early, x.overRate, x.expired, x.lost, x.refused, x.concealed,
      x.anchors, x.gaps, x.octets, l.lastTs].map (le 4)).flatten) ++ le 8 l.lastBlock ++ le 1 l.rx ++
      le 1 (if l.voice then 1 else 0) ++ le 2 0) r.tgt s

/-- LEG_STATS_GET. -/
def execLegStatsGet (r : Req) (s : State) : Host.Outcome State Fault Refusal :=
  .next (s.command 0x020B (· == 0) r (effLegStatsGet r))

/-- The blocks a play runs for, none where it runs until it is stopped (Tables 6.12 and 6.13). -/
def State.playBlocks (s : State) (x : Play) : Option Nat :=
  if x.isClip then
    if u16 x.spec 4 = 0 then none else some (ceilDiv (u16 x.spec 4 * ((tget [] s.audio.clips (u16 x.spec 0)).length / 2)) 96)
  else if u16 x.spec 12 = 0 then none
  else some (u16 x.spec 12 * (u16 x.spec 8 + u16 x.spec 10) / 2)

/-- The play of a leg of one kind. -/
def Leg.play (l : Leg) (c : Bool) : Option Play := if c then l.clip else l.tone

/-- The play of a leg of one kind replaced. -/
def Leg.setPlay (l : Leg) (c : Bool) (x : Option Play) : Leg := if c then { l with clip := x } else { l with tone := x }

/-- The budget of a LegPlay released at its PlayDone (R205). That of a leg being destroyed still awaits its block. -/
def State.playOver (s : State) (key : Nat) (c : Bool) : State :=
  match c, s.obj key with
  | true, some o =>
    (if o.dying then s.releaseDue playCost else s.releaseNow playCost).updObj key fun o => { o with cost := minusCost o.cost playCost }
  | _, _ => s

/-- PlayDone (Table 6.15). -/
def State.playEvent (s : State) (key : Nat) (c : Bool) (reason : Nat) : State :=
  s.raise key 0xF203 (le 1 (if c then 2 else 1) ++ le 1 reason ++ le 2 0 ++ le 8 s.block)

/-- A tone or clip ended from capture block `stop` with a reason (R204, R207). -/
def State.endPlay (s : State) (key : Nat) (c : Bool) (reason stop : Nat) : State :=
  match (s.leg key).bind (·.play c) with
  | none => s
  | some x =>
    let s := s.updLeg key fun l => { l.setPlay c none with tails := l.tails ++ [{ x with stop := some stop }] }
    (s.playEvent key c reason).playOver key c

/-- A tone or clip started at a block: the running one of its kind is replaced; on a leg that has gone to HELD it ends at
once (R204, R207). -/
def State.startPlay (s : State) (key : Nat) (c : Bool) (p : Bytes) : State :=
  if s.flows key then
    (s.endPlay key c 3 s.block).updLeg key fun l =>
      l.setPlay c (some { isClip := c, spec := p, start := s.block, stop := none })
  else (s.playEvent key c 4).playOver key c

/-- Tone and clip stopped at a block. -/
def State.stopPlays (s : State) (key reason : Nat) : State := (s.endPlay key false reason s.block).endPlay key true reason s.block

/-- PLAY_DONE: a tone or clip has run out its repeats, in the last block of its cadence (R204). -/
def execPlayDone (leg : Nat) (s : State) : Host.Outcome State Fault Refusal :=
  let key := okey 2 leg
  let due (c : Bool) (s : State) : State :=
    match (s.leg key).bind (·.play c) with
    | some x =>
      match s.playBlocks x with
      | some n => if x.start + n ≤ s.block + 1 then s.endPlay key c 1 (x.start + n) else s
      | none => s
    | none => s
  .next (due true (due false s))

/-- Sample `n` of a clip from its start, 0 beyond its repeats. -/
def State.clipSample (s : State) (p : Bytes) (n : Nat) : Int :=
  let d := tget [] s.audio.clips (u16 p 0)
  let len := d.length / 2
  if len = 0 ∨ (u16 p 4 ≠ 0 ∧ u16 p 4 * len ≤ n) then 0 else signed 16 (u16 d (2 * (n % len))) * 256

/-- A tone is on in block `b` of its cadence. -/
def toneOn (p : Bytes) (b : Nat) : Bool := u16 p 10 == 0 || decide (2 * b % (u16 p 8 + u16 p 10) < u16 p 8)

/-- The 96 samples of a play for capture block `c`: in the off time of a tone, silence, also where it replaces (DESIGN CHOICE, log
entry 123). -/
def State.playSamples (s : State) (x : Play) (c : Nat) : List Int :=
  let b := c - x.start
  (List.range 96).map fun i =>
    if x.isClip then s.clipSample x.spec (96 * b + i)
    else if u8 x.spec 0 != 2 && toneOn x.spec b then Config.tone (u16 x.spec 4) (u16 x.spec 6) (u8 x.spec 3) (96 * b + i)
    else 0

/-- A play sounds in capture block `c`. -/
def State.sounds (s : State) (x : Play) (c : Nat) : Bool :=
  decide (x.start ≤ c) && (match x.stop with | some e => decide (c < e) | none => true) &&
  match s.playBlocks x with | some n => decide (c < x.start + n) | none => true

/-- Tone and clip inserted in a leg's output of capture block `c`, mixed or in its place (step 14 of Table 6.3). A tone sent
only as RFC 4733 events leaves the output as it is. The tone comes first, then the clip, so that one that replaces takes the place of
what the other has put in (DESIGN CHOICE, log entry 123). -/
def State.insertPlays (s : State) (l : Leg) (c : Nat) (x : List Int) : List Int :=
  let ps := (l.tails ++ l.tone.toList ++ l.clip.toList).filter fun p => s.sounds p c && !(!p.isClip && u8 p.spec 0 == 2)
  ps.foldl (fun x p =>
    let y := s.playSamples p c
    let mode := if p.isClip then u8 p.spec 2 else u8 p.spec 1
    if mode = 2 then y else (x.zip y).map fun e => sat24 (e.1 + e.2)) x

/-! ### Received packets (R188 to R193, R201, R202, R208) -/

/-- The RTP payload: header, CSRCs, extension and padding taken off. -/
def rtpPayload (d : Bytes) : Bytes :=
  let b := d.drop (rtpHeadLen d)
  if u8 d 0 / 32 % 2 = 1 then b.take (b.length - (b.getLastD 0).toNat) else b

/-- The policer of a leg at time `t` (R121): rate and burst as declared, in 10^-9 / 120 bytes, so that every packet time divides. -/
def State.legTokens (s : State) (l : Leg) (t : Nat) : Nat :=
  min (u8 l.cfg 37 * l.inMax * 120000000000) (l.tokens + (t - l.tokensAt) * (s.wireBytes l.cfg 46 * 120000 / l.inPt))

/-- The block a packet plays in under J = 0 (R189), or a new anchor's block (R190). -/
def anchorBlock (j t : Nat) : Nat :=
  let b := (t + 250000 + j * 1000000) / blockNs
  if t + 250000 ≤ b * blockNs then b else ceilDiv (t + 250000) blockNs

/-- The sample position a timestamp has under an anchor (R190), not below 0. -/
def anchored (codec : Nat) (a : Nat × Nat) (ts : Nat) : Nat :=
  ((a.1 : Int) + signed 32 ((ts + 2 ^ 32 - a.2) % 2 ^ 32) * (48 / rtpClock codec : Nat)).toNat

/-- A packet of the leg's telephone-event payload type. -/
def Leg.isTel (l : Leg) (d : Bytes) : Bool := u8 l.cfg 36 != 255 && u8 d 1 % 128 == u8 l.cfg 36

/-- A timestamp that lies more than 1 s from the playout position under an anchor (R192). -/
def Leg.farOff (l : Leg) (a : Nat × Nat) (t ts : Nat) : Bool :=
  let p := anchored l.codec a ts
  let nowPos := t * 96 / blockNs
  decide (nowPos + 48000 < p) || decide (p + 48000 < nowPos)

/-- A packet sets a new anchor (R192). The timestamp of an event packet is held at the event's start, so it tells no distance
(DESIGN CHOICE, log entry 97). -/
def Leg.reanchors (l : Leg) (t : Nat) (d : Bytes) : Bool :=
  match l.anchor with
  | none => true
  | some a =>
    l.ssrc != some (bfld d 8 4) || (!l.isTel d && l.farOff a t (bfld d 4 4)) ||
    decide (l.lastArrival + 200000000 ≤ t) || decide (3 ≤ l.badRow) || l.rx == 4

/-- The sample position a packet that arrives at `t` plays at, and whether it sets a new anchor. An event packet plays where its
arrival would anchor it (DESIGN CHOICE, log entry 97). -/
def Leg.playout (l : Leg) (t : Nat) (d : Bytes) : Nat × Bool :=
  let anew := l.reanchors t d
  match l.anchor with
  | some a => if l.depth = 0 || anew || l.isTel d then (anchorBlock l.depth t * 96, anew) else (anchored l.codec a (bfld d 4 4), false)
  | none => (anchorBlock l.depth t * 96, true)

/-- The verdict on a packet's playout: 0 on time, 1 late-refused (R188), 2 early-refused (R191). -/
def Leg.verdict (l : Leg) (t : Nat) (d : Bytes) : Nat :=
  let b := (l.playout t d).1 / 96
  if b * blockNs < t + 250000 then 1 else if t + l.depth * 1000000 + 2250000 < b * blockNs then 2 else 0

/-- The admitted drain of a leg's ingress queue makes room for a packet by its deadline (R120): what plays before its block is gone
by then. An empty queue takes any packet. -/
def State.drains (s : State) (q start n : Nat) : Bool :=
  match s.queue? q with
  | none => true
  | some x =>
    let left := ((x.recs.filter fun r => decide (start / 96 ≤ r.start / 96)).map Rec.size).sum
    left == 0 || decide (left + (24 + (n + 7) / 8 * 8) ≤ x.cap)

/-- The ingress deadline of a packet (Table 4.9). -/
def Leg.deadline (l : Leg) (t : Nat) (d : Bytes) : Nat :=
  let b := (l.playout t d).1 / 96 * blockNs
  if l.depth = 0 then b else b - 250000

/-- LegMediaState (Table 6.15). -/
def State.mediaState (s : State) (key code : Nat) : State := s.raise key 0xF204 (le 1 code ++ le 3 0 ++ le 8 s.block)

/-- TelephoneEvent (Table 6.15). -/
def State.telEvent (s : State) (key ev : Nat) (fin : Bool) (vol ms : Nat) : State :=
  s.raise key 0xF202 (le 1 ev ++ le 1 (if fin then 1 else 0) ++ le 1 vol ++ le 1 0 ++ le 2 (if fin then ms else 0) ++ le 2 0 ++ le 8 s.block)

/-- The end of the telephone event heard last told, where it has not been (R202). -/
def State.telEnd (s : State) (key : Nat) : State :=
  match s.leg key with
  | some l =>
    match l.telEvent with
    | some (e, t, false) => (s.telEvent key e true l.telVol l.telMs).updLeg key fun l => { l with telEvent := some (e, t, true) }
    | _ => s
  | none => s

/-- An RFC 4733 packet as it plays (R202): TelephoneEvent at the event's start and once at its end; an event that another cuts off
ends there, and a packet of an event before the last tells nothing of one that has been told. An event whose end packets are all
lost lasts until another event, Hold or a codec change (DESIGN CHOICE, log entry 97). -/
def State.telPacket (s : State) (key : Nat) (d : Bytes) : State :=
  match s.leg key with
  | none => s
  | some l =>
    let q := rtpPayload d
    let ev := u8 q 0
    let ts := bfld d 4 4
    let fin := u8 q 1 / 128 == 1
    let vol := u8 q 1 % 64
    let ms := bfld q 2 2 / rtpClock l.codec
    let older := match l.telEvent with | some (_, t, _) => decide (signed 32 ((ts + 2 ^ 32 - t) % 2 ^ 32) < 0) | none => false
    let same := match l.telEvent with | some (e, t, _) => e == ev && t == ts | none => false
    if same then
      let s := s.updLeg key fun l => { l with telVol := vol, telMs := ms }
      if fin then s.telEnd key else s
    else if older then
      if l.telSeen.contains ts then s
      else ((s.telEvent key ev false vol 0).telEvent key ev true vol ms).updLeg key fun l => { l with telSeen := ts :: l.telSeen.take 15 }
    else
      let s := ((s.telEnd key).telEvent key ev false vol 0).updLeg key fun l => { l with
        telEvent := some (ev, ts, false), telVol := vol, telMs := ms, telSeen := ts :: l.telSeen.take 15 }
      if fin then s.telEnd key else s

/-- The sequence number of an accepted packet noted: numbers skipped count as lost until they come. Those of packets refused as late or
early, or sent while the leg was HELD, are among them (DESIGN CHOICE, log entry 123). -/
def Leg.noteSeq (l : Leg) (seq : Nat) : Leg :=
  match l.lastSeq with
  | none => { l with lastSeq := some seq, recent := [seq] }
  | some p =>
    let d := (seq + 65536 - p) % 65536
    if d < 32768 then { l with
      lastSeq := some seq, recent := seq :: l.recent.filter fun r => decide ((seq + 65536 - r) % 65536 < 32768)
      stats := { l.stats with lost := l.stats.lost + (d - 1) } }
    else { l with recent := seq :: l.recent, stats := { l.stats with lost := l.stats.lost - 1 } }

/-- A packet of a payload type that the leg takes: its own, or an event that the bridge supports (R201). -/
def Leg.takesType (l : Leg) (d : Bytes) : Bool :=
  if l.isTel d then decide (u8 (rtpPayload d) 0 ≤ 15) else u8 d 1 % 128 == u8 l.cfg 34

/-- A plain media packet of a leg, that arrived at `t` and passed its deadline check: the anchor, where the packet is one to
accept, and the jitter queue, whose reader refuses the others (R190 to R193, R201, R208, R421); each of them refreshes the last arrival
(DESIGN CHOICE, log entry 123). What it changes for the samples, it
changes as the packet plays: they do not hang on its arrival (R183). `at?` is the sample position
where another device has decided it (R656). Onyx holds a write for space; what comes straight from the line cannot (R435, R436). -/
def State.legAccept (s : State) (key t : Nat) (at? : Option Nat) (d : Bytes) : State :=
  match s.leg key with
  | none => s
  | some l =>
    let ssrc := bfld d 8 4
    let seq := bfld d 2 2
    let takes := l.takesType d && !(l.ssrc == some ssrc && l.recent.contains seq)
    if !s.flows key then s
    else
      let (pos, anew) := l.playout t d
      let pos := at?.getD pos
      -- a packet that Onyx gives up after its playout block has begun is late (R110); a mirrored one plays where it was placed (R656)
      if at?.isNone && decide (pos / 96 * blockNs < s.now) then
        s.updLeg key fun l => { l with badRow := l.badRow + 1, lastArrival := t, stats := { l.stats with late := l.stats.late + 1 } }
      else
      let resumed := l.rx == 4
      let l0 := if l.ssrc = some ssrc then l else { l with lastSeq := none, recent := [] }
      let l1 := l0.noteSeq seq
      let l1 := { l1 with
        ssrc := some ssrc, lastArrival := t, badRow := 0,
        rx := if l.rx = 2 then 2 else 1,
        anchor := if anew then some (pos, bfld d 4 4) else l1.anchor,
        stats := { l1.stats with received := l1.stats.received + 1, anchors := l1.stats.anchors + (if anew then 1 else 0) } }
      let rec_ : Rec := { kind := 2, flags := 0, obj := s.handle key, arrival := t,
                          deadline := if l.depth = 0 then pos / 96 * blockNs else pos / 96 * blockNs - 250000, start := pos, data := d,
                          refuse := !takes }
      let s := (s.updLeg key fun l => if takes then l1 else { l with lastArrival := t }).writeQueue l.inQ rec_ (l.kind != 1 || u32 l.cfg 24 == 0)
      if !takes then s
      else
      let s := s.tapCopy 1 key 0 false t (bfld d 4 4) 0 d
      let s := s.mirror key 1 (pos / 96) (pos % 96) 0 d
      if resumed then s.mediaState key 2 else s

/-- A media packet of a leg as it arrives at `t` with `n` frame bytes: policed, its deadline checked, then through Onyx
where the leg has a receive key, or accepted (R120, R121, R421). For the gap and the timeout of R192 and R195 a packet counts as
received once it has passed the policer, refused later or not; one over the rate, not authentic or not RTP does not (DESIGN CHOICE,
log entry 123). -/
def State.legMedia (s : State) (key t n : Nat) (d : Bytes) : State :=
  match s.leg key with
  | none => s
  | some l =>
    if !s.flows key then s
    else
      let tok := s.legTokens l t
      if tok < n * 120000000000 then
        s.updLeg key fun l => { l with tokens := tok, tokensAt := t, stats := { l.stats with overRate := l.stats.overRate + 1 } }
      else
        let s := s.updLeg key fun l => { l with tokens := tok - n * 120000000000, tokensAt := t }
        match if s.drains l.inQ (l.playout t d).1 d.length then l.verdict t d else max 1 (l.verdict t d) with
        | 1 => s.updLeg key fun l => { l with badRow := l.badRow + 1, lastArrival := t, stats := { l.stats with late := l.stats.late + 1 } }
        | 2 => s.updLeg key fun l => { l with badRow := l.badRow + 1, lastArrival := t, stats := { l.stats with early := l.stats.early + 1 } }
        | _ =>
          if l.kind = 1 && u32 l.cfg 24 != 0 then
            let ctx := u32 l.cfg 24 % 2 ^ 20
            s.submit 1 (onyxItem ctx (onyxLevel true false) (s.handle key) (l.deadline t d) d
              (.cipherIn key t (l.deadline t d) false))
          else s.legAccept key t none d

/-! ### The input half of the leg chain (steps 1 to 10 of Table 6.3) -/

/-- The records of a jitter queue that play in block `k` or before, taken from it in order (R431); poisoned ones are discarded and
counted (R439). -/
def State.takeDue (s : State) (q k : Nat) : State × List Rec :=
  match s.queue? q with
  | none => (s, [])
  | some x =>
    let isDue (r : Rec) : Bool := decide (r.start < 96 * (k + 1))
    let due := x.recs.filter isDue
    if due.isEmpty then (s, [])
    else
      let s := s.setQueue q { x with recs := due ++ x.recs.filter fun r => !isDue r }
      let (s, l) := due.foldl (fun a _ => let (s, r) := a.1.readQueue q; (s, a.2 ++ r.toList)) (s, [])
      ((l.filter Rec.poisoned).foldl (fun s r => s.objCount r.obj 7 1) (s.resumeQueue q), l.filter fun r => !r.poisoned)

/-- A released packet decoded: its samples placed at its position; the rest of an earlier packet that it overlaps under
J = 0 is discarded (R189). A SID frame begins comfort noise, a speech frame ends it (R195). -/
def Leg.decode (l : Leg) (r : Rec) : Leg :=
  let p := rtpPayload r.data
  let cut := l.pcm.filterMap fun e =>
    if r.start ≤ e.1 then none else if decide (r.start < e.1 + e.2.length) then some (e.1, e.2.take (r.start - e.1)) else some e
  let lap := l.depth == 0 && l.pcm.any fun e => decide (r.start < e.1 + e.2.length)
  let l := { l with pcm := if l.depth = 0 then cut else l.pcm
                    stats := { l.stats with overlap := l.stats.overlap + (if lap then 1 else 0) } }
  if Config.isSid (codecKey l.cfg) p then { l with comfort := true }
  else
    let (st, x) := Config.decode (codecKey l.cfg) l.decSt p
    { l with decSt := st, comfort := false, pcm := l.pcm ++ [(r.start, x)] }

/-- A released packet as it plays: an event packet, or one to decode. The payload types in force are those of its block (R213). -/
def State.playRec (s : State) (key : Nat) (r : Rec) : State :=
  match s.leg key with
  | some l =>
    if r.refuse || !l.takesType r.data then s.updLeg key fun l => { l with stats := { l.stats with refused := l.stats.refused + 1 } }
    else if l.isTel r.data then s.telPacket key r.data else s.updLeg key fun _ => l.decode r
  | none => s

/-- The sample at a position, where a packet covers it; the packet received last wins. -/
def Leg.sampleAt (l : Leg) (p : Nat) : Option Int :=
  l.pcm.reverse.findSome? fun e => if e.1 ≤ p ∧ p < e.1 + e.2.length then e.2[p - e.1]? else none

/-- The packet samples of block `k`, with concealment, comfort noise or silence where none covers (R194, R195, R208). `next` is
the packet whose in-band FEC conceals, and its distance (R181). While a telephone event lasts it is the input, and
nothing is concealed (R202). A block whose samples or decoder data are poisoned has no position covered (R678). Before the first
packet has played there is nothing to conceal, and the input is zero (log entry 97). -/
def Leg.packetBlock (l : Leg) (k : Nat) (bad : Bool) (next : Option (Nat × Bytes)) : Leg × List Int :=
  let xs := (List.range 96).map fun i => if bad then none else l.sampleAt (96 * k + i)
  let l := { l with pcm := l.pcm.filter fun e => decide (96 * (k + 1) < e.1 + e.2.length) }
  let fill (y : List Int) : List Int := (xs.zip y).map fun e => e.1.getD e.2
  let event := match l.telEvent with | some (_, _, false) => true | _ => false
  let plays (l : Leg) : Leg := { l with rx := if l.rx = 2 ∨ l.rx = 3 then 1 else l.rx, concealMs := 0 }
  -- the receive state a block leaves behind is that of its last position
  let ends (l : Leg) : Leg := if (xs.getD 95 none).isSome then plays l else l
  if event || xs.all (·.isSome) then (plays l, fill (List.replicate 96 0))
  else if l.comfort then
    let (st, y) := Config.comfort (codecKey l.cfg) l.decSt
    ({ plays l with decSt := st }, fill y)
  else if l.concealMs < 60 then
    let (st, y) := Config.conceal (codecKey l.cfg) l.decSt next
    (ends { l with decSt := st, rx := if l.rx = 4 then 4 else 2, concealMs := l.concealMs + 2,
                   stats := { l.stats with concealed := l.stats.concealed + 1 } }, fill y)
  else (ends l, fill (List.replicate 96 0))

/-- The Opus packet whose in-band FEC conceals in block `k` (R181): the first of those that play in it. One that plays later may or
may not have arrived, and the samples do not hang on that (R183; DEDUCED, log entry 97). It comes with how many samples after the
block's start it begins. -/
def Leg.fecOf (l : Leg) (k : Nat) (due : List Rec) : Option (Nat × Bytes) :=
  if l.codec ≠ 5 then none
  else
    let rs := due.filter fun r => !r.refuse && l.takesType r.data && !l.isTel r.data && decide (96 * k ≤ r.start)
    (rs.map (·.start)).min?.bind fun m => (rs.find? fun r => r.start == m).map fun r => (m - 96 * k, rtpPayload r.data)

/-- The regenerated tone of a running telephone event, or silence (R202). -/
def Leg.telBlock (l : Leg) (k : Nat) (x : List Int) : List Int :=
  match l.telEvent with
  | some (ev, _, false) => (List.range 96).map fun i => if l.flag 6 then Config.dtmf ev (96 * k + i) else 0
  | _ => x

/-- LegVoice (Table 6.15), where the leg asks for it. -/
def State.voiceEvent (s : State) (key : Nat) (l : Leg) (on : Bool) : State :=
  if l.flag 7 then s.raise key 0xF201 (le 1 (if on then 1 else 0) ++ le 3 0 ++ le 8 s.block) else s

/-- The samples a leg takes in for block `k`: link, timeslot or packet samples (steps 1 to 3). Where they are poisoned they are
concealed (R678). -/
def State.legSource (s : State) (key k : Nat) (bad : Bool) : State × List Int :=
  match s.leg key with
  | none => (s, [])
  | some l =>
    if l.trunk then (s, tget (List.replicate 96 0) s.cascade.trunkIn (kidx key))
    else if l.kind = 2 ∧ bad = true then
      let (st, x) := Config.conceal l.codec l.decSt none
      (s.updLeg key fun l => { l with decSt := st, stats := { l.stats with concealed := l.stats.concealed + 1 } }, x)
    else if l.kind = 2 then
      let (st, x) := Config.tdmIn l.codec l.decSt (s.tdmSamples (u32 l.cfg 24 % 2 ^ 20) (u8 l.cfg 28))
      (s.updLeg key fun l => { l with decSt := st }, x)
    else
      let (s, due) := s.takeDue l.inQ k
      let s := due.foldl (fun s r => s.playRec key r) s
      match s.leg key with
      | none => (s, [])
      | some l =>
        let (l, x) := l.packetBlock k bad (l.fecOf k due)
        (s.updLeg key fun _ => l, l.telBlock k x)

/-! Steps 4 to 7 (R185 to R187): what each stage makes of its input is the part's own; the bounds that the rules give it are
imposed here, and a stage that is switched off passes its samples unchanged (R184). -/

/-- Samples through per-sample gains held between a lowest gain and unity, in Q2.13. -/
def attenuate (lowest : Nat) (g : List Nat) (x : List Int) : List Int :=
  x.zipIdx.map fun e => scale e.1 (clampI lowest 8192 (g.getD e.2 8192))

/-- Echo suppression (R185): up to 30 dB while the outgoing signal of the echo tail is active and the input holds no speech. -/
def Leg.echo (l : Leg) (st : Bytes) (x : List Int) : Bytes × List Int :=
  if !l.flag 2 then (st, x)
  else
    let (st, active, talk, g) := Config.echo st x (l.own.drop (l.own.length - 48 * u8 l.chain 5))
    (st, if active && !talk then attenuate (gainOfLevel (-300)) g x else x)

/-- Noise suppression (R186): by at most its depth, 0 dB passing the signal. -/
def Leg.noise (l : Leg) (st : Bytes) (x : List Int) : Bytes × List Int :=
  if !l.flag 1 || u8 l.chain 4 == 0 then (st, x)
  else
    let (st, g) := Config.noise (u8 l.chain 4) st x
    (st, attenuate (gainOfLevel (-10 * (u8 l.chain 4 : Int))) g x)

/-- The factor of a gain in 0.001 dB, 8,192 for 0 dB, rounded half up. -/
def gainMilli (m : Nat) : Nat := largest (fun n => decide ((2 * n - 1) ^ 20000 ≤ 16384 ^ 20000 * 10 ^ m)) 18 0

/-- Automatic gain control (R186): its gain moves toward what the target asks for by at most 6 dB a second, 12 thousandths a block,
between 0 dB and its maximum, and holds while voice activity is off. -/
def Leg.control (l : Leg) (st : Bytes) (x : List Int) : Bytes × Nat × List Int :=
  if !l.flag 0 then (st, l.agc, x)
  else
    let (st, want) := Config.agcWant (u8 l.chain 2) st x
    let g := if l.voice then (moveBy l.agc (min want (1000 * u8 l.chain 3)) 12).toNat else l.agc
    let g := min g (1000 * u8 l.chain 3)
    (st, g, x.map fun v => sat24 ((v * gainMilli g + 4096) / 8192))

/-- Steps 4 to 7 of the leg chain in their order. Voice activity turned off by its flag ends at once, without an event (DESIGN
CHOICE, log entry 97). -/
def State.legVoice (s : State) (key k : Nat) (x : List Int) : State × List Int :=
  match s.leg key with
  | none => (s, x)
  | some l =>
    let (st, x) := l.echo l.voiceSt x
    let (st, x) := l.noise st x
    let (st, agc, x) := l.control st x
    let (st, speech) := if l.flag 3 then Config.speech (u8 l.chain 6) st x else (st, false)
    let s := s.updLeg key fun l => { l with
      voiceSt := st, agc := agc, voice := l.flag 3 && (l.voice || speech), lastSpeech := if speech then k else l.lastSpeech }
    (if speech && !l.voice then s.voiceEvent key l true else s, x)

/-- The matrix input of a leg for capture block `k` (steps 1 to 10; a trunk leg runs 1, 9 and 10, R643). -/
def State.legInput (s : State) (key k : Nat) (res : Nat) : State :=
  let (s, x) := s.legSource key k (res.testBit 0)
  match s.leg key with
  | none => s
  | some l =>
    let (s, x) := if l.trunk then (s, x) else let (s, x) := s.legVoice key k x; s.runSlot key 1 k x
    let g := duckGain (s.legAtt key)
    let y := (x.map fun v => scale v (signed 16 (u16 l.chain 10))).map fun v => scale v g
    s.updMatrix fun m => { m with
      inWrite := tset m.inWrite l.m y
      poisonWrite := if res.testBit 2 then l.m :: m.poisonWrite.filter (· != l.m) else m.poisonWrite.filter (· != l.m) }

/-! ### The output half (steps 11 to 17) -/

/-- The RTP header of a packet that starts in capture block `c` (R198). -/
def Leg.rtpHead (l : Leg) (cfg : Bytes) (pt ts : Nat) (marker : Bool) : Bytes :=
  [0x80] ++ le 1 (pt + (if marker then 128 else 0)) ++ be 2 l.txSeq ++ be 4 ts ++ (be 4 (u32 cfg 52))

/-- The RTP timestamp at capture block `c` (R198). -/
def Leg.tsAt (l : Leg) (cfg : Bytes) (c : Nat) : Nat := (l.txTs + (c - l.tsBlock) * 2 * rtpClock (u8 cfg 1)) % 2 ^ 32

/-- The packets of a host leg that its leg shaper admits, put in the receive ring of the function that created it (R200): one
past its deadline is discarded and counted as expired. One beyond R425, or that the ring has no slot for, is discarded and counted
as host refused, at port 0, which its configuration has for a port (R426; DESIGN CHOICE, log entry 38). -/
def State.hostLegDrain (key : Nat) : Nat → State → State
  | 0, s => s
  | n + 1, s =>
    match s.leg key, s.obj key with
    | some l, some o =>
      match s.front l.outQ with
      | none => s
      | some r =>
        let x := s.legShaper l.outQ
        if r.deadline != 0 && decide (r.deadline < s.now) then
          State.hostLegDrain key n (((s.readQueue l.outQ).1.setLegShaper l.outQ { x with expired := x.expired + 1 }).updLeg key fun l => { l with
            stats := { l.stats with expired := l.stats.expired + 1 } })
        else if !x.admits r.data.length || !s.mayTransmit key then s
        else
          let (s, r) := s.readQueue l.outQ
          let s := s.setLegShaper l.outQ (x.debit ((r.map fun r => r.data.length).getD 0))
          State.hostLegDrain key n (match r with
            | some r =>
              if o.owner < 4 then
                match (s.hostBound r.data.length).bind fun s => s.hostPut o.owner { r with arrival := s.now, deadline := 0, start := 0xFF } with
                | some s => s
                | none => s.portBump (u8 l.cfg 32) 64 1
              else s
            | none => s)
    | _, _ => s

/-- A packet of a leg put in its egress queue, to leave by 0.25 ms into the next block (Table 4.3); `c` is the capture block whose
start its timestamp marks. -/
def State.legEmit (s : State) (key c : Nat) (ts : Nat) (d : Bytes) (audio : Bool) : State :=
  match s.leg key with
  | none => s
  | some l =>
    let s := s.updLeg key fun l => { l with
      txSeq := (l.txSeq + 1) % 65536, lastTs := ts, lastBlock := c, marker := if audio then false else l.marker,
      stats := { l.stats with sent := l.stats.sent + 1, octets := (l.stats.octets + (d.length - 12)) % 2 ^ 32 } }
    let s := s.writeQueue l.outQ { kind := 2, flags := 0, obj := s.handle key, arrival := 0,
                                   deadline := (s.block + 1) * blockNs + 250000, start := 0, data := d } false
    if l.kind = 3 then State.hostLegDrain key (((s.queue? l.outQ).map fun q => q.recs.length).getD 0) s else s

/-- The capture block in which the run of a tone that is on in capture block `c` began: each of its on times is one event (R203). -/
def runStart (x : Play) (c : Nat) : Nat :=
  let per := (u16 x.spec 8 + u16 x.spec 10) / 2
  if u16 x.spec 10 = 0 then x.start else x.start + (c - x.start) / per * per

/-- The telephone event that sounds in capture block `c` (R203): where its run began, and its tone. -/
def State.telAt (s : State) (l : Leg) (c : Nat) : Option (Nat × Bytes) :=
  (l.tone.toList ++ l.tails.reverse).findSome? fun x =>
    if !x.isClip && u8 x.spec 0 != 1 && s.sounds x c && toneOn x.spec (c - x.start) then some (runStart x c, x.spec) else none

/-- One packet of a telephone event (R203): `n` packet times long so far. -/
def State.telEmit (s : State) (key : Nat) (cfg : Bytes) (t : TelSend) (marker fin : Bool) : State :=
  match s.leg key with
  | none => s
  | some l =>
    let unit := u8 cfg 13 * rtpClock (u8 cfg 1)
    s.legEmit key t.run t.ts (l.rtpHead cfg (u8 cfg 36) t.ts marker ++ le 1 (u8 t.spec 2) ++
      le 1 (u8 t.spec 3 + (if fin then 128 else 0)) ++ be 2 (min 0xFFFF (t.n * unit))) false

/-- The event being sent ended by three end packets (R203). -/
def State.telStop (s : State) (key : Nat) (cfg : Bytes) : State :=
  match (s.leg key).bind (·.telTx) with
  | none => s
  | some t => ((List.range 3).foldl (fun s _ => s.telEmit key cfg t false true) s).updLeg key fun l => { l with telTx := none }

/-- One event of a packet time sent: it goes on, or it begins, the one before it ended. -/
def State.telRun (s : State) (key : Nat) (cfg : Bytes) (e : Nat × Bytes) : State :=
  match s.leg key with
  | none => s
  | some l =>
    let go (s : State) (t : TelSend) (first : Bool) : State := (s.telEmit key cfg t first false).updLeg key fun l => { l with telTx := some t }
    match l.telTx with
    | some t => if t.run = e.1 ∧ t.spec = e.2 then go s { t with n := t.n + 1 } false
                else go (s.telStop key cfg) { run := e.1, spec := e.2, ts := l.tsAt cfg e.1, n := 1 } true
    | none => go s { run := e.1, spec := e.2, ts := l.tsAt cfg e.1, n := 1 } true

/-- The event packets of the packet time of `n` blocks from capture block `first`: those that sound in it, in order; none
sounding, the one under way ends (R203). -/
def State.sendTel (s : State) (key first n : Nat) (cfg : Bytes) : State :=
  match s.leg key with
  | none => s
  | some l =>
    let runs := ((List.range n).filterMap fun i => s.telAt l (first + i)).eraseDups
    if runs.isEmpty then s.telStop key cfg else runs.foldl (fun s e => s.telRun key cfg e) s

/-- The encoder come to capture block `c`: with no packet under way, the last codec change up to it takes over, its states reset
(R197, R213). -/
def Leg.encAt (l : Leg) (c : Nat) : Leg :=
  match l.part.isEmpty, (l.tx.filter fun e => decide (e.1 ≤ c)).getLast? with
  | true, some e => { l with
      txTs := l.tsAt l.encCfg c, tsBlock := c, grid := e.1, encCfg := e.2, tx := l.tx.filter fun e => decide (c < e.1), encSt := [] }
  | _, _ => l

/-- 96 samples added to the packet under way; a whole one is encoded and sent (R197, R198). A packet begins on the grid of its
configuration only: after a packet that outlasts a codec change, the blocks up to the next place of the new grid go unsent
(DESIGN CHOICE, log entry 97). -/
def State.packetise (s : State) (key c : Nat) (x : List Int) : State :=
  match s.leg key with
  | none => s
  | some l =>
    let l := l.encAt c
    let cfg := l.encCfg
    let n := u8 cfg 13 / 2
    let l := if l.part.isEmpty then { l with partFrom := c } else l
    if l.part.isEmpty && (c - l.grid) % n != 0 then s.updLeg key fun _ => l
    else
      let part := l.part ++ x
      let s := s.updLeg key fun _ => { l with part := part }
      if part.length < n * 96 then s
      else
        let (st, out) := Config.encode (codecKey cfg) (u16 cfg 14) (u16 l.chain 0) l.encSt part
        let s := s.updLeg key fun l => { l with encSt := st, part := [] }
        let ts := l.tsAt cfg l.partFrom
        -- only discontinuous transmission omits a packet, or has talk spurts (R198)
        let s :=
          if l.flag 4 && Config.dtxOmits (codecKey cfg) (u16 cfg 14) l.encSt part then s.updLeg key fun l => { l with quiet := true }
          else
            let sid := l.flag 4 && Config.isSid (codecKey cfg) out
            (s.legEmit key l.partFrom ts (l.rtpHead cfg (u8 cfg 35) ts (l.marker || (l.flag 4 && l.quiet && !sid)) ++ out) true).updLeg key
              fun l => { l with quiet := sid }
        if u8 cfg 36 = 255 then s else s.sendTel key l.partFrom n cfg

/-- The samples of step 14 of capture block `c` encoded and sent (steps 15 to 17). -/
def State.legSend (s : State) (key c : Nat) (x : List Int) : State :=
  match s.leg key with
  | none => s
  | some l =>
    if l.kind = 2 then
      let l := l.encAt c
      let (st, b) := Config.tdmOut (u8 l.encCfg 1) l.encSt x
      (s.updLeg key fun _ => { l with encSt := st }).tdmSend (u32 l.cfg 24 % 2 ^ 20) (u8 l.cfg 28) b
    else s.packetise key c x

/-- The encoder input of a missing block (R196): a ramp from 1 down to 0 over the previous block, then zero. Sample `i` is scaled by
(95 - i) / 95, rounded down (DESIGN CHOICE, log entry 123). -/
def missingBlock (first : Bool) (x : List Int) : List Int :=
  (List.range 96).map fun i => if first then (x.getD i 0) * (95 - i : Nat) / 95 else 0

/-- The leg's own samples of one block behind those of the 128 ms before. -/
def Leg.hears (l : Leg) (x : List Int) : Leg := { l with own := (l.own ++ x).drop (l.own.length + x.length - 6144) }

/-- A missing output block counted and sent (R196). -/
def State.legGap (s : State) (key c : Nat) : State :=
  match s.leg key with
  | none => s
  | some l =>
    let x := missingBlock (l.missing == 0) l.prevOut
    let s := s.updLeg key fun l => { l.hears x with missing := l.missing + 1, stats := { l.stats with gaps := l.stats.gaps + 1 } }
    s.legSend key c x

/-- The output of a leg for capture block `c`, read from the output bank (steps 11 to 17). What was captured before the leg was
ACTIVE passes its kernel (R216) and is not sent. -/
def State.legOutput (s : State) (key c : Nat) (bad : Bool) : State :=
  match s.leg key with
  | none => s
  | some l =>
    -- an output that no mix has made yet lies before the leg's first block: it is zero
    match if bad then none else if c < l.since then some (tget (List.replicate 96 0) s.matrix.outRead l.m) else tget? s.matrix.outRead l.m with
    | none => if c < l.since then s else s.legGap key c
    | some x =>
      let (s, y) := s.runSlot key 2 c x
      if c < l.since then s
      else
        let y := y.map fun v => scale v (signed 16 (u16 l.chain 12))
        let y := match s.leg key with | some l => s.insertPlays l c y | none => y
        let s := s.updLeg key fun l => { l.hears y with
          prevOut := y, missing := 0,
          tails := l.tails.filter fun p => match p.stop with | some e => decide (c + 1 < e) | none => true }
        s.legSend key c y

/-- The leg chain of a leg for block `k` (R184): the outputs that no run has encoded count as missing (R196), then capture
block `k` goes in and capture block `k - 2` out. The item's result tells of poisoned words (R678): bit 0 the leg's input or decoder
data, bit 1 the matrix output, bit 2 what it wrote into the input bank (log entry 102). -/
def State.legChain (s : State) (key k res : Nat) : State :=
  match s.leg key with
  | none => s
  | some l =>
    -- a trunk's samples are never used in a later block (R644)
    if !s.flows key || (l.trunk && k != s.block) then s
    else
      let s := s.updLeg key fun l => { l with lastRun := k }
      let s := s.legInput key k res
      if l.trunk || decide (k < 2) then s
      else
        let from_ := max l.since (l.lastRun - 1)
        let gap := (List.range (k - 2 - from_)).map (from_ + ·)
        let s := if res.testBit 1 then s.tapPoisoned 3 key 0 ((k - 1) * blockNs) else s
        (gap.foldl (fun s c => s.legGap key c) s).legOutput key (k - 2) (res.testBit 1)

/-- An item of the leg chain of a leg for a block. -/
def State.chainItem (s : State) (key block : Nat) : State :=
  match s.leg key with
  | none => s
  | some l =>
    s.submit 0 { desc := descriptor 1 (12 + Config.chainLevel.val) 0 (s.handle key) l.core 0 0 [], data := [], job := .chain key block }

/-- VAD_HANG_EXPIRY: the hang time has passed without speech (R187). -/
def execVadHangExpiry (leg : Nat) (s : State) : Host.Outcome State Fault Refusal :=
  let key := okey 2 leg
  match s.leg key with
  | none => .next s
  | some l =>
    if l.voice && decide (l.lastSpeech + u16 l.chain 8 / 2 ≤ s.block) then
      .next ((s.updLeg key fun l => { l with voice := false }).voiceEvent key l false)
    else .next s

/-- CONCEALMENT_END: after 60 ms of concealment the input becomes zero (R194). -/
def execConcealmentEnd (leg : Nat) (s : State) : Host.Outcome State Fault Refusal :=
  let key := okey 2 leg
  match s.leg key with
  | none => .next s
  | some l => if l.rx = 2 ∧ 60 ≤ l.concealMs then .next (s.updLeg key fun l => { l with rx := 3 }) else .next s

/-- A leg without a packet for its media timeout enters NO_MEDIA (R195, R208). -/
def State.legTimeout (s : State) (key : Nat) : State :=
  match s.leg key with
  | none => s
  | some l =>
    let n := u16 l.cfg 18
    if n ≠ 0 ∧ (l.kind = 1 ∨ l.kind = 3) ∧ s.flows key ∧ l.rx ≠ 4 ∧ l.lastArrival + n * 1000000 ≤ s.now then
      (s.updLeg key fun l => { l with rx := 4, comfort := false }).mediaState key 1
    else s

/-! ### Changes at a block start -/

/-- A queue emptied. -/
def State.emptyQueue (s : State) (q : Nat) : State :=
  match s.queue? q with
  | none => s
  | some x => (s.setQueue q { x with recs := [], head := 0, cells := [], tail := 0, held := none, waiting := [] }).evalNotice q

/-- A leg UNANCHORED with its jitter queue empty (R208). -/
def State.legUnanchor (s : State) (key : Nat) : State :=
  match s.leg key with
  | none => s
  | some l => (s.updLeg key fun l => { l with rx := 0, anchor := none, badRow := 0, pcm := [], comfort := false, concealMs := 60, telEvent := none }).emptyQueue l.inQ

/-- The encoder left under a leg's configuration at a block, nothing under way: time goes on in its timestamps (R198). -/
def Leg.rest (l : Leg) (b : Nat) : Leg :=
  { l with txTs := l.tsAt l.encCfg b, tsBlock := b, encSt := if l.encCfg = l.cfg ∧ l.tx = [] then l.encSt else [], encCfg := l.cfg, tx := [], part := [] }

/-- A leg whose media begins or stops at this block (Table 3.4, R197, R198, R207, R208). -/
def State.legFlow (s : State) (key : Nat) (on : Bool) : State :=
  if on then
    s.updLeg key fun l => { l.rest s.block with
      since := s.block, grid := s.block, lastRun := s.block - 1, marker := true, quiet := false, telTx := none, lastArrival := s.now, prevOut := [], missing := 0 }
  else
    let s := (s.legUnanchor key).stopPlays key 4
    let was := match s.leg key with | some l => l.voice | none => false
    let s := s.updLeg key fun l => { l.rest s.block with telTx := none, voice := false, tails := [] }
    match s.leg key with | some l => if was then s.voiceEvent key l false else s | none => s

/-- A codec change in force (R197, R208, R213): from this block for what comes in, and for what goes out once the encoder has come
to it. -/
def State.applyCodec (s : State) (key : Nat) (p : Bytes) : State :=
  match s.leg key with
  | none => s
  | some l =>
    let new := withCodec l.cfg p
    let moved := u8 new 1 != u8 l.cfg 1 || u16 new 10 != u16 l.cfg 10
    let tok := if l.kind = 2 then 0 else s.legTokens l s.now
    let live := s.flows key
    let s := s.updLeg key fun l =>
      let l := { l with cfg := new, decSt := [], tokens := tok, tokensAt := s.now }
      if live then { l with tx := l.tx ++ [(s.block, new)] } else { l.rest s.block with encSt := [] }
    let s := s.updObj key fun o => { o with shedClass := u8 p 1 }
    let s := match s.queue? l.inQ with
      | some q => s.setQueue l.inQ { q with spill := s.legSpill new }
      | none => s
    if moved then s.legUnanchor key else s

/-- A destroyed leg gone at its block: queues, shaper, keys, memberships and meters with it (R155, R209, R478, Table 3.5). Its
classification key is remembered until a leg takes it again, so that its packets are refused. -/
def State.legFree (s : State) (key : Nat) : State :=
  -- whatever of its quanta still waited for a boundary goes with it (R215)
  match s.leg key with
  | none => s
  | some l =>
    let s := ((s.dropQueue l.inQ).dropQueue l.outQ).spendKeys key
    let subs := (s.matrix.subs.filter fun e => e.2.points.any fun p => p.leg == key).map (·.1)
    let s := subs.foldl (fun s i => if s.objLive (okey 0x0C i) then (s.bumpGen (okey 0x0C i)).dropObj (okey 0x0C i) else s.dropObj (okey 0x0C i)) s
    let s := s.updMatrix fun x => { x with
      subs := x.subs.filter fun e => !subs.contains e.1,
      ducks := tmap x.ducks fun _ d => { d with triggers := d.triggers.filter (· != key), members := d.members.filter (· != key) },
      inWrite := tdel x.inWrite l.m, outMix := tdel x.outMix l.m, outRead := tdel x.outRead l.m,
      poisonWrite := x.poisonWrite.filter (· != l.m), poisonRead := x.poisonRead.filter (· != l.m) }
    let s := s.unplace key l.quanta
    let s := { s with egress := { s.egress with legs := tdel s.egress.legs l.outQ },
                      audio := { s.audio with legs := tdel s.audio.legs (kidx key) } }
    let s := s.updNet fun n => { n with gone := if l.kind = 1 then legKeyOf l.cfg :: n.gone.filter (· != legKeyOf l.cfg) else n.gone }
    s.dropObj key

end Sys2Proof.Machine
end

