-- ==== Sys2Proof/Machine/Wire.lean ====
section
/-!
DEFINITION. The headers of the frames the packet engine sends and reads: Ethernet, VLAN, IPv4, IPv6 and UDP (R427), and
the packets of RTCP.
-/

namespace Sys2Proof.Machine

/-- Where a leg's packets go: port, VLAN tag (TCI), address family, DSCP, addresses and UDP ports. -/
structure Route where
  port : Nat
  tag : Option Nat
  family : Nat
  dscp : Nat
  src : Bytes
  dst : Bytes
  sport : Nat
  dport : Nat
  deriving DecidableEq, Repr

/-- The frame bytes of a UDP payload on a route, through the FCS. -/
def Route.frameLen (r : Route) (n : Nat) : Nat :=
  max 64 (14 + (if r.tag.isSome then 4 else 0) + (if r.family = 4 then 20 else 40) + 8 + n + 4)

/-- The route of an audio leg's payload (Table 6.7); RTCP has the next port up. -/
def audioRoute (c : Bytes) : Route where
  port := u8 c 32
  tag := if u8 c 39 / 4 % 2 = 1 then some (u16 c 40) else none
  family := u8 c 33
  dscp := u8 c 38
  src := (c.drop 64).take 16
  dst := (c.drop 80).take 16
  sport := u16 c 42
  dport := u16 c 44

/-- The route of a video leg's payload (Table 11.6). -/
def videoRoute (c : Bytes) : Route where
  port := u8 c 16
  tag := if u8 c 19 / 2 % 2 = 1 then some (u16 c 20) else none
  family := u8 c 17
  dscp := u8 c 22
  src := (c.drop 72).take 16
  dst := (c.drop 88).take 16
  sport := u16 c 24
  dport := u16 c 26

/-- The route of RTCP: the media ports where it is multiplexed, else the next ones up (R377). -/
def Route.rtcp (r : Route) (muxed : Bool) : Route :=
  if muxed then r else { r with sport := (r.sport + 1) % 65536, dport := (r.dport + 1) % 65536 }

/-- The sum of the 16-bit words of some bytes, the first byte high. -/
def wordSum : Bytes → Nat
  | [] => 0
  | [a] => a.toNat * 256
  | a :: b :: r => a.toNat * 256 + b.toNat + wordSum r

/-- A sum folded to 16 bits in ones' complement. -/
def foldSum (n : Nat) : Nat := if n = 0 then 0 else (n - 1) % 65535 + 1

/-- The Internet checksum of some bytes. -/
def inetSum (b : Bytes) : Nat := 65535 - foldSum (wordSum b)

/-- The bytes of an address on the wire. -/
def addrBytes (family : Nat) (a : Bytes) : Bytes := if family = 4 then padTo 4 a else padTo 16 a

/-- The pseudo header of UDP. -/
def pseudo (family : Nat) (src dst : Bytes) (len : Nat) : Bytes :=
  if family = 4 then addrBytes 4 src ++ addrBytes 4 dst ++ [0, 17] ++ be 2 len
  else addrBytes 6 src ++ addrBytes 6 dst ++ be 4 len ++ [0, 0, 0, 17]

/-- A UDP datagram with its checksum; a checksum of 0 is sent as all ones. -/
def udp (r : Route) (p : Bytes) : Bytes :=
  let len := p.length + 8
  let head := be 2 r.sport ++ be 2 r.dport ++ be 2 len
  let c := inetSum (pseudo r.family r.src r.dst len ++ head ++ [0, 0] ++ p)
  head ++ be 2 (if c = 0 then 65535 else c) ++ p

/-- The IP packet of a datagram (R427): TTL or hop limit 64, DF, identification and flow label 0. -/
def ipPacket (r : Route) (p : Bytes) : Bytes :=
  if r.family = 4 then
    let h := [0x45] ++ le 1 (4 * r.dscp) ++ be 2 (20 + p.length) ++ [0, 0, 0x40, 0, 64, 17]
    let a := addrBytes 4 r.src ++ addrBytes 4 r.dst
    h ++ be 2 (inetSum (h ++ [0, 0] ++ a)) ++ a ++ p
  else
    be 4 (6 * 2 ^ 28 + 4 * r.dscp * 2 ^ 20) ++ be 2 p.length ++ [17, 64] ++ addrBytes 6 r.src ++ addrBytes 6 r.dst ++ p

/-- The frame of a UDP payload on a route to a MAC address, with its FCS. -/
def udpFrame (r : Route) (dst src p : Bytes) : Bytes :=
  withFcs (padTo 6 dst ++ padTo 6 src ++ (match r.tag with | some t => be 2 0x8100 ++ be 2 t | none => []) ++
    be 2 (if r.family = 4 then 0x0800 else 0x86DD) ++ ipPacket r (udp r p))

/-- The frame of a payload on a route: none where the neighbour table has no entry (R427). -/
def State.frameFor (s : State) (r : Route) (p : Bytes) : Option Bytes :=
  (s.neighbour r.port r.family (padTo 16 r.dst)).map fun n => udpFrame r n.mac (s.port r.port).mac p

/-- A payload sent on a route at once, or discarded and counted as no neighbour. -/
def State.sendUdp (s : State) (r : Route) (p : Bytes) : State :=
  match s.frameFor r p with
  | some f => s.sendPaced r.port 0 0 f
  | none => s.portBump r.port 68 1

/-! ### RTCP (RFC 3550, 4585, 5104) -/

/-- The packets of a compound RTCP packet. -/
def rtcpParts : Nat → Bytes → List Bytes
  | 0, _ => []
  | f + 1, d => if d.length < 4 then [] else let n := 4 * (bfld d 2 2 + 1); d.take n :: rtcpParts f (d.drop n)

/-- A PLI or FIR (R316): method 1 or 2, sender and media SSRC, and the command sequence number of a FIR. -/
def keyRequest (method sender media seq : Nat) : Bytes :=
  if method = 1 then [0x81, 206, 0, 2] ++ be 4 sender ++ be 4 media
  else [0x84, 206, 0, 4] ++ be 4 sender ++ be 4 media ++ be 4 media ++ le 1 seq ++ [0, 0, 0]

/-- An empty receiver report. -/
def emptyReport (sender : Nat) : Bytes := [0x80, 201, 0, 1] ++ be 4 sender

end Sys2Proof.Machine
end

