-- ==== Sys2Proof/Machine/Video.lean ====
section
/-!
DEFINITION. What the video chapters share: the objects' records, the frame grid, costs, the bounds of R295, R348 and R388,
key-frame requests, and the commands of video legs (R360 to R362, R385).
-/

namespace Sys2Proof.Machine

/-- The video side changed. -/
def State.updVideo (s : State) (f : Video → Video) : State := { s with video := f s.video }

/-- The key a handle names, whatever its generation. -/
def hkey (h : Nat) : Nat := okey (h / 2 ^ 27) (h % 2 ^ 20)

/-- A video leg. -/
def State.vleg (s : State) (key : Nat) : Option VLeg := if ktype key = 3 then tget? s.video.legs (kidx key) else none

/-- A video leg changed. -/
def State.updVleg (s : State) (key : Nat) (f : VLeg → VLeg) : State :=
  s.updVideo fun v => { v with legs := tupd v.legs (kidx key) f }

/-- A composition. -/
def State.comp (s : State) (key : Nat) : Option Comp := if ktype key = 4 then tget? s.video.comps (kidx key) else none

/-- A composition changed. -/
def State.updComp (s : State) (key : Nat) (f : Comp → Comp) : State :=
  s.updVideo fun v => { v with comps := tupd v.comps (kidx key) f }

/-- An encoding. -/
def State.enc (s : State) (key : Nat) : Option Encoding := if ktype key = 5 then tget? s.video.encs (kidx key) else none

/-- An encoding changed. -/
def State.updEnc (s : State) (key : Nat) (f : Encoding → Encoding) : State :=
  s.updVideo fun v => { v with encs := tupd v.encs (kidx key) f }

/-- The leg is a sending one. -/
def VLeg.sending (l : VLeg) : Bool := u8 l.cfg 0 == 1

/-- Its codec. -/
def VLeg.codec (l : VLeg) : Nat := u8 l.cfg 1

/-- A counter of Table 11.8 raised. -/
def VLeg.bump (l : VLeg) (off n : Nat) : VLeg := { l with stats := tset l.stats off (tget 0 l.stats off + n) }

/-- A counter of Table 9.9 raised. -/
def Decode.bump (d : Decode) (off n : Nat) : Decode := { d with stats := tset d.stats off (tget 0 d.stats off + n) }

/-- A leg's decode changed. -/
def State.updDec (s : State) (key : Nat) (f : Decode → Decode) : State :=
  s.updVleg key fun l => { l with decode := l.decode.map f }

/-- A leg's decode. -/
def State.dec (s : State) (key : Nat) : Option Decode := (s.vleg key).bind (·.decode)

/-- A NAL unit of a stream that is an AVC one: all of an AVC stream, and the base layer of an SVC one (R363). -/
def avcUnit (codec : Nat) (u : NalUnit) : Bool := codec == 1 || (codec == 2 && u.s == 0 && u.quality == 0)

/-- The units of a payload with the temporal IDs that prefix NAL units give them (R363), `p` that of one whose NAL unit has not
ended; an AVC one without has t = 0. A picture of an AVC stream is a switching point up to its temporal ID (R364). -/
def withPrefix (codec : Nat) : Option Nat → List NalUnit → Option Nat × List NalUnit
  | p, [] => (p, [])
  | p, u :: r =>
    if u.prefix_ then
      let (q, l) := withPrefix codec (some u.t) r
      (q, { u with up := if codec = 1 then u.rap || decide (0 < u.t) else u.up } :: l)
    else
      let t := if avcUnit codec u then p.getD 0 else u.t
      let (q, l) := withPrefix codec (if u.last then none else p) r
      (q, { u with t := t, up := if codec = 1 then u.rap || decide (0 < t) else u.up } :: l)

/-! ### Compositions: the frame grid -/

/-- Output size. -/
def Comp.w (c : Comp) : Nat := u16 c.cfg 0
def Comp.h (c : Comp) : Nat := u16 c.cfg 2
/-- Bit depth. -/
def Comp.depth (c : Comp) : Nat := u8 c.cfg 10
/-- SUB_FRAME and FLATTEN. -/
def Comp.sub (c : Comp) : Bool := u8 c.cfg 11 % 2 == 1
def Comp.flatten (c : Comp) : Bool := u8 c.cfg 11 / 2 % 2 == 1

/-- The frames per second as a fraction. -/
def Comp.rate (c : Comp) : Nat × Nat := (u32 c.cfg 4, u16 c.cfg 8)

/-- Lines of a composite slice, and how many there are (R389). -/
def Comp.lines (c : Comp) : Nat := if c.sub then u8 c.cfg 16 else 64
def Comp.slices (c : Comp) : Nat := ceilDiv c.h c.lines

/-- The first frame boundary after a root cycle. -/
def Comp.frameAfterRoot (c : Comp) (r : Nat) : Nat := if r < c.phase then 0 else (r - c.phase) / c.period + 1

/-- The first frame boundary after a time in ns. -/
def Comp.frameAfter (c : Comp) (t : Nat) : Nat := c.frameAfterRoot (6 * t)

/-- The first frame boundary in a later CLK_CTRL cycle than a time in ns (R353). -/
def Comp.frameAfterCtrl (c : Comp) (t : Nat) : Nat := c.frameAfterRoot (t / 4 * 24 + 23)

/-! ### Bounds, in root cycles -/

/-- t_op of R388. -/
def tOp (w h : Nat) : Nat := 600000 + 10 * w * h

/-- t_dec of R295 at the declared maxima of a DecodeSet. -/
def tDec (p : Bytes) : Nat := 1200000 + 10 * u32 p 16 + 12 * (256 * u16 p 20)

/-- Rows of an encoded picture: 16 lines for AVC, 64 for HEVC (R343). -/
def rowLines (codec : Nat) : Nat := if codec = 3 then 64 else 16
def codedRows (codec h : Nat) : Nat := ceilDiv h (rowLines codec)
/-- Rows of a slice, and how many slices there are. -/
def sliceRows (codec h n : Nat) : Nat := ceilDiv (codedRows codec h) n
def sliceCount (codec h n : Nat) : Nat := ceilDiv (codedRows codec h) (sliceRows codec h n)

/-- Luma samples of the largest slice (coded area). -/
def sliceArea (codec w h n : Nat) : Nat := sliceRows codec h n * rowLines codec * (16 * ceilDiv w 16)

/-- t_pic of R348. -/
def tPic (codec w h n cpb : Nat) : Nat := 600000 + 48 * sliceArea codec w h n + 10 * cpb + 1500000

/-! ### Encodings -/

/-- The composition of a stream. -/
def Stream.comp (x : Stream) : Nat := hkey (u32 x.cfg 0)
/-- Hard cap in kbit/s and CPB size in bits. -/
def Stream.cap (x : Stream) : Nat := u32 x.cfg 16
def Stream.cpb (x : Stream) : Nat := u32 x.cfg 20

/-- The stream `n` of an encoding changed. -/
def State.updStream (s : State) (key n : Nat) (f : Stream → Stream) : State :=
  s.updEnc key fun e => { e with streams := e.streams.zipIdx.map fun x => if x.2 = n then f x.1 else x.1 }

/-- A counter of Table 10.13 raised. -/
def Stream.bump (x : Stream) (off n : Nat) : Stream := { x with stats := tset x.stats off (tget 0 x.stats off + n) }

/-- The encodings fed by a composition, with the streams it feeds; one destroyed lives until its boundary (R793). -/
def State.fedBy (s : State) (comp : Nat) : List (Nat × Nat) :=
  s.video.encs.flatMap fun e => (e.2.streams.zipIdx.filter fun x => x.1.comp == comp).map fun x => (okey 5 e.1, x.2)

/-! ### Levels (R288, R336) -/

/-- H.264 Table A-1: macroblocks per second and per frame, bit rate in kbit/s, CPB size in kbit (PRESUMED: the standard's,
log entry 50). -/
def avcLevel : Nat → Option (Nat × Nat × Nat × Nat)
  | 10 => some (1485, 99, 64, 175) | 11 => some (3000, 396, 192, 500) | 12 => some (6000, 396, 384, 1000) | 13 => some (11880, 396, 768, 2000)
  | 20 => some (11880, 396, 2000, 2000) | 21 => some (19800, 792, 4000, 4000) | 22 => some (20250, 1620, 4000, 4000)
  | 30 => some (40500, 1620, 10000, 10000) | 31 => some (108000, 3600, 14000, 14000) | 32 => some (216000, 5120, 20000, 20000)
  | 40 => some (245760, 8192, 20000, 25000) | 41 => some (245760, 8192, 50000, 62500) | 42 => some (522240, 8704, 50000, 62500)
  | 50 => some (589824, 22080, 135000, 135000) | 51 => some (983040, 36864, 240000, 240000) | _ => none

/-- H.265 Tables A.8 and A.9, Main tier: luma samples per second and per picture, bit rate, CPB size (PRESUMED, log
entry 50). -/
def hevcLevel : Nat → Option (Nat × Nat × Nat × Nat)
  | 30 => some (552960, 36864, 128, 350) | 60 => some (3686400, 122880, 1500, 1500) | 63 => some (7372800, 245760, 3000, 3000)
  | 90 => some (16588800, 552960, 6000, 6000) | 93 => some (33177600, 983040, 10000, 10000) | 120 => some (66846720, 2228224, 12000, 12000)
  | 123 => some (133693440, 2228224, 20000, 20000) | 150 => some (267386880, 8912896, 25000, 25000)
  | 153 => some (534773760, 8912896, 40000, 40000) | _ => none

/-! ### Costs (Table 4.7, R114) -/

/-- The cost of a video leg's declarations. -/
def vlegCost (p : Bytes) : Costs :=
  let rate := u32 p 32
  let burst := u32 p 40
  let hbm := if 512 < burst then ceilDiv rate 4 else 0
  if u8 p 0 = 1 then
    costOf [(0x0007, 0, u32 p 36), (0x0006, 0, if u32 p 8 = 0 then 0 else rate), (0x000C, 0, ceilDiv burst 1024), (0x0009, 0, hbm)]
  else
    costOf [(0x0008, 0, u32 p 36), (0x0006, 0, if u32 p 12 = 0 then 0 else rate), (0x000B, u8 p 16, rate), (0x000C, 0, ceilDiv burst 1024),
      (0x0009, 0, hbm)]

/-- The cost of a decode's declarations (Table 9.7). -/
def decodeCost (p : Bytes) : Costs :=
  let wh := u16 p 4 * u16 p 6
  let m := if u8 p 2 = 10 then 2 else 1
  costOf [(0x0003, 0, ceilDiv (wh * u32 p 8) 1000000), (0x0004, 0, u32 p 12), (0x0009, 0, ceilDiv (9 * m * wh * u32 p 8) 2000000),
    (0x000E, 0, ceilDiv ((u8 p 3 + 1) * wh * 3 * m) 2048)]

/-- The bytes of a decode's syntax buffer (R292). -/
def syntaxSize (p : Bytes) : Nat := 65536 * ceilDiv (ceilDiv (3 * u16 p 4 * u16 p 6) 4) 65536

/-- A plane of a picture that is not disabled. -/
def fetches (p : Bytes) : Bool := u8 p 1 == 1 && u16 p 12 != 0 && u16 p 14 != 0

/-- The cost of a composition with some planes in force. -/
def compCost (p : Bytes) (planes : List Bytes) : Costs :=
  let wh := u16 p 0 * u16 p 2
  let crops := ((planes.filter fetches).map fun x => u16 x 20 * u16 x 22).sum
  let num := u32 p 4
  let den := u16 p 8
  costOf [(0x0005, 0, ceilDiv (wh * num) (den * 1000)), (0x0009, 0, ceilDiv (3 * num * (crops + wh)) (2 * den * 1000)),
    (0x000E, 0, ceilDiv ((2 + u8 p 11 / 2 % 2) * wh * 3) 2048)]

/-- The cost of an encoding, its streams given by picture size, frame rate and hard cap. -/
def encCost (p : Bytes) (l : List (Nat × (Nat × Nat) × Nat)) : Costs :=
  let m := if u8 p 0 = 3 ∧ u8 p 1 = 2 then 2 else 1
  -- W × H × fps summed over the streams, the frame rates brought to one denominator
  let den := (l.map (·.2.1.2)).foldl (· * ·) 1
  let px := (l.map fun e => e.1 * e.2.1.1 * (den / e.2.1.2)).sum
  costOf [(0x0003, 0, ceilDiv (4 * px) (1000 * den)), (0x0004, 0, (l.map (·.2.2)).sum),
    (0x0009, 0, ceilDiv (6 * m * px) (1000 * den)), (0x000E, 0, ceilDiv ((u8 p 7 + 2) * 3 * m * (l.map (·.1)).sum) 2048)]

/-! ### Key-frame requests (R314 to R316) -/

/-- The SSRC of a sending leg's layer: its place in the list for simulcast. -/
def VLeg.ssrcOf (l : VLeg) (s : Nat) : Nat := u32 l.cfg (60 + 4 * (if u8 l.cfg 23 = 3 then s else 0))

/-- RTCP sent by a video leg, protected under its send context where it has one (R316). -/
def State.sendRtcp (s : State) (key : Nat) (d : Bytes) : State :=
  match s.vleg key with
  | none => s
  | some l =>
    let r := (videoRoute l.cfg).rtcp (u8 l.cfg 19 % 2 == 1)
    if !s.mayTransmit key then s
    else if u32 l.cfg 12 = 0 then s.sendUdp r d
    else
      match s.protectRtcp (u32 l.cfg 12 % 2 ^ 20) d with
      | (s, some d) => s.sendUdp r d
      | (s, none) => s

/-- A request sent now. -/
def State.sendRequest (s : State) (key : Nat) (q : KeyReq) : State :=
  match s.vleg key with
  | none => s
  | some l =>
    let d := (if u8 l.cfg 19 / 8 % 2 = 1 then emptyReport (u32 l.cfg 48) else []) ++ keyRequest q.method (u32 l.cfg 48) q.ssrc (l.fir % 256)
    (((s.sendRtcp key d).mirror key 2 0 0 q.method []).updVleg key fun l => { l with lastReq := some s.now, fir := if q.method = 2 then l.fir + 1 else l.fir }).updDec key
      fun d => d.bump 28 1

/-- A request may be sent now: none in the last 500 ms (R315). -/
def State.mayRequest (s : State) (l : VLeg) : Bool := match l.lastReq with | some t => decide (t + 500000000 ≤ s.now) | none => true

/-- A request made: sent, or deferred behind those that wait. One of each kind waits. -/
def State.request (s : State) (key : Nat) (q : KeyReq) : State :=
  match s.vleg key with
  | none => s
  | some l =>
    if s.mayRequest l then s.sendRequest key q
    else s.updVleg key fun l =>
      let like (x : KeyReq) : Bool := x.why == q.why && x.ssrc == q.ssrc
      { l with deferred := if l.deferred.any like then l.deferred.map fun x => if like x then q else x else l.deferred ++ [q] }

/-- The request by policy: the method of the policy, the target layer's SSRC (Table 9.5). `fir` asks for a FIR. -/
def State.policyRequest (s : State) (key : Nat) (fir : Bool) : State :=
  match s.vleg key, s.dec key with
  | some l, some d =>
    let pol := u8 d.cfg 24
    if pol = 0 ∨ !s.flows key then s
    else
      let m := if pol = 1 ∨ (pol = 3 ∧ !fir) then 1 else 2
      let s := s.request key { method := m, ssrc := l.ssrcOf 0, why := 0 }
      if m = 2 then s.updDec key fun d => { d with episode := d.episode.map fun e => (e.1, true) } else s
  | _, _ => s

/-- The episode of a decode asks again each time the rate limit allows: under policy 0x03 once its FIR has been asked for
(Table 9.5). -/
def Decode.repeats (d : Decode) : Bool :=
  match d.episode with
  | some (_, fir) => u8 d.cfg 24 == 1 || u8 d.cfg 24 == 2 || (u8 d.cfg 24 == 3 && fir)
  | none => false

/-- The next request by policy, once the rate limit allows it and no deferred one has gone. -/
def State.repeatRequest (s : State) (key : Nat) : State :=
  match s.vleg key, s.dec key with
  | some l, some d => if d.repeats && s.mayRequest l then s.policyRequest key true else s
  | _, _ => s

/-- A request episode begun (R314). -/
def State.episode (s : State) (key : Nat) : State :=
  match s.dec key with
  | some d => if d.episode.isSome then s else (s.updDec key fun d => { d with episode := some (s.now, false) }).policyRequest key false
  | none => s

/-- A deferred request is still needed: its episode lasts, a receiver still waits for it, or the host asked. -/
def State.needsRequest (s : State) (key : Nat) (q : KeyReq) : Bool :=
  if q.why = 0 then s.flows key && (match s.dec key with | some d => d.episode.isSome && u8 d.cfg 24 != 0 | none => false)
  else if q.why = 1 then s.video.legs.any fun e =>
    e.2.source == some key && e.2.asked && (e.2.st != 2 || e.2.wanted != e.2.cur) &&
    (match s.vleg key, e.2.wanted with | some l, some w => l.ssrcOf w.1 == q.ssrc | _, _ => false)
  else s.flows key

/-- The deferred requests taken in turn until one is sent; those no longer needed are dropped and counted (R315). -/
def State.runDeferred (key : Nat) : Nat → State → State
  | 0, s => s
  | f + 1, s =>
    match s.vleg key with
    | none => s
    | some l =>
      match l.deferred with
      | [] => s
      | q :: rest =>
        let s := s.updVleg key fun l => { l with deferred := rest }
        if !s.needsRequest key q then State.runDeferred key f (s.updDec key fun d => d.bump 32 1)
        else s.sendRequest key q

/-- KEY_FRAME_REQUEST_DEFERRED: 500 ms after the last request, the deferred one, or the next by policy (R315, Table 9.5). -/
def execKeyFrameRequestDeferred (leg : Nat) (s : State) : Host.Outcome State Fault Refusal :=
  let key := okey 3 leg
  match s.vleg key with
  | some l => if s.mayRequest l then .next ((State.runDeferred key l.deferred.length s).repeatRequest key) else .next s
  | none => .next s

/-- FIR_ESCALATION: under policy 0x03, 500 ms after the PLI without a RAP (R314). -/
def execFirEscalation (leg : Nat) (s : State) : Host.Outcome State Fault Refusal :=
  let key := okey 3 leg
  match s.dec key with
  | some d =>
    match d.episode with
    | some (t, false) => if u8 d.cfg 24 = 3 ∧ t + 500000000 ≤ s.now then .next (s.policyRequest key true) else .next s
    | _ => .next s
  | none => .next s

/-- The own part of KeyFrameRequest (Table 9.8). -/
def effKeyFrameRequest (r : Req) (s : State) : Eff :=
  let p := r.payload
  s.withHandle r.tgt [0x03] fun key =>
  match s.vleg key with
  | none => .fail .noSuchObject []
  | some l =>
    need l.sending .invalidArg (
    need (!(s.following && s.critical key)) .leaseHeld (need (s.isActive key) .wrongState (
    need ((u8 p 0 == 1 || u8 p 0 == 2) && zeros p 1 3) .invalidArg (
    let now := s.mayRequest l
    -- those that wait before it each take one turn
    let ahead := (l.deferred.takeWhile fun q => !(q.why == 2 && q.ssrc == l.ssrcOf 0)).length
    let wait := match l.lastReq with | some t => ceilDiv (t + 500000000 * (ahead + 1) - s.now) 1000000 | none => 0
    .done (if now then le 4 1 else le 2 0 ++ le 2 wait) r.tgt
      (s.request key { method := u8 p 0, ssrc := l.ssrcOf 0, why := 2 })))))

/-- KEY_FRAME_REQUEST. -/
def execKeyFrameRequest (r : Req) (s : State) : Host.Outcome State Fault Refusal :=
  .next (s.command 0x0422 (· == 4) r (effKeyFrameRequest r))

/-! ### Video leg commands (R385) -/

/-- The egress or ingress queue of a video leg. -/
def vqueue (key : Nat) : Nat := 0x8000 + kidx key

/-- The egress queue of a leg (Table 13.2). -/
def outQueue (key : Nat) : Nat := if ktype key = 2 then 0x4000 + kidx key else vqueue key

/-- The fields of VideoLegCreate (Table 11.6). -/
def vlegOk (p : Bytes) : Bool :=
  let send := u8 p 0 == 1
  let st := u8 p 23
  decide (1 ≤ u8 p 1) && decide (u8 p 1 ≤ 3) && decide (u8 p 2 ≤ 1) && decide (u8 p 3 ≤ 3) && (u8 p 17 == 4 || u8 p 17 == 6) &&
  decide (96 ≤ u8 p 18) && decide (u8 p 18 < 128) && decide (u8 p 19 < 16) && !(send && u8 p 19 / 4 % 2 == 1) &&
  (if u8 p 19 / 2 % 2 = 1 then u16 p 20 / 4096 % 2 == 0 else u16 p 20 == 0) && decide (u8 p 22 < 64) &&
  (if send then decide (1 ≤ st) && decide (st ≤ 3) && (st != 2 || u8 p 1 == 2) else st == 0) &&
  decide (64 ≤ u16 p 28) && decide (u16 p 28 ≤ 1518) && zeros p 30 2 && decide (1 ≤ u32 p 32) && decide (u32 p 32 ≤ 400000) &&
  decide (1 ≤ u32 p 36) && decide (u32 p 36 ≤ 1000000) && decide (u16 p 28 ≤ u32 p 40) && decide (u32 p 40 ≤ 4194304) &&
  (u16 p 44 == 0 || (decide (100 ≤ u16 p 44) && decide (u16 p 44 ≤ 60000))) && zeros p 46 2 && zeros p 54 2 &&
  (if send then zeros p 52 2 && zeros p 56 4 && ssrcs else zeros p 60 12) &&
  (u8 p 17 == 6 || (zeros p 76 12 && zeros p 92 12))
where
  /-- 1 SSRC, or 2 or 3 for simulcast, each once, the rest 0 (Table 11.1) -/
  ssrcs : Bool :=
    if u8 p 23 = 3 then u32 p 60 != u32 p 64 && u32 p 68 != u32 p 60 && (u32 p 64 != 0 && u32 p 68 != u32 p 64)
    else zeros p 64 8

/-- The SSRCs of a simulcast leg: 2 or 3. -/
def VLeg.ssrcs (l : VLeg) : List Nat :=
  if u8 l.cfg 23 = 3 then [u32 l.cfg 60, u32 l.cfg 64] ++ (if u32 l.cfg 68 = 0 then [] else [u32 l.cfg 68]) else [u32 l.cfg 60]

/-- A video leg just created. -/
def VLeg.new (p : Bytes) (now : Nat) : VLeg where
  cfg := p
  tokens := u32 p 40 * 1000000000
  tokensAt := now
  lastArrival := now
  enabledAt := now
  src := []
  window := []
  decode := none
  decl := none
  told := []
  lastReq := none
  deferred := []
  fir := 0
  source := none
  old := none
  target := 0
  maxS := 0
  maxT := 0
  st := 0
  cur := none
  wanted := none
  asked := false
  seq := u16 p 52
  offset := 0
  ssrc := none
  lastSrc := none
  lastSeq := none
  outTs := none
  picAt := 0
  stats := []

/-- A shed object's class and the kind of its shed event (Table 6.15): cause 1 held, 2 destroyed. -/
def shedEvent (s : State) (cause cls : Nat) : Bytes := le 1 cause ++ le 1 cls ++ le 2 0 ++ le 8 s.block

/-- The next frame boundary of a video leg (the text after R384). -/
def State.legBound (s : State) (key : Nat) : Boundary := .leg (kidx key) s.now

/-- The own part of VideoLegCreate (R360, R362, R423, R477, R716). -/
def effVideoLegCreate (r : Req) (s : State) : Eff :=
  let p := r.payload
  nullTarget r (
  s.withHandle (u32 p 4) [0x01] fun _ =>
  s.withHandle0 (u32 p 8) [0x08] fun rk =>
  s.withHandle0 (u32 p 12) [0x08] fun sk =>
  need (s.portOk (u8 p 16)) .invalidArg (
  need s.inService .wrongState (
  need ((u8 p 0 == 1 || u8 p 0 == 2) && vlegOk p && !s.keyHeld (videoKeyOf p) &&
    (match rk with | some k => s.bindable k 1 | none => true) && (match sk with | some k => s.bindable k 2 | none => true)) .invalidArg (
  s.create 3 0 8192 fun key =>
  s.admission (vlegCost p) [] fun s _ =>
    let s := (s.addObj key r.mbx (u8 p 2 == 1) (u8 p 3) (vlegCost p)).updVideo fun v => { v with legs := tset v.legs (kidx key) (VLeg.new p s.now) }
    let s := s.addQueue (vqueue key) (ceilDiv (u32 p 40) 1024)
    let s := if u8 p 0 = 2 then s.addShaper (vqueue key) (u32 p 32) (u32 p 40) 5 else s
    let s := (s.bindKey (u32 p 8) key 0).bindKey (u32 p 12) key (u16 p 52)
    let s := if u8 p 2 = 1 then s.addSched (s.legBound key) noOrigin (.live key true) else s
    .done (le 2 (vqueue key) ++ le 2 0) (s.handle key) s))))

/-- VIDEO_LEG_CREATE. -/
def execVideoLegCreate (r : Req) (s : State) : Host.Outcome State Fault Refusal :=
  .next (s.command 0x0400 (· == 104) r (effVideoLegCreate r))

/-- The own part of VideoLegDestroy: a trio critical-set entry blocks (Table 3.5). -/
def effVideoLegDestroy (r : Req) (s : State) : Eff :=
  s.withHandle r.tgt [0x03] fun key =>
  need (!s.critical key) .wrongState (s.destroyAt r key (s.legBound key))

/-- VIDEO_LEG_DESTROY. -/
def execVideoLegDestroy (r : Req) (s : State) : Host.Outcome State Fault Refusal :=
  .next (s.command 0x0401 (· == 0) r (effVideoLegDestroy r))

/-- The own part of VideoLegEnable: WRONG_STATE in SHED (R385). -/
def effVideoLegEnable (r : Req) (s : State) : Eff :=
  s.withHandle r.tgt [0x03] fun key => need (s.mode != .shed) .wrongState (s.enableAt r key (s.legBound key))

/-- VIDEO_LEG_ENABLE. -/
def execVideoLegEnable (r : Req) (s : State) : Host.Outcome State Fault Refusal :=
  .next (s.command 0x0402 (· == 0) r (effVideoLegEnable r))

/-- The own part of VideoLegHold. -/
def effVideoLegHold (r : Req) (s : State) : Eff :=
  s.withHandle r.tgt [0x03] fun key => s.holdAt r key (s.legBound key)

/-- VIDEO_LEG_HOLD. -/
def execVideoLegHold (r : Req) (s : State) : Host.Outcome State Fault Refusal :=
  .next (s.command 0x0403 (· == 0) r (effVideoLegHold r))

/-- The own part of VideoLegStatsGet (Table 11.8). -/
def effVideoLegStatsGet (r : Req) (s : State) : Eff :=
  s.withHandle r.tgt [0x03] fun key =>
  match s.vleg key with
  | none => .fail .noSuchObject []
  | some l =>
    let g (o : Nat) : Nat := tget 0 l.stats o
    let pt := l.cur.getD (255, 255)
    .done (le 8 (g 0) ++ le 8 (g 8) ++ le 4 (g 16) ++ le 4 (g 20) ++ le 4 (g 24) ++ le 4 (g 28) ++ le 4 (g 32) ++ le 4 (g 36) ++
      le 1 pt.1 ++ le 1 pt.2 ++ le 1 l.st ++ le 5 0) r.tgt s

/-- VIDEO_LEG_STATS_GET. -/
def execVideoLegStatsGet (r : Req) (s : State) : Host.Outcome State Fault Refusal :=
  .next (s.command 0x0406 (· == 0) r (effVideoLegStatsGet r))

end Sys2Proof.Machine
end

