-- ==== Sys2Proof/Machine/Agate.lean ====
section
/-!
DEFINITION. Video decode: Agate and Jasper (R286 to R321). Depacketising, slices and their items, concealment, the decode
states and the commands. What the coding standards compute stands in Config.
-/

namespace Sys2Proof.Machine

/-! ### Declarations and events -/

/-- Priority live. -/
def Decode.live (d : Decode) : Bool := u8 d.cfg 1 == 1

/-- DecodeError, RefMissing and DecodeRecovered (Table 9.10). -/
def State.decodeError (s : State) (key cause ts : Nat) : State := s.raise key 0xF421 (le 1 cause ++ le 3 0 ++ le 4 ts ++ le 8 s.block)
def State.refMissing (s : State) (key sub dep ts : Nat) : State := s.raise key 0xF420 (le 1 sub ++ le 1 dep ++ le 2 0 ++ le 4 ts ++ le 8 s.block)
def State.decodeRecovered (s : State) (key n ts : Nat) : State := s.raise key 0xF422 (le 4 n ++ le 4 ts ++ le 8 s.block)

/-- A DecodeError that comes at most once a second for its cause (R312). -/
def State.limitedError (s : State) (key cause ts : Nat) : State :=
  match s.vleg key with
  | none => s
  | some l =>
    let due := match tget? l.told cause with | some t => decide (t + 1000000000 ≤ s.now) | none => true
    if due then (s.updVleg key fun l => { l with told := tset l.told cause s.now }).decodeError key cause ts else s

/-- A decode just set: OFF to WAIT_RAP (Table 9.4). -/
def Decode.new (p : Bytes) : Decode where
  cfg := p
  st := 1
  arm := true
  began := none
  forced := none
  sT := u8 p 22
  tT := u8 p 23
  owe := false
  active := none
  sets := []
  pps := []
  prefix_ := none
  expect := none
  buf := []
  ts := none
  ended := false
  taken := false
  data := false
  seen := 0
  open_ := none
  hole := false
  bad := false
  skipRasl := false
  held := []
  pics := []
  dpb := []
  prevNum := none
  wait := []
  out := []
  lastOut := []
  newest := []
  next := 0
  lastOrder := none
  syntax_ := []
  overflow := []
  run := 0
  episode := none
  stats := []

/-- The store flushed and the decode in WAIT_RAP (Table 9.4); `arm` starts the timeout with the next picture (R305). -/
def Decode.flush (d : Decode) (arm : Bool) : Decode :=
  { d with st := 1, arm := arm, began := none, forced := none, owe := false, open_ := none, hole := false, bad := false, skipRasl := false,
           held := [], pics := [], dpb := [], prevNum := none, wait := [], out := [], lastOut := [], newest := [], lastOrder := none,
           syntax_ := [], overflow := [], run := 0, taken := false, seen := 0 }

/-- The leg goes to HELD (Table 9.4): besides, the depacketiser begins anew with what comes after the Hold. -/
def Decode.hold (d : Decode) : Decode :=
  { d.flush false with expect := none, buf := [], ts := none, ended := false, data := false, prefix_ := none, episode := none }

/-! ### Streams that can be decoded (Table 9.1, R287, R288) -/

/-- The profile of a parameter set of layer `s` is one of Table 9.1; the base layer of SVC is Constrained Baseline. -/
def paramProfile (q : StreamParams) (codec s : Nat) : Bool :=
  match codec with
  | 1 => (q.profile == 66 && q.set1) || q.profile == 77 || q.profile == 100
  | 2 => if s = 0 then q.profile == 66 && q.set1 else q.profile == 83 && q.set5
  | _ => q.profile == 1 || q.profile == 2

/-- The most 16 × 16 blocks (luma samples for HEVC) of a picture at a level of Table 9.1; none for a level outside it. -/
def paramLevel (q : StreamParams) (codec : Nat) : Option Nat :=
  if codec = 3 then (hevcLevel q.level).map (·.2.1) else if q.level = 9 then some 99 else (avcLevel q.level).map (·.2.1)

/-- The size lies within R288 and the limits of the level. -/
def paramSize (q : StreamParams) (codec : Nat) : Bool :=
  match paramLevel q codec with
  | none => false
  | some most =>
    let w := if codec = 3 then q.w else ceilDiv q.w 16
    let h := if codec = 3 then q.h else ceilDiv q.h 16
    decide (16 ≤ q.w) && decide (q.w ≤ 4096) && decide (16 ≤ q.h) && decide (q.h ≤ 2304) && decide (w * h ≤ most) &&
    decide (max w h * max w h ≤ 8 * most)

/-- The bit depths of a set are ones that its codec and profile may have. -/
def paramDepths (q : StreamParams) (codec : Nat) : Bool :=
  (q.lumaDepth == 8 && q.chromaDepth == 8) ||
  (codec == 3 && q.profile == 2 && (q.lumaDepth == 8 || q.lumaDepth == 10) && (q.chromaDepth == 8 || q.chromaDepth == 10))

/-- A parameter set of layer `s` whose stream the bridge decodes (R286 to R288). -/
def paramsOk (q : StreamParams) (codec s : Nat) : Bool :=
  paramProfile q codec s && paramSize q codec && paramDepths q codec && !q.fields && q.chromaFormat == 1 && !q.arbitrary &&
  !q.partitioned && !q.extended && !q.highTier

/-- A picture parameter set that enables nothing R287 leaves out. -/
def picOk (q : PicParams) : Bool := !q.flexible && !q.redundant && !q.extended

/-- The bit depth its pictures are stored at. -/
def paramDepth (q : StreamParams) : Nat := max q.lumaDepth q.chromaDepth

/-- A set of the target layer is within a declaration (R318). -/
def paramsFit (q : StreamParams) (cfg : Bytes) : Bool :=
  decide (q.w ≤ u16 cfg 4) && decide (q.h ≤ u16 cfg 6) && decide (paramDepth q ≤ u8 cfg 2) && decide (q.dpb ≤ u8 cfg 3)

/-- The place of a sequence parameter set of a layer. -/
def paramKey (s n : Nat) : Nat := s * 65536 + n

/-- The sequence parameter set of a unit of slice data: the one that its picture parameter set names (R318). -/
def Decode.setOf (d : Decode) (u : NalUnit) : Option StreamParams :=
  (tget? d.pps u.set).bind fun p => tget? d.sets (paramKey u.s p.sps)

/-- The parameter sets of a unit of slice data are ones of Table 9.1, or have not come (log entry 99). -/
def Decode.setOk (d : Decode) (u : NalUnit) : Bool :=
  (match tget? d.pps u.set with | some p => picOk p | none => true) &&
  (match d.setOf u with | some q => paramsOk q (u8 d.cfg 0) u.s | none => true)

/-- And, of the target layer, within the declaration. -/
def Decode.setGood (d : Decode) (u : NalUnit) : Bool :=
  d.setOk u && (u.s != d.sT || (match d.setOf u with | some q => paramsFit q d.cfg | none => true))

/-- The set that a unit of the target layer activates in force (R318). -/
def Decode.activate (d : Decode) (u : NalUnit) : Decode :=
  match d.setOf u with | some q => { d with active := some (u.s, q) } | none => d

/-- Width, height and bit depth of the pictures: the active set's, else those declared. -/
def Decode.size (d : Decode) : Nat × Nat × Nat :=
  match d.active with | some (_, q) => (q.w, q.h, paramDepth q) | none => (u16 d.cfg 4, u16 d.cfg 6, u8 d.cfg 2)

/-- Pictures of the buffer, pictures that may be reordered, and the limit of HEVC's latency counts, 0 for none. -/
def Decode.buffers (d : Decode) : Nat × Nat × Nat :=
  match d.active with
  | some (_, q) => (q.dpb, q.reorder, if q.latency = 0 then 0 else max 1 (q.reorder + q.latency - 1))
  | none => (u8 d.cfg 3, u8 d.cfg 3, 0)

/-! ### Picture buffers -/

/-- Bytes of a sample. -/
def sampleBytes (depth : Nat) : Nat := if depth = 10 then 2 else 1

/-- The bytes of a picture (R300). -/
def pictureBytes (w h depth : Nat) : Nat := w * h * 3 / 2 * sampleBytes depth

/-- A mid-grey picture (R307). -/
def midGrey (w h depth : Nat) : Bytes :=
  if depth = 10 then (List.replicate (w * h * 3 / 2) [0#8, 2#8]).flatten else List.replicate (w * h * 3 / 2) 128#8

/-- Samples as the picture store holds them: the upper six bits of a 10-bit one are 0 (R300). -/
def storeSamples (depth : Nat) (l : Bytes) : Bytes :=
  if depth = 10 then l.zipIdx.map fun e => if e.2 % 2 = 1 then e.1 &&& 3#8 else e.1 else l

/-- The 16 × 16 block that byte `i` of a picture lies in, in raster order. -/
def blockOf (w h depth i : Nat) : Nat :=
  let n := i / sampleBytes depth
  let across := ceilDiv w 16
  if n < w * h then n / w / 16 * across + n % w / 16
  else
    let c := (n - w * h) % (w * h / 4)
    c / (w / 2) / 8 * across + c % (w / 2) / 8

/-- The blocks of some runs of blocks. -/
def inRuns (l : List (Nat × Nat)) (b : Nat) : Bool := l.any fun e => decide (e.1 ≤ b) && decide (b < e.1 + e.2)

/-- The bytes of `new` in the blocks where `p` holds, of `old` elsewhere. -/
def mergeBlocks (w h depth : Nat) (p : Nat → Bool) (new old : Bytes) : Bytes :=
  (List.range (pictureBytes w h depth)).map fun i => if p (blockOf w h depth i) then new.getD i 0 else old.getD i 0

/-- The luma rows complete from the top after some runs. -/
def rowsOf (w : Nat) (l : List (Nat × Nat)) : Nat :=
  let across := ceilDiv w 16
  16 * (largest (fun n => (List.range (n * across)).all (inRuns l)) 9 0)

/-- The 16 × 16 blocks of a picture size, all in some runs. -/
def wholeRuns (w h : Nat) (l : List (Nat × Nat)) : Bool := (List.range (ceilDiv w 16 * ceilDiv h 16)).all (inRuns l)

/-- The substitute of a missing reference (R309): the newest decoded picture of the lowest layer, else none: mid-grey. -/
def Decode.substitute (d : Decode) : Option Picture := (d.newest.head?).map (·.2)

/-- Its samples as a picture of some size and depth. -/
def substituteData (x : Option Picture) (w h depth : Nat) : Bytes :=
  match x with
  | none => midGrey w h depth
  | some p => if p.w = w ∧ p.h = h ∧ p.depth = depth then p.data else storeSamples depth (Config.upsample (p.w, p.h, p.depth) (w, h, depth) p.data)

/-! ### States -/

/-- The decode enters CONCEALED for a cause (Table 9.4): 0 for a missing reference. Further damage is only counted. -/
def State.damage (s : State) (key cause ts : Nat) : State :=
  match s.dec key with
  | none => s
  | some d =>
    if d.st ≠ 2 then s
    else
      let s := s.updDec key fun d => { d with st := 3 }
      let sub := d.substitute
      let s := if cause = 0 then s.refMissing key (if sub.isSome then 1 else 2) ((sub.map (·.s)).getD 0) ts else s.decodeError key cause ts
      s.episode key

/-- A slice lost or undecodable (R306, R313). -/
def State.loseSlice (s : State) (key cause ts : Nat) : State :=
  (s.updDec key fun d => { d.bump 16 1 with bad := true }).damage key cause ts

/-- A parameter set beyond the declaration or outside Table 9.1 (R286, R318). The picture being received is no RAP to begin with. -/
def State.badParams (s : State) (key cause ts : Nat) : State :=
  ((s.updDec key fun d => { (d.flush false).bump (if cause = 4 then 52 else 56) 1 with bad := true }).limitedError key cause ts).episode key

/-! ### Items (R289 to R293, R299) -/

/-- A decode item of a stage, for slice `n` of picture `p`. -/
def State.decodeItem (s : State) (key stage p n : Nat) (data : Bytes) : State :=
  match s.dec key with
  | none => s
  | some d =>
    let level := if stage = 0 then (if d.live then 10 else 2) else if d.live then 9 else 1
    s.submit (1 + stage) {
      desc := descriptor (3 + stage) level (decodeFlow stage (kidx key)) (s.handle key) 0xFFFF 0 0 (le 8 data.length), data := data,
      job := .video stage (kidx key) p n }

/-- Luma rows of some runs of blocks of a picture: first and last. -/
def blockRows (w h : Nat) (runs : List (Nat × Nat)) : Nat × Nat :=
  let across := ceilDiv w 16
  let first := runs.foldl (fun m e => min m (e.1 / across * 16)) (h - 1)
  (first, min h (runs.foldl (fun m e => max m ((e.1 + e.2 - 1) / across * 16 + 16)) 0) - 1)

/-- The picture being received changed. -/
def State.updLast (s : State) (key : Nat) (f : DecPic → DecPic) : State :=
  s.updDec key fun d => { d with pics := d.pics.zipIdx.map fun e => if e.2 + 1 = d.pics.length then f e.1 else e.1 }

/-- A picture by its number changed. -/
def State.updPic (s : State) (key p : Nat) (f : DecPic → DecPic) : State :=
  s.updDec key fun d => { d with pics := d.pics.map fun q => if q.pic.id = p then f q else q }

/-- A slice put in its picture and given to Agate; one above the declared maximum is counted (R298). The picture is a RAP where
every slice of its target layer is of one. -/
def State.putSlice (s : State) (key : Nat) (x : Slice) (ts : Nat) : State :=
  match s.dec key with
  | none => s
  | some d =>
    match d.pics.getLast? with
    | none => s
    | some p =>
      let overTimes := decide (u32 d.cfg 16 < 8 * x.data.length) || decide (u16 d.cfg 20 < (x.unit.runs.map (·.2)).sum)
      let s := if overTimes then (s.updDec key fun d => d.bump 36 1).limitedError key 9 ts else s
      let r := blockRows p.pic.w p.pic.h x.unit.runs
      let s := s.updLast key fun q =>
        let q := { q with slices := tset q.slices q.next x, next := q.next + 1, got := q.got ++ [x.unit] }
        if x.unit.s = q.pic.s then
          { q with rap := q.rap && x.unit.rap, head := q.head.or (some x), pic := { q.pic with
            order := if q.head.isSome then q.pic.order else Config.sliceOrder (u8 d.cfg 0) x.data, arrived := (r.1, r.2, x.at_) :: q.pic.arrived } }
        else q
      s.decodeItem key 0 p.pic.id p.next x.data

/-- A picture begun in the store. -/
def State.openPicture (s : State) (key ts : Nat) (u : NalUnit) : State :=
  s.updDec key fun d =>
    let p : Picture := {
      id := d.next, w := d.size.1, h := d.size.2.1, depth := d.size.2.2, ts := ts, data := midGrey d.size.1 d.size.2.1 d.size.2.2,
      concealed := false, rows := 0, since := 0, s := d.sT, t := u.t, order := 0, arrived := [] }
    { d with next := d.next + 1, pics := d.pics ++ [{
      pic := p, slices := [], next := 0, got := [], done := [], syn := [], closed := false, rap := false, lost := false, head := none,
      begun := false, miss := [] }] }

/-- The first unit of the target layer in the picture being received: a RAP activates its parameter set, as does a picture where none of
its layer is active, and the picture has the size and the layer of the target from here on (R303, R318). An IRAP picture of HEVC says
what becomes of RASL pictures after it. -/
def State.reachTarget (s : State) (key : Nat) (u : NalUnit) : State :=
  let s := s.updDec key fun d =>
    let d := if u.rap || ((d.active.map (·.1) != some u.s) && d.setGood u) then d.activate u else d
    { d with seen := 2, skipRasl := if u.rap then u.fresh else d.skipRasl, prevNum := if d.active.map (·.1) = some u.s then d.prevNum else none }
  match s.dec key with
  | none => s
  | some d => s.updLast key fun q => { q with
      rap := u.rap, done := [], head := none, begun := false, miss := []
      pic := { q.pic with w := d.size.1, h := d.size.2.1, depth := d.size.2.2, data := midGrey d.size.1 d.size.2.1 d.size.2.2, s := d.sT, rows := 0,
                          concealed := q.lost, order := 0, arrived := [] } }

/-! ### Output (R301) -/

/-- The first of some waiting pictures in output order. -/
def firstOut (l : List (Picture × Nat)) : Option Picture :=
  (l.map (·.1)).foldl (fun b x => match b with | none => some x | some y => if x.order < y.order then some x else some y) none

/-- A picture put out: Opal may fetch it from now on (R301). -/
def Decode.putOut (d : Decode) (now : Nat) (p : Picture) : Decode :=
  let p := { p with since := now }
  { d.bump 0 1 with out := (p :: d.out).take 2, lastOut := tset d.lastOut p.s p }

/-- Pictures in the decoded picture buffer: kept for reference or waiting for output. -/
def Decode.fullness (d : Decode) : Nat := (d.dpb.map (·.pic.id) ++ d.wait.map (·.1.id)).eraseDups.length

/-- The bumping process (R301): the waiting picture first in output order is put out, while `more` says so. -/
def Decode.bumpWhile (now : Nat) (more : Decode → Bool) : Nat → Decode → Decode
  | 0, d => d
  | n + 1, d =>
    if more d then
      match firstOut d.wait with
      | some x => Decode.bumpWhile now more n { d.putOut now x with wait := d.wait.filter (·.1.id != x.id) }
      | none => d
    else d

/-- No empty picture buffer is left. -/
def Decode.full (d : Decode) : Bool := decide (max 1 d.buffers.1 ≤ d.fullness)

/-- More pictures of HEVC wait than may be reordered, or one has waited for as many as the latency limit. -/
def Decode.lateOut (d : Decode) : Bool :=
  u8 d.cfg 0 == 3 && (decide (d.buffers.2.1 < d.wait.length) || (d.buffers.2.2 != 0 && d.wait.any fun e => decide (d.buffers.2.2 ≤ e.2)))

/-- A finished picture of an offline decode given out in output order by the bumping process of its standard. One that starts afresh
lets every picture before it go first, or drops them. AVC bumps for an empty frame buffer, and puts out a picture at once that is not
for reference and first in order; HEVC also bumps by its reorder and latency limits. -/
def Decode.bumpIn (d : Decode) (now : Nat) (p : Picture) (u : NalUnit) (ref : Bool) : Decode :=
  let n := d.wait.length + 1
  let d := if u.fresh then (if u.dropPrior then { d with wait := [] } else Decode.bumpWhile now (fun _ => true) n d) else d
  if u8 d.cfg 0 != 3 && !ref && d.full && (d.wait.all fun x => decide (p.order < x.1.order)) then (if u.output then d.putOut now p else d)
  else
    let d := Decode.bumpWhile now (fun d => d.full || d.lateOut) n d
    if u.output then
      Decode.bumpWhile now Decode.lateOut (n + 1) { d with
        wait := (d.wait.map fun e => if p.order < e.1.order then (e.1, e.2 + 1) else e) ++ [(p, 0)] }
    else d

/-- A finished picture given out (R301): at once for a live decode, unless its order lies before one given out already; in
output order, with the bumping process, for an offline one. `u` is a unit of its slices, none where nothing of its target layer came
whole; such a picture keeps the order of the one before it. -/
def State.outputPicture (s : State) (key : Nat) (p : Picture) (u : Option NalUnit) (ref : Bool) : State :=
  match s.dec key with
  | none => s
  | some d =>
    match u with
    | none => s.updDec key fun d => if d.live || (d.wait.isEmpty) then d.putOut s.now p else { d with wait := d.wait ++ [(p, 0)] }
    | some u =>
      if !d.live then s.updDec key fun d => d.bumpIn s.now p u ref
      else if !u.output then s
      else if !u.fresh && (match d.lastOrder with | some o => decide (p.order < o) | none => false) then
        (s.updDec key fun d => d.bump 40 1).limitedError key 6 p.ts
      else s.updDec key fun d => { d.putOut s.now p with lastOrder := some p.order }

/-! ### References (R301, R308, R309) -/

/-- The pictures that slices of a spatial layer may name. -/
def Decode.entries (d : Decode) (s : Nat) : List RefEntry :=
  (d.dpb.filter fun x => x.pic.s == s).map fun x => { id := x.pic.id, num := x.num, order := x.pic.order, there := x.there }

/-- The decoded picture buffer after reference marking, by a slice of the picture decoded. -/
def Decode.keep (d : Decode) (s : Nat) (slice : Option Bytes) : List RefPic :=
  let ids := Config.dpbKeep (u8 d.cfg 0) slice (d.entries s)
  d.dpb.filter fun x => x.pic.s == s && ids.contains x.pic.id

/-- A frame of AVC that never came, marked as a reference (R308). -/
def Decode.ghost (d : Decode) (s num : Nat) : Decode :=
  let p : Picture := {
    id := d.next, w := d.size.1, h := d.size.2.1, depth := d.size.2.2, ts := 0, data := [], concealed := true, rows := 0, since := 0, s := s,
    t := 0, order := 0, arrived := [] }
  { d with next := d.next + 1, dpb := { pic := p, num := num, there := false } :: d.keep s none }

/-- The frame_nums that lie between the reference picture before and a picture of AVC. -/
def Decode.gap (d : Decode) (u : NalUnit) : List Nat :=
  match d.prevNum, d.active with
  | some p, some (_, q) =>
    if u8 d.cfg 0 = 3 ∨ u.rap ∨ q.maxNum = 0 then []
    else (List.range ((u.num + q.maxNum - p) % q.maxNum - 1)).map fun i => (p + 1 + i) % q.maxNum
  | _, _ => []

/-- References found missing by a picture, by their names: each is counted once, and the decode is concealed from then on (R308, R309,
R311). -/
def State.missRefs (s : State) (key p : Nat) (names : List Int) : State :=
  match (s.dec key).bind fun d => (d.pics.find? fun q => q.pic.id == p).map fun q => (d, q) with
  | none => s
  | some (d, q) =>
    match (names.filter fun n => !q.miss.contains n).eraseDups with
    | [] => s
    | l =>
      let sub := d.substitute
      let s := (s.updPic key p fun q => { q with miss := q.miss ++ l, pic := { q.pic with concealed := true } }).updDec key fun d => d.bump 24 l.length
      let s := s.damage key 0 q.pic.ts
      if d.owe then
        (s.updDec key fun d => { d with owe := false }).refMissing key (if sub.isSome then 1 else 2) ((sub.map (·.s)).getD 0) q.pic.ts
      else s

/-- A picture takes its place among the frames of its stream, before its first slice is decoded (R308): the frames that an AVC gap in
frame_num leaves out are marked, as many as there are buffers; they are missing where the stream allows no gap. -/
def State.placePicture (s : State) (key p : Nat) : State :=
  match (s.dec key).bind fun d => (d.pics.find? fun q => q.pic.id == p).map fun q => (d, q) with
  | none => s
  | some (d, q) =>
    match q.begun, q.head with
    | false, some x =>
      let gap := d.gap x.unit
      let allowed := match d.active with | some (_, a) => a.gaps | none => true
      let s := (s.updPic key p fun q => { q with begun := true }).updDec key fun d =>
        let d := (gap.drop (gap.length - max 1 d.buffers.1)).foldl (fun d n => d.ghost q.pic.s n) d
        { d with prevNum :=
            if x.unit.ref then some (if x.unit.fresh && !x.unit.rap then 0 else x.unit.num)
            else if gap.isEmpty then d.prevNum else gap.getLast? }
      if allowed then s else s.missRefs key p (gap.map Int.ofNat)
    | _, _ => s

/-! ### Pictures finished -/

/-- A picture of which nothing is with the dispatcher: areas without a decoded slice are concealed (R307, R310), reference marking goes on,
and it is given out. -/
def State.finishPicture (s : State) (key : Nat) (p : DecPic) : State :=
  let s := s.placePicture key p.pic.id
  match (s.dec key).bind fun d => (d.pics.find? fun q => q.pic.id == p.pic.id).map fun q => (d, q) with
  | none => s
  | some (d, p) =>
    let q := p.pic
    let whole := wholeRuns q.w q.h p.done
    let prev := match tget? d.lastOut q.s with
      | some x => if x.w = q.w ∧ x.h = q.h ∧ x.depth = q.depth then x.data else midGrey q.w q.h q.depth
      | none => midGrey q.w q.h q.depth
    let u := p.head.map (·.unit)
    let q := { q with
      data := if whole then q.data else mergeBlocks q.w q.h q.depth (inRuns p.done) q.data prev, rows := q.h,
      concealed := q.concealed || p.lost || !whole, order := if u.isSome then q.order else match d.dpb with | y :: _ => y.pic.order | [] => 0 }
    let s := s.updDec key fun d =>
      let d := if q.concealed then { d.bump 20 1 with run := d.run + 1 } else d
      { d with pics := d.pics.filter fun y => y.pic.id != q.id }
    let s := if p.rap && !q.concealed && d.st == 3 then
        (s.updDec key fun d => { d with st := 2, run := 0, owe := false }).decodeRecovered key d.run q.ts else s
    let ref := match u with | some u => u.ref || u8 d.cfg 0 == 3 | none => false
    let s := match p.head with
      | some x => s.updDec key fun d => { d with dpb := if x.unit.fresh then [] else d.keep q.s (some x.data) }
      | none => s
    (s.outputPicture key q u ref).updDec key fun d => { d with
      newest := tset d.newest (q.s * 8 + q.t) q
      dpb := match u with
        | some u => if ref then { pic := q, num := if u.fresh && !u.rap then 0 else u.num, there := true } :: d.dpb else d.dpb
        | none => d.dpb }

/-- The pictures finished in order: closed, with no slice with the dispatcher. -/
def State.finishPictures (key : Nat) : Nat → State → State
  | 0, s => s
  | f + 1, s =>
    match (s.dec key).bind (·.pics.head?) with
    | none => s
    | some p => if !p.closed || !p.slices.isEmpty then s else State.finishPictures key f (s.finishPicture key p)

/-- The space of a slice in the syntax buffer free (R293). -/
def State.freeSyntax (s : State) (key p n : Nat) : State :=
  s.updDec key fun d => { d with
    syntax_ := tdel d.syntax_ (p * 65536 + n), overflow := d.overflow.filter (· != p * 65536 + n) }

/-- Slice `n` of picture `p` is decoded no more. -/
def State.dropSlice (s : State) (key p n : Nat) : State :=
  (s.freeSyntax key p n).updPic key p fun q => { q with slices := tdel q.slices n, lost := true, pic := { q.pic with concealed := true } }

/-- The slice of a picture being decoded. -/
def Decode.slice (d : Decode) (p n : Nat) : Option (DecPic × Slice) :=
  (d.pics.find? fun q => q.pic.id == p).bind fun q => (tget? q.slices n).map fun x => (q, x)

/-- The cause of an item's end other than DONE (R313): poison, a syntax error, or ENGINE. -/
def endCause (st res : Nat) : Nat := if st = 5 then (if res = 7 then 7 else 2) else 8

/-- The bytes of the syntax buffer that are in use: those of slices whose Jasper item has not ended (R293). -/
def State.syntaxHeld (s : State) (key : Nat) (d : Decode) : Nat :=
  let freed (e : Nat × Nat) : Bool := s.work.items.any fun i =>
    i.job == .video 1 (kidx key) (e.1 / 65536) (e.1 % 65536) && match i.st with | .ended _ _ => true | _ => false
  ((d.syntax_.filter fun e => !freed e).map (·.2)).sum

/-- An Agate item ends: the syntax it has written takes its place in the buffer, or has found none (R293). -/
def State.agateWrote (s : State) (i : Item) : State :=
  match i.job with
  | .video 0 leg p n =>
    match s.dec (okey 3 leg) with
    | none => s
    | some d =>
      match (d.slice p n).bind fun e => Config.sliceSyntax (u8 d.cfg 0) e.2.data with
      | none => s
      | some syn => s.updDec (okey 3 leg) fun d =>
          if syntaxSize d.cfg < s.syntaxHeld (okey 3 leg) d + syn.length then { d with overflow := (p * 65536 + n) :: d.overflow }
          else { d with syntax_ := tset d.syntax_ (p * 65536 + n) syn.length }
  | _ => s

/-- An Agate item of a decode released: its syntax goes to Jasper (R289, R293). -/
def State.agateEnd (s : State) (key p n st res : Nat) : State :=
  match s.dec key with
  | none => s
  | some d =>
    match d.slice p n with
    | none => s.freeSyntax key p n
    | some (q, x) =>
      let lose (cause : Nat) : State := State.finishPictures key d.pics.length ((s.dropSlice key p n).loseSlice key cause q.pic.ts)
      if st ≠ 0 then lose (endCause st res)
      else
        match Config.sliceSyntax (u8 d.cfg 0) x.data with
        | none => lose 2
        | some syn => if d.overflow.contains (p * 65536 + n) then lose 3 else s.decodeItem key 1 p n syn

/-- A slice of a picture decoded: its syntax kept, its space free, and what `f` does to the picture. -/
def State.sliceDone (s : State) (key p n layer : Nat) (syn : Bytes) (f : DecPic → DecPic) : State :=
  ((s.freeSyntax key p n).updDec key fun d => d.bump 8 1).updPic key p fun q =>
    f { q with slices := tdel q.slices n, syn := tset q.syn n (layer, syn) }

/-- A Jasper item of a decode released: the slice is in the picture store, its missing references substituted (R295, R308, R309). A slice
of a lower layer of SVC predicts the target layer by its syntax, and its pixels are not reconstructed (R302). -/
def State.jasperEnd (s : State) (key p n st res : Nat) (syn : Bytes) : State :=
  match s.dec key with
  | none => s
  | some d =>
    match d.slice p n with
    | none => s.freeSyntax key p n
    | some (q, x) =>
      if st ≠ 0 then State.finishPictures key d.pics.length ((s.dropSlice key p n).loseSlice key (endCause st res) q.pic.ts)
      else if x.unit.s < q.pic.s then State.finishPictures key d.pics.length (s.sliceDone key p n x.unit.s syn id)
      else
        let s := s.placePicture key p
        match s.dec key with
        | none => s
        | some d =>
          let codec := u8 d.cfg 0
          let found : List (Int × Option Picture) := (Config.sliceRefs codec x.data (d.entries q.pic.s)).map fun r =>
            (r.1, r.2.bind fun i => (d.dpb.find? fun (y : RefPic) => y.pic.id == i && y.there).map RefPic.pic)
          let sub := d.substitute
          let s := s.missRefs key p ((found.filter (·.2.isNone)).map (·.1))
          let data := storeSamples q.pic.depth (Config.pixels codec syn q.pic.data (found.map fun (y : Int × Option Picture) =>
            match y.2 with | some y => y.data | none => substituteData sub q.pic.w q.pic.h q.pic.depth)
            ((q.syn.filter fun e => e.2.1 < q.pic.s).map (·.2.2)))
          let soiled := found.any fun y => match y.2 with | some y => y.concealed | none => true
          State.finishPictures key d.pics.length (s.sliceDone key p n x.unit.s syn fun y => { y with
            done := x.unit.runs ++ y.done,
            pic := { y.pic with
              data := mergeBlocks y.pic.w y.pic.h y.pic.depth (inRuns x.unit.runs) data y.pic.data, rows := rowsOf y.pic.w (x.unit.runs ++ y.done),
              concealed := y.pic.concealed || soiled } })

/-! ### Depacketising (R305, R306, R318) -/

/-- A whole slice (R289): to Agate, or held while a RAP is awaited. -/
def State.wholeSlice (s : State) (key : Nat) (x : Slice) : State :=
  match s.dec key with
  | none => s
  | some d =>
    if d.taken then s.putSlice key x (d.ts.getD 0)
    else if d.st = 1 ∧ (x.unit.rap || decide (x.unit.s < d.sT)) then s.updDec key fun d => { d with held := d.held ++ [x] }
    else s

/-- The slice being received is lost; `rest` where packets of it may follow, which are passed over. -/
def State.loseOpen (s : State) (key : Nat) (rest : Bool) : State :=
  match s.dec key with
  | none => s
  | some d => (s.updDec key fun d => { d with open_ := none, hole := rest }).loseSlice key 1 (d.ts.getD 0)

/-- The slice being collected ends: whole, or lost where its end is missing. -/
def State.endSlice (s : State) (key : Nat) : State :=
  match (s.dec key).bind (·.open_) with
  | none => s
  | some o =>
    if !o.whole then s.loseOpen key false
    else (s.updDec key fun d => { d with open_ := none }).wholeSlice key { unit := o.unit, data := o.data, at_ := o.at_ }

/-- Packets of the picture being received are missing, and the next one goes on with a slice begun before (`k` 2), with a dependent
segment of one (`k` 1), or with neither (`k` 0). Either the slice being collected lacks them or a slice between does; where a dependent
segment follows, it is taken for one of the slice being collected (log entry 97). -/
def State.missed (s : State) (key k : Nat) : State :=
  match s.dec key with
  | none => s
  | some d =>
    match d.open_ with
    | some o => if !o.whole || k = 1 then s.loseOpen key (k != 0) else (s.endSlice key).loseOpen key (k != 0)
    | none => if d.hole then s else s.loseOpen key (k != 0)

/-- Whole slices of a layer that cover its picture; of a layer whose parameter set has not come, what is declared for the target layer
is taken. -/
def Decode.layerWhole (d : Decode) (us : List NalUnit) (s : Nat) : Bool :=
  match us.filter (·.s == s) with
  | [] => s != d.sT
  | u :: r =>
    let runs := (u :: r).flatMap (·.runs)
    match d.setOf u with
    | some q => wholeRuns q.w q.h runs
    | none => s != d.sT || wholeRuns d.size.1 d.size.2.1 runs

/-- Whole slices cover a picture of every layer up to the target. -/
def Decode.covered (d : Decode) (us : List NalUnit) : Bool := (List.range (d.sT + 1)).all (d.layerWhole us)

/-- The slices held make a RAP (R304): none lost, the target layer there and of a RAP, every layer whole, and their parameter sets ones
that may be decoded. -/
def Decode.heldRap (d : Decode) : Option NalUnit :=
  let us := d.held.map (·.unit)
  if !d.bad && (us.all fun u => (u.s != d.sT || u.rap) && d.setGood u) && d.covered us then us.find? (·.s == d.sT) else none

/-- A picture's last packet has been seen: a slice left open ends; a RAP received whole ends WAIT_RAP (Table 9.4), and RASL pictures
after it are passed over (R301); a picture of which nothing of the target layer came is none of the decode's (R302). -/
def State.closePicture (s : State) (key : Nat) : State :=
  let s := s.endSlice key
  match s.dec key with
  | none => s
  | some d =>
    let ts := d.ts.getD 0
    if d.st = 1 ∧ !d.taken then
      let s := match d.heldRap with
        | some u =>
          let s := ((s.updDec key fun d => { d with st := 2, episode := none, began := none, forced := none }).openPicture key ts u).reachTarget key u
          let s := (d.held.foldl (fun (s : State) x => s.putSlice key x ts) s).updLast key fun q => { q with closed := true }
          s.updDec key fun d => { d with skipRasl := true }
        | none => s
      s.updDec key fun d => { d with held := [], bad := false, seen := 0 }
    else
      let here := match d.pics.getLast? with | some q => if d.seen = 0 || q.closed then none else some q | none => none
      let lost := match here with | some q => d.bad || !d.covered q.got | none => false
      let s := match here with
        | some _ =>
          if d.seen = 1 && !d.bad then s.updDec key fun d => { d with pics := d.pics.dropLast }
          else s.updLast key fun q => { q with closed := true, lost := q.lost || lost }
        | none => s
      let rap := match here with | some q => q.rap && !lost | none => false
      let s := s.updDec key fun d => { d with bad := false, taken := false, seen := 0, episode := if rap then none else d.episode }
      State.finishPictures key d.pics.length s

/-- An arrival lies after a moment, in CLK_PKT cycles (R305). -/
def afterCycle (t m : Nat) : Bool := decide (6 * m / 5 < 6 * t / 5)

/-- The first packet of a picture, which arrived at `t` (R303, R305): targets fall at once. -/
def State.beginPicture (s : State) (key ts t : Nat) : State :=
  let s := s.updDec key fun d => { d with
    ts := some ts, ended := false, arm := false, began := if d.arm then some t else d.began, bad := false, hole := false, data := false, seen := 0,
    taken := d.st != 1, sT := min d.sT (u8 d.cfg 22), tT := min d.tT (u8 d.cfg 23) }
  match s.dec key with
  | none => s
  | some d =>
    match d.forced with
    | some m =>
      if d.st = 1 ∧ afterCycle t m then
        (s.updDec key fun d => { d with st := 3, forced := none, began := none, taken := true, owe := true, run := 0 }).episode key
      else s
    | none => s

/-- A sequence parameter set received (R286, R318): kept for the RAP that activates it; one outside Table 9.1, or one of the target layer
beyond the declaration, sends the decode to WAIT_RAP. -/
def State.feedSet (s : State) (key : Nat) (u : NalUnit) (q : StreamParams) : State :=
  match s.dec key with
  | none => s
  | some d =>
    if max d.sT (u8 d.cfg 22) < u.s then s
    else
      let s := s.updDec key fun d => { d with sets := tset d.sets (paramKey u.s u.set) q }
      if !paramsOk q (u8 d.cfg 0) u.s then s.badParams key 4 (d.ts.getD 0)
      else if u.s = u8 d.cfg 22 ∧ !paramsFit q d.cfg then s.badParams key 5 (d.ts.getD 0)
      else s

/-- A picture parameter set received (R287). -/
def State.feedPicSet (s : State) (key : Nat) (u : NalUnit) (q : PicParams) : State :=
  match s.dec key with
  | none => s
  | some d =>
    if max d.sT (u8 d.cfg 22) < u.s then s
    else
      let s := s.updDec key fun d => { d with pps := tset d.pps u.set q }
      if picOk q then s else s.badParams key 4 (d.ts.getD 0)

/-- The temporal target at the first slice data of a picture (R303): it rises to what is declared at an IDR or IRAP picture and at a
switching point to every higher layer, and to the layer of an STSA picture next above it. -/
def Decode.rise (d : Decode) (u : NalUnit) : Decode :=
  let want := u8 d.cfg 23
  { d with data := true, tT :=
      if u.rap || (u.upAll && decide (u.t ≤ d.tT + 1)) then max d.tT want
      else if u.up && u.t == d.tT + 1 && decide (u.t ≤ want) then u.t else d.tT }

/-- A unit of slice data that the decode's targets take (R287, R302). The temporal target is no matter for AVC. RASL pictures of the IRAP
picture that decoding began at are passed over (R301). -/
def Decode.takes (d : Decode) (u : NalUnit) : Bool :=
  u.quality == 0 && decide (u.s ≤ d.sT) && (u8 d.cfg 0 == 1 || decide (u.t ≤ d.tT)) && !(u.rasl && d.skipRasl)

/-- The picture of a unit that is taken, in the store (R303). A RAP whose parameter sets are outside Table 9.1 or beyond the declaration
is none. -/
def State.enterPicture (s : State) (key : Nat) (u : NalUnit) : State :=
  match s.dec key with
  | none => s
  | some d =>
    if !d.taken then s
    else if u.rap ∧ !d.setGood u then
      s.badParams key (if d.setOk u then 5 else 4) (d.ts.getD 0)
    else
      let s := if d.seen = 0 then (s.openPicture key (d.ts.getD 0) u).updDec key fun d => { d with seen := 1 } else s
      if u.s = d.sT ∧ d.seen < 2 then s.reachTarget key u else s

/-- Slice data of the picture being received, arrived at `t`: a NAL unit or fragment of one, added to its slice. A slice of HEVC may go on
in dependent segments, so the next slice or the picture's end tells that it has ended (R289). The fragments of a slice whose first has not
come are passed over, the slice being lost. -/
def State.feedSlice (s : State) (key t : Nat) (u : NalUnit) (b : Bytes) : State :=
  let s := s.enterPicture key u
  let hevc := match s.dec key with | some d => u8 d.cfg 0 == 3 | none => false
  let starts := u.first && !(hevc && u.dependent)
  let s := if starts then (s.endSlice key).updDec key fun d => { d with hole := false } else s
  match s.dec key with
  | none => s
  | some d =>
    let put (o : OpenSlice) : State :=
      let s := s.updDec key fun d => { d with open_ := some o }
      if u.last && !hevc then s.endSlice key else s
    match d.open_ with
    | none => if starts then put { unit := u, data := b, at_ := t, whole := u.last } else if d.hole then s else s.loseOpen key true
    | some o =>
      if u.first = o.whole then
        put { data := o.data ++ b, at_ := t, whole := u.last,
              unit := if u.first then { o.unit with runs := o.unit.runs ++ u.runs } else o.unit }
      else (if o.whole then s.endSlice key else s).loseOpen key true

/-- One NAL unit, or fragment, of a packet in order, arrived at `t`. A unit of a quality layer is discarded and counted (R287); an
IDR picture of the dependency layer asked for raises the spatial target (R303). -/
def State.feedUnit (s : State) (key t : Nat) (u : NalUnit) (b : Bytes) : State :=
  match u.params, u.pic with
  | some q, _ => s.feedSet key u q
  | none, some q => s.feedPicSet key u q
  | none, none =>
    if !u.slice then s
    else
      let s := s.updDec key fun d =>
        let d := if 0 < u.quality ∧ u.first then d.bump 48 1 else d
        let d := if d.data then d else d.rise u
        if d.sT < u.s ∧ u.s = u8 d.cfg 22 ∧ u.rap ∧ u.quality = 0 then { d with sT := u.s, seen := min d.seen 1 } else d
      match s.dec key with
      | none => s
      | some d => if d.takes u then s.feedSlice key t u b else s

/-- What a packet goes on with, by its first unit of slice data (`State.missed`). -/
def goesOn (us : List NalUnit) : Nat :=
  match us.find? (·.slice) with | some u => if !u.first then 2 else if u.dependent then 1 else 0 | none => 0

/-- A packet in sequence order, `gap` where those before it have been given up: its picture begun, its units taken, and the picture closed
by its marker. Missing packets are of the picture before where its marker has not come. -/
def State.feedPacket (s : State) (key ts t : Nat) (marker gap : Bool) (b : Bytes) : State :=
  match s.dec key with
  | none => s
  | some d =>
    let (pre, us) := withPrefix (u8 d.cfg 0) (if gap then none else d.prefix_) (if b.isEmpty then [] else Config.nalUnits (u8 d.cfg 0) b)
    let s := s.updDec key fun d => { d with prefix_ := pre }
    let anew := d.ts != some ts
    let before := gap && anew && d.ts.isSome && !d.ended
    let s := if before then s.missed key 0 else s
    let s := if anew then (s.closePicture key).beginPicture key ts t else s
    let s := if gap && !(before && goesOn us == 0) then s.missed key (goesOn us) else s
    let s := us.zipIdx.foldl (fun s e => s.feedUnit key t e.1 (Config.nalBytes (u8 d.cfg 0) b e.2)) s
    if marker then (s.closePicture key).updDec key fun d => { d with ended := true } else s

/-- A payload begins a slice. -/
def beginsSlice (codec : Nat) (b : Bytes) : Bool := (Config.nalUnits codec b).any fun u => u.slice && u.first && !u.dependent

/-- The packets that have come in order taken from the buffer. Numbers still missing before a packet that begins a slice are given up: it
is of a later slice than they are, or of the one they begin (R306). -/
def State.feedReady (key : Nat) : Nat → Bool → State → State
  | 0, _, s => s
  | f + 1, gap, s =>
    match s.dec key with
    | none => s
    | some d =>
      let e := d.expect.getD 0
      match d.buf.find? fun x => x.1 == e with
      | some (q, ts, m, t, b) =>
        let s := s.updDec key fun d => { d with expect := some ((q + 1) % 65536), buf := d.buf.filter fun x => x.1 != q }
        State.feedReady key f false (s.feedPacket key ts t m gap b)
      | none =>
        if d.buf.any fun x => beginsSlice (u8 d.cfg 0) x.2.2.2.2 then
          let ahead (n : Nat) : Nat := (n + 65536 - e) % 65536
          let low := d.buf.foldl (fun m x => if ahead x.1 < ahead m then x.1 else m) ((e + 65535) % 65536)
          State.feedReady key f true (s.updDec key fun d => { d with expect := some low })
        else s

/-- A packet of the decoded stream (R306): taken in order. The first to come of a later picture shows that a slice which lacks its end is
lost, though numbers of it may still come. -/
def State.decodeFeed (s : State) (key seq ts t : Nat) (marker : Bool) (b : Bytes) : State :=
  match s.dec key with
  | none => s
  | some d =>
    if d.st = 0 ∨ !s.flows key then s
    else
      let e := d.expect.getD seq
      if 32768 ≤ (seq + 65536 - e) % 65536 then s
      else
        let s := s.updDec key fun d => { d with expect := some e, buf := d.buf ++ [(seq, ts, marker, t, b)] }
        let cut := match d.open_ with | some o => seq != e && d.ts != some ts && !o.whole | none => false
        let s := if cut then s.loseOpen key true else s
        State.feedReady key (2 * (d.buf.length + 1)) false s

/-- DECODE_START_TIMEOUT: the start timeout has passed in WAIT_RAP; the next picture is decoded (R305). -/
def execDecodeStartTimeout (leg : Nat) (s : State) : Host.Outcome State Fault Refusal :=
  let key := okey 3 leg
  match s.dec key with
  | some d =>
    match d.began with
    | some t =>
      if d.st = 1 ∧ u8 d.cfg 25 ≠ 0 ∧ t + u8 d.cfg 25 * 100000000 ≤ s.now then
        .next (s.updDec key fun d => { d with forced := some (t + u8 d.cfg 25 * 100000000), began := none })
      else .next s
    | none => .next s
  | none => .next s

/-! ### Commands (Table 9.6) -/

/-- The fields of DecodeSet (Table 9.7, R296). -/
def decodeOk (p : Bytes) : Bool :=
  let c := u8 p 0
  decide (1 ≤ c) && decide (c ≤ 3) && (u8 p 1 == 1 || u8 p 1 == 2) && (u8 p 2 == 8 || (u8 p 2 == 10 && c == 3)) && decide (1 ≤ u8 p 3) &&
  decide (u8 p 3 ≤ 16) && decide (16 ≤ u16 p 4) && decide (u16 p 4 ≤ 4096) && u16 p 4 % 2 == 0 && decide (16 ≤ u16 p 6) &&
  decide (u16 p 6 ≤ 2304) && u16 p 6 % 2 == 0 && decide (1000 ≤ u32 p 8) && decide (u32 p 8 ≤ 60000) && decide (1 ≤ u32 p 12) &&
  decide (u32 p 12 ≤ 300000) && decide (1 ≤ u32 p 16) && decide (u32 p 16 ≤ 8000000) && decide (1 ≤ u16 p 20) && decide (u16 p 20 ≤ 36864) &&
  (if c = 2 then decide (u8 p 22 ≤ 2) else u8 p 22 == 0) &&
  decide (u8 p 23 ≤ (if c = 2 then 3 else if c = 3 then 6 else 0)) && decide (u8 p 24 ≤ 3) && decide (u8 p 25 ≤ 100) && decide (u8 p 26 ≤ 1) &&
  zeros p 27 5 && (u8 p 26 == 0 || (decide (u16 p 20 ≤ 960) && decide (u32 p 16 ≤ 180000)))

/-- The syntax buffer of a leg (R292): the larger of those of its last DecodeSet and of the decode that still runs. -/
def VLeg.syntaxBuffer (l : VLeg) : Nat :=
  max ((l.decl.map syntaxSize).getD 0) ((l.decode.map fun d => syntaxSize d.cfg).getD 0)

/-- The free part of the syntax area of 1 GiB (R292), a leg's own buffer left out. -/
def State.syntaxFree (s : State) (key : Nat) : Nat :=
  2 ^ 30 - ((s.video.legs.filter fun e => okey 3 e.1 != key).map fun e => e.2.syntaxBuffer).sum

/-- The own part of DecodeSet (R292, R319, R320). -/
def effDecodeSet (r : Req) (s : State) : Eff :=
  let p := r.payload
  s.withHandle r.tgt [0x03] fun key =>
  match s.vleg key with
  | none => .fail .noSuchObject []
  | some l =>
    need (l.sending && decodeOk p) .invalidArg (
    need (decide (syntaxSize p ≤ s.syntaxFree key)) .noResource (
    s.admission (decodeCost p) ((l.decl.map decodeCost).getD []) fun s dec =>
      let s := (s.updVleg key fun l => { l with decl := some p }).updObj key fun o => { o with cost := plusCost (vlegCost l.cfg) (decodeCost p) }
      let s := s.releaseAt (.picture (kidx key) s.now) dec
      .later [] r.tgt (s.schedule (.picture (kidx key) s.now) (r.origin r.tgt) (.decodeSet key p))))

/-- DECODE_SET. -/
def execDecodeSet (r : Req) (s : State) : Host.Outcome State Fault Refusal :=
  .next (s.command 0x0420 (· == 32) r (effDecodeSet r))

/-- The own part of DecodeClear (R320): its budget is released at the leg's frame boundary (R116). -/
def effDecodeClear (r : Req) (s : State) : Eff :=
  s.withHandle r.tgt [0x03] fun key =>
  match s.vleg key with
  | none => .fail .noSuchObject []
  | some l =>
    need l.sending .invalidArg (
    match l.decl with
    | none => .fail .wrongState []
    | some p =>
      let s := (s.updVleg key fun l => { l with decl := none }).updObj key fun o => { o with cost := vlegCost l.cfg }
      let s := s.releaseAt (s.legBound key) (decodeCost p)
      .later [] r.tgt (s.schedule (s.legBound key) (r.origin r.tgt) (.decodeClear key)))

/-- DECODE_CLEAR. -/
def execDecodeClear (r : Req) (s : State) : Host.Outcome State Fault Refusal :=
  .next (s.command 0x0421 (· == 0) r (effDecodeClear r))

/-- The own part of DecodeStatsGet (Table 9.9). -/
def effDecodeStatsGet (r : Req) (s : State) : Eff :=
  s.withHandle r.tgt [0x03] fun key =>
  match s.vleg key with
  | none => .fail .noSuchObject []
  | some l =>
    need l.sending .invalidArg (
    let g (o : Nat) : Nat := match l.decode with | some d => tget 0 d.stats o | none => 0
    .done (le 8 (g 0) ++ le 8 (g 8) ++ le 4 (g 16) ++ le 4 (g 20) ++ le 4 (g 24) ++ le 4 (g 28) ++ le 4 (g 32) ++ le 4 (g 36) ++ le 4 (g 40) ++
      le 1 ((l.decode.map (·.st)).getD 0) ++ le 3 0) r.tgt s)

/-- DECODE_STATS_GET. -/
def execDecodeStatsGet (r : Req) (s : State) : Host.Outcome State Fault Refusal :=
  .next (s.command 0x0423 (· == 0) r (effDecodeStatsGet r))

/-- A DecodeSet takes effect (R320, R321, Table 9.4). -/
def State.applyDecode (s : State) (key : Nat) (p : Bytes) : State :=
  match s.vleg key with
  | none => s
  | some l =>
    match l.decode with
    | none => (s.updVleg key fun l => { l with decode := some (Decode.new p) }).episode key
    | some d =>
      let anew := u8 p 0 != u8 d.cfg 0 || u8 p 2 != u8 d.cfg 2 || u8 p 3 != u8 d.cfg 3 || u16 p 4 != u16 d.cfg 4 || u16 p 6 != u16 d.cfg 6
      let s := s.updDec key fun d => 
        if anew then { d.flush true with cfg := p, active := none, sT := u8 p 22, tT := u8 p 23, episode := none }
        else { d with cfg := p }
      -- a changed policy applies from the next request, which may be due now
      if anew then s.episode key else if u8 p 24 != u8 d.cfg 24 then s.repeatRequest key else s

/-- A DecodeClear takes effect. -/
def State.clearDecode (s : State) (key : Nat) : State :=
  s.updVleg key fun l => { l with decode := none, deferred := l.deferred.filter fun q => q.why != 0 }

end Sys2Proof.Machine
end

