-- ==== Sys2Proof/Machine/Crc.lean ====
section
/-!
DEFINITION. The four programmable CRC units (R682 to R688): ownership, the computation and the DMA run.
-/

namespace Sys2Proof.Machine

/-- A CRC unit. -/
def State.crcUnit (s : State) (u : Nat) : CrcUnit := tget CrcUnit.reset s.crc u

/-- A CRC unit changed. -/
def State.updCrc (s : State) (u : Nat) (f : CrcUnit → CrcUnit) : State := { s with crc := tset s.crc u (f (s.crcUnit u)) }

/-- The low `w` bits. -/
def lowMask (w : Nat) : BitVec 64 := BitVec.ofNat 64 (2 ^ w - 1)

/-- The low `n` bits of a value reversed. -/
def reflect (v : BitVec 64) (n : Nat) : BitVec 64 :=
  (List.range n).foldl (fun a i => if v.getLsbD i then a ||| BitVec.ofNat 64 (2 ^ (n - 1 - i)) else a) 0

/-- One bit of `feed` (R685). -/
def CrcUnit.feedBit (x : CrcUnit) (r : BitVec 64) (b : Bool) : BitVec 64 :=
  let top := r.getLsbD (x.width - 1) != b
  let r := (r <<< 1) &&& lowMask x.width
  if top then r ^^^ (x.poly &&& lowMask x.width) else r

/-- `feed` (R685). -/
def CrcUnit.feed (x : CrcUnit) (b : Byte) : CrcUnit :=
  let b := if x.refin then (reflect (b.setWidth 64) 8).setWidth 8 else b
  { x with r := [7, 6, 5, 4, 3, 2, 1, 0].foldl (fun r i => x.feedBit r (b.getLsbD i)) x.r }

/-- `start` (R685): the register loaded and the fold processed. -/
def CrcUnit.start (x : CrcUnit) : CrcUnit :=
  let init := x.init &&& lowMask x.width
  let x := { x with r := if x.refout then reflect init x.width else init, dead := false }
  (List.range x.foldLen).foldl (fun x i => x.feed ((x.fold >>> (8 * i)).setWidth 8)) x

/-- `result` (R685). -/
def CrcUnit.result (x : CrcUnit) : BitVec 64 :=
  if x.dead then 0 else ((if x.refout then reflect x.r x.width else x.r) ^^^ x.xorout) &&& lowMask x.width

/-- The owner code of a requester (Table 22.4): functions 0 to 3, and 7 for firmware. -/
def ownerCode (fn : Nat) : Option Nat := if fn < 4 then some (fn + 1) else if fn = 7 then some 8 else none

/-- A write by a requester: its owner's reaches the unit, any other is ignored and sets IGNORED (R683). -/
def State.crcOwned (s : State) (fn u : Nat) (f : CrcUnit → CrcUnit) : State :=
  if some (s.crcUnit u).owner = ownerCode fn then s.updCrc u f else s.updCrc u fun x => { x with ignored := true }

/-- A CRC event of a requester and a unit that exist. -/
def crcEvent (fn u : Nat) (s : State) : Host.Outcome State Fault Refusal :=
  if 4 ≤ u ∨ (ownerCode fn).isNone then .fault .noSuchUnit else .next s

/-- CLAIM (R683): a free unit is the writer's, its register in the reset state (R686). Firmware claims in BOOT and CALIBRATE
alone (R684). -/
def State.crcClaim (s : State) (fn u : Nat) : State :=
  match ownerCode fn with
  | none => s
  | some c =>
    if (s.crcUnit u).owner = 0 ∧ (c ≠ 8 ∨ s.mode = .boot ∨ s.mode = .calibrate) then
      s.updCrc u fun x => { x with owner := c, r := CrcUnit.reset.r, dead := false }
    else s

/-- CRC_CLAIM. -/
def execCrcClaim (fn u : Nat) (s : State) : Host.Outcome State Fault Refusal := crcEvent fn u (s.crcClaim fn u)

/-- A unit freed (R684): a DMA run stops and RESULT reads 0 until the next START. -/
def CrcUnit.free (x : CrcUnit) : CrcUnit := { x with owner := 0, busy := false, dead := x.dead || x.busy }

/-- RELEASE by the owner (R684). -/
def State.crcRelease (s : State) (fn u : Nat) : State :=
  if some (s.crcUnit u).owner = ownerCode fn then s.updCrc u CrcUnit.free else s

/-- CRC_RELEASE. -/
def execCrcRelease (fn u : Nat) (s : State) : Host.Outcome State Fault Refusal := crcEvent fn u (s.crcRelease fn u)

/-- Every unit of an owner freed. -/
def State.crcReleaseAll (s : State) (owner : Nat) : State :=
  { s with crc := tmap s.crc fun _ x => if x.owner = owner then x.free else x }

/-- A write while BUSY is ignored and sets IGNORED (R686, R688). -/
def CrcUnit.idle (f : CrcUnit → CrcUnit) (x : CrcUnit) : CrcUnit := if x.busy then { x with ignored := true } else f x

/-- CRC_START (R685, R688). -/
def execCrcStart (fn u : Nat) (s : State) : Host.Outcome State Fault Refusal :=
  crcEvent fn u (s.crcOwned fn u (CrcUnit.idle CrcUnit.start))

/-- Bytes fed in order. -/
def CrcUnit.feedAll (x : CrcUnit) (d : Bytes) : CrcUnit := d.foldl CrcUnit.feed x

/-- CRC_DATA (R686). -/
def execCrcData (fn u : Nat) (data : Bytes) (s : State) : Host.Outcome State Fault Refusal :=
  crcEvent fn u (s.crcOwned fn u (CrcUnit.idle fun x => x.feedAll (data.take 4)))

/-- DMA_GO (R687): a length of 0 sets DONE at once. -/
def CrcUnit.go (x : CrcUnit) : CrcUnit := if x.dmaLen = 0 then { x with done := true } else { x with busy := true }

/-- CRC_DMA_GO. -/
def execCrcDmaGo (fn u : Nat) (s : State) : Host.Outcome State Fault Refusal :=
  crcEvent fn u (s.crcOwned fn u (CrcUnit.idle CrcUnit.go))

/-- The end of a DMA run (R687): its bytes fed and DONE, or DMA_ERR and a result that is not valid, a free value. -/
def State.crcDmaEnd (s : State) (u : Nat) (res : DmaResult) : State :=
  if !(s.crcUnit u).busy then s
  else
    match res with
    | .data d => s.updCrc u fun x => { x.feedAll (d.take x.dmaLen.toNat) with busy := false, done := true }
    | .failed _ =>
      let (f, s) := s.draw
      s.updCrc u fun x => { x with busy := false, dmaErr := true, r := f &&& lowMask x.width }

/-- CRC_DMA_DONE. -/
def execCrcDmaDone (u : Nat) (res : DmaResult) (s : State) : Host.Outcome State Fault Refusal :=
  if 4 ≤ u then .fault .noSuchUnit else .next (s.crcDmaEnd u res)

end Sys2Proof.Machine
end

