-- ==== Sys2Proof/Machine/Chain.lean ====
section
/-!
DEFINITION. The management chain (R621 to R628): chain frames as a device receives, answers and forwards them. The
doorbell's GO stands with the mailboxes, and the chain reset with the resets.
-/

namespace Sys2Proof.Machine

/-- One bit of the CRC-8 of R624, polynomial 0x07. -/
def crc8Bit (c : BitVec 8) : BitVec 8 := if c.getLsbD 7 then (c <<< 1) ^^^ 0x07#8 else c <<< 1

/-- One byte of it. -/
def crc8Byte (c b : BitVec 8) : BitVec 8 :=
  crc8Bit (crc8Bit (crc8Bit (crc8Bit (crc8Bit (crc8Bit (crc8Bit (crc8Bit (c ^^^ b))))))))

/-- CRC-8 with initial value 0 (R624). -/
def crc8 (b : Bytes) : BitVec 8 := b.foldl crc8Byte 0

/-- The data length of a chain frame (Table 20.1). -/
def chainLen (f : Bytes) : Nat := bfld f 3 2

/-- The data of a chain frame. -/
def chainData (f : Bytes) : Bytes := (f.drop 5).take (chainLen f)

/-- The FCRC of a chain frame matches. -/
def fcrcOk (f : Bytes) : Bool := f.getD (5 + chainLen f) 0 == crc8 ((f.drop 1).take (4 + chainLen f))

/-- The SCRC of a chain frame matches. -/
def scrcOk (f : Bytes) : Bool := f.getD (7 + chainLen f) 0 == crc8 [f.getD (6 + chainLen f) 0]

/-- A CRC regenerated over changed bytes, spoilt where the incoming one did not match (R624). -/
def regen (ok : Bool) (c : BitVec 8) : BitVec 8 := if ok then c else c ^^^ 0xFF#8

/-- A frame with new data, its FCRC regenerated where the data changed. -/
def withData (f d : Bytes) : Bytes :=
  if d = chainData f then f
  else poke (poke f 5 d) (5 + chainLen f) [regen (fcrcOk f) (crc8 ((f.drop 1).take 4 ++ d))]

/-- A frame with a status written, its SCRC regenerated. -/
def withStatus (f : Bytes) (st : Nat) : Bytes :=
  if f.getD (6 + chainLen f) 0 = BitVec.ofNat 8 st then f
  else poke f (6 + chainLen f) [BitVec.ofNat 8 st, regen (scrcOk f) (crc8 [BitVec.ofNat 8 st])]

/-- The chain side changed. -/
def State.updNmc (s : State) (f : Nmc → Nmc) : State := { s with nmc := f s.nmc }

/-- A chain frame of command `cmd` at this device (R623 to R626): forwarded, and acted on where it is for this device, its
FCRC matches and Table 20.2 allows it. `bcast` says that the command is a broadcast one; `act` gives the new state, the
data sent on and the status. -/
def State.chainFrame (s : State) (cmd : Nat) (bcast : Bool) (lenOk : Nat → Bool) (f : Bytes)
    (act : State → Bytes → State × Bytes × Nat) : State :=
  let n := chainLen f
  let a := u8 f 1 % 32
  if s.sys.mode = .reset then s
  else if u8 f 0 ≠ 0x5A ∨ f.length ≠ 8 + n ∨ u8 f 1 / 32 ≠ cmd ∨ (a ≠ 0 ∧ a ≠ s.nmc.addr) then s.emit (.chain f)
  else
    let answer (s : State) (f : Bytes) (st : Nat) : State :=
      if a ≠ 0 ∨ (st ≠ 0 ∧ u8 f (6 + n) = 0xFF) then s.emit (.chain (withStatus f st)) else s.emit (.chain f)
    if !fcrcOk f then
      answer (s.updNmc fun x => { x with fcrcErr := if x.fcrcErr = 0xFFFF then 0xFFFF else x.fcrcErr + 1 }) f 1
    else if (a == 0) != bcast || !lenOk n || decide (256 < u8 f 2 + n) then answer s f 2
    else
      let (s, d, st) := act (s.updNmc fun x => { x with acted := x.acted + 1 }) (chainData f)
      answer s (withData f d) st

/-- A device in a cascade or a trio keeps its chain address (R628). -/
def State.addrLocked (s : State) : Bool :=
  match s.role with
  | .cascadeMaster | .cascadeMember | .trioLeader | .trioFollower => true
  | _ => false

/-- ENUMERATE: the next address taken and passed on (R627, R628). -/
def execEnumerate (frame : Bytes) (s : State) : Host.Outcome State Fault Refusal :=
  .next (s.chainFrame 0 true (· == 1) frame fun s d =>
    let c := u8 d 0
    let next := if 1 ≤ c ∧ c ≤ 31 then le 1 (c + 1) else d
    if s.addrLocked then (s, next, 5)
    else
      let a := if 1 ≤ c ∧ c ≤ 31 then c else 0
      (s.updNmc fun x => { x with addr := a, enumerated := a != 0 }, next, 0))

/-- WINDOW_WRITE: bytes written into an IDLE window (R625, R626). -/
def execWindowWrite (frame : Bytes) (s : State) : Host.Outcome State Fault Refusal :=
  .next (s.chainFrame 1 false (fun n => decide (n ≤ 256)) frame fun s d =>
    if s.nmc.wstate = .idle then
      (s.updNmc fun x => { x with window := poke (padTo 256 x.window) (u8 frame 2) d }, d, 0)
    else (s, d, 3))

/-- WINDOW_READ: the data replaced by window bytes (Table 20.2). -/
def execWindowRead (frame : Bytes) (s : State) : Host.Outcome State Fault Refusal :=
  .next (s.chainFrame 2 false (fun n => decide (n ≤ 256)) frame fun s d =>
    (s, ((padTo 256 s.nmc.window).drop (u8 frame 2)).take d.length, 0))

/-- A doorbell byte that Table 20.2 allows: bits 7:2 zero, GO and ACK not together. -/
def doorbellOk (b : Nat) : Bool := decide (b < 3)

/-- The window returned to IDLE by an ACK, the next waiting event placed in it, and what waits for an entry of the queue written
(R56, R58, R60, R61). -/
def State.windowAck (s : State) : State :=
  let s := State.placeEvent (s.updNmc fun x => { x with wstate := .idle, attn := false })
  if s.mode.isOpen then s.pump 4 else s

/-- DOORBELL_ACK: ACK of a response or an event (R58, R626). A doorbell byte with GO alone is DOORBELL_GO's. -/
def execDoorbellAck (frame : Bytes) (s : State) : Host.Outcome State Fault Refusal :=
  if u8 (chainData frame) 0 = 2 then
    .next (s.chainFrame 3 false (· == 1) frame fun s d =>
      if s.nmc.wstate = .response ∨ s.nmc.wstate = .event then (s.windowAck, d, 0) else (s, d, 3))
  else if u8 (chainData frame) 0 = 1 then .next s
  else .next (s.chainFrame 3 false (· == 1) frame fun s d => (s, d, if doorbellOk (u8 d 0) then 0 else 2))

/-- POLL: a device with NMC_ATTN_N asserted sets its bit of the mask (Table 20.2). -/
def execPoll (frame : Bytes) (s : State) : Host.Outcome State Fault Refusal :=
  .next (s.chainFrame 4 true (· == 4) frame fun s d =>
    (s, if s.nmc.attn then be 4 (bfld d 0 4 ||| 2 ^ s.nmc.addr) else d, 0))

/-- The code of a window state (Table 20.2). -/
def WinState.code : WinState → Nat
  | .idle => 0 | .busy => 1 | .response => 2 | .event => 3

/-- STATUS_READ: window state, mode and waiting events (Table 20.2). -/
def execStatusRead (frame : Bytes) (s : State) : Host.Outcome State Fault Refusal :=
  .next (s.chainFrame 5 false (· == 4) frame fun s _ =>
    (s, le 1 s.nmc.wstate.code ++ le 1 s.mode.code ++ le 1 s.nmc.queue.length ++ le 1 0, 0))

end Sys2Proof.Machine
end

