-- ==== Sys2Proof/Machine/Cascade.lean ====
section
/-!
DEFINITION. The cascade (R630 to R650) and the formation that cascades and trios share: BLP links and frames, the master
and its members, trunks, the directory and the cascade commands.
-/

namespace Sys2Proof.Machine

/-- The cascade changed. -/
def State.updCas (s : State) (f : Cascade → Cascade) : State := { s with cascade := f s.cascade }

/-! ### Topologies (Table 20.4, R631) -/

/-- The links a topology uses. -/
def usedLinks : Nat → List Nat
  | 1 => [0, 1] | 2 => [0, 1, 2, 3] | 3 => [0, 1, 2] | _ => []

/-- The position and link that link `l` of position `p` is wired to. -/
def peerOf (topo n p l : Nat) : Nat × Nat :=
  if topo = 3 then (p ^^^ 2 ^ l, l)
  else if l % 2 = 0 then ((p + 1) % n, l + 1) else ((p + n - 1) % n, l - 1)

/-- The hops of a route: at each, the position it leaves and the link it leaves on. `prot` takes the other direction of a
ring, or links 2 and 3 of a dual ring (R642). -/
def routeHops (topo n : Nat) (prot : Bool) (q : Nat) : Nat → Nat → Option Nat → List (Nat × Nat)
  | 0, _, _ => []
  | f + 1, p, from_ =>
    if p = q then []
    else
      let first := routeLink topo n p q
      let l := match from_ with
        | some l => if topo = 3 then first else l
        | none => if !prot then first else if topo = 2 then first + 2 else 1 - first
      (p, l) :: routeHops topo n prot q f (peerOf topo n p l).1 (some l)

/-- The position of a chain address. -/
def posOf (addrs : List Nat) (a : Nat) : Option Nat := addrs.findIdx? (· == a)

/-- The addresses of the formation under way, else of the one that stands. -/
def Cascade.book (c : Cascade) : List Nat :=
  match c.forming with | some f => if f.addrs.isEmpty then c.addrs else f.addrs | none => c.addrs

/-- The topology in the same sense. -/
def Cascade.shape (c : Cascade) : Nat :=
  match c.forming with | some f => f.topo | none => c.topo

/-- This device's position in the same sense. -/
def State.myPos (s : State) : Nat := (posOf s.cascade.book s.nmc.addr).getD s.cascade.pos

/-- The cascade ID a HELLO carries: 0 while a formation is under way. -/
def Cascade.helloId (c : Cascade) : Nat := if c.forming.isSome then 0 else c.id

/-- A link's state, DOWN where unlisted. -/
def State.blp (s : State) (l : Nat) : BlpLink :=
  tget { st := 0, heard := false, silent := 0, discarded := 0, last := [] } s.cascade.links l

/-- A link changed. -/
def State.updBlp (s : State) (l : Nat) (f : BlpLink → BlpLink) : State :=
  s.updCas fun c => { c with links := tset c.links l (f (s.blp l)) }

/-- A frame discarded and counted against its link (R639). -/
def State.blpDiscard (s : State) (l : Nat) : State := s.updBlp l fun x => { x with discarded := x.discarded + 1 }

/-- A frame sent to a chain address on the link of its route, where that link is not DOWN. -/
def State.sendTo (s : State) (a cls kind block : Nat) (p : Bytes) : State :=
  match posOf s.cascade.book a with
  | none => s
  | some q =>
    let l := routeLink s.cascade.shape s.cascade.book.length s.myPos q
    if (s.blp l).st = 0 then s else s.blpSend l cls kind s.nmc.addr a maxHops block p

/-- A CONTROL message to a chain address. -/
def State.tell (s : State) (a : Nat) (c : Control) : State := s.sendTo a 6 4 s.block (Config.writeControl c)

/-- The link a frame that arrived on link `l` for position `q` goes on by (R631). -/
def State.onward (s : State) (l q : Nat) : Nat :=
  if s.cascade.shape = 3 then routeLink 3 8 s.myPos q else if l % 2 = 0 then l + 1 else l - 1

/-- A device heard of: the master only by its HEARTBEAT (R647, R648). -/
def State.hear (s : State) (src : Nat) : State :=
  if src = s.cascade.master && src != s.nmc.addr then s
  else s.updCas fun c => { c with heardFrom := tset c.heardFrom src s.block, lost := c.lost.filter (· != src) }

/-- A received frame verified and decrypted under the receive context of its link and class (R493, R639): the payload, none where it is
discarded. -/
def State.openLink (s : State) (l : Nat) (d : Bytes) : State × Option Bytes :=
  let ph := u8 d 2 / 8 % 2
  let cls := u8 d 2 % 8
  let n := bfld d 8 8
  let i := cls * 2 + ph
  match (s.linkKey l 0).phase ph with
  | none => (s.blpDiscard l, none)
  | some key =>
    match gcmOpen (key.take 32) (linkNonce key cls n) (d.take 32) (d.drop 32) with
    | none => (s.blpDiscard l, none)
    | some p =>
      if n < tget 0 (s.blp l).last i then (s.blpDiscard l, none)
      else if 2 ^ 63 ≤ n then ((s.blpDiscard l).raiseAll 0xFC01 (linkCounterEvent l 0 cls n s.block), none)
      else
        let s := s.updBlp l fun x => { x with heard := true, silent := 0, last := tset x.last i (n + 1) }
        ((s.linkCount l 0 cls ph n).hear (u8 d 4), some p)

/-- An authenticated frame of header `d`: handed to `k` with its source, block number and payload where it is for this device, else
forwarded (R639). -/
def State.blpRoute (s : State) (l kind : Nat) (d p : Bytes) (k : State → Nat → Nat → Bytes → State) : State :=
  let src := u8 d 4
  let dst := u8 d 5
  if dst = 0 ∨ dst = s.nmc.addr then k s src (bfld d 16 8) p
  else if u8 d 6 = 0 then s.blpDiscard l
  else
    match posOf s.cascade.book dst with
    | none => s.blpDiscard l
    | some q =>
      let o := s.onward l q
      if (s.blp o).st = 2 then s.blpSend o (u8 d 2 % 8) kind src dst (u8 d 6 - 1) (bfld d 16 8) p else s.blpDiscard o

/-- The frame types that Tables 20.7 and 21.1 list. -/
def frameTypes : List Nat := [1, 2, 3, 4, 5, 8, 9, 10, 11, 12]

/-- A BLP frame received on a link (R493, R495, R638, R639): checked, opened by Onyx at once where a core can take it or after it has
waited in its link queue where none can (log entry 103), and routed. A frame of another listed type than `kind` is another row's; one of a reserved type is discarded and counted (Table 21.1). -/
def State.blpIn (s : State) (l kind : Nat) (d : Bytes) (k : State → Nat → Nat → Bytes → State) : State :=
  let x := linkDesc l 0 (u8 d 2 % 8)
  if u8 d 3 ≠ kind && frameTypes.contains (u8 d 3) || s.unitDown 0x0C l then s
  else if u8 d 3 ≠ kind ∨ bfld d 0 2 ≠ 0xB17A ∨ u8 d 2 / 16 ≠ 1 then s.blpDiscard l
  else
    match s.linkCore l false (u8 d 2 % 8) with
    | none => s.queueLink l false (u8 d 2 % 8) (.linkIn l kind s.now) d
    | some c =>
      match (((s.linkThrough l false (u8 d 2 % 8) (linkSize false d)).passOnyx 1 x).linkShares c l 0).openLink l d with
      | (s, some p) => s.blpRoute l kind d p k
      | (s, none) => s

/-- LinkState, a system event. -/
def State.linkState (s : State) (l : Nat) (up : Bool) (peer : Nat) : State :=
  s.raiseAll 0xF901 (le 1 l ++ le 1 (if up then 1 else 0) ++ le 1 peer ++ le 5 0 ++ le 8 s.block)

/-- CascadeState, a system event. -/
def State.casState (s : State) (st : Nat) : State := s.raiseAll 0xF900 (le 1 st ++ le 7 0 ++ le 8 s.block)

/-- The chain address expected at the far end of a link. -/
def State.expected (s : State) (l : Nat) : Nat :=
  s.cascade.book.getD (peerOf s.cascade.shape s.cascade.book.length s.myPos l).1 0

/-! ### The end of a command that waits for other devices -/

/-- The flight of mailbox `f` that waits for a formation or a trunk answered. -/
def State.answer (s : State) (f : Nat) (g : State → Req → Eff) : State :=
  match (s.mb f).flight with
  | some x =>
    if x.wait = .formation then
      let s := s.updMb f fun m => { m with flight := none }
      s.finish x.op x.req (g s x.req)
    else s
  | none => s

/-! ### Formation (R632 to R634, R652) -/

/-- The send and receive keys of a topology's links are loaded (R632). -/
def State.linkKeys (s : State) (topo : Nat) : Bool :=
  (usedLinks topo).all fun l => [0, 1].all fun d => (s.linkKey l d).phase0.isSome || (s.linkKey l d).phase1.isSome

/-- The state in which a device may take part in a formation (R632, R652). -/
def State.mayForm (s : State) (topo : Nat) : Bool :=
  (s.mode == .ready || s.mode == .standalone) && s.nmc.addr != 0 && s.linkKeys topo

/-- The state in which CascadeJoin is taken: a member that has lost its master takes it too (R649). -/
def State.mayJoin (s : State) (topo : Nat) : Bool :=
  s.mayForm topo || (s.mode == .cascadeMember && s.cascade.st == 3 && s.nmc.addr != 0 && s.linkKeys topo)

/-- The reserves of a CascadeForm or TrioForm payload: 1,200 to 216,000,000 on used links, 0 on the others (R634). -/
def reservesOk (topo : Nat) (l : List Nat) : Bool :=
  l.zipIdx.all fun e => if (usedLinks topo).contains e.2 then decide (1200 ≤ e.1) && decide (e.1 ≤ 216000000) else e.1 == 0

/-- The addresses and reserves of `n` positions of a form payload (Tables 20.12 and 21.4). -/
def formAddrs (p : Bytes) (n : Nat) : List Nat := (List.range n).map fun i => u8 p (4 + 20 * i)
def formReserves (p : Bytes) (n : Nat) : List (List Nat) :=
  (List.range n).map fun i => (List.range 4).map fun l => u32 p (8 + 20 * i + 4 * l)

/-- The fields of a form payload. -/
def State.formOk (s : State) (topo n : Nat) (p : Bytes) : Bool :=
  let a := formAddrs p n
  a.getD 0 0 == s.nmc.addr && a.all (fun x => decide (1 ≤ x) && decide (x ≤ 31)) && a.eraseDups.length == n &&
  (formReserves p n).all (reservesOk topo) && (List.range n).all fun i => zeros p (5 + 20 * i) 3

/-- A formation begun on a device. -/
def State.beginForming (s : State) (mbx : Nat) (f : Forming) : State :=
  s.updCas fun c => { c with forming := some f, mbx := mbx, st := if c.st = 0 then 1 else c.st }

/-- A formation just begun. -/
def Forming.new (trio : Bool) (topo : Nat) (addrs : List Nat) (reserves : List (List Nat)) (since : Nat) : Forming where
  trio := trio
  topo := topo
  addrs := addrs
  reserves := reserves
  since := since
  reports := []
  commit := none

/-- The charge of this device's reserves (R634). -/
def reserveCost (l : List Nat) : Costs := costOf [(0x0006, 0, 2 * l.sum)]

/-- The formation given up on this device; a member stays joined. -/
def State.endForming (s : State) : State :=
  s.updCas fun c => { c with
    forming := if c.master = s.nmc.addr || c.forming.all (·.addrs.isEmpty) then none
               else c.forming.map fun f => { f with addrs := [], reserves := [], reports := [], commit := none },
    st := if c.master = s.nmc.addr && c.st = 1 then 0 else c.st,
    links := if c.st ≤ 1 then tmap c.links fun _ x => { x with st := 0 } else c.links }

/-- The master's formation fails with a status and payload: nothing changes on any device (R633). -/
def State.failForming (s : State) (st : Status) (p : Bytes) : State :=
  match s.cascade.forming with
  | none => s
  | some f =>
    let s := (f.addrs.filter (· != s.nmc.addr)).foldl (fun s a => s.tell a .abandon) s
    s.endForming.answer s.cascade.mbx fun _ _ => .fail st p

/-- The formation moved on once this device's links are UP: a member reports, the master commits when every member has
(R633, R634). The master chooses the block: a free choice among the next 50. -/
def State.formCheck (s : State) : State :=
  match s.cascade.forming with
  | none => s
  | some f =>
    if f.addrs.isEmpty || f.commit.isSome || !(usedLinks f.topo).all (fun l => (s.blp l).st == 2) then s
    else
      let mine := f.reserves.getD s.myPos []
      let room := s.roomOf (bkey 6 0)
      let verdict := if room < 2 * mine.sum then some (2 * mine.sum, room) else none
      if s.cascade.master = s.nmc.addr then
        let reps := (s.nmc.addr, verdict) :: f.reports
        if !(f.addrs.all fun a => reps.any fun r => r.1 == a) then s
        else
          let bad := (List.range 32).findSome? fun a => reps.findSome? fun r => if r.1 = a then r.2.map fun v => (a, v) else none
          match bad with
          | some (a, n, v) => s.failForming .noBudget (noBudget 6 (if a = s.nmc.addr then 0 else a) 0 n v)
          | none =>
            let (v, s) := s.draw
            let b := s.nextBlock + 1 + v.toNat % 50
            let s := (f.addrs.filter (· != s.nmc.addr)).foldl (fun s a => s.tell a (.commit b)) s
            s.updCas fun x => { x with forming := some { f with commit := some b } }
      else if f.reports.isEmpty then
        let s := s.updCas fun x => { x with forming := some { f with reports := [(s.nmc.addr, verdict)] } }
        match verdict with
        | none => s.tell s.cascade.master (.ready (s.roomOf (bkey 1 0)) (s.roomOf (bkey 2 0)))
        | some (n, v) => s.tell s.cascade.master (.noRoom n v)
      else s

/-- The own part of CascadeJoin (R632, R649). An unlisted topology comes before the states that depend on it (R799). -/
def effCascadeJoin (r : Req) (s : State) : Eff :=
  let p := r.payload
  nullTarget r (
  need (decide (1 ≤ u8 p 1) && decide (u8 p 1 ≤ 3)) .invalidArg (
  need (s.mayJoin (u8 p 1)) .wrongState (
  need (decide (1 ≤ u8 p 0) && decide (u8 p 0 ≤ 31) && u8 p 0 != s.nmc.addr && zeros p 2 2) .invalidArg (
  .done [] 0 ((s.beginForming r.mbx (Forming.new false (u8 p 1) [] [] s.now)).updCas fun c => { c with master := u8 p 0 })))))

/-- CASCADE_JOIN. -/
def execCascadeJoin (r : Req) (s : State) : Host.Outcome State Fault Refusal :=
  .next (s.command 0x0900 (· == 4) r (effCascadeJoin r))

/-- The own part of CascadeForm (R632 to R634). -/
def effCascadeForm (r : Req) (s : State) : Eff :=
  let p := r.payload
  let n := u8 p 1
  let t := u8 p 0
  nullTarget r (
  need (decide (1 ≤ t) && decide (t ≤ 3)) .invalidArg (
  need (s.mayForm t) .wrongState (
  need (decide (2 ≤ n) && decide (n ≤ 8) && (t != 3 || n == 8) && zeros p 2 2 && s.formOk t n p)
    .invalidArg (
  .wait .formation [] ((s.beginForming r.mbx (Forming.new false t (formAddrs p n) (formReserves p n) s.now)).updCas
    fun c => { c with master := s.nmc.addr })))))

/-- CASCADE_FORM: the payload holds 20 bytes for each of its n devices. -/
def execCascadeForm (r : Req) (s : State) : Host.Outcome State Fault Refusal :=
  .next (s.command 0x0901 (fun k => k == 4 + 20 * u8 r.payload 1) r (effCascadeForm r))

/-- FORMATION_TIMEOUT: 200 ms have passed (R633, R652), for a rejoin as for a formation. -/
def execFormationTimeout (s : State) : Host.Outcome State Fault Refusal :=
  match s.cascade.forming, s.trio.rejoin with
  | some f, _ =>
    if s.cascade.master = s.nmc.addr ∧ f.since + 200000000 ≤ s.now then .next (s.failForming .timeout []) else .next s
  | none, some (_, t) =>
    if t + 200000000 ≤ s.now then
      .next ({ s with trio := { s.trio with rejoin := none } }.answer s.cascade.mbx fun _ _ => .fail .timeout [])
    else .next s
  | none, none => .next s

/-! ### Links (Table 20.8) -/

/-- LINK_LOCK: a DOWN link finds its lanes, FEC and alignment. -/
def execLinkLock (link : Nat) (s : State) : Host.Outcome State Fault Refusal :=
  if 4 ≤ link then .fault .noSuchUnit
  else if (s.blp link).st = 0 then .next (s.updBlp link fun x => { x with st := 1, silent := 0 }) else .next s

/-- The cascade ID of a HELLO fits: this device's own; where a device comes back to a trio, one end has none yet (R672). -/
def State.helloOk (s : State) (id : Nat) : Bool :=
  let trio := s.trio.id != 0 || (match s.cascade.forming with | some f => f.trio | none => false)
  id == s.cascade.helloId || (trio && (id == 0 || s.cascade.helloId == 0))

/-- A HELLO taken: the expected neighbour brings the link UP, anything else is counted and fails the formation (R633, R640). -/
def State.takeHello (link : Nat) (s : State) (src _ : Nat) (p : Bytes) : State :=
  if s.cascade.book.isEmpty then s
  else if !s.helloOk (bfld p 4 8) then s.blpDiscard link
  else
    let e := peerOf s.cascade.shape s.cascade.book.length s.myPos link
    if u8 p 0 = s.expected link ∧ u8 p 1 = e.1 ∧ u8 p 2 = e.2 ∧ u8 p 0 = src then
      if (s.blp link).st = 1 then ((s.updBlp link fun x => { x with st := 2 }).linkState link true src).formCheck else s
    else
      let s := s.blpDiscard link
      let seen := (s.myPos, link, u8 p 0, u8 p 2)
      if s.cascade.master = s.nmc.addr then
        s.failForming .invalidArg (le 1 seen.1 ++ le 1 link ++ le 1 (u8 p 0) ++ le 1 (u8 p 2))
      else s.tell s.cascade.master (.wrongWiring seen.1 seen.2.1 seen.2.2.1 seen.2.2.2)

/-- HELLO: the expected neighbour brings the link UP; anything else is counted and fails the formation (R633, R640). -/
def execHello (link : Nat) (data : Bytes) (s : State) : Host.Outcome State Fault Refusal :=
  if 4 ≤ link then .fault .noSuchUnit
  else .next (s.blpIn link 1 data (State.takeHello link))

/-- What a trunk that does not come to stand has set up on this device undone: its leg gone, its costs free, and what waits for its block
(R641, R793). -/
def State.trunkUndo (s : State) (id : Nat) : State :=
  let own := (s.cascade.ends.filter fun e => e.2.trunk == id).map fun e => okey 2 e.1
  let s := own.foldl (fun s k => (s.releaseNow (s.objCost k)).legFree k) s
  let mine (a : Act) : Bool :=
    match a with
    | .charge i _ | .trunkUp i => i == id
    | .live k _ | .join k => own.contains k
    | _ => false
  ({ s with sched := s.sched.filter fun e => !mine e.act } : State).updCas fun c => { c with
    charges := tdel c.charges id, ends := c.ends.filter fun e => e.2.trunk != id }

/-- A TrunkCreate of the master whose block has not come fails: nothing takes effect on any device (R641). -/
def State.failTrunk (s : State) (id : Nat) (st : Status) (p : Bytes) : State :=
  match tget? s.cascade.trunks id with
  | none => s
  | some t =>
    if (match t.commit with | some b => decide (b ≤ s.block) | none => false) then s
    else
      let far := ([t.a, t.b] ++ t.charges.map (·.1)).eraseDups.filter (· != s.nmc.addr)
      let s := far.foldl (fun s a => s.tell a (.trunkAbandon id)) s
      ((s.trunkUndo id).updCas fun c => { c with trunks := tdel c.trunks id }).answer t.mbx fun _ _ => .fail st p

/-- What waits for a link dropped with it: the frames in its send queues, and those with Onyx (R640). -/
def State.dropLink (s : State) (l : Nat) : State :=
  let s := (List.range 8).foldl (fun s c => s.setLinkQueue l true c []) s
  let s := s.updWork fun w => w.hold 1 6 ((w.waiting 1 6).filter fun x => !x.job.onLink l true)
  (s.endWhere (fun i => i.job.onLink l true && match i.st with | .queued => true | .staged _ => true | _ => false) 4 0).updWork fun w =>
    { w with released := w.released.filter fun i => !i.job.onLink l true }

/-- The trunks that cross a link of this device and whose block has not come. -/
def State.trunksOn (s : State) (l : Nat) : List Nat :=
  (s.cascade.charges.filter fun e => (e.2.any fun x => x.1 / 2 == l) && s.sched.any fun q => match q.act with | .charge i _ => i == e.1 | _ => false).map
    (·.1)

/-- A link DOWN: LinkState, its queued frames dropped, and each TrunkCreate not yet standing that crosses it fails with
TIMEOUT (R640, R641); a member tells the master of it. -/
def State.linkDown (s : State) (l : Nat) : State :=
  let s := ((s.updBlp l fun x => { x with st := 0, heard := false }).dropLink l).linkState l false (s.expected l)
  let hit := (s.cascade.trunks.filter fun e => e.2.charges.any fun x => x.1 == s.nmc.addr && x.2.1 / 2 == l).map (·.1)
  let s := hit.foldl (fun s id => s.failTrunk id .timeout []) s
  if s.cascade.master = s.nmc.addr then s
  else (s.trunksOn l).foldl (fun s id => s.tell s.cascade.master (.trunkNo id Status.timeout.code [])) s

/-- LINK_SILENCE_TIMEOUT: 3 blocks without an authenticated frame, or alignment lost (Table 20.8). -/
def execLinkSilenceTimeout (link : Nat) (s : State) : Host.Outcome State Fault Refusal :=
  if 4 ≤ link then .fault .noSuchUnit
  else if (s.blp link).st = 2 then .next (s.linkDown link) else .next s

/-- A HEARTBEAT taken: the master is present, and the first of a block is forwarded (R640, R648, R649). -/
def State.takeHeartbeat (link : Nat) (s : State) (_ b : Nat) (p : Bytes) : State :=
  if bfld p 1 8 ≠ s.cascade.id ∨ s.cascade.id = 0 then s.blpDiscard link
  else
    let s := s.updCas fun c => { c with heardFrom := tset c.heardFrom (u8 p 0) s.block, lost := c.lost.filter (· != u8 p 0) }
    let s := if s.cascade.st = 3 then (s.updCas fun c => { c with st := 2 }).casState 3 else s
    if s.cascade.beat = s.block then s
    else
      let s := s.updCas fun c => { c with beat := s.block }
      ((usedLinks s.cascade.topo).filter fun l => l != link && (s.blp l).st == 2).foldl
        (fun s l => s.blpSend l 7 2 (u8 p 0) 0 maxHops b p) s

/-- HEARTBEAT: the master is present; the first of a block is forwarded (R640, R648, R649). -/
def execHeartbeat (link : Nat) (data : Bytes) (s : State) : Host.Outcome State Fault Refusal :=
  if 4 ≤ link then .fault .noSuchUnit
  else .next (s.blpIn link 2 data (State.takeHeartbeat link))

/-- MASTER_LOST: no HEARTBEAT for 3 blocks; the master treats a member alike (R647, R648). -/
def execMasterLost (peer : Nat) (s : State) : Host.Outcome State Fault Refusal :=
  let c := s.cascade
  let old := decide (tget c.id c.heardFrom peer + 3 ≤ s.block)
  if c.id = 0 ∨ s.trio.id ≠ 0 ∨ !c.addrs.contains peer ∨ !old ∨ c.lost.contains peer then .next s
  else if peer = c.master ∧ c.master ≠ s.nmc.addr then
    if c.st = 2 then .next ((s.updCas fun c => { c with st := 3, lost := peer :: c.lost }).casState 2) else .next s
  else if c.master = s.nmc.addr then .next (s.updCas fun c => { c with lost := peer :: c.lost })
  else .next s

/-! ### Trunks (R641 to R644, R648) -/

/-- The signal number of a direction of a trunk: 0 from A to B, 1 from B to A. -/
def signalNo (id dir : Nat) : Nat := (2 * id + dir) % 65536

/-- A trunk leg's configuration (Table 6.6). -/
def trunkCfg (cls session m : Nat) : Bytes := [4, 0x10, 1] ++ le 1 cls ++ le 4 session ++ le 2 m ++ List.replicate 22 0

/-- The exports and imports of this device. -/
def State.exports (s : State) : Nat := (s.cascade.ends.filter fun e => e.2.send.isSome).length
def State.imports (s : State) : Nat := (s.cascade.ends.filter fun e => e.2.recv.isSome).length

/-- One end of a trunk admitted on this device: its leg set up, no object before the trunk stands (R641, R793). The answer is the leg's
handle and matrix number, or a status with its payload. -/
def State.trunkEnd (s : State) (id : Nat) (isA : Bool) (dirs flags cls session far : Nat) : Except (Status × Bytes) (State × Nat × Nat) :=
  match s.checkHandle session [0x01] with
  | .error st => .error (st, [])
  | .ok ses =>
    let sends := if isA then dirs % 2 = 1 else dirs / 2 = 1
    let recvs := if isA then dirs / 2 = 1 else dirs % 2 = 1
    if (s.autoGain (kidx ses)).isSome && decide (256 ≤ (s.members (kidx ses) true).length) then .error (.wrongState, [])
    else if (sends && 2048 ≤ s.exports) || (recvs && 2048 ≤ s.imports) then .error (.noResource, [])
    else
      match s.pickNumber 0xFFFF, s.lowestFree 2 0 16384 with
      | some m, some i =>
        let c := trunkCfg cls session m
        -- the tiles of its join in auto-mix mode are admitted with it (R115, R140, R158)
        let cost := plusCost (s.legCost c) (s.tilesFor 5 (s.joinOf (kidx ses) m (okey 2 i)))
        match s.firstOver cost, s.pickCore 1 with
        | some (k, n), _ => .error (.noBudget, s.noBudgetFor k n)
        | none, none => .error (.noBudget, noBudget 1 0 0 1 s.largestRoom)
        | none, some core =>
          let key := okey 2 i
          let s := ((s.reserve cost).putLeg s.cascade.mbx key c m core cost).updObj key fun o => { o with unborn := true }
          let d := if isA then 0 else 1
          let e : TrunkEnd := {
            trunk := id, far := far, send := if sends then some (signalNo id d) else none,
            recv := if recvs then some (signalNo id (1 - d)) else none, prot := flags % 2 == 1, arrived := false, gap := false,
            onProt := false, told := 0, prepared := some s.block }
          .ok (s.updCas fun x => { x with ends := tset x.ends i e }, s.handle key, m)
      | _, _ => .error (.noResource, [])

/-- A trunk leg, now ACTIVE, joins its session: the tiles reserved for it give way to those its writes occupy now, in the first block
with room from the next on (R140, R144, R147, R158; log entry 105). -/
def State.trunkJoin (s : State) (key : Nat) : State :=
  match s.leg key with
  | none => s
  | some l =>
    let own := s.legCost l.cfg
    let ws := s.joinOf l.session l.m key
    let s := (s.releaseNow (minusCost (s.objCost key) own)).updObj key fun o => { o with cost := own }
    if ws.isEmpty then s
    else
      let b := s.ownBlock ws.length s.nextBlock
      let x := s.matrix.withWrites b noOrigin ws
      let tiles := tilesOf (ws.map (·.1))
      (s.reserve (tileCost (s.tileAsk x tiles))).retile x b tiles

/-- A trunk committed on this device: at block `b` its links are charged, its leg lives and joins its session (R158, R641, R793). -/
def State.trunkCommit (s : State) (id b : Nat) (charges : List (Nat × Nat)) : State :=
  let c := costOf (charges.map fun e => (0x000F, e.1, e.2))
  let s := (s.updCas fun x => { x with charges := tset x.charges id charges }).addSched (.block b) noOrigin (.charge id c)
  (s.cascade.ends.filter fun e => e.2.trunk == id).foldl (fun s e =>
    let key := okey 2 e.1
    ((s.updCas fun x => { x with ends := tupd x.ends e.1 fun y => { y with prepared := none } }).addSched (.block b) noOrigin
      (.live key true)).addSched (.block b) noOrigin (.join key)) s

/-- The legs of a trunk that live on this device. -/
def State.trunkLegs (s : State) (id : Nat) : List Nat :=
  ((s.cascade.ends.filter fun e => e.2.trunk == id).map fun e => okey 2 e.1).filter s.objLive

/-- The ends of a trunk on this device removed: at block `b`, or where it has no room at the first that has (R643, R648). -/
def State.trunkDrop (s : State) (id b : Nat) : State :=
  let s := (s.trunkLegs id).foldl (fun s k => s.placeDestroy 5 noOrigin k (s.ownBlock 512 b)) s
  let c := costOf ((tget [] s.cascade.charges id).map fun e => (0x000F, e.1, e.2))
  (s.releaseAt (.block b) c).updCas fun x => { x with charges := tdel x.charges id }

/-- What the signals of a trunk cost on each link they cross (R641, R642): chain address, instance, kbit/s. -/
def Cascade.trunkCharges (c : Cascade) (a b dirs flags : Nat) : List (Nat × Nat × Nat) :=
  let n := c.addrs.length
  match posOf c.addrs a, posOf c.addrs b with
  | some pa, some pb =>
    let ways := (if dirs % 2 = 1 then [(pa, pb)] else []) ++ (if dirs / 2 = 1 then [(pb, pa)] else [])
    ways.flatMap fun w => (if flags % 2 = 1 then [false, true] else [false]).flatMap fun prot =>
      (routeHops c.topo n prot w.2 8 w.1 none).flatMap fun h =>
        let q := peerOf c.topo n h.1 h.2
        [(c.addrs.getD h.1 0, 2 * h.2, 1200), (c.addrs.getD q.1 0, 2 * q.2 + 1, 1200)]
  | _, _ => []

/-- The ceiling of a link instance of the device at position `p` (R634). -/
def Cascade.linkCeil (c : Cascade) (reserves : List Nat) (inst : Nat) : Nat :=
  if c.id = 0 then 0 else min 216000000 (reserves.getD (inst / 2) 0)

/-- What trunks already cost on an instance of a device, in the master's books: one destroyed until its boundary (R116). -/
def Cascade.linkUsed (c : Cascade) (a inst : Nat) : Nat :=
  (c.trunks.flatMap fun e => (e.2.charges.filter fun x => x.1 == a && x.2.1 == inst).map (·.2.2)).sum

/-- The first instance of a device that a trunk's charges do not fit: code 0x000F, instance, required, available. -/
def Cascade.linkOver (c : Cascade) (ch : List (Nat × Nat × Nat)) (a : Nat) : Option (Nat × Nat × Nat) :=
  (List.range 8).findSome? fun i =>
    let n := ((ch.filter fun x => x.1 == a && x.2.1 == i).map (·.2.2)).sum
    let room := c.linkCeil (c.reserves.getD ((posOf c.addrs a).getD 0) []) i - c.linkUsed a i
    if room < n then some (i, n, room) else none

/-- A TrunkCreate whose ends have all answered: refused with the answer of the lowest chain address that refused (R118), or
committed at a block of the master's choice (R641). -/
def State.trunkCheck (s : State) (id : Nat) : State :=
  match tget? s.cascade.trunks id with
  | none => s
  | some t =>
    if t.commit.isSome || !([t.a, t.b].all fun a => t.answers.any fun x => x.1 == a) then s
    else
      -- what an end itself refuses comes before its links, whose code is the highest (R115, R118)
      match (List.range 32).findSome? fun a => t.answers.reverse.find? fun x => x.1 == a && x.2.1 != 0 with
      | some (a, st, p) =>
        let p := if st = Status.noBudget.code ∧ a ≠ s.nmc.addr then poke p 2 (le 1 a) else p
        let status := [Status.invalidArg, .staleHandle, .noSuchObject, .wrongState, .noBudget, .noResource].find? fun x => x.code == st
        s.failTrunk id (status.getD .timeout) p
      | none =>
        let (v, s) := s.draw
        let b := s.nextBlock + 1 + v.toNat % 50
        let mine (a : Nat) := (t.charges.filter fun x => x.1 == a).map (·.2)
        let s := s.cascade.addrs.foldl (fun s a =>
          if a = s.nmc.addr || (mine a).isEmpty then s else s.tell a (.trunkCommit id b (mine a))) s
        let s := s.updCas fun c => { c with trunks := tset c.trunks id { t with commit := some b } }
        (s.trunkCommit id b (mine s.nmc.addr)).addSched (.block b) noOrigin (.trunkUp id)

/-- The answer of one end noted. -/
def State.trunkAnswer (s : State) (id a st : Nat) (p : Bytes) (handle m : Nat) : State :=
  match tget? s.cascade.trunks id with
  | none => s
  | some t =>
    let t := { t with answers := t.answers ++ [(a, st, p)] }
    let t := if a = t.a then { t with legA := handle, mA := m } else { t with legB := handle, mB := m }
    (s.updCas fun c => { c with trunks := tset c.trunks id t }).trunkCheck id

/-- TrunkCreate completes at the block at which its charges apply (R641). -/
def State.trunkUp (s : State) (id : Nat) : State :=
  match tget? s.cascade.trunks id with
  | none => s
  | some t =>
    s.answer t.mbx fun s r => .done (le 4 id ++ le 4 t.legA ++ le 4 t.legB ++ le 2 t.mA ++ le 2 t.mB) r.tgt s

/-- The check of R635 on a master's command. -/
def State.asMaster (s : State) (k : Eff) : Eff :=
  match s.role with
  | .cascadeMaster => k
  | .cascadeMember => .fail .notMaster []
  | _ => .fail .wrongState []

/-- The lowest free trunk ID from `i`, of `n` IDs. -/
def State.freeTrunk (s : State) : Nat → Nat → Option Nat
  | _, 0 => none
  | i, n + 1 => if thas s.cascade.trunks i then State.freeTrunk s (i + 1) n else some i

/-- An end's admission asked for: here at once, elsewhere by CONTROL. -/
def State.askEnd (s : State) (id a : Nat) (isA : Bool) (dirs flags cls session far : Nat) : State :=
  if a = s.nmc.addr then
    match s.trunkEnd id isA dirs flags cls session far with
    | .error (st, p) => s.trunkAnswer id a st.code p 0 0
    | .ok (s, h, m) => s.trunkAnswer id a 0 [] h m
  else s.tell a (.trunkAsk id isA dirs flags cls session far)

/-- The own part of TrunkCreate (Table 20.14, R641, R642). -/
def effTrunkCreate (r : Req) (s : State) : Eff :=
  let p := r.payload
  let a := u8 p 0
  let b := u8 p 1
  let c := s.cascade
  let local? (x h : Nat) (k : Eff) : Eff := if x = s.nmc.addr then s.withHandle h [0x01] fun _ => k else k
  nullTarget r (
  local? a (u32 p 8) (
  local? b (u32 p 12) (
  s.asMaster (
  need (a != b && c.addrs.contains a && c.addrs.contains b && decide (1 ≤ u8 p 2) && decide (u8 p 2 ≤ 3) && decide (u8 p 3 ≤ 1) &&
    !(u8 p 3 == 1 && c.topo == 3) && decide (u8 p 4 ≤ 3) && zeros p 5 3) .invalidArg (
  match s.freeTrunk 1 65535 with
  | none => .fail .noResource []
  | some id =>
    let ch := c.trunkCharges a b (u8 p 2) (u8 p 3)
    let overTimes := c.addrs.filterMap fun x => (c.linkOver ch x).map fun o => (x, Status.noBudget.code, noBudget 15 0 o.1 o.2.1 o.2.2)
    let t : TrunkRec := { a := a, b := b, dirs := u8 p 2, flags := u8 p 3, legA := 0, legB := 0, mA := 0, mB := 0,
                          charges := ch, answers := overTimes, commit := none, gone := none, mbx := r.mbx }
    .wait .formation (le 4 id) (s.updCas fun c => { c with trunks := tset c.trunks id t }))))))

/-- TRUNK_CREATE: the ends are asked once the command waits for their answers. -/
def execTrunkCreate (r : Req) (s : State) : Host.Outcome State Fault Refusal :=
  let p := r.payload
  let s' := s.command 0x0903 (· == 16) r (effTrunkCreate r)
  match (s'.mb r.mbx).flight with
  | some x =>
    if x.wait = .formation ∧ x.op = 0x0903 ∧ x.req = r ∧ (s.mb r.mbx).flight.isNone then
      let id := u32 x.resp 0
      .next ((s'.askEnd id (u8 p 0) true (u8 p 2) (u8 p 3) (u8 p 4) (u32 p 8) (u8 p 1)).askEnd id (u8 p 1) false (u8 p 2) (u8 p 3)
        (u8 p 4) (u32 p 12) (u8 p 0))
    else .next s'
  | none => .next s'

/-- The block of a command of a ring that clears the strips of some legs, the first of them in the first block with room (R145 to R147);
none where it waits for room. -/
def State.stripBlock (s : State) (f : Nat) (legs : List Nat) : Option Nat :=
  if legs.isEmpty then some (s.firstBlock f) else s.placeBlock f 512

/-- The own part of TrunkDestroy (R643, R648). -/
def effTrunkDestroy (r : Req) (s : State) : Eff :=
  let id := u32 r.payload 0
  nullTarget r (
  s.asMaster (
  match tget? s.cascade.trunks id with
  | none => .fail .invalidArg []
  | some t =>
    need (t.commit.isSome && t.gone.isNone) .invalidArg (
    let own := s.trunkLegs id
    match s.stripBlock r.mbx own with
    | none => .wait .room [] s
    | some b =>
      let s1 := (s.cascade.addrs.filter (· != s.nmc.addr)).foldl (fun s a => s.tell a (.trunkDrop id b)) s
      let s1 := (s1.trunkDrop id b).updCas fun c => { c with
        trunks := tset c.trunks id { t with gone := some b }, owed := c.owed ++ ([t.a, t.b].filter c.lost.contains).map fun a => (a, id) }
      let s1 := if own.isEmpty then s1 else s1.placedAt r.mbx b
      .later [] 0 (s1.schedule (.block b) (r.origin 0) .applied))))

/-- TRUNK_DESTROY. -/
def execTrunkDestroy (r : Req) (s : State) : Host.Outcome State Fault Refusal :=
  .next (s.command 0x0904 (· == 4) r (effTrunkDestroy r))

/-- TrunkState, a system event, at most once a second a trunk. -/
def State.trunkState (s : State) (i : Nat) (st : Nat) : State :=
  match tget? s.cascade.ends i with
  | none => s
  | some e =>
    if e.told ≠ 0 ∧ s.now < e.told + 1000000000 then s
    else (s.updCas fun c => { c with ends := tupd c.ends i fun e => { e with told := s.now } }).raiseAll 0xF902
      (le 4 e.trunk ++ le 1 st ++ le 3 0 ++ le 8 s.block)

/-- A sample of a TRUNK frame: 3 bytes, most significant first. -/
def trunkSamples (p : Bytes) : List Int := (List.range 96).map fun i => signed 24 (bfld p (3 * i) 3)

/-- The copy arrives by the protection route. -/
def State.byProtection (s : State) (far link : Nat) : Bool :=
  let c := s.cascade
  match posOf c.addrs far with
  | none => false
  | some p =>
    let h := (routeHops c.topo c.addrs.length false c.pos 8 p none).getLastD (0, 0)
    (peerOf c.topo c.addrs.length h.1 h.2).2 != link

/-- One entry of a TRUNK frame: the first copy of the running block goes through the leg chain to the matrix input of its leg (R22, R642,
R643, R644). -/
def State.trunkEntry (s : State) (link k : Nat) (p : Bytes) : State :=
  match s.cascade.ends.find? fun e => e.2.recv == some (bfld p 0 2) with
  | none => s
  | some (i, e) =>
    if e.arrived || k + 1 != s.block || decide (s.block * blockNs + 1750000 < s.now) || !s.flows (okey 2 i) then s
    else
      let prot := s.byProtection e.far link
      let s := s.updCas fun c => { c with trunkIn := tset c.trunkIn i (trunkSamples (p.drop 4)),
                                          ends := tupd c.ends i fun e => { e with arrived := true, gap := false, onProt := prot } }
      let s := if e.gap then s.trunkState i 2 else if prot && !e.onProt then s.trunkState i 3 else s
      s.chainItem (okey 2 i) s.block

/-- A TRUNK frame taken, entry by entry (Table 20.7). -/
def State.takeTrunk (link : Nat) (s : State) (_ k : Nat) (p : Bytes) : State :=
  (List.range (p.length / 292)).foldl (fun s i => s.trunkEntry link k ((p.drop (292 * i)).take 292)) s

/-- TRUNK: 1 to 14 entries of 292 bytes (Table 20.7). -/
def execTrunk (link : Nat) (data : Bytes) (s : State) : Host.Outcome State Fault Refusal :=
  if 4 ≤ link then .fault .noSuchUnit
  else .next (s.blpIn link 5 data (State.takeTrunk link))

/-- TRUNK_ARRIVAL_DEADLINE: a signal that has not arrived by 1.75 ms gives zero input and is a gap (R644). -/
def execTrunkArrivalDeadline (trunk : Nat) (s : State) : Host.Outcome State Fault Refusal :=
  if s.now < s.block * blockNs + 1750000 then .next s
  else .next ((s.cascade.ends.filter fun e => e.2.trunk == trunk && e.2.recv.isSome && !e.2.arrived && s.flows (okey 2 e.1)).foldl
    (fun s e =>
      let s := s.updCas fun c => { c with
        gaps := c.gaps + 1, ends := tupd c.ends e.1 fun x => { x with gap := true, arrived := true } }
      if e.2.gap then s else s.trunkState e.1 1) s)

/-- The signals of the block whose mix has ended sent on their routes, 14 a frame (R642, R644). -/
def State.trunkSend (s : State) : State :=
  let c := s.cascade
  let n := c.addrs.length
  let entry (i : Nat) (e : TrunkEnd) : Bytes :=
    be 2 (e.send.getD 0) ++ be 2 0 ++ ((List.range 96).map fun t =>
      be 3 (unsigned 24 ((tget [] s.matrix.outMix (s.legM (okey 2 i))).getD t 0))).flatten
  (c.addrs.filter (· != s.nmc.addr)).foldl (fun s far =>
    [false, true].foldl (fun s prot =>
      let es := s.cascade.ends.filter fun e => e.2.far == far && e.2.send.isSome && (!prot || e.2.prot) && s.flows (okey 2 e.1)
      match (posOf c.addrs far).bind fun q => (routeHops c.topo n prot q 8 c.pos none).head? with
      | none => s
      | some (_, l) =>
        if (s.blp l).st ≠ 2 then s
        else (List.range (ceilDiv es.length 14)).foldl (fun s k =>
          s.blpSend l 5 5 s.nmc.addr far maxHops (s.block - 1) ((((es.drop (14 * k)).take 14).map fun e => entry e.1 e.2).flatten)) s) s) s

/-- SPANNING_COMMAND_ROLLBACK: a trunk prepared and not committed is rolled back 3 blocks after the master's loss (R647). -/
def execSpanningCommandRollback (s : State) : Host.Outcome State Fault Refusal :=
  let due := if s.cascade.st ≠ 3 then [] else s.cascade.ends.filter fun e =>
    match e.2.prepared with | some b => decide (b + 3 ≤ s.block) | none => false
  .next (((due.map fun e => e.2.trunk).eraseDups).foldl State.trunkUndo s)

/-! ### CONTROL (Table 20.7) -/

/-- This device's room for SessionPlace (R636). -/
def State.myRoom (s : State) : Nat × Nat := (s.roomOf (bkey 1 0), s.roomOf (bkey 2 0))

/-- A CONTROL message of a formation or a cascade taken. -/
def State.control (s : State) (src : Nat) (c : Control) : State :=
  match c with
  | .form trio topo addrs reserves =>
    match s.cascade.forming with
    | some f =>
      if f.trio = trio ∧ f.topo = topo ∧ src = s.cascade.master ∧ f.addrs.isEmpty then
        (s.updCas fun c => { c with forming := some { f with addrs := addrs, reserves := reserves } }).formCheck
      else s
    | none => s
  | .ready q t =>
    match s.cascade.forming with
    | some f => (s.updCas fun c => { c with forming := some { f with reports := f.reports ++ [(src, none)] }, rooms := tset c.rooms src (q, t) }).formCheck
    | none => s
  | .noRoom n v =>
    match s.cascade.forming with
    | some f => (s.updCas fun c => { c with forming := some { f with reports := f.reports ++ [(src, some (n, v))] } }).formCheck
    | none => s
  | .wrongWiring p l a x => s.failForming .invalidArg (le 1 p ++ le 1 l ++ le 1 a ++ le 1 x)
  | .commit b =>
    match s.cascade.forming with
    | some f =>
      if src = s.cascade.master then
        -- trunk legs of an earlier formation go at the same block (R649)
        let ids := (s.cascade.ends.map fun e => e.2.trunk).eraseDups
        (ids.foldl (fun s i => s.trunkDrop i b) s).updCas fun c => { c with forming := some { f with commit := some b } }
      else s
    | none => s
  | .abandon => if src = s.cascade.master then s.endForming else s
  | .room q t => s.updCas fun c => { c with rooms := tset c.rooms src (q, t) }
  | .trunkAsk id isA dirs flags cls session far =>
    match s.trunkEnd id isA dirs flags cls session far with
    | .error (st, p) => s.tell src (.trunkNo id st.code p)
    | .ok (s, h, m) => s.tell src (.trunkYes id h m)
  | .trunkYes id h m => s.trunkAnswer id src 0 [] h m
  | .trunkNo id st p => if st = Status.timeout.code then s.failTrunk id .timeout [] else s.trunkAnswer id src st p 0 0
  | .trunkCommit id b ch =>
    let s := s.trunkCommit id b ch
    if ch.all fun x => (s.blp (x.1 / 2)).st == 2 then s else s.tell src (.trunkNo id Status.timeout.code [])
  | .trunkAbandon id => s.trunkUndo id
  | .trunkDrop id b => s.trunkDrop id (max b s.nextBlock)
  | .trio _ _ _ _ | .trioLeft | .trioTurn _ _ | .trioRevert _ => s

/-! ### Directory and status (R635, R636, R650) -/

/-- The room of a device of the cascade. -/
def State.roomAt (s : State) (a : Nat) : Nat × Nat := if a = s.nmc.addr then s.myRoom else tget (0, 0) s.cascade.rooms a

/-- The own part of SessionPlace (R636). -/
def effSessionPlace (r : Req) (s : State) : Eff :=
  let p := r.payload
  let fits (a : Nat) : Bool := s.cascade.addrs.contains a && decide (u32 p 4 ≤ (s.roomAt a).1) && decide (u32 p 8 ≤ (s.roomAt a).2)
  nullTarget r (
  s.asMaster (
  need (decide (u8 p 12 < 32) && zeros p 13 3) .invalidArg (
  need (thas s.cascade.dir (u32 p 0) || decide (s.cascade.dir.length < 32768)) .noResource (
  let pick := if u8 p 12 ≠ 0 ∧ fits (u8 p 12) then some (u8 p 12) else (List.range 32).find? fits
  match pick with
  | none =>
    let a := (List.range 32).find? fun a => s.cascade.addrs.contains a
    let x := a.getD 0
    let room := s.roomAt x
    let a' := if x = s.nmc.addr then 0 else x
    .fail .noBudget (if room.1 < u32 p 4 then noBudget 1 a' 0 (u32 p 4) room.1 else noBudget 2 a' 0 (u32 p 8) room.2)
  | some a =>
    .done (le 1 a ++ le 3 0) 0 (s.updCas fun c => { c with dir := tset c.dir (u32 p 0) a })))))

/-- SESSION_PLACE. -/
def execSessionPlace (r : Req) (s : State) : Host.Outcome State Fault Refusal :=
  .next (s.command 0x0905 (· == 16) r (effSessionPlace r))

/-- The own part of SessionUnplace. -/
def effSessionUnplace (r : Req) (s : State) : Eff :=
  nullTarget r (
  s.asMaster (
  need (thas s.cascade.dir (u32 r.payload 0)) .invalidArg (
  .done [] 0 (s.updCas fun c => { c with dir := tdel c.dir (u32 r.payload 0) }))))

/-- SESSION_UNPLACE. -/
def execSessionUnplace (r : Req) (s : State) : Host.Outcome State Fault Refusal :=
  .next (s.command 0x0906 (· == 4) r (effSessionUnplace r))

/-- The own part of CascadeStatusGet (Table 20.15). -/
def effCascadeStatusGet (r : Req) (s : State) : Eff :=
  let c := s.cascade
  let inTrio := s.trio.id != 0
  let up := (List.range 4).foldl (fun n l => if (s.blp l).st = 2 then n + 2 ^ l else n) 0
  nullTarget r (
  .done (le 8 (if inTrio then 0 else c.id) ++ le 1 c.topo ++ le 1 c.pos ++ le 1 c.master ++ le 1 (if inTrio then 0 else c.st) ++
    le 4 up ++ le 4 c.gaps ++ le 4 ((c.links.map fun e => e.2.discarded).sum) ++ le 2 s.exports ++ le 2 s.imports ++ le 20 0) 0 s)

/-- CASCADE_STATUS_GET. -/
def execCascadeStatusGet (r : Req) (s : State) : Host.Outcome State Fault Refusal :=
  .next (s.command 0x0907 (· == 0) r (effCascadeStatusGet r))

/-- The directory as DirectoryGet writes it: 8 bytes an entry. -/
def dirBytes (t : Table Nat) : Bytes := (t.map fun e => le 4 e.1 ++ le 1 e.2 ++ le 3 0).flatten

/-- The own part of DirectoryGet: the entries written by DMA, their count in the response (R798). -/
def effDirectoryGet (r : Req) (s : State) : Eff :=
  let p := r.payload
  nullTarget r (
  s.asMaster (
  need (u32 p 8 == 262144 && zeros p 12 4) .invalidArg (
  writeThen 0 (u64 p 0) (dirBytes s.cascade.dir) (le 4 s.cascade.dir.length) s)))

/-- DIRECTORY_GET. -/
def execDirectoryGet (r : Req) (s : State) : Host.Outcome State Fault Refusal :=
  .next (s.command 0x0908 (· == 16) r (effDirectoryGet r))

/-- The last block in which the strips of some legs are cleared. -/
def Matrix.lastStrip (x : Matrix) (legs : List Nat) : Nat :=
  x.queue.foldl (fun m e => match e.what with | .strip _ k => if legs.contains k then max m e.block else m | _ => m) 0

/-- The own part of CascadeLeave: trunk legs and peers go at the next block (R649). -/
def effCascadeLeave (r : Req) (s : State) : Eff :=
  nullTarget r (
  need ((s.role == .cascadeMaster || s.role == .cascadeMember) && s.cascade.leaving.isNone) .wrongState (
  let ids := (s.cascade.ends.map fun e => e.2.trunk).eraseDups
  let own := ids.flatMap s.trunkLegs
  match s.stripBlock r.mbx own with
  | none => .wait .room [] s
  | some b =>
  let s1 := ids.foldl (fun s i => s.trunkDrop i b) s
  -- strips that did not fit in that block take the next ones, and the cascade ends with the last (R145)
  let b := max b (s1.matrix.lastStrip own)
  let s1 := if own.isEmpty then s1 else s1.placedAt r.mbx b
  let peers := (s1.objs.filter fun e => ktype e.1 == 0x0A).map (·.1)
  let s1 := peers.foldl (fun s k => (s.dying k).addSched (.block b) noOrigin (.free k)) s1
  let s1 := (s1.releaseAt (.block b) (reserveCost s.cascade.reserve)).updCas fun c => { c with leaving := some b }
  .later [] 0 (s1.schedule (.block b) (r.origin 0) .applied)))

/-- CASCADE_LEAVE. -/
def execCascadeLeave (r : Req) (s : State) : Host.Outcome State Fault Refusal :=
  .next (s.command 0x0902 (· == 0) r (effCascadeLeave r))

/-! ### At a block start -/

/-- The cascade ended on this device: every link DOWN, no books. -/
def Cascade.left (c : Cascade) : Cascade :=
  { c with st := 0, id := 0, topo := 0, pos := 0, addrs := [], master := 0, reserve := [], reserves := [], owed := [], forming := none, heardFrom := [], lost := [],
           beat := 0, dir := [], rooms := [], trunks := [], ends := [], charges := [], leaving := none, trunkIn := [], queues := [],
           waiting := false, missed := 0, links := tmap c.links fun _ x => { x with st := 0 } }

/-- A formation committed at this block (R633, R652): the device takes its place, its peers or its trio group, its reserves
charged; CascadeForm or TrioForm completes. -/
def State.commitForming (s : State) (f : Forming) : State :=
  let p := s.myPos
  let mine := f.reserves.getD p []
  let old := (s.objs.filter fun e => ktype e.1 == 0x0A).map (·.1)
  let s := old.foldl (fun s k => (s.bumpGen k).dropObj k) s
  let s := if s.cascade.id = 0 then s else s.releaseNow (reserveCost s.cascade.reserve)
  let s := (s.reserve (reserveCost mine)).updCas fun c => { c with
    st := 2, id := s.block, topo := f.topo, pos := p, addrs := f.addrs, reserve := mine, reserves := f.reserves, owed := [], forming := none, lost := [],
    heardFrom := (f.addrs.map fun a => (a, s.block)).foldl (fun t e => tset t e.1 e.2) [], gaps := 0, beat := 0, dir := [], trunks := [] }
  let s :=
    if f.trio then
      let s := s.addObj (okey 0x0B 0) s.cascade.mbx true 0 []
      ({ s with trio := { s.trio with id := s.block, topo := f.topo, pos := p, addrs := f.addrs, present := f.addrs,
                                      leader := f.addrs.getD 0 0, lease := if p = 0 then some (s.block + 2) else none, stopped := false,
                                      endorsed := s.block, clean := 0, sync := none, mute := false, turn := none, leaving := none } }).toMode (if p = 0 then .trioLeader else .trioFollower)
    else
      let s := (List.range (f.addrs.length - 1)).foldl (fun s i => s.addObj (okey 0x0A i) s.cascade.mbx true 0 []) s
      (s.toMode (if p = 0 then .cascadeMaster else .cascadeMember)).casState 1
  if p = 0 then s.answer s.cascade.mbx fun s _ => .done (le 8 s.cascade.id) 0 s else s

/-- The cascade at a block start: a commit or a leave due; the formation told to members; HELLO, HEARTBEAT; silent links and
missing signals counted from anew (R633, R640, R644, R649). -/
def State.cascadeBlock (s : State) : State :=
  let s := match s.cascade.forming with
    | some f =>
      if f.commit = some s.block then s.commitForming f
      else if s.cascade.master = s.nmc.addr ∧ f.commit.isNone then
        (f.addrs.filter (· != s.nmc.addr)).foldl (fun s a => s.tell a (.form f.trio f.topo f.addrs f.reserves)) s
      else s
    | none => s
  let s := if s.cascade.leaving = some s.block then ((s.updCas Cascade.left).casState 4).toRole .standalone else s
  let s := s.updCas fun c => { c with
    trunkIn := [], ends := tmap c.ends fun _ e => { e with arrived := false },
    links := tmap c.links fun _ x => if x.st = 2 then { x with heard := false, silent := if x.heard then 0 else x.silent + 1 } else x }
  let c := s.cascade
  if c.book.isEmpty then s
  else
    let hello (l : Nat) : Bytes := le 1 s.nmc.addr ++ le 1 s.myPos ++ le 1 l ++ le 1 c.shape ++ be 8 c.helloId
    let s := ((usedLinks c.shape).filter fun l => (s.blp l).st != 0).foldl
      (fun s l => s.blpSend l 7 1 s.nmc.addr 0 maxHops s.block (hello l)) s
    -- ends that could not be told to go are told once their device is heard again (R648)
    let s := (s.cascade.owed.filter fun e => !s.cascade.lost.contains e.1).foldl (fun s e => s.tell e.1 (.trunkDrop e.2 s.nextBlock)) s
    let s := s.updCas fun c => { c with
      owed := c.owed.filter fun e => c.lost.contains e.1
      trunks := c.trunks.filter fun e => match e.2.gone with | some b => decide (s.block < b) | none => true }
    let s := if s.role = .cascadeMember then s.tell c.master (.room s.myRoom.1 s.myRoom.2) else s
    if s.role = .cascadeMaster then
      ((usedLinks c.topo).filter fun l => (s.blp l).st == 2).foldl
        (fun s l => s.blpSend l 7 2 s.nmc.addr 0 maxHops s.block (le 1 s.nmc.addr ++ be 8 c.id)) s
    else s

end Sys2Proof.Machine
end

