-- ==== Sys2Proof/Machine/Forward.lean ====
section
/-!
DEFINITION. Forwarding by coding layers (R360 to R385): operating points, the wanted point, switches, the rewritten RTP
stream, RTCP, and what a sending leg does with its packets.
-/

namespace Sys2Proof.Machine

/-! ### Sources and operating points (R361 to R366) -/

/-- The receiving legs fed by a source. -/
def State.receivers (s : State) (src : Nat) : List Nat :=
  (s.video.legs.filter fun e => e.2.source == some src || e.2.old == some src).map fun e => okey 3 e.1

/-- A source whose operating points nest: SVC. -/
def State.nested (s : State) (src : Nat) : Bool := match s.vleg src with | some l => u8 l.cfg 23 == 2 | none => false

/-- How many spatial indices a source has. -/
def State.spatials (s : State) (src : Nat) : Nat :=
  match s.vleg src, s.enc src with
  | some l, _ => if u8 l.cfg 23 = 2 then 3 else l.ssrcs.length
  | none, some e => e.streams.length
  | none, none => 0

/-- The time of the last recompute: the last TAI multiple of 100 ms (R365). -/
def State.recomputed (s : State) : Nat := s.now / 100000000 * 100000000

/-- Bits of window entries in the 1,000 ms before the last recompute. -/
def State.windowBits (s : State) (l : List (Nat × Nat)) : Nat :=
  ((l.filter fun e => decide (s.recomputed < e.1 + 1000000000) && decide (e.1 ≤ s.recomputed)).map (·.2)).sum

/-- The rate of an operating point in bits per second (R365). -/
def State.pointRate (s : State) (src : Nat) (p : Nat × Nat) : Nat :=
  match s.vleg src, s.enc src with
  | some l, _ =>
    let svc := s.nested src
    s.windowBits ((l.window.filter fun e => (if svc then decide (e.2.1 ≤ p.1) else e.2.1 == p.1) && decide (e.2.2.1 ≤ p.2)).map fun e => (e.1, e.2.2.2))
  | none, some e =>
    match e.streams[p.1]? with
    | some x => s.windowBits ((x.window.filter fun w => decide (w.2.1 ≤ p.2)).map fun w => (w.1, w.2.2))
    | none => 0
  | none, none => 0

/-- Rank of a point. -/
def rank (p : Nat × Nat) : Nat := 4 * p.1 + p.2

/-- The points a receiver may take, in rising rank (R365, R366). -/
def State.points (s : State) (src maxS maxT : Nat) : List (Nat × Nat) :=
  let fresh := match s.vleg src with | some l => decide (s.now < l.enabledAt + 1000000000) | none => false
  if fresh then [(0, 0)]
  else (List.range (min (s.spatials src) (maxS + 1))).flatMap fun a => (List.range (min 4 (maxT + 1))).map fun b => (a, b)

/-- The wanted point of R366, from points in rising rank with their rates; `T` in kbit/s, 0 suspends without MIN_ALWAYS
(Table 11.7). With no point in force the highest that fits is taken where none fits with the margin (Table 11.3; DEDUCED, log
entry 49). -/
def wantedPoint (pts : List (Nat × Nat)) (rate : Nat × Nat → Nat) (cur : Option (Nat × Nat)) (T : Nat) (always : Bool) : Option (Nat × Nat) :=
  let above (p : Nat × Nat) : Bool := match cur with | some c => decide (rank c < rank p) | none => true
  let below (p : Nat × Nat) : Bool := match cur with | some c => decide (rank p < rank c) | none => true
  let fits (p : Nat × Nat) : Bool := decide (rate p ≤ T * 1000)
  if T = 0 ∧ !always then none
  else match (pts.filter fun p => above p && decide (rate p ≤ T * 900)).getLast? with
  | some p => some p
  | none =>
    if (match cur with | some c => pts.contains c && fits c | none => false) then cur
    else
      match (pts.filter fun p => below p && fits p).getLast? with
      | some p => some p
      | none => if always then some (0, 0) else none

/-! ### Events and requests -/

/-- ForwardState (Table 11.5). -/
def State.forwardState (s : State) (key st : Nat) : State := s.raise key 0xF402 (le 1 st ++ le 3 0 ++ le 8 s.block)

/-- The frame at which a key-frame request made now takes effect in a stream, and whether the key-frame spacing makes it wait
(R352, R353). -/
def State.idrFrame (s : State) (key n : Nat) : Nat × Bool :=
  match s.enc key with
  | none => (0, false)
  | some e =>
    match e.streams[n]? with
    | none => (0, false)
    | some x =>
      match s.comp x.comp with
      | none => (0, false)
      | some c =>
        -- a critical encoding codes it more than 4 ms later (R657)
        let a := c.frameAfterCtrl (s.now + if (s.activeEntry key).isSome then 4000000 else 0)
        let b := match x.lastIdr with | some f => f + ceilDiv (u16 e.cfg 14 * 6000000) c.period | none => 0
        (max a b, decide (a < b))

/-- A key-frame request reaching a stream of an encoding (R352): merged into one that waits; counted deferred where it is the
one that waits for the spacing, or `told` its sender so. -/
def State.requestAt (s : State) (key n from_ : Nat) (told : Bool) : State :=
  let waits := (s.idrFrame key n).2
  s.updStream key n fun x =>
    let y := x.bump 20 1
    if x.req then let y := y.bump 24 1; if told && waits then y.bump 28 1 else y
    else { (if waits then y.bump 28 1 else y) with req := true, reqFrom := from_ }

/-- The first frame a request made now may take effect at, but for the spacing. -/
def State.requestFrom (s : State) (key n : Nat) : Nat :=
  match (s.enc key).bind (·.streams[n]?) with
  | some x => (match s.comp x.comp with
    | some c => c.frameAfterCtrl (s.now + if (s.activeEntry key).isSome then 4000000 else 0)
    | none => 0)
  | none => 0

/-- A key-frame request on this device: a trio's leader mirrors it for a critical encoding, and a follower waits for the
mirrored one (R657). -/
def State.streamRequest (s : State) (key n : Nat) (told : Bool) : State :=
  if s.following && (s.activeEntry key).isSome then s
  else
    let f := s.requestFrom key n
    (s.requestAt key n f told).mirror key 2 0 n f []

/-- The one request for a wanted point that waits for a switching point (R369). -/
def State.askSource (s : State) (key : Nat) : State :=
  match s.vleg key with
  | none => s
  | some l =>
    match l.source, l.wanted with
    | some src, some p =>
      if l.asked then s
      else
        let s := s.updVleg key fun l => { l with asked := true }
        match s.vleg src with
        | some x => s.request src { method := 1, ssrc := x.ssrcOf p.1, why := 1 }
        | none => s.streamRequest src p.1 false
    | _, _ => s

/-- The wanted point of a receiving leg chosen (R366, R370, Table 11.3). -/
def State.chooseWanted (s : State) (key : Nat) : State :=
  match s.vleg key with
  | none => s
  | some l =>
    match l.source with
    | none => s
    | some src =>
      if !s.flows key || l.st == 0 then s
      else
        let T := min l.target (u32 l.cfg 32)
        let w := wantedPoint (s.points src l.maxS l.maxT) (s.pointRate src) (if l.st = 2 then l.cur else none) T (u8 l.cfg 19 / 4 % 2 == 1)
        let moved := w != l.wanted
        let s := s.updVleg key fun l => { l with wanted := w, asked := l.asked && !moved }
        match w with
        | none => if l.st = 2 ∨ l.st = 1 then (s.updVleg key fun l => { l with st := 3, cur := none, old := none }).forwardState key 1 else s
        | some p =>
          let s := if l.st = 3 then (s.updVleg key fun l => { l with st := 1 }).forwardState key 2 else s
          -- a switch down to another layer of an SVC source waits for no switching point (R367)
          let waits := l.st != 2 || (match l.cur with | some c => c.1 != p.1 && !(s.nested src && decide (p.1 < c.1)) | none => true)
          if waits then s.askSource key else s

/-- The wanted point of every receiving leg chosen (R366). -/
def State.chooseAll (s : State) : State :=
  (s.video.legs.filter fun e => !e.2.sending).foldl (fun s e => s.chooseWanted (okey 3 e.1)) s

/-- LAYER_RECOMPUTE: every rate, then every wanted point (R365, R366). -/
def execLayerRecompute (s : State) : Host.Outcome State Fault Refusal :=
  let keep (t : Nat) : Bool := decide (s.now < t + 1200000000)
  let s := s.updVideo fun v => { v with
    legs := tmap v.legs fun _ l => { l with window := l.window.filter fun e => keep e.1 },
    encs := tmap v.encs fun _ e => { e with streams := e.streams.map fun x => { x with window := x.window.filter fun w => keep w.1 } } }
  .next s.chooseAll

/-! ### Forwarding a packet (R367 to R376) -/

/-- A packet of a source as the forwarder sees it: spatial index and SSRC, its units, RTP fields, whether it is an aggregation
packet, begins a picture of its SSRC, or is the first to show what picture it is; the numbers of that SSRC never received so far,
the arrival of its picture's first packet, its own arrival and its deadline. -/
structure Passing where
  src : Nat
  idx : Nat
  ssrc : Nat
  units : List NalUnit
  seq : Nat
  ts : Nat
  marker : Bool
  data : Bytes
  aggregate : Bool
  begins : Bool
  opens : Bool
  holes : List (Nat × Nat)
  picAt : Nat
  arrival : Nat
  deadline : Nat

/-- Temporal index of a unit (R363). -/
def tIndex (u : NalUnit) : Nat := min u.t 3

/-- The units of a packet lie within a point. -/
def Passing.within (p : Passing) (svc : Bool) (c : Nat × Nat) : Bool :=
  p.units.all fun u => (if svc then decide (u.s ≤ c.1) else p.idx == c.1) && decide (tIndex u ≤ c.2)

/-- A unit that shows what picture it is of: slice data, a prefix NAL unit, or the parameter sets of an IDR or IRAP picture. -/
def showsPicture (u : NalUnit) : Bool := u.slice || u.prefix_ || u.rap

/-- The packet is the first to show an IDR or IRAP picture. What a picture is, is known from its first packet that shows it; those
before it pass under the point in force (DEDUCED, log entry 123). -/
def Passing.rap (p : Passing) : Bool := p.opens && p.units.any (·.rap)

/-- The packet is of an IDR picture of an SVC layer (R368). -/
def Passing.layerIdr (p : Passing) (a : Nat) : Bool := p.units.any fun u => u.rap && u.s == a

/-- A receiving leg may enter a point of the source at this packet: at an IDR or IRAP picture of the point's SSRC or layer
(R317, R368). -/
def Passing.enters (p : Passing) (svc : Bool) (w : Nat × Nat) : Bool := if svc then p.layerIdr w.1 else p.idx == w.1 && p.rap

/-- A switch from the point in force takes effect at this packet (R367, R368): onto another SSRC at its IDR or IRAP picture, up
to another SVC layer at that of the layer, down at the next picture, up in t at a switching point. -/
def Passing.switches (p : Passing) (svc : Bool) (c w : Nat × Nat) : Bool :=
  if c.1 != w.1 && !svc then p.enters false w
  else if rank w < rank c then p.begins && (svc || p.idx == c.1)
  else if c.1 != w.1 then p.enters true w
  else c != w && p.opens && (svc || p.idx == w.1) && (p.rap || p.units.any fun u => u.up && decide (w.2 ≤ tIndex u))

/-- How many numbers of some runs lie after `a` and before `b`, none of which they cut (R375). -/
def holesBetween (l : List (Nat × Nat)) (a b : Nat) : Nat :=
  ((l.filter fun h => decide ((h.1 + 65536 - a) % 65536 < (b + 65536 - a) % 65536)).map (·.2)).sum

/-- A packet sent on a receiving leg, its header rewritten (R374 to R376). -/
def State.sendForwarded (s : State) (key : Nat) (p : Passing) : State :=
  match s.vleg key with
  | none => s
  | some l =>
    let same := l.lastSrc == some p.src && l.ssrc == some p.ssrc
    let late := same && (match l.lastSeq with | some q => decide (32768 ≤ (p.seq + 65536 - q) % 65536) || p.seq == q | none => false)
    if late then s.updVleg key fun l => l.bump 32 1
    else
      let gap := match same, l.lastSeq with | true, some q => holesBetween p.holes q p.seq | _, _ => 0
      -- a new offset on the first packet and at a change of SSRC, but not between streams of one encoding
      let anew := l.outTs.isNone || (!same && !((s.enc p.src).isSome && l.lastSrc == some p.src))
      let first := match l.outTs with
        | none => u32 l.cfg 56
        | some o => (o + max 1 ((p.picAt - l.picAt) * 90000 / 1000000000)) % 2 ^ 32
      let offset := if anew then (first + 2 ^ 32 - p.ts) % 2 ^ 32 else l.offset
      let ts := (p.ts + offset) % 2 ^ 32
      let seq := (l.seq + gap) % 65536
      let d := [0x80#8] ++ le 1 (u8 l.cfg 18 + (if p.marker then 128 else 0)) ++ be 2 seq ++ be 4 ts ++ be 4 (u32 l.cfg 48) ++ p.data
      let s := s.updVleg key fun l => { (l.bump 0 1).bump 8 p.data.length with
        seq := (seq + 1) % 65536, offset := offset, ssrc := some p.ssrc, lastSrc := some p.src, lastSeq := some p.seq,
        outTs := some ts, picAt := p.picAt }
      s.writeQueue (vqueue key) { kind := 2, flags := 0, obj := s.handle key, arrival := p.arrival, deadline := p.deadline, start := 0, data := d } false

/-- LayerSwitched (Table 11.5). -/
def State.layerSwitched (s : State) (key : Nat) (a b : Nat × Nat) : State :=
  (s.updVleg key fun l => l.bump 36 1).raise key 0xF401 (le 1 a.1 ++ le 1 a.2 ++ le 1 b.1 ++ le 1 b.2 ++ le 4 0 ++ le 8 s.block)

/-- A packet of a source at one receiving leg. -/
def State.receiverPacket (s : State) (key : Nat) (p : Passing) : State :=
  match s.vleg key with
  | none => s
  | some l =>
    if !s.flows key then s
    else
      let svc := s.nested p.src
      let mine := l.source == some p.src
      let s := if mine && l.st == 4 then (s.updVleg key fun l => { l with st := 1 }).forwardState key 4 else s
      let st := if mine && l.st == 4 then 1 else l.st
      let s := if mine && l.st == 4 then s.askSource key else s
      -- the switch onto a new source, or out of WAIT_SWITCH
      let enter := mine && st == 1 && (match l.wanted with | some w => p.enters svc w | none => false)
      let cur := if enter then l.wanted else if mine && st == 1 && l.old != some p.src then none else l.cur
      let moved : Option (Nat × Nat) :=
        if mine && st == 2 then
          match l.cur, l.wanted with
          | some c, some w => if p.switches svc c w then some w else none
          | _, _ => none
        else none
      let s := if enter then s.updVleg key fun l => { l with st := 2, cur := l.wanted, asked := false, old := none } else s
      let s := match moved, l.cur with
        | some w, some c => (s.updVleg key fun l => { l with cur := some w, asked := false }).layerSwitched key c w
        | _, _ => s
      let point := if enter then cur else match moved with | some w => some w | none => cur
      let on := (mine && (st == 2 || enter)) || (l.old == some p.src && !enter)
      match point with
      | none => s
      | some c =>
        if !on then s
        else if p.data.isEmpty then (if svc || p.idx == c.1 then s.updVleg key fun l => l.bump 28 1 else s)
        else if p.within svc c then s.sendForwarded key p
        else if p.aggregate && (svc || p.idx == c.1) then s.updVleg key fun l => l.bump 28 1
        else s

/-- A packet of a source handed to every receiving leg it feeds. -/
def State.forward (s : State) (p : Passing) : State := (s.receivers p.src).foldl (fun s k => s.receiverPacket k p) s

/-! ### Packets of a sending leg (R121, R362, R421) -/

/-- The place of an SSRC among those of a sending leg. -/
def VLeg.place (l : VLeg) (ssrc : Nat) : Option Nat := l.ssrcs.findIdx? (· == ssrc)

/-- The packet of a sending leg begins a picture: its timestamp differs from that of the last accepted one of its SSRC
(R367). -/
def State.beginsPicture (s : State) (key : Nat) (d : Bytes) : Bool :=
  match s.vleg key with
  | none => false
  | some l =>
    match l.place (bfld d 8 4) with
    | none => false
    | some i => match tget? l.src i with | some x => x.ts != some (bfld d 4 4) | none => true

/-- A run of numbers without one of them. -/
def cutRun (seq : Nat) (h : Nat × Nat) : List (Nat × Nat) :=
  let o := (seq + 65536 - h.1) % 65536
  if h.2 ≤ o then [h]
  else [((seq + 1) % 65536, h.2 - 1 - o), (h.1, o)].filter fun x => x.2 != 0

/-- The receive state of an SSRC after a packet: its sequence number, timestamp and arrival (R367, R375). -/
def SrcIn.note (x : SrcIn) (seq ts t : Nat) : SrcIn :=
  let begins := x.ts != some ts
  let x := { x with ts := some ts, picAt := if begins then t else x.picAt, opening := x.opening || begins }
  match x.high with
  | none => { x with high := some seq }
  | some h =>
    let d := (seq + 65536 - h) % 65536
    if d = 0 then x
    else if d < 32768 then
      let near (e : Nat × Nat) : Bool := decide ((seq + 65536 - e.1) % 65536 < 32768)
      { x with high := some seq, holes := ((if d = 1 then [] else [((h + 1) % 65536, d - 1)]) ++ x.holes).filter near }
    else { x with holes := x.holes.flatMap (cutRun seq) }

/-- The receive state of an SSRC of which no packet has come. -/
def SrcIn.none : SrcIn := { high := .none, holes := [], ts := .none, picAt := 0, opening := false, prefix_ := .none }

/-- An aggregation packet: STAP-A, STAP-B or MTAP of AVC, AP of HEVC (R373). -/
def aggregates (codec : Nat) (b : Bytes) : Bool :=
  if codec = 3 then u8 b 0 / 2 % 64 == 48 else decide (24 ≤ u8 b 0 % 32) && decide (u8 b 0 % 32 ≤ 27)

/-- A plain media packet of a sending leg that arrived at `t`: through the leg's queue, its SSRC and payload type known, counted,
forwarded and decoded (R362, R365, R382, R421). -/
def State.videoAccept (s : State) (key t : Nat) (d : Bytes) : State :=
  match s.vleg key with
  | none => s
  | some l =>
    if !s.flows key then s
    else
      -- the queue is read as it is written, and its reader makes the checks
      let r : Rec := { kind := 2, flags := 0, obj := s.handle key, arrival := t, deadline := t + 150000, start := 0, data := d }
      let s := ((s.writeQueue (vqueue key) r true).readQueue (vqueue key)).1
      match l.place (bfld d 8 4) with
      | none => s.updVleg key fun l => l.bump 24 1
      | some i =>
        if u8 d 1 % 128 ≠ u8 l.cfg 18 then s.updVleg key fun l => l.bump 24 1
        else
          let b := rtpPayload d
          let us := if b.isEmpty then [] else Config.nalUnits l.codec b
          let x := tget SrcIn.none l.src i
          let begins := x.ts != some (bfld d 4 4)
          let seq := bfld d 2 2
          let (pre, us) := withPrefix l.codec x.prefix_ us
          let y := x.note seq (bfld d 4 4) t
          let us' := us.map fun u => if u8 l.cfg 23 = 2 then u else { u with s := i }
          let shows := us'.any showsPicture
          let x := { y with prefix_ := pre, opening := y.opening && !shows }
          let top (f : NalUnit → Nat) : Nat := us'.foldl (fun m u => max m (f u)) 0
          let s := s.mirror key 1 (t / blockNs) 0 0 d
          let s := s.tapCopy 4 key 0 false t (bfld d 4 4) 0 d
          let s := s.updVleg key fun l => { (l.bump 0 1).bump 8 b.length with
            src := tset l.src i x, lastArrival := t, window := (t, top (·.s), top tIndex, 8 * b.length) :: l.window }
          let s := s.forward {
            src := key, idx := i, ssrc := bfld d 8 4, units := us', seq := seq, ts := bfld d 4 4, marker := u8 d 1 / 128 == 1,
            data := b, aggregate := aggregates l.codec b, begins := begins, opens := y.opening && shows, holes := x.holes, picAt := x.picAt,
            arrival := t, deadline := t + 150000 }
          if i = 0 then s.decodeFeed key seq (bfld d 4 4) t (u8 d 1 / 128 == 1) b else s

/-- The policer of a sending leg at time `t` (R121): wire rate and burst as declared, in 10^-9 bytes. -/
def VLeg.tokensNow (l : VLeg) (t : Nat) : Nat := min (u32 l.cfg 40 * 1000000000) (l.tokens + (t - l.tokensAt) * (u32 l.cfg 32 * 125))

/-- The ingress deadline of a packet of a sending leg that arrived at `t` (Table 4.9), none where nothing waits for it: forwarded,
and as a source of compositions that show it. One path that can still be met keeps the packet. -/
def State.videoDeadline (s : State) (key t : Nat) : Option Nat :=
  let fwd := if (s.receivers key).isEmpty then none else some (t + 150000)
  if (s.dec key).isNone then fwd
  else
    let fs := (s.video.comps.filter fun e => s.flows (okey 4 e.1) && e.2.planes.any fun p => fetches p && hkey (u32 p 4) == key).map fun e =>
      e.2.boundary (e.2.frameAfter t) / 6
    match fs with
    | [] => none
    | a :: r => some (max (r.foldl min a) (fwd.getD 0))

/-- A packet's deadline has passed, or the drain of the leg's queue at its wire rate cannot meet it (R120). -/
def State.videoLate (s : State) (key t : Nat) : Bool :=
  match s.videoDeadline key t, s.vleg key with
  | some dl, some l =>
    let held := ((s.queue? (vqueue key)).map fun q => (q.recs.map Rec.size).sum).getD 0
    decide (dl < s.now + held * 8000000 / u32 l.cfg 32)
  | _, _ => false

/-- A packet refused as late, counted against its leg (R120). -/
def State.refuseLate (s : State) (key : Nat) : State := s.updVleg key fun l => l.bump 16 1

/-- A media packet of a sending leg as it arrives with `n` frame bytes: policed, then through Onyx where the leg has a
receive key, or accepted (R421). One that is late is refused (R120). -/
def State.videoMedia (s : State) (key t n : Nat) (d : Bytes) : State :=
  match s.vleg key with
  | none => s
  | some l =>
    if !s.flows key || !l.sending then s
    else
      let tok := l.tokensNow t
      if tok < n * 1000000000 then s.updVleg key fun l => { l.bump 16 1 with tokens := tok, tokensAt := t }
      else
        let s := s.updVleg key fun l => { l with tokens := tok - n * 1000000000, tokensAt := t }
        if s.videoLate key t then s.refuseLate key
        else if u32 l.cfg 8 = 0 then s.videoAccept key t d
        else
          let dl := (s.videoDeadline key t).getD 0
          s.submit 1 (onyxItem (u32 l.cfg 8 % 2 ^ 20) (onyxLevel false false) (s.handle key) dl d (.cipherIn key t dl false))

/-! ### RTCP (R377 to R379) -/

/-- The frame bytes of a datagram of a leg. -/
def State.legFrameLen (s : State) (key n : Nat) : Nat :=
  (if ktype key = 2 then (s.leg key).map fun l => audioRoute l.cfg else (s.vleg key).map fun l => videoRoute l.cfg).elim n fun x => x.frameLen n

/-- RTCP of a leg for the function that created it (R424), policed as the frame it makes (R425). -/
def State.rtcpToHost (s : State) (key port t : Nat) (d : Bytes) : State :=
  match s.obj key with
  | some o => if o.owner < 4 then s.toHost o.owner (s.handle key) port 3 t (s.legFrameLen key d.length) d else s.portBump port 64 1
  | none => s

/-- A sender report translated for a receiving leg (R378). -/
def VLeg.report (l : VLeg) (d : Bytes) : Bytes :=
  [0x80#8, 200, 0, 6] ++ be 4 (u32 l.cfg 48) ++ (d.drop 8).take 8 ++ be 4 ((bfld d 16 4 + l.offset) % 2 ^ 32) ++
  be 4 (tget 0 l.stats 0 % 2 ^ 32) ++ be 4 (tget 0 l.stats 8 % 2 ^ 32)

/-- One RTCP packet of a video leg handled (Table 11.2). -/
def State.rtcpPart (s : State) (key t : Nat) (d : Bytes) : State :=
  match s.vleg key with
  | none => s
  | some l =>
    let pt := u8 d 1
    let port := u8 l.cfg 16
    let fmt := u8 d 0 % 32
    if l.sending then
      let s := s.rtcpToHost key port t d
      if pt = 200 then
        (s.receivers key).foldl (fun s k =>
          match s.vleg k with
          | some x => if x.ssrc = some (bfld d 4 4) ∧ x.lastSrc = some key ∧ s.flows k then s.sendRtcp k (x.report d) else s
          | none => s) s
      else s
    else if pt = 206 ∧ (fmt = 1 ∨ fmt = 4) then
      -- the source forwarded now: until a pending switch takes effect, the one before it
      match l.old.or l.source with
      | none => s
      | some src =>
        let a := ((if l.st = 2 ∨ l.old.isSome then l.cur else l.wanted).map (·.1)).getD 0
        match s.vleg src with
        | some x =>
          let ssrc := if l.lastSrc = some src then l.ssrc.getD (x.ssrcOf a) else x.ssrcOf a
          s.request src { method := if fmt = 1 then 1 else 2, ssrc := ssrc, why := 2 }
        | none => s.streamRequest src a false
    else
      -- a generic NACK is counted (Table 11.2)
      (if pt = 205 ∧ fmt = 1 then s.updVleg key fun l => l.bump 48 1 else s).rtcpToHost key port t d

/-- A plain RTCP packet of a video leg. -/
def State.videoRtcp (s : State) (key t : Nat) (d : Bytes) : State := (rtcpParts 64 d).foldl (fun s x => s.rtcpPart key t x) s

/-! ### Commands and timeouts -/

/-- The burst a receiving leg needs for a SUB_FRAME encoding's stream (R384). -/
def burstNeed (cpb p n : Nat) (overTimes : Int) : Nat := ceilDiv cpb 8 + (ceilDiv cpb (8 * p) + n + 1) * ((82 : Int) + overTimes).toNat

/-- A receiving leg's burst covers an encoding, a stream's CPB size taken as `cpb n`. -/
def State.burstCovers (s : State) (leg : Bytes) (e : Encoding) (cpb : Nat → Nat) : Bool :=
  u8 e.cfg 9 % 2 == 0 || (List.range e.streams.length).all fun i =>
    decide (burstNeed (cpb i) (u16 e.cfg 16) (u8 e.cfg 8) (s.port (u8 leg 16)).overhead ≤ u32 leg 40)

/-- The own part of ForwardSet (R361, R381, R384, R465, R654). A new source rewrites the leg's shaper, which takes effect at its
next refill (R462). -/
def effForwardSet (r : Req) (s : State) : Eff :=
  let p := r.payload
  s.withHandle r.tgt [0x03] fun key =>
  match s.vleg key with
  | none => .fail .noSuchObject []
  | some l =>
    s.withHandle0 (u32 p 0) [0x03, 0x05] fun src =>
    need (match src.bind s.vleg with | some x => x.sending | none => true) .noSuchObject (
    need (!l.sending) .invalidArg (
    need (decide (u8 p 8 ≤ 2) && decide (u8 p 9 ≤ 3) && zeros p 10 2 &&
      (match src.bind s.enc with | some e => s.burstCovers l.cfg e fun i => ((e.streams[i]?).map (·.cpb)).getD 0 | none => true) &&
      !(s.critical key && (match src with | some k => !s.critical k | none => false))) .invalidArg (
    let limits (l : VLeg) : VLeg := { l with target := u32 p 4, maxS := u8 p 8, maxT := u8 p 9 }
    match src with
    | none => .done [] r.tgt (s.updVleg key fun l => { limits l with source := none, old := none, st := 0, cur := none, wanted := none })
    | some k =>
      if l.source = some k then .done [] r.tgt (s.updVleg key limits).chooseAll
      else
        need (decide (((s.receivers k).filter (· != key)).length < 1024)) .noResource (
        let s := s.updVleg key fun l =>
          let old := if l.st = 2 then l.source else l.old
          { limits l with source := some k, old := old, st := 1, wanted := none, asked := false, cur := if old.isSome then l.cur else none }
        let s := s.pendShaper (vqueue key) (u32 l.cfg 32) (u32 l.cfg 40) (if ktype k = 5 then 4 else 5)
        .later [] r.tgt (s.chooseAll.schedule (.refill (vqueue key)) (r.origin r.tgt) .applied)))))

/-- FORWARD_SET. -/
def execForwardSet (r : Req) (s : State) : Host.Outcome State Fault Refusal :=
  .next (s.command 0x0404 (· == 12) r (effForwardSet r))

/-- The own part of ForwardTargetSet. -/
def effForwardTargetSet (r : Req) (s : State) : Eff :=
  s.withHandle r.tgt [0x03] fun key =>
  match s.vleg key with
  | none => .fail .noSuchObject []
  | some l =>
    need (!l.sending) .invalidArg (
    .done [] r.tgt (s.updVleg key fun l => { l with target := u32 r.payload 0 }).chooseAll)

/-- FORWARD_TARGET_SET. -/
def execForwardTargetSet (r : Req) (s : State) : Host.Outcome State Fault Refusal :=
  .next (s.command 0x0405 (· == 4) r (effForwardTargetSet r))

/-- A sending leg without a packet for its media timeout: its receivers lose their source (Table 11.3). -/
def State.videoTimeout (s : State) (key : Nat) : State :=
  match s.vleg key with
  | none => s
  | some l =>
    let n := u16 l.cfg 44
    if !l.sending || n == 0 || !s.flows key || decide (s.now < l.lastArrival + n * 1000000) then s
    else
      (s.receivers key).foldl (fun s k =>
        match s.vleg k with
        | some x =>
          if x.source = some key ∧ (x.st = 1 ∨ x.st = 2) then (s.updVleg k fun x => { x with st := 4, cur := if x.old.isSome then x.cur else none }).forwardState k 3
          else s
        | none => s) s

/-- MEDIA_TIMEOUT: an audio leg enters NO_MEDIA, or the receivers of a video leg lose their source (R208, R381). -/
def execMediaTimeout (key : Nat) (s : State) : Host.Outcome State Fault Refusal :=
  .next (if ktype key = 3 then s.videoTimeout key else s.legTimeout key)

/-- A video leg becomes ACTIVE or HELD at its frame boundary (Table 9.4, R380, R381). -/
def State.vlegFlow (s : State) (key : Nat) (on : Bool) : State :=
  match s.vleg key with
  | none => s
  | some l =>
    if l.sending then
      if on then
        let s := s.updVleg key fun l => { l with enabledAt := s.now, lastArrival := s.now }
        match l.decode with | some d => if d.st = 1 then (s.updDec key fun d => { d with arm := true }).episode key else s | none => s
      else
        let s := s.updVleg key fun l => { l with decode := l.decode.map fun d => d.hold, src := [] }
        -- the leg fed by it waits for an IDR or IRAP picture, for which one request is made (R380)
        (s.receivers key).foldl (fun s k => (s.updVleg k fun x =>
          let x := if x.old = some key then { x with old := none, cur := none } else x
          let x := if x.lastSrc = some key then { x with lastSeq := none } else x
          if x.source = some key then { x with st := 1, cur := if x.old.isSome then x.cur else none, asked := false } else x).askSource k) s
    else if on then (s.updVleg key fun l => { l with outTs := none, st := if l.source.isSome then 1 else 0, cur := none, asked := false }).chooseWanted key
    else s.updVleg key fun l => { l with st := if l.source.isSome then 1 else 0, cur := none, old := none, wanted := none, asked := false }

/-- Receivers of a source that is gone (Table 11.3). -/
def State.sourceGone (s : State) (src : Nat) : State :=
  let s := s.updVideo fun v => { v with legs := tmap v.legs fun _ x => if x.lastSrc = some src then { x with lastSrc := none } else x }
  (s.receivers src).foldl (fun s k =>
    match s.vleg k with
    | some x =>
      if x.source = some src then
        (s.updVleg k fun x => { x with source := none, old := none, st := 0, cur := none, wanted := none }).forwardState k 5
      else s.updVleg k fun x => { x with old := none, cur := none }
    | none => s) s

/-- Changes that waited and now never take effect: no Applied, their budget released (R409, R793). -/
def State.dropWhere (s : State) (p : Sched → Bool) : State :=
  let hit := s.sched.filter p
  let s := { s with sched := s.sched.filter fun e => !p e }
  hit.foldl (fun s e =>
    let s := match e.act with | .release c => s.releaseDue c | _ => s
    if e.org.mbx < 5 then s.updMb e.org.mbx fun m => { m with outstanding := m.outstanding - 1 } else s) s

/-- Those that waited for a boundary of an object that is gone. -/
def State.dropScheds (s : State) (p : Boundary → Bool) : State := s.dropWhere fun e => p e.at_

/-- A destroyed video leg gone at its frame boundary: queue, shaper, keys; what it feeds is unbound (Tables 3.5 and 11.3). -/
def State.vlegFree (s : State) (key : Nat) : State :=
  let i := kidx key
  let s := (s.sourceGone key).dropScheds fun b => match b with | .leg j _ => j == i | .picture j _ => j == i | _ => false
  let s := ((s.dropQueue (vqueue key)).spendKeys key).updVideo fun v => { v with legs := tdel v.legs i }
  { s with egress := { s.egress with legs := tdel s.egress.legs (vqueue key) } }.dropObj key

end Sys2Proof.Machine
end

