-- ==== Sys2Proof/Machine/Recorder.lean ====
section
/-!
DEFINITION. The recorder (R504 to R532): partitions and their rings, taps, records, freeze ranges, export and adoption.
-/

namespace Sys2Proof.Machine

/-! ### Rings -/

/-- A ring's bytes. -/
def Part.bytesOf (p : Part) : Nat := p.size * 2 ^ 20

/-- A record lies in a frozen region (R516). -/
def Part.frozen (p : Part) (r : Record) : Bool := p.freezes.any fun f => decide (f.2.lo ≤ r.off) && decide (r.off < f.2.hi)

/-- The bytes that frozen regions cover. -/
def Part.frozenBytes (p : Part) : Nat := ((p.recs.filter p.frozen).map (·.len)).sum

/-- The frozen record that holds ring offset `x`. -/
def Part.frozenAt (p : Part) (x : Nat) : Option Record :=
  p.recs.find? fun r => p.frozen r && decide (r.off % p.bytesOf ≤ x) && decide (x < r.off % p.bytesOf + r.len)

/-- The stream offset at which the writer goes on: past frozen regions, which it never overwrites (R517). -/
def Part.skip (p : Part) : Nat → Nat → Nat
  | 0, w => w
  | n + 1, w =>
    match p.frozenAt (w % p.bytesOf) with
    | some r => p.skip n (w + (r.off % p.bytesOf + r.len - w % p.bytesOf))
    | none => w

/-- The bytes free for one record at a stream offset: up to the ring's end or the next frozen region. -/
def Part.gap (p : Part) (w : Nat) : Nat :=
  let x := w % p.bytesOf
  ((p.recs.filter fun r => p.frozen r && decide (x ≤ r.off % p.bytesOf)).map fun r => r.off % p.bytesOf - x).foldl min (p.bytesOf - x)

/-- The CRC-32C of a record at a ring offset (R515). -/
def recordCrc (off : Nat) (head data : Bytes) : Nat := (crc32c (le 8 off ++ head ++ data)).toNat

/-- Header bytes 0 to 59 of Table 16.2. -/
def recordHead (kind flags tap seq obj len capture stamp lost : Nat) : Bytes :=
  le 4 0x44514352 ++ le 1 kind ++ le 1 flags ++ le 2 tap ++ le 8 seq ++ le 4 obj ++ le 4 len ++ le 8 (capture / 2) ++
  le 8 (capture / blockNs) ++ le 4 stamp ++ le 4 lost ++ le 12 0

/-- Records whose overwrite begins are gone; those not yet exported are lost to export (R519, R522). -/
def Part.clear (p : Part) (x n : Nat) : Part :=
  let hit (r : Record) : Bool := decide (r.off % p.bytesOf < x + n) && decide (x < r.off % p.bytesOf + r.len)
  let overTimes := p.recs.filter hit
  let lost := if u8 p.cfg 0 = 0 then 0 else (overTimes.filter fun r => decide (p.exported < r.off + r.len)).length
  let done := (overTimes.map fun r => r.off + r.len).foldl max 0
  { p with recs := p.recs.filter fun r => !hit r, lostExport := p.lostExport + lost, skipped := p.skipped || decide (0 < lost),
           exported := if 0 < lost then max p.exported done else p.exported }

/-- A record put at the write position `w`: growing regions take it in, unless they would cover more than half the ring. The
ranges that stop growing are answered (R516, R518). -/
def Part.put (p : Part) (w : Nat) (r : Record) (now : Nat) : Part × List Nat :=
  let p := p.clear (w % p.bytesOf) r.len
  let p := { p with recs := p.recs ++ [r], write := w + r.len, seq := p.seq + 1, written := p.written + 1, bytes := p.bytes + r.len }
  p.freezes.foldl (fun (a : Part × List Nat) f =>
    let takes := f.2.growing && decide (now ≤ f.2.t2) && (decide (f.2.lo < f.2.hi) ||
      (!r.filler && decide (f.2.t1 ≤ r.capture) && decide (r.capture ≤ f.2.t2)))
    if !takes then a
    else
      let q : Part := { a.1 with freezes := tupd a.1.freezes f.1 fun x => { x with lo := if x.lo < x.hi then x.lo else w, hi := w + r.len } }
      if 2 * q.frozenBytes ≤ q.bytesOf then (q, a.2)
      else ({ a.1 with freezes := tupd a.1.freezes f.1 fun x => { x with growing := false } }, a.2 ++ [f.1])) (p, [])

/-- The copy written next: the one that has waited longest. -/
def Part.nextCopy (p : Part) : Option (Copy × Part) :=
  match p.ingest, p.pics with
  | [], [] => none
  | c :: r, [] => some (c, { p with ingest := r })
  | [], c :: r => some (c, { p with pics := r })
  | a :: r, b :: q => if a.done ≤ b.done then some (a, { p with ingest := r }) else some (b, { p with pics := q })

/-- FreezeFull (Table 16.6). -/
def State.freezeFull (s : State) (key : Nat) (l : List Nat) : State :=
  l.foldl (fun s i => s.raise key 0xF700 (le 1 i ++ le 7 0 ++ le 8 s.block)) s

/-- RECORD_WRITE: the next record of a partition, or the filler that must come before it (R505, R506, R517). Nothing is
written while the throttled share lasts (R526). -/
def execRecordWrite (part : Nat) (s : State) : Host.Outcome State Fault Refusal :=
  if 16 ≤ part then .fault .noSuchUnit
  else
    let key := okey 6 part
    match s.part key with
    | none => .next s
    | some p =>
      if s.work.throttled || !s.mem.ddr || s.unitDown 0x0D 0 then .next s
      else
        match p.nextCopy with
        | none => .next s
        | some (c, q) =>
          let n := recordLen c.data.length
          let w := p.skip (p.recs.length + 1) p.write
          let off := w % p.bytesOf
          let gap := p.gap w
          if gap < n then
            -- a filler; the spec states no capture time of one
            let (free, s) := s.draw
            let head := recordHead 0 0 0xFFFF p.seq 0 (gap - 64) free.toNat 0 0
            let (x, full) := p.put w { off := w, len := gap, capture := 0, done := s.now, filler := true, bytes := head ++ le 4 (recordCrc off head []) } s.now
            .next (((s.updPart key fun _ => x).memWrite (p.base * 2 ^ 20 + off) gap).freezeFull key full)
          else
            let lost := match tget? q.taps c.tap with | some t => t.lost | none => 0
            let head := recordHead c.kind ((if c.concealed then 1 else 0) + (if 0 < lost then 2 else 0)) c.tap p.seq c.obj c.data.length
              c.capture c.stamp lost
            let q := { q with taps := tupd q.taps c.tap fun t => { t with lost := 0 } }
            let (x, full) := q.put w { off := w, len := n, capture := c.capture, done := c.done, filler := false,
                                       bytes := head ++ le 4 (recordCrc off head c.data) ++ c.data } s.now
            .next (((s.updPart key fun _ => x).memWrite (p.base * 2 ^ 20 + off) n).freezeFull key full)

/-- PICTURE_COPY_TIMEOUT: picture copies not started within a frame period are dropped and counted (R509). -/
def execPictureCopyTimeout (part : Nat) (s : State) : Host.Outcome State Fault Refusal :=
  if 16 ≤ part then .fault .noSuchUnit
  else .next (s.updPart (okey 6 part) fun p =>
    let late := p.pics.filter fun c => decide (c.deadline ≤ s.now)
    late.foldl (fun p c => p.drop c.tap) { p with pics := p.pics.filter fun c => decide (s.now < c.deadline) })

/-- FREEZE_END: t2 has passed and the region stops growing (R516). -/
def execFreezeEnd (part range : Nat) (s : State) : Host.Outcome State Fault Refusal :=
  if 16 ≤ part then .fault .noSuchUnit
  else .next (s.updPart (okey 6 part) fun p => { p with freezes := tupd p.freezes range fun f =>
    if f.t2 < s.now then { f with growing := false } else f })

/-- A recorder engine fault: ingest buffers dropped and counted as copies lost (Table 16.5). -/
def State.recorderFault (s : State) : State :=
  s.updRec fun x => { x with parts := tmap x.parts fun _ p => p.ingest.foldl (fun p c => p.drop c.tap) { p with ingest := [] } }

/-! ### Block work -/

/-- The A-law or µ-law code of silence. -/
def silence (codec : Nat) : Byte := if codec = 2 then 0xFF else 0xD5

/-- Block copies of TDM ingress at a block start (Table 16.1), and the values firmware saves in retained memory (R528). -/
def State.recorderBlock (s : State) : State :=
  let s := (s.tapped 2).foldl (fun s key =>
    match s.leg key with
    | some l => s.tapCopy 2 key 0 false s.now 0 0 ((s.tdmSamples (u32 l.cfg 24 % 2 ^ 20) (u8 l.cfg 28)).map fun b => b.getD (silence l.codec))
    | none => s) s
  s.updRec fun x => { x with saved := x.parts.map fun e => (e.1, (e.2.write, e.2.freezes)) }

/-- Copies of matrix outputs at t_mix; a missing block leaves none (R508, R510). -/
def State.tapOutputs (s : State) : State :=
  (s.tapped 3).foldl (fun s key =>
    match s.leg key with
    | some l =>
      match tget? s.matrix.outMix l.m with
      | some x => s.tapCopy 3 key 0 false ((s.block - 1) * blockNs) 0 0 (x.flatMap fun v => le 3 (unsigned 24 v))
      | none => s
    | none => s) s

/-! ### Taps -/

/-- The tapped byte rate with 64 bytes a record, in B/s as a fraction (Tables 16.1 and 4.7). -/
def State.tapRate (s : State) (kind key stream : Nat) : Nat × Nat :=
  match kind with
  | 1 => match s.leg key with | some l => ((s.wireBytes l.cfg 46 + 64) * 1000, u8 l.cfg 12) | none => (0, 1)
  | 2 => (8000 + 64 * 500, 1)
  | 3 => (144000 + 64 * 500, 1)
  | 4 => match s.vleg key with | some l => (u32 l.cfg 32 * 125 + 64 * u32 l.cfg 36, 1) | none => (0, 1)
  | 5 =>
    match (s.enc key).bind (·.streams[stream]?) with
    | some x => match s.comp x.comp with | some c => (x.cap * 125 * c.rate.2 + 64 * c.rate.1, c.rate.2) | none => (0, 1)
    | none => (0, 1)
  | _ =>
    match s.comp key with
    | some c => (c.w * c.h * 3 / 2 * (if c.depth = 10 then 2 else 1) * c.rate.1 + 64 * c.rate.1, c.rate.2)
    | none => (0, 1)

/-- The data bytes of a tap's largest record. -/
def State.tapLargest (s : State) (kind key stream : Nat) : Nat :=
  match kind with
  | 1 =>
    match s.leg key with
    | some l =>
      let n := u16 l.cfg 46
      if l.kind = 3 then n
      else n - 18 - (if u8 l.cfg 33 = 4 then 20 else 40) - 8 - (if u8 l.cfg 39 / 4 % 2 = 1 then 4 else 0) - tagOf (u32 l.cfg 24)
    | none => 0
  | 2 => 16
  | 3 => 288
  | 4 =>
    match s.vleg key with
    | some l => u16 l.cfg 28 - 18 - (if u8 l.cfg 17 = 4 then 20 else 40) - 8 - (if u8 l.cfg 19 / 2 % 2 = 1 then 4 else 0) - tagOf (u32 l.cfg 8)
    | none => 0
  | 5 => match (s.enc key).bind (·.streams[stream]?) with | some x => ceilDiv x.cpb 8 | none => 0
  | _ => match s.comp key with | some c => c.w * c.h * 3 / 2 * (if c.depth = 10 then 2 else 1) | none => 0
where
  /-- the SRTP tag of the profile of a receive key -/
  tagOf (h : Nat) : Nat :=
    match tget? s.onyx.keys (h % 2 ^ 20) with
    | some k => if h = 0 then 0 else if k.profile = 3 then 10 else if k.profile = 4 then 4 else 16
    | none => 0

/-- The cost of a tap (Table 4.7). -/
def State.tapCost (s : State) (kind key stream : Nat) (exports : Bool) : Costs :=
  let r := s.tapRate kind key stream
  costOf [(0x000A, 0, ceilDiv (r.1 * (if exports then 2 else 1)) (r.2 * 1000))]

/-- Two fractions added. -/
def addRate (a b : Nat × Nat) : Nat × Nat :=
  let d := Nat.lcm a.2 b.2
  (a.1 * (d / a.2) + b.1 * (d / b.2), d)

/-- The bytes of a datagram's frame on the wire: F of R524. -/
def State.exportF (s : State) (c : Bytes) : Nat :=
  ((1408 + 24 + 8 + (if u8 c 41 = 4 then 20 else 40) + 18 + (if u8 c 1 = 1 then 4 else 0) : Nat) + (s.port (u8 c 40)).overhead).toNat

/-- The ring-byte rate of an export setting in B/s, as a fraction (R524). -/
def State.ringRate (s : State) (c : Bytes) : Nat × Nat :=
  if u8 c 0 = 1 then (u32 c 4 * 1000, 1) else (u32 c 4 * 125 * 1408, s.exportF c)

/-- The checks of R524 on some taps (kind, object, stream) against an export setting. -/
def State.exportFits (s : State) (c : Bytes) (l : List (Nat × Nat × Nat)) : Bool :=
  u8 c 0 == 0 ||
  (let sum := l.foldl (fun a t => addRate a (s.tapRate t.1 t.2.1 t.2.2)) (0, 1)
   let big := (l.map fun t => recordLen (s.tapLargest t.1 t.2.1 t.2.2)).foldl max 0
   let r := s.ringRate c
   decide (sum.1 * r.2 ≤ r.1 * sum.2) && decide (big * 10 * r.2 ≤ r.1))

/-- The taps of a partition that stay. -/
def Part.tapList (p : Part) : List (Nat × Nat × Nat) := (p.taps.filter fun t => !t.2.dying).map fun t => (t.2.kind, t.2.obj, t.2.stream)

/-- The lowest free tap ID. -/
def Part.freeTap (p : Part) : Nat → Nat → Nat
  | i, 0 => i
  | i, n + 1 => if thas p.taps i then p.freeTap (i + 1) n else i

/-- The object of a tap is of the type its kind needs (Table 16.1, R532). -/
def State.tapObj (s : State) (kind key stream : Nat) : Bool :=
  match kind with
  | 1 => match s.leg key with | some l => l.kind == 1 || l.kind == 3 | none => false
  | 2 => match s.leg key with | some l => l.kind == 2 | none => false
  | 3 => (s.leg key).isSome
  | 4 => match s.vleg key with | some l => l.sending | none => false
  | 5 => match s.enc key with | some e => decide (stream < e.streams.length) | none => false
  | 6 => (s.comp key).isSome
  | _ => false

/-- The taps of the whole bridge. -/
def State.tapCount (s : State) : Nat := (s.recorder.parts.map fun e => e.2.taps.length).sum

/-- Every object type (Table 3.2). -/
def objTypes : List Nat := [1, 2, 3, 4, 5, 6, 7, 8, 9, 10, 11, 12, 13]

/-- The own part of TapSet (R512, R513, R524). What a tap costs is reserved here; a later change of its object's rates leaves it as it
is until an ExportSet of the partition costs its taps anew (DESIGN CHOICE, log entry 123). -/
def effTapSet (r : Req) (s : State) : Eff :=
  let p := r.payload
  let add := u8 p 0 == 1
  s.withHandle r.tgt [0x06] fun key =>
  match s.part key with
  | none => .fail .noSuchObject []
  | some x =>
    if add then
      let kind := u8 p 1
      let stream := u8 p 8
      s.withHandle (u32 p 4) objTypes fun obj =>
      -- a stream is a unit of its encoding (R799)
      needUnit (kind != 5 || (match s.enc obj with | some e => decide (stream < e.streams.length) | none => true)) (
      need (!x.evidence) .wrongState (
      need (s.tapObj kind obj stream && (kind == 5 || stream == 0) && zeros p 9 3) .invalidArg (
      let n := recordLen (s.tapLargest kind obj stream)
      need (decide (x.taps.length < 4096) && decide (s.tapCount < 16384) && decide (8 * n ≤ x.bytesOf) &&
        s.exportFits x.cfg ((kind, obj, stream) :: x.tapList)) .noResource (
      let c := s.tapCost kind obj stream (u8 x.cfg 0 != 0)
      s.admission c [] fun s _ =>
        let i := x.freeTap 0 4096
        let s := (s.updPart key fun q => { q with taps := tset q.taps i ({ kind := kind, obj := obj, stream := stream, on := false, dying := false, lost := 0, cost := c } : Tap) }).updObj key
          fun o => { o with cost := plusCost o.cost c }
        .later (le 2 i ++ le 2 0) r.tgt (s.schedule (.block (s.firstBlock r.mbx)) (r.origin r.tgt) (.tapOn (kidx key) i))))))
    else
      let i := u16 p 2
      -- a remove needs no object; one that is given is checked (R81)
      s.withHandle0 (u32 p 4) objTypes fun _ =>
      need (!x.evidence) .wrongState (
      match tget? x.taps i with
      | some t =>
        need (u8 p 0 == 2 && !t.dying && zeros p 9 3) .invalidArg (
        let s := ((s.updPart key fun q => { q with taps := tupd q.taps i fun t => { t with dying := true } }).updObj key
          fun o => { o with cost := minusCost o.cost t.cost }).releaseAt (.block (s.firstBlock r.mbx)) t.cost
        .later (le 2 i ++ le 2 0) r.tgt (s.schedule (.block (s.firstBlock r.mbx)) (r.origin r.tgt) (.tapOff (kidx key) i)))
      | none => .fail .invalidArg [])

/-- TAP_SET. -/
def execTapSet (r : Req) (s : State) : Host.Outcome State Fault Refusal :=
  .next (s.command 0x0704 (· == 12) r (effTapSet r))

/-- A tap copies from here on. -/
def State.tapOn (s : State) (part i : Nat) : State :=
  s.updPart (okey 6 part) fun p => { p with taps := tupd p.taps i fun t => { t with on := true } }

/-- A tap removed; copies already taken are written (R512). -/
def State.tapOff (s : State) (part i : Nat) : State := s.updPart (okey 6 part) fun p => { p with taps := tdel p.taps i }

/-- The taps on an object released with it (R512, Table 3.5). -/
def State.dropTaps (s : State) (obj : Nat) : State :=
  s.recorder.parts.foldl (fun s e =>
    e.2.taps.foldl (fun s t =>
      if t.2.obj = obj then
        let s := s.updPart (okey 6 e.1) fun p => { p with taps := tdel p.taps t.1 }
        if t.2.dying then s else (s.releaseNow t.2.cost).updObj (okey 6 e.1) fun o => { o with cost := minusCost o.cost t.2.cost }
      else s) s) s

/-! ### Partition commands -/

/-- The regions of the recorder area in use, in MiB: partitions and rings not yet adopted. -/
def State.ringRegions (s : State) : List (Nat × Nat) :=
  (s.recorder.parts.map fun e => (e.2.base, e.2.size)) ++ s.recorder.survivors.map fun x => (x.base, x.size)

/-- The lowest place of the recorder area where a ring fits (R504). -/
def State.ringPlace (s : State) (size : Nat) : Option Nat :=
  let used := s.ringRegions
  let starts := s.mem.recLo :: used.map fun e => e.1 + e.2
  (starts.filter fun b => decide (s.mem.recLo ≤ b) && decide (b + size ≤ recHi) && used.all fun e => decide (e.1 + e.2 ≤ b) || decide (b + size ≤ e.1)).foldl
    (fun a b => match a with | some x => some (min x b) | none => some b) none

/-- A partition just made over a ring. -/
def Part.new (base size : Nat) : Part where
  base := base
  size := size
  evidence := false
  write := 0
  seq := 0
  taps := []
  ingest := []
  pics := []
  recs := []
  freezes := []
  cfg := List.replicate 96 0
  exported := 0
  acked := 0
  start := false
  skipped := false
  dgram := 0
  written := 0
  bytes := 0
  lost := 0
  lostExport := 0
  lag := 0
  laggedAt := none

/-- The own part of PartitionCreate (R504, R532). -/
def effPartitionCreate (r : Req) (s : State) : Eff :=
  let p := r.payload
  let size := u32 p 0
  nullTarget r (
  need s.inService .wrongState (
  need (decide (1 ≤ size) && decide (size ≤ 2097152) && decide (u8 p 4 ≤ 1) && zeros p 5 3) .invalidArg (
  s.create 6 0 16 fun key =>
  need s.mem.ddr .noResource (
  match s.ringPlace size with
  | none => .fail .noResource []
  | some base =>
    let s := (s.addObj key r.mbx (u8 p 4 == 1) 0 []).updRec fun x => { x with parts := tset x.parts (kidx key) (Part.new base size) }
    let ans := le 4 base ++ le 4 0
    if u8 p 4 = 1 then .later ans (s.handle key) (s.schedule (.block (s.firstBlock r.mbx)) (r.origin (s.handle key)) (.live key true))
    else .done ans (s.handle key) s))))

/-- PARTITION_CREATE. -/
def execPartitionCreate (r : Req) (s : State) : Host.Outcome State Fault Refusal :=
  .next (s.command 0x0700 (· == 8) r (effPartitionCreate r))

/-- The own part of PartitionDestroy: a freeze range blocks (R520, Table 3.5). -/
def effPartitionDestroy (r : Req) (s : State) : Eff :=
  s.withHandle r.tgt [0x06] fun key =>
  match s.part key with
  | none => .fail .noSuchObject []
  | some p => need p.freezes.isEmpty .wrongState (s.destroyAt r key (.block (s.firstBlock r.mbx)))

/-- PARTITION_DESTROY. -/
def execPartitionDestroy (r : Req) (s : State) : Host.Outcome State Fault Refusal :=
  .next (s.command 0x0701 (· == 0) r (effPartitionDestroy r))

/-- The export queue of a partition. -/
def exportQueue (key : Nat) : Nat := 0xB000 + kidx key

/-- A partition gone at its boundary: its export queue with it, its ring free (R531). -/
def State.partFree (s : State) (key : Nat) : State :=
  (s.dropQueue (exportQueue key)).updRec fun x => { x with parts := tdel x.parts (kidx key) }

/-- The own part of PartitionEnable and PartitionHold: not on an EVIDENCE partition (R531). -/
def effPartitionEnable (r : Req) (s : State) : Eff :=
  s.withHandle r.tgt [0x06] fun key =>
  match s.part key with
  | none => .fail .noSuchObject []
  | some p => need (!p.evidence) .wrongState (s.enableAt r key (.block (s.firstBlock r.mbx)))

/-- PARTITION_ENABLE. -/
def execPartitionEnable (r : Req) (s : State) : Host.Outcome State Fault Refusal :=
  .next (s.command 0x0702 (· == 0) r (effPartitionEnable r))

/-- The own part of PartitionHold. -/
def effPartitionHold (r : Req) (s : State) : Eff :=
  s.withHandle r.tgt [0x06] fun key =>
  match s.part key with
  | none => .fail .noSuchObject []
  | some p => need (!p.evidence) .wrongState (s.holdAt r key (.block (s.firstBlock r.mbx)))

/-- PARTITION_HOLD. -/
def execPartitionHold (r : Req) (s : State) : Host.Outcome State Fault Refusal :=
  .next (s.command 0x0703 (· == 0) r (effPartitionHold r))

/-! ### Freezing -/

/-- The own part of FreezeSet (R516, R518, R519): times in CLK_TIME ticks. -/
def effFreezeSet (r : Req) (s : State) : Eff :=
  let t1 := 2 * u64 r.payload 0
  let t2 := 2 * u64 r.payload 8
  s.withHandle r.tgt [0x06] fun key =>
  match s.part key with
  | none => .fail .noSuchObject []
  | some p =>
    need (decide (t1 ≤ t2)) .invalidArg (
    match (List.range 8).find? fun i => !thas p.freezes i with
    | none => .fail .noResource []
    | some i =>
      let inRange := p.recs.filter fun x => !x.filler && decide (t1 ≤ x.capture) && decide (x.capture ≤ t2)
      let ends := inRange.map fun x => (x.off, x.off + x.len)
      let lo := match ends with | [] => p.write | e :: l => l.foldl (fun a x => min a x.1) e.1
      let hi := match ends with | [] => p.write | e :: l => l.foldl (fun a x => max a x.2) e.2
      let q : Part := { p with freezes := tset p.freezes i ({ t1 := t1, t2 := t2, lo := lo, hi := hi, growing := decide (s.now < t2) } : Freeze) }
      let got := q.recs.filter fun x => !x.filler && decide (lo ≤ x.off) && decide (x.off < hi)
      let first := match got with | [] => 0 | x :: l => l.foldl (fun a y => min a y.capture) x.capture
      need (decide (2 * q.frozenBytes ≤ q.bytesOf)) .noResource (
      .done (le 1 i ++ le 3 0 ++ le 4 got.length ++ le 8 (first / 2)) r.tgt (s.updPart key fun _ => q)))

/-- FREEZE_SET. -/
def execFreezeSet (r : Req) (s : State) : Host.Outcome State Fault Refusal :=
  .next (s.command 0x0707 (· == 16) r (effFreezeSet r))

/-- The own part of FreezeRelease (R520). -/
def effFreezeRelease (r : Req) (s : State) : Eff :=
  let i := u8 r.payload 0
  s.withHandle r.tgt [0x06] fun key =>
  match s.part key with
  | none => .fail .noSuchObject []
  | some p =>
    need (thas p.freezes i && zeros r.payload 1 3) .invalidArg (
    .done [] r.tgt (s.updPart key fun p => { p with freezes := tdel p.freezes i }))

/-- FREEZE_RELEASE. -/
def execFreezeRelease (r : Req) (s : State) : Host.Outcome State Fault Refusal :=
  .next (s.command 0x0708 (· == 4) r (effFreezeRelease r))

/-! ### Export -/

/-- The cost of an export setting (Table 16.3). -/
def State.exportCost (s : State) (c : Bytes) : Costs :=
  if u8 c 0 = 2 then
    costOf [(0x000B, u8 c 40, u32 c 4), (0x0008, 0, ceilDiv (u32 c 4 * 125) (s.exportF c)), (0x000D, 0, 256), (0x000A, 0, ceilDiv (2 * u32 c 4) 8)]
  else []

/-- The burst of the export queue's shaper (R525). -/
def exportBurst (rate : Nat) : Nat := 2 * 1518 + ceilDiv (rate * 125 * 65536) 1200000000

/-- The fields of an ExportSet (Table 16.7). -/
def State.exportOk (s : State) (p : Bytes) : Bool :=
  let mode := u8 p 0
  decide (mode ≤ 2) && (mode == 0 || decide (1 ≤ u32 p 4)) && decide (u8 p 1 ≤ (if mode = 2 then 1 else 0)) && zeros p 80 16 && zeros p 43 1 &&
  (if u8 p 1 = 1 then u16 p 2 / 4096 % 2 == 0 else u16 p 2 == 0) &&
  (if mode = 1 then decide (1 ≤ u32 p 16) && u32 p 16 % 65536 == 0 && zeros p 20 4 && u32 p 32 == 16 && zeros p 36 4
   else zeros p 8 32) &&
  (if mode = 2 then s.portOk (u8 p 40) && (u8 p 41 == 4 || u8 p 41 == 6) && decide (u8 p 42 < 64) && (u8 p 41 == 6 || (zeros p 52 12 && zeros p 68 12)) else true)

/-- The oldest unfrozen record still held (Table 16.7). -/
def Part.oldest (p : Part) : Nat := ((p.recs.filter fun x => !p.frozen x).map (·.off)).foldl min p.write

/-- The own part of ExportSet (R521, R524, R525). -/
def effExportSet (r : Req) (s : State) : Eff :=
  let p := r.payload
  s.withHandle r.tgt [0x06] fun key =>
  match s.part key with
  | none => .fail .noSuchObject []
  | some x =>
    need (s.exportOk p) .invalidArg (
    need (s.exportFits p x.tapList) .noResource (
    let taps := tmap x.taps fun _ t => if t.dying then t else { t with cost := s.tapCost t.kind t.obj t.stream (u8 p 0 != 0) }
    let new := taps.foldl (fun c t => if t.2.dying then c else plusCost c t.2.cost) (s.exportCost p)
    s.admission new (s.objCost key) fun s dec =>
      let changed := u8 x.cfg 0 != u8 p 0
      let s := (s.releaseNow dec).updObj key fun o => { o with cost := new }
      let from_ := if changed then x.oldest else x.exported
      let s := s.updPart key fun q => { q with cfg := p, taps := taps, start := u8 p 0 != 0, exported := from_, acked := if changed then from_ else q.acked }
      let q := exportQueue key
      let s := if u8 x.cfg 0 = 2 ∧ u8 p 0 ≠ 2 then s.dropQueue q else s
      let s := if u8 p 0 = 2 then
          if u8 x.cfg 0 = 2 then s.pendShaper q (u32 p 4) (exportBurst (u32 p 4)) 2
          else (s.addQueue q 256).addShaper q (u32 p 4) (exportBurst (u32 p 4)) 2
        else s
      .done [] r.tgt s))

/-- EXPORT_SET. -/
def execExportSet (r : Req) (s : State) : Host.Outcome State Fault Refusal :=
  .next (s.command 0x0705 (· == 96) r (effExportSet r))

/-- The own part of ExportAck (R522): an offset between the last acknowledged and the last exported. -/
def effExportAck (r : Req) (s : State) : Eff :=
  let o := u64 r.payload 0
  s.withHandle r.tgt [0x06] fun key =>
  match s.part key with
  | none => .fail .noSuchObject []
  | some p =>
    need (u8 p.cfg 0 == 1 && decide (p.acked ≤ o) && decide (o ≤ p.exported)) .invalidArg (
    .done [] r.tgt (s.updPart key fun p => { p with acked := o }))

/-- EXPORT_ACK. -/
def execExportAck (r : Req) (s : State) : Host.Outcome State Fault Refusal :=
  .next (s.command 0x0706 (· == 8) r (effExportAck r))

/-- Byte `i` of a record: padding reads 0, a filler's data are undefined. -/
def Part.byteOf (p : Part) (r : Record) (i : Nat) : Byte :=
  match r.bytes[i]? with
  | some b => b
  | none => if r.filler then Config.ringByte (p.base * 2 ^ 20 + r.off % p.bytesOf + i) else 0

/-- Some bytes of a record. -/
def Part.slice (p : Part) (r : Record) (i n : Nat) : Bytes := (List.range n).map fun k => p.byteOf r (i + k)

/-- The lag of a record that leaves at a time: high water kept, ExportLagged above 250 ms at most once a second (R523). -/
def State.exportLag (s : State) (key done at_ : Nat) : State :=
  match s.part key with
  | none => s
  | some p =>
    let us := (at_ - done) / 1000
    let s := s.updPart key fun p => { p with lag := max p.lag us }
    let due : Bool := match p.laggedAt with | some t => decide (t + 1000000000 ≤ at_) | none => true
    if decide (250000 < us) && due then
      (s.updPart key fun p => { p with laggedAt := some at_ }).raise key 0xF701 (le 4 us ++ le 4 0 ++ le 8 s.block)
    else s

/-- The record export goes on with: the first that ends after what is exported. -/
def Part.exportNext (p : Part) : Option Record :=
  (p.recs.filter fun r => decide (p.exported < r.off + r.len)).foldl
    (fun a r => match a with | none => some r | some x => if r.off < x.off then some r else some x) none

/-- The export route of a UDP setting. -/
def exportRoute (c : Bytes) : Route where
  port := u8 c 40
  tag := if u8 c 1 = 1 then some (u16 c 2) else none
  family := u8 c 41
  dscp := u8 c 42
  src := (c.drop 48).take 16
  dst := (c.drop 64).take 16
  sport := u16 c 44
  dport := u16 c 46

/-- EXPORT_WRITE: ring bytes copied to the host buffer with a status word, or a datagram into queue 0xB000 + q (R521, R522,
R527); words that the ring gives poisoned stay so (R679, R680). Nothing goes while the throttled share lasts (R526) or while the host's buffer or the queue is full. -/
def execExportWrite (part : Nat) (s : State) : Host.Outcome State Fault Refusal :=
  if 16 ≤ part then .fault .noSuchUnit
  else
    let key := okey 6 part
    match s.part key with
    | none => .next s
    | some p =>
      if s.work.throttled || s.unitDown 0x0D 0 || u8 p.cfg 0 == 0 then .next s
      else
        match p.exportNext with
        | none => .next s
        | some r =>
          let pos := max p.exported r.off
          let rest := r.off + r.len - pos
          let flags := (if p.start then 1 else 0) + (if p.skipped then 2 else 0)
          let sent (p : Part) (n : Nat) : Part := { p with exported := pos + n, start := false, skipped := false }
          if u8 p.cfg 0 = 1 then
            let len := u32 p.cfg 16
            let n := min (min rest (len - (p.exported - p.acked))) (len - pos % len)
            if n = 0 then .next s
            else
              let (s, bad) := s.memRead (p.base * 2 ^ 20 + pos % p.bytesOf) n
              let s := s.emits [dmaWrite (u64 p.cfg 8 + pos % len) (p.slice r (pos - r.off) n) bad,
                .hostWrite (u64 p.cfg 24) (le 8 (pos + n) ++ le 2 flags ++ le 6 0)]
              let s := s.updPart key fun p => sent p n
              .next (if n = rest then s.exportLag key r.done s.now else s)
          else
            let n := min rest 1408
            let d := be 4 0x44515845 ++ [1] ++ be 1 part ++ be 2 flags ++ be 4 p.dgram ++ be 4 p.size ++ be 8 pos ++ p.slice r (pos - r.off) n
            match s.frameFor (exportRoute p.cfg) d with
            | none => .next ((s.portBump (u8 p.cfg 40) 68 1).updPart key fun p => { sent p n with dgram := (p.dgram + 1) % 2 ^ 32 })
            | some f =>
              let (s, bad) := s.memRead (p.base * 2 ^ 20 + pos % p.bytesOf) n
              let x : Rec := { kind := 5, flags := 0, obj := s.handle key, arrival := r.done, deadline := 0, start := if n = rest then 1 else 0, data := f,
                               marks := (bad.flatMap fun o => [3 + (f.length - 4 - n + o) / 8, 3 + (f.length - 4 - n + o + 7) / 8]).eraseDups }
              match s.queue? (exportQueue key) with
              | some q =>
                if q.fill + x.size ≤ q.cap then
                  .next ((s.writeQueue (exportQueue key) x false).updPart key fun p => { sent p n with dgram := (p.dgram + 1) % 2 ^ 32 })
                else .next s
              | none => .next s

/-! ### Reading, statistics and adoption -/

/-- The ring bytes from an offset, as they stand. -/
def Part.ringBytes (p : Part) (o n : Nat) : Bytes :=
  (List.range n).map fun i =>
    match p.recs.find? fun r => decide (r.off % p.bytesOf ≤ o + i) && decide (o + i < r.off % p.bytesOf + r.len) with
    | some r => p.byteOf r (o + i - r.off % p.bytesOf)
    | none => Config.ringByte (p.base * 2 ^ 20 + o + i)

/-- The own part of RecorderRead (R532): the write position at its start and end go into the response, poisoned words of the ring out
with their mark (R680). -/
def effRecorderRead (r : Req) (s : State) : Eff :=
  let p := r.payload
  s.withHandle r.tgt [0x06] fun key =>
  match s.part key with
  | none => .fail .noSuchObject []
  | some x =>
    need (zeros p 8 8 && zeros p 28 4 && decide (u64 p 0 + u32 p 24 ≤ x.bytesOf)) .invalidArg (
    if u32 p 24 = 0 then .done (le 8 x.write ++ le 8 x.write) r.tgt s
    else
      let (s, bad) := s.memRead (x.base * 2 ^ 20 + u64 p 0) (u32 p 24)
      .wait .write (le 8 x.write ++ le 8 x.write) (s.emit (dmaWrite (u64 p 16) (x.ringBytes (u64 p 0) (u32 p 24)) bad)))

/-- RECORDER_READ. -/
def execRecorderRead (r : Req) (s : State) : Host.Outcome State Fault Refusal :=
  .next (s.command 0x0709 (· == 32) r (effRecorderRead r))

/-- The own part of PartitionStatsGet. -/
def effPartitionStatsGet (r : Req) (s : State) : Eff :=
  s.withHandle r.tgt [0x06] fun key =>
  match s.part key with
  | none => .fail .noSuchObject []
  | some p =>
    .done (le 8 p.written ++ le 8 p.bytes ++ le 8 p.write ++ le 4 p.lost ++ le 4 p.lostExport ++ le 8 p.frozenBytes ++ le 4 p.lag ++
      le 1 (if p.evidence then 2 else if s.isActive key then 1 else 0) ++ le 3 0) r.tgt s

/-- PARTITION_STATS_GET. -/
def execPartitionStatsGet (r : Req) (s : State) : Host.Outcome State Fault Refusal :=
  .next (s.command 0x070A (· == 0) r (effPartitionStatsGet r))

/-- The own part of RecorderSurvivorsGet (R529): as many rings as the 224 bytes of a response hold. -/
def effRecorderSurvivorsGet (r : Req) (s : State) : Eff :=
  let l := s.recorder.survivors.take 13
  nullTarget r (
  .done (le 4 l.length ++ (l.map fun x => le 4 x.base ++ le 4 x.size ++ le 8 x.saved).flatten) 0 s)

/-- RECORDER_SURVIVORS_GET. -/
def execRecorderSurvivorsGet (r : Req) (s : State) : Host.Outcome State Fault Refusal :=
  .next (s.command 0x070B (· == 0) r (effRecorderSurvivorsGet r))

/-- A record's magic and CRC are right (R514, R515); a filler's data lie outside its CRC. -/
def Record.valid (r : Record) (ring : Nat) : Bool :=
  fld r.bytes 0 4 == 0x44514352 &&
  fld r.bytes 60 4 == recordCrc (r.off % ring) (r.bytes.take 60) (if r.filler then [] else r.bytes.drop 64)

/-- The walk of R529: records read in the order of the stream up to the first that is torn, poisoned or out of sequence; the end of the
last valid one and the sequence after it. -/
def State.ringWalk (base ring : Nat) : List Record → Nat × Option Nat → State → State × Nat × Option Nat
  | [], a, s => (s, a)
  | r :: rs, a, s =>
    let (s, bad) := s.memRead (base * 2 ^ 20 + r.off % ring) r.len
    let seq := fld r.bytes 8 8
    if bad.isEmpty && r.valid ring && (a.2 == none || a.2 == some seq) then State.ringWalk base ring rs (r.off + r.len, some (seq + 1)) s
    else (s, a)

/-- The own part of PartitionAdopt (R529, R716). -/
def effPartitionAdopt (r : Req) (s : State) : Eff :=
  nullTarget r (
  need (s.mode == .ready || s.inService) .wrongState (
  match s.recorder.survivors.find? fun x => x.base == u32 r.payload 0 with
  | none => .fail .invalidArg []
  | some x =>
    s.create 6 0 16 fun key =>
      let (s, w, n) := s.ringWalk x.base (x.size * 2 ^ 20) (x.recs.filter fun r => decide (x.saved ≤ r.off)) (x.saved, none)
      let p := { Part.new x.base x.size with evidence := true, write := w, seq := n.getD 0, recs := x.recs.filter (fun r => decide (r.off < w)),
                                             freezes := x.freezes, exported := w, acked := w }
      let s := (s.addObj key r.mbx false 0 []).updRec fun q => { q with
        parts := tset q.parts (kidx key) p, survivors := q.survivors.filter fun y => y.base != x.base }
      .done [] (s.handle key) s))

/-- PARTITION_ADOPT. -/
def execPartitionAdopt (r : Req) (s : State) : Host.Outcome State Fault Refusal :=
  .next (s.command 0x070C (· == 4) r (effPartitionAdopt r))

end Sys2Proof.Machine
end

