-- ==== Sys2Proof/Machine/Opal.lean ====
section
/-!
DEFINITION. The Opal composers (R386 to R416): planes, pixel arithmetic, commits, plane states and the composition commands.
-/

namespace Sys2Proof.Machine

/-! ### Planes (Table 12.2) -/

/-- The plane fetches a picture; it is enabled; its alpha; OPAQUE. -/
def plPic (p : Bytes) : Bool := u8 p 1 == 1
def plOn (p : Bytes) : Bool := u16 p 12 != 0 && u16 p 14 != 0
def plAlpha (p : Bytes) : Nat := u8 p 2
def plOpaque (p : Bytes) : Bool := u8 p 3 % 2 == 1
/-- Key of the source. -/
def plSrc (p : Bytes) : Nat := hkey (u32 p 4)
/-- Destination: left, top, width, height. -/
def plX (p : Bytes) : Int := signed 16 (u16 p 8)
def plY (p : Bytes) : Int := signed 16 (u16 p 10)
def plW (p : Bytes) : Nat := u16 p 12
def plH (p : Bytes) : Nat := u16 p 14

/-- The background of a new composition (R389), with the default hold limit (Table 12.2). -/
def plane0 (w h : Nat) : Bytes :=
  [0, 0, 255, 1] ++ le 4 0 ++ le 4 0 ++ le 2 w ++ le 2 h ++ le 8 0 ++ [16, 128, 128, 3] ++ le 4 0

/-- A disabled plane. -/
def planeOff (i : Nat) : Bytes := le 1 i ++ le 31 0

/-- An even number. -/
def even (n : Nat) : Bool := n % 2 == 0

/-- A factor from 1/8 to 8. -/
def factorOk (out in_ : Nat) : Bool := decide (in_ ≤ 8 * out) && decide (out ≤ 8 * in_)

/-- The rules of R390 on a plane of a composition. -/
def Comp.planeOk (c : Comp) (p : Bytes) : Bool :=
  decide (u8 p 0 ≤ 7) &&
  (if !plOn p then u8 p 0 != 0 && zeros p 1 31
   else
    decide (u8 p 1 ≤ 1) && decide (u8 p 3 ≤ 1) && even (u16 p 8) && even (u16 p 10) && decide (-8192 ≤ plX p) && decide (plX p ≤ 8190) &&
    decide (-8192 ≤ plY p) && decide (plY p ≤ 8190) && decide (plW p ≤ 8192) && even (plW p) && decide (plH p ≤ 8192) && even (plH p) &&
    (!plOpaque p || plAlpha p == 255) && zeros p 28 4 &&
    (if plPic p then even (u16 p 16) && even (u16 p 18) && even (u16 p 20) && decide (2 ≤ u16 p 20) && decide (u16 p 20 ≤ 4096) &&
        even (u16 p 22) && decide (2 ≤ u16 p 22) && decide (u16 p 22 ≤ 2304) && factorOk (plW p) (u16 p 20) && factorOk (plH p) (u16 p 22)
     else u32 p 4 == 0 && zeros p 16 8) &&
    (u8 p 0 != 0 || (plX p == 0 && plY p == 0 && plW p == c.w && plH p == c.h && plOpaque p && plAlpha p == 255)))

/-! ### Pixel arithmetic (R391 to R394) -/

/-- The 10-bit value of a sample of a picture's component (0 luma, 1 Cb, 2 Cr). -/
def Picture.at (x : Picture) (comp : Nat) (px py : Nat) : Nat :=
  let w := if comp = 0 then x.w else x.w / 2
  let h := if comp = 0 then x.h else x.h / 2
  if w ≤ px ∨ h ≤ py then Config.beyond comp px py
  else
    let base := if comp = 0 then 0 else x.w * x.h + (comp - 1) * (x.w / 2 * (x.h / 2))
    let i := base + py * w + px
    if x.depth = 10 then u16 x.data (2 * i) % 1024 else 4 * u8 x.data i

/-- Base, phase and coefficient set of output sample `o` in one direction (R392). -/
def scalePos (nin nout o : Nat) : Int × Nat × Nat :=
  let step : Int := (nin * 65536 / nout : Nat)
  let pos : Int := o * step + (step - 65536) / 2
  (pos / 65536, (pos / 1024 % 64).toNat, if nin ≤ nout then 0 else if nin ≤ 2 * nout then 1 else if nin ≤ 4 * nout then 2 else 3)

/-- A row of coefficients that R392 allows: `n` signed 16-bit values that sum to 16,384. -/
def coefOk (n : Nat) (l : List Int) : Bool := l.length == n && l.sum == 16384 && l.all fun x => decide (-32768 ≤ x) && decide (x < 32768)

/-- The coefficients that leave a sample as it is: 16,384 at tap `m` - 1. -/
def identityRow (n m : Nat) : List Int := (List.range n).map fun j => if j + 1 = m then 16384 else 0

/-- The coefficients ch and cv of a set and phase: phase 0 of set 0 is the identity, and the others are open but for R392. -/
def coefH (set ph : Nat) : List Int :=
  if (set != 0 || ph != 0) && coefOk 8 (Config.scalerH set ph) then Config.scalerH set ph else identityRow 8 4
def coefV (set ph : Nat) : List Int :=
  if (set != 0 || ph != 0) && coefOk 6 (Config.scalerV set ph) then Config.scalerV set ph else identityRow 6 3

/-- A tap's place in the crop window. -/
def tapAt (nin : Nat) (base : Int) (m j : Nat) : Nat := (clampI 0 ((nin : Int) - 1) (base - m + 1 + j)).toNat

/-- A horizontally scaled sample of row `row` (from the picture's top) at output column `o`. -/
def scaleRow (x : Picture) (comp cx cw dw o row : Nat) : Int :=
  let (base, ph, set) := scalePos cw dw o
  (((List.range 8).map fun j => (coefH set ph).getD j 0 * (x.at comp (cx + tapAt cw base 4 j) row : Int)).sum + 512) / 1024

/-- A scaled sample at output place (ox, oy) of a plane of component `comp`. -/
def scaleAt (x : Picture) (p : Bytes) (comp ox oy : Nat) : Nat :=
  let k := if comp = 0 then 1 else 2
  let (base, ph, set) := scalePos (u16 p 22 / k) (plH p / k) oy
  let v := (((List.range 6).map fun j =>
    (coefV set ph).getD j 0 * scaleRow x comp (u16 p 16 / k) (u16 p 20 / k) (plW p / k) ox
      (u16 p 18 / k + tapAt (u16 p 22 / k) base 3 j)).sum + 131072) / 262144
  (clampI 0 1023 v).toNat

/-- A plane's sample at an output place, where its destination holds it: its picture, or its fill colour where it has none. -/
def planeAt (p : Bytes) (pic : Option Picture) (comp x y : Nat) : Option Nat :=
  let k : Int := if comp = 0 then 1 else 2
  let ox := (x : Int) - plX p / k
  let oy := (y : Int) - plY p / k
  if plOn p && decide (0 ≤ ox) && decide (ox < plW p / k) && decide (0 ≤ oy) && decide (oy < plH p / k) then
    some (match pic with
      | some q => scaleAt q p comp ox.toNat oy.toNat
      | none => 4 * u8 p (24 + comp))
  else none

/-- The blend of R394 at an output place. -/
def blendAt (planes : List (Bytes × Option Picture)) (comp x y : Nat) : Nat :=
  planes.foldl (fun v e =>
    match planeAt e.1 e.2 comp x y with
    | some s => (plAlpha e.1 * s + (255 - plAlpha e.1) * v + 127) / 255
    | none => v) 0

/-- An output sample at the composition's depth (R391). -/
def outSample (depth v : Nat) : Bytes := if depth = 10 then le 2 v else le 1 (min 255 ((v + 2) / 4))

/-- Whether byte `i` of an output picture lies in columns x0 to x1 and lines y0 to y1, and its component and place. -/
def placeOf (w h i : Nat) : Nat × Nat × Nat :=
  if i < w * h then (0, i % w, i / w)
  else
    let q := w / 2 * (h / 2)
    let j := (i - w * h) % q
    (1 + (i - w * h) / q, j % (w / 2), j / (w / 2))

/-- The samples of a band composed over a buffer (R394, R399): columns x0 to x1, lines y0 to y1. -/
def composeBand (w h depth : Nat) (planes : List (Bytes × Option Picture)) (x0 x1 y0 y1 : Nat) (buf : Bytes) : Bytes :=
  (List.range (w * h * 3 / 2)).flatMap fun i =>
    let (c, x, y) := placeOf w h i
    let k := if c = 0 then 1 else 2
    if decide (x0 ≤ k * x) && decide (k * x < x1) && decide (y0 ≤ k * y) && decide (k * y < y1) then outSample depth (blendAt planes c x y)
    else (buf.drop (i * sampleBytes depth)).take (sampleBytes depth)

/-! ### Sources -/

/-- The declaration of a source leg's decode: `ahead` says whether the last DecodeSet counts, which a commit is checked against,
or the one in force. -/
def State.srcDecl (s : State) (ahead : Bool) (key : Nat) : Option Bytes :=
  if ahead then (s.vleg key).bind (·.decl) else (s.dec key).map (·.cfg)

/-- The declared size of a plane's source: none for a leg without a decode. -/
def State.srcSize (s : State) (ahead : Bool) (key : Nat) : Option (Nat × Nat) :=
  match s.srcDecl ahead key, s.comp key with
  | some p, _ => some (u16 p 4, u16 p 6)
  | none, some c => some (c.w, c.h)
  | none, none => none

/-- A live sending video leg or composition. -/
def State.srcLive (s : State) (key : Nat) : Bool :=
  s.objLive key && (match s.vleg key with | some l => l.sending | none => (s.comp key).isSome)

/-- The crop window lies within the source's declared size (step 2 of Table 12.3). -/
def State.cropOk (s : State) (ahead : Bool) (p : Bytes) : Bool :=
  match s.srcSize ahead (plSrc p) with
  | some (w, h) => decide (u16 p 16 + u16 p 20 ≤ w) && decide (u16 p 18 + u16 p 22 ≤ h)
  | none => true

/-- The newest picture of a source that is available whole. -/
def State.newest (s : State) (key : Nat) : Option Picture :=
  match s.dec key, s.comp key with
  | some d, _ => d.out.head?
  | none, some c => c.out.head?
  | none, none => none

/-- The source interval in root cycles, as a fraction. -/
def State.interval (s : State) (key : Nat) : Nat × Nat :=
  match s.dec key, s.comp key with
  | some d, _ => (6000000000000, u32 d.cfg 8)
  | none, some c => (c.period, 1)
  | none, none => (0, 1)

/-- The planes of a composition in force and those of its commits that wait. -/
def Comp.allPlanes (c : Comp) : List Bytes := c.planes ++ c.parked.getD [] ++ c.commits.flatMap (·.2)

/-- A composition is a plane source: some other composition has a plane whose source it is. A handle whose object is gone names
none (R81). -/
def State.isPlane (s : State) (key : Nat) : Bool :=
  s.video.comps.any fun e => e.2.allPlanes.any fun p => fetches p && plSrc p == key && s.named (u32 p 4)

/-- Nesting follows R403 for a plane of a composition. -/
def State.nestOk (s : State) (key : Nat) (c : Comp) (p : Bytes) : Bool :=
  match s.comp (plSrc p) with
  | none => true
  | some x => plSrc p != key && x.sub == c.sub && !(s.isPlane key) &&
      !(x.allPlanes.any fun q => fetches q && (s.comp (plSrc q)).isSome && s.named (u32 q 4))

/-- Largest t_pic of the encodings a composition feeds, in root cycles, one stream of them left out. -/
def State.feedBut (s : State) (key : Nat) (but : Option (Nat × Nat)) : Nat :=
  (((s.fedBy key).filter fun x => some x != but).map fun x =>
    match s.enc x.1, s.comp key with
    | some e, some c =>
      match e.streams[x.2]? with
      | some y => tPic (u8 e.cfg 0) c.w c.h (u8 e.cfg 8) y.cpb
      | none => 0
    | _, _ => 0).foldl max 0

/-- Largest t_pic of the encodings a composition feeds. -/
def State.feedPic (s : State) (key : Nat) : Nat := s.feedBut key none

/-- t_dec of a source leg with a decode. -/
def State.srcDec (s : State) (ahead : Bool) (key : Nat) : Option Nat := (s.srcDecl ahead key).map tDec

/-- The frame-period check of R405 for one plane, the composition feeding a largest t_pic. -/
def State.periodOk (s : State) (ahead : Bool) (c : Comp) (pic : Nat) (p : Bytes) : Bool :=
  let fits (d inner : Nat) : Bool := decide (d + inner + tOp c.w c.h + pic ≤ c.period + 18000000)
  if !fetches p then true
  else
    match s.comp (plSrc p) with
    | some x => x.planes.all fun q => if fetches q then (match s.srcDec ahead (plSrc q) with | some d => fits d (tOp x.w x.h) | none => true) else true
    | none => match s.srcDec ahead (plSrc p) with | some d => fits d 0 | none => true

/-- Step 4 of Table 12.3. -/
def State.slicedOk (s : State) (ahead : Bool) (p : Bytes) : Bool :=
  match s.srcDecl ahead (plSrc p) with | some q => u8 q 26 % 2 == 1 | none => true

/-! ### Create, destroy, enable, hold -/

/-- The fields of CompositionCreate and the checks of R387 and R388. -/
def compOk (p : Bytes) : Bool :=
  let w := u16 p 0
  let h := u16 p 2
  let num := u32 p 4
  let sub := u8 p 11 % 2 == 1
  let T := periodOf p
  decide (64 ≤ w) && decide (w ≤ 3840) && even w && decide (64 ≤ h) && decide (h ≤ 2160) && even h && decide (2 ≤ num) && decide (num ≤ 60000) &&
  (u16 p 8 == 1 || u16 p 8 == 1001) && (u8 p 10 == 8 || u8 p 10 == 10) && decide (u8 p 11 ≤ 3) &&
  6000000000 * u16 p 8 % num == 0 && decide (100000000 ≤ T) && decide (T ≤ 3000000000) && decide (u32 p 12 < T) &&
  (if sub then u8 p 16 == 16 || u8 p 16 == 32 || u8 p 16 == 64 else u8 p 16 == 0) && decide (u8 p 17 ≤ 1) && decide (u8 p 18 ≤ 3) && u8 p 19 == 0 &&
  decide (tOp w h ≤ T) && (!sub || decide (w * u8 p 16 ≤ 122880))

/-- A plane that has shown nothing yet. -/
def PlaneRun.new (now : Nat) : PlaneRun := { st := 0, m := 0, seen := none, since := now }

/-- A composition just created. -/
def Comp.new (p : Bytes) (now : Nat) : Comp :=
  let planes := (List.range 8).map fun i => if i = 0 then plane0 (u16 p 0) (u16 p 2) else planeOff i
  let c : Comp := { cfg := p, shadow := planes, planes := planes, run := List.replicate 8 (PlaneRun.new now), commits := [], next := 0,
                    cur := none, last := none, parked := none, showed := [], out := [], flat := [], stats := [] }
  { c with next := c.frameAfter now }

/-- The own part of CompositionCreate. -/
def effCompositionCreate (r : Req) (s : State) : Eff :=
  let p := r.payload
  nullTarget r (
  need s.inService .wrongState (
  need (compOk p) .invalidArg (
  let c := Comp.new p s.now
  let cost := compCost p c.planes
  s.create 4 0 512 fun key =>
  s.admission cost [] fun s _ =>
    let s := (s.addObj key r.mbx (u8 p 17 == 1) (u8 p 18) cost).updVideo fun v => { v with comps := tset v.comps (kidx key) c }
    let s := if u8 p 17 = 1 then s.addSched (.frame (kidx key)) noOrigin (.live key true) else s
    .done (le 2 c.slices ++ le 2 0 ++ le 4 c.period) (s.handle key) s)))

/-- COMPOSITION_CREATE. -/
def execCompositionCreate (r : Req) (s : State) : Host.Outcome State Fault Refusal :=
  .next (s.command 0x0500 (· == 20) r (effCompositionCreate r))

/-- The own part of CompositionDestroy: an encoding fed by it blocks (Table 3.5). -/
def effCompositionDestroy (r : Req) (s : State) : Eff :=
  s.withHandle r.tgt [0x04] fun key =>
  need (s.fedBy key).isEmpty .wrongState (s.destroyAt r key (.frame (kidx key)))

/-- COMPOSITION_DESTROY. -/
def execCompositionDestroy (r : Req) (s : State) : Host.Outcome State Fault Refusal :=
  .next (s.command 0x0501 (· == 0) r (effCompositionDestroy r))

/-- The own part of CompositionEnable: WRONG_STATE in SHED (R412). -/
def effCompositionEnable (r : Req) (s : State) : Eff :=
  s.withHandle r.tgt [0x04] fun key => need (s.mode != .shed) .wrongState (s.enableAt r key (.frame (kidx key)))

/-- COMPOSITION_ENABLE. -/
def execCompositionEnable (r : Req) (s : State) : Host.Outcome State Fault Refusal :=
  .next (s.command 0x0502 (· == 0) r (effCompositionEnable r))

/-- The own part of CompositionHold. -/
def effCompositionHold (r : Req) (s : State) : Eff :=
  s.withHandle r.tgt [0x04] fun key => s.holdAt r key (.frame (kidx key))

/-- COMPOSITION_HOLD. -/
def execCompositionHold (r : Req) (s : State) : Host.Outcome State Fault Refusal :=
  .next (s.command 0x0503 (· == 0) r (effCompositionHold r))

/-- A composition gone at its boundary: taps on it go with it (Table 3.5). -/
def State.compFree (s : State) (key : Nat) : State :=
  (s.dropTaps key).updVideo fun v => { v with comps := tdel v.comps (kidx key) }

/-! ### Planes and commits -/

/-- The source handle of PlaneSet (R81, Table 12.2): a picture needs one, and a fill takes none. -/
def State.planeSource (s : State) (p : Bytes) (k : Option Nat → Eff) : Eff :=
  if u8 p 1 = 1 then s.withHandle (u32 p 4) [0x03, 0x04] fun src => k (some src)
  else if u8 p 1 = 0 then need (zeros p 4 4) .invalidArg (k none)
  else s.withHandle0 (u32 p 4) [0x03, 0x04] k

/-- The own part of PlaneSet (R390, R654). -/
def effPlaneSet (r : Req) (s : State) : Eff :=
  let p := r.payload
  s.withHandle r.tgt [0x04] fun key =>
  needUnit (decide (u8 p 0 ≤ 7)) (
  s.planeSource p fun src =>
  match s.comp key with
  | none => .fail .noSuchObject []
  | some c =>
    need (c.planeOk p && (!fetches p || (match src with | some k => s.srcLive k && (!s.critical key || s.critical k) | none => false))) .invalidArg (
    .done [] r.tgt (s.updComp key fun c => { c with shadow := c.shadow.set (u8 p 0) p })))

/-- PLANE_SET. -/
def execPlaneSet (r : Req) (s : State) : Host.Outcome State Fault Refusal :=
  .next (s.command 0x0504 (· == 32) r (effPlaneSet r))

/-- The first plane that fails a check. -/
def failing (l : List Bytes) (ok : Bytes → Bool) : Option Bytes := (l.filter fetches).find? fun p => !ok p

/-- The checks of Table 12.3 up to step 6: the status and payload of the first that fails (Table 12.6). -/
def State.commitCheck (s : State) (key : Nat) (c : Comp) : Option (Status × Bytes) :=
  let l := c.shadow
  let bad (reason : Nat) (p : Bytes) : Status × Bytes := (.invalidArg, le 1 (u8 p 0) ++ le 1 reason ++ le 2 0)
  let wide := failing l fun p => u16 p 22 == plH p || decide (plW p ≤ 4096)
  match failing l (fun p => s.srcLive (plSrc p) && s.gen (plSrc p) == u32 p 4 / 2 ^ 20 % 128), failing l (s.cropOk true), failing l (s.nestOk key c),
    (if c.sub then failing l (s.slicedOk true) else none), wide, (if c.sub then none else failing l (s.periodOk true c (s.feedPic key))) with
  | some p, _, _, _, _, _ => some (bad 1 p)
  | none, some p, _, _, _, _ => some (bad 2 p)
  | none, none, some p, _, _, _ => some (bad 3 p)
  | none, none, none, some p, _, _ => some (bad 4 p)
  | none, none, none, none, some p, _ => some (.planeTooWide, le 1 (u8 p 0) ++ le 1 0 ++ le 2 (plW p))
  | none, none, none, none, none, some p => some (bad 5 p)
  | none, none, none, none, none, none => none

/-- A counter of Table 12.7 raised. -/
def Comp.bump (c : Comp) (off n : Nat) : Comp := { c with stats := tset c.stats off (tget 0 c.stats off + n) }

/-- A change put among those that wait, for the first frame boundary of a composition from a time on. -/
def State.schedFrom (s : State) (b : Boundary) (o : Origin) (a : Act) (t : Nat) : State :=
  { s with sched := s.sched ++ [({ at_ := b, org := o, act := a, from_ := t } : Sched)] }

/-- The own part of CompositionCommit (R406 to R408): a failed one is counted. -/
def effCompositionCommit (r : Req) (s : State) : Eff :=
  s.withHandle r.tgt [0x04] fun key =>
  match s.comp key with
  | none => .fail .noSuchObject []
  | some c =>
    let failed : State := s.updComp key fun c => c.bump 12 1
    match s.commitCheck key c with
    | some (st, p) => .refuse st p failed
    | none =>
      let cost := compCost c.cfg c.shadow
      match s.admission cost (s.objCost key) fun s dec => .later [] 0 { s with awaiting := plusCost s.awaiting dec } with
      | .later _ _ s' =>
        let dec := overCost (s.objCost key) cost
        let n := c.frameFrom (max (s.now + 250000) (s.trio.effectAt.getD 0))
        let t := c.boundary n / 6
        let s' := (s'.updComp key fun c => { c with commits := c.commits ++ [(n, c.shadow)] }).updObj key fun o => { o with cost := cost }
        let s' := if dec.isEmpty then s' else s'.schedFrom (.frame (kidx key)) noOrigin (.release dec) t
        let s' := (s'.schedFrom (.frame (kidx key)) (r.origin r.tgt) .applied t).updMb r.mbx fun m => { m with outstanding := m.outstanding + 1 }
        .later (le 8 n ++ le 8 (t / blockNs)) r.tgt s'
      | .fail st p => .refuse st p failed
      | e => e

/-- COMPOSITION_COMMIT. -/
def execCompositionCommit (r : Req) (s : State) : Host.Outcome State Fault Refusal :=
  .next (s.command 0x0505 (· == 0) r (effCompositionCommit r))

/-- The own part of PlaneGet. -/
def effPlaneGet (r : Req) (s : State) : Eff :=
  let p := r.payload
  s.withHandle r.tgt [0x04] fun key =>
  match s.comp key with
  | none => .fail .noSuchObject []
  | some c =>
    needUnit (decide (u8 p 0 ≤ 7)) (need (decide (u8 p 1 ≤ 1) && zeros p 2 2) .invalidArg (
    .done ((if u8 p 1 = 0 then c.shadow else c.planes).getD (u8 p 0) []) r.tgt s))

/-- PLANE_GET. -/
def execPlaneGet (r : Req) (s : State) : Host.Outcome State Fault Refusal :=
  .next (s.command 0x0506 (· == 4) r (effPlaneGet r))

/-- The own part of CompositionStatsGet (Table 12.7). -/
def effCompositionStatsGet (r : Req) (s : State) : Eff :=
  s.withHandle r.tgt [0x04] fun key =>
  match s.comp key with
  | none => .fail .noSuchObject []
  | some c =>
    let g (o : Nat) : Nat := tget 0 c.stats o
    .done (le 8 (g 0) ++ (([8, 12, 16, 20, 24, 28, 32] : List Nat).flatMap fun o => le 4 (g o)) ++ le 1 (if s.isActive key then 1 else 0) ++ le 3 0) r.tgt s

/-- COMPOSITION_STATS_GET. -/
def execCompositionStatsGet (r : Req) (s : State) : Host.Outcome State Fault Refusal :=
  .next (s.command 0x0507 (· == 0) r (effCompositionStatsGet r))

/-- The scaler tables (Table 12.9). -/
def scalerTable : Bytes :=
  ((List.range 256).flatMap fun i => (coefH (i / 64) (i % 64)).flatMap fun x => le 2 (unsigned 16 x)) ++
  ((List.range 256).flatMap fun i => (coefV (i / 64) (i % 64)).flatMap fun x => le 2 (unsigned 16 x))

/-- The own part of OpalScalerTableGet. -/
def effOpalScalerTableGet (r : Req) (s : State) : Eff :=
  nullTarget r (
  need (u32 r.payload 8 == 7168 && zeros r.payload 12 4) .invalidArg (
  .wait .write [] (s.emit (.hostWrite (u64 r.payload 0) scalerTable))))

/-- OPAL_SCALER_TABLE_GET. -/
def execOpalScalerTableGet (r : Req) (s : State) : Host.Outcome State Fault Refusal :=
  .next (s.command 0x0508 (· == 16) r (effOpalScalerTableGet r))

/-! ### Plane states (R410, Table 12.4) -/

/-- PlaneStale (Table 12.8). -/
def State.planeStale (s : State) (key plane st reason frame f : Nat) : State :=
  s.raise key 0xF501 (le 1 plane ++ le 1 st ++ le 1 reason ++ le 1 0 ++ le 4 (frame % 2 ^ 32) ++ le 8 (f / 6 / blockNs))

/-- Why a picture plane is FILLED at once: 2 no picture, 3 source conditions not met, 0 neither. -/
def State.fillReason (s : State) (key : Nat) (c : Comp) (p : Bytes) (x : PlaneRun) : Nat :=
  let src := plSrc p
  let live := s.named (u32 p 4)
  let waits := match s.dec src with | some d => d.st == 0 || d.st == 1 | none => (s.comp src).isNone
  let none_ := match s.newest src with | some q => decide (q.since < x.since) | none => true
  if !live || waits || none_ then 2
  else if !s.cropOk false p || (c.sub && !s.slicedOk false p) || (!c.sub && !s.periodOk false c (s.feedPic key) p) then 3
  else 0

/-- A picture plane at frame boundary `f` (in root cycles): its new state and the PlaneStale it raises (state, reason). -/
def State.planeStep (s : State) (key : Nat) (c : Comp) (f : Nat) (p : Bytes) (x : PlaneRun) : PlaneRun × Option (Nat × Nat) :=
  let new := s.newest (plSrc p)
  let id := new.map (·.id)
  let m :=
    if id.isSome && id != x.seen then 0
    else
      match new with
      | some q => if 3 * (s.interval (plSrc p)).1 < 2 * (s.interval (plSrc p)).2 * (f - 6 * q.since) then x.m + 1 else x.m
      | none => x.m
  let y : PlaneRun := { x with m := m, seen := if id.isSome then id else x.seen }
  let fill (r : Nat) : PlaneRun × Option (Nat × Nat) := ({ y with st := 2 }, if x.st = 2 then none else some (2, r))
  match s.fillReason key c p x with
  | 0 =>
    if m = 0 then ({ y with st := 0 }, if x.st = 0 then none else some (3, 0))
    else if x.st = 2 then (y, none)
    else if u8 p 27 < m then fill 1
    else ({ y with st := 1 }, if x.st = 1 then none else some (1, 1))
  | r => fill r

/-- All planes at a frame boundary. -/
def State.planeStates (s : State) (key : Nat) (n : Nat) : State :=
  match s.comp key with
  | none => s
  | some c =>
    let f := c.boundary n
    let l := (c.planes.zip c.run).map fun e => if fetches e.1 then s.planeStep key c f e.1 e.2 else (e.2, none)
    let s := s.updComp key fun c => ((c.bump 16 ((c.planes.zip l).filter fun e => fetches e.1 && e.2.1.st == 1).length).bump 20
      ((c.planes.zip l).filter fun e => fetches e.1 && e.2.1.st == 2).length)
    let s := s.updComp key fun c => { c with run := l.map (·.1) }
    l.zipIdx.foldl (fun s e => match e.1.2 with | some (st, r) => s.planeStale key e.2 st r n f | none => s) s

/-! ### Composing -/

/-- A plane's destination covers a 64 × 64 tile, clipped to the output (R396). -/
def Comp.covers (c : Comp) (p : Bytes) (tx ty : Nat) : Bool :=
  plOn p && decide (plX p ≤ 64 * tx) && decide (plY p ≤ 64 * ty) && decide ((min c.w (64 * tx + 64) : Int) ≤ plX p + plW p) &&
  decide ((min c.h (64 * ty + 64) : Int) ≤ plY p + plH p)

/-- A plane's destination meets a tile. -/
def Comp.meets (c : Comp) (p : Bytes) (tx ty : Nat) : Bool :=
  plOn p && decide (plX p < (min c.w (64 * tx + 64) : Nat)) && decide ((64 * tx : Int) < plX p + plW p) &&
  decide (plY p < (min c.h (64 * ty + 64) : Nat)) && decide ((64 * ty : Int) < plY p + plH p)

/-- The tile and plane pairs not fetched in a picture. -/
def Comp.culled (c : Comp) : Nat :=
  ((List.range (ceilDiv c.w 64 * ceilDiv c.h 64)).map fun t =>
    let tx := t % ceilDiv c.w 64
    let ty := t / ceilDiv c.w 64
    ((c.planes.zip c.run).zipIdx.filter fun e => fetches e.1.1 && e.1.2.st != 2 && c.meets e.1.1 tx ty &&
      (c.planes.drop (e.2 + 1)).any fun q => plOpaque q && c.covers q tx ty).length).sum

/-- The source rows that the taps of a plane read for output lines y0 to y1: first and last, none where it shows none. -/
def planeRows (p : Bytes) (y0 y1 : Nat) : Option (Nat × Nat) :=
  let ys := (List.range (y1 - y0)).filterMap fun i =>
    let o : Int := (y0 + i : Nat) - plY p
    if 0 ≤ o ∧ o < plH p then some o.toNat else none
  let rows (k : Nat) : List Nat := ys.flatMap fun o =>
    let (b, _, _) := scalePos (u16 p 22 / k) (plH p / k) (o / k)
    [k * (u16 p 18 / k + tapAt (u16 p 22 / k) b 3 0), k * (u16 p 18 / k + tapAt (u16 p 22 / k) b 3 5) + k - 1]
  let l := rows 1 ++ rows 2
  match l with
  | [] => none
  | a :: r => some (r.foldl min a, r.foldl max a)

/-- Luma rows a to b of a picture being decoded are in the store. -/
def DecPic.hasRows (x : DecPic) (a b : Nat) : Bool :=
  let across := ceilDiv x.pic.w 16
  (List.range ((b / 16 - a / 16 + 1) * across)).all fun i => inRuns x.done (a / 16 * across + i)

/-- The picture a plane shows in a slice of lines y0 to y1 (R402). -/
def State.shown (s : State) (c : Comp) (p : Bytes) (y0 y1 : Nat) : Option Picture :=
  let src := plSrc p
  let whole := s.newest src
  if !c.sub then whole
  else
    match planeRows p y0 y1 with
    | none => whole
    | some (a, b) =>
      match s.dec src, s.comp src with
      | some d, _ =>
        -- the newest by decoding: those being decoded, those decoded that wait for their output, and the last put out
        ((d.pics.reverse.filter fun x => x.hasRows a b).map (·.pic) ++ d.wait.map (·.1) ++ whole.toList).foldl (fun m q =>
          match m with | some y => if y.id < q.id then some q else m | none => some q) none
      | none, some x => ((([x.cur, x.last].filterMap id).filter fun u => decide (b < u.pic.rows ∨ x.h ≤ u.pic.rows)).map (·.pic)).head?.or whole
      | none, none => none

/-- What a plane shows in a slice, as the flatten cache tells it (R397): its attributes, and its picture or that it is filled. -/
def shownAs (p : Bytes) (x : PlaneRun) (q : Option Picture) : Bytes :=
  p ++ (if fetches p && x.st != 2 then match q with | some y => le 8 (y.id + 1) | none => le 8 0 else [])

/-- The length of the common start of two lists. -/
def sameUpTo : List Bytes → List Bytes → Nat
  | a :: r, b :: q => if a = b then 1 + sameUpTo r q else 0
  | _, _ => 0

/-- The flatten cache of a slice: the planes from 0 up to the highest that all show what they showed when it was built are taken from it;
it is rebuilt, and counted, when a plane taken from it stops being static (R397). With no plane above 0 to take, it is built anew
from what is shown. The cache holds no sample that blending would not give, so its content is not kept (R395). -/
def Comp.flattenSlice (c : Comp) (k : Nat) (now : List Bytes) : Comp :=
  if !c.flatten then c
  else
    let (old, f) := tget ([], 0) c.flat k
    let n := sameUpTo old now
    if 1 ≤ f ∧ n ≤ f then { c.bump 32 1 with flat := tset c.flat k (now, 0) }
    else if n < 2 then { c with flat := tset c.flat k (now, 0) }
    else { c with flat := tset c.flat k (old, n - 1) }

/-- Lines of slice k. -/
def Comp.top (c : Comp) (k : Nat) : Nat := k * c.lines
def Comp.bottom (c : Comp) (k : Nat) : Nat := min c.h ((k + 1) * c.lines)

/-- The bands of a slice (R399). -/
def Comp.bands (c : Comp) : Nat := if c.sub then ceilDiv c.w 512 else 1

/-- The earliest time that the bound of a slice of lines y0 to y1 runs from, for what one plane shows (R106, R107): the last packet
of each source slice its taps read in sub-frame mode, of the whole source picture otherwise; one frame period of an inner
composition later. -/
def State.boundFrom (s : State) (c : Comp) (p : Bytes) (q : Picture) (y0 y1 : Nat) : Option Nat :=
  let l := if c.sub then (match planeRows p y0 y1 with | some (a, b) => q.arrived.filter fun e => decide (e.1 ≤ b) && decide (a ≤ e.2.1) | none => [])
    else q.arrived
  match l, s.comp (plSrc p) with
  | [], _ => none
  | e :: r, some x => some ((r.foldl (fun m e => min m e.2.2) e.2.2) + x.period / 6)
  | e :: r, none => some (r.foldl (fun m e => if c.sub then min m e.2.2 else max m e.2.2) e.2.2)

/-- From the arrival of a source slice to the departure of the last packet that shows it (R106), but for what inner compositions
add. -/
def Comp.reach (c : Comp) : Nat := (if c.sub then 1 else 2) * c.period / 6 + 3000000

/-- The earliest of the times that the planes of a slice give: those whose picture is another one than they showed in the slice
of the frame before; for a plane that showed none of its source then, where the bound can still be met (log entry 100). -/
def State.sliceFrom (s : State) (c : Comp) (frame k : Nat) (sel : List (Option Picture)) : Option Nat :=
  let old := match tget? c.showed k with | some (n, l) => if n + 1 = frame then l else [] | none => []
  let l := ((c.planes.zip sel).zipIdx).filterMap fun e =>
    match e.1.2, old.getD e.2 none with
    | some q, was =>
      let t := s.boundFrom c e.1.1 q (c.top k) (c.bottom k)
      match was with
      | some (h, i) => if h = u32 e.1.1 4 then (if i ≠ q.id then t else none) else t.filter fun t => decide (s.now ≤ t + c.reach)
      | none => t.filter fun t => decide (s.now ≤ t + c.reach)
    | none, _ => none
  match l with
  | [] => none
  | a :: r => some (r.foldl min a)

/-- The Opal item of band `b` of slice `k` (R398, R399). -/
def State.opalItem (s : State) (key : Nat) (c : Comp) (frame k b : Nat) : State :=
  s.submit 4 {
    desc := descriptor 5 (if c.sub then 11 else 9) (opalFlow (kidx key)) (s.handle key) 0xFFFF 0 0 (le 4 k ++ le 4 b), data := [],
    job := .video 2 (kidx key) frame (k * 8 + b) }

/-- COMPOSITE_SLICE_START: at S_k the planes' pictures are chosen and the items of slice k submitted (R398 to R402). -/
def execCompositeSliceStart (comp k : Nat) (s : State) : Host.Outcome State Fault Refusal :=
  if 512 ≤ comp then .fault .noSuchUnit
  else
    let key := okey 4 comp
    match s.comp key with
    | none => .next s
    | some c =>
      match c.cur with
      | none => .next s
      | some u =>
        if c.slices ≤ k ∨ thas u.left k then .next s
        else
          let sk := c.boundary u.frame + (if c.sub then k * c.period / c.slices else 0)
          let s := s.at (ceilDiv sk 6)
          let sel := (u.planes.zip c.run).map fun e => if fetches e.1 && e.2.st != 2 then s.shown c e.1 (c.top k) (c.bottom k) else none
          let now := ((u.planes.zip c.run).zip sel).map fun e => shownAs e.1.1 e.1.2 e.2
          let from_ := s.sliceFrom c u.frame k sel
          let s := s.updComp key fun c => { c.flattenSlice k now with
            showed := tset c.showed k (u.frame, (c.planes.zip sel).map fun e => e.2.map fun q => (u32 e.1 4, q.id)),
            cur := some { u with
              left := tset u.left k c.bands, sel := tset u.sel k sel,
              pic := match from_ with | some t => { u.pic with arrived := (c.top k, c.bottom k - 1, t) :: u.pic.arrived } | none => u.pic } }
          .next ((List.range c.bands).foldl (fun s b => s.opalItem key c u.frame k b) s)

/-- A frame boundary of a composition: commits in force, plane states, and a new output picture begun where it is ACTIVE
(R389, R406, R409, R410, R412). -/
def State.compFrame (s : State) (key : Nat) (n : Nat) : State :=
  match s.comp key with
  | none => s
  | some c =>
    let due := c.commits.filter fun e => decide (e.1 ≤ n)
    -- while it is HELD a commit waits for the next Enable (R409)
    let next := ((due.getLast?).map (·.2)).or c.parked
    let on := s.flows key
    let planes := if on then next.getD c.planes else c.planes
    let run := ((c.planes.zip planes).zip c.run).map fun e => if u32 e.1.1 4 = u32 e.1.2 4 && plPic e.1.1 == plPic e.1.2 then e.2 else PlaneRun.new s.now
    let s := s.updComp key fun c => { c.bump 8 due.length with
      planes := planes, run := run, parked := if on then none else next, commits := c.commits.filter fun e => decide (n < e.1), next := n + 1 }
    let s := s.updComp key fun c => { c with
      cur := none, last := match c.cur with | some u => if u.done < c.slices then some u else none | none => none }
    if !s.flows key then s
    else
      let s := s.planeStates key n
      match s.comp key with
      | none => s
      | some c =>
        let buf := match (if c.last.isSome then c.out[0]? else c.out[1]?) with | some q => q.data | none => (List.range (pictureBytes c.w c.h c.depth)).map (Config.storeByte (kidx key))
        let pic : Picture := { id := n, w := c.w, h := c.h, depth := c.depth, ts := n % 2 ^ 32, data := buf, concealed := false, rows := 0,
                               since := 0, s := 0, t := 0, order := n, arrived := [] }
        s.updComp key fun c => { { c.bump 0 1 with stats := tset (c.bump 0 1).stats 28 c.culled } with
          cur := some { frame := n, pic := pic, started := s.now, left := [], planes := c.planes, sel := [], bad := [], poison := [], broken := [], done := 0 } }

/-- The output picture of a frame that is not complete. -/
def Comp.runOf (c : Comp) (frame : Nat) : Option CompRun := ([c.cur, c.last].filterMap id).find? fun u => u.frame == frame

/-- It changed. -/
def Comp.setRun (c : Comp) (u : CompRun) : Comp :=
  let put (x : Option CompRun) : Option CompRun := x.map fun y => if y.frame = u.frame then u else y
  { c with cur := put c.cur, last := put c.last }

/-- A slice of a frame uses what its plane `p` shows: somewhere in it the plane is met and fetched (R396). -/
def Comp.uses (c : Comp) (planes : List Bytes) (p k : Nat) : Bool :=
  let q := planes.getD p []
  let ty := c.top k / 64
  decide (plY q < c.bottom k) && decide ((c.top k : Int) < plY q + plH q) &&
  (List.range (ceilDiv c.w 64)).any fun tx => c.meets q tx ty && !((planes.drop (p + 1)).any fun z => plOpaque z && c.covers z tx ty)

/-- Composite slice `k` of the running picture after an item of it ended (R394, R415): ENGINE_ERROR with a mask names poisoned
planes, which show their fill colour in the slice; after any other end but DONE the slice keeps what the buffer held. The slice is
written and answered when its last item has ended. -/
def State.opalEnd (s : State) (key frame kb st res : Nat) : State × Bool :=
  let k := kb / 8
  match s.comp key with
  | none => (s, false)
  | some c =>
    match c.runOf frame with
    | none => (s, false)
    | some u =>
      if !thas u.left k then (s, false)
      else
        let sel := tget [] u.sel k
        let poisoned := st == 5 && res != 0
        let mask := tget 0 u.poison k ||| (if poisoned then res else 0)
        let broken := if st == 0 || poisoned then u.broken else k :: u.broken
        let planes := ((u.planes.zip sel).zipIdx).map fun e => (e.1.1, if mask.testBit e.2 then none else e.1.2)
        let last := tget 0 u.left k == 1
        let data := if last && !broken.contains k then composeBand c.w c.h c.depth planes 0 c.w (c.top k) (c.bottom k) u.pic.data else u.pic.data
        let soiled := st != 0 || (planes.zipIdx.any fun e => (e.1.2.any (·.concealed)) && c.uses u.planes e.2 k)
        let lostBefore := u.bad.contains k
        let u := { u with
          left := tset u.left k (tget 0 u.left k - 1), done := if last then u.done + 1 else u.done, bad := if st = 0 then u.bad else k :: u.bad,
          poison := if mask = 0 then u.poison else tset u.poison k mask, broken := broken,
          pic := { u.pic with data := data, concealed := u.pic.concealed || soiled, rows := if last then c.bottom k else u.pic.rows } }
        let s := s.updComp key fun c => if st = 0 || lostBefore then c.setRun u else (c.bump 24 1).setRun u
        (s, last)

/-- The picture of a composition whose last slice is complete: put out, and copied to its taps (R401, R508). -/
def State.compDone (s : State) (key frame : Nat) : State :=
  match s.comp key with
  | none => s
  | some c =>
    match c.runOf frame with
    | none => s
    | some u =>
      let pic := { u.pic with since := s.now }
      let s := s.updComp key fun c => { c with
        out := (pic :: c.out).take 2, last := match c.last with | some x => if x.frame = frame then none else some x | none => none }
      s.tapCopy 6 key 0 pic.concealed (c.boundary u.frame / 6) (u.frame % 2 ^ 32) (c.period / 6) pic.data

end Sys2Proof.Machine
end

