-- ==== Sys2Proof/Machine/Encode.lean ====
section
/-!
DEFINITION. Video encode (R322 to R359): checks, the fill and the caps, pictures and slices, packets and the commands.
-/

namespace Sys2Proof.Machine

/-! ### Levels -/

/-- A level's limits on a stream's size, rate, bit rate and CPB size (R336). -/
def levelOk (codec profile level w h : Nat) (rate : Nat × Nat) (cap cpb : Nat) : Bool :=
  let k := if codec = 1 ∧ profile = 100 then 1250 else 1000
  let size := if codec = 1 then ceilDiv w 16 * ceilDiv h 16 else w * h
  let wide := if codec = 1 then max (ceilDiv w 16) (ceilDiv h 16) else max w h
  match (if codec = 1 then avcLevel level else hevcLevel level) with
  | some (perSec, per, br, buf) =>
    decide (size ≤ per) && decide (size * rate.1 ≤ perSec * rate.2) && decide (wide * wide ≤ 8 * per) && decide (cap * 1000 ≤ br * k) && decide (cpb ≤ buf * k)
  | none => false

/-! ### Sizes of slices and fallback (R335, R343) -/

/-- Slices declared, priority, temporal layers, SUB_FRAME. -/
def Encoding.codec (e : Encoding) : Nat := u8 e.cfg 0
def Encoding.n (e : Encoding) : Nat := u8 e.cfg 8
def Encoding.layers (e : Encoding) : Nat := u8 e.cfg 6
def Encoding.sub (e : Encoding) : Bool := u8 e.cfg 9 % 2 == 1
def Encoding.live (e : Encoding) : Bool := u8 e.cfg 5 == 1

/-- Rows of slice `k`. -/
def rowsIn (codec h n k : Nat) : Nat := min (sliceRows codec h n) (codedRows codec h - k * sliceRows codec h n)

/-- 16 × 16 blocks of a row, and the fallback size of one. -/
def rowBlocks (codec w : Nat) : Nat := ceilDiv w 16 * (rowLines codec / 16)
def rowFallback (codec w : Nat) (idr : Bool) : Nat := rowBlocks codec w * (if idr then 10 else 1)

/-- The fallback size of slice `k`, and of an IDR picture. -/
def sliceFallback (codec w h n k : Nat) (idr : Bool) : Nat := rowsIn codec h n k * rowFallback codec w idr + 128
def idrFallback (codec w h n : Nat) : Nat := ((List.range (sliceCount codec h n)).map fun k => sliceFallback codec w h n k true).sum + 1024

/-- The drain at boundary `n` (R333), F being the exact frame rate `rate.1 / rate.2` in mHz. -/
def drain (cap : Nat) (rate : Nat × Nat) (n : Nat) : Nat :=
  let upTo (k : Nat) : Nat := k * cap * 1000 * rate.2 / rate.1
  upTo n - upTo (n - 1)

/-- The rate settings of a stream (Table 10.9): mode, QPs, target, cap. -/
def rateFields (mode qmin qmax qini target cap : Nat) : Bool :=
  decide (1 ≤ mode) && decide (mode ≤ 3) && decide (qmin ≤ qmax) && decide (qmax ≤ 51) && decide (qmin ≤ qini) && decide (qini ≤ qmax) &&
  decide (32 ≤ cap) && decide (cap ≤ 240000) && (if mode = 2 then decide (32 ≤ target) && decide (target ≤ cap) else target == 0)

/-- R336 for a stream of a composition. -/
def streamRateOk (p : Bytes) (c : Comp) (cap cpb : Nat) : Bool :=
  let least := cap * 1000 * c.rate.2 / c.rate.1
  decide (idrFallback (u8 p 0) c.w c.h (u8 p 8) ≤ least) && decide (least ≤ cpb) && levelOk (u8 p 0) (u8 p 1) (u8 p 2) c.w c.h c.rate cap cpb

/-- Every slice of a stream lies in one composite slice (R413). -/
def slicesFit (codec n : Nat) (c : Comp) : Bool :=
  let l := sliceRows codec c.h n * rowLines codec
  (List.range (sliceCount codec c.h n)).all fun k => k * l / c.lines == (min c.h ((k + 1) * l) - 1) / c.lines

/-- R343, R346, R348 and R413 for a stream of a composition `key`, the frame-period check with this stream's t_pic in place of that
of the stream `but` that is changed. -/
def State.streamFits (s : State) (p : Bytes) (key : Nat) (c : Comp) (cpb : Nat) (but : Option (Nat × Nat)) : Bool :=
  let codec := u8 p 0
  let n := u8 p 8
  let sub := u8 p 9 % 2 == 1
  let t := tPic codec c.w c.h n cpb
  decide (n ≤ codedRows codec c.h) && sub == c.sub &&
  (if sub then u8 p 5 == 1 && decide (sliceArea codec c.w c.h n ≤ 122880) && slicesFit codec n c
   else decide (t ≤ c.period) && c.planes.all (s.periodOk true c (max t (s.feedBut key but))))

/-! ### EncodingCreate -/

/-- The common fields (Table 10.8). -/
def encOk (p : Bytes) : Bool :=
  let pr := u8 p 1
  let l := u8 p 6
  (if u8 p 0 = 1 then pr == 66 || pr == 77 || pr == 100 else u8 p 0 == 3 && (pr == 1 || pr == 2)) && decide (u8 p 3 ≤ 1) && decide (u8 p 4 ≤ 3) &&
  (u8 p 5 == 1 || u8 p 5 == 2) && decide (1 ≤ l) && decide (l ≤ 4) && decide (1 ≤ u8 p 7) && decide (u8 p 7 ≤ 4) && decide (l ≤ u8 p 7 + 1) &&
  decide (1 ≤ u8 p 8) && decide (u8 p 8 ≤ 32) && decide (u8 p 9 ≤ 1) && decide (1 ≤ u8 p 10) && decide (u8 p 10 ≤ 3) && decide (96 ≤ u8 p 11) &&
  decide (u8 p 11 < 128) && u16 p 12 % 2 ^ (l - 1) == 0 && decide (u16 p 14 ≤ 10000) && decide (256 ≤ u16 p 16) && decide (u16 p 16 ≤ 1400) && zeros p 18 14

/-- The streams of a create payload. -/
def encStreams (p : Bytes) : List Bytes := (List.range (u8 p 10)).map fun i => (p.drop (32 + 32 * i)).take 32

/-- A stream's own fields. -/
def streamOk (q : Bytes) : Bool := rateFields (u8 q 8) (u8 q 9) (u8 q 10) (u8 q 11) (u32 q 12) (u32 q 16) && zeros q 26 2

/-- A stream just created. -/
def Stream.new (q : Bytes) : Stream where
  cfg := q
  n := 0
  fill := 0
  drains := []
  shown := 0
  pos := 0
  due := true
  req := false
  reqFrom := 0
  lastIdr := none
  seq := u16 q 24
  pics := []
  next := 0
  refs := []
  weights := []
  window := []
  told := []
  stats := []

/-- The handles of the streams' compositions checked in order. -/
def State.withComps (s : State) : List Bytes → (List (Nat × Comp) → Eff) → Eff
  | [], k => k []
  | q :: r, k => s.withHandle (u32 q 0) [0x04] fun key =>
    match s.comp key with
    | some c => s.withComps r fun l => k ((key, c) :: l)
    | none => .fail .noSuchObject []

/-- The cost of an encoding over its compositions. -/
def encTotal (p : Bytes) (l : List (Nat × Comp)) (caps : List Nat) : Costs :=
  encCost p ((l.zip caps).map fun e => (e.1.2.w * e.1.2.h, e.1.2.rate, e.2))

/-- The packetiser queue of a stream (Table 13.2). -/
def encQueue (key n : Nat) : Nat := 0xA000 + 4 * kidx key + n

/-- The own part of EncodingCreate (R322 to R324, R336, R343, R346, R348, R413). -/
def effEncodingCreate (r : Req) (s : State) : Eff :=
  let p := r.payload
  let l := encStreams p
  nullTarget r (
  s.withComps l fun cs =>
  need s.inService .wrongState (
  need (encOk p && l.all streamOk && (cs.map (·.1)).eraseDups.length == cs.length &&
    cs.all (fun c => c.2.period == (cs.headD c).2.period && c.2.phase == (cs.headD c).2.phase) &&
    (cs.zip l).all (fun e => streamRateOk p e.1.2 (u32 e.2 16) (u32 e.2 20) && s.streamFits p e.1.1 e.1.2 (u32 e.2 20) none)) .invalidArg (
  let cost := encTotal p cs (l.map fun q => u32 q 16)
  s.create 5 0 1024 fun key =>
  s.admission cost [] fun s _ =>
    let s := (s.addObj key r.mbx (u8 p 3 == 1) (u8 p 4) cost).updVideo fun v => { v with
      encs := tset v.encs (kidx key) { cfg := p.take 32, streams := l.map Stream.new } }
    let s := (List.range l.length).foldl (fun s i => s.addQueue (encQueue key i) 0) s
    let s := if u8 p 3 = 1 then s.addSched (.frame (kidx (cs.headD (0, Comp.new p 0)).1)) noOrigin (.live key true) else s
    let ans := (List.range 3).flatMap fun i => match cs[i]? with
      | some c => le 1 (sliceCount (u8 p 0) c.2.h (u8 p 8)) ++ le 1 (sliceRows (u8 p 0) c.2.h (u8 p 8))
      | none => le 2 0
    .done (ans ++ le 2 0) (s.handle key) s)))

/-- ENCODING_CREATE. -/
def execEncodingCreate (r : Req) (s : State) : Host.Outcome State Fault Refusal :=
  .next (s.command 0x0600 (· == 32 + 32 * u8 r.payload 10) r (effEncodingCreate r))

/-- The boundary of an encoding: the frame boundary of its compositions (R323, R354). -/
def State.encBound (s : State) (key : Nat) : Boundary :=
  match (s.enc key).bind (·.streams.head?) with
  | some x => .frame (kidx x.comp)
  | none => .block s.nextBlock

/-- The own part of EncodingDestroy. -/
def effEncodingDestroy (r : Req) (s : State) : Eff :=
  s.withHandle r.tgt [0x05] fun key => s.destroyAt r key (s.encBound key)

/-- ENCODING_DESTROY. -/
def execEncodingDestroy (r : Req) (s : State) : Host.Outcome State Fault Refusal :=
  .next (s.command 0x0601 (· == 0) r (effEncodingDestroy r))

/-- The own part of EncodingEnable: WRONG_STATE in SHED (R359). -/
def effEncodingEnable (r : Req) (s : State) : Eff :=
  s.withHandle r.tgt [0x05] fun key => need (s.mode != .shed) .wrongState (s.enableAt r key (s.encBound key))

/-- ENCODING_ENABLE. -/
def execEncodingEnable (r : Req) (s : State) : Host.Outcome State Fault Refusal :=
  .next (s.command 0x0602 (· == 0) r (effEncodingEnable r))

/-- The own part of EncodingHold. -/
def effEncodingHold (r : Req) (s : State) : Eff :=
  s.withHandle r.tgt [0x05] fun key => s.holdAt r key (s.encBound key)

/-- ENCODING_HOLD. -/
def execEncodingHold (r : Req) (s : State) : Host.Outcome State Fault Refusal :=
  .next (s.command 0x0603 (· == 0) r (effEncodingHold r))

/-- The hard cap of a stream once the changes that wait have taken effect. -/
def State.capAhead (s : State) (key n cap : Nat) : Nat :=
  s.sched.foldl (fun c e => match e.act with
    | .rate i p => if i = kidx key ∧ u8 p 0 = n then u32 p 12 else c
    | _ => c) cap

/-- The own part of EncodingRateSet (Table 10.11, R336, R384, R413). -/
def effEncodingRateSet (r : Req) (s : State) : Eff :=
  let p := r.payload
  let n := u8 p 0
  s.withHandle r.tgt [0x05] fun key =>
  match s.enc key with
  | none => .fail .noSuchObject []
  | some e =>
    match e.streams[n]? with
    | none => .noUnit
    | some x =>
      match s.comp x.comp with
      | none => .fail .invalidArg []
      | some c =>
        let cpb := u32 p 16
        need (rateFields (u8 p 1) (u8 p 2) (u8 p 3) (u8 p 4) (u32 p 8) (u32 p 12) && zeros p 5 3 && streamRateOk e.cfg c (u32 p 12) cpb &&
          s.streamFits e.cfg x.comp c cpb (some (key, n)) &&
          (decide (cpb ≤ x.cpb) || (s.receivers key).all fun k => match s.vleg k with
            | some l => s.burstCovers l.cfg e fun i => if i = n then cpb else ((e.streams[i]?).map (·.cpb)).getD 0
            | none => true)) .invalidArg (
        let old := s.objCost key
        let b := bkey 0x0004 0
        let new := addCost (minusCost old [(b, s.capAhead key n x.cap)]) b (u32 p 12)
        s.admission new old fun s dec =>
          let s := (s.updObj key fun o => { o with cost := new }).releaseAt (s.encBound key) dec
          .later [] r.tgt (s.schedule (s.encBound key) (r.origin r.tgt) (.rate (kidx key) p)))

/-- ENCODING_RATE_SET. -/
def execEncodingRateSet (r : Req) (s : State) : Host.Outcome State Fault Refusal :=
  .next (s.command 0x0604 (· == 20) r (effEncodingRateSet r))

/-- A fill after some drains and upper bounds. -/
def drained (fill : Nat) (l : List (Nat × Option Nat)) : Nat := l.foldl (fun f e => (e.2.getD (f - e.1)).min (f - e.1)) fill

/-- With no picture being coded, what the fill goes through is counted at once. -/
def Stream.settle (x : Stream) : Stream := if x.pics.isEmpty then { x with fill := drained x.fill x.drains, drains := [] } else x

/-- New rate settings in force (Table 10.6). -/
def State.applyRate (s : State) (i : Nat) (p : Bytes) : State :=
  s.updStream (okey 5 i) (u8 p 0) fun x => { x with
    cfg := poke x.cfg 8 ((p.drop 1).take 4 ++ (p.drop 8).take 12), drains := x.drains ++ [(0, some (u32 p 16))],
    n := if x.cap = u32 p 12 then x.n else 0 }.settle

/-- The own part of EncodingKeyFrame (R352, Table 10.12). -/
def effEncodingKeyFrame (r : Req) (s : State) : Eff :=
  let p := r.payload
  let m := u8 p 0
  s.withHandle r.tgt [0x05] fun key =>
  match s.enc key with
  | none => .fail .noSuchObject []
  | some e =>
    let l := (List.range e.streams.length).filter fun i => m.testBit i
    needUnit (decide (1 ≤ m % 8) && decide (m % 8 < 2 ^ e.streams.length)) (
    need (!(s.following && s.critical key)) .leaseHeld (need (s.isActive key) .wrongState (
    need (decide (m < 8) && zeros p 1 3) .invalidArg (
    let mask := (l.map fun i => if (s.idrFrame key i).2 then 2 ^ i else 0).sum
    let last := (l.map fun i => match (e.streams[i]?).bind fun x => s.comp x.comp with | some c => c.boundary (s.idrFrame key i).1 | none => 0).foldl max 0
    .later (le 1 mask ++ le 1 0 ++ le 2 (ceilDiv (last - 6 * s.now) 6000000)) r.tgt
      ((l.foldl (fun s i => s.streamRequest key i true) s).schedule (.keys (kidx key) l) (r.origin r.tgt) .applied)))))

/-- ENCODING_KEY_FRAME. -/
def execEncodingKeyFrame (r : Req) (s : State) : Host.Outcome State Fault Refusal :=
  .next (s.command 0x0605 (· == 4) r (effEncodingKeyFrame r))

/-- The own part of EncodingStatsGet (Table 10.13). -/
def effEncodingStatsGet (r : Req) (s : State) : Eff :=
  let n := u8 r.payload 0
  s.withHandle r.tgt [0x05] fun key =>
  match (s.enc key).bind (·.streams[n]?) with
  | none => .noUnit
  | some x =>
    let g (o : Nat) : Nat := tget 0 x.stats o
    need (zeros r.payload 1 3) .invalidArg (
    .done (le 8 (g 0) ++ le 8 (g 8) ++ (([16, 20, 24, 28, 32, 36, 40, 44] : List Nat).flatMap fun o => le 4 (g o)) ++ le 4 x.shown ++
      le 1 (if s.isActive key then 1 else 0) ++ le 3 0) r.tgt s)

/-- ENCODING_STATS_GET. -/
def execEncodingStatsGet (r : Req) (s : State) : Host.Outcome State Fault Refusal :=
  .next (s.command 0x0606 (· == 4) r (effEncodingStatsGet r))

/-! ### States (Table 10.6) -/

/-- Enable or Hold in effect: the fill, the boundary count and the next IDR start again, or waiting requests are cleared. -/
def State.encFlow (s : State) (key : Nat) (on : Bool) : State :=
  (if on then s else s.dropScheds fun b => match b with | .keys i _ => i == kidx key | _ => false).updEnc key fun e => { e with streams := e.streams.map fun x =>
    if on then { x with drains := x.drains ++ [(0, some 0)], shown := 0, n := 0, due := true }.settle else { x with req := false } }

/-- A destroyed encoding gone: undeparted packets dropped, receivers and taps released (Tables 3.5, 10.6). -/
def State.encFree (s : State) (key : Nat) : State :=
  let s := (List.range 3).foldl (fun s i => s.dropQueue (encQueue key i)) (s.sourceGone key)
  (s.dropTaps key).updVideo fun v => { v with encs := tdel v.encs (kidx key) }

/-! ### Pictures (R328 to R333, R337, R351) -/

/-- The temporal ID at a position (R329). -/
def temporalId (layers p : Nat) : Nat :=
  if p % 2 ^ (layers - 1) = 0 then 0
  else layers - 1 - (if p % 2 = 1 then 0 else if p % 4 = 2 then 1 else 2)

/-- The caps of a picture's slices (R337). -/
def sliceCaps (e : Encoding) (w h k : Nat) (idr : Bool) (weights : Table Nat) : List Nat :=
  let ss := List.range (sliceCount e.codec h e.n)
  let fs (i : Nat) : Nat := sliceFallback e.codec w h e.n i idr
  let has := ss.any fun i => thas weights ((if idr then 64 else 0) + i)
  let wt (i : Nat) : Nat := if has then tget 0 weights ((if idr then 64 else 0) + i) else rowsIn e.codec h e.n i * rowBlocks e.codec w
  let sum := (ss.map wt).sum
  let spare := k - (ss.map fs).sum
  ss.map fun i =>
    let c := fs i + (if sum = 0 then 0 else spare * wt i / sum)
    if e.sub then min c 180000 else c

/-- The tools a stream is coded with (Table 10.1, R326): they follow from codec and profile alone. -/
def codingTools (p : Bytes) : CodingTools where
  codec := u8 p 0
  profile := u8 p 1
  level := u8 p 2
  bits := if u8 p 0 = 3 ∧ u8 p 1 = 2 then 10 else 8
  side := if u8 p 0 = 3 then 64 else 16
  cabac := u8 p 0 == 3 || u8 p 1 != 66
  transform8 := u8 p 0 == 1 && u8 p 1 == 100
  deblocking := true
  sao := u8 p 0 == 3
  searchX := 128
  searchY := 64

/-- What the parameter sets of a stream with settings `q` carry (R332): the bit rate of their reference decoder is the hard cap, its
buffer B_cpb, and cbr_flag 0. -/
def setFields (p q : Bytes) (c : Comp) : SetFields where
  tools := codingTools p
  w := c.w
  h := c.h
  rate := c.rate
  layers := u8 p 6
  refs := u8 p 7
  bitRate := 1000 * u32 q 16
  cpb := u32 q 20
  cbr := false

/-- The header of a NAL unit: nal_ref_idc (0 or 3) and type for AVC, type and temporal ID for HEVC (PRESUMED: the standards',
log entry 124). -/
def nalHead (codec type tid : Nat) (ref : Bool) : Bytes :=
  if codec = 3 then le 1 (2 * type) ++ le 1 (tid + 1) else le 1 ((if ref then 96 else 0) + type)

/-- The parameter sets of a stream (R332): SPS and PPS for AVC, VPS, SPS and PPS for HEVC, together at most 1,024 bits. -/
def streamSets (p q : Bytes) (c : Comp) : List Bytes :=
  (if u8 p 0 = 3 then [32, 33, 34] else [7, 8]).foldl (fun l t =>
    l ++ [(nalHead (u8 p 0) t 0 true ++ Config.setRbsp t (setFields p q c)).take (128 - (l.map (·.length)).sum)]) []

/-- A frame boundary of a stream's composition: the drain, and a picture begun where one is yielded (R333, R350 to R353). What its
coding rests on, the fill among it, is settled when the pictures before it have been coded (R342). -/
def State.encBoundary (s : State) (key i : Nat) (c : Comp) (n : Nat) : State :=
  match s.enc key with
  | none => s
  | some e =>
    match e.streams[i]? with
    | none => s
    | some x =>
      let x := { x with n := x.n + 1, drains := x.drains ++ [(drain x.cap c.rate (x.n + 1), none)] }
      let spaced := match x.lastIdr with | some f => decide (u16 e.cfg 14 * 6000000 ≤ (n - f) * c.period) | none => true
      let iv := u16 e.cfg 12
      let asked := x.req && spaced && decide (x.reqFrom ≤ n)
      let idr := x.due || asked || (iv != 0 && x.pos == iv)
      if !(s.flows key && s.flows x.comp) then s.updStream key i fun _ => x.settle
      else
        let pos := if idr then 0 else x.pos
        let pic : EncPic := {
          id := x.next, ts := (u32 x.cfg 28 + c.boundary n * 90000 / 6000000000) % 2 ^ 32, idr := idr, pos := pos, boundary := n, cfg := x.cfg,
          drains := x.drains, src := [], due := [], begun := false, caps := [], bits := [], first := none, ended := 0, lost := false, maxed := false,
          fell := 0, concealed := false, data := [], recon := [] }
        let y := x.bump 0 1
        s.updStream key i fun _ => { (if idr then y.bump 16 1 else y) with
          drains := [], pos := pos + 1, due := false, req := x.req && !asked, lastIdr := if idr then some n else x.lastIdr,
          next := x.next + 1, pics := x.pics ++ [pic] }

/-- The coding of a picture begins: those before it that never came to be coded are left, the fill is brought to its boundary, its
cap is shared among its slices (R333, R337), and an IDR picture ends what was used for reference (R330). -/
def Stream.begin (e : Encoding) (c : Comp) (pid : Nat) (x : Stream) : Stream :=
  match x.pics.find? (·.id == pid) with
  | none => x
  | some p =>
    if p.begun then x
    else
      let fill := drained x.fill (((x.pics.takeWhile (·.id != pid)).flatMap (·.drains)) ++ p.drains)
      let sets := if p.idr then 8 * ((streamSets e.cfg p.cfg c).map (·.length)).sum else 0
      let p' := { p with begun := true, caps := sliceCaps e c.w c.h (u32 p.cfg 20 - fill - sets) p.idr x.weights }
      { (x.bump 8 sets) with
        fill := fill + sets, pics := p' :: ((x.pics.dropWhile (·.id != pid)).drop 1), refs := if p.idr then [] else x.refs }

/-- The composite picture of a frame. -/
def Comp.picture (c : Comp) (frame : Nat) : Option Picture :=
  ((c.runOf frame).map (·.pic)).orElse fun _ => c.out.find? fun p => p.id == frame

/-- The time by which the packets of a coded slice of lines y0 to y1 of a frame depart (R106, R107): one frame period, two without
sub-frame mode, and 3 ms after what the composite picture's own bound runs from; 0 for none. -/
def Comp.dueBy (c : Comp) (q : Picture) (y0 y1 : Nat) : Nat :=
  match (if c.sub then q.arrived.filter fun e => decide (e.1 < y1) && decide (y0 ≤ e.2.1) else q.arrived) with
  | [] => 0
  | e :: r => (r.foldl (fun m e => min m e.2.2) e.2.2) + c.reach

/-- Lines y0 to y1 of a picture, luma then chroma. -/
def Picture.lines (q : Picture) (y0 y1 : Nat) : Bytes :=
  let b := sampleBytes q.depth
  let part (base w h a z : Nat) : Bytes := (q.data.drop ((base + a * w) * b)).take ((min z h - a) * w * b)
  let n := q.w * q.h
  part 0 q.w q.h y0 y1 ++ part n (q.w / 2) (q.h / 2) (y0 / 2) (y1 / 2) ++ part (n + n / 4) (q.w / 2) (q.h / 2) (y0 / 2) (y1 / 2)

/-- The samples that are coded (R327): those of an 8-bit composite picture times 4 for Main 10; those of a 10-bit one brought to 8
bits for the others, which the spec does not say how (log entry 124). -/
def codedSamples (p : Bytes) (depth : Nat) (d : Bytes) : Bytes :=
  if (codingTools p).bits = 10 then (if depth = 8 then d.flatMap fun x => le 2 (4 * x.toNat) else d)
  else if depth = 10 then (List.range (d.length / 2)).map fun i => Config.narrow (u16 d (2 * i) % 1024) else d

/-- An encode item: stage 3 Jasper, 4 Agate (R344, Table 10.4). -/
def State.encItem (s : State) (key i : Nat) (live : Bool) (stage pic k : Nat) (d : Bytes) : State :=
  let obj := kidx key * 4 + i
  let level := if stage = 3 then (if live then 10 else 2) else if live then 11 else 3
  s.submit (if stage = 3 then 3 else 2) {
    desc := descriptor (if stage = 3 then 4 else 3) level (encodeFlow stage obj) (s.handle key) 0xFFFF 0 0 (le 4 k ++ le 8 d.length), data := d,
    job := .video stage obj pic k }

/-- Composite slice `k` of a frame is complete: slices that lie in it are submitted in sub-frame mode; every slice once the
picture is whole otherwise (R347, R348). -/
def State.encodeReady (s : State) (comp frame k : Nat) (whole : Bool) : State :=
  match s.comp comp with
  | none => s
  | some c =>
    (s.fedBy comp).foldl (fun s x =>
      match s.enc x.1 with
      | none => s
      | some e =>
        match (e.streams[x.2]?).bind fun y => y.pics.find? fun p => p.boundary == frame with
        | none => s
        | some p =>
          let l := sliceRows e.codec c.h e.n * rowLines e.codec
          let hit := (List.range (sliceCount e.codec c.h e.n)).filter fun i => if e.sub then i * l / c.lines == k else whole
          let s := match c.picture frame with
            | none => s
            | some q => s.updStream x.1 x.2 fun y => { y with pics := y.pics.map fun z => if z.id = p.id then
                { z with
                  concealed := z.concealed || q.concealed
                  src := hit.foldl (fun (t : Table Bytes) (i : Nat) => tset t i (codedSamples e.cfg q.depth (q.lines (i * l) ((i + 1) * l)))) z.src
                  due := hit.foldl (fun (t : Table Nat) (i : Nat) => tset t i (c.dueBy q (i * l) ((i + 1) * l))) z.due } else z }
          hit.foldl (fun s i => s.encItem x.1 x.2 e.live 3 p.id i []) s) s

/-- An Opal item ended (R399, R401, R415). -/
def State.opalItemEnd (s : State) (key frame kb st res : Nat) : State :=
  match s.opalEnd key frame kb st res with
  | (s, false) => s
  | (s, true) =>
    match s.comp key with
    | none => s
    | some c =>
      let done := match c.runOf frame with | some u => u.done == c.slices | none => false
      if c.sub then
        let s := s.encodeReady key frame (kb / 8) false
        if done then s.compDone key frame else s
      else if done then (s.compDone key frame).encodeReady key frame 0 true
      else s

/-! ### Coding a slice (R335, R338, R339) -/

/-- What the coding of a slice rests on: tools, the stream's settings, type and temporal ID of the picture, the slice's number, cap,
rows and blocks of a row, its samples, the reference pictures, and the bits ahead of its rows: prefix NAL unit, NAL unit header and
slice header. -/
structure SliceJob where
  tools : CodingTools
  cfg : Bytes
  idr : Bool
  tid : Nat
  slice : Nat
  cap : Nat
  rows : Nat
  blocks : Nat
  src : Bytes
  refs : List Bytes
  head : List Bool

/-- The fallback size of a row. -/
def SliceJob.rowSize (x : SliceJob) : Nat := x.blocks * (if x.idr then 10 else 1)

/-- The QP Jasper wants for a row, between QP min and QP max (R338): the initial QP in fixed-QP mode (Table 10.3). -/
def SliceJob.qp (x : SliceJob) (used row : Nat) (before : List RowCoding) : Nat :=
  if u8 x.cfg 8 = 3 then u8 x.cfg 11
  else max (u8 x.cfg 9) (min (u8 x.cfg 10) (Config.modelQp x.cfg x.idr x.tid x.cap used row x.src before))

/-- The rows of a slice from row `j` on as Jasper codes them, `n` of them, with their bits (R338): once the model predicts more for
the rows that remain than is left of the cap, every one of them is coded at QP max. -/
def SliceJob.jasper (x : SliceJob) : Nat → Nat → Bool → Nat → List RowCoding → List (RowCoding × List Bool) × Bool
  | 0, _, maxed, _, _ => ([], maxed)
  | n + 1, j, maxed, used, before =>
    let qp := x.qp used j before
    let maxed := maxed || decide (x.cap - used < Config.modelBits x.tools x.idr qp j x.src x.refs before)
    let q := if maxed then u8 x.cfg 10 else qp
    let row := RowCoding.jasper q (Config.jasperRow x.tools x.idr q j x.src x.refs before)
    let bits := (if j = 0 then x.head else []) ++ Config.rowBits x.tools x.idr j row before
    let (l, m) := SliceJob.jasper x n (j + 1) maxed (used + bits.length) (before ++ [row])
    ((row, bits) :: l, m)

/-- A row in fallback mode (R335). -/
def SliceJob.fallback (x : SliceJob) (j : Nat) (before : List RowCoding) : RowCoding :=
  if !x.idr then .skip x.blocks
  else
    let qp := u8 x.cfg 10
    .dc qp ((List.range x.blocks).map fun b =>
      let d := Config.dcCoeffs x.tools qp j b x.src before
      if 10 < Config.dcBits x.tools qp j b d before then none else some d)

/-- The rows of a slice as Agate holds them to the cap, from row `j` on (R339): how each is coded, all their bits, and how many fell
back. A NAL unit ends on a whole byte. -/
def SliceJob.agate (x : SliceJob) : List (RowCoding × List Bool) → Nat → Bool → Nat → List RowCoding → List RowCoding × List Bool × Nat
  | [], _, _, _, _ => ([], [], 0)
  | (row, b) :: r, j, fb, used, before =>
    let total := if r.isEmpty then 8 * ceilDiv (used + b.length) 8 else used + b.length
    let fb := fb || decide (x.cap < total + r.length * x.rowSize)
    let row := if fb then x.fallback j before else row
    let bits := if !fb then b
      else (if j = 0 then x.head else []) ++ (Config.rowBits x.tools x.idr j row before).take x.rowSize
    let (rows, out, n) := SliceJob.agate x r (j + 1) fb (used + bits.length) (before ++ [row])
    (row :: rows, bits ++ out, if fb then n + 1 else n)

/-- A coded slice: its NAL units, how its rows were coded, whether rows were coded at QP max, and how many fell back. -/
structure CodedSlice where
  nals : List Bytes
  rows : List RowCoding
  maxed : Bool
  fell : Nat

/-- The bits of its NAL units. -/
def CodedSlice.bits (x : CodedSlice) : Nat := 8 * (x.nals.map (·.length)).sum

/-- Bits as bytes, the last filled up with zeros. -/
def packBits (l : List Bool) : Bytes := (List.range (ceilDiv l.length 8)).map fun i => BitVec.ofNat 8 (ofBits ((List.range 8).map fun j => l.getD (8 * i + j) false))

/-- The prefix NAL unit ahead of an AVC slice (R331): type 14 with its temporal ID; where it is of a reference picture its payload
says that no base picture is stored. -/
def prefixNal (idr ref : Bool) (tid : Nat) : Bytes :=
  nalHead 1 14 0 ref ++ le 1 (128 + (if idr then 64 else 0)) ++ [0x80#8] ++ le 1 (32 * tid + 7) ++ (if ref then [0x20#8] else [])

/-- The NAL unit type of a slice (R331): IDR for AVC 5, else 1; IDR_N_LP, TSA_N where its picture is not used for reference, TSA_R, and
TRAIL_R for temporal ID 0 for HEVC. -/
def sliceType (codec tid : Nat) (idr ref : Bool) : Nat :=
  if codec = 3 then (if idr then 20 else if tid = 0 then 1 else if ref then 3 else 2) else if idr then 5 else 1

/-- A picture of a temporal ID is used for reference (R330). -/
def usedForRef (layers tid : Nat) : Bool := !(decide (1 < layers) && tid == layers - 1)

/-- Slice `k` of a picture coded, once its stream has begun the picture (R330, R335 to R339). -/
def codeSlice (e : Encoding) (c : Comp) (x : Stream) (p : EncPic) (k : Nat) : CodedSlice :=
  let codec := e.codec
  let tid := temporalId e.layers p.pos
  let ref := usedForRef e.layers tid
  let pre := if codec = 3 then [] else prefixNal p.idr ref tid
  let head := nalHead codec (sliceType codec tid p.idr ref) tid ref
  let ahead := bitsOf (pre ++ head)
  let job : SliceJob := {
    tools := codingTools e.cfg, cfg := p.cfg, idr := p.idr, tid := tid, slice := k, cap := p.caps.getD k 0,
    rows := rowsIn codec c.h e.n k, blocks := rowBlocks codec c.w, src := tget [] p.src k,
    refs := ((x.refs.filter fun r => if tid = 0 then r.1 == 0 else decide (r.1 < tid)).take (u8 e.cfg 7)).map (·.2),
    head := ahead ++ (Config.sliceHeader (setFields e.cfg p.cfg c) tid p.pos p.idr ref k).take (128 - ahead.length) }
  let (rows, maxed) := job.jasper job.rows 0 false 0 []
  let (coded, bits, fell) := job.agate rows 0 false 0 []
  { nals := (if pre = [] then [] else [pre]) ++ [packBits (bits.drop (8 * pre.length))], rows := coded, maxed := maxed, fell := fell }

/-- The coded bits of a slice in its Agate item (R345). -/
def State.codedBits (s : State) (key i pid k : Nat) : Nat :=
  match s.enc key with
  | none => 0
  | some e =>
    match e.streams[i]? with
    | none => 0
    | some x =>
      match s.comp x.comp with
      | none => 0
      | some c =>
        let x := x.begin e c pid
        match x.pics.find? (·.id == pid) with
        | some p => (codeSlice e c x p k).bits
        | none => 0

/-! ### Packets (R349) -/

/-- NAL units in one aggregation packet: STAP-A, or AP for HEVC. -/
def aggregate (codec tid : Nat) (l : List Bytes) : Bytes :=
  (if codec = 3 then nalHead 3 48 tid true else nalHead 1 24 0 (l.any fun d => 32 ≤ u8 d 0)) ++ l.flatMap fun d => be 2 d.length ++ d

/-- A NAL unit fragmented with FU-A, or FU for HEVC, in payloads of at most `m` bytes: at least two, since no fragment may be both
the first and the last. -/
def fragments (codec m : Nat) (d : Bytes) : List Bytes :=
  let n := if codec = 3 then 2 else 1
  let body := d.drop n
  let room := min (m - n - 1) (ceilDiv body.length 2)
  let count := ceilDiv body.length (max 1 room)
  (List.range count).map fun i =>
    let flags := (if i = 0 then 128 else 0) + if i + 1 = count then 64 else 0
    (if codec = 3 then le 1 (u8 d 0 / 128 * 128 + 98 + u8 d 0 % 2) ++ le 1 (u8 d 1) ++ le 1 (flags + u8 d 0 / 2 % 64)
     else le 1 (u8 d 0 / 32 * 32 + 28) ++ le 1 (flags + u8 d 0 % 32)) ++ (body.drop (i * room)).take room

/-- The RTP payloads of a slice's NAL units (R349): one aggregation packet where it fits, else the slice NAL unit fragmented, its prefix
NAL unit in a packet of its own ahead of it (DEDUCED, log entry 124). -/
def slicePackets (codec m tid : Nat) (l : List Bytes) : List Bytes :=
  let one := aggregate codec tid l
  if one.length ≤ m then [one] else l.dropLast ++ fragments codec m (l.getLastD [])

/-! ### Slices ended (R339, R356) -/

/-- RateCapped, at most once a second for each stream and mode (R341). -/
def State.rateCapped (s : State) (key i mode ts : Nat) : State :=
  match (s.enc key).bind (·.streams[i]?) with
  | none => s
  | some x =>
    let due : Bool := match tget? x.told mode with | some t => decide (t + 1000000000 ≤ s.now) | none => true
    if due then
      (s.updStream key i fun x => { x with told := tset x.told mode s.now }).raise key 0xF601 (le 1 i ++ le 1 mode ++ le 2 0 ++ le 4 ts ++ le 8 s.block)
    else s

/-- A packet of a coded picture as the forwarder sees it. -/
def encUnit (p : EncPic) (tid k rows blocks : Nat) (slice : Bool) : NalUnit where
  s := 0
  t := if slice then tid else 0
  quality := 0
  slice := slice
  first := true
  last := true
  dependent := false
  prefix_ := false
  ref := true
  set := 0
  rap := p.idr
  fresh := p.idr
  dropPrior := false
  rasl := false
  output := true
  up := p.idr || decide (0 < tid)
  upAll := p.idr || decide (0 < tid)
  num := 0
  runs := [(k * rows * blocks, rows * blocks)]
  params := none
  pic := none

/-- Packets of a stream given to its packetiser queue and the forwarder, with the time by which they depart (R106, R349, R350). -/
def State.encPackets (s : State) (key i : Nat) (p : EncPic) (dueBy tid : Nat) (l : List (Bytes × Bool × NalUnit)) : State :=
  l.zipIdx.foldl (fun s e =>
    match s.enc key with
    | none => s
    | some enc =>
      match enc.streams[i]? with
      | none => s
      | some x =>
        let d := e.1.1
        let begins := p.first.isNone && e.2 == 0
        let r : Rec := { kind := 2, flags := 0, obj := s.handle key, arrival := s.now, deadline := dueBy, start := 0, data := d }
        let s := ((s.writeQueue (encQueue key i) r false).readQueue (encQueue key i)).1
        let s := s.updStream key i fun x => { x with
          seq := (x.seq + 1) % 65536, window := (s.now, tid, 8 * d.length) :: x.window }
        s.forward {
          src := key, idx := i, ssrc := u32 x.cfg 4, units := [e.1.2.2], seq := x.seq, ts := p.ts, marker := e.1.2.1, data := d,
          aggregate := aggregates enc.codec d, begins := begins, opens := begins, holes := [], picAt := p.first.getD s.now,
          arrival := s.now, deadline := dueBy }) s

/-- The picture of a stream whose last slice has ended: references, weights, statistics, taps (R330, R337, R341, R357). -/
def State.encPicEnd (s : State) (key i : Nat) (e : Encoding) (c : Comp) (p : EncPic) : State :=
  let tid := temporalId e.layers p.pos
  let t := if p.idr then 64 else 0
  let s := s.updStream key i fun x =>
    let x : Stream := { x with
      pics := x.pics.filter fun (q : EncPic) => q.id != p.id
      shown := x.fill
      refs := if usedForRef e.layers tid then ((tid, (p.recon.map (·.2)).flatten) :: x.refs).take 16 else x.refs
      weights := p.bits.foldl (fun w b => tset w (t + b.1) b.2) (x.weights.filter fun w => (if p.idr then decide (w.1 < 64) else decide (64 ≤ w.1))) }
    let x := x.settle
    let x := if p.maxed then x.bump 32 1 else x
    if 0 < p.fell then (x.bump 36 1).bump 40 p.fell else x
  let s := if p.maxed then s.rateCapped key i 1 p.ts else s
  let s := if 0 < p.fell then s.rateCapped key i 2 p.ts else s
  s.tapCopy 5 key i p.concealed (c.boundary p.boundary / 6) (p.boundary % 2 ^ 32) (c.period / 6) p.data

/-- NAL units as an Annex B byte stream (Table 16.2). -/
def annexB (l : List Bytes) : Bytes := l.flatMap fun d => [0, 0, 0, 1] ++ d

/-- One slice of a picture ended: coded, or lost (R356). Slices end in the order of pictures and slices (R264, R344), so that those
before it have been coded (R342). A lost last slice leaves the picture without a marker: its other packets have gone (DEDUCED, log
entry 124). -/
def State.sliceEnd (s : State) (key i pid k : Nat) (coded : Bool) : State :=
  match s.enc key with
  | none => s
  | some e =>
    match e.streams[i]? with
    | none => s
    | some x =>
      match x.pics.find? (fun q => q.id == pid), s.comp x.comp with
      | some _, some c =>
        let x := x.begin e c pid
        match x.pics.find? (fun q => q.id == pid) with
        | none => s
        | some p =>
          let tid := temporalId e.layers p.pos
          let code : CodedSlice := if coded then codeSlice e c x p k else { nals := [], rows := [], maxed := false, fell := 0 }
          let sets := if p.idr && p.ended == 0 then streamSets e.cfg p.cfg c else []
          let u := encUnit p tid k (rowsIn e.codec c.h e.n k) (rowBlocks e.codec c.w)
          let pk := if coded then slicePackets e.codec (u16 e.cfg 16) tid code.nals else []
          let lastSlice := p.ended + 1 == sliceCount e.codec c.h e.n
          let out := (if sets = [] then [] else [(aggregate e.codec 0 sets, false, u false)]) ++
            pk.zipIdx.map fun (d : Bytes × Nat) => (d.1, lastSlice && d.2 + 1 == pk.length, u true)
          let refs := ((x.refs.filter fun r => if tid = 0 then r.1 == 0 else decide (r.1 < tid)).take (u8 e.cfg 7)).map (·.2)
          let p' := { p with
            ended := p.ended + 1, lost := p.lost || !coded, bits := if coded then tset p.bits k code.bits else p.bits,
            first := if out.isEmpty then p.first else some (p.first.getD s.now), data := p.data ++ annexB (sets ++ code.nals),
            maxed := p.maxed || code.maxed, fell := p.fell + code.fell,
            recon := if coded then tset p.recon k (Config.reconstruct (codingTools e.cfg) p.idr k code.rows refs) else p.recon }
          let x := { x with pics := x.pics.map fun (q : EncPic) => if q.id = pid then p' else q }
          let s := s.updStream key i fun _ => if coded then { x.bump 8 code.bits with fill := x.fill + code.bits } else { x.bump 44 1 with due := true }
          let s := s.encPackets key i p (tget 0 p.due k) tid out
          if lastSlice then s.encPicEnd key i e c p' else s
      | _, _ => s

/-- An encode item ended: Jasper's slice goes to Agate; Agate's is packetised; anything but DONE loses it (R344, R356). -/
def State.encItemEnd (s : State) (obj stage pid k st : Nat) (d : Bytes) : State :=
  let key := okey 5 (obj / 4)
  let i := obj % 4
  match s.enc key with
  | none => s
  | some e =>
    if st ≠ 0 then s.sliceEnd key i pid k false
    else if stage = 3 then s.encItem key i e.live 4 pid k d
    else s.sliceEnd key i pid k true

end Sys2Proof.Machine
end

