-- ==== Sys2Proof/Machine/Halt.lean ====
section
/-!
DEFINITION. The flight-recorder NVM, fatal conditions and the core domain's resets (R711 to R713, R720 to R733, R740 to
R743, R759, R760).
-/

namespace Sys2Proof.Machine

/-- Part of the state changed. -/
def State.updNvm (s : State) (f : Nvm → Nvm) : State := { s with nvm := f s.nvm }
/-- The reset controller changed. -/
def State.updRst (s : State) (f : Rst → Rst) : State := { s with rst := f s.rst }
/-- Modes and boot changed. -/
def State.updSys (s : State) (f : Sys → Sys) : State := { s with sys := f s.sys }
/-- The power controller changed. -/
def State.updPwr (s : State) (f : Power → Power) : State := { s with pwr := f s.pwr }
/-- The sequencer changed. -/
def State.updRails (s : State) (f : Rails → Rails) : State := { s with rails := f s.rails }

/-- The always-on clock, which no reset but power-on restarts. -/
def State.aonNow (s : State) : Nat := s.aonBase + s.now

/-- The seconds, fraction and nanoseconds of the counter as a time value (R571). -/
def State.timeNow (s : State) : Bytes := le 6 (s.now / 1000000000) ++ le 2 s.nowFrac ++ le 4 (s.now % 1000000000)

/-- The highest of some readings, with the lowest sensor that has it (R704). -/
def hottest (l : List Int) : Nat × Int :=
  l.zipIdx.foldl (fun b e => if b.2 < e.1 then (e.2, e.1) else b) (0, l.getD 0 0)

/-- The junction temperature (R704). -/
def Power.junction (p : Power) : Int := (hottest p.temps).2

/-- The rail current of the last sample, in 0.1 A. -/
def Power.current (p : Power) : Nat := p.amps.headD 0

/-! ### Sectors (R711 to R713) -/

/-- A sector. -/
def Nvm.sec (n : Nvm) (i : Nat) : SectorState × Nat := tget (.erased, 0) n.sectors i

/-- A sector's state set. -/
def Nvm.setSec (n : Nvm) (i : Nat) (st : SectorState) (cycles : Nat) : Nvm := { n with sectors := tset n.sectors i (st, cycles) }

/-- The sectors in some state. -/
def Nvm.those (n : Nvm) (st : SectorState) : List Nat := (List.range 64).filter fun i => (n.sec i).1 == st

/-- The usable sectors. -/
def Nvm.usable (n : Nvm) : Nat := 64 - (n.those .retired).length

/-- Remaining life in units of 0.1 % (R712). -/
def Nvm.life (n : Nvm) : Nat :=
  (((List.range 64).map fun i => if (n.sec i).1 = .retired then 0 else 950000 - (n.sec i).2).sum) * 1000 / (64 * 950000)

/-- The erased sector with the fewest cycles (R712). -/
def Nvm.freshest (n : Nvm) : Option Nat :=
  (n.those .erased).foldl (fun b i =>
    match b with
    | none => some i
    | some j => if (n.sec i).2 < (n.sec j).2 then some i else some j) none

/-- NvmWear (Table 23.9). -/
def State.nvmWear (s : State) : State :=
  s.raiseAll 0xFF02 (le 2 s.nvm.life ++ le 1 s.nvm.usable ++ le 5 0 ++ le 8 s.block)

/-- NvmWear where the remaining life first falls below 10.0 % and 1.0 % (R713). -/
def State.checkLife (s : State) : State :=
  let l := s.nvm.life
  let s := if l < 100 ∧ !s.nvm.low10 then (s.updNvm fun n => { n with low10 := true }).nvmWear else s
  if l < 10 ∧ !s.nvm.low1 then (s.updNvm fun n => { n with low1 := true }).nvmWear else s

/-- A sector retired (R712, R713). -/
def State.retireSector (s : State) (i : Nat) : State :=
  ((s.updNvm fun n => n.setSec i .retired (n.sec i).2).nvmWear).checkLife

/-- With no record being written and fewer than two sectors erased, one is erased: a dirty one, else that of the oldest
record (R712). -/
def State.keepErased (s : State) : State :=
  let n := s.nvm
  if !n.jobs.isEmpty || n.erase.isSome then s
  else
    match (n.those .dirty).head? with
    | some i => s.updNvm fun n => { n with erase := some i }
    | none =>
      if 2 ≤ (n.those .erased).length then s
      else
        match n.records.getLast? with
        | some r => s.updNvm fun n => { n with records := n.records.dropLast, erase := some r.1 }
        | none => s

/-- NVM_ERASE_DONE (R711, R712): a cycle counted; at 950,000 the sector is retired. -/
def State.eraseDone (s : State) : State :=
  match s.nvm.erase with
  | none => s
  | some i =>
    let c := (s.nvm.sec i).2 + 1
    let s := s.updNvm fun n => { n.setSec i .erased c with erase := none }
    (if 950000 ≤ c then s.retireSector i else s.checkLife).keepErased

/-- NVM_ERASE_DONE. -/
def execNvmEraseDone (s : State) : Host.Outcome State Fault Refusal := .next s.eraseDone

/-! ### Flight records (R743) -/

/-- A flight record (Table 24.12). -/
def State.flightBytes (s : State) (cause : Nat) (detail : Bytes) : Bytes :=
  let p := s.pwr
  let b := le 4 0x464C5431 ++ le 1 1 ++ le 1 cause ++ le 1 s.mode.code ++
    le 1 (if s.mode = .shed then (match s.sys.remembered with | some m => m.code | none => 0xFF) else 0xFF) ++
    le 4 (s.nvm.seq + s.nvm.jobs.length) ++ le 4 s.sys.fwBuild ++ s.timeNow ++ le 4 0 ++ le 8 s.block ++
    le 1 (unsigned 8 p.junction) ++ le 1 (unsigned 8 p.aon) ++ le 2 p.mv ++ le 2 p.current ++ le 2 p.m ++ padTo 16 detail ++
    le 8 Config.serial.toNat ++ List.replicate 52 0
  b ++ le 4 (crc32c b).toNat

/-- The next record's writing begun in the erased sector with the fewest cycles; an erase in progress is given up. -/
def State.beginRecord (s : State) : State :=
  match s.nvm.jobs, s.nvm.freshest with
  | _ :: _, some i => s.updNvm fun n => { n with sector := i, word := 0 }
  | _, _ => s

/-- A flight record requested: written at once, or after those being written. -/
def State.flight (s : State) (cause : Nat) (detail : Bytes) : State :=
  let r := s.flightBytes cause detail
  let idle := s.nvm.jobs.isEmpty
  let s := s.updNvm fun n => { n with jobs := n.jobs ++ [r] }
  if idle then s.beginRecord else s

/-- The newest record of each cause, kept alone where fewer than 4 sectors remain usable (R713). -/
def Nvm.thin (n : Nvm) : Nvm :=
  if 4 ≤ n.usable then n
  else
    n.records.foldl (fun m r =>
      if m.records.any fun x => u8 x.2 5 == u8 r.2 5 then m.setSec r.1 .dirty (m.sec r.1).2 else { m with records := m.records ++ [r] })
      { n with records := [] }

/-- A record complete. -/
def State.recordDone (s : State) (r : Bytes) : State :=
  let i := s.nvm.sector
  let s := s.updNvm fun n => { n.setSec i .record (n.sec i).2 with
    records := (i, r) :: n.records, jobs := n.jobs.tail, seq := n.seq + 1, word := 0 }
  ((s.updNvm Nvm.thin).updRst fun x => { x with last := u8 r 5 }).beginRecord.keepErased

/-- The end of a word's pulse (R712): its sector is retired where the word fails to verify, and the record begun anew. -/
def State.wordDone (s : State) : State :=
  match s.nvm.jobs with
  | [] => s
  | r :: _ =>
    let i := s.nvm.sector
    if Config.wordFails i (s.nvm.sec i).2 s.nvm.word then (s.retireSector i).beginRecord
    else if s.nvm.word + 1 < 16 then s.updNvm fun n => { n with word := n.word + 1 }
    else s.recordDone r

/-! ### Resets (Tables 24.3, 24.4, 25.8) -/

/-- RST_CAUSE (Table 25.8). -/
def Rst.causeWord (x : Rst) : Nat :=
  x.source + (if x.held then 256 else 0) + (if x.promoted then 512 else 0) + 1024 * x.haltCount + 65536 * x.flight

/-- A record or an erase that a reset cuts short (R729). -/
def Nvm.cut (n : Nvm) : Nvm :=
  let n := match n.jobs with
    | [] => n
    | _ => if n.word = 0 then { n with jobs := [] }
      else { n.setSec n.sector .dirty (n.sec n.sector).2 with jobs := [], word := 0, partials := n.partials + 1 }
  match n.erase with
  | some i => { n.setSec i .dirty (n.sec i).2 with erase := none }
  | none => n

/-- The rings that survive a warm reset (R528, R529). -/
def Recorder.surviving (x : Recorder) : List Survivor :=
  x.survivors ++ (x.saved.filterMap fun e => (tget? x.parts e.1).map fun p => ({
    base := p.base, size := p.size, saved := e.2.1, freezes := e.2.2, recs := p.recs, write := p.write } : Survivor))

/-- The core domain in RESET, by a warm (1) or a cold (2) reset: what Table 24.4 keeps, and everything else as State.reset
has it. -/
def State.coreReset (s : State) (kind src : Nat) (held promoted : Bool) : State :=
  let s := s.pinsOff
  let again := s.mode == .reset
  let rst := { s.rst with
    source := src, held := held, promoted := promoted, flight := if again then s.rst.flight else s.rst.last, last := 0,
    history := if again then s.rst.history else s.rst.causeWord, kind := kind,
    trained := kind == 1 && s.rst.trained }
  let z := State.reset
  let warm := kind = 1
  { z with
    pending := s.pending, out := s.out, fresh := s.fresh, rails := s.rails, nvm := s.nvm.cut, rst := rst, retained := s.retained,
    bkp := s.bkp, flash := s.flash, aonBase := s.aonNow
    onyx := { z.onyx with otp := s.onyx.otp }
    sys := { z.sys with otpCounter := s.sys.otpCounter, pclass := s.sys.pclass, pmaddr := s.sys.pmaddr, pll := s.sys.pll,
                        refclk := s.sys.refclk, fill := s.sys.fill, pwrFail := s.sys.pwrFail }
    pwr := { s.pwr with share := 0, recovering := false, since := 0, overTimes := 0, sum := 0, count := 0, m := 0, mMax := 0, told := [],
                        warned := false, cond := false, seen := false, cls4 := 4, shedAt := 0, calm := 0, broke := false,
                        throttled := 0, steps := 0, limit := false, phaseAt := none, target := s.pwr.cls, shown := [] }
    mem := if warm then { z.mem with g5 := s.mem.g5, g3 := s.mem.g3, spill := s.mem.spill, k5 := s.mem.k5, idle5 := s.mem.idle5,
                                     d := s.mem.d, scrub5 := s.mem.scrub5, k3 := s.mem.k3, idle3 := s.mem.idle3, scrub3 := s.mem.scrub3,
                                     failed := s.mem.failed, delays := s.mem.delays
                                     errs := s.mem.errs.filter fun e => decide (e.1 < 2 ^ 39)
                                     dead := s.mem.dead.filter fun e => decide (e.1 < 2 ^ 39) }
      else { z.mem with failed := s.mem.failed }
    recorder := if warm then { z.recorder with survivors := s.recorder.surviving } else z.recorder }

/-- A reset request taken (R724, R726, R729): a warm one as a cold one where DDR5 has not passed training; held while a word
pulses; a weaker request during a stronger reset absorbed. -/
def State.resetRequest (s : State) (cold : Bool) (src : Nat) : State :=
  let promoted := !cold && !s.rst.trained
  let kind := if cold || promoted then 2 else 1
  if s.mode = .reset ∧ kind ≤ s.rst.kind then s
  else if s.nvm.jobs.isEmpty then s.coreReset kind src false promoted
  else
    match s.sys.resetDue with
    | some (true, _) => s
    | some (false, old) => if cold then s.updSys fun x => { x with resetDue := some (true, src) } else s.updSys fun x => { x with resetDue := some (false, old) }
    | none => s.updSys fun x => { x with resetDue := some (cold, src) }

/-- NVM_WORD_PULSE_END: the word is written, and a held reset proceeds (R729). -/
def State.pulseEnd (s : State) : State :=
  let s := s.wordDone
  match s.sys.resetDue with
  | none => s
  | some (cold, src) =>
    let promoted := !cold && !s.rst.trained
    s.coreReset (if cold || promoted then 2 else 1) src true promoted

/-- NVM_WORD_PULSE_END. -/
def execNvmWordPulseEnd (s : State) : Host.Outcome State Fault Refusal := .next s.pulseEnd

/-! ### Fatal conditions (R733, R740) -/

/-- Outputs quiesced: the pins off and NMC_ATTN_N released, FW_READY clears, and every lane's transmitter is electrically idle (Tables
24.11 and 25.6). -/
def State.quiesce (s : State) : State :=
  { s.pinsOff with
           nmc := { s.nmc with attn := false }
           mbx := tmap s.mbx fun _ m => { m with fwReady := false }
           net := { s.net with ports := tmap s.net.ports fun _ p => { p with up := false } }
           cascade := { s.cascade with links := tmap s.cascade.links fun _ l => { l with st := 0 } } }

/-- A fatal condition: the flight record, then HALT, counted among those of the same cause within 60 s (R733). -/
def State.fatal (s : State) (cause : Nat) (detail : Bytes) : State :=
  if s.mode = .reset ∨ s.mode = .halt then s
  else
    let s := s.flight cause detail
    let t := s.aonNow
    let halts := (cause, t) :: s.rst.halts.filter fun e => decide (t < e.2 + 60000000000)
    let s := s.updRst fun x => { x with halts := halts, haltCount := min 3 (halts.filter fun e => e.1 == cause).length }
    ((s.updSys fun x => { x with halted := some cause, remembered := none, restart := none }).quiesce).toMode .halt

/-- HALT's record is committed (R730, R733): a trip powers the rails down until the bridge has cooled, a fallen power good
until a retry; the third HALT of one cause within 60 s, and a boot failure, stay. A cold reset that waited for its record
begins. -/
def State.recordCommitted (s : State) : State :=
  if !s.nvm.jobs.isEmpty then s
  else
    match s.sys.after with
    | some src => s.coreReset 2 src false false
    | none =>
      match s.mode, s.sys.halted with
      | .halt, some c =>
        let stays := c == 0x0A || decide (3 ≤ s.rst.haltCount)
        let hot := c == 1 || c == 2
        let s := if hot || c == 5 then
            s.updRails fun x => { x with
              down := decide (0 < x.on), waiting := false, gap := false, hot := hot && !stays, retry := c == 5 && !stays && decide (x.fails < 3) }
          else s
        if stays then s else s.coreReset 2 (if hot then 5 else 7) false false
      | _, _ => s

/-- FLIGHT_RECORD_COMMIT (R733). -/
def execFlightRecordCommit (s : State) : Host.Outcome State Fault Refusal := .next s.recordCommitted

/-- PWR_FAIL_N_ASSERT (R741): flight record 0x07, and nothing else; no firmware runs in RESET, BOOT and HALT. -/
def execPwrFailNAssert (s : State) : Host.Outcome State Fault Refusal :=
  if s.mode = .reset ∨ s.mode = .halt ∨ s.mode = .boot then .next s
  else .next ((s.flight 7 []).updSys fun x => { x with pwrFail := true })

/-- The record sequence of the newest record of a cause, being written or kept. -/
def Nvm.newestOf (n : Nvm) (cause : Nat) : Nat :=
  match (n.jobs.reverse ++ n.records.map (·.2)).find? fun r => u8 r 5 == cause with
  | some r => u32 r 8
  | none => n.seq

/-- PWR_FAIL_N_RELEASE (R741): FlightRecorded. -/
def execPwrFailNRelease (s : State) : Host.Outcome State Fault Refusal :=
  if !s.sys.pwrFail then .next s
  else
    let s := s.updSys fun x => { x with pwrFail := false }
    if s.mode.isOpen then .next (s.raiseAll 0xFF10 (le 1 7 ++ le 3 0 ++ le 4 (s.nvm.newestOf 7) ++ le 8 s.block)) else .next s

/-! ### The rail sequence begun (R695) -/

/-- The enable pin of a sequence step (Table 23.3), none for VDD_CORE. -/
def enPin (step : Nat) : Option Nat := if step = 1 then some 0 else if step = 2 then none else some (step - 2)

/-- An enable pin driven. -/
def State.driveEn (s : State) (step level : Nat) : State :=
  match enPin step with | some n => s.emit (.pin 2 n level) | none => s

/-- Sequencing begun at step 1. -/
def State.sequence (s : State) : State :=
  (s.updRails fun x => { x with waiting := true, gap := false, down := false, on := 0, retry := false, hot := false }).driveEn 1 1

/-- RESET_N_ASSERT (R723): a cold reset; rails kept off after three failures, or in a HALT that stays, are sequenced again (R697, R733). -/
def execResetNAssert (s : State) : Host.Outcome State Fault Refusal :=
  let s := s.resetRequest true 2
  let r := s.rails
  .next (if r.on = 0 && !r.waiting && !r.down && !r.hot && !r.retry then (s.updRails fun x => { x with fails := 0 }).sequence else s)

/-- RST_CLR_HALT_COUNT (R759): where the RST region takes writes (Table 25.1, R746). -/
def execRstClrHaltCount (fn : Nat) (s : State) : Host.Outcome State Fault Refusal :=
  if 4 ≤ fn then .fault .noSuchUnit
  else if s.mode.isOpen then .next (s.updRst fun x => { x with haltCount := 0, halts := [] }) else .next s

/-- SECOND_LEVEL_WATCHDOG_EXPIRY (R739): flight record 0x09, then a cold reset with source 0x06. It is armed from BOOT on. -/
def State.secondLevel (s : State) : State :=
  if s.mode = .reset ∨ s.mode = .halt then s
  else (s.flight 9 []).updSys fun x => { x with after := some 6 }

/-- SECOND_LEVEL_WATCHDOG_EXPIRY. -/
def execSecondLevelWatchdogExpiry (s : State) : Host.Outcome State Fault Refusal := .next s.secondLevel

end Sys2Proof.Machine
end

