-- ==== Sys2Proof/Machine/Power.lean ====
section
/-!
DEFINITION. Clocks, rails, metering, the peak bucket and the throttle, temperature, shedding and PMBus (R124 to R129, R689
to R710, R714).
-/

namespace Sys2Proof.Machine

/-! ### Alarms -/

/-- An alarm has not been raised in the last second (R714). -/
def State.alarmDue (s : State) (k : Nat) : Bool :=
  match tget? s.pwr.told k with
  | some t => decide (t + 1000000000 ≤ s.now)
  | none => true

/-- PowerAlarm, at most once per second for each kind (R714). -/
def State.powerAlarm (s : State) (kind : Nat) : State :=
  if s.alarmDue kind then
    (s.updPwr fun p => { p with told := tset p.told kind s.now }).raiseAll 0xFF00
      (le 1 kind ++ le 1 s.pwr.share ++ le 2 (s.pwr.m / 10) ++ le 4 0 ++ le 8 s.block)
  else s

/-- ThermalAlarm, at most once per second for each kind (R714). -/
def State.thermalAlarm (s : State) (kind sensor : Nat) (temp : Int) : State :=
  if s.alarmDue (16 + kind) then
    (s.updPwr fun p => { p with told := tset p.told (16 + kind) s.now }).raiseAll 0xFF01
      (le 1 kind ++ le 1 sensor ++ le 1 (unsigned 8 temp) ++ le 5 0 ++ le 8 s.block)
  else s

/-! ### Shedding (R124, R125, R128) -/

/-- The shed class an object counts with: an object of the critical set counts as class 0 (R128, R665). -/
def State.shedClassOf (s : State) (key : Nat) (o : Obj) : Nat := if s.critical key then 0 else o.shedClass

/-- The types that carry a shed class: legs, compositions, encodings. -/
def sheddable (key : Nat) : Bool := [2, 3, 4, 5].contains (ktype key)

/-- The boundary of an object at which a Hold of it takes effect. -/
def State.holdBoundary (s : State) (key : Nat) : Boundary :=
  match ktype key with
  | 3 => s.legBound key
  | 4 => .frame (kidx key)
  | 5 => s.encBound key
  | _ => .block s.nextBlock

/-- The shed event of an object's command group. -/
def shedOp (key : Nat) : Nat := if ktype key = 2 then 0xF200 else 0xF100 + 256 * ktype key

/-- A change of an audio leg's codec that waits for boundary `b`. -/
def Sched.recodes (e : Sched) (b : Boundary) (key : Nat) : Bool := match e.act with | .codec k _ => e.at_ == b && k == key | _ => false

/-- An object shed to HELD (R125): its budget stays reserved. A codec change of the same block comes after it (R211). -/
def State.shedHold (s : State) (key : Nat) (o : Obj) : State :=
  let b := s.holdBoundary key
  let later := s.sched.filter fun e => e.recodes b key
  let s : State := { s with sched := s.sched.filter fun e => !e.recodes b key }
  let s := (s.updObj key fun o => { o with active := false, shed := true }).addSched b noOrigin (.live key false)
  let s : State := { s with sched := s.sched ++ later }
  s.raise key (shedOp key) (shedEvent s 1 o.shedClass)

/-- Every ACTIVE object of a class shed to HELD in one block (Table 4.10, R125); an encoding that is HELD stays so and has its event
too (Table 10.6). -/
def State.shedClassNow (s : State) (cls : Nat) : State :=
  let hit := s.objs.filter fun e => sheddable e.1 && (e.2.active || ktype e.1 == 5) && s.objLive e.1 && s.shedClassOf e.1 e.2 == cls && cls != 0
  (hit.foldl (fun s e => if e.2.active then s.shedHold e.1 e.2 else s.raise e.1 (shedOp e.1) (shedEvent s 1 e.2.shedClass)) s).updPwr fun p => { p with cls4 := cls, shedAt := s.block * blockNs }

/-- The used amount of a budget once what awaits its boundary is released. -/
def State.usedAhead (s : State) (k : Nat) : Nat := tget 0 s.used k - tget 0 s.awaiting k

/-- A budget whose used amount exceeds its ceiling. -/
def State.overBudget (s : State) (k : Nat) : Bool := decide (s.ceiling (k / 2 ^ 32) (k % 2 ^ 32) < s.usedAhead k)

/-- An object shed by its destroy (R128): its event comes first; an audio leg leaves the matrix with it. -/
def State.shedDestroy (s : State) (key : Nat) (o : Obj) : State :=
  let s := s.raise key (shedOp key) (shedEvent s 2 o.shedClass)
  if ktype key = 2 then s.placeDestroy 5 noOrigin key (s.ownBlock 512 s.nextBlock)
  else
    let b := s.holdBoundary key
    ((s.dying key).releaseAt b o.cost).addSched b noOrigin (.free key)

/-- The objects of a class from the highest index down. -/
def State.classDown (s : State) (cls : Nat) : List (Nat × Obj) :=
  ((s.objs.filter fun e => sheddable e.1 && s.objLive e.1 && s.shedClassOf e.1 e.2 == cls).mergeSort
    fun a b => decide (kidx b.1 ≤ kidx a.1))

/-- Shedding under a lowered budget (R91, R128): class 3 first, until the load fits; an object without a cost in a budget
that is over its ceiling is passed over. -/
def State.shedToFit (s : State) : State :=
  [3, 2, 1].foldl (fun s cls =>
    (s.classDown cls).foldl (fun s e => if e.2.cost.any fun c => s.overBudget c.1 then s.shedDestroy e.1 e.2 else s) s) s

/-- A shed condition of Table 23.7 is present at the last samples. -/
def Power.hotNow (p : Power) : Bool := decide (p.shed ≤ p.junction) || p.dram.any fun t => decide (95 < t)

/-- A shed condition is present: heat, current, or the count of R703 (Table 4.10, R706). -/
def State.shedNow (s : State) : Bool := s.pwr.hotNow || s.pwr.limit || decide (10 ≤ s.pwr.overTimes)

/-- SHED entered (R717): the mode remembered, class 3 shed. -/
def State.enterShed (s : State) : State :=
  let m := s.mode
  let s := (s.updSys fun x => { x with remembered := some m }).toMode .shed
  (s.updPwr fun p => { p with entries := p.entries + 1, calm := 0 }).shedClassNow 3

/-- SHED_CLASS_ESCALATION (R124): 100 ms after the last shed, with the condition present the next class; with it absent step 2
of Table 4.10 stands open again. -/
def execShedClassEscalation (s : State) : Host.Outcome State Fault Refusal :=
  if s.mode ≠ .shed then .next s
  else if !s.shedNow then .next (s.updPwr fun p => { p with cls4 := 4 })
  else if 1 < s.pwr.cls4 ∧ s.pwr.cls4 < 4 ∧ s.pwr.shedAt + 100000000 ≤ s.now then .next (s.shedClassNow (s.pwr.cls4 - 1))
  else .next s

/-- SHED_EXIT (R707): after 500 blocks the remembered mode. -/
def execShedExit (s : State) : Host.Outcome State Fault Refusal :=
  if s.mode = .shed ∧ 500 ≤ s.pwr.calm then
    let m := s.sys.remembered.getD .standalone
    .next ((s.updSys fun x => { x with remembered := none }).toMode m)
  else .next s

/-! ### Metering, bucket and throttle (R698 to R703) -/

/-- A class in W; its peak limit in W; its bucket in units of 5/9 nJ, and the refill of one sample. -/
def classW (c : Nat) : Nat := if c = 3 then 250 else if c = 2 then 200 else 150
def peakW (c : Nat) : Nat := if c = 3 then 300 else if c = 2 then 240 else 180
def bucket (c : Nat) : Nat := (peakW c - classW c) * 3600000000
def refillOf (c : Nat) : Nat := bucket c / 1800000

/-- POWER_SAMPLE (R698, R701): metered power in mW. -/
def State.powerSample (s : State) (w : Nat) : State :=
  let p := s.pwr
  let c := classW p.target * 1000
  let e := if c < w then p.energy - (w - c) * 18 else min (bucket p.target) (p.energy + refillOf p.target)
  let s := s.updPwr fun p => { p with energy := e, last := w, sum := p.sum + w, count := p.count + 1 }
  if e = 0 ∧ p.energy ≠ 0 then s.powerAlarm 3 else s

/-- POWER_SAMPLE. -/
def execPowerSample (w : Nat) (s : State) : Host.Outcome State Fault Refusal := .next (s.powerSample w)

/-- The throttle share of the next block (R702), held at 8 at the current limit (R694); `overTimes` says that M exceeds T. -/
def Power.throttle (p : Power) (overTimes : Bool) : Power :=
  let cap := bucket p.target
  let r := (p.recovering || decide (cap ≤ 2 * p.energy)) && p.energy != 0
  let x := if p.limit then 8 else if overTimes then min 8 (p.share + 1) else if 0 < p.share ∧ r ∧ 10 ≤ p.since + 1 then p.share - 1 else p.share
  { p with share := x, recovering := r && x != 0, since := if x = p.share then p.since + 1 else 0 }

/-- The PWR registers that are updated at block boundaries (Table 25.9), by offset. -/
def State.pwrBlockRegs (s : State) : Table Nat :=
  let p := s.pwr
  let h := hottest p.temps
  [(0x000, p.cls),
   (0x004, (if 0 < p.share then 1 else 0) + (if p.energy = 0 then 2 else 0) + (if p.cond then 4 else 0) + 256 * p.share + 65536 * p.phases),
   (0x00C, p.m), (0x014, p.energy * 5 / 9000000), (0x018, bucket p.target * 5 / 9000000),
   (0x01C, unsigned 8 h.2 + 256 * h.1 + 65536 * unsigned 8 p.aon),
   (0x020, unsigned 8 p.warn + 256 * unsigned 8 p.shed + 65536 * unsigned 8 p.trip),
   (0x024, s.rails.failStep + 16 * s.rails.fails), (0x028, min p.throttled 0xFFFFFFFF),
   (0x02C, s.nvm.life + 65536 * s.nvm.usable + 2 ^ 24 * (s.nvm.those .erased).length)]

/-- The controller at a block start (R699, R702, R703, R707): the class, the block just ended, the throttle, the shed
condition. -/
def State.powerBlock (s : State) : State :=
  let changed := s.pwr.cls != s.pwr.target
  let p : Power := { s.pwr with target := s.pwr.cls, energy := min s.pwr.energy (bucket s.pwr.cls) }
  let t := if 0 < p.energy then peakW p.target else classW p.target
  let m := if p.count = 0 then 0 else p.sum / (100 * p.count)
  let starved := p.share != 0 && p.energy == 0 && decide (classW p.target * 1000 * p.count < p.sum)
  let was := p.share
  let q : Power := { p with m := m, mMax := max p.mMax m, overTimes := if starved then p.overTimes + 1 else 0 }
  let s : State := { s with pwr := q }
  let s := if changed then s.powerAlarm 5 else s
  let q := s.pwr
  let q := q.throttle (decide (t * 1000 * p.count < p.sum))
  let q := { q with sum := 0, count := 0, throttled := if 0 < was then q.throttled + 1 else q.throttled }
  let s : State := { s with pwr := q }
  let s := if was = 0 ∧ 0 < q.share then s.powerAlarm 1 else if 0 < was ∧ q.share = 0 then s.powerAlarm 2 else s
  let s := s.updWork fun w => { w with throttled := decide (0 < q.share) }
  let cond := s.shedNow || s.pwr.seen
  let calm : Bool := !s.pwr.broke && !cond && !starved && decide (s.pwr.junction ≤ s.pwr.shed - 5) && s.pwr.dram.all fun t => decide (t ≤ 90)
  let s := s.updPwr fun p => { p with cond := p.hotNow, seen := false, broke := false, calm := if calm then p.calm + 1 else 0 }
  let s := if cond && s.inService then (if s.mode ≠ .shed then s.enterShed else if s.pwr.cls4 = 4 then s.shedClassNow 3 else s) else s
  s.updPwr fun p => { p with shown := (s.pwrBlockRegs.foldl (fun t e => tset t e.1 e.2) p.shown) }

/-! ### Core rail (R692 to R694) -/

/-- VDD_CORE is up or in its soft-start. -/
def Rails.core (r : Rails) : Bool := decide (2 ≤ r.on) || (r.on == 1 && r.waiting)

/-- What a PWM output does: 1 it switches its phase, 0 it holds the three-state level, as every one does until VDD_CORE begins its soft-start
and as the output of a phase that is not active does (R692, R779). The active phases are the lowest (DESIGN CHOICE, log entry 106). -/
def State.pwm (s : State) (n : Nat) : Nat := if s.rails.core && decide (n < s.pwr.phases) then 1 else 0

/-- The PWM outputs that a step has changed from `s0` on put out: pin group 3. -/
def State.pwmOut (s s0 : State) : State :=
  s.emits (((List.range 12).filter fun n => s.pwm n != s0.pwm n).map fun n => .pin 3 n (s.pwm n))

/-- CURRENT_SAMPLE: the twelve phases in 0.1 A, each 1 µs (R692, R694). -/
def State.currentSample (s : State) (phases : List Nat) : State :=
  let i := phases.sum
  let amps := (i :: s.pwr.amps).take 10
  let lim := amps.length == 10 && decide (36000 ≤ amps.sum)
  let want := min 12 (max 4 (ceilDiv i 250 + 1))
  let move : Bool := want != s.pwr.phases && (match s.pwr.phaseAt with | some t => decide (t + 100000 ≤ s.now) | none => true)
  let was := s.pwr
  let s := s.updPwr fun p => { p with
    amps := amps, limit := lim, phases := if move then want else p.phases, phaseAt := if move then some s.now else p.phaseAt,
    share := if lim then 8 else p.share, since := if lim && p.share != 8 then 0 else p.since, seen := p.seen || lim,
    broke := p.broke || decide (3300 < i) }
  if lim && !was.limit then
    let s := (s.updWork fun w => { w with throttled := true }).powerAlarm 4
    if was.share = 0 then s.powerAlarm 1 else s
  else s

/-- CURRENT_SAMPLE. -/
def execCurrentSample (phases : List Nat) (s : State) : Host.Outcome State Fault Refusal :=
  if phases.length = 12 then .next ((s.currentSample phases).pwmOut s) else .fault .noSuchUnit

/-- OVER_CURRENT_FAULT (R694, R709, R780): phase 0 to 11, or 0xFF for the rail. -/
def execOverCurrentFault (phase decamp : Nat) (s : State) : Host.Outcome State Fault Refusal :=
  if 12 ≤ phase ∧ phase ≠ 0xFF then .fault .noSuchUnit
  else .next ((s.updRails fun x => { x with pmIout := true }).fatal 2 (le 1 phase ++ le 2 decamp))

/-- AVS_UPDATE (R693): one step of 5 mV toward the voltage `target` at which the worst slack has its margin, within 0.70 to 0.85 V: up below
it, down where the slack exceeds the margin by more than two steps. -/
def State.avsUpdate (s : State) (target : Nat) : State :=
  let mv := s.pwr.mv
  let n := if mv < target then min 850 (mv + 5) else if target + 10 < mv then max 700 (mv - 5) else mv
  let s := s.updPwr fun p => { p with mv := n, steps := if n = mv then p.steps else p.steps + 1 }
  s.updPwr fun p => { p with shown := tset p.shown 0x008 (n + 65536 * p.current) }

/-- AVS_UPDATE. -/
def execAvsUpdate (target : Nat) (s : State) : Host.Outcome State Fault Refusal := .next (s.avsUpdate target)

/-! ### Temperature (R704 to R709) -/

/-- A trip (R709): flight record 0x01 with its sensor, then HALT. -/
def State.tripNow (s : State) (sensor : Nat) (temp : Int) : State :=
  (s.updRails fun x => { x with pmTemp := true }).fatal 1 (le 1 sensor ++ le 1 (unsigned 8 temp))

/-- New thresholds taken up by a sample (R706). -/
def State.newThresholds (s : State) : State :=
  (s.updPwr fun p =>
    match p.pend with
    | some (w, h, t) => { p with warn := w, shed := h, trip := t, pend := none }
    | none => p).inForce .sample

/-- TEMPERATURE_SAMPLE (R706, R708). -/
def State.temperatureSample (s : State) (temps : List Int) : State :=
  let s := s.newThresholds.updPwr fun p => { p with temps := temps }
  let (i, j) := hottest temps
  let p := s.pwr
  if p.trip ≤ j then s.tripNow i j
  else
    let s := if p.warn ≤ j ∧ !p.warned then (s.updPwr fun p => { p with warned := true }).thermalAlarm 1 i j
      else if p.warned ∧ j ≤ p.warn - 3 then (s.updPwr fun p => { p with warned := false }).thermalAlarm 3 i j else s
    let s := s.updPwr fun p => { p with seen := p.seen || decide (p.shed ≤ j), broke := p.broke || decide (p.shed - 5 < j) }
    if p.shed ≤ j then s.thermalAlarm 2 i j else s

/-- TEMPERATURE_SAMPLE. -/
def execTemperatureSample (temps : List Int) (s : State) : Host.Outcome State Fault Refusal :=
  if temps.length = 16 then .next (s.temperatureSample temps) else .fault .noSuchUnit

/-- AON_TEMPERATURE_SAMPLE (R704, R706). -/
def execAonTemperatureSample (temp : Int) (s : State) : Host.Outcome State Fault Refusal :=
  let s := s.newThresholds.updPwr fun p => { p with aon := temp }
  .next (if s.pwr.trip ≤ temp then s.tripNow 16 temp else s)

/-- DRAM_TEMPERATURE_READ (R546, R706): the hottest DIMM of each memory channel, then the HBM3 stack. Above 95 °C a shed
condition. -/
def State.dramTemperature (s : State) (temps : List Int) : State :=
  let s := s.updMem fun m => { m with
    chans := (List.range 40).foldl (fun t c => tset t c { m.chan c with temp := temps.getD (min c 8) 0 }) m.chans }
  let (_, j) := hottest temps
  let s := s.updPwr fun p => { p with
    dram := temps, seen := p.seen || decide (95 < j), broke := p.broke || decide (90 < j), shown := tset p.shown 0x01F (unsigned 8 j) }
  if 95 < j then s.thermalAlarm 4 16 j else s

/-- DRAM_TEMPERATURE_READ. -/
def execDramTemperatureRead (temps : List Int) (s : State) : Host.Outcome State Fault Refusal :=
  if temps.length = 9 then .next (s.dramTemperature temps) else .fault .noSuchUnit

/-! ### Rails (R695 to R697, R709) -/

/-- RAIL_POWER_GOOD (R695). -/
def execRailPowerGood (rail : Nat) (s : State) : Host.Outcome State Fault Refusal :=
  if rail = 0 ∨ 9 < rail then .fault .noSuchUnit
  else if s.rails.waiting ∧ rail = s.rails.on + 1 then
    .next (s.updRails fun x => { x with on := rail, waiting := false, gap := decide (rail < 9), fails := if rail = 9 then 0 else x.fails })
  else .next s

/-- RAIL_SEQUENCE_STEP (R695). -/
def execRailSequenceStep (s : State) : Host.Outcome State Fault Refusal :=
  if s.rails.gap then
    .next (((s.updRails fun x => { x with gap := false, waiting := true }).driveEn (s.rails.on + 1) 1).pwmOut s)
  else .next s

/-- POWER_GOOD_TIMEOUT (R697): the failing step recorded, the steps already raised powered down, another try unless it was
the third in a row. -/
def execPowerGoodTimeout (s : State) : Host.Outcome State Fault Refusal :=
  if !s.rails.waiting then .next s
  else
    let step := s.rails.on + 1
    let n := min 3 (s.rails.fails + 1)
    let t := (s.driveEn step 0).updRails fun x => { x with
      waiting := false, down := decide (0 < x.on), failStep := step, fails := n, retry := decide (n < 3), pmMfr := true, pmVout := x.pmVout || step == 2 }
    .next ((t.pwmOut s).flight 6 (le 1 step ++ le 1 n))

/-- RAIL_RETRY (R697): 1 s after a failure. -/
def execRailRetry (s : State) : Host.Outcome State Fault Refusal := .next (if s.rails.retry then s.sequence else s)

/-- RAIL_POWER_DOWN_STEP (R696): the next rail in reverse order. -/
def execRailPowerDownStep (s : State) : Host.Outcome State Fault Refusal :=
  if !s.rails.down then .next s
  else
    let n := s.rails.on
    .next (((s.updRails fun x => { x with on := n - 1, down := decide (1 < n) }).driveEn n 0).pwmOut s)

/-- POWER_GOOD_FALL (R697): fatal; in RESET the controller alone acts. -/
def execPowerGoodFall (rail : Nat) (s : State) : Host.Outcome State Fault Refusal :=
  if rail = 0 ∨ 9 < rail then .fault .noSuchUnit
  else if s.rails.on < rail ∨ s.rails.down then .next s
  else
    let n := min 3 (s.rails.fails + 1)
    let s1 := s.updRails fun x => { x with failStep := rail, fails := n, pmMfr := true, pmVout := x.pmVout || rail == 2 }
    if s.mode = .reset then
      .next ((s1.updRails fun x => { x with down := true, waiting := false, gap := false, retry := decide (n < 3) }).flight 5 (le 1 rail))
    else .next (s1.fatal 5 (le 1 rail))

/-- TRIP_COOLDOWN_EXPIRY (R709): the always-on sensor has been at or below trip - 20 °C for 10 s. -/
def execTripCooldownExpiry (s : State) : Host.Outcome State Fault Refusal :=
  .next (if s.rails.hot && decide (s.pwr.aon ≤ s.pwr.trip - 20) then s.sequence else s)

/-! ### Clocks (R690, R691) -/

/-- REFCLK25_LOSS: flight record 0x03 and HALT; cold reset held until it is back. -/
def execRefclk25Loss (s : State) : Host.Outcome State Fault Refusal :=
  .next ((s.fatal 3 []).updSys fun x => { x with refclk := false, pll := false })

/-- REFCLK25_RETURN: present again for 10 ms. -/
def execRefclk25Return (s : State) : Host.Outcome State Fault Refusal := .next (s.updSys fun x => { x with refclk := true })

/-- ROOT_PLL_UNLOCK: flight record 0x04, HALT, cold reset. -/
def execRootPllUnlock (s : State) : Host.Outcome State Fault Refusal :=
  .next ((s.fatal 4 []).updSys fun x => { x with pll := false })

/-- ROOT_PLL_LOCK (R690): once VDD_PLL is up and REFCLK_25 present. -/
def execRootPllLock (s : State) : Host.Outcome State Fault Refusal :=
  if 3 ≤ s.rails.on ∧ s.sys.refclk then .next (s.updSys fun x => { x with pll := true }) else .next s

/-- SERDES_REFCLK_LOSS: ports and links go down with their events. -/
def execSerdesRefclkLoss (s : State) : Host.Outcome State Fault Refusal :=
  let ports := (s.net.ports.filter fun e => e.2.up).map (·.1)
  let s := ports.foldl (fun s p => s.setLink p false) s
  let s := (s.cascade.links.filter fun e => e.2.st == 2).foldl (fun s e => s.linkDown e.1) s
  .next (s.updCas fun c => { c with links := tmap c.links fun _ x => { x with st := 0 } })

/-! ### PMBus (R710) -/

/-- LINEAR11 of `num / den`: the smallest exponent with which the mantissa fits. -/
def linear11 (num : Int) (den : Nat) : Nat :=
  let fit := (List.range 32).find? fun i =>
    let m := if i < 16 then num * 2 ^ (16 - i) / den else num / (den * 2 ^ (i - 16))
    decide (-1024 ≤ m ∧ m ≤ 1023)
  let i := fit.getD 31
  let m := if i < 16 then num * 2 ^ (16 - i) / den else num / (den * 2 ^ (i - 16))
  unsigned 11 m + 2048 * unsigned 5 ((i : Int) - 16)

/-- A PMBus read answered. -/
def State.pmbus (s : State) (n v : Nat) : Host.Outcome State Fault Refusal := .next (s.emit (.read (le n v)))

/-- CLEAR_FAULTS. -/
def execClearFaults (s : State) : Host.Outcome State Fault Refusal :=
  .next (s.updRails fun x => { x with pmVout := false, pmIout := false, pmTemp := false, pmCml := false, pmMfr := false })

/-- VOUT_MODE: LINEAR16, exponent -12. -/
def execVoutMode (s : State) : Host.Outcome State Fault Refusal := s.pmbus 1 0x14

/-- STATUS_WORD. -/
def execStatusWord (s : State) : Host.Outcome State Fault Refusal :=
  let x := s.rails
  let b (p : Bool) (n : Nat) : Nat := if p then 2 ^ n else 0
  s.pmbus 2 (b x.pmVout 15 + b x.pmIout 14 + b x.pmMfr 12 + b (x.on != 9) 11 + b x.pmTemp 2 + b x.pmCml 1)

/-- READ_VOUT. -/
def execReadVout (s : State) : Host.Outcome State Fault Refusal := s.pmbus 2 (if s.rails.on < 2 then 0 else s.pwr.mv * 4096 / 1000)

/-- READ_IOUT. -/
def execReadIout (s : State) : Host.Outcome State Fault Refusal := s.pmbus 2 (linear11 s.pwr.current 10)

/-- READ_TEMPERATURE_1. -/
def execReadTemperature1 (s : State) : Host.Outcome State Fault Refusal := s.pmbus 2 (linear11 s.pwr.junction 1)

/-- READ_TEMPERATURE_2. -/
def execReadTemperature2 (s : State) : Host.Outcome State Fault Refusal := s.pmbus 2 (linear11 s.pwr.aon 1)

/-- READ_POUT. -/
def execReadPout (s : State) : Host.Outcome State Fault Refusal := s.pmbus 2 (linear11 s.pwr.last 1000)

/-- MFR_SEQ_STATUS: the step in bits 3:0, the failures in bits 5:4, as PWR_SEQ has them (DEDUCED, log entry 62). -/
def execMfrSeqStatus (s : State) : Host.Outcome State Fault Refusal := s.pmbus 1 (s.rails.failStep + 16 * s.rails.fails)

/-- Any other PMBus command: NACKed, CML set. -/
def execPmbusUnsupportedCommand (code : Nat) (s : State) : Host.Outcome State Fault Refusal :=
  if [0x03, 0x20, 0x79, 0x8B, 0x8C, 0x8D, 0x8E, 0x96, 0xD0].contains code then .next s
  else .next (s.updRails fun x => { x with pmCml := true })

/-! ### Commands (Table 23.9) -/

/-- The scaled budgets whose used amount exceeds the ceiling of a class, with used amount and ceiling. -/
def State.classOver (s : State) (cls : Nat) : Option (Nat × Nat × Nat) :=
  let s' := s.updPwr fun p => { p with cls := cls }
  (List.range 8).findSome? fun i =>
    let c := s'.ceiling (i + 1) 0
    let u := tget 0 s.used (bkey (i + 1) 0)
    if c < u then some (i + 1, u, c) else none

/-- PowerClassSet (R129, R699): the ceilings follow at completion, the controller's target at the next block (R47). -/
def effPowerClassSet (r : Req) (s : State) : Eff :=
  let p := r.payload
  let c := u8 p 0
  nullTarget r (need (1 ≤ c && c ≤ 3 && zeros p 1 3) .invalidArg (
    if c = s.pwr.cls then .done [] r.tgt s
    else
      match (if c < s.pwr.cls then s.classOver c else none) with
      | some (code, u, ceil) => .fail .noBudget (noBudget code 0 0 u ceil)
      | none => .later [] r.tgt ((s.updPwr fun p => { p with cls := c }).schedule (.block s.nextBlock) (r.origin 0) .applied)))

/-- POWER_CLASS_SET. -/
def execPowerClassSet (r : Req) (s : State) : Host.Outcome State Fault Refusal :=
  .next (s.command 0x0F00 (· == 4) r (effPowerClassSet r))

/-- ThermalSet (R705): in effect at the next sample (R706). -/
def effThermalSet (r : Req) (s : State) : Eff :=
  let p := r.payload
  let w := signed 8 (u8 p 0)
  let h := signed 8 (u8 p 1)
  let t := signed 8 (u8 p 2)
  nullTarget r (need (decide (w < h ∧ h < t ∧ t ≤ (if Config.gradeX then 120 else 115)) && zeros p 3 1) .invalidArg (
    .later [] r.tgt ((s.updPwr fun p => { p with pend := some (w, h, t) }).schedule .sample (r.origin 0) .applied)))

/-- THERMAL_SET. -/
def execThermalSet (r : Req) (s : State) : Host.Outcome State Fault Refusal :=
  .next (s.command 0x0F01 (· == 4) r (effThermalSet r))

/-- The response of PowerStatusGet (Table 23.10). -/
def State.powerStatus (s : State) : Bytes :=
  let p := s.pwr
  let h := hottest p.temps
  le 1 p.cls ++ le 1 ((if 0 < p.share then 1 else 0) + (if p.energy = 0 then 2 else 0) + (if p.cond then 4 else 0)) ++
  le 1 p.share ++ le 1 p.phases ++ le 2 p.mv ++ le 2 p.current ++ le 2 p.m ++ le 2 p.mMax ++
  le 4 (p.energy * 5 / 9000000) ++ le 4 (bucket p.target * 5 / 9000000) ++
  le 1 (unsigned 8 h.2) ++ le 1 h.1 ++ le 1 (unsigned 8 p.aon) ++ le 1 (unsigned 8 (hottest p.dram).2) ++
  le 1 (unsigned 8 p.warn) ++ le 1 (unsigned 8 p.shed) ++ le 1 (unsigned 8 p.trip) ++ le 1 0 ++
  le 4 (min p.throttled 0xFFFFFFFF) ++ le 4 p.entries ++ le 4 p.steps ++ le 8 (s.block - 1)

/-- PowerStatusGet: the highest M starts again. -/
def effPowerStatusGet (r : Req) (s : State) : Eff :=
  nullTarget r (.done s.powerStatus r.tgt (s.updPwr fun p => { p with mMax := 0 }))

/-- POWER_STATUS_GET. -/
def execPowerStatusGet (r : Req) (s : State) : Host.Outcome State Fault Refusal :=
  .next (s.command 0x0F02 (· == 0) r (effPowerStatusGet r))

/-- The response of NvmStatusGet (Table 23.11). -/
def Nvm.status (n : Nvm) : Bytes :=
  let most := ((List.range 64).map fun i => if (n.sec i).1 = .retired then 0 else (n.sec i).2).foldl max 0
  le 1 64 ++ le 1 n.usable ++ le 1 (n.those .erased).length ++ le 1 0 ++ le 2 n.life ++ le 2 0 ++ le 4 most ++ le 4 n.records.length

/-- NvmStatusGet. -/
def effNvmStatusGet (r : Req) (s : State) : Eff := nullTarget r (.done s.nvm.status r.tgt s)

/-- NVM_STATUS_GET. -/
def execNvmStatusGet (r : Req) (s : State) : Host.Outcome State Fault Refusal :=
  .next (s.command 0x0F03 (· == 0) r (effNvmStatusGet r))

end Sys2Proof.Machine
end

