-- ==== Sys2Proof/Machine/System.lean ====
section
/-!
DEFINITION. The mailboxes as the host and the chain reach them (R26 to R61, R70, R752 to R758), the system commands (R65 to
R69), the media restart, and the budget query (R119).
-/

namespace Sys2Proof.Machine

/-! ### Taking commands (R32, R34, R40, R41) -/

/-- The opcodes of the interface (step 6 of Table 2.6), in rising order. -/
def knownOpcodes : List Nat :=
  [0x0000, 0x0001, 0x0002, 0x0003, 0x0004, 0x0005, 0x0006, 0x0100, 0x0101, 0x0110, 0x0200, 0x0201, 0x0202, 0x0203,
   0x0204, 0x0205, 0x0206, 0x0207, 0x0208, 0x0209, 0x020A, 0x020B, 0x0300, 0x0301, 0x0302, 0x0303, 0x0304, 0x0305,
   0x0306, 0x0307, 0x0308, 0x0309, 0x030A, 0x030B, 0x0400, 0x0401, 0x0402, 0x0403, 0x0404, 0x0405, 0x0406, 0x0420,
   0x0421, 0x0422, 0x0423, 0x0500, 0x0501, 0x0502, 0x0503, 0x0504, 0x0505, 0x0506, 0x0507, 0x0508, 0x0600, 0x0601,
   0x0602, 0x0603, 0x0604, 0x0605, 0x0606, 0x0700, 0x0701, 0x0702, 0x0703, 0x0704, 0x0705, 0x0706, 0x0707, 0x0708,
   0x0709, 0x070A, 0x070B, 0x070C, 0x0800, 0x0801, 0x0802, 0x0803, 0x0804, 0x0805, 0x0900, 0x0901, 0x0902, 0x0903,
   0x0904, 0x0905, 0x0906, 0x0907, 0x0908, 0x0A00, 0x0A01, 0x0A02, 0x0A03, 0x0A04, 0x0A05, 0x0A06, 0x0A07, 0x0B00,
   0x0B01, 0x0B02, 0x0B03, 0x0B04, 0x0B05, 0x0B06, 0x0B10, 0x0B11, 0x0B12, 0x0B13, 0x0C00, 0x0C01, 0x0C02, 0x0C03,
   0x0C04, 0x0C05, 0x0D00, 0x0D01, 0x0D02, 0x0D03, 0x0D04, 0x0D05, 0x0E00, 0x0E01, 0x0E02, 0x0E03, 0x0E04, 0x0E05,
   0x0E06, 0x0E07, 0x0E08, 0x0E09, 0x0F00, 0x0F01, 0x0F02, 0x0F03, 0x0F10, 0x0F11, 0x0F12, 0x0F13, 0x0F14, 0x0F15,
   0x0F16, 0x0F17, 0x0F18, 0x0F40, 0x0F50, 0x0F51, 0x0F52, 0x0F60, 0x0F61, 0x0F62]

/-- The request of a slot. -/
def slotReq (f : Nat) (b : Bytes) : Req where
  mbx := f
  flags := BitVec.ofNat 8 (u8 b 2)
  target := BitVec.ofNat 32 (u32 b 8)
  tag := BitVec.ofNat 64 (u64 b 16)
  payload := (b.drop 32).take (min 224 (u16 b 12))

/-- The CRC of a slot matches on its ring (R38). -/
def slotCrcOk (ring : Nat) (b : Bytes) : Bool :=
  u32 b 28 == (crc32c (le 2 ring ++ (b.drop 4).take 4 ++ b.take 28 ++ (b.drop 32).take (u16 b 12))).toNat

/-- Steps 1 to 6 of Table 2.6 on a slot of mailbox `f`: what is taken, and whether its sequence passed (R41). -/
def checkSlot (f expect : Nat) (b : Bytes) : Taken × Bool :=
  let r := slotReq f b
  let op := u16 b 0
  if u8 b 3 ≠ 3 then (.bad op r .unsupported [], false)
  else if 224 < u16 b 12 then (.bad op r .badLength [], false)
  else if !slotCrcOk (ringNo f 0) b then (.bad op r .badCrc [], false)
  else if u32 b 4 ≠ expect then (.bad op r .seqGap (le 4 expect), false)
  else if u16 b 14 ≠ 0 ∨ u32 b 24 ≠ 0 ∨ 4 ≤ u8 b 2 then (.bad op r .invalidArg [], true)
  else if !knownOpcodes.contains op then (.bad op r .invalidOpcode [], true)
  else (.run op r, true)

/-! ### The fences across every mailbox (R67) -/

/-- The commands each mailbox has taken so far. -/
def State.takenNow (s : State) : Table Nat := [0, 1, 2, 3, 4].map fun f => (f, (s.mb f).nTaken)

/-- A SystemReset or MediaRestart of mailbox `f` taken: what is taken from now on is aborted once it has begun (R67). -/
def State.mark (s : State) (f : Nat) (begun : Bool) : State :=
  s.updSys fun x => { x with marks := x.marks ++ [{ mbx := f, upTo := s.takenNow, begun := begun }] }

/-- The fence of mailbox `f` is that of the command it has just started. -/
def State.ownFence (s : State) (f : Nat) (x : Fence) : Bool := x.mbx == f && tget 0 x.upTo f + 1 == s.nextNo f

/-- The SystemReset or MediaRestart that mailbox `f` has just started has passed its checks: it acts as a fence. -/
def State.beginFence (s : State) (f : Nat) : State :=
  if s.sys.marks.any (s.ownFence f) then
    s.updSys fun x => { x with marks := x.marks.map fun y => if s.ownFence f y then { y with begun := true } else y }
  else s.mark f true

/-- No SystemReset or MediaRestart waits any more. -/
def State.unmark (s : State) : State := s.keepFences fun _ => false

/-- Reset rights of a mailbox (R721). -/
def State.resetRights (s : State) (f : Nat) : Bool :=
  if f < 4 then s.sys.strapPcie || f == 0 else s.sys.strapNmc

/-- The own checks of SystemReset (R68, Tables 2.11 and 2.13). Table 2.6 names no step for DENIED: the fields are checked first
(DESIGN CHOICE, log entry 92). -/
def State.resetOk (s : State) (r : Req) (k : Eff) : Eff :=
  nullTarget r (need ((u8 r.payload 0 == 1 || u8 r.payload 0 == 2) && zeros r.payload 1 3) .invalidArg (
    need (s.resetRights r.mbx) .denied k))

/-- The own checks of MediaRestart (R727, Table 2.11). -/
def State.restartOk (s : State) (r : Req) (k : Eff) : Eff :=
  nullTarget r (need (s.mode == .ready || s.inService) .wrongState k)

/-- A command taken that may act as a fence across every mailbox: a SystemReset that passes its checks, and a MediaRestart whose
length and target are right; the mode in which it runs, which a ModeSet before it may change, decides the rest. -/
def State.fences (s : State) (t : Taken) : Bool :=
  let passes (len : Nat) (r : Req) (own : Req → Eff → Eff) : Bool :=
    match need (r.payload.length == len) .badLength (own r (.done [] 0 s)) with | .done _ _ _ => true | _ => false
  match t with
  | .run op r => (op == 0x0003 && passes 4 r s.resetOk) || (op == 0x0004 && passes 0 r nullTarget)
  | .bad _ _ _ _ => false

/-- A slot taken: counted, the expected sequence moved on where it passed; a SystemReset or MediaRestart is a fence from here
on (R67). -/
def State.takeSlot (s : State) (f : Nat) (b : Bytes) : State :=
  let m := s.mb f
  let (t, pass) := checkSlot f m.cmd.seq.toNat b
  let m := { m with taken := m.taken ++ [t], nTaken := m.nTaken + 1, cmd := { m.cmd with seq := if pass then m.cmd.seq + 1 else m.cmd.seq } }
  let s := s.setMb f (match t with
    | .bad _ _ .badCrc _ => { m with nBadCrc := m.nBadCrc + 1 }
    | .bad _ _ .seqGap _ => { m with nSeqGap := m.nSeqGap + 1 }
    | _ => m)
  if s.fences t then s.mark f false else s

/-- The slots rung for, taken as long as responses have room (R34). -/
def State.takeRung (f : Nat) : List Bytes → State → State
  | [], s => s.updMb f fun m => { m with rung := [] }
  | b :: rest, s =>
    let m := s.mb f
    if m.cmd.en && !m.cmd.err && m.rspRoom then
      State.takeRung f rest ((s.setMb f { m with cmd := { m.cmd with head := (m.cmd.head + 1) % m.cmd.size } }).takeSlot f b)
    else s.updMb f fun m => { m with rung := b :: rest }

/-- What can be taken is taken, and what has failed is answered. -/
def State.takeMore (s : State) (f : Nat) : State :=
  if s.mode.isOpen then (State.takeRung f (s.mb f).rung s).settleTaken f else s

/-- A doorbell (R32, R753): the slots up to the new tail; a tail that would pass the head stops the ring. The register then
holds the tail written, and slots rung for and not yet taken are taken no more. A write to a ring already stopped is ignored, and the
register keeps its value (DESIGN CHOICE, log entry 92). -/
def State.doorbell (s : State) (f tail : Nat) (slots : List Bytes) : State :=
  let m := s.mb f
  let n := m.cmd.size
  if n ≤ tail ∨ !m.cmd.en ∨ m.cmd.err then s
  else
    let new := (tail + n - m.cmd.tail) % n
    if n ≤ m.cmd.filled + new then s.setMb f { m with cmd := { m.cmd with tail := tail, err := true }, rung := [] }
    else
      let got := (slots ++ List.replicate new []).take new
      (s.setMb f { m with cmd := { m.cmd with tail := tail }, rung := m.rung ++ got.map (padTo 256) }).takeMore f

/-- MBX_CMD_TAIL_DOORBELL. -/
def execMbxCmdTailDoorbell (fn tail : Nat) (slots : List Bytes) (s : State) : Host.Outcome State Fault Refusal :=
  if 4 ≤ fn then .fault .noSuchUnit else .next (s.doorbell fn tail slots)

/-- DOORBELL_GO: the command in an IDLE window taken; a GO outside IDLE is counted (R58, R59, R626). -/
def execDoorbellGo (frame : Bytes) (s : State) : Host.Outcome State Fault Refusal :=
  if u8 (chainData frame) 0 ≠ 1 then .next s
  else
    .next (s.chainFrame 3 false (· == 1) frame fun s d =>
      if s.nmc.wstate ≠ .idle then
        (s.updNmc fun x => { x with overflow := if x.overflow = 0xFFFF then 0xFFFF else x.overflow + 1 }, d, 3)
      else if !s.mode.isOpen then (s, d, 3)
      else (((s.updNmc fun x => { x with wstate := .busy }).takeSlot 4 (padTo 256 s.nmc.window)).settleTaken 4, d, 0))

/-- A head written by the host lies between its current value and the tail (R754). -/
def Ring.headOk (r : Ring) (head : Nat) : Bool := decide ((head + r.size - r.head) % r.size ≤ r.filled)

/-- MBX_RSP_HEAD_WRITE (R753, R754): freed slots let waiting commands be taken (R34). -/
def State.rspHead (s : State) (f head : Nat) : State :=
  let m := s.mb f
  if m.rsp.size ≤ head ∨ !m.rsp.en then s
  else if m.rsp.headOk head then (s.setMb f { m with rsp := { m.rsp with head := head } }).takeMore f
  else s.setMb f { m with rsp := { m.rsp with err := true } }

/-- MBX_RSP_HEAD_WRITE. -/
def execMbxRspHeadWrite (fn head : Nat) (s : State) : Host.Outcome State Fault Refusal :=
  if 4 ≤ fn then .fault .noSuchUnit else .next (s.rspHead fn head)

/-- MBX_EVT_HEAD_WRITE: freed room lets what waits be written (R56, R754). -/
def State.evtHead (s : State) (f head : Nat) : State :=
  let m := s.mb f
  if m.evt.size ≤ head ∨ !m.evt.en then s
  else if m.evt.headOk head then (s.setMb f { m with evt := { m.evt with head := head } }).pump f
  else s.setMb f { m with evt := { m.evt with err := true } }

/-- MBX_EVT_HEAD_WRITE. -/
def execMbxEvtHeadWrite (fn head : Nat) (s : State) : Host.Outcome State Fault Refusal :=
  if 4 ≤ fn then .fault .noSuchUnit else .next (s.evtHead fn head)

/-! ### Ring enables (Table 25.7, R756) -/

/-- Rings are enabled from READY onward (R731). -/
def State.cmdEnable (s : State) (f : Nat) (on : Bool) : State :=
  let m := s.mb f
  if !s.mode.isOpen || m.cmd.en == on then s
  else s.setMb f { m with
    rung := [], cmd := if on then { m.cmd with en := true, head := 0, tail := 0, seq := 0, err := false } else { m.cmd with en := false } }

/-- The response ring. -/
def State.rspEnable (s : State) (f : Nat) (on : Bool) : State :=
  let m := s.mb f
  if !s.mode.isOpen || m.rsp.en == on then s
  else if on then
    (s.setMb f { m with rsp := { m.rsp with en := true, head := 0, tail := 0, seq := 0, err := false } }).takeMore f
  else s.setMb f { m with
    rsp := { m.rsp with en := false }, drop := m.taken.length + (if m.flight.isSome then 1 else 0) }

/-- The event ring: enabled, it gets Ready first where Ready has been raised (R756). -/
def State.evtEnable (s : State) (f : Nat) (on : Bool) : State :=
  let m := s.mb f
  if !s.mode.isOpen || m.evt.en == on then s
  else if on then
    (s.setMb f { m with evt := { m.evt with en := true, head := 0, tail := 0, seq := 0, err := false }, readyDue := m.readyRaised }).pump f
  else s.setMb f { m with evt := { m.evt with en := false }, readyDue := false }

/-- A ring event of a function that exists. -/
def ringEvent (fn : Nat) (s : State) : Host.Outcome State Fault Refusal := if 4 ≤ fn then .fault .noSuchUnit else .next s

/-- CMD_RING_ENABLE. -/
def execCmdRingEnable (fn : Nat) (s : State) : Host.Outcome State Fault Refusal := ringEvent fn (s.cmdEnable fn true)
/-- CMD_RING_DISABLE. -/
def execCmdRingDisable (fn : Nat) (s : State) : Host.Outcome State Fault Refusal := ringEvent fn (s.cmdEnable fn false)
/-- RSP_RING_ENABLE. -/
def execRspRingEnable (fn : Nat) (s : State) : Host.Outcome State Fault Refusal := ringEvent fn (s.rspEnable fn true)
/-- RSP_RING_DISABLE. -/
def execRspRingDisable (fn : Nat) (s : State) : Host.Outcome State Fault Refusal := ringEvent fn (s.rspEnable fn false)
/-- EVT_RING_ENABLE. -/
def execEvtRingEnable (fn : Nat) (s : State) : Host.Outcome State Fault Refusal := ringEvent fn (s.evtEnable fn true)
/-- EVT_RING_DISABLE. -/
def execEvtRingDisable (fn : Nat) (s : State) : Host.Outcome State Fault Refusal := ringEvent fn (s.evtEnable fn false)

/-- PCIe hot reset or PERST_N of a function (R70, R92: objects, media work and the other functions stay as they are): its rings disabled, its MBX registers at reset but for FW_READY, its CRC
units released; a command that has started runs on, its response discarded. What was taken and not started is gone; a command
that FENCE holds counts as started (DESIGN CHOICE, log entry 92). -/
def State.hotReset (s : State) (f : Nat) : State :=
  let s0 := s
  let m := s.mb f
  let z := Mailbox.init
  let s := s.setMb f { m with
    cmd := z.cmd, rsp := z.rsp, evt := z.evt, ie := z.ie, heartbeat := z.heartbeat, rung := [], taken := [], readyDue := false,
    drop := if m.flight.isSome then 1 else 0,
    msixMask := z.msixMask, msixFnMask := false, msixPending := 0, msixTable := [] }
  let s := [0, 1].foldl (fun s d => s.setHring f d { s.hring f d with en := false, head := 0, tail := 0, err := false }) s
  let s := s.keepFences fun x => x.mbx != f || x.begun || (m.flight.isSome && s0.ownFence f x)
  s.crcReleaseAll (f + 1)

/-- PCIE_HOT_RESET (R70). -/
def execPcieHotReset (fn : Nat) (s : State) : Host.Outcome State Fault Refusal := ringEvent fn (s.hotReset fn)

/-- PCIE_REFCLK_LOSS (R691): as for PERST_N of every function. -/
def execPcieRefclkLoss (s : State) : Host.Outcome State Fault Refusal :=
  .next ([0, 1, 2, 3].foldl (fun s f => (s.hotReset f).updSys fun x => { x with perst := tset x.perst f false }) s)

/-- PERST_N_DEASSERT (R731): link training begins once BOOT has been entered. -/
def execPerstNDeassert (s : State) : Host.Outcome State Fault Refusal :=
  .next (s.updSys fun x => { x with perst := [(0, true), (1, true), (2, true), (3, true)] })

/-- MSI-X (R757): a mask cleared with its pending bit set sends one message. -/
def State.unmask (s : State) (f : Nat) (vec : Option Nat) : State :=
  let m := s.mb f
  let m := match vec with
    | some v => { m with msixMask := m.msixMask &&& ~~~(BitVec.ofNat 4 (2 ^ v)) }
    | none => { m with msixFnMask := false }
  let s := s.setMb f m
  [0, 1, 2, 3].foldl (fun s v =>
    let m := s.mb f
    if m.msixPending.getLsbD v && !m.msixFnMask && !m.msixMask.getLsbD v then
      (s.setMb f { m with msixPending := m.msixPending &&& ~~~(BitVec.ofNat 4 (2 ^ v)) }).emit (.msix f v)
    else s) s

/-- MSIX_VECTOR_UNMASK. -/
def execMsixVectorUnmask (fn : Nat) (vec : Option Nat) (s : State) : Host.Outcome State Fault Refusal :=
  if 4 ≤ fn ∨ 4 ≤ vec.getD 0 then .fault .noSuchUnit else .next (s.unmask fn vec)

/-! ### System commands (Table 2.11) -/

/-- Echo. -/
def effEcho (r : Req) (s : State) : Eff := nullTarget r (.done r.payload 0 s)

/-- ECHO. -/
def execEcho (r : Req) (s : State) : Host.Outcome State Fault Refusal := .next (s.command 0x0000 (fun _ => true) r (effEcho r))

/-- The response of SysIdentify (Table 2.12). -/
def State.identify (s : State) (f : Nat) : Bytes :=
  let m := s.mb f
  let n (x : Ring) : Nat := if f < 4 then x.size else 1
  le 2 3 ++ le 2 1 ++ le 4 s.sys.fwBuild ++ le 2 0x00B1 ++ le 1 (if Config.gradeX then 1 else 0) ++
  le 1 (if f < 4 then f else 0x10) ++ le 1 s.nmc.addr ++ le 3 0 ++ le 8 Config.serial.toNat ++ le 2 (n m.cmd) ++ le 2 (n m.rsp) ++
  le 2 (n m.evt) ++ le 2 0

/-- SysIdentify. -/
def effSysIdentify (r : Req) (s : State) : Eff := nullTarget r (.done (s.identify r.mbx) 0 s)

/-- SYS_IDENTIFY. -/
def execSysIdentify (r : Req) (s : State) : Host.Outcome State Fault Refusal :=
  .next (s.command 0x0001 (· == 0) r (effSysIdentify r))

/-- The mode SHED will return to; 0xFF outside SHED (R715). -/
def State.shedBack (s : State) : Nat :=
  if s.mode = .shed then (match s.sys.remembered with | some m => m.code | none => 0xFF) else 0xFF

/-- SysModeGet. -/
def effSysModeGet (r : Req) (s : State) : Eff := nullTarget r (.done (le 1 s.mode.code ++ le 1 s.shedBack ++ le 2 0) 0 s)

/-- SYS_MODE_GET. -/
def execSysModeGet (r : Req) (s : State) : Host.Outcome State Fault Refusal :=
  .next (s.command 0x0002 (· == 0) r (effSysModeGet r))

/-- EventMaskSet (R66). -/
def effEventMaskSet (r : Req) (s : State) : Eff :=
  let m := u16 r.payload 0
  nullTarget r (need (m % 2 == 0 && zeros r.payload 2 6) .invalidArg (
    .done [] 0 (s.updMb r.mbx fun x => { x with mask := BitVec.ofNat 16 m })))

/-- EVENT_MASK_SET. -/
def execEventMaskSet (r : Req) (s : State) : Host.Outcome State Fault Refusal :=
  .next (s.command 0x0005 (· == 8) r (effEventMaskSet r))

/-- SysStatsGet: the counts of the issuing mailbox. -/
def effSysStatsGet (r : Req) (s : State) : Eff :=
  let m := s.mb r.mbx
  nullTarget r (.done (le 4 m.nTaken ++ le 4 m.nBadCrc ++ le 4 m.nSeqGap ++ le 4 m.nLost) 0 s)

/-- SYS_STATS_GET. -/
def execSysStatsGet (r : Req) (s : State) : Host.Outcome State Fault Refusal :=
  .next (s.command 0x0006 (· == 0) r (effSysStatsGet r))

/-! ### Media restart (R69, R79, R86, R717, Table 24.4) -/

/-- The started and the taken commands of a mailbox completed with ABORTED, in ring order (R86, R67). One that has failed its steps 1
to 6 answers their status (DESIGN CHOICE, log entry 92). -/
def State.abortAll (s : State) (f : Nat) : State :=
  let s := match (s.mb f).flight with
    | some x => (s.updMb f fun m => { m with flight := none }).respond f x.op x.req .aborted x.req.tgt []
    | none => s
  let l := (s.mb f).taken
  l.foldl (fun s t =>
    match t with
    | .run op r => s.respond f op r .aborted r.tgt []
    | .bad op r st p => s.respond f op r st r.tgt p) (s.updMb f fun m => { m with taken := [] })

/-- How many commands `State.abortAll` completes with ABORTED: the one in flight, and those taken that passed steps 1 to 6. -/
def Mailbox.open (m : Mailbox) : Nat :=
  (m.taken.filter fun t => match t with | .run _ _ => true | .bad _ _ _ _ => false).length + (if m.flight.isSome then 1 else 0)

/-- The commands of some mailboxes aborted, and counted. -/
def State.abortOf (s : State) (l : List Nat) : State :=
  (l.foldl (fun s f => s.abortAll f) s).countAborts (l.map fun f => (s.mb f).open).sum

/-- The media plane without objects or media: what a media restart clears (Table 24.4). Ports, neighbours, host rings, class
shapers, time, clips, keys of links, CRC units, pins, the memory layout and power stay; so do the event masks and the counts of
SysStatsGet, which Table 24.4 and R96 do not list (DESIGN CHOICE, log entry 92). A retired Beryl stays out of service (R90). -/
def State.clearMedia (s : State) : State :=
  let z := State.reset
  { s with
    gens := s.objs.foldl (fun g e => if e.2.dying then g else tset g e.1 (nextGen (tget 1 g e.1))) s.gens
    objs := [], used := [], awaiting := [], sched := [], objCtr := []
    matrix := { z.matrix with applied := s.matrix.applied, rolled := s.matrix.rolled, dropped := s.matrix.dropped, upTo := s.matrix.upTo,
                              down := (s.inst 2 0).st == .retired, clipped := s.matrix.clipped, longest := s.matrix.longest }
    audio := { z.audio with clips := s.audio.clips }
    garnet := z.garnet
    work := { z.work with stats := s.work.stats, insts := tmap s.work.insts fun _ x => { x with st := if x.st = .retired then .retired else .enabled, down := false, drainBy := none } }
    video := z.video
    net := { s.net with queues := [], gone := [] }
    egress := { s.egress with legs := [] }
    onyx := { s.onyx with keys := [] }
    recorder := { s.recorder with parts := [], saved := [] }
    framer := z.framer
    cascade := { s.cascade.left with mbx := 0 }
    trio := z.trio
    mbx := tmap s.mbx fun _ m => { m with outstanding := 0, fwReady := false, readyRaised := false } }

/-- Media items in flight: work items, the outputs of a running mix, packets in queues, E1 frames in slip buffers and copies
for the recorder (DESIGN CHOICE, log entry 93). -/
def State.mediaItems (s : State) : Nat :=
  s.work.items.length + (if s.matrix.mixing then (s.audio.legs.filter fun e => s.flows (okey 2 e.1)).length else 0) +
  (s.net.queues.map fun e => e.2.recs.length).sum + (s.framer.e1.map fun e => e.2.slip.length).sum +
  (s.recorder.parts.map fun e => e.2.ingest.length + e.2.pics.length).sum

/-- A media restart begun: by the MediaRestart of a mailbox, or with none behind it. Every other command outstanding is
aborted; the mode is READY from now on, without its event yet (R717). -/
def State.mediaRestart (s : State) (by_ : Option Nat) (cause : Nat) : State :=
  let others := [0, 1, 2, 3, 4].filter fun f => some f != by_
  let begun := s.updSys fun x => { x with
    restart := some { from_ := s.mode, by_ := by_, cause := cause, aborted := s.sys.aborts, dropped := s.mediaItems, block := s.block } }
  (begun.abortOf others).clearMedia.updSys fun x => { x with
    mode := .ready, remembered := none, restarts := if x.restarts = 0xFFFF then 0xFFFF else x.restarts + 1 }

/-- The FaultNotice of a media restart (Table 3.7, R94). -/
def Restart.notice (x : Restart) : Bytes :=
  le 1 2 ++ le 1 0 ++ le 2 0 ++ le 2 x.cause ++ le 1 0 ++ le 1 0 ++ le 8 x.block ++ le 4 x.dropped ++ le 4 x.aborted ++ le 2 0 ++ le 2 0

/-- A mailbox after the restart: Ready is due, then the notice of the restart, then those held before (R93, R96). Where the
notice is to be held and 16 are, it is the one dropped. -/
def State.readyAgain (s : State) (f : Nat) (notice : Bytes) : State :=
  let on := f == 4 || (s.mb f).evt.en
  let s := (s.updMb f fun m => { m with readyRaised := true, readyDue := on }).flushReady f
  let m := s.mb f
  let l := eventSlots 0xF003 0 0 (markLost m.lostBefore notice)
  if !on then s
  else if !m.readyDue && s.eventRoom f l.length then
    ((s.writeEvents f l).updMb f fun m => { m with lostBefore := false }).pump f
  else if m.held.length < 16 then s.setMb f { m with held := notice :: m.held }
  else (s.dropEvent f 0xF003).updMb f fun m => { m with lostBefore := true }

/-- The SystemReset or MediaRestart of mailbox `f` answered with OK. -/
def State.restartAnswer (s : State) (f : Nat) : State :=
  match (s.mb f).flight with
  | some y =>
    let s := s.updMb f fun m => { m with flight := none }
    s.finish y.op y.req (.done [] 0 s)
  | none => s

/-- MEDIA_RESTART_DONE (R67, R69): what the other mailboxes took meanwhile aborted, the OK response, what its own mailbox took
after it aborted (R45), Ready and the notices, ModeChanged. -/
def State.restartDone (s : State) : State :=
  match s.sys.restart with
  | none => s
  | some x =>
    let s := match x.by_ with
      | some f => ((s.abortOf ([0, 1, 2, 3, 4].filter (· != f))).restartAnswer f).abortOf [f]
      | none => s.abortOf [0, 1, 2, 3, 4]
    let notice := match s.sys.restart with | some y => y.notice | none => x.notice
    let s := (s.updSys fun y => { y with restart := none }).unmark
    let s := [0, 1, 2, 3, 4].foldl (fun s f => s.readyAgain f notice) s
    if x.from_ = .ready then s else s.raiseAll 0xF004 (le 1 3 ++ le 1 x.from_.code ++ le 2 0)

/-- MEDIA_RESTART_DONE. -/
def execMediaRestartDone (s : State) : Host.Outcome State Fault Refusal := .next s.restartDone

/-! ### SystemReset and MediaRestart as fences (R67, R68) -/

/-- Every command taken before the mark has completed, but for those that wait for just this. -/
def State.drained? (s : State) : Bool :=
  [0, 1, 2, 3, 4].all fun g =>
    (s.mb g).draining ||
    ((s.mb g).flight.isNone && ((s.mb g).taken.isEmpty || s.behindFence g fun _ => true))

/-- The fence of mailbox `f` carried out once it may be: MediaRestart begins the restart; SystemReset aborts what is left
on the other mailboxes, answers, aborts what its own has taken after it, and resets (R67, R45); the mark stands until the
reset. -/
def State.passFence (s : State) (f : Nat) : State :=
  match (s.mb f).flight with
  | none => s
  | some x =>
    if x.wait ≠ .drain ∨ !s.drained? then s
    else if x.op = 0x0004 then
      (s.updMb f fun m => { m with flight := some { x with wait := .restart } }).mediaRestart (some f) 6
    else if x.op = 0x0003 then
      let cold := u8 x.req.payload 0 = 1
      (((s.abortOf ([0, 1, 2, 3, 4].filter (· != f))).restartAnswer f).abortOf [f]).resetRequest cold (if cold then 4 else 9)
    else s

/-- SystemReset: it waits as a fence across every mailbox (R67, R68). -/
def effSystemReset (r : Req) (s : State) : Eff := s.resetOk r (.wait .drain [] (s.beginFence r.mbx))

/-- SYSTEM_RESET. -/
def execSystemReset (r : Req) (s : State) : Host.Outcome State Fault Refusal :=
  .next ((s.command 0x0003 (· == 4) r (effSystemReset r)).passFence r.mbx)

/-- MediaRestart (R67, R69, R727). One whose mode no longer allows it is a fence no more. -/
def effMediaRestart (r : Req) (s : State) : Eff :=
  match s.restartOk r (.wait .drain [] (s.beginFence r.mbx)) with
  | .fail .wrongState p => .refuse .wrongState p (s.keepFences fun x => !s.ownFence r.mbx x)
  | e => e

/-- MEDIA_RESTART. -/
def execMediaRestart (r : Req) (s : State) : Host.Outcome State Fault Refusal :=
  .next ((s.command 0x0004 (· == 0) r (effMediaRestart r)).passFence r.mbx)

/-- FENCE_RELEASE (R48): a held FENCE command goes back to the front of those its ring starts, once every earlier change has
had its effect; SystemReset and MediaRestart go on once the commands taken before them have completed. -/
def State.fenceRelease (s : State) (f : Nat) : State :=
  match (s.mb f).flight with
  | none => s
  | some x => if x.wait = .drain then s.passFence f else if x.wait = .fence then free x else s
where free (x : Flight) : State :=
  let m := s.mb f
  if m.outstanding = 0 then s.setMb f { m with flight := none, taken := .run x.op x.req :: m.taken } else s

/-- FENCE_RELEASE. -/
def execFenceRelease (mbx : Nat) (s : State) : Host.Outcome State Fault Refusal :=
  if 5 ≤ mbx then .fault .noSuchUnit else .next (s.fenceRelease mbx)

/-! ### Watchdog and chain resets -/

/-- FIRST_LEVEL_WATCHDOG_EXPIRY (R727, R739): flight record 0x08 and a media restart; in every other mode a second-level expiry; during a
restart it is stopped. Where the core had stopped at a poisoned word of its code or state, which is a free choice, flight record 0x0D
comes before (R740, Table 22.2; log entry 107). -/
def State.firstLevel (s : State) (core : Nat) : State :=
  if s.sys.restart.isSome then s
  else
    let (v, t) := s.draw
    let t := if s.mode = .reset ∨ s.mode = .halt ∨ v.toNat % 2 = 0 then t else t.flight 0x0D (le 1 core)
    if s.mode = .ready ∨ s.inService then (t.flight 8 (le 1 core)).mediaRestart none 5 else t.secondLevel

/-- FIRST_LEVEL_WATCHDOG_EXPIRY. -/
def execFirstLevelWatchdogExpiry (core : Nat) (s : State) : Host.Outcome State Fault Refusal := .next (s.firstLevel core)

/-- A chain Reset (R626, R721): status 0x04 without rights. -/
def State.chainReset (s : State) (code : Nat) (f : Bytes) : State :=
  if u8 (chainData f) 0 ≠ code then s
  else
    let go := s.chainFrame 6 (u8 f 1 % 32 == 0) (· == 1) f fun s d => (s, d, if s.sys.strapNmc then 0 else 4)
    let acted := go.nmc.acted != s.nmc.acted
    if acted && s.sys.strapNmc then go.resetRequest (code == 1) (if code = 1 then 3 else 8) else go

/-- CHAIN_RESET_COLD. -/
def execChainResetCold (frame : Bytes) (s : State) : Host.Outcome State Fault Refusal := .next (s.chainReset 1 frame)
/-- CHAIN_RESET_WARM. -/
def execChainResetWarm (frame : Bytes) (s : State) : Host.Outcome State Fault Refusal := .next (s.chainReset 2 frame)

/-! ### The budget query (R119, R794) -/

/-- A budget code and instance listed in Table 4.5. -/
def budgetListed (code inst : Nat) : Bool :=
  if code = 0x000B then decide (inst < 8) || (decide (24 ≤ inst) && decide (inst < 32))
  else if code = 0x000F then decide (inst < 8)
  else decide (1 ≤ code) && decide (code ≤ 0x000E) && inst == 0

/-- BudgetGet. -/
def effBudgetGet (r : Req) (s : State) : Eff :=
  let p := r.payload
  let c := u16 p 0
  let i := u32 p 4
  nullTarget r (need (budgetListed c i) .invalidArg (need (zeros p 2 2) .invalidArg (
    .done (le 4 (s.ceiling c i) ++ le 4 (tget 0 s.used (bkey c i)) ++ le 4 (tget 0 s.awaiting (bkey c i)) ++ le 4 0) 0 s)))

/-- BUDGET_GET. -/
def execBudgetGet (r : Req) (s : State) : Host.Outcome State Fault Refusal :=
  .next (s.command 0x0F40 (· == 8) r (effBudgetGet r))

end Sys2Proof.Machine
end

