-- ==== Sys2Proof/Machine/Mode.lean ====
section
/-!
DEFINITION. Modes, flight records read back, firmware slots, OTP, debug unlock, lane tests, and bring-up from the supply ramp
to READY (R715 to R744).
-/

namespace Sys2Proof.Machine

/-! ### A command whose response follows later -/

/-- The command in flight on a mailbox completed. -/
def State.endFlight (s : State) (f : Nat) (own : Flight → State → Eff) : State :=
  match (s.mb f).flight with
  | none => s
  | some x =>
    let s := s.updMb f fun m => { m with flight := none }
    (s.finish x.op x.req (own x s)).settleTaken f

/-! ### ModeSet (Tables 24.2 and 24.14) -/

/-- The mode a ModeSet names. -/
def modeNamed (n : Nat) : Option Mode :=
  if n = 3 then some .ready else if n = 4 then some .standalone else if n = 0x0A then some .maintenance else none

/-- A transition that Table 24.2 lists for ModeSet, outside the cases of R719. -/
def State.mayMove (s : State) (m : Mode) : Bool :=
  match s.mode, m with
  | .ready, .standalone => true
  | .ready, .maintenance => true
  | .standalone, .ready => s.objs.isEmpty
  | .maintenance, .ready => s.objs.isEmpty && s.mem.ddr && s.mem.hbm
  | _, _ => false

/-- MAINTENANCE left: lane tests off, the forced pins released (R763). -/
def State.leaveMaintenance (s : State) : State :=
  if s.mode = .maintenance then
    State.driveAll { s with sys := { s.sys with laneTests := [] }, pins := { s.pins with force := 0, forceEn := 0 } } s
  else s

/-- ModeSet: an unlisted mode first (R799), then the transition (step 9), then the reserved bytes. -/
def effModeSet (r : Req) (s : State) : Eff :=
  let p := r.payload
  nullTarget r (
  match modeNamed (u8 p 0) with
  | none => .fail .invalidArg []
  | some m =>
    need (s.mode == m || s.mayMove m) .wrongState (need (zeros p 1 3) .invalidArg (
    .done [] 0 (if s.mode = m then s else s.leaveMaintenance.toMode m))))

/-- MODE_SET. -/
def execModeSet (r : Req) (s : State) : Host.Outcome State Fault Refusal :=
  .next (s.command 0x0F10 (· == 4) r (effModeSet r))

/-! ### Flight records -/

/-- FlightRecordRead: the records held from the first asked for, newest first (Table 24.14). -/
def effFlightRecordRead (r : Req) (s : State) : Eff :=
  let p := r.payload
  let l := (s.nvm.records.drop (u16 p 0)).take (u16 p 2)
  nullTarget r (
  need (decide (u16 p 2 ≤ 128) && u32 p 12 == 128 * u16 p 2 && zeros p 16 4) .invalidArg (
  writeThen 0 (u64 p 4) (l.flatMap (·.2)) (le 2 l.length ++ le 2 s.nvm.records.length ++ le 2 s.nvm.discarded ++ le 2 0) s))

/-- FLIGHT_RECORD_READ. -/
def execFlightRecordRead (r : Req) (s : State) : Host.Outcome State Fault Refusal :=
  .next (s.command 0x0F11 (· == 20) r (effFlightRecordRead r))

/-! ### Firmware slots (R734 to R737) -/

/-- What a firmware slot holds: what the field wrote, or else the factory. -/
def State.slotBytes (s : State) (n : Nat) : Bytes := (tget? s.flash n).getD (Config.factorySlot n)

/-- The size of a slot (R734). -/
def slotSize : Nat := 33554432

/-- The first check of R736 that a slot fails, numbered in the order listed; 0 where it verifies. -/
def verifySlot (counter : Nat) (b : Bytes) : Nat :=
  let h := padTo 512 b
  if !(u32 h 0 == 0x4E4A4D47 && u16 h 4 == 1 && u16 h 6 == 0x00B1 && zeros h 24 40 && zeros h 304 208) then 1
  else if sha384 ((h.drop 112).take 96) ≠ Config.signingKeyHash then 2
  else if !verify384 ((h.drop 112).take 96) (h.take 208) ((h.drop 208).take 96) then 3
  else if u32 h 8 < counter then 4
  else if sha384 ((b.drop 512).take (u32 h 16)) ≠ (h.drop 64).take 48 then 5
  else 0

/-- A header has the magic, format and target of Table 24.9. -/
def slotShape (b : Bytes) : Bool := u32 b 0 == 0x4E4A4D47 && u16 b 4 == 1 && u16 b 6 == 0x00B1

/-- The slot the boot ROM tries first (R735). -/
def firstSlot (a b : Bytes) : Nat :=
  if slotShape a ≠ slotShape b then (if slotShape a then 0 else 1)
  else if u32 a 8 ≠ u32 b 8 then (if u32 b 8 < u32 a 8 then 0 else 1)
  else if u32 a 12 < u32 b 12 then 1 else 0

/-- FirmwareSlotWrite up to its DMA read. -/
def effFirmwareSlotWrite (r : Req) (s : State) : Eff :=
  let p := r.payload
  nullTarget r (
  need (decide (u8 p 0 < 2)) .invalidArg (need (u8 p 0 != s.sys.slot) .wrongState (
  need (zeros p 1 3 && decide (u32 p 12 ≤ slotSize) && zeros p 16 4) .invalidArg (
  readThen (u32 p 12) (fun s => .wait .flash [] s) s))))

/-- FirmwareSlotWrite once its data are read: programming begins. What the slot holds changes as the command completes: one that
a fault aborts has had no effect (R86). -/
def effFirmwareSlotWriteData (_r : Req) (d : Bytes) (s : State) : Eff := .wait .flash d s

/-- FIRMWARE_SLOT_WRITE. -/
def execFirmwareSlotWrite (r : Req) (s : State) : Host.Outcome State Fault Refusal :=
  .next (s.command 0x0F12 (· == 20) r (effFirmwareSlotWrite r))

/-- The programming done and the slot checked (R736, R744): on failure it is left erased. -/
def effFirmwareSlotWriteDone (x : Flight) (s : State) : Eff :=
  let hold (b : Bytes) : State := { s with flash := tset s.flash (u8 x.req.payload 0) b }
  if verifySlot s.sys.otpCounter x.resp = 0 then .done [] 0 (hold x.resp) else .refuse .invalidArg [] (hold [])

/-- FIRMWARE_SLOT_WRITE_DONE: on every mailbox whose command waits for it. -/
def execFirmwareSlotWriteDone (s : State) : Host.Outcome State Fault Refusal :=
  .next ([0, 1, 2, 3, 4].foldl (fun s f =>
    match (s.mb f).flight with
    | some x => if x.wait = .flash then s.endFlight f effFirmwareSlotWriteDone else s
    | none => s) s)

/-! ### OTP -/

/-- OtpKekWrite: in READY, once, and with the right check value. -/
def effOtpKekWrite (r : Req) (s : State) : Eff :=
  let key := r.payload.take 32
  nullTarget r (
  need (s.mode == .ready) .wrongState (need s.onyx.otp.isNone .denied (
  need ((aes256 key (List.replicate 16 0)).take 4 == r.payload.drop 32) .invalidArg (
  .done [] 0 (s.updOnyx fun o => { o with otp := some key })))))

/-- OTP_KEK_WRITE. -/
def execOtpKekWrite (r : Req) (s : State) : Host.Outcome State Fault Refusal :=
  .next (s.command 0x0F13 (· == 36) r (effOtpKekWrite r))

/-- FirmwareCommit: the counter raised to the running image's version, within its 64 steps. -/
def effFirmwareCommit (r : Req) (s : State) : Eff :=
  let c := max s.sys.otpCounter s.sys.secVersion
  nullTarget r (need (decide (c ≤ 64)) .denied (.done (le 4 c) 0 (s.updSys fun x => { x with otpCounter := c })))

/-- FIRMWARE_COMMIT. -/
def execFirmwareCommit (r : Req) (s : State) : Host.Outcome State Fault Refusal :=
  .next (s.command 0x0F14 (· == 0) r (effFirmwareCommit r))

/-! ### Debug unlock -/

/-- DebugChallengeGet: 16 bytes of the DRBG, valid for one DebugUnlock. -/
def effDebugChallengeGet (r : Req) (s : State) : Eff :=
  let (a, s1) := s.draw
  let (b, s2) := s1.draw
  let c := le 8 a.toNat ++ le 8 b.toNat
  nullTarget r (.done c 0 (s2.updSys fun x => { x with challenge := some c }))

/-- DEBUG_CHALLENGE_GET. -/
def execDebugChallengeGet (r : Req) (s : State) : Host.Outcome State Fault Refusal :=
  .next (s.command 0x0F15 (· == 0) r (effDebugChallengeGet r))

/-- DebugUnlock: a signature over the serial and the challenge; success writes flight record 0x0C. -/
def effDebugUnlock (r : Req) (s : State) : Eff :=
  nullTarget r (
  match s.sys.challenge with
  | none => .fail .denied []
  | some c =>
    let s := s.updSys fun x => { x with challenge := none }
    if verify384 Config.debugKey (le 8 Config.serial.toNat ++ c) r.payload then
      .done [] 0 ((s.updSys fun x => { x with unlocked := true }).flight 0x0C (le 1 r.mbx))
    else .refuse .denied [] s)

/-- DEBUG_UNLOCK. -/
def execDebugUnlock (r : Req) (s : State) : Host.Outcome State Fault Refusal :=
  .next (s.command 0x0F16 (· == 96) r (effDebugUnlock r))

/-! ### Lane tests -/

/-- The lane's group is configured for a live port or link (R16 to R19). -/
def State.laneLive (s : State) (l : Nat) : Bool :=
  if l < 8 then (let p := s.port (l * (netConfig s.net.config).1 / 8); p.en || p.up)
  else if l < 24 then (match tget? s.cascade.links ((l - 8) / 4) with | some x => x.st != 0 | none => false)
  else thas s.framer.lanes l

/-- LaneTestSet. -/
def effLaneTestSet (r : Req) (s : State) : Eff :=
  let p := r.payload
  let l := u8 p 0
  nullTarget r (
  need (decide (l < 32)) .invalidArg (need (s.mode == .maintenance && !s.laneLive l) .wrongState (
  need (decide (u8 p 1 < 4) && zeros p 2 2) .invalidArg (
  .done [] 0 (s.updSys fun x => { x with laneTests := tset x.laneTests l (u8 p 1) })))))

/-- LANE_TEST_SET. -/
def execLaneTestSet (r : Req) (s : State) : Host.Outcome State Fault Refusal :=
  .next (s.command 0x0F17 (· == 4) r (effLaneTestSet r))

/-- LaneTestGet: what the lane's checker has counted is free. -/
def effLaneTestGet (r : Req) (s : State) : Eff :=
  let p := r.payload
  let l := u8 p 0
  let (a, s1) := s.draw
  let (b, s2) := s1.draw
  nullTarget r (
  need (decide (l < 32)) .invalidArg (need (zeros p 1 3) .invalidArg (
  .done (le 1 (tget 0 s.sys.laneTests l) ++ le 1 (a.toNat / 2 ^ 32 % 2) ++ le 2 0 ++ le 4 a.toNat ++ le 8 b.toNat) 0 s2)))

/-- LANE_TEST_GET. -/
def execLaneTestGet (r : Req) (s : State) : Host.Outcome State Fault Refusal :=
  .next (s.command 0x0F18 (· == 4) r (effLaneTestGet r))

/-! ### Bring-up (R731, R732, Tables 24.5 to 24.8) -/

/-- What no loss of supply takes: the flight-recorder NVM, OTP and the QSPI flash; and what is the model's own. -/
def State.aonReset (s : State) : State :=
  let z := State.reset
  { z with
    pending := s.pending, out := s.out, fresh := s.fresh, nvm := s.nvm.cut, flash := s.flash
    onyx := { z.onyx with otp := s.onyx.otp }
    rst := { z.rst with trainings := s.rst.trainings }
    sys := { z.sys with otpCounter := s.sys.otpCounter } }

/-- The power class that PCLASS[1:0] straps (R699). -/
def strappedClass (n : Nat) : Nat := if n % 4 = 3 then 3 else if n % 4 = 2 then 2 else 1

/-- POWER_ON: the always-on domain's power-on reset, PCLASS and PMADDR sampled, rail sequencing begun. -/
def execPowerOn (pclass pmaddr : Nat) (s : State) : Host.Outcome State Fault Refusal :=
  if 4 ≤ pclass ∨ 8 ≤ pmaddr then .fault .noSuchUnit
  else
    let s := s.aonReset
    .next (State.sequence { s with sys := { s.sys with pclass := pclass, pmaddr := pmaddr }, pwr := Power.init (strappedClass pclass) })

/-- VDD_AON_LOSS (R777): retained memory, the backup registers and the rings are lost. -/
def execVddAonLoss (s : State) : Host.Outcome State Fault Refusal := .next s.aonReset

/-- RESET_RELEASE: rails up and the root PLL locked, the core domain leaves RESET; the straps are sampled (R722). -/
def execResetRelease (s : State) : Host.Outcome State Fault Refusal :=
  if s.mode = .reset ∧ s.rails.on = 9 ∧ s.sys.pll ∧ s.sys.refclk ∧ !s.rails.hot ∧ !s.rails.down then
    .next (s.updSys fun x => { x with mode := .boot, strapPcie := Config.strapPcie, strapNmc := Config.strapNmc })
  else .next s

/-- The boot ROM (Table 24.7): the zero-fill due after power-on, the slots in order, the first that verifies started. -/
def State.bootRun (s : State) : State :=
  let s := if s.sys.fill then { s with retained := [], bkp := [], sys := { s.sys with fill := false } } else s
  let first := firstSlot (s.slotBytes 0) (s.slotBytes 1)
  let c (n : Nat) : Nat := verifySlot s.sys.otpCounter (s.slotBytes n)
  let go (n : Nat) (back : Bool) : State :=
    let h := s.slotBytes n
    { s with
      sys := { s.sys with mode := .calibrate, slot := n, fallback := back, fwBuild := u32 h 12, secVersion := u32 h 8 }
      nvm := { s.nvm with discarded := s.nvm.partials, partials := 0 } }
  if c first = 0 then go first false
  else if c (1 - first) = 0 then go (1 - first) true
  else s.fatal 0x0A (le 1 (c 0) ++ le 1 (c 1))

/-- BOOT_RUN. -/
def execBootRun (s : State) : Host.Outcome State Fault Refusal := .next (if s.mode = .boot then s.bootRun else s)

/-- Ready raised on every mailbox (Table 2.8): rings are enabled only from now on, so it is written in the NMC window. -/
def State.raiseReady (s : State) : State :=
  [0, 1, 2, 3, 4].foldl (fun s f =>
    (s.updMb f fun m => { m with readyRaised := true, readyDue := f == 4 || m.evt.en }).pump f) s

/-- A lane's receiver adapted to what it meets in a block (R785). -/
def SerdesLane.adapt (x : SerdesLane) (lane block : Nat) : SerdesLane :=
  { x with ctle := Config.laneCtle lane block, dfe := (List.range 12).map (Config.laneDfe lane block) }

/-- The lanes as CALIBRATE sets them: from the board section of an image, their receivers adapted (R785). -/
def calibratedLanes (image : Bytes) (block : Nat) : Table SerdesLane :=
  (List.range 32).map fun n =>
    (n, ({ invert := Config.laneInvert image n, ffe := (List.range 5).map (Config.laneTap image n), ctle := 0, dfe := [] } : SerdesLane).adapt n block)

/-- The receivers go on adapting in service (R785). -/
def State.adaptLanes (s : State) : State :=
  { s with pins := { s.pins with lanes := tmap s.pins.lanes fun n x => x.adapt n s.block } }

/-- CALIBRATE (Table 24.8): DDR5 trained or its training restored (R556, R558), the HBM3 fuse table checked (R560), the pin
configuration applied (R738). -/
def State.calibrate (s : State) : State :=
  let bad := trainingFault s.rst.trainings
  let s := s.memOnly (s.trainDdr s.rst.trainings)
  let s := { s with
    mem := { s.mem with ddr := bad.isNone, hbm := fusesGood, hbmDelays := if fusesGood then (Config.fuseTable.drop 16).take 512 else s.mem.hbmDelays, failed := match bad with | some b => some b | none => s.mem.failed }
    rst := { s.rst with trainings := s.rst.trainings + 1, trained := s.rst.trained || bad.isNone }
    pins := { s.pins with applied := true, lanes := calibratedLanes (s.slotBytes s.sys.slot) s.block } }
  let s := match bad with
    | some (c, step, lane) => s.flight 0x0B (le 1 1 ++ le 1 c ++ le 1 step ++ le 1 lane)
    | none => s
  let s := if fusesGood then s else s.flight 0x0B (le 1 2 ++ le 3 0)
  let good := bad.isNone && fusesGood
  -- firmware, which claims CRC units up to here alone, holds none from READY on (R684)
  ((s.crcReleaseAll 8).updSys fun x => { x with mode := if good then .ready else .maintenance }).raiseReady.keepErased

/-- CALIBRATE_RUN. -/
def execCalibrateRun (s : State) : Host.Outcome State Fault Refusal := .next (if s.mode = .calibrate then s.calibrate else s)

end Sys2Proof.Machine
end

