-- ==== Sys2Proof/Machine/Quartz.lean ====
section
/-!
DEFINITION. The Quartz time unit (R571 to R594): the counter, the two PTP domains, the servo, pulses and captures, and the
time relay of a cascade (R645, R646).
-/

namespace Sys2Proof.Machine

/-- The time unit changed. -/
def State.updQuartz (s : State) (f : Quartz → Quartz) : State := { s with quartz := f s.quartz }

/-! ### The counter (R571, R573) -/

/-- A ns count and fraction in units of 2^-16 ns. -/
def fine (ns frac : Nat) : Int := ((ns * 65536 + frac : Nat) : Int)

/-- A time stamp of the counter at `t` ns: between steps its fraction stays unchanged (R572). -/
def State.stamp (s : State) (t : Nat) : Int := fine t s.nowFrac

/-- The 12-byte time value of a ns count and fraction (R571). -/
def timeValue (ns frac : Nat) : Bytes := le 6 (ns / 1000000000) ++ le 2 frac ++ le 4 (ns % 1000000000)

/-- The time value in network order of a BLP frame. -/
def timeValueBe (ns frac : Nat) : Bytes := be 6 (ns / 1000000000) ++ be 2 frac ++ be 4 (ns % 1000000000)

/-- A time value of a BLP frame in 2^-16 ns. -/
def readTimeBe (p : Bytes) (i : Nat) : Int := fine (bfld p i 6 * 1000000000 + bfld p (i + 8) 4) (bfld p (i + 6) 2)

/-- Pulse `k`'s opening edge, on an even ns (R589). -/
def Pulse.rise (x : Pulse) (k : Nat) : Nat :=
  ((x.startHi * 2 ^ 32 + x.startLo) * 1000000000 + x.startNs + k * x.period) / 2 * 2

/-- Its closing edge. -/
def Pulse.fall (x : Pulse) (k : Nat) : Nat :=
  ((x.startHi * 2 ^ 32 + x.startLo) * 1000000000 + x.startNs + k * x.period + x.width) / 2 * 2

/-- The first pulse of a periodic program that lies after `t`. -/
def Pulse.after (x : Pulse) (t : Nat) : Nat :=
  let start := (x.startHi * 2 ^ 32 + x.startLo) * 1000000000 + x.startNs
  if x.period = 0 ∨ t < x.rise 0 then 0 else
    let k := (t - start) / x.period
    if t < x.rise k then k else if t < x.rise (k + 1) then k + 1 else k + 2

/-- A step to `t` leaves out the programmed edges it passes (R590). -/
def Pulse.skip (x : Pulse) (t : Nat) : Pulse :=
  if !x.armed then x
  else if x.opened then
    if t ≤ x.fall x.k then x
    else if x.period = 0 ∨ (x.count ≠ 0 ∧ x.count ≤ x.done) then { x with armed := false }
    else { x with k := x.after t }
  else if t ≤ x.rise x.k then x
  else if x.period = 0 then { x with armed := false }
  else { x with k := x.after t }

/-- The counter set by a step (R581, R594): triggers go on from the block number that the new time gives, and a change that
waits for the next block boundary takes effect at the next trigger, whatever its number (R588). -/
def State.stepTime (s : State) (ns frac : Nat) : State :=
  let due : Bool := ns % blockNs == 0 && frac == 0
  let next := if due then ns / blockNs else ns / blockNs + 1
  { s with
    now := ns, nowFrac := frac, quartz := { s.quartz with pulses := tmap s.quartz.pulses fun _ x => x.skip ns, due := due }
    matrix := { s.matrix with upTo := min s.matrix.upTo (next - 1)
                              floor := tmap s.matrix.floor fun _ b => if b ≤ s.nextTrigger then min b next else b }
    sched := s.sched.map fun e => if e.at_ = .block s.nextTrigger then { e with at_ := .block next } else e }

/-! ### Domains, servo and alarms -/

/-- A disabled domain. -/
def TimeDomain.init : TimeDomain where
  cfg := List.replicate 32 0
  st := 0
  masters := []
  tau := 0
  sync := none
  t12 := none
  delays := []
  theta := none
  req := none
  presp := none
  reqSeq := 0

/-- A domain. -/
def State.dom (s : State) (d : Nat) : TimeDomain := tget TimeDomain.init s.quartz.doms d

/-- A domain changed. -/
def State.updDom (s : State) (d : Nat) (f : TimeDomain → TimeDomain) : State :=
  s.updQuartz fun q => { q with doms := tset q.doms d (f (s.dom d)) }

/-- Domain `d`, or the relay for 2, is TRACKING. -/
def State.tracking (s : State) (d : Nat) : Bool := if d = 2 then s.quartz.relay else (s.dom d).st == 2

/-- TimeAlarm, at most once per second for each kind and domain (R594). -/
def State.timeAlarm (s : State) (kind dom : Nat) : State :=
  let k := kind * 256 + dom
  let due : Bool := match tget? s.quartz.told k with | some t => decide (t + 1000000000 ≤ s.now) | none => true
  if due then (s.updQuartz fun q => { q with told := tset q.told k s.now }).raiseAll 0xF803
    (le 1 kind ++ le 1 dom ++ le 6 0 ++ le 8 s.block)
  else s

/-- The active domain as a byte, 0xFF for none. -/
def Quartz.activeByte (q : Quartz) : Nat := q.active.getD 0xFF

/-- A servo state entered; TimeState where its row of Table 18.3 raises it. -/
def State.setServo (s : State) (st : Nat) (tell : Bool) : State :=
  let old := s.quartz.servo
  let s := s.updQuartz fun q => { q with servo := st, below := 0, above := 0 }
  if tell then s.raiseAll 0xF800 (le 1 st ++ le 1 old ++ le 1 s.quartz.activeByte ++ le 5 0 ++ le 8 s.block) else s

/-- The mean of some integers, rounded down; `d` for none. -/
def meanOf (d : Int) (l : List Int) : Int := if l.isEmpty then d else l.sum / (l.length : Int)

/-- The active domain is lost (R583, R585): the other takes over at its next update, or the servo holds over. -/
def State.timeCheck (s : State) : State :=
  match s.quartz.active with
  | none => s
  | some a =>
    if s.tracking a then s
    else if s.quartz.auto && ((List.range 2).any fun d => d != a && s.tracking d) then s
    else
      let held := s.quartz.servo = 1 ∨ s.quartz.servo = 2
      let s := s.updQuartz fun q => { q with active := none, y := if q.servo = 1 ∨ q.servo = 2 then meanOf q.yi q.hist else q.y }
      if held then (s.setServo 3 true).timeAlarm 3 a else s

/-- Domain `d` becomes active: cause 1 TimeSelect, 2 loss (R585, R586). -/
def State.activate (s : State) (d cause : Nat) : State :=
  let old := s.quartz.activeByte
  if s.quartz.active = some d then s
  else (s.updQuartz fun q => { q with active := some d, relayLost := if d = 2 then false else q.relayLost }).raiseAll 0xF801
    (le 1 d ++ le 1 old ++ le 1 cause ++ le 5 0 ++ le 8 s.block)

/-- 1 ms, 1 µs, 100 ns in 2^-16 ns. -/
def oneMs : Int := 65536000000
def oneUs : Int := 65536000
def nearZero : Int := 6553600

/-- 50 ppm and 100 ppm in units of 2^-32 × 10^-9. -/
def ppm50 : Int := 50 * 4294967296000
def ppm100 : Int := 100 * 4294967296000

/-- The frequency word of a correction (R580): rounded to units of 2^-32. -/
def freqWord (y : Int) : Int := (2 * y + 1000000000) / 2000000000

/-- The procedure of R580: a gain times θ over τ, exact in units of 2^-32 × 10^-9. -/
def gainTerm (k : Nat) (theta : Int) (tau : Nat) : Int := (k : Int) * theta * 256000000000 / (tau : Int)

/-- One update's y and yi (R580). -/
def servoStep (kp ki : Nat) (theta : Int) (tau : Nat) (yi : Int) : Int × Int :=
  let p := gainTerm kp theta tau
  if ppm50 < p ∨ p < -ppm50 then
    let p := if 0 < p then ppm50 else -ppm50
    (clampI (-ppm100) ppm100 (yi - p), yi)
  else
    let yi := clampI (-ppm100) ppm100 (yi - gainTerm ki theta tau)
    (clampI (-ppm100) ppm100 (yi - p), yi)

/-- The servo's state after an update of the active domain (Table 18.3). -/
def State.servoState (s : State) (theta : Int) : State :=
  let low := decide (-nearZero < theta ∧ theta < nearZero)
  let high := decide (theta < -oneUs ∨ oneUs < theta)
  let s := if s.quartz.servo = 0 ∨ s.quartz.servo = 3 then s.setServo 1 false else s
  let s := s.updQuartz fun q => { q with below := if low then q.below + 1 else 0, above := if high then q.above + 1 else 0 }
  if s.quartz.servo = 1 ∧ 16 ≤ s.quartz.below then s.setServo 2 true
  else if s.quartz.servo = 2 ∧ 4 ≤ s.quartz.above then s.setServo 1 true
  else s

/-- An update that feeds the servo (R580 to R582): a step outside the service modes where θ exceeds 1 ms, else a slew. -/
def State.servoUpdate (s : State) (d : Nat) (theta : Int) (tau : Nat) : State :=
  let s := (s.updQuartz fun q =>
    match q.pendK with | some (p, i) => { q with kp := p, ki := i, pendK := none } | none => q).inForce (.update 3)
  let far := decide (theta < -oneMs ∨ oneMs < theta)
  if far && !s.inService then
    let t := (s.stamp s.now - theta).toNat
    ((s.stepTime (t / 65536) (t % 65536)).updQuartz fun q => { q with refused := false, hist := (q.yi :: q.hist).take 64 }).servoState theta
  else
    let s := if far && !s.quartz.refused then s.timeAlarm 1 d else s
    let q := s.quartz
    let r := servoStep q.kp q.ki theta tau q.yi
    let s := s.updQuartz fun q => { q with refused := far, y := r.1, yi := r.2, hist := (r.2 :: q.hist).take 64 }
    let s := if r.1 = ppm100 ∨ r.1 = -ppm100 then s.timeAlarm 2 d else s
    s.servoState theta

/-- An update of domain `d`: an automatic switch first, then TimeSelect, then the servo where it is active (R585, R586). -/
def State.timeUpdate (s : State) (d : Nat) (theta : Int) (tau : Nat) : State :=
  let free : Bool := match s.quartz.active with | some a => !s.tracking a | none => true
  let s := if s.quartz.auto && free then s.activate d 2 else s
  let s := match s.quartz.sel with
    | some (x, auto) => if x = d then (s.updQuartz fun q => { q with auto := auto, sel := none }).activate d 1 else s
    | none => s
  let s := s.inForce (.update d)
  if s.quartz.active = some d then s.servoUpdate d theta tau else s

/-! ### PTP messages (R574 to R579) -/

/-- The messageType of a PTP message. -/
def ptpType (m : Bytes) : Nat := u8 m 0 % 16

/-- Its correctionField, in 2^-16 ns. -/
def ptpCorr (m : Bytes) : Int := signed 64 (bfld m 8 8)

/-- Its sourcePortIdentity. -/
def ptpSource (m : Bytes) : Bytes := (m.drop 20).take 10

/-- Its sequenceId. -/
def ptpSeq (m : Bytes) : Nat := bfld m 30 2

/-- A timestamp of its body in 2^-16 ns. -/
def ptpTime (m : Bytes) (i : Nat) : Int := fine (bfld m i 6 * 1000000000 + bfld m (i + 6) 4) 0

/-- The fields of TimeDomainSet. -/
def TimeDomain.enabled (x : TimeDomain) : Bool := u8 x.cfg 1 % 2 == 1
def TimeDomain.oneStep (x : TimeDomain) : Bool := u8 x.cfg 1 / 4 % 2 == 1
def TimeDomain.port (x : TimeDomain) : Nat := u8 x.cfg 4
def TimeDomain.p2p (x : TimeDomain) : Bool := u8 x.cfg 3 == 2
def TimeDomain.asym (x : TimeDomain) : Int := signed 32 (u32 x.cfg 12) * 65536

/-- A master compares as better than another (clause 9.3.4): for one grandmaster, fewer steps removed. -/
def PtpMaster.better (a b : PtpMaster) : Bool :=
  let key (m : PtpMaster) : List Nat := [m.priority1, m.cls, m.accuracy, m.variance, m.priority2, unle m.identity.reverse]
  let low (x y : List Nat) : Bool := decide (x < y)
  if a.identity = b.identity then low [a.steps, unle a.source.reverse] [b.steps, unle b.source.reverse]
  else low (key a) (key b)

/-- The selected master of a domain. -/
def TimeDomain.master (x : TimeDomain) : Option PtpMaster :=
  x.masters.foldl (fun b m => match b with | none => some m | some o => if m.better o then some m else b) none

/-- The mean path delay (R579), in 2^-16 ns; none before the first measurement. -/
def TimeDomain.mpd (x : TimeDomain) : Option Int :=
  if x.delays.isEmpty then none else some (x.delays.sum / (2 * x.delays.length : Int))

/-- A domain lost (Table 18.4): TimeAlarm, and what the loss of the active domain does. -/
def State.domainLost (s : State) (d : Nat) : State :=
  ((s.updDom d fun x => { x with st := 3, theta := none, sync := none, masters := [] }).timeAlarm 3 d).timeCheck

/-- A message of an enabled domain, or discarded and counted (R576). -/
def State.ofDomain (s : State) (d : Nat) (msg : Bytes) (k : State → State) : State :=
  if s.mode = .reset ∨ s.mode = .halt then s
  else if (s.dom d).enabled && u8 msg 4 == u8 (s.dom d).cfg 5 then k s
  else s.updQuartz fun q => { q with discarded := q.discarded + 1 }

/-- An Announce taken into master selection (R575): a clockClass above the maximum and 255 steps are ignored; where the
selected master's class rises above the maximum, the domain is LOST (Table 18.4). -/
def State.announce (s : State) (d : Nat) (m : Bytes) : State :=
  let x := s.dom d
  let a : PtpMaster := {
    source := ptpSource m, priority1 := u8 m 47, cls := u8 m 48, accuracy := u8 m 49, variance := bfld m 50 2,
    priority2 := u8 m 52, identity := (m.drop 53).take 8, steps := bfld m 61 2, utc := bfld m 44 2 }
  let others := x.masters.filter fun o => o.source != a.source
  let wasSel := (x.master.map (·.source)) == some a.source
  if u8 x.cfg 11 < a.cls ∧ x.st = 2 ∧ wasSel then s.domainLost d
  else if u8 x.cfg 11 < a.cls ∨ a.steps = 255 then s.updDom d fun x => { x with masters := others }
  else s.updDom d fun x => { x with masters := others ++ [a] }

/-- PTP_ANNOUNCE_RECEIVE (R575). -/
def execPtpAnnounceReceive (dom t : Nat) (msg : Bytes) (s : State) : Host.Outcome State Fault Refusal :=
  if 2 ≤ dom then .fault .noSuchUnit
  else .next ((s.at t).ofDomain dom msg fun s => if ptpType msg = 11 then s.announce dom msg else s)

/-- θ of a Sync: its first gives TRACKING; an update of R579 and R585. -/
def State.domainTheta (s : State) (d : Nat) (t1 t2 corr : Int) (tau : Nat) : State :=
  let s := s.updDom d fun x => { x with t12 := some (t1, t2), tau := tau, sync := none }
  match (s.dom d).mpd with
  | none => s
  | some delay =>
    let theta := t2 - t1 - delay - corr - (s.dom d).asym
    (s.updDom d fun x => { x with theta := some theta, st := 2 }).timeUpdate d theta tau

/-- A Sync or Follow_Up of the selected master, 1 to 128 per second (R579, Table 18.2). -/
def State.ptpSync (s : State) (d t : Nat) (m : Bytes) : State :=
  let x := s.dom d
  if (x.master.map (·.source)) ≠ some (ptpSource m) then s
  else if ptpType m = 0 then
    let log := signed 8 (u8 m 33)
    if log < -7 ∨ 0 < log then s
    else
      let tau := 1000000000 / 2 ^ (-log).toNat
      if u8 m 6 / 2 % 2 = 1 then s.updDom d fun x => { x with sync := some (ptpSeq m, s.stamp t, ptpCorr m, tau) }
      else s.domainTheta d (ptpTime m 34) (s.stamp t) (ptpCorr m) tau
  else if ptpType m = 8 then
    match x.sync with
    | some (seq, t2, c, tau) => if seq = ptpSeq m then s.domainTheta d (ptpTime m 34) t2 (c + ptpCorr m) tau else s
    | none => s
  else s

/-- PTP_SYNC_RECEIVE (R579, R580). -/
def execPtpSyncReceive (dom t : Nat) (msg : Bytes) (s : State) : Host.Outcome State Fault Refusal :=
  if 2 ≤ dom then .fault .noSuchUnit else .next ((s.at t).ofDomain dom msg fun s => s.ptpSync dom t msg)

/-- One delay, doubled, put in a domain's history of 16 (R579). -/
def State.addDelay (s : State) (d : Nat) (v : Int) : State :=
  s.updDom d fun x => { x with delays := (v :: x.delays).take 16, req := none, presp := none }

/-- The bridge's port identity on a domain. -/
def ownIdentity (port : Nat) : Bytes := be 8 (Config.clockIdentity port).toNat ++ be 2 1

/-- A Delay_Resp, Pdelay_Resp or Pdelay_Resp_Follow_Up for the request that waits (R579). -/
def State.delayResponse (s : State) (d t : Nat) (m : Bytes) : State :=
  let x := s.dom d
  match x.req with
  | none => s
  | some (seq, sent) =>
    if seq ≠ ptpSeq m ∨ (m.drop 44).take 10 ≠ ownIdentity x.port then s
    else if ptpType m = 9 ∧ !x.p2p then
      match x.t12 with
      | some (t1, t2) => if (x.master.map (·.source)) = some (ptpSource m) then s.addDelay d ((t2 - t1) + (ptpTime m 34 - sent)) else s
      | none => s
    else if ptpType m = 3 ∧ x.p2p then
      if u8 m 6 / 2 % 2 = 1 then s.updDom d fun x => { x with presp := some (seq, ptpTime m 34, s.stamp t, ptpCorr m) }
      else s.addDelay d ((s.stamp t - sent) - ptpCorr m)
    else if ptpType m = 10 ∧ x.p2p then
      match x.presp with
      | some (n, t2, t4, c) => if n = seq then s.addDelay d ((t4 - sent) - (ptpTime m 34 - t2) - c - ptpCorr m) else s
      | none => s
    else s

/-- PTP_DELAY_RESPONSE_RECEIVE (R579). -/
def execPtpDelayResponseReceive (dom t : Nat) (msg : Bytes) (s : State) : Host.Outcome State Fault Refusal :=
  if 2 ≤ dom then .fault .noSuchUnit else .next ((s.at t).ofDomain dom msg fun s => s.delayResponse dom t msg)

/-- The header of a PTP message sent (clause 13.3). -/
def ptpHead (type len domain flags : Nat) (corr : Int) (port seq control : Nat) : Bytes :=
  le 1 type ++ [0x12] ++ be 2 len ++ le 1 domain ++ [0] ++ be 2 flags ++ be 8 (unsigned 64 corr) ++ be 4 0 ++ ownIdentity port ++
  be 2 seq ++ le 1 control ++ [0x7F]

/-- A time in 2^-16 ns as a PTP timestamp. -/
def ptpStamp (t : Int) : Bytes :=
  let n := (t / 65536).toNat
  be 6 (n / 1000000000) ++ be 4 (n % 1000000000)

/-- The frame of a PTP message under a domain's transport (Table 18.2); `peer` for the peer-delay address, `event` for the
event port. -/
def State.ptpFrame (s : State) (x : TimeDomain) (peer event : Bool) (m : Bytes) : Bytes :=
  let tag := if u8 x.cfg 1 / 2 % 2 = 1 then some (u16 x.cfg 8) else none
  let mac := (s.port x.port).mac
  if u8 x.cfg 2 = 1 then
    withFcs ((if peer then [0x01, 0x80, 0xC2, 0x00, 0x00, 0x0E] else [0x01, 0x1B, 0x19, 0x00, 0x00, 0x00]) ++ padTo 6 mac ++
      (match tag with | some t => be 2 0x8100 ++ be 2 t | none => []) ++ be 2 0x88F7 ++ m)
  else
    let six := u8 x.cfg 2 = 3
    let last : Byte := if peer then 0x6B else 0x81
    let dst : Bytes :=
      if six then (if peer then [0xFF, 0x02] else [0xFF, 0x0E]) ++ List.replicate 12 0 ++ [if peer then 0 else 1, last]
      else if peer then [224, 0, 0, 107] else [224, 0, 1, 129]
    let dmac : Bytes := (if six then [0x33, 0x33, 0x00, 0x00] else [0x01, 0x00, 0x5E, 0x00]) ++ [if peer then 0 else 1, last]
    let p := if event then 319 else 320
    let r : Route := {
      port := x.port, tag := tag, family := if six then 6 else 4, dscp := u8 x.cfg 10,
      src := Config.ptpAddress x.port (if six then 6 else 4), dst := dst, sport := p, dport := p }
    udpFrame r dmac mac m

/-- A firmware queue, which always exists; its spill allowance is 1 MiB (DESIGN CHOICE, log entry 60). -/
def State.firmwareQueue (s : State) (q : Nat) : State := if (s.queue? q).isSome then s else s.addQueue q 1024

/-- A PTP message put in queue 0xF020 + port (R577). -/
def State.ptpSend (s : State) (x : TimeDomain) (peer event : Bool) (m : Bytes) : State :=
  let q := 0xF020 + x.port
  (s.firmwareQueue q).writeQueue q
    { kind := 1, flags := 0, obj := 0, arrival := 0, deadline := 0, start := 0, data := s.ptpFrame x peer event m } false

/-- A Pdelay_Req answered under P2P, one-step or two-step (R577). Its departure is a free value after its receipt. -/
def State.pdelayAnswer (s : State) (d t : Nat) (m : Bytes) : State :=
  let x := s.dom d
  let (f, s) := s.draw
  let t2 := s.stamp t
  let t3 := t2 + (f.toNat % 2 ^ 32 : Nat)
  let asker := ptpSource m
  let dom := u8 x.cfg 5
  if x.oneStep then
    s.ptpSend x true true (ptpHead 3 54 dom 0 (ptpCorr m + (t3 - t2)) x.port (ptpSeq m) 5 ++ ptpStamp 0 ++ asker)
  else
    let s := s.ptpSend x true true (ptpHead 3 54 dom 0x0200 0 x.port (ptpSeq m) 5 ++ ptpStamp t2 ++ asker)
    s.ptpSend x true false (ptpHead 10 54 dom 0 (ptpCorr m) x.port (ptpSeq m) 5 ++ ptpStamp t3 ++ asker)

/-- PTP_PDELAY_REQ_RECEIVE (R576, R577). -/
def execPtpPdelayReqReceive (port t : Nat) (msg : Bytes) (s : State) : Host.Outcome State Fault Refusal :=
  if !s.portOk port then .fault .noSuchUnit
  else
    let s := s.at t
    if s.mode = .reset ∨ s.mode = .halt then .next s else
    match [0, 1].find? fun d => (s.dom d).enabled && (s.dom d).port == port && u8 msg 4 == u8 (s.dom d).cfg 5 with
    | none => .next (s.updQuartz fun q => { q with discarded := q.discarded + 1 })
    | some d => .next (if (s.dom d).p2p ∧ ptpType msg = 2 then s.pdelayAnswer d t msg else s)

/-- The bridge's delay request of a domain at its interval, once a master is selected (R577, Table 18.4); `t` is its
departure. -/
def State.delayRequest (s : State) (d t : Nat) : State :=
  let x := s.dom d
  if !x.enabled || x.master.isNone || s.mode == .reset || s.mode == .halt then s
  else
    let seq := (x.reqSeq + 1) % 65536
    let s := s.updDom d fun x => { x with reqSeq := seq, req := some (seq, s.stamp t), presp := none }
    if x.p2p then s.ptpSend x true true (ptpHead 2 54 (u8 x.cfg 5) 0 0 x.port seq 5 ++ ptpStamp 0 ++ List.replicate 10 0)
    else s.ptpSend x false true (ptpHead 1 44 (u8 x.cfg 5) 0 0 x.port seq 1 ++ ptpStamp 0)

/-- PTP_DELAY_REQ_SEND. -/
def execPtpDelayReqSend (dom t : Nat) (s : State) : Host.Outcome State Fault Refusal :=
  if 2 ≤ dom then .fault .noSuchUnit else .next ((s.at t).delayRequest dom t)

/-- DOMAIN_LOSS_TIMEOUT (R584): no Sync or Follow_Up for 3 intervals, or the announce receipt timeout. -/
def execDomainLossTimeout (dom : Nat) (s : State) : Host.Outcome State Fault Refusal :=
  if 2 ≤ dom then .fault .noSuchUnit else .next (if (s.dom dom).st = 2 then s.domainLost dom else s)

/-! ### The time commands (Table 18.8) -/

/-- The checks of TimeDomainSet (Table 18.9). -/
def State.domainSetOk (s : State) (p : Bytes) : Bool :=
  decide (u8 p 1 < 8) && (1 ≤ u8 p 2 && u8 p 2 ≤ 3) && (1 ≤ u8 p 3 && u8 p 3 ≤ 2) && s.portOk (u8 p 4) && (s.homeGroups (u8 p 4)).isEmpty && decide (u8 p 5 ≤ 127) &&
  decide (-7 ≤ signed 8 (u8 p 6) ∧ signed 8 (u8 p 6) ≤ 0) && (2 ≤ u8 p 7 && u8 p 7 ≤ 10) &&
  (if u8 p 1 / 2 % 2 = 1 then u16 p 8 / 4096 % 2 == 0 else u16 p 8 == 0) && decide (u8 p 10 ≤ 63) && (u8 p 2 != 1 || u8 p 10 == 0) && decide (6 ≤ u8 p 11) &&
  decide (-1000000 ≤ signed 32 (u32 p 12) ∧ signed 32 (u32 p 12) ≤ 1000000) && zeros p 16 16

/-- TimeDomainSet (R584). -/
def effTimeDomainSet (r : Req) (s : State) : Eff :=
  let p := r.payload
  nullTarget r (need (decide (u8 p 0 ≤ 1)) .invalidArg (need (s.domainSetOk p) .invalidArg (
    let s := s.updDom (u8 p 0) fun x => { TimeDomain.init with cfg := p, st := u8 p 1 % 2, reqSeq := x.reqSeq }
    .done [] r.tgt s.timeCheck)))

/-- TIME_DOMAIN_SET. -/
def execTimeDomainSet (r : Req) (s : State) : Host.Outcome State Fault Refusal :=
  .next (s.command 0x0800 (· == 32) r (effTimeDomainSet r))

/-- TimeServoSet: from the next update. -/
def effTimeServoSet (r : Req) (s : State) : Eff :=
  let p := r.payload
  nullTarget r (need (1 ≤ u16 p 0 && u16 p 0 ≤ 255 && decide (u16 p 2 ≤ 255) && zeros p 4 4) .invalidArg (
    .later [] r.tgt ((s.updQuartz fun q => { q with pendK := some (u16 p 0, u16 p 2) }).schedule (.update 3) (r.origin r.tgt) .applied)))

/-- TIME_SERVO_SET. -/
def execTimeServoSet (r : Req) (s : State) : Host.Outcome State Fault Refusal :=
  .next (s.command 0x0801 (· == 8) r (effTimeServoSet r))

/-- TimeSelect (R586, R646). -/
def effTimeSelect (r : Req) (s : State) : Eff :=
  let p := r.payload
  nullTarget r (need (decide (u8 p 0 ≤ 1)) .invalidArg (
    need (!(s.role == .cascadeMember && s.quartz.active == some 2)) .wrongState (need (s.tracking (u8 p 0)) .wrongState (
    need (decide (u8 p 1 ≤ 1) && zeros p 2 2) .invalidArg (
    .later [] r.tgt ((s.updQuartz fun q => { q with sel := some (u8 p 0, u8 p 1 == 1) }).schedule (.update (u8 p 0)) (r.origin r.tgt) .applied))))))

/-- TIME_SELECT. -/
def execTimeSelect (r : Req) (s : State) : Host.Outcome State Fault Refusal :=
  .next (s.command 0x0802 (· == 4) r (effTimeSelect r))

/-- TimeStep: in READY or MAINTENANCE the counter is set (R588, R594, Table 18.3). -/
def effTimeStep (r : Req) (s : State) : Eff :=
  let p := r.payload
  nullTarget r (need (s.mode == .ready || s.mode == .maintenance) .wrongState (
    need (decide (u32 p 8 < 1000000000) && zeros p 12 4) .invalidArg (
    let s := s.stepTime (fld p 0 6 * 1000000000 + u32 p 8) (u16 p 6)
    .done [] r.tgt (s.setServo (if s.quartz.active.isSome then 1 else 0) false))))

/-- TIME_STEP. -/
def execTimeStep (r : Req) (s : State) : Host.Outcome State Fault Refusal :=
  .next (s.command 0x0803 (· == 16) r (effTimeStep r))

/-- One domain's 24 bytes of Table 18.10. -/
def TimeDomain.status (x : TimeDomain) : Bytes :=
  let m := x.master
  le 1 x.st ++ le 1 ((m.map (·.cls)).getD 0) ++ le 2 ((m.map (·.steps)).getD 0) ++ le 8 (unsigned 64 (x.theta.getD 0)) ++
  le 4 (unsigned 32 (x.mpd.getD 0 / 65536)) ++ padTo 8 ((m.map (·.identity)).getD [])

/-- The response of TimeStatusGet (Table 18.10). -/
def State.timeStatus (s : State) : Bytes :=
  let q := s.quartz
  let utc := match q.active with | some d => (((s.dom d).master).map (·.utc)).getD 0 | none => 0
  le 1 q.servo ++ le 1 q.activeByte ++ le 1 (if q.auto then 1 else 0) ++ le 1 0 ++ le 4 (unsigned 32 (freqWord q.y)) ++
  le 4 (unsigned 32 (freqWord q.yi)) ++ le 2 utc ++ le 2 0 ++ (s.dom 0).status ++ (s.dom 1).status

/-- TimeStatusGet. -/
def effTimeStatusGet (r : Req) (s : State) : Eff := nullTarget r (.done s.timeStatus r.tgt s)

/-- TIME_STATUS_GET. -/
def execTimeStatusGet (r : Req) (s : State) : Host.Outcome State Fault Refusal :=
  .next (s.command 0x0804 (· == 0) r (effTimeStatusGet r))

/-- TimeCaptureSet (R592). -/
def effTimeCaptureSet (r : Req) (s : State) : Eff :=
  let p := r.payload
  nullTarget r (need (decide (u8 p 0 ≤ 3)) .invalidArg (need (decide (u8 p 1 ≤ 3) && zeros p 2 2) .invalidArg (
    .done [] r.tgt (s.updQuartz fun q => { q with edges := tset q.edges (u8 p 0) (u8 p 1) }))))

/-- TIME_CAPTURE_SET. -/
def execTimeCaptureSet (r : Req) (s : State) : Host.Outcome State Fault Refusal :=
  .next (s.command 0x0805 (· == 4) r (effTimeCaptureSet r))

/-! ### The TIME registers and pins (R589 to R593) -/

/-- TIME_SNAP_STATE (Table 18.6). -/
def Quartz.snapState (q : Quartz) : Nat := q.servo + 256 * (q.active.getD 3)

/-- TIME_SNAP_TAKE (R593): the counter latched. -/
def execTimeSnapTake (s : State) : Host.Outcome State Fault Refusal :=
  .next (s.updQuartz fun q => { q with snap := (s.now, s.nowFrac, q.snapState) })

/-- A program changed. -/
def State.updPulse (s : State) (n : Nat) (f : Pulse → Pulse) : State :=
  s.updQuartz fun q => { q with pulses := tset q.pulses n (f (s.pulse n)) }

/-- The pin driven where its output is enabled and the pin configuration applied (Table 25.10). -/
def State.drivePps (s : State) (n : Nat) : State :=
  if s.pins.applied && s.pins.ppsOe.getLsbD n then s.emit (.pin 1 n (s.pulse n).level) else s

/-- A period and width within R589. -/
def Pulse.ok (x : Pulse) : Bool :=
  2 ≤ x.width && (if x.period = 0 then decide (x.width ≤ 1000000)
    else decide (1000 ≤ x.period ∧ x.period ≤ 4294967294 ∧ x.width + 2 ≤ x.period))

/-- ARM (R589 to R591): a past single pulse sets LATE and is not emitted. -/
def State.armPulse (s : State) (n : Nat) : State :=
  let x := s.pulse n
  if x.armed || !x.ok || s.mode == .reset || s.mode == .halt then s
  else if x.period = 0 ∧ x.rise 0 < s.now then s.updPulse n fun x => { x with late := true, done := 0 }
  else
    let s' := s.updPulse n fun x => { x with armed := true, opened := false, done := 0, k := x.after s.now }
    if x.opened then s'.drivePps n else s'

/-- TIME_PULSE_ARM. -/
def execTimePulseArm (pulse : Nat) (s : State) : Host.Outcome State Fault Refusal :=
  if 4 ≤ pulse then .fault .noSuchUnit else .next (s.armPulse pulse)

/-- STOP (R591): an open pulse ends at once. -/
def State.stopPulse (s : State) (n : Nat) : State :=
  let x := s.pulse n
  let s := s.updPulse n fun x => { x with armed := false, opened := false }
  if x.opened then s.drivePps n else s

/-- TIME_PULSE_STOP. -/
def execTimePulseStop (pulse : Nat) (s : State) : Host.Outcome State Fault Refusal :=
  if 4 ≤ pulse then .fault .noSuchUnit else .next (s.stopPulse pulse)

/-- The next edge of an armed program (R589): a pulse opens, or closes and is the last of its count. -/
def State.pulseEdge (s : State) (n : Nat) : State :=
  let x := s.pulse n
  if !x.armed || s.mode == .reset || s.mode == .halt then s
  else if x.opened then
    let overTimes := x.period == 0 || (x.count != 0 && decide (x.count ≤ x.done))
    ((s.at (x.fall x.k)).updPulse n fun x => { x with opened := false, armed := !overTimes, k := x.k + 1 }).drivePps n
  else ((s.at (x.rise x.k)).updPulse n fun x => { x with opened := true, done := (x.done + 1) % 2 ^ 32 }).drivePps n

/-- PULSE_EDGE. -/
def execPulseEdge (pulse : Nat) (s : State) : Host.Outcome State Fault Refusal :=
  if 4 ≤ pulse then .fault .noSuchUnit else .next (s.pulseEdge pulse)

/-- The captures that wait written as TimeCapture (R592), in pin order for one tick, once mailboxes are open. -/
def State.tellCaptures (s : State) : State :=
  if !s.serving then s
  else
    s.quartz.caps.foldl (fun s c =>
      let d := tget 0 s.quartz.dropped c.1
      (s.updQuartz fun q => { q with dropped := tset q.dropped c.1 0 }).raiseAll 0xF802
        (le 1 c.1 ++ le 1 c.2.1 ++ le 2 (min d 0xFFFF) ++ le 8 0 ++ timeValue c.2.2.1 c.2.2.2)) (s.updQuartz fun q => { q with caps := [] })

/-- An edge of a TS_IN pin (R592): captured where it is selected; beyond 64 waiting it is dropped and counted. -/
def State.capture (s : State) (pin t : Nat) (rising : Bool) : State :=
  let e := tget 0 s.quartz.edges pin
  if (if rising then e % 2 else e / 2 % 2) = 0 then s
  else if 64 ≤ (s.quartz.caps.filter fun c => c.1 == pin).length then
    s.updQuartz fun q => { q with dropped := tset q.dropped pin (tget 0 q.dropped pin + 1) }
  else
    (s.updQuartz fun q =>
      let early := q.caps.takeWhile fun c => decide (c.2.2.1 < t ∨ c.2.2.1 = t ∧ c.1 ≤ pin)
      { q with caps := early ++ (pin, (if rising then 1 else 2), t, s.nowFrac) :: q.caps.drop early.length }).tellCaptures

/-- TS_IN_EDGE. -/
def execTsInEdge (pin t : Nat) (rising : Bool) (s : State) : Host.Outcome State Fault Refusal :=
  if 4 ≤ pin then .fault .noSuchUnit else .next ((s.at t).capture pin (t / 2 * 2) rising)

/-! ### The time relay of a cascade (R645, R646) -/

/-- The position of the device from which the master's route to position `p` arrives. -/
def upstream (topo n p : Nat) : Nat :=
  match (routeHops topo n false p 8 0 none).getLast? with | some e => e.1 | none => 0

/-- The loss or the end of the relay as a time source (R646). -/
def State.relayGone (s : State) : State := (s.updQuartz fun q => { q with relay := false, relayLost := true }).timeCheck

/-- The relay at a block start: every 16th, a request that went unanswered counts as missing, and the next one leaves. -/
def State.relayBlock (s : State) : State :=
  if s.role ≠ .cascadeMember then
    (if s.quartz.relay then (s.updQuartz fun q => { q with relay := false, relayLost := false }).timeCheck else s)
  else if s.block % 16 ≠ 0 then s
  else
    let miss := if s.cascade.waiting then s.cascade.missed + 1 else s.cascade.missed
    let s := s.updCas fun c => { c with missed := miss }
    let s := if miss = 3 && s.quartz.relay then s.relayGone else s
    let seq := (s.cascade.seq + 1) % 65536
    let s := s.updCas fun c => { c with seq := seq, t1 := s.now, waiting := true }
    let u := upstream s.cascade.topo s.cascade.addrs.length s.cascade.pos
    s.sendTo (s.cascade.addrs.getD u 0) 7 3 s.block (be 2 seq ++ le 1 1 ++ le 5 0 ++ timeValueBe 0 0 ++ timeValueBe 0 0)

/-- A TIME request answered with t2 and t3; the turnaround of the answer is a free value. -/
def State.relayAnswer (s : State) (src t : Nat) (p : Bytes) : State :=
  let (f, s) := s.draw
  let t3 := t + f.toNat % 2 ^ 20
  s.sendTo src 7 3 s.block ((p.take 2) ++ le 1 2 ++ le 5 0 ++ timeValueBe t s.nowFrac ++ timeValueBe t3 s.nowFrac)

/-- A TIME response: θ fed to the servo with τ = 32 ms (R645). The relay becomes active at its first answer in a formation;
lost and come back, it does so only where no domain is active. -/
def State.relayTheta (s : State) (t : Nat) (p : Bytes) : State :=
  if !s.cascade.waiting || bfld p 0 2 != s.cascade.seq then s
  else
    let theta := ((s.stamp s.cascade.t1 - readTimeBe p 8) + (s.stamp t - readTimeBe p 20)) / 2
    let s := s.updCas fun c => { c with waiting := false, missed := 0 }
    let free : Bool := match s.quartz.active with | some a => !s.tracking a | none => true
    let s := s.updQuartz fun q => { q with relay := true }
    let s := if s.quartz.active != some 2 && (!s.quartz.relayLost || free) then s.activate 2 2 else s
    if s.quartz.active = some 2 then s.servoUpdate 2 theta 32000000 else s

/-- A TIME frame that arrived at `t` taken (R645). -/
def State.takeTime (link : Nat) (t : Nat) (s : State) (src _ : Nat) (p : Bytes) : State :=
  if u8 p 2 = 1 then s.relayAnswer src t p
  else if u8 p 2 = 2 ∧ s.role = .cascadeMember then s.relayTheta t p
  else s.blpDiscard link

/-- TIME (R645). -/
def execTime (link t : Nat) (data : Bytes) (s : State) : Host.Outcome State Fault Refusal :=
  if 4 ≤ link then .fault .noSuchUnit
  else .next ((s.at t).blpIn link 3 data (State.takeTime link t))

end Sys2Proof.Machine
end

