-- ==== Sys2Proof/Machine/Regs.lean ====
section
/-!
DEFINITION. The registers of BAR0 (R745 to R768): what a write does and what a read returns.
-/

namespace Sys2Proof.Machine

/-! ### Regions and access (Table 25.1, R746) -/

/-- BOOT has ended. -/
def Mode.booted (m : Mode) : Bool := m != .reset && m != .boot

/-- The mode lets reads reach an offset. -/
def State.regReadable (s : State) (off : Nat) : Bool :=
  let always := s.mode.booted
  let noHalt := s.mode.booted && s.mode != .halt
  if off < 0x1000 then always
  else if off < 0x2000 then noHalt
  else if off < 0x4000 then always
  else if off < 0x8000 then s.mode.isOpen
  else if off < 0x8040 then always
  else if 0x10000 ≤ off ∧ off < 0x20000 then always
  else false

/-- The mode lets writes reach an offset. -/
def State.regWritable (s : State) (off : Nat) : Bool :=
  if 0x1000 ≤ off ∧ off < 0x2000 then s.mode.booted && s.mode != .halt
  else if 0x2000 ≤ off ∧ off < 0x3000 then s.mode.isOpen
  else if 0x4000 ≤ off ∧ off < 0x7000 then s.mode.isOpen
  else if 0x8000 ≤ off ∧ off < 0x8040 then s.mode.booted
  else if 0x10000 ≤ off ∧ off < 0x20000 then s.mode.booted
  else false

/-- The DBG region. -/
def inDbg (off : Nat) : Bool := decide (0x100000 ≤ off ∧ off < 0x200000)

/-! ### Retained memory and backup registers (R742, R766, R767) -/

/-- A byte of a list of cells with rising addresses; an unlisted one reads 0. -/
def cellAt : List Host.Cell → Nat → Byte
  | [], _ => 0
  | (a, b) :: r, i => if a = i then b else cellAt r i

/-- A byte written, the cells kept rising and free of zeros. -/
def cellSet : List Host.Cell → Nat → Byte → List Host.Cell
  | [], i, v => if v = 0 then [] else [(i, v)]
  | (a, b) :: r, i, v =>
    if a = i then (if v = 0 then r else (i, v) :: r)
    else if i < a then (if v = 0 then (a, b) :: r else (i, v) :: (a, b) :: r)
    else (a, b) :: cellSet r i v

/-- The canonical form from an address on: rising addresses below the end, no zero byte. -/
def cellsFrom : Nat → List Host.Cell → Bool
  | _, [] => true
  | n, (a, b) :: r => decide (n ≤ a) && decide (a < 0x10000) && b != 0 && cellsFrom (a + 1) r

/-- The canonical form of retained memory. -/
def Memory.wf (m : List Host.Cell) : Bool := cellsFrom 0 m

/-- A byte of retained memory, and of a backup register. -/
def State.retainedByte (s : State) (i : Nat) : Byte := cellAt s.retained i
/-- Backup register `n`. -/
def State.backup (s : State) (n : Nat) : BitVec 32 := tget 0 s.bkp n

/-- A byte of a 32-bit word replaced. -/
def withByte (w : BitVec 32) (i : Nat) (b : Byte) : BitVec 32 :=
  (w &&& ~~~(0xFF#32 <<< (8 * i))) ||| (b.setWidth 32 <<< (8 * i))

/-- One byte written by the host: the host half of retained memory and the backup registers take it. -/
def State.hostByte (s : State) (off : Nat) (b : Byte) : State :=
  if 0x18000 ≤ off ∧ off < 0x20000 then { s with retained := cellSet s.retained (off - 0x10000) b }
  else if 0x8000 ≤ off ∧ off < 0x8040 then
    { s with bkp := tset s.bkp ((off - 0x8000) / 4) (withByte (s.backup ((off - 0x8000) / 4)) (off % 4) b) }
  else s

/-! ### Writes -/

/-- The low or the high half of a 64-bit register replaced. -/
def setHalf (hi : Bool) (x : BitVec 64) (v : BitVec 32) : BitVec 64 :=
  if hi then (x &&& 0xFFFFFFFF#64) ||| (v.setWidth 64 <<< 32) else (x &&& 0xFFFFFFFF00000000#64) ||| v.setWidth 64

/-- A ring with its base or size written (R28, R752). -/
def Ring.write (x : Ring) (i : Nat) (v : BitVec 32) : Ring :=
  if x.en then x
  else if i = 0 then { x with base := setHalf false x.base (v &&& 0xFFFFF000#32) }
  else if i = 4 then { x with base := setHalf true x.base v }
  else if 4 ≤ v.toNat % 16 ∧ v.toNat % 16 ≤ 12 then { x with log2n := v.toNat % 16 }
  else x

/-- MBX_CTRL (Table 25.7): the ring enables in order, and the interrupt enables. -/
def State.writeCtrl (s : State) (f : Nat) (v : BitVec 32) : State :=
  (((s.cmdEnable f (v.getLsbD 0)).rspEnable f (v.getLsbD 1)).evtEnable f (v.getLsbD 2)).updMb f
    fun m => { m with ie := (v >>> 8).setWidth 4 }

/-- A word of the MSI-X table (R757): a mask cleared may send a pending message. -/
def State.writeMsix (s : State) (f i : Nat) (v : BitVec 32) : State :=
  let t := (s.mb f).msixTable
  let t := (if t.isEmpty then List.replicate 16 0 else t).set i (if i % 4 = 3 then v &&& 1#32 else v)
  let s := s.updMb f fun m => { m with msixTable := t }
  if i % 4 ≠ 3 then s
  else if v.getLsbD 0 then s.updMb f fun m => { m with msixMask := m.msixMask ||| BitVec.ofNat 4 (2 ^ (i / 4)) }
  else s.unmask f (some (i / 4))

/-- The MBX region. MBX_CMD_TAIL and MBX_HPT_TAIL are doorbells whose slots stand in host memory: rows of their own. -/
def State.writeMbx (s : State) (f off : Nat) (v : BitVec 32) : State :=
  if off = 0 ∨ off = 4 ∨ off = 8 then s.updMb f fun m => { m with cmd := m.cmd.write off v }
  else if off = 0x20 ∨ off = 0x24 ∨ off = 0x28 then s.updMb f fun m => { m with rsp := m.rsp.write (off - 0x20) v }
  else if off = 0x40 ∨ off = 0x44 ∨ off = 0x48 then s.updMb f fun m => { m with evt := m.evt.write (off - 0x40) v }
  else if off = 0x30 then s.rspHead f (v.toNat % 4096)
  else if off = 0x50 then s.evtHead f (v.toNat % 4096)
  else if off = 0x60 then s.writeCtrl f v
  else if off = 0x84 then s.hprHead f (v.toNat % 65536)
  else if 0x800 ≤ off ∧ off < 0x840 then s.writeMsix f ((off - 0x800) / 4) v
  else s

/-- Bits within the programmed width replaced (Table 22.3). -/
def CrcUnit.within (x : CrcUnit) (old new : BitVec 64) : BitVec 64 :=
  (old &&& ~~~(lowMask x.width)) ||| (new &&& lowMask x.width)

/-- CRCn_CTRL (Table 22.5): the fields, then START, then DMA_GO (R688). -/
def CrcUnit.writeCtrl (x : CrcUnit) (v : BitVec 32) : CrcUnit :=
  let w := v.toNat % 128
  let n := v.toNat / 65536 % 16
  let x := { x with
    width := if 1 ≤ w ∧ w ≤ 64 then w else x.width, refin := v.getLsbD 8, refout := v.getLsbD 9,
    foldLen := if n ≤ 8 then n else x.foldLen }
  let x := if v.getLsbD 24 then x.start else x
  if v.getLsbD 25 then x.go else x

/-- A register of a CRC unit that only its owner writes. -/
def CrcUnit.write (x : CrcUnit) (off : Nat) (v : BitVec 32) : CrcUnit :=
  if off = 0x04 then x.writeCtrl v
  else if off = 0x08 then { x with poly := x.within x.poly (setHalf false x.poly v) }
  else if off = 0x0C then { x with poly := x.within x.poly (setHalf true x.poly v) }
  else if off = 0x10 then { x with init := x.within x.init (setHalf false x.init v) }
  else if off = 0x14 then { x with init := x.within x.init (setHalf true x.init v) }
  else if off = 0x18 then { x with xorout := x.within x.xorout (setHalf false x.xorout v) }
  else if off = 0x1C then { x with xorout := x.within x.xorout (setHalf true x.xorout v) }
  else if off = 0x20 then { x with fold := setHalf false x.fold v }
  else if off = 0x24 then { x with fold := setHalf true x.fold v }
  else if off = 0x30 then { x with dmaAddr := setHalf false x.dmaAddr v }
  else if off = 0x34 then { x with dmaAddr := setHalf true x.dmaAddr v }
  else if off = 0x38 then { x with dmaLen := v }
  else x

/-- A CRC unit's registers (Table 22.3, R683). -/
def State.writeCrc (s : State) (fn u off : Nat) (v : BitVec 32) : State :=
  if off = 0 then
    let s := if v.getLsbD 8 then s.crcClaim fn u else s
    if v.getLsbD 9 then s.crcRelease fn u else s
  else if off = 0x3C then
    s.updCrc u fun x => { x with
      done := x.done && !v.getLsbD 1, dmaErr := x.dmaErr && !v.getLsbD 2, ignored := x.ignored && !v.getLsbD 3 }
  else if off % 4 = 0 ∧ (off ≤ 0x24 ∨ 0x30 ≤ off) ∧ off ≤ 0x38 then s.crcOwned fn u (CrcUnit.idle fun x => x.write off v)
  else s

/-- TIME_PULSEn_CTRL (Table 18.7, R591). -/
def State.writePulseCtrl (s : State) (n : Nat) (v : BitVec 32) : State :=
  let pol := v.getLsbD 2
  let moved := (s.pulse n).pol != pol
  let s := s.updPulse n fun x => { x with pol := pol, late := x.late && !v.getLsbD 3 }
  let s := if moved then s.drivePps n else s
  if v.getLsbD 1 then s.stopPulse n else if v.getLsbD 0 then s.armPulse n else s

/-- The TIME region (Table 18.6): an armed program ignores writes of its fields. -/
def State.writeTime (s : State) (off : Nat) (v : BitVec 32) : State :=
  if off = 0 then (if v.getLsbD 0 then s.updQuartz fun q => { q with snap := (s.now, s.nowFrac, q.snapState) } else s)
  else if off < 0x100 ∨ 0x180 ≤ off then s
  else
    let n := (off - 0x100) / 0x20
    let k := (off - 0x100) % 0x20
    if k = 0 then s.writePulseCtrl n v
    else if (s.pulse n).armed then s
    else s.updPulse n fun x =>
      if k = 0x04 then { x with startNs := v.toNat }
      else if k = 0x08 then { x with startLo := v.toNat }
      else if k = 0x0C then { x with startHi := v.toNat % 65536 }
      else if k = 0x10 then { x with period := v.toNat }
      else if k = 0x14 then { x with width := v.toNat }
      else if k = 0x18 then { x with count := v.toNat }
      else x

/-- Every pin driven whose level changes with a write of the PIN region. -/
def State.drivePins (s s0 : State) : State :=
  let s := s.driveAll s0
  (List.range 4).foldl (fun s n =>
    if s.pins.ppsOe.getLsbD n && !s0.pins.ppsOe.getLsbD n then s.drivePps n
    else if !s.pins.ppsOe.getLsbD n && s0.pins.ppsOe.getLsbD n && s.pins.applied && (s.pulse n).level == 0 then s.emit (.pin 1 n 1)
    else s) s

/-- A drive code; 0b11 leaves the field unchanged. -/
def driveCode (old new : BitVec 2) : BitVec 2 := if new = 3 then old else new

/-- The PIN region (Table 25.10, R763). -/
def State.writePins (s : State) (off : Nat) (v : BitVec 32) : State :=
  let p := s.pins
  let q : Pins :=
    if off = 0x00 then { p with actLow := v.setWidth 8, openDrain := (v >>> 8).setWidth 8, fctlOe := (v >>> 16).setWidth 8 }
    else if off = 0x08 then (if s.mode = .maintenance then { p with force := v.setWidth 8, forceEn := (v >>> 8).setWidth 8 } else p)
    else if off = 0x10 then { p with ppsOe := v.setWidth 4 }
    else if off = 0x14 then { p with noPull := v.setWidth 4 }
    else if off = 0x18 then { p with drvFctl := driveCode p.drvFctl (v.setWidth 2), drvPps := driveCode p.drvPps ((v >>> 2).setWidth 2) }
    else p
  State.drivePins { s with pins := q } s

/-- A full aligned 32-bit write that its region takes. -/
def State.regWrite32 (s : State) (fn off : Nat) (v : BitVec 32) : State :=
  if !s.regWritable off then s
  else if off < 0x2000 then s.writeMbx fn (off - 0x1000) v
  else if off < 0x3000 then (if off = 0x2014 ∧ v.getLsbD 0 then s.updRst fun x => { x with haltCount := 0, halts := [] } else s)
  else if off < 0x4400 then s.writeCrc fn ((off - 0x4000) / 0x100) (off % 0x100) v
  else if off < 0x5000 then s
  else if off < 0x6000 then s.writeTime (off - 0x5000) v
  else s.writePins (off - 0x6000) v

/-- The bytes a write enables, with their offsets. -/
def enabled (off : Nat) (data : List (Option Byte)) : List (Nat × Byte) :=
  (data.take 8).zipIdx.filterMap fun e => e.1.map fun b => (off + e.2, b)

/-- The offset of CRCn_DATA of a unit. -/
def crcDataOf (off : Nat) : Option Nat :=
  if 0x4000 ≤ off ∧ off < 0x4400 ∧ 0x28 ≤ off % 0x100 ∧ off % 0x100 < 0x2C then some ((off - 0x4000) / 0x100) else none

/-- A host write (R747). -/
def State.regWrite (s : State) (fn off : Nat) (data : List (Option Byte)) : State :=
  let l := enabled off data
  match l with
  | [] => s
  | (a, _) :: _ =>
    let v : BitVec 64 := BitVec.ofNat 64 (unle (l.map (·.2)))
    let run := l.map (·.1) == (List.range l.length).map (a + ·)
    if 0x8000 ≤ a ∧ a < 0x8040 ∨ 0x10000 ≤ a ∧ a < 0x20000 then
      (if s.regWritable a then l.foldl (fun s e => s.hostByte e.1 e.2) s else s)
    else
      match crcDataOf a with
      | some u =>
        if s.regWritable a ∧ (l.length = 1 ∨ l.length = 2 ∨ l.length = 4) ∧ (l.all fun e => crcDataOf e.1 == some u) then
          s.crcOwned fn u (CrcUnit.idle fun x => x.feedAll (l.map (·.2)))
        else s
      | none =>
        if !run then s
        else if l.length = 4 ∧ a % 4 = 0 then s.regWrite32 fn a (v.setWidth 32)
        else if l.length = 8 ∧ a % 8 = 0 then (s.regWrite32 fn a (v.setWidth 32)).regWrite32 fn (a + 4) ((v >>> 32).setWidth 32)
        else s

/-- REGISTER_WRITE. -/
def execRegisterWrite (fn off : Nat) (data : List (Option Byte)) (s : State) : Host.Outcome State Fault Refusal :=
  if 4 ≤ fn then .fault .noSuchUnit
  else if inDbg off && s.sys.unlocked && s.mode != .halt then .refused .debugRegion
  else .next (s.regWrite fn off data)

/-! ### Reads -/

/-- A register of the SYS region (Tables 25.3 to 25.5). -/
def State.readSys (s : State) (fn off : Nat) : Nat :=
  let y := s.sys
  if off = 0x00 then 0x51449816
  else if off = 0x04 then 0x00B1
  else if off = 0x08 then (if Config.gradeX then 1 else 0)
  else if off = 0x0C then fn
  else if off = 0x10 then Config.serial.toNat % 2 ^ 32
  else if off = 0x14 then Config.serial.toNat / 2 ^ 32
  else if off = 0x18 then (if y.strapPcie then 1 else 0) + (if y.strapNmc then 2 else 0) + 4 * y.pclass + 16 * y.pmaddr
  else if off = 0x1C then s.mode.code + 256 * s.shedBack
  else if off = 0x20 then y.fwBuild
  else if off = 0x24 then y.slot + (if y.fallback then 2 else 0) + 256 * y.otpCounter
  else if off = 0x28 then (if y.unlocked then 1 else 0)
  else 0

/-- A bit as a number at a place. -/
def bitAt (b : Bool) (i : Nat) : Nat := if b then 2 ^ i else 0

/-- A ring's registers, by their place in its group (Table 2.1): base, size, and the pointers the host (`h`) and the bridge
move. -/
def Ring.read (x : Ring) (i : Nat) : Nat :=
  if i = 0 then x.base.toNat % 2 ^ 32 else if i = 4 then x.base.toNat / 2 ^ 32 else if i = 8 then x.log2n else 0

/-- The MBX region (Tables 2.1, 13.7 and 25.6, R757). -/
def State.readMbx (s : State) (f off : Nat) : Nat :=
  let m := s.mb f
  let r := s.hring f 0
  let t := s.hring f 1
  if off < 0x0C then m.cmd.read off
  else if off = 0x0C then m.cmd.tail
  else if off = 0x10 then m.cmd.head
  else if 0x20 ≤ off ∧ off < 0x2C then m.rsp.read (off - 0x20)
  else if off = 0x2C then m.rsp.tail
  else if off = 0x30 then m.rsp.head
  else if 0x40 ≤ off ∧ off < 0x4C then m.evt.read (off - 0x40)
  else if off = 0x4C then m.evt.tail
  else if off = 0x50 then m.evt.head
  else if off = 0x60 then bitAt m.cmd.en 0 + bitAt m.rsp.en 1 + bitAt m.evt.en 2 + 256 * m.ie.toNat
  else if off = 0x64 then
    bitAt m.fwReady 0 + bitAt m.cmd.err 1 + bitAt m.rsp.err 2 + bitAt m.evt.err 3 + bitAt r.err 4 + bitAt t.err 5
  else if off = 0x68 then m.heartbeat.toNat
  else if off = 0x80 then r.tail
  else if off = 0x84 then r.head
  else if off = 0x88 then t.tail
  else if off = 0x8C then t.head
  else if 0x800 ≤ off ∧ off < 0x840 then
    let i := (off - 0x800) / 4
    if i % 4 = 3 then bitAt (m.msixMask.getLsbD (i / 4)) 0 else (m.msixTable.getD i 0).toNat
  else if off = 0xC00 then m.msixPending.toNat
  else 0

/-- The RST region (Table 25.8). -/
def State.readRst (s : State) (off : Nat) : Nat :=
  if off = 0x00 then s.rst.causeWord
  else if off = 0x04 then s.rst.history
  else if off = 0x08 then ((List.range 4).map fun f => bitAt (s.resetRights f) f).sum + bitAt (s.resetRights 4) 4
  else if off = 0x0C then bitAt (!s.nvm.jobs.isEmpty) 0 + bitAt s.nvm.erase.isSome 1
  else if off = 0x10 then s.sys.restarts.toNat
  else 0

/-- The levels of PG[7:0] or EN[7:0] with `n` steps raised (Table 23.3). -/
def railLevels (n : Nat) : Nat :=
  ((List.range n).filterMap fun i => (enPin (i + 1)).map fun p => 2 ^ p).sum

/-- The PWR region (Table 25.9): what a block boundary latches, and what is updated more often. -/
def State.readPwr (s : State) (off : Nat) : Nat :=
  let p := s.pwr
  let at_ (o : Nat) : Nat := tget (tget 0 s.pwrBlockRegs o) p.shown o
  if off = 0x08 then tget (p.mv + 65536 * p.current) p.shown 0x08
  else if off = 0x10 then p.mMax
  else if off = 0x1C then at_ 0x1C + 2 ^ 24 * tget 0 p.shown 0x1F
  else if off = 0x24 then
    at_ 0x24 + 65536 * railLevels s.rails.on + 2 ^ 24 * railLevels (s.rails.on + (if s.rails.waiting then 1 else 0))
  else if 0x40 ≤ off ∧ off < 0x80 then unsigned 8 (p.temps.getD ((off - 0x40) / 4) 0)
  else if off ≤ 0x2C then at_ off
  else 0

/-- A CRC unit's registers. -/
def State.readCrc (s : State) (u off : Nat) : Nat :=
  let x := s.crcUnit u
  let lo (v : BitVec 64) : Nat := v.toNat % 2 ^ 32
  let hi (v : BitVec 64) : Nat := v.toNat / 2 ^ 32
  let w (v : BitVec 64) : BitVec 64 := v &&& lowMask x.width
  if off = 0x00 then x.owner
  else if off = 0x04 then x.width + bitAt x.refin 8 + bitAt x.refout 9 + 65536 * x.foldLen
  else if off = 0x08 then lo (w x.poly) else if off = 0x0C then hi (w x.poly)
  else if off = 0x10 then lo (w x.init) else if off = 0x14 then hi (w x.init)
  else if off = 0x18 then lo (w x.xorout) else if off = 0x1C then hi (w x.xorout)
  else if off = 0x20 then lo x.fold else if off = 0x24 then hi x.fold
  else if off = 0x30 then lo x.dmaAddr else if off = 0x34 then hi x.dmaAddr
  else if off = 0x38 then x.dmaLen.toNat
  else if off = 0x3C then bitAt x.busy 0 + bitAt x.done 1 + bitAt x.dmaErr 2 + bitAt x.ignored 3
  else if off = 0x40 then lo x.result else if off = 0x44 then hi x.result
  else 0

/-- The TIME region (Tables 18.6 and 18.7). -/
def State.readTime (s : State) (off : Nat) : Nat :=
  let (ns, frac, st) := s.quartz.snap
  if off = 0x04 then ns % 1000000000
  else if off = 0x08 then ns / 1000000000 % 2 ^ 32
  else if off = 0x0C then ns / 1000000000 / 2 ^ 32 % 65536 + 65536 * frac
  else if off = 0x10 then st
  else if off = 0x14 then unsigned 32 (freqWord s.quartz.y)
  else if off < 0x100 ∨ 0x180 ≤ off then 0
  else
    let x := s.pulse ((off - 0x100) / 0x20)
    let k := (off - 0x100) % 0x20
    if k = 0 then bitAt x.armed 0 + bitAt x.pol 2 + bitAt x.late 3
    else if k = 0x04 then x.startNs else if k = 0x08 then x.startLo else if k = 0x0C then x.startHi
    else if k = 0x10 then x.period else if k = 0x14 then x.width else if k = 0x18 then x.count else x.done

/-- The PIN region (Table 25.10). -/
def State.readPins (s : State) (off : Nat) : Nat :=
  let p := s.pins
  if off = 0x00 then p.actLow.toNat + 256 * p.openDrain.toNat + 65536 * p.fctlOe.toNat
  else if off = 0x04 then
    ((List.range 8).map fun n => bitAt (s.fctl n) n).sum + 256 * ((List.range 8).map fun n => s.fctlLevel n * 2 ^ n).sum
  else if off = 0x08 then p.force.toNat + 256 * p.forceEn.toNat
  else if off = 0x10 then p.ppsOe.toNat
  else if off = 0x14 then p.noPull.toNat
  else if off = 0x18 then p.drvFctl.toNat + 4 * p.drvPps.toNat
  else 0

/-- The NMC region (Table 25.11). -/
def State.readNmc (s : State) (off : Nat) : Nat :=
  let n := s.nmc
  if off = 0x00 then n.addr
  else if off = 0x04 then n.wstate.code + bitAt n.attn 8 + 65536 * n.queue.length
  else if off = 0x08 then n.overflow.toNat
  else if off = 0x0C then n.fcrcErr.toNat
  else if off = 0x10 then n.acted.toNat
  else if off = 0x14 then n.evtDropped.toNat
  else 0

/-- The value a full aligned read of a register returns (R746, R748). What firmware has saved in its half of retained memory is a
free value: R767 gives no layout (log entry 6). -/
def State.regRead (s : State) (fn off : Nat) : Nat :=
  if !s.regReadable off ∨ off % 4 ≠ 0 then 0
  else if off < 0x1000 then s.readSys fn off
  else if off < 0x2000 then s.readMbx fn (off - 0x1000)
  else if off < 0x3000 then s.readRst (off - 0x2000)
  else if off < 0x4000 then s.readPwr (off - 0x3000)
  else if off < 0x4400 then s.readCrc ((off - 0x4000) / 0x100) (off % 0x100)
  else if off < 0x5000 then 0
  else if off < 0x6000 then s.readTime (off - 0x5000)
  else if off < 0x7000 then s.readPins (off - 0x6000)
  else if off < 0x8000 then s.readNmc (off - 0x7000)
  else if off < 0x8040 then (s.backup ((off - 0x8000) / 4)).toNat
  else if off < 0x18000 then s.draw.1.toNat % 2 ^ 32
  else unle ((List.range 4).map fun i => s.retainedByte (off - 0x10000 + i))

/-- The RC registers cleared by a read of all four bytes (R747, R749); a free value read is drawn. -/
def State.rcClear (s : State) (off : Nat) : State :=
  if !s.regReadable off then s
  else if off = 0x2010 then s.updSys fun x => { x with restarts := 0 }
  else if off = 0x3010 then s.updPwr fun p => { p with mMax := 0 }
  else if off = 0x7008 then s.updNmc fun n => { n with overflow := 0 }
  else if off = 0x700C then s.updNmc fun n => { n with fcrcErr := 0 }
  else if off = 0x7010 then s.updNmc fun n => { n with acted := 0 }
  else if off = 0x7014 then s.updNmc fun n => { n with evtDropped := 0 }
  else if 0x10000 ≤ off ∧ off < 0x18000 ∧ off % 4 = 0 then s.draw.2
  else s

/-- RC_REGISTER_READ: a full read of a register returned, and an RC register cleared. -/
def execRcRegisterRead (fn off : Nat) (s : State) : Host.Outcome State Fault Refusal :=
  if 4 ≤ fn then .fault .noSuchUnit
  else if inDbg off && s.sys.unlocked && s.mode != .halt then .refused .debugRegion
  else .next ((s.rcClear off).emit (.read (le 4 (s.regRead fn off))))

end Sys2Proof.Machine
end

