-- ==== Sys2Proof/Machine/Trio.lean ====
section
/-!
DEFINITION. Trio voting groups (R651 to R673): formation, the critical set, digests and the vote, lease and endorsement, and
rejoin. What a DELTA does with a change command stands in Delta.lean.
-/

namespace Sys2Proof.Machine

/-- The trio group changed. -/
def State.updTrio (s : State) (f : Trio → Trio) : State := { s with trio := f s.trio }

/-! ### CRC-64 of a digest (R660) -/

/-- One bit of the reflected CRC-64, polynomial 0x42F0E1EBA9EA3693 reflected. -/
def crc64Bit (c : BitVec 64) : BitVec 64 := if c.getLsbD 0 then (c >>> 1) ^^^ 0xC96C5795D7870F42#64 else c >>> 1

/-- One byte. -/
def crc64Byte (c : BitVec 64) (b : Byte) : BitVec 64 :=
  crc64Bit (crc64Bit (crc64Bit (crc64Bit (crc64Bit (crc64Bit (crc64Bit (crc64Bit (c ^^^ b.setWidth 64))))))))

/-- The CRC-64 of some bytes. -/
def crc64 (b : Bytes) : BitVec 64 := (b.foldl crc64Byte 0xFFFFFFFFFFFFFFFF#64) ^^^ 0xFFFFFFFFFFFFFFFF#64

/-! ### The critical set (R653) -/

/-- The configuration of an object of the critical set, as digested. -/
def State.configOf (s : State) (key : Nat) : Bytes :=
  if ktype key = 2 then (match s.leg key with | some l => l.cfg ++ le 2 l.m | none => [])
  else if ktype key = 3 then (match s.vleg key with | some l => l.cfg | none => [])
  else if ktype key = 4 then (match s.comp key with | some c => c.cfg | none => [])
  else match s.enc key with | some e => e.cfg ++ e.streams.flatMap (·.cfg) | none => []

/-- A configuration digest noted; those of this device too. -/
def State.noteConfig (s : State) (entry addr : Nat) (d : BitVec 64) : State :=
  s.updTrio fun t => { t with entries := tupd t.entries entry fun e => { e with configs := tset e.configs addr d } }

/-- This device's configuration digests exchanged in DELTA frames of opcode 0, while an entry is PENDING or a device comes
back. -/
def State.exchange (s : State) : State :=
  if !(s.trio.entries.any fun e => !e.2.active) && s.trio.sync.isNone then s
  else s.trio.entries.foldl (fun s e =>
    let d := crc64 (s.configOf e.2.key)
    (s.noteConfig e.1 s.nmc.addr d).toOthers 6 9 (be 8 s.block ++ be 2 e.1 ++ be 2 0 ++ be 8 d.toNat)) s

/-- An entry becomes ACTIVE where all devices of the trio hold it with equal digests (R653). -/
def Trio.activate (t : Trio) : Trio :=
  { t with entries := tmap t.entries fun _ e =>
      let l := t.present.map fun a => tget? e.configs a
      if e.active then e else { e with active := l.all fun x => x.isSome && x == l.head?.join } }

/-- The nodes into and out of a leg's matrix number that are open from an input outside the critical set (R654). -/
def State.openFromOutside (s : State) (key : Nat) : Bool :=
  let m := s.legM key
  s.matrix.last.any fun e => e.2 != 0 && e.1 % 16384 == m &&
    s.audio.legs.any fun l => l.2.m == e.1 / 16384 && okey 2 l.1 != key && !s.critical (okey 2 l.1)

/-- A rule of R654 that the entry of an object would break. -/
def State.breaksCritical (s : State) (key : Nat) : Bool :=
  let crit (k : Nat) : Bool := k == key || s.critical k
  if ktype key = 2 then
    s.openFromOutside key ||
    (match s.leg key with
      | some l => (s.autoGain (kidx (okey 1 l.session))).isSome && (s.members l.session true).any fun k => !crit k
      | none => false) ||
    s.matrix.ducks.any fun d => d.2.members.contains key && d.2.triggers.any fun k => !crit k
  else if ktype key = 3 then
    (match s.vleg key with | some l => (match l.source with | some k => !crit k | none => false) | none => false)
  else if ktype key = 4 then
    (match s.comp key with | some c => (c.shadow ++ c.planes).any fun p => fetches p && !crit (plSrc p) | none => false)
  else match s.enc key with | some e => e.streams.any fun x => !crit x.comp | none => false

/-- Entry `entry` cleared would leave another entry's object dependent on an object outside the set (R654). -/
def State.clearBreaks (s : State) (entry : Nat) : Bool :=
  let t := s.updTrio fun t => { t with entries := tdel t.entries entry }
  t.trio.entries.any fun e => t.breaksCritical e.2.key && !s.breaksCritical e.2.key

/-- An audio leg that may be critical: RTP, host or TDM. -/
def State.mayBeCritical (s : State) (key : Nat) : Bool :=
  if ktype key = 2 then (match s.leg key with | some l => !l.trunk | none => false) else true

/-- TrioCriticalSet: set or clear an entry (R653, R654). -/
def effTrioCriticalSet (r : Req) (s : State) : Eff :=
  let p := r.payload
  nullTarget r (
  s.withHandle (u32 p 0) [2, 3, 4, 5] fun key =>
  let n := u16 p 4
  let entry := if ktype key = 2 then n else 1024 + n
  need (s.mayBeCritical key && decide (n < if ktype key = 2 then 1024 else 64)) .invalidArg (
  need (!s.following) .leaseHeld (
  need ((u8 p 6 == 1 || u8 p 6 == 2) && zeros p 7 1) .invalidArg (
  let held := tget? s.trio.entries entry
  if u8 p 6 = 2 then
    need ((match held with | some e => e.key == key | none => false) && !s.clearBreaks entry) .invalidArg (
    .done [] 0 (s.updTrio fun t => { t with entries := tdel t.entries entry }))
  else
    need (!s.breaksCritical key) .invalidArg (
    need (held.isNone && !s.critical key) .noResource (
    .done [] 0 (s.updTrio fun t => { t with entries := tset t.entries entry { key := key, active := false, configs := [] } })))))))

/-- TRIO_CRITICAL_SET. -/
def execTrioCriticalSet (r : Req) (s : State) : Host.Outcome State Fault Refusal :=
  .next (s.command 0x0A03 (· == 8) r (effTrioCriticalSet r))

/-! ### Formation (R651, R652) -/

/-- TrioJoin. A topology that Table 21.3 does not list comes before the states that depend on it (R799). -/
def effTrioJoin (r : Req) (s : State) : Eff :=
  let p := r.payload
  let t := u8 p 1
  nullTarget r (
  need (t == 1 || t == 2) .invalidArg (
  need (s.trio.id == 0 && s.mayForm t) .wrongState (
  need (decide (1 ≤ u8 p 0) && decide (u8 p 0 ≤ 31) && u8 p 0 != s.nmc.addr && zeros p 2 2) .invalidArg (
  .done [] 0 ((s.beginForming r.mbx (Forming.new true t [] [] s.now)).updCas fun c => { c with master := u8 p 0 })))))

/-- TRIO_JOIN. -/
def execTrioJoin (r : Req) (s : State) : Host.Outcome State Fault Refusal := .next (s.command 0x0A00 (· == 4) r (effTrioJoin r))

/-- TrioForm. -/
def effTrioForm (r : Req) (s : State) : Eff :=
  let p := r.payload
  let t := u8 p 0
  nullTarget r (
  need (t == 1 || t == 2) .invalidArg (
  need (s.trio.id == 0 && s.mayForm t) .wrongState (
  need (zeros p 1 3 && s.formOk t 3 p && zeros p 64 4) .invalidArg (
  .wait .formation [] ((s.beginForming r.mbx (Forming.new true t (formAddrs p 3) (formReserves p 3) s.now)).updCas
    fun c => { c with master := s.nmc.addr })))))

/-- TRIO_FORM: 68 bytes (Table 21.3). -/
def execTrioForm (r : Req) (s : State) : Host.Outcome State Fault Refusal := .next (s.command 0x0A01 (· == 68) r (effTrioForm r))

/-! ### Roles -/

/-- TrioRole, a system event. -/
def State.trioRole (s : State) (leader cause left : Nat) : State :=
  s.raiseAll 0xFA00 (le 1 leader ++ le 1 cause ++ le 1 left ++ le 5 0 ++ le 8 s.block)

/-- The critical packets held whose deadlines have not passed, sent under the lease (R663). -/
def State.sendHeld (s : State) : State :=
  if !s.leads then s
  else
    let l := s.trio.held.filter fun e => e.1 == 0 || decide (s.now ≤ e.1)
    (l.foldl (fun s e => s.sendPaced e.2.1 0 e.1 e.2.2) s).updTrio fun t => { t with held := [] }

/-- The ingress that stood by fed in, as a new leader takes it from its own ports (R658). -/
def State.takeStandby (s : State) : State :=
  let l := s.trio.standby
  l.foldl (fun s e => if ktype e.2.1 = 2 then s.legMedia e.2.1 e.2.2.1 e.2.2.2.1 e.2.2.2.2
    else s.videoMedia e.2.1 e.2.2.1 e.2.2.2.1 e.2.2.2.2) (s.updTrio fun t => { t with standby := [] })

/-- A new leader: its role, TrioRole, and on the new leader its held packets and its own ingress. -/
def State.newLeader (s : State) (a cause left : Nat) : State :=
  let s := s.updTrio fun t => { t with leader := a, endorsed := s.block, present := if left = 0 then t.present else t.present.filter (· != left) }
  let s := (s.toRole (if a = s.nmc.addr then .trioLeader else .trioFollower)).trioRole a cause left
  if a = s.nmc.addr then s.sendHeld.takeStandby else s

/-- A device that has lost the vote or its lease stops, and leaves by a media restart (R664, R665). The spec gives no cause
code for its FaultNotice: a free value. -/
def State.trioOut (s : State) : State :=
  let (v, s) := s.draw
  (s.updTrio fun t => { t with stopped := true, lease := none }).mediaRestart none (v.toNat % 65536)

/-! ### The vote (R660 to R666) -/

/-- The digests of an entry for a block, by device in order of position. -/
def Trio.votes (t : Trio) (d entry : Nat) : List (Nat × BitVec 64) :=
  t.addrs.filterMap fun a => if t.present.contains a then
      (t.digests.find? fun x => x.1 == d && x.2.1 == a && x.2.2.1 == entry).map fun x => (a, x.2.2.2)
    else none

/-- The outcome of an entry's vote (Table 21.2). -/
inductive Verdict where
  | clean | agreed | none_
  | dissenter (addr : Nat)
  | split
  deriving DecidableEq, Repr

/-- Table 21.2. -/
def verdict : List (Nat × BitVec 64) → Verdict
  | [(a, x), (b, y), (c, z)] =>
    if x = y then (if y = z then .clean else .dissenter c)
    else if x = z then .dissenter b
    else if y = z then .dissenter a
    else .split
  | [(_, x), (_, y)] => if x = y then .agreed else .split
  | _ => .none_

/-- TrioVote, at most once per second for an entry. -/
def State.trioVote (s : State) (entry outcome dissenter d : Nat) : State :=
  let due : Bool := match tget? s.trio.told entry with | some t => decide (t + 1000000000 ≤ s.now) | none => true
  if due then
    (s.updTrio fun t => { t with told := tset t.told entry s.now }).raiseAll 0xFA01
      (le 2 entry ++ le 1 outcome ++ le 1 dissenter ++ le 4 0 ++ le 8 d)
  else s

/-- An entry has outputs and a digest: an audio entry or an encoding. -/
def digested (e : CritEntry) : Bool := e.active && (ktype e.key == 2 || ktype e.key == 5)

/-- One entry voted: its counts, TrioVote. -/
def State.voteEntry (s : State) (d entry : Nat) : State :=
  let l := s.trio.votes d entry
  let s := s.updTrio fun t => { t with missing := t.missing + (t.present.length - l.length) }
  match verdict l with
  | .dissenter a => (s.updTrio fun t => { t with dissent := t.dissent + 1 }).trioVote entry 1 a d
  | .split => (s.updTrio fun t => { t with split := t.split + 1 }).trioVote entry 2 0 d
  | _ => s

/-- ENDORSE of a device sent to both others (R667). -/
def State.endorse (s : State) (a : Nat) : State :=
  (s.updTrio fun t => { t with endorsed := if a = t.leader then s.block else t.endorsed }).toOthers 7 11 (be 1 a ++ be 7 0 ++ be 8 s.block)

/-- The first device of the trio in preference order, but for some. -/
def Trio.next (t : Trio) (out : List Nat) : Option Nat := t.addrs.find? fun a => t.present.contains a && !out.contains a

/-- A follower's part at V with nothing lost: it endorses the leader, the device that takes the lease back, or after three
blocks without an endorsement the next device (R667 to R669). -/
def State.endorseAtV (s : State) (d : Nat) : State :=
  let t := s.trio
  let me := s.nmc.addr
  match t.turn with
  | some (r, a, _) => if r = s.block + 1 ∧ a ≠ me then s.endorse a else if a ≠ me ∧ t.leader ≠ me then s.endorse t.leader else s
  | none =>
    if t.leader = me then s
    else if tget? t.came t.leader = some d then s.endorse t.leader
    else if t.endorsed + 3 ≤ s.block then
      match t.next [t.leader] with
      | some a => if a = me then s else (s.endorse a).newLeader a 2 t.leader
      | none => s
    else s

/-- V of block `d`: the vote, its losers, and the lease (R661 to R670). -/
def State.vote (s : State) : State :=
  let d := s.block - 1
  let es := (s.trio.entries.filter fun e => digested e.2).map (·.1)
  let vs := es.map fun e => verdict (s.trio.votes d e)
  let out := s.trio.addrs.filter fun a => vs.contains (.dissenter a)
  let s := es.foldl (fun s e => s.voteEntry d e) s
  let s := s.updTrio fun t => { t with clean := if vs.all (· == .clean) then t.clean + 1 else 0 }
  let me := s.nmc.addr
  if out.contains me then s.trioOut
  else if !out.isEmpty then
    -- a vote loss wins over a revert or a handover decided at the same V (R670)
    let old := s.trio.leader
    let s := s.updTrio fun t => { t with present := t.present.filter fun a => !out.contains a, turn := none }
    if out.contains old then
      match s.trio.next out with
      | some a =>
        let s := s.newLeader a 1 old
        if a = me then s else s.endorse a
      | none => s
    else s.endorseAtV d
  else
    let t := s.trio
    let pref := t.addrs.headD 0
    let back := t.turn.isNone && t.revert != 0 && decide (t.revert ≤ t.clean) && t.leader != pref && t.present.contains pref
    let s := if back then s.updTrio fun t => { t with turn := some (s.block + 1, pref, 3) } else s
    s.endorseAtV d

/-- VOTE. -/
def execVote (s : State) : Host.Outcome State Fault Refusal :=
  .next (if s.trio.id = 0 || s.trio.stopped then s else s.vote)

/-- The digests of a device and a block noted; a follower that has lost is not heard (R663). -/
def State.takeDigest (s : State) (src _ : Nat) (p : Bytes) : State :=
  if s.trio.id = 0 ∨ !s.trio.present.contains src then s
  else
    let d := bfld p 0 8
    let l := (List.range (min (bfld p 8 2) 255)).filterMap fun i =>
      let o := 16 + 16 * i
      if bfld p (o + 2) 2 % 2 = 1 then none else some (d, src, bfld p o 2, BitVec.ofNat 64 (bfld p (o + 8) 8))
    s.updTrio fun t => { t with digests := t.digests ++ l, came := tset t.came src d }

/-- DIGEST (Table 21.1): a device's digests of a block; a follower that has lost is not heard (R663). -/
def execDigest (link : Nat) (data : Bytes) (s : State) : Host.Outcome State Fault Refusal :=
  if 4 ≤ link then .fault .noSuchUnit
  else .next (s.blpIn link 10 data State.takeDigest)

/-- An ENDORSE taken: in the block of its sending it grants the lease through the second block after (R667, R668). -/
def State.takeEndorse (s : State) (src _ : Nat) (p : Bytes) : State :=
  let a := bfld p 0 1
  let n := bfld p 8 8
  if s.trio.id = 0 ∨ s.trio.stopped ∨ !s.trio.present.contains src ∨ n ≠ s.block then s
  else
    let s := if a = s.trio.leader then s.updTrio fun t => { t with endorsed := n } else s
    if a ≠ s.nmc.addr then s
    else
      let s := s.updTrio fun t => { t with lease := some (n + 2) }
      if s.trio.leader = a then s.sendHeld
      else if s.trio.turn.isSome then s
      else s.newLeader a 2 s.trio.leader

/-- ENDORSE (R667, R668): one received in the block of its sending grants the lease through the second block after. -/
def execEndorse (link : Nat) (data : Bytes) (s : State) : Host.Outcome State Fault Refusal :=
  if 4 ≤ link then .fault .noSuchUnit
  else .next (s.blpIn link 11 data State.takeEndorse)

/-- LEASE_EXPIRY (R667, R668): a leader without the lease stops and leaves. -/
def execLeaseExpiry (s : State) : Host.Outcome State Fault Refusal :=
  let t := s.trio
  let overTimes : Bool := match t.lease with | some b => decide (b < s.block) | none => true
  .next (if t.id != 0 && t.leader == s.nmc.addr && !t.stopped && overTimes then s.trioOut else s)

/-! ### At a block start -/

/-- The digest of an entry for block `d` (R660): the fold, the entry number, the output mixed in the block, and the protected
packets completed in it. -/
def State.digestOf (s : State) (d entry : Nat) (e : CritEntry) : BitVec 64 :=
  let mix := if ktype e.key = 2 then
      ((List.range 96).map fun t => le 3 (unsigned 24 ((tget [] s.matrix.outRead (s.legM e.key)).getD t 0))).flatten
    else []
  crc64 (le 8 d ++ le 2 entry ++ mix ++ tget [] s.trio.packets entry)

/-- The digests of the block just ended sent to the others, 255 a frame (R661). -/
def State.sendDigests (s : State) : State :=
  let d := s.block - 1
  let l := (s.trio.entries.filter fun e => digested e.2).map fun e => (e.1, s.digestOf d e.1 e.2, decide (d < tget 0 s.trio.absent e.1))
  let mine := (l.filter fun x => !x.2.2).map fun x => (d, s.nmc.addr, x.1, x.2.1)
  let s := s.updTrio fun t => { t with
    packets := [], digests := (t.digests.filter fun x => x.1 == d) ++ (if t.mute then [] else mine) }
  if s.trio.mute then s
  else (List.range (ceilDiv (max l.length 1) 255)).foldl (fun s i =>
    let c := (l.drop (255 * i)).take 255
    s.toOthers 7 10 (be 8 d ++ be 2 c.length ++ be 6 0 ++
      (c.map fun x => be 2 x.1 ++ be 2 (if x.2.2 then 1 else 0) ++ be 4 0 ++ be 8 x.2.1.toNat).flatten)) s

/-- Some bytes of protected packets of an object that have completed Onyx in the running block (R660). -/
def State.notePacket (s : State) (key : Nat) (d : Bytes) : State :=
  match s.activeEntry key with
  | some e => s.updTrio fun t => { t with packets := tset t.packets e (tget [] t.packets e ++ d) }
  | none => s

/-- A critical leg's numbers in a SNAPSHOT. -/
def Leg.numbers (l : Leg) : List Nat := [l.txSeq, l.txTs, l.tsBlock, l.lastTs, l.agc]

/-- The sync block of a rejoin (R672): the leader sends every audio entry's chain state, and every critical encoding codes
IDR at its next picture. -/
def State.syncNow (s : State) (b : Nat) : State :=
  let s := if s.leads then
      s.trio.entries.foldl (fun s e => match s.leg e.2.key with
        | some l => if ktype e.2.key = 2 then
            s.toOthers 1 12 (be 2 e.1 ++ be 6 0 ++ be 8 b ++ Config.writeChain l.decSt l.encSt l.voiceSt l.numbers) else s
        | none => s) s
    else s
  s.trio.entries.foldl (fun s e =>
    if ktype e.2.key = 5 then s.updEnc e.2.key fun x => { x with streams := x.streams.map fun y => { y with due := true } } else s) s

/-- A critical encoding has not yet coded the IDR picture that a sync block calls for. -/
def State.syncOpen (s : State) : Bool :=
  s.trio.entries.any fun e => ktype e.2.key == 5 && s.flows e.2.key &&
    (match s.enc e.2.key with | some x => x.streams.any (·.due) | none => false)

/-- The trio left by this device (Table 24.2, R673): critical entries cleared, objects kept. -/
def State.leaveTrio (s : State) : State :=
  let k := okey 0x0B 0
  let s := if s.objLive k then s.bumpGen k else s
  let s := (s.dropObj k).releaseNow (plusCost s.trio.charged (reserveCost s.cascade.reserve))
  ({ s with trio := State.reset.trio, cascade := s.cascade.left }).toRole .standalone

/-- The trio at a block start: a change of leader due, entries ACTIVE, digests, buffers, the rejoin (R653, R658 to R661, R669,
R672). -/
def State.trioBlock (s : State) : State :=
  if s.trio.id = 0 then s
  else if s.trio.leaving = some s.block then s.leaveTrio
  else
    let n := s.block
    let s := match s.trio.turn with
      | some (r, a, cause) =>
        if r ≤ n then
          let s := s.updTrio fun t => { t with turn := none, clean := 0, lease := if t.leader = s.nmc.addr then none else t.lease }
          s.newLeader a cause 0
        else s
      | none => s
    let s := (s.exchange.updTrio Trio.activate).sendDigests
    let s := s.updTrio fun t => { t with
      standby := t.standby.filter fun e => decide (n < e.1 + 3), dropped := t.dropped + (t.standby.filter fun e => decide (e.1 + 3 ≤ n)).length
      held := t.held.filter fun e => e.1 == 0 || decide (s.now ≤ e.1) }
    let s := match s.trio.rejoin with
      | some (a, _) => s.tell a (.form true s.trio.topo s.trio.addrs s.cascade.reserves)
      | none => s
    let s := match s.trio.sync with
      | some b =>
        if n = b then s.syncNow b
        else if b < n ∧ !s.syncOpen then s.updTrio fun t => { t with sync := none, mute := false }
        else s
      | none => s
    s.chargeMirror

/-! ### Rejoin, handover and the other commands (R669, R672, R673) -/

/-- The trio group handle of a command. -/
def State.onTrio (s : State) (r : Req) (k : Eff) : Eff := s.withHandle r.tgt [0x0B] fun _ => k

/-- TrioLeave: not by the lease holder. -/
def effTrioLeave (r : Req) (s : State) : Eff :=
  s.onTrio r (
  need (s.trio.leader != s.nmc.addr) .leaseHeld (need s.trio.leaving.isNone .wrongState (
  let b := s.firstBlock r.mbx
  let s1 := s.trio.addrs.foldl (fun s a => if a = s.nmc.addr then s else s.tell a .trioLeft) s
  .later [] r.tgt (((s1.dying (okey 0x0B 0)).updTrio fun t => { t with leaving := some b }).schedule (.block b) (r.origin r.tgt) .applied))))

/-- TRIO_LEAVE. -/
def execTrioLeave (r : Req) (s : State) : Host.Outcome State Fault Refusal := .next (s.command 0x0A02 (· == 0) r (effTrioLeave r))

/-- TrioHandover: the lease changes hands at the block after the next (R673). -/
def effTrioHandover (r : Req) (s : State) : Eff :=
  let p := r.payload
  let a := u8 p 0
  nullTarget r (
  need (s.trio.id == 0 || (s.trio.addrs.contains a && a != s.nmc.addr)) .invalidArg (
  need (!s.following) .leaseHeld (
  need (s.trio.id != 0 && s.trio.turn.isNone && s.trio.present.contains a) .wrongState (
  need (zeros p 1 3) .invalidArg (
  let b := s.block + 2
  let s1 := s.trio.addrs.foldl (fun s x => if x = s.nmc.addr then s else s.tell x (.trioTurn b a)) s
  .done (le 8 b) 0 (s1.updTrio fun t => { t with turn := some (b, a, 4) }))))))

/-- TRIO_HANDOVER. -/
def execTrioHandover (r : Req) (s : State) : Host.Outcome State Fault Refusal := .next (s.command 0x0A04 (· == 4) r (effTrioHandover r))

/-- TrioRevertSet. -/
def effTrioRevertSet (r : Req) (s : State) : Eff :=
  let n := u16 r.payload 0
  nullTarget r (
  need (!s.following) .leaseHeld (
  need ((n == 0 || decide (50 ≤ n)) && zeros r.payload 2 2) .invalidArg (
  let s1 := s.trio.addrs.foldl (fun s x => if x = s.nmc.addr then s else s.tell x (.trioRevert n)) s
  .done [] 0 (s1.updTrio fun t => { t with revert := n }))))

/-- TRIO_REVERT_SET. -/
def execTrioRevertSet (r : Req) (s : State) : Host.Outcome State Fault Refusal := .next (s.command 0x0A05 (· == 4) r (effTrioRevertSet r))

/-- TrioRejoin: the leader waits for the returning device, then names the sync block (R672). -/
def effTrioRejoin (r : Req) (s : State) : Eff :=
  let p := r.payload
  let a := u8 p 0
  nullTarget r (
  need (s.trio.id == 0 || s.trio.addrs.contains a) .invalidArg (
  need (!s.following) .leaseHeld (
  need (s.trio.id != 0 && !s.trio.present.contains a && s.trio.rejoin.isNone && s.cascade.forming.isNone) .wrongState (
  need (zeros p 1 3) .invalidArg (
  .wait .formation [] ((s.updTrio fun t => { t with rejoin := some (a, s.now) }).updCas fun c => { c with mbx := r.mbx }))))))

/-- TRIO_REJOIN. -/
def execTrioRejoin (r : Req) (s : State) : Host.Outcome State Fault Refusal := .next (s.command 0x0A06 (· == 4) r (effTrioRejoin r))

/-- TrioStatusGet (Table 21.5). -/
def effTrioStatusGet (r : Req) (s : State) : Eff :=
  let t := s.trio
  let act (audio : Bool) : Nat := (t.entries.filter fun e => e.2.active && decide (e.1 < 1024) == audio).length
  nullTarget r (
  .done (le 8 t.id ++ le 1 t.pos ++ le 1 t.leader ++ le 1 t.present.length ++ le 1 0 ++ le 4 t.clean ++ le 4 t.dissent ++ le 4 t.split ++
    le 4 t.missing ++ le 4 t.late ++ le 2 (act true) ++ le 2 (act false) ++ le 12 0) 0 s)

/-- TRIO_STATUS_GET. -/
def execTrioStatusGet (r : Req) (s : State) : Host.Outcome State Fault Refusal := .next (s.command 0x0A07 (· == 0) r (effTrioStatusGet r))

/-- The returning device takes its place in the trio: it follows, and votes once the sync block and its pictures are past. -/
def State.joinTrio (s : State) (id leader sync : Nat) (present : List Nat) : State :=
  match s.cascade.forming with
  | none => s
  | some f =>
    let p := s.myPos
    let mine := f.reserves.getD p []
    let s := (s.reserve (reserveCost mine)).updCas fun c => { c with
      st := 2, id := id, topo := f.topo, pos := p, addrs := f.addrs, reserve := mine, reserves := f.reserves, forming := none, lost := [] }
    let s := s.addObj (okey 0x0B 0) s.cascade.mbx true 0 []
    (s.updTrio fun t => { t with
      id := id, topo := f.topo, pos := p, addrs := f.addrs, present := present, leader := leader, lease := none, stopped := false,
      endorsed := s.block, clean := 0, sync := some sync, mute := true, turn := none, leaving := none }).toMode .trioFollower

/-- A CONTROL message of a trio taken; any other is the formation's or the cascade's. -/
def State.trioControl (s : State) (src : Nat) (c : Control) : State :=
  match c with
  | .ready _ _ =>
    match s.trio.rejoin with
    | some (a, _) =>
      if a ≠ src then s.control src c
      else
        let sync := s.block + 250
        let there := s.trio.addrs.filter fun x => s.trio.present.contains x || x == a
        let s := s.updTrio fun t => { t with present := there, rejoin := none, sync := some sync, clean := 0 }
        let s := s.trio.addrs.foldl (fun s x => if x = s.nmc.addr then s else s.tell x (.trio s.trio.id s.trio.leader sync there)) s
        s.answer s.cascade.mbx fun s _ => .done (le 8 sync) 0 s
    | none => s.control src c
  | .trio id leader sync there =>
    if s.trio.id = 0 then s.joinTrio id leader sync there
    else s.updTrio fun t => { t with present := there, sync := some sync, clean := 0 }
  | .trioLeft => s.updTrio fun t => { t with present := t.present.filter (· != src) }
  | .trioTurn b a => if src = s.trio.leader then s.updTrio fun t => { t with turn := some (b, a, 4) } else s
  | .trioRevert n => s.updTrio fun t => { t with revert := n }
  | c => s.control src c

/-- A CONTROL message taken (Table 20.7). -/
def State.takeControl (link : Nat) (s : State) (src _ : Nat) (p : Bytes) : State :=
  match Config.readControl p with | some c => s.trioControl src c | none => s.blpDiscard link

/-- CONTROL (Table 20.7). -/
def execControl (link : Nat) (data : Bytes) (s : State) : Host.Outcome State Fault Refusal :=
  if 4 ≤ link then .fault .noSuchUnit
  else .next (s.blpIn link 4 data (State.takeControl link))

/-- The chain state of an audio entry as of the sync block taken (R672). -/
def State.takeSnapshot (s : State) (src _ : Nat) (p : Bytes) : State :=
  match tget? s.trio.entries (bfld p 0 2), Config.readChain (p.drop 16) with
  | some e, some (dec, enc, voice, nums) =>
    if s.trio.mute ∧ src = s.trio.leader ∧ s.trio.sync = some (bfld p 8 8) then
      s.updLeg e.key fun l => { l with
        decSt := dec, encSt := enc, voiceSt := voice, txSeq := nums.getD 0 l.txSeq, txTs := nums.getD 1 l.txTs,
        tsBlock := nums.getD 2 l.tsBlock, lastTs := nums.getD 3 l.lastTs, agc := nums.getD 4 l.agc }
    else s
  | _, _ => s

/-- SNAPSHOT (R672): the chain state of an audio entry as of the sync block. -/
def execSnapshot (link : Nat) (data : Bytes) (s : State) : Host.Outcome State Fault Refusal :=
  if 4 ≤ link then .fault .noSuchUnit
  else .next (s.blpIn link 12 data State.takeSnapshot)

/-! ### MIRROR (R656 to R659) -/

/-- The entries an audio leg's packets feed: its own, and those whose outputs it reaches through an open node. -/
def State.fedEntries (s : State) (key : Nat) : List Nat :=
  let m := s.legM key
  (s.trio.entries.filter fun e => e.2.key == key || (ktype e.2.key == 2 && ktype key == 2 &&
    tget 0 s.matrix.plane (m * 16384 + s.legM e.2.key) != 0)).map (·.1)

/-- A mirrored item that has come too late for its block: counted, and every entry it feeds ABSENT for the running block
(R659). -/
def State.lateItem (s : State) (key : Nat) : State :=
  let es := s.fedEntries key
  s.updTrio fun t => { t with late := t.late + 1, absent := es.foldl (fun a e => tset a e (s.block + 1)) t.absent }

end Sys2Proof.Machine
end

