-- ==== Sys2Proof/Machine/Egress.lean ====
section
/-!
DEFINITION. The egress scheduler (R451 to R469): which packet a port sends next, the refills, and the scheduling commands.
-/

namespace Sys2Proof.Machine

/-! ### Egress queues (Table 14.2) -/

/-- The port of an egress queue; none for any other queue, or one whose owner does not live. -/
def State.queuePort (s : State) (q : Nat) : Option Nat :=
  if q < 0x4000 then none
  else if q < 0x8000 then (s.leg (okey 2 (q - 0x4000))).bind fun l => if l.kind = 1 then some l.port else none
  else if q < 0xA000 then (s.vleg (okey 3 (q - 0x8000))).bind fun l => if l.sending then none else some (u8 l.cfg 16)
  else if 0xB000 ≤ q ∧ q < 0xB010 then (s.part (okey 6 (q - 0xB000))).bind fun p => if u8 p.cfg 0 = 2 then some (u8 p.cfg 40) else none
  else if 0xF000 ≤ q ∧ q < 0xF020 then (if s.portOk (q - 0xF000) then some (q - 0xF000) else none)
  else if 0xF020 ≤ q ∧ q < 0xF040 then (if s.portOk (q - 0xF020) then some (q - 0xF020) else none)
  else none

/-- The leg whose packets an egress queue holds. -/
def queueLeg (q : Nat) : Nat := if q < 0x8000 then okey 2 (q - 0x4000) else okey 3 (q - 0x8000)

/-- The queue of host-sent frames of a port. -/
def hostQueue (p : Nat) : Nat := 0xF000 + p

/-- 2 % of the rate of a port in kbit/s (R425). -/
def State.hostRate (s : State) (p : Nat) : Nat := s.portRate p * 2 / 100

/-- The queue belongs to the firmware and is that of host-sent frames. -/
def isHostQueue (q : Nat) : Bool := decide (0xF000 ≤ q) && decide (q < 0xF020)

/-- The leg shaper of an egress queue as it stands (Table 14.2). A host-sent frame queue runs at 2 % of its port's rate until
the host sets another; a Quartz queue is unlimited. -/
def State.egShaper (s : State) (q : Nat) : Shaper :=
  if isHostQueue q then
    let burst := Config.hostBurst.val + 1
    let x := tget { Shaper.open (s.port (q - 0xF000)).hostClass with burst := burst, tokens := (burst : Int) * 65536 } s.egress.legs q
    if x.rate = unlimited then { x with rate := s.hostRate (q - 0xF000) } else x
  else if 0xF020 ≤ q then tget (Shaper.open 7) s.egress.legs q
  else s.legShaper q

/-- An egress shaper replaced; the rate of a host-sent frame queue that the host has not set stays that of its port. -/
def State.setEgShaper (s : State) (q : Nat) (x : Shaper) : State :=
  s.setLegShaper q (if isHostQueue q && x.rate == s.hostRate (q - 0xF000) then { x with rate := unlimited } else x)

/-! ### The head of a queue -/

/-- The route of a leg's packets and its send key context, 0 for none. -/
def State.legRoute (s : State) (key : Nat) : Option (Route × Nat) :=
  if ktype key = 2 then (s.leg key).map fun l => (audioRoute l.cfg, u32 l.cfg 28)
  else (s.vleg key).map fun l => (videoRoute l.cfg, u32 l.cfg 12)

/-- The bytes SRTP adds under a profile (Table 15.1). -/
def srtpTag : Nat → Nat
  | 1 | 2 => 16 | 3 => 10 | 4 => 4 | _ => 0

/-- The bytes a send key context adds to a packet. -/
def State.tagOf (s : State) (h : Nat) : Nat :=
  if h = 0 then 0 else ((s.keyCtx (h % 2 ^ 20)).map fun c => srtpTag c.profile).getD 0

/-- The frame bytes and the priority a record of a queue will have on its port (R419, R454). -/
def State.frameOf (s : State) (q : Nat) (r : Rec) : Nat × Nat :=
  if q < 0xA000 then
    match s.legRoute (queueLeg q) with
    | some (x, h) => (x.frameLen (r.data.length + s.tagOf h), (x.tag.getD 0) / 8192 % 8)
    | none => (r.data.length, 0)
  else (r.data.length, framePrio r.data)

/-- The shaped length of the head of a queue (R454). -/
def State.headLen (s : State) (port q : Nat) (r : Rec) : Nat := s.shapedLen port (s.frameOf q r).1

/-- A head that could no longer depart by its deadline (R459). -/
def State.tooLate (s : State) (port q : Nat) (r : Rec) : Bool :=
  r.deadline != 0 && decide (r.deadline < s.now + s.sendTime port (s.headLen port q r))

/-- The discard of an expired packet counted: its shaper, and its leg (R122). -/
def State.countExpired (s : State) (q : Nat) : State :=
  let s := s.setEgShaper q { s.egShaper q with expired := (s.egShaper q).expired + 1 }
  if q < 0x8000 then s.updLeg (queueLeg q) fun l => { l with stats := { l.stats with expired := l.stats.expired + 1 } }
  else if q < 0xA000 then s.updVleg (queueLeg q) fun l => l.bump 20 1
  else s

/-- Expired heads of a queue discarded until one is not (R459, R460). -/
def State.dropExpired (port q : Nat) : Nat → State → State
  | 0, s => s
  | n + 1, s =>
    match s.front q with
    | none => s
    | some r => if s.tooLate port q r then State.dropExpired port q n ((s.readQueue q).1.countExpired q) else s

/-- The expiry test of a queue. -/
def State.expireHead (s : State) (port q : Nat) : State :=
  State.dropExpired port q (((s.queue? q).map fun x => x.recs.length).getD 0) s

/-! ### Selection (R459) -/

/-- A paused priority resumed: what waited past the scheduler is sent in order, or has expired (R419, R122). -/
def State.resume (s : State) (port prio : Nat) : State :=
  let here (e : Nat × Nat × Bytes) : Bool := framePrio e.2.2 == prio
  let l := (s.port port).parked.filter here
  let s := s.updPort port fun x => { x with paused := tdel x.paused prio, parked := x.parked.filter fun e => !here e }
  l.foldl (fun s e =>
    if e.1 != 0 && decide (e.1 < s.now + s.sendTime port (s.shapedLen port e.2.2.length)) then
      (if e.2.1 = 0 then s else s.countExpired e.2.1)
    else s.sendFrame port e.2.2) s

/-- PAUSE_EXPIRY: the pause time of a priority has run out and its egress resumes (R419). -/
def execPauseExpiry (port prio : Nat) (s : State) : Host.Outcome State Fault Refusal :=
  if tget 0 (s.port port).paused prio ≤ s.now then .next (s.resume port prio) else .next s

/-- The numbers of the class shaper and of the port shaper of a port (Table 14.1). -/
def classNo (port c : Nat) : Nat := 16 * portSlot port + c
def portNo (port : Nat) : Nat := 16 * portSlot port + 8

/-- The queues of a port and class with a head. -/
def State.classQueues (s : State) (port c : Nat) : List Nat :=
  (s.net.queues.filter fun e => !e.2.recs.isEmpty && s.queuePort e.1 == some port && (s.egShaper e.1).cls == c).map (·.1)

/-- The three shapers let a packet pass of a queue (R457). -/
def State.admitsAll (s : State) (port c q L : Nat) : Bool :=
  (s.egShaper q).admits L && (s.classShaper (classNo port c)).admits L && (s.classShaper (portNo port)).admits L

/-- A packet of a queue that needs the cipher cluster, while its submission port to it is held (R261). -/
def State.cipherHeld (s : State) (q : Nat) : Bool :=
  decide (q < 0xA000) && !s.canSubmit 1 6 && (match s.legRoute (queueLeg q) with | some (_, h) => h != 0 | none => false)

/-- One queue looked at: its expired heads dropped, a paused head counted, and the better of its head and the best so far
kept: the earlier deadline, none last, then the lower queue ID. -/
def State.lookAt (port c : Nat) (a : State × Option (Nat × Nat × Rec)) (q : Nat) : State × Option (Nat × Nat × Rec) :=
  let s := a.1.expireHead port q
  match s.front q with
  | none => (s, a.2)
  | some r =>
    if s.paused port (s.frameOf q r).2 then
      (s.setEgShaper q { s.egShaper q with skips := min 0xFFFFFFFF ((s.egShaper q).skips + 1) }, a.2)
    else if !s.admitsAll port c q (s.headLen port q r) || s.cipherHeld q then (s, a.2)
    else
      let k := if r.deadline = 0 then 2 ^ 64 - 1 else r.deadline
      match a.2 with
      | some (k', _, _) => if k < k' then (s, some (k, q, r)) else (s, a.2)
      | none => (s, some (k, q, r))

/-- The best head of the highest class that has one. -/
def State.choose (port : Nat) : List Nat → State → State × Option (Nat × Nat × Rec)
  | [], s => (s, none)
  | c :: cs, s =>
    match (s.classQueues port c).foldl (State.lookAt port c) (s, none) with
    | (s, some (_, q, r)) => (s, some (c, q, r))
    | (s, none) => State.choose port cs s

/-- The three shapers of a packet debited (R457). -/
def State.debitAll (s : State) (port c q L : Nat) : State :=
  let s := s.setEgShaper q ((s.egShaper q).debit L)
  let s := s.setClassShaper (classNo port c) ((s.classShaper (classNo port c)).debit L)
  s.setClassShaper (portNo port) ((s.classShaper (portNo port)).debit L)

/-- A frame of a leg sent; a critical one without the lease is held (R663, R667). -/
def State.launch (s : State) (key port deadline : Nat) (f : Bytes) : State :=
  if s.mayTransmit key then s.sendPaced port (outQueue key) deadline f
  else s.updTrio fun t => { t with held := t.held ++ [(deadline, port, f)] }

/-- A UDP payload of a leg sent on its route, or discarded and counted as no neighbour (R427). -/
def State.launchOn (s : State) (key : Nat) (x : Route) (deadline : Nat) (d : Bytes) : State :=
  match s.frameFor x d with
  | some f => s.launch key x.port deadline f
  | none => s.portBump x.port 68 1

/-- The level of a leg's SRTP packets going out (Table 15.7). -/
def State.sendLevel (s : State) (key : Nat) : Nat :=
  if ktype key = 2 then 14 else if ((s.vleg key).bind (·.source)).any fun k => ktype k == 5 then 9 else 10

/-- A selected packet on its way: a whole frame goes, a leg's packet gets its headers, after Onyx where the leg has a send
key; an export record whose last byte leaves ends its lag (R427, R495, R526). A poisoned one is discarded and counted, before a FCS is
made of it and before Onyx uses an index (R439, R497, R679). -/
def State.depart (s : State) (port q : Nat) (r : Rec) : State :=
  if r.poisoned then s.objCount r.obj 7 1
  else if q < 0xA000 then
    match s.legRoute (queueLeg q) with
    | none => s
    | some (x, h) =>
      if h = 0 then s.launchOn (queueLeg q) x r.deadline r.data
      else s.submit 1 (onyxItem (h % 2 ^ 20) (s.sendLevel (queueLeg q)) r.obj r.deadline r.data (.cipherOut (queueLeg q) port false))
  else
    let s := s.sendFrame port r.data
    if r.kind = 5 ∧ r.start = 1 then s.exportLag (hkey r.obj) r.arrival s.now else s

/-- A port that can begin a frame selects the next packet: none while its link is down (R459). -/
def State.select (s : State) (port : Nat) : State :=
  if !(s.port port).up || !(s.port port).en || !s.mode.isOpen || s.unitDown 9 0 then s
  else
    match State.choose port [7, 6, 5, 4, 3, 2, 1, 0] s with
    | (s, none) => s
    | (s, some (c, q, r)) =>
      let s := s.debitAll port c q (s.headLen port q r)
      match s.readQueue q with
      | (s, some r) => s.depart port q r
      | (s, none) => s

/-- EGRESS_SELECT. -/
def execEgressSelect (port t : Nat) (s : State) : Host.Outcome State Fault Refusal :=
  if s.portOk port then .next ((s.at t).select port) else .fault .noSuchUnit

/-! ### Refills (R456, R460) -/

/-- The egress queue of a host leg, which reaches no port: how many packets it holds. -/
def State.hostLeg (s : State) (q : Nat) : Option Nat :=
  if 0x4000 ≤ q ∧ q < 0x8000 then
    (s.leg (queueLeg q)).bind fun l => if l.kind = 3 then some (((s.queue? q).map fun x => x.recs.length).getD 0) else none
  else none

/-- A shaper number of Table 14.1 that is used, with its port. -/
def shaperPort (n : Nat) : Nat := if n / 16 < 8 then n / 16 else n / 16 + 16

/-- CLASS_SHAPER_REFILL: every 256 CLK_PKT cycles. -/
def execClassShaperRefill (shaper : Nat) (s : State) : Host.Outcome State Fault Refusal :=
  if shaper < 256 ∧ shaper % 16 ≤ 8 then .next (s.setClassShaper shaper ((s.classShaper shaper).refill 256)) else .fault .noSuchUnit

/-! ### Commands (R462 to R469) -/

/-- The declared outgoing wire rate of a queue's owner (R466). -/
def State.declaredRate (s : State) (q : Nat) : Nat :=
  if q < 0x8000 then ((s.leg (queueLeg q)).map fun l => s.outRate (s.cfgAhead (queueLeg q) l.cfg)).getD 0
  else if q < 0xA000 then ((s.vleg (queueLeg q)).map fun l => u32 l.cfg 32).getD 0
  else if q < 0xF000 then ((s.part (okey 6 (q - 0xB000))).map fun p => u32 p.cfg 4).getD 0
  else s.hostRate (q - 0xF000)

/-- The own part of ShaperSet (R453, R462, R466, Table 14.4). -/
def effShaperSet (r : Req) (s : State) : Eff :=
  let p := r.payload
  let q := u16 p 0
  nullTarget r (
  need (((s.queuePort q).isSome || (s.hostLeg q).isSome) && decide (q < 0xF020) && decide (u8 p 2 ≤ 6)) .invalidArg (
  need (zeros p 3 1 && decide (u32 p 4 ≤ s.declaredRate q) && decide (1 ≤ u32 p 8) && decide (u32 p 8 ≤ 16777215) && zeros p 12 4) .invalidArg (
  .later [] 0 ((s.setEgShaper q { s.egShaper q with pend := some (u32 p 4, u32 p 8, u8 p 2) }).schedule (.refill q) (r.origin 0) .applied))))

/-- SHAPER_SET. -/
def execShaperSet (r : Req) (s : State) : Host.Outcome State Fault Refusal :=
  .next (s.command 0x0B10 (· == 16) r (effShaperSet r))

/-- A shaper number that names a class or port shaper of a port there is (R469). -/
def State.shaperOk (s : State) (n : Nat) : Bool := decide (n < 256) && decide (n % 16 ≤ 8) && s.portOk (shaperPort n)

/-- The port egress of the live legs that a class or port shaper governs (R467). -/
def State.governed (s : State) (n : Nat) : Nat :=
  let p := shaperPort n
  ((s.net.queues.filter fun e => decide (e.1 < 0xA000) && s.queuePort e.1 == some p && s.objLive (queueLeg e.1) &&
      (n % 16 == 8 || (s.egShaper e.1).cls == n % 16)).map fun e =>
    match s.obj (queueLeg e.1) with | some o => tget 0 o.cost (bkey 0x000B p) | none => 0).sum

/-- The own part of ClassShaperSet (R463, R467, Table 14.5). -/
def effClassShaperSet (r : Req) (s : State) : Eff :=
  let p := r.payload
  let n := u8 p 0
  let rate := u32 p 4
  nullTarget r (
  need (s.shaperOk n) .invalidArg (
  need (decide (u8 p 1 ≤ 1) && zeros p 2 2 && (decide (rate ≤ 400000000) || rate == unlimited) && decide (1 ≤ u32 p 8) &&
    decide (u32 p 8 ≤ 16777215) && zeros p 12 4) .invalidArg (
  if rate ≠ 0 ∧ rate ≠ unlimited ∧ rate < s.governed n then
    .fail .noBudget (noBudget 0x000B 0 (shaperPort n) (s.governed n) rate)
  else
    .done [] 0 (s.setClassShaper n { s.classShaper n with
      rate := rate, burst := u32 p 8, tokens := if u8 p 1 = 1 then (u32 p 8 : Int) * 65536 else 0 }))))

/-- CLASS_SHAPER_SET. -/
def execClassShaperSet (r : Req) (s : State) : Host.Outcome State Fault Refusal :=
  .next (s.command 0x0B11 (· == 16) r (effClassShaperSet r))

/-- The own part of EgressPortSet (R468, Table 14.6). -/
def effEgressPortSet (r : Req) (s : State) : Eff :=
  let p := r.payload
  let n := u8 p 0
  let overTimes := signed 8 (u8 p 1)
  nullTarget r (
  need (s.portOk n) .invalidArg (
  need (decide (-32 ≤ overTimes)) .invalidArg (
  need (overTimes == (s.port n).overhead || (s.carried n).isEmpty) .wrongState (
  need (decide (u8 p 2 ≤ 6) && zeros p 3 1) .invalidArg (
  .done [] 0 ((s.setEgShaper (hostQueue n) { s.egShaper (hostQueue n) with cls := u8 p 2 }).updPort n fun x => { x with
    overhead := overTimes, hostClass := u8 p 2 }))))))

/-- EGRESS_PORT_SET. -/
def execEgressPortSet (r : Req) (s : State) : Host.Outcome State Fault Refusal :=
  .next (s.command 0x0B12 (· == 4) r (effEgressPortSet r))

/-- The response of ShaperGet (Table 14.7). -/
def Shaper.report (x : Shaper) (leg : Bool) : Bytes :=
  le 4 x.rate ++ le 4 x.burst ++ le 8 (unsigned 64 x.tokens) ++ le 8 x.packets ++ le 4 x.expired ++ le 4 x.skips ++
  le 1 (if leg then x.cls else 0) ++ le 1 (if x.pend.isSome then 1 else 0) ++ le 6 0

/-- The own part of ShaperGet. -/
def effShaperGet (r : Req) (s : State) : Eff :=
  let p := r.payload
  let n := u16 p 2
  nullTarget r (
  need ((u8 p 0 == 1 && ((s.queuePort n).isSome || (s.hostLeg n).isSome)) || (u8 p 0 == 2 && s.shaperOk n)) .invalidArg (
  need (zeros p 1 1) .invalidArg (
  .done ((if u8 p 0 = 1 then s.egShaper n else s.classShaper n).report (u8 p 0 == 1)) 0 s)))

/-- SHAPER_GET. -/
def execShaperGet (r : Req) (s : State) : Host.Outcome State Fault Refusal :=
  .next (s.command 0x0B13 (· == 4) r (effShaperGet r))

end Sys2Proof.Machine
end

