-- ==== Sys2Proof/Machine/Apply.lean ====
section
/-!
DEFINITION. What completed changes do at their boundaries (R47, R116, R795), and the boundaries of video legs.
-/

namespace Sys2Proof.Machine

/-- Items of an object cancelled as it is destroyed, held or reconfigured (R269): their results go nowhere any more. -/
def State.cancelItems (s : State) (key : Nat) (p : Item → Bool) : State :=
  (s.cancelWhere fun i => hkey (dObj i.desc) == key && p i).updWork fun w => { w with released := [] }

/-- An item of a decode. -/
def Item.decodes (i : Item) : Bool := match i.job with | .video k _ _ _ => decide (k ≤ 1) | _ => false

/-- A decode changed; where its store is flushed, its items are cancelled. -/
def State.redecode (s : State) (key : Nat) (f : State → State) : State :=
  let s' := f s
  let had (x : State) : Bool := match x.dec key with | some d => !d.pics.isEmpty | none => false
  if had s && !had s' then s'.cancelItems key Item.decodes else s'

/-- A critical-set entry whose composition or encoding is gone, which Table 3.5 lets destroy, is cleared (DESIGN CHOICE, log
entry 94). -/
def State.leaveCritical (s : State) (key : Nat) : State :=
  s.updTrio fun t => { t with entries := t.entries.filter fun e => e.2.key != key }

/-- A change of the object with a key. -/
def Act.names (key : Nat) : Act → Bool
  | .live k _ | .chain k _ | .codec k _ | .play k _ _ | .stopPlay k | .bind k _ _ _ _ | .unbind k _ | .unplace k _ | .params k _ _
  | .decodeSet k _ | .decodeClear k => k == key
  | .duckSet g _ _ | .duckForce g _ => okey 0x0D g == key
  | .rate i _ => okey 5 i == key
  | .cas i _ _ => okey 9 i == key
  | _ => false

/-- The changes that wait for an object as it goes never take effect, and none of them changes an object that has its index
later. -/
def State.dropActs (s : State) (key : Nat) : State :=
  let s := s.dropWhere fun e => e.act.names key
  { s with sched := s.sched.map fun e => match e.act with | .duckSet g op l => { e with act := .duckSet g op (l.filter (· != key)) } | _ => e }

/-- An object gone at its boundary: what it holds and its index free (R78, R116, Table 3.5). -/
def State.freeObj (s : State) (key : Nat) : State :=
  let i := kidx key
  let s := s.dropActs key
  let s := if [2, 3, 4, 5].contains (ktype key) then s.cancelItems key fun _ => true else s
  match ktype key with
  | 0x01 => { s with audio := { s.audio with sessions := tdel s.audio.sessions i } }.dropObj key
  | 0x02 =>
    let s := (((s.dropTaps key).releaseDue (s.objCost key)).legFree key).dropScheds (· == .refill (0x4000 + i))
    s.updCas fun c => { c with ends := tdel c.ends i }
  | 0x03 => ((s.dropTaps key).vlegFree key).dropScheds (· == .refill (vqueue key))
  | 0x04 => (((s.leaveCritical key).compFree key).dropScheds fun b => b == .frame i).dropObj key
  | 0x05 => (((s.leaveCritical key).encFree key).dropScheds fun b => match b with | .keys e _ => e == i | _ => false).dropObj key
  | 0x06 =>
    let s := (s.partFree key).dropScheds (· == .refill (exportQueue key))
    { s with egress := { s.egress with legs := tdel s.egress.legs (exportQueue key) } }.dropObj key
  | 0x07 => (s.updGarnet fun g => { g with kernels := tdel g.kernels i }).dropObj key
  | 0x09 => ((s.dropPath key).dropScheds (· == .cas i)).dropObj key
  | 0x0C => (s.updMatrix fun m => { m with subs := tdel m.subs i }).dropObj key
  | 0x0D => (s.updMatrix fun m => { m with ducks := tdel m.ducks i }).dropObj key
  | _ => s.dropObj key

/-- An object's media begins or stops (Table 3.4). -/
def State.flowObj (s : State) (key : Nat) (on : Bool) : State :=
  let s := s.updObj key fun o => { o with flow := on, unborn := o.unborn && !on }
  let s := if !on && (ktype key == 2 || ktype key == 3) then s.cancelItems key fun _ => true else s
  match ktype key with
  | 0x02 => s.legFlow key on
  | 0x03 => s.vlegFlow key on
  | 0x05 => s.encFlow key on
  | 0x09 => s.pathFlow key on
  | _ => s

/-- A change in effect. -/
def State.applyAct (s : State) (a : Act) : State :=
  match a with
  | .applied => s
  | .release c => s.releaseDue c
  | .free key => s.freeObj key
  | .live key on => s.flowObj key on
  | .duckSet g op legs =>
    let legs := legs.filter fun k => (s.leg k).isSome
    s.updMatrix fun m => { m with ducks := tupd m.ducks g fun d => legs.foldl (fun d k => d.change op k) d }
  | .duckForce g on => s.updMatrix fun m => { m with ducks := tupd m.ducks g fun d => { d with forced := on } }
  | .chain leg p => s.updLeg leg fun l => { l with chain := p }
  | .codec leg p => s.applyCodec leg p
  | .play leg clip p => s.startPlay leg clip p
  | .stopPlay leg => s.stopPlays leg 2
  | .bind leg slot kernel quanta params => s.applyBind leg slot kernel quanta params
  | .unbind leg slot => s.updLeg leg fun l => l.setBinding slot none
  | .unplace leg n => s.unplace leg n
  | .charge _ c => s.reserve c
  | .join key => s.trunkJoin key
  | .trunkUp id => s.trunkUp id
  | .decodeSet leg p => s.redecode leg fun s => s.applyDecode leg p
  | .decodeClear leg => s.redecode leg fun s => s.clearDecode leg
  | .rate enc p => s.applyRate enc p
  | .memPolicy p => { s with mem := s.mem.setPolicy p }
  | .tapOn part tap => s.tapOn part tap
  | .tapOff part tap => s.tapOff part tap
  | .params leg slot p => s.applyParams leg slot p
  | .cas path ch v => s.setCas path ch v

/-- A scheduled change in effect, with its Applied (R47). -/
def State.applySched (s : State) (e : Sched) : State :=
  let s := s.applyAct e.act
  if e.org.mbx < 5 then s.applied e.org else s

/-- The changes whose boundary has come, in effect order; one of a critical object not before its time (R655). -/
def State.runDue (s : State) (p : Boundary → Bool) : State :=
  let due (e : Sched) : Bool := p e.at_ && decide (e.from_ ≤ s.now)
  (s.sched.filter due).foldl State.applySched { s with sched := s.sched.filter fun e => !due e }

/-- Streams of an encoding have coded the pictures that key-frame requests chose: those commands whose streams all have are
in effect (R352). -/
def State.keysTaken (s : State) (key : Nat) (l : List Nat) : State :=
  let left (e : Sched) : Sched :=
    match e.at_ with
    | .keys i m => if i = kidx key then { e with at_ := .keys i (m.filter fun n => !l.contains n) } else e
    | _ => e
  ({ s with sched := s.sched.map left } : State).runDue (· == Boundary.keys (kidx key) [])

/-! ### Leg shaper refills (R456, R460, R462) -/

/-- The refill of the leg shaper of an egress queue, and the test of its head; that of a host leg drains its queue. -/
def State.refillLeg (s : State) (shaper : Nat) : State :=
  match s.queuePort shaper with
  | some p => (s.setEgShaper shaper ((s.egShaper shaper).refill 65536)).expireHead p shaper
  | none =>
    match s.hostLeg shaper with
    | some n => State.hostLegDrain (queueLeg shaper) n (s.setEgShaper shaper ((s.egShaper shaper).refill 65536))
    | none => s

/-- LEG_SHAPER_REFILL: every 65,536 CLK_PKT cycles; a change that waited for it is in effect (R462). -/
def execLegShaperRefill (shaper : Nat) (s : State) : Host.Outcome State Fault Refusal :=
  .next ((s.refillLeg shaper).runDue (· == .refill shaper))

/-! ### The frame boundary of a video leg (Table 3.5, the text after R384, R320) -/

/-- A picture passes on a video leg: its frame boundary, for what completed before. -/
def State.fireLeg (s : State) (key : Nat) : State :=
  s.runDue fun b => match b with | .leg i since => i == kidx key && decide (since < s.now) | _ => false

/-- A picture of a sending leg begins with a packet that arrived at `t`; `decoded` where it is one of the stream that is decoded: the
effect picture of what completed before its arrival (R320). -/
def State.firePicture (s : State) (key t : Nat) (decoded : Bool) : State :=
  (s.fireLeg key).runDue fun b => match b with | .picture i since => decoded && i == kidx key && decide (since < t) | _ => false

/-- Video legs with a change that waits for their frame boundary. -/
def State.waitingLegs (s : State) : List Nat :=
  (s.sched.filterMap fun e => match e.at_ with | .leg i _ => some (okey 3 i) | _ => none).eraseDups

/-- A step of the media that may begin pictures on receiving legs: the boundary of each such leg comes first. -/
def State.passing (f : State → State) (s : State) : State :=
  let s' := f s
  let begun (k : Nat) : Bool :=
    match s.vleg k, s'.vleg k with
    | some a, some b => !a.sending && a.outTs != b.outTs
    | _, _ => false
  let l := s.waitingLegs.filter begun
  if l.isEmpty then s' else f (l.foldl State.fireLeg s)

/-- The boundaries that a packet of a sending leg makes which begins a picture of it. -/
def State.opens (s : State) (key t : Nat) (d : Bytes) : State :=
  match s.vleg key with
  | some l =>
    if l.sending && s.flows key && u8 d 1 % 128 == u8 l.cfg 18 && s.beginsPicture key d then
      s.firePicture key t (l.place (bfld d 8 4) == some 0)
    else s
  | none => s

/-- A plain packet of a sending leg accepted, after the boundaries it makes. -/
def State.acceptVideo (s : State) (key t : Nat) (d : Bytes) : State :=
  State.passing (fun s => s.videoAccept key t d) (s.opens key t d)

/-- VIDEO_LEG_BOUNDARY_TIMEOUT: 100 ms after completion without a picture (the text after R384). -/
def execVideoLegBoundaryTimeout (leg : Nat) (s : State) : Host.Outcome State Fault Refusal :=
  .next (s.runDue fun b => match b with | .leg i since => i == leg && decide (since + 100000000 ≤ s.now) | _ => false)

end Sys2Proof.Machine
end

