-- ==== Sys2Proof/Machine/Ingress.lean ====
section
/-!
DEFINITION. What comes in: received frames and their classification (R418 to R424), GFP frames, the host transmit ring, and
mirrored packets of a trio.
-/

namespace Sys2Proof.Machine

/-! ### The fields of a frame -/

/-- A frame as the classifier reads it: its tag, its EtherType and what follows. -/
structure Ether where
  tag : Option Nat
  type : Nat
  body : Bytes

/-- The fields of a frame without its FCS. -/
def ether (d : Bytes) : Ether :=
  if bfld d 12 2 = 0x8100 then { tag := some (bfld d 14 2), type := bfld d 16 2, body := d.drop 18 }
  else { tag := none, type := bfld d 12 2, body := d.drop 14 }

/-- A TPID of a tag that is not the C-tag (step 2 of Table 13.1; PRESUMED, IEEE 802.1Q, log entry 57). -/
def otherTag (t : Nat) : Bool := t == 0x88A8 || t == 0x9100 || t == 0x9200

/-- More than one VLAN tag, or one with another TPID. -/
def Ether.oddTags (e : Ether) : Bool := otherTag e.type || (e.tag.isSome && e.type == 0x8100)

/-- An IP packet: family, addresses, its protocol, whether it is one the classifier takes apart, its header sum, and what
follows the header. -/
structure Ip where
  family : Nat
  src : Bytes
  dst : Bytes
  proto : Nat
  plain : Bool
  sumOk : Bool
  body : Bytes
  /-- from the UDP header on, wherever the packet has one -/
  udp : Option Bytes

/-- What an IPv6 packet carries behind its extension headers, where that is UDP; a later fragment carries no UDP header. -/
def udpBehind : Nat → Nat → Bytes → Option Bytes
  | 0, _, _ => none
  | fuel + 1, next, b =>
    if next = 17 then some b
    else if next = 0 ∨ next = 43 ∨ next = 60 then udpBehind fuel (u8 b 0) (b.drop (8 * (u8 b 1 + 1)))
    else if next = 44 ∧ bfld b 2 2 / 8 = 0 then udpBehind fuel (u8 b 0) (b.drop 8)
    else none

/-- The IP packet of a frame (step 6). -/
def Ether.ip (e : Ether) : Ip :=
  let b := e.body
  if e.type = 0x0800 then
    let n := 4 * (u8 b 0 % 16)
    { family := 4, src := (b.drop 12).take 4, dst := (b.drop 16).take 4, proto := u8 b 9,
      plain := n == 20 && bfld b 6 2 % 0x4000 == 0, sumOk := foldSum (wordSum (b.take n)) == 65535,
      body := (b.take (bfld b 2 2)).drop n,
      udp := if u8 b 9 = 17 ∧ bfld b 6 2 % 0x2000 = 0 then some ((b.take (bfld b 2 2)).drop n) else none }
  else
    { family := 6, src := (b.drop 8).take 16, dst := (b.drop 24).take 16, proto := u8 b 6, plain := u8 b 6 == 17, sumOk := true,
      body := (b.drop 40).take (bfld b 4 2), udp := udpBehind 8 (u8 b 6) ((b.drop 40).take (bfld b 4 2)) }

/-- The payload of a UDP datagram. -/
def udpPayload (b : Bytes) : Bytes := (b.take (bfld b 4 2)).drop 8

/-- The UDP payload of an IP packet. -/
def Ip.payload (p : Ip) : Bytes := udpPayload p.body

/-- The UDP checksum of an IP packet is right; 0 is right in IPv4 only (step 7). -/
def Ip.udpOk (p : Ip) : Bool :=
  let n := bfld p.body 4 2
  if bfld p.body 6 2 = 0 then p.family == 4
  else foldSum (wordSum (pseudo p.family p.src p.dst n ++ p.body.take n)) == 65535

/-- A whole UDP datagram. -/
def Ip.isUdp (p : Ip) : Bool := p.proto == 17 && decide (8 ≤ bfld p.body 4 2) && decide (bfld p.body 4 2 ≤ p.body.length)

/-- UDP to port 319 or 320, whatever its IP header (step 4 comes before step 6): its payload. -/
def Ip.ptp (p : Ip) : Option Bytes :=
  p.udp.bind fun b => if bfld b 2 2 = 319 ∨ bfld b 2 2 = 320 then some (udpPayload b) else none

/-! ### Outcomes -/

/-- A frame for the function that the port names, without its FCS (R424). -/
def State.frameToHost (s : State) (port t : Nat) (d : Bytes) : State := s.toHost (s.port port).hostFn 0 port 1 t (d.length + 4) d

/-- A MAC control frame consumed (R419): PFC holds the priorities it names; PAUSE, and PFC where it is off, only count. -/
def State.macControl (s : State) (port : Nat) (b : Bytes) : State :=
  let x := s.port port
  if bfld b 0 2 = 0x0001 then s.portBump port 80 1
  else if bfld b 0 2 ≠ 0x0101 then s
  else
    let s := s.portBump port 72 1
    if !x.pfc then s
    else
      let hold (s : State) (i : Nat) : State :=
        let q := bfld b (4 + 2 * i) 2
        if bfld b 2 2 / 2 ^ i % 2 = 0 then s
        else if q = 0 then s.resume port i
        else s.updPort port fun x => { x with paused := tset x.paused i (s.now + ceilDiv (q * 512 * 1000000) (s.portRate port)) }
      (List.range 8).foldl hold s

/-- A PTP message (R576): of no enabled domain, discarded and counted; Management and Signaling for the host; the others are
Quartz's, by rows of their own. -/
def State.ptpFrameIn (s : State) (port t : Nat) (d m : Bytes) : State :=
  let s := s.portBump port 56 1
  if [0, 1].any fun i => (s.dom i).enabled && (s.dom i).port == port && u8 (s.dom i).cfg 5 == u8 m 4 then
    if ptpType m = 12 ∨ ptpType m = 13 then s.frameToHost port t d else s
  else s.updQuartz fun q => { q with discarded := q.discarded + 1 }

/-- A classification key matches a datagram (step 8): port, VLAN, family, destination address and port. -/
def keyMatches (k : Nat × Nat × Nat × Bytes × Nat) (port vlan family : Nat) (dst : Bytes) (udpPort : Nat) : Bool :=
  k.1 == port && k.2.1 == vlan && k.2.2.1 == family && padTo 16 k.2.2.2.1 == padTo 16 dst && k.2.2.2.2 == udpPort

/-- The leg whose key a datagram matches (step 8). -/
def State.legOf (s : State) (port vlan family : Nat) (dst : Bytes) (udpPort : Nat) : Option Nat :=
  ((s.audio.legs.find? fun e => u8 e.2.cfg 0 == 1 && keyMatches (legKeyOf e.2.cfg) port vlan family dst udpPort).map fun e => okey 2 e.1).or
    ((s.video.legs.find? fun e => keyMatches (videoKeyOf e.2.cfg) port vlan family dst udpPort).map fun e => okey 3 e.1)

/-- A datagram of a leg comes from its remote port + 1, where RTCP is not multiplexed (R199, R377, step 9). -/
def State.fromRtcpPort (s : State) (key sport : Nat) : Bool :=
  if ktype key = 2 then (match s.leg key with | some l => u8 l.cfg 39 % 2 == 0 && sport == (u16 l.cfg 44 + 1) % 65536 | none => false)
  else match s.vleg key with | some l => u8 l.cfg 19 % 2 == 0 && sport == (u16 l.cfg 26 + 1) % 65536 | none => false

/-- The RTCP flag of a leg: RTCP comes on its media port (RFC 5761). -/
def State.muxed (s : State) (key : Nat) : Bool :=
  if ktype key = 2 then (match s.leg key with | some l => u8 l.cfg 39 % 2 == 1 | none => false)
  else match s.vleg key with | some l => u8 l.cfg 19 % 2 == 1 | none => false

/-- RTCP of a leg: an audio leg's as it came, to the host (R199, R475); a video leg's through Onyx where it has a receive key
(R377). -/
def State.rtcpIn (s : State) (key port t : Nat) (d : Bytes) : State :=
  if ktype key = 2 then s.rtcpToHost key port t d
  else
    match s.vleg key with
    | none => s
    | some l =>
      if u32 l.cfg 8 = 0 then s.videoRtcp key t d
      else s.submit 1 (onyxItem (u32 l.cfg 8 % 2 ^ 20) (onyxLevel false true) (s.handle key) 0 d (.cipherIn key t 0 true))

/-- A media packet of a leg (step 11, R421). -/
def State.mediaIn (s : State) (key t n : Nat) (d : Bytes) : State :=
  if ktype key = 2 then s.legMedia key t n d
  else
    match s.vleg key with
    | none => s
    | some l =>
      let here := u32 l.cfg 8 == 0 && decide (n * 1000000000 ≤ l.tokensNow t)
      State.passing (fun s => s.videoMedia key t n d) (if here then s.opens key t d else s)

/-- A packet that is no RTP (step 10), counted against its leg. -/
def State.notRtp (s : State) (key : Nat) : State :=
  if ktype key = 2 then s.updLeg key fun l => { l with stats := { l.stats with refused := l.stats.refused + 1 } }
  else s.updVleg key fun l => l.bump 24 1

/-- A packet of a leg (steps 9 to 11). A follower keeps the packets of ACTIVE critical legs for three blocks (R656, R658). -/
def State.legPacket (s : State) (key port t n : Nat) (onRtcp : Bool) (d : Bytes) : State :=
  let rtcp := onRtcp || (s.muxed key && decide (192 ≤ u8 d 1) && decide (u8 d 1 ≤ 223))
  if rtcp then s.rtcpIn key port t d
  else if u8 d 0 / 64 ≠ 2 then s.notRtp key
  else if s.following && (s.activeEntry key).isSome then
    s.updTrio fun x => { x with standby := x.standby ++ [(s.block, key, t, n, d)] }
  else s.mediaIn key t n d

/-- The steps of Table 13.1 on a frame of `n` bytes, `d` without its FCS. -/
def State.classify (s : State) (port t n : Nat) (d : Bytes) : State :=
  let e := ether d
  if d.take 6 ≠ padTo 6 (s.port port).mac ∧ u8 d 0 % 2 = 0 then s.portBump port 48 1
  else if e.oddTags then s.frameToHost port t d
  else if e.type = 0x8808 then s.macControl port e.body
  else if e.type = 0x88F7 then s.ptpFrameIn port t d e.body
  else if e.type ≠ 0x0800 ∧ e.type ≠ 0x86DD then s.frameToHost port t d
  else
    let p := e.ip
    match p.ptp with
    | some m => s.ptpFrameIn port t d m
    | none =>
    if !p.sumOk then s.portBump port 52 1
    else if !p.plain || !p.isUdp then s.frameToHost port t d
    else if !p.udpOk then s.portBump port 52 1
    else
      let vlan := (e.tag.map (· % 4096)).getD 4096
      match s.legOf port vlan p.family p.dst (bfld p.body 2 2) with
      | none =>
        -- the packets of a leg that has gone are refused, and counted as host refused (R209; DESIGN CHOICE, log entry 97)
        if s.net.gone.any fun k => keyMatches k port vlan p.family p.dst (bfld p.body 2 2) then s.portBump port 64 1
        else s.frameToHost port t d
      | some key => s.legPacket key port t n (s.fromRtcpPort key (bfld p.body 0 2)) p.payload

/-- A frame received whole on an enabled port: checked under R418, then classified. -/
def State.etherIn (s : State) (port t : Nat) (fecOk : Bool) (d : Bytes) : State :=
  let x := s.port port
  if !x.en || !s.mode.isOpen || s.unitDown 7 0 then s
  else if !fecOk then s.portBump port 44 1
  else if d.length < 64 ∨ x.maxFrame < d.length then s.portBump port 36 1
  else if u32 d (d.length - 4) ≠ (fcs (d.take (d.length - 4))).toNat then s.portBump port 32 1
  else ((s.portBump port 0 1).portBump port 16 d.length).classify port t d.length (d.take (d.length - 4))

/-- FRAME_RECEIVE: a frame whose last bit arrives at `t`. -/
def execFrameReceive (port t : Nat) (fecOk : Bool) (data : Bytes) (s : State) : Host.Outcome State Fault Refusal :=
  if s.portOk port then .next ((s.at t).etherIn port t fecOk data) else .fault .noSuchUnit

/-- GFP_FRAME_RECEIVE: a frame of a group that is up, delineated and checked, on as Ethernet on the home lane (R617, R618). -/
def execGfpFrameReceive (group : Nat) (data : Bytes) (s : State) : Host.Outcome State Fault Refusal :=
  if 64 ≤ group then .fault .noSuchUnit
  else
    match tget? s.framer.groups group with
    | none => .next s
    | some g =>
      if !(s.port g.home).up || !s.flows (okey 9 (504 + group)) then .next s
      else
        let (st, k, f, bad) := gfpReceive g.gfp g.scrRx data
        let s := s.updGroup group fun g => { g with gfp := st, scrRx := k, stats := if bad then tset g.stats 36 (tget 0 g.stats 36 + 1) else g.stats }
        match f with
        | none => .next s
        | some f =>
          let r : Rec := { kind := 1, flags := 0, obj := s.handle (okey 9 (504 + group)), arrival := s.now, deadline := 0, start := 0, data := f }
          .next ((s.passQueue (0xB100 + group) r).etherIn g.home s.now true f)

/-! ### The host transmit ring (R425, R449, R452) -/

/-- A record consumed and not sent. -/
def State.hostRefused (s : State) (port : Nat) : State := if s.portOk port then s.portBump port 64 1 else s

/-- A frame the host sends, policed to 1,000,000 frames/s and 2 % of the port's rate, put in the port's queue for host-sent
frames (R425, R452). -/
def State.hostFrame (s : State) (port : Nat) (d : Bytes) : State :=
  let pol := s.net.policeOut.at s.now
  let out := if s.net.policeOut.second = pol.second then s.net.portOut else []
  let f := withFcs d
  let len := f.length
  let n := tget 0 out port + len
  if 1000000 ≤ pol.frames ∨ s.portRate port * 5 / 2 < n then s.hostRefused port
  else
    let s := s.updNet fun x => { x with policeOut := { pol with frames := pol.frames + 1, bytes := pol.bytes + len }, portOut := tset out port n }
    let r : Rec := { kind := 1, flags := 0, obj := 0, arrival := s.now, deadline := 0, start := 0, data := f }
    (s.firmwareQueue (hostQueue port)).writeQueue (hostQueue port) r false

/-- RTCP the host sends for a leg of its own: the leg's headers on its RTCP port (Table 13.6). -/
def State.hostRtcp (s : State) (fn key : Nat) (d : Bytes) : State :=
  let mine : Bool := match s.obj key with | some o => o.owner == fn | none => false
  let route := if ktype key = 2 ∧ ((s.leg key).map (·.kind)) ≠ some 1 then none else s.legRoute key
  match route with
  | none => s
  | some (x, _) =>
    if !mine then s.hostRefused x.port
    else
      match s.frameFor (x.rtcp (s.muxed key)) d with
      | some f => s.hostFrame x.port (f.take (f.length - 4))
      | none => s.portBump x.port 68 1

/-- One transmit record checked and taken (R449). -/
def State.hostRecord (s : State) (fn : Nat) (r : Bytes) : State :=
  let h := s.hring fn 1
  let len := u16 r 4
  let port := u8 r 6
  let d := (r.drop 32).take len
  if h.slotSize < 32 + len ∨ 9216 < len then s.hostRefused port
  else
    let s := s.passQueue (0xB301 + 2 * fn)
      { kind := u8 r 7, flags := 0, obj := u32 r 0, arrival := 0, deadline := 0, start := 0, data := d }
    match s.checkHandle (u32 r 0) [2, 3], u8 r 7 with
    | _, 1 => if s.portOk port && (s.port port).en then s.hostFrame port d else s.hostRefused port
    | .ok key, 2 =>
      match s.leg key, s.obj key with
      | some l, some o => if l.kind = 3 ∧ o.owner = fn then s.legMedia key s.now d.length d else s.hostRefused port
      | _, _ => s.hostRefused port
    | .ok key, 3 => s.hostRtcp fn key d
    | _, _ => s.hostRefused port

/-- The tail of the host transmit ring written: the records up to it are taken (R448, R449, R753). -/
def State.hptTail (s : State) (fn tail : Nat) (recs : List Bytes) : State :=
  let h := s.hring fn 1
  let n := 2 ^ h.log2n
  if !h.en || decide (n ≤ tail) || !s.mode.isOpen then s
  else
    let k := (tail + n - h.tail) % n
    if k = 0 then s
    else
      let s := s.setHring fn 1 { h with head := tail, tail := tail }
      ((recs.take k).foldl (fun s r => s.hostRecord fn r) s).msix fn 3

/-- HOST_TRANSMIT_DOORBELL: `recs` are the slots from the old tail on. -/
def execHostTransmitDoorbell (fn tail : Nat) (recs : List Bytes) (s : State) : Host.Outcome State Fault Refusal :=
  if 4 ≤ fn then .fault .noSuchUnit else .next (s.hptTail fn tail recs)

/-! ### Mirrored packets -/

/-- A critical packet placed where the leader's decision places it, or a key-frame request (R656 to R659). -/
def State.takeMirror (link : Nat) (s : State) (src _ : Nat) (p : Bytes) : State :=
  match tget? s.trio.entries (bfld p 0 2) with
  | none => s
  | some e =>
    let b := bfld p 4 8
    let d := p.drop 20
    if !s.following || src != s.trio.leader then s.blpDiscard link
    else if u8 p 2 = 2 then
      if ktype e.key = 5 then s.requestAt e.key (bfld p 12 4) (bfld p 16 4) false
      else s.updVleg e.key fun l => { l with lastReq := some s.now, fir := if bfld p 16 4 = 2 then l.fir + 1 else l.fir }
    else if ktype e.key = 2 then
      let s := if b < s.block then s.lateItem e.key else s
      s.legAccept e.key s.now (some (96 * b + bfld p 12 4)) d
    else s.acceptVideo e.key s.now d

/-- MIRROR: a critical packet placed where the leader's decision places it, or a key-frame request. -/
def execMirror (link : Nat) (data : Bytes) (s : State) : Host.Outcome State Fault Refusal :=
  if 4 ≤ link then .fault .noSuchUnit
  else .next (s.blpIn link 8 data (State.takeMirror link))

end Sys2Proof.Machine
end

