-- ==== Sys2Proof/Machine/Delta.lean ====
section
/-!
DEFINITION. DELTA frames, which carry the changes of critical objects to followers (R655, R659), and every BLP frame by its type once Onyx has
opened it as a work item.
-/

namespace Sys2Proof.Machine

/-! ### DELTA (R655, R659) -/

/-- The duck group that a change of its members names: the lowest that has the leg already. -/
def State.duckOf (s : State) (key : Nat) : Nat :=
  match s.matrix.ducks.find? fun e => (e.2.members ++ e.2.triggers).contains key with
  | some (g, _) => s.handle (okey 0x0D g)
  | none => 0

/-- The own part of a change command as a follower makes it: `key` is the object of the DELTA's entry. -/
def State.deltaOwn (s : State) (key op : Nat) (p : Bytes) : Option (State → Eff) :=
  let r (h : Nat) : Req := { mbx := 5, flags := 0, target := BitVec.ofNat 32 h, tag := 0, payload := p }
  let t := r (s.handle key)
  match op with
  | 0x0202 => some (effLegEnable t)
  | 0x0203 => some (effLegHold t)
  | 0x0204 => some (effLegChainSet t)
  | 0x0205 => some (effLegCodecSet t)
  | 0x0206 => some (effLegToneStart t)
  | 0x0207 => some (effLegToneStop t)
  | 0x0208 => some (effLegPlay t)
  | 0x0300 => some (effNodeSet (r 0))
  | 0x0301 => some (effNodeSetBulkData { r 0 with payload := p.take 24 } (p.drop 24))
  | 0x0302 => some (effNodeFade (r 0))
  | 0x0309 => some (effDuckMemberSet (r (s.duckOf key)))
  | 0x0402 => some (effVideoLegEnable t)
  | 0x0403 => some (effVideoLegHold t)
  | 0x0404 => some (effForwardSet t)
  | 0x0405 => some (effForwardTargetSet t)
  | 0x0420 => some (effDecodeSet t)
  | 0x0421 => some (effDecodeClear t)
  | 0x0502 => some (effCompositionEnable t)
  | 0x0503 => some (effCompositionHold t)
  | 0x0504 => some (effPlaneSet t)
  | 0x0505 => some (effCompositionCommit t)
  | 0x0602 => some (effEncodingEnable t)
  | 0x0603 => some (effEncodingHold t)
  | 0x0604 => some (effEncodingRateSet t)
  | 0x0D02 => some (effKernelBind t)
  | 0x0D03 => some (effKernelUnbind t)
  | 0x0D04 => some (effKernelParamSet t)
  | _ => none

/-- A change of the leader made on this device, to take effect at its boundary from the start of block `b` on. One that comes
too late for its block is counted as a mirrored item is (R659). -/
def State.takeDelta (s : State) (key op b : Nat) (p : Bytes) : State :=
  let s := if b ≤ s.block then s.lateItem key else s
  let s1 := s.updTrio fun t => { t with effectAt := some (b * blockNs) }
  match (s.deltaOwn key op p).map fun (own : State → Eff) => own s1 with
  | some (.done _ _ s2) => s2.clearEffect
  | some (.later _ _ s2) => s2.clearEffect
  | _ => s

/-- A configuration digest of a device (opcode 0, R653), or a change that the leader has accepted. -/
def State.takeDeltaFrame (link : Nat) (s : State) (src _ : Nat) (p : Bytes) : State :=
  let entry := bfld p 8 2
  match tget? s.trio.entries entry with
  | none => s
  | some e =>
    if bfld p 10 2 = 0 then s.noteConfig entry src (BitVec.ofNat 64 (bfld p 12 8))
    else if !s.following || src != s.trio.leader then s.blpDiscard link
    else s.takeDelta e.key (bfld p 10 2) (bfld p 0 8) (p.drop 12)

/-- DELTA: a configuration digest of a device (opcode 0, R653), or a change that the leader has accepted. -/
def execDelta (link : Nat) (data : Bytes) (s : State) : Host.Outcome State Fault Refusal :=
  if 4 ≤ link then .fault .noSuchUnit
  else .next (s.blpIn link 9 data (State.takeDeltaFrame link))

/-! ### Frames that waited for Onyx -/

/-- A frame of a type that arrived on a link at `t` taken (Table 20.7, Table 21.1). -/
def State.takeFrame (link kind t : Nat) : State → Nat → Nat → Bytes → State :=
  match kind with
  | 1 => State.takeHello link
  | 2 => State.takeHeartbeat link
  | 3 => State.takeTime link t
  | 4 => State.takeControl link
  | 5 => State.takeTrunk link
  | 8 => State.takeMirror link
  | 9 => State.takeDeltaFrame link
  | 10 => State.takeDigest
  | 11 => State.takeEndorse
  | 12 => State.takeSnapshot
  | _ => fun s _ _ _ => s

end Sys2Proof.Machine
end

