-- ==== Sys2Proof/Machine/Engines.lean ====
section
/-!
DEFINITION. Work items as the engines run them (R253 to R276), engine faults and their ends (R86 to R91), and taking an
instance out of service (R273 to R285).
-/

namespace Sys2Proof.Machine

/-! ### What an item does -/

/-- The key context of an Onyx item: its flow less one. -/
def dCtx (d : Bytes) : Nat := u16 d 2 - 1

/-- The data of an item replaced. -/
def State.setItemData (s : State) (id : Nat) (d : Bytes) : State :=
  s.updWork fun w => { w with items := w.items.map fun i => if i.id = id then { i with data := d } else i }

/-- An item begins to run on an instance: Onyx processes a packet under its context, its shares refreshed from the core's DRBG (R498); a
packet that fails leaves no data (R482 to R491), and a core whose DRBG has stopped processes none (R502). -/
def State.startJob (s : State) (inst : Nat) (i : Item) : State :=
  let runOn (fresh : State → State) (f : State → State × Option Bytes) : State :=
    if s.onyx.stopped.getLsbD inst then s.setItemData i.id []
    else
      let (s, d) := f (fresh s)
      s.setItemData i.id (d.getD [])
  let run := runOn fun s => s.refreshShares inst (dCtx i.desc)
  let link? (dir link : Nat) := runOn fun s => s.linkShares inst link dir
  match i.job with
  | .cipherIn _ _ _ rtcp => run fun s => if rtcp then s.openRtcp (dCtx i.desc) i.data else s.openRtp (dCtx i.desc) i.data
  | .linkIn link _ _ => link? 0 link fun s =>
    let (s, p) := s.openLink link i.data
    (s, p.map fun p => i.data.take 32 ++ p)
  | .linkOut link cls kind src dst hops block => link? 1 link fun s => s.sealLink link cls kind src dst hops block i.data
  | .cipherOut _ _ rtcp => run fun s => if rtcp then s.protectRtcp (dCtx i.desc) i.data else s.protectRtp (dCtx i.desc) i.data
  | _ => s

/-- A packet that Onyx has opened, on to its leg (R421). -/
def State.opened (s : State) (key arrival : Nat) (rtcp : Bool) (d : Bytes) : State :=
  if ktype key = 2 then s.legAccept key arrival none d
  else if rtcp then s.videoRtcp key arrival d
  else if s.videoLate key arrival then s.refuseLate key
  else s.acceptVideo key arrival d

/-- A packet that Onyx has protected, on to its port; one that could no longer depart within its bound is discarded (R122). -/
def State.sealed_ (s : State) (key port deadline : Nat) (d : Bytes) : State :=
  let s := s.notePacket key d
  match s.legRoute key with
  | some (x, _) =>
    if deadline != 0 && decide (deadline < s.now + s.sendTime port (s.shapedLen port (x.frameLen d.length))) then s.countExpired (outQueue key)
    else s.launchOn key { x with port := port } deadline d
  | none => s

/-- What the end of an item does to the rest of the block, once its record is released. -/
def State.jobDone (s : State) (i : Item) (st res : Nat) : State :=
  match i.job with
  | .none => s
  | .chain key k => if st = 0 then s.legChain key k res else s
  | .cipherIn key arrival _ rtcp => if st = 0 ∧ i.data ≠ [] then s.opened key arrival rtcp i.data else s
  | .linkIn link kind t =>
    (if st = 0 ∧ i.data ≠ [] then s.blpRoute link kind i.data (i.data.drop 32) (State.takeFrame link kind t) else s).serveLink link false
  | .linkOut link _ kind _ _ _ _ =>
    (if st = 0 ∧ i.data ≠ [] ∧ (s.blp link).st ≠ 0 then s.emitLink link kind i.data else s).serveLink link true
  | .cipherOut key port _ => if st = 0 ∧ i.data ≠ [] then s.sealed_ key port (dDeadline i.desc) i.data else s
  | .video stage obj p n =>
    if stage = 0 then s.agateEnd (okey 3 obj) p n st res
    else if stage = 1 then s.jasperEnd (okey 3 obj) p n st res i.data
    else if stage = 2 then s.opalItemEnd (okey 4 obj) p n st res
    else State.passing (fun s => s.encItemEnd obj stage p n st i.data) s

/-- The released items passed on, in order of release (R264). -/
def State.settle (s : State) : State :=
  s.work.released.foldl (fun s i =>
    match i.st with
    | .ended st res => s.jobDone i st res
    | _ => s) (s.updWork fun w => { w with released := [] })

/-- WORK_DISPATCH (R253, R256). A dispatcher that is being reset hands out nothing. -/
def execWorkDispatch (kind inst : Nat) (s : State) : Host.Outcome State Fault Refusal :=
  if !unitOk kind inst then .fault .noSuchUnit
  else if s.unitDown 0x0A 0 then .next s
  else
    match s.dispatch kind inst with
    | (s, some i) => .next (s.startJob inst i)
    | (s, none) => .next s

/-- The instance that runs an item. -/
def Item.runsOn (i : Item) : Option (Nat × Nat) :=
  match i.st with
  | .running n => some (dKind i.desc, if dKind i.desc = 1 then dCore i.desc else n)
  | _ => none

/-- A draining instance whose last item has ended is DISABLED (R276, R285). -/
def State.drainEnd (s : State) (kind inst : Nat) : State :=
  if (s.inst kind inst).st == .draining && (s.running kind inst).isEmpty then
    (s.updInst kind inst fun i => { i with st := .disabled }).drained kind inst
  else s

/-- An item given a result by its engine. -/
def Item.resultFrom (i : Item) : Bool := match i.job with | .none => true | .video stage _ _ _ => stage == 3 | _ => false

/-- ITEM_COMPLETE: a running item ends DONE, with an error, or CANCELLED where a cancel has marked it (Tables 8.6 and 8.7). On an Onyx core
whose DRBG has stopped every item ends with ENGINE_ERROR (R502). -/
def execItemComplete (id : Nat) (error : Bool) (result : Nat) (data : Bytes) (s : State) : Host.Outcome State Fault Refusal :=
  match s.work.items.find? fun i => i.id == id with
  | none => .next s
  | some i =>
    match i.runsOn with
    | none => .next s
    | some (kind, inst) =>
      let st := if kind == 6 && s.onyx.stopped.getLsbD inst then 5 else if i.marked then 1 else if error then 5 else 0
      let s := if i.resultFrom then s.setItemData id data else s
      let s := if st = 0 then s.agateWrote i else s
      .next ((s.endWhere (fun x => x.id == id) st (result % 2 ^ 32)).settle.drainEnd kind inst)

/-- ITEM_DEADLINE_EXPIRY (R257). -/
def execItemDeadlineExpiry (id : Nat) (s : State) : Host.Outcome State Fault Refusal :=
  match s.work.items.find? fun i => i.id == id with
  | none => .next s
  | some i => if dDeadline i.desc = 0 then .next s else .next (((s.at (dDeadline i.desc)).expireItem id).settle)

/-- WORK_CANCEL: by item ID, or by handle every item of the object (R269). -/
def execWorkCancel (byHandle : Bool) (x : Nat) (s : State) : Host.Outcome State Fault Refusal :=
  .next ((s.cancelWhere fun i => if byHandle then dObj i.desc == x else i.id == x).settle)

/-! ### The bounds of items (R299, R345, R404, R496) -/

/-- The nominal time of an item in ns. -/
def State.nominal (s : State) (i : Item) : Nat :=
  match i.job with
  | .video stage obj p n =>
    if stage = 0 then ceilDiv (8 * i.data.length * 5) 3
    else if stage = 1 then
      match (s.dec (okey 3 obj)).bind fun d => d.slice p n with
      | some (_, x) => 2 * (256 * (x.unit.runs.map (·.2)).sum)
      | none => 0
    else if stage = 2 then
      match s.comp (okey 4 obj) with
      | some c => ceilDiv (5 * ((if c.sub then min 512 (c.w - 512 * (n % 8)) else c.w) * (c.bottom (n / 8) - c.top (n / 8)))) 3
      | none => 0
    else if stage = 3 then
      match s.enc (okey 5 (obj / 4)), ((s.enc (okey 5 (obj / 4))).bind (·.streams[obj % 4]?)).bind fun x => s.comp x.comp with
      | some e, some c => 8 * (256 * (rowsIn e.codec c.h e.n n * rowBlocks e.codec c.w))
      | _, _ => 0
    else ceilDiv (s.codedBits (okey 5 (obj / 4)) (obj % 4) p n * 5) 3
  | _ => 200 + ceilDiv (8 * i.data.length) 100

/-- The bound of an item in ns: 20 µs and twice its nominal time. -/
def State.itemBound (s : State) (i : Item) : Nat := if dKind i.desc = 1 then Config.garnetBound else 20000 + 2 * s.nominal i

/-! ### Engine faults (R86 to R91) -/

/-- The instances of an engine kind (Tables 1.1 and 3.8). -/
def engineCount (k : Nat) : Nat :=
  if k = 0x0C then 4 else if k = 0x0E then 8 else if kindCount k ≠ 0 then kindCount k else if 1 ≤ k ∧ k ≤ 0x10 then 1 else 0

/-- Drops counted against objects, one for each listing. -/
def State.countDrops (s : State) (keys : List Nat) : State :=
  { s with objCtr := keys.foldl (fun c k => tset c (k * 8 + 4) (tget 0 c (k * 8 + 4) + 1)) s.objCtr }

/-- The object a queue serves. -/
def queueOwner (q : Nat) : Option Nat :=
  if q < 0x4000 then some (okey 2 q)
  else if q < 0x8000 then some (okey 2 (q - 0x4000))
  else if q < 0xA000 then some (okey 3 (q - 0x8000))
  else if q < 0xB000 then some (okey 5 ((q - 0xA000) / 4))
  else if q < 0xB010 then some (okey 6 (q - 0xB000))
  else if 0xB100 ≤ q ∧ q < 0xB140 then some (okey 9 (504 + q - 0xB100))
  else none

/-- The media items that a faulted instance held, dropped and counted (R88): the state, how many, and their objects. -/
def State.faultDrop (s : State) (kind inst : Nat) : State × Nat × List Nat :=
  if kindCount kind ≠ 0 ∨ kind = 0x0A then
    let p (i : Item) : Bool := if kind = 0x0A then i.st == .queued else i.heldBy (instList kind inst) (instNo kind inst)
    let hit := s.work.items.filter p
    ((s.endWhere p 4 0).settle, hit.length, hit.map fun i => hkey (dObj i.desc))
  else if kind = 2 then
    let keys := if s.matrix.mixing then (s.audio.legs.map fun e => okey 2 e.1).filter s.flows else []
    (((s.updMatrix fun m => { m with mixing := false, down := true, outMix := if m.mixing then [] else m.outMix }).countDrops keys), keys.length, keys)
  else if kind = 8 then
    let full := s.net.queues.filter fun e => !e.2.recs.isEmpty
    let keys := full.flatMap fun e => match queueOwner e.1 with | some k => e.2.recs.map fun _ => k | none => []
    ((full.foldl (fun s e => s.emptyQueue e.1) s).countDrops keys, (full.map fun e => e.2.recs.length).sum, keys)
  else if kind = 0x0B then
    let keys := s.framer.e1.flatMap fun e => e.2.slip.map fun _ => okey 9 e.1
    (({ s with framer := { s.framer with e1 := tmap s.framer.e1 fun _ x => { x with slip := [] } } }).countDrops keys, keys.length, keys)
  else if kind = 0x0D then
    let keys := s.recorder.parts.flatMap fun e => e.2.ingest.map fun _ => okey 6 e.1
    (s.recorderFault.countDrops keys, keys.length, keys)
  else if kind = 0x0E ∨ kind = 0x0F then
    let mine (c : Nat) : Bool := if kind = 0x0E then c == inst else decide (8 ≤ c)
    (s.updMem fun m => { m with
      rows := m.rows.filter fun e => !mine (e.1 / 1024)
      ranks := m.ranks.map fun e => if mine (e.1 / 4) then (e.1, { e.2 with owed := 0, burst := false }) else e }, 0, [])
  else (s, 0, [])

/-- The affected objects of some: they, and the compositions that show an affected video leg, each once (R94, Table 3.10). -/
def State.affected (s : State) (keys : List Nat) : List Nat :=
  let shows (c : Comp) : Bool := c.planes.any fun p => fetches p && ktype (plSrc p) == 3 && keys.contains (plSrc p)
  ((keys ++ (s.video.comps.filter fun e => shows e.2).map fun e => okey 4 e.1).eraseDups.filter s.objLive).mergeSort (· ≤ ·)

/-- The FaultNotice of an engine fault for one mailbox (Table 3.7, R94). -/
def State.faultNotice (s : State) (f kind inst cause flags items aborted : Nat) (keys : List Nat) : Bytes :=
  let mine := keys.filter fun k => match s.obj k with | some o => o.owner == f | none => false
  let all := decide (256 < mine.length)
  let mask := if all then ((mine.map fun k => 2 ^ ktype k).eraseDups).sum else 0
  le 1 1 ++ le 1 kind ++ le 2 inst ++ le 2 cause ++ le 1 (flags + if all then 2 else 0) ++ le 1 0 ++ le 8 s.block ++ le 4 items ++ le 4 aborted ++
  le 2 (if all then 0 else mine.length) ++ le 2 mask ++ (if all then [] else mine.flatMap fun k => le 4 (s.handle k))

/-- What a command that waits for other devices has begun, given up with it. -/
def State.giveUp (s : State) (f : Nat) : State :=
  match (s.mb f).flight with
  | some x =>
    if x.wait ≠ .formation then s
    else if x.op = 0x0903 then s.failTrunk (u32 x.resp 0) .aborted []
    else if x.op = 0x0A06 then { s with trio := { s.trio with rejoin := none } }.answer f fun _ _ => .fail .aborted []
    else s.failForming .aborted []
  | none => s

/-- Every command taken and not completed ends ABORTED (R86): how many; a slot that failed at its checks keeps its own status
and is not counted. The fence of a SystemReset that has been answered and waits for an NVM word stands (R67). -/
def State.abortEvery (s : State) : State × Nat :=
  let n := ([0, 1, 2, 3, 4].map fun f => (s.mb f).open).sum
  let t := [0, 1, 2, 3, 4].foldl (fun s f => (s.giveUp f).abortAll f) s
  (t.keepFences fun x => x.begun && !(s.mb x.mbx).draining, n)

/-- The times of an instance's faults within the last 60 s, this one first. -/
def State.faultTimes (s : State) (kind inst : Nat) : List Nat :=
  s.now :: (s.inst kind inst).faults.filter fun t => decide (s.now < t + 60000000000)

/-- An engine fault (R86 to R91, R98): held items dropped, the commands in progress at the instance completed with the abort status of
R98 (those that come later run on the state the fault left, log entry 8), the notices, and at the third fault within 60 s
retirement, with shedding where the load no longer fits; a trio device whose critical set does not fit leaves (R665). -/
def State.engineFault (s : State) (kind inst cause : Nat) : State :=
  if !s.serving then s
  else
    let times := s.faultTimes kind inst
    let retired := decide (3 ≤ times.length)
    let (s, items, keys) := s.faultDrop kind inst
    let (s, aborted) := s.abortEvery
    let s := s.updInst kind inst fun i => { i with
      faults := times, down := true, st := if retired then .retired else i.st, drainBy := if retired then none else i.drainBy }
    let keys := s.affected keys
    let s := [0, 1, 2, 3, 4].foldl (fun s f => s.notice f (s.faultNotice f kind inst cause (if retired then 1 else 0) items aborted keys)) s
    if !retired then s
    else
      let s := s.shedToFit
      if s.trio.id ≠ 0 ∧ s.used.any (fun e => s.overBudget e.1) then s.trioOut else s

/-- ENGINE_FAULT. -/
def execEngineFault (kind inst cause : Nat) (s : State) : Host.Outcome State Fault Refusal :=
  if inst < engineCount kind then .next (s.engineFault kind inst (cause % 65536)) else .fault .noSuchUnit

/-- ITEM_TIMEOUT: an item past its bound is an engine fault with cause 0x0003. -/
def execItemTimeout (id : Nat) (s : State) : Host.Outcome State Fault Refusal :=
  match s.work.items.find? fun i => i.id == id with
  | none => .next s
  | some i =>
    match i.runsOn with
    | none => .next s
    | some (kind, inst) => .next ((s.at (i.started + s.itemBound i)).engineFault kind inst 3)

/-- The state of a binding zeroed, with KernelFault and cause STATE_RESET (R242). -/
def State.stateReset (s : State) (key slot : Nat) : State :=
  match (s.leg key).bind (·.binding slot) with
  | none => s
  | some b =>
    (s.updLeg key fun l => l.setBinding slot (some { b with data := List.replicate b.data.length 0, overTimes := none })).raise key 0xFD00
      (le 4 (s.handle (okey 7 b.kernel)) ++ le 1 slot ++ le 1 4 ++ le 1 (if b.suspended then 1 else 0) ++ le 1 0 ++ le 4 0 ++ le 4 0 ++ le 8 s.block)

/-- Gain tiles that hold poisoned words rewritten from their DDR5 shadow, whole (R171, R677). -/
def State.rewriteTiles (s : State) : State :=
  s.matrix.count.foldl (fun s e =>
    let a := 0x100000000000 + e.1 * 8192
    if (s.mem.pieces a 8192).any fun p => (s.mem.suspects p).any fun l => (s.mem.found p.chan l).1 != 0 then s.memWrite a 8192 else s) s

/-- A faulted instance back in service (R90): a draining one is DISABLED now, a retired one stays out. -/
def State.instanceReturn (s : State) (kind inst : Nat) : State :=
  if (s.inst kind inst).st = .retired then s
  else
    let s := s.updInst kind inst fun i => { i with down := false }
    let s := if kind = 1 then
        (s.audio.legs.filter fun e => e.2.core == inst).foldl (fun s e => (s.stateReset (okey 2 e.1) 1).stateReset (okey 2 e.1) 2) s
      else if kind = 2 then s.rewriteTiles.updMatrix fun m => { m with plane := m.shadow, down := false }
      else s
    s.drainEnd kind inst

/-- INSTANCE_RETURN. -/
def execInstanceReturn (kind inst : Nat) (s : State) : Host.Outcome State Fault Refusal :=
  if inst < engineCount kind then
    (if (s.inst kind inst).down then .next (s.instanceReturn kind inst) else .next s)
  else .fault .noSuchUnit

/-! ### DispatchDisable (R274 to R278) -/

/-- The budget of an engine kind (Table 8.8). -/
def kindBudget : Nat → Nat
  | 3 => 4 | 4 => 3 | k => k

/-- The frame period in ns of an item's stream or composition (Table 8.9). -/
def State.itemPeriod (s : State) (i : Item) : Nat :=
  let key := hkey (dObj i.desc)
  let ofComp (k : Nat) : Nat := ((s.comp k).map fun c => ceilDiv c.period 6).getD 0
  let ofEnc (k n : Nat) : Nat := (((s.enc k).bind (·.streams[n]?)).map fun x => ofComp x.comp).getD 0
  let ofLeg (k : Nat) : Nat := match s.dec k with | some d => ceilDiv 1000000000000 (u32 d.cfg 8) | none => Config.streamPeriod k
  match ktype key with
  | 4 => ofComp key
  | 5 => ofEnc key (match i.job with | .video _ obj _ _ => obj % 4 | _ => 0)
  | _ =>
    match (s.vleg key).bind (·.source) with
    | some k => if ktype k = 5 then ofEnc k 0 else ofLeg k
    | none => ofLeg key

/-- The drain bound of one running item in ns (Table 8.9). -/
def State.drainOf (s : State) (i : Item) : Nat :=
  if 12 ≤ dLevel i.desc then blockNs else if 8 ≤ dLevel i.desc then s.itemPeriod i else s.itemBound i

/-- The drain bound in µs, rounded up: the longest of those of the running items at the highest level (R276). -/
def State.drainBound (s : State) (l : List Item) : Nat :=
  let top := l.foldl (fun m i => max m (dLevel i.desc)) 0
  ceilDiv ((l.filter fun i => dLevel i.desc == top).foldl (fun m i => max m (s.drainOf i)) 0) 1000

/-- The response of a forced disable: the items discarded and their objects, each once (Table 8.13). -/
def discardedList (l : List Item) : Bytes :=
  let hs := (l.map fun i => dObj i.desc).eraseDups
  le 4 0 ++ le 2 l.length ++ le 2 hs.length ++ hs.flatMap (le 4)

/-- The own part of DispatchDisable; the instance is DISABLED after the response where nothing runs on it any more. A running
item that a cancel has marked ends CANCELLED at a forced disable (R272, Table 8.7). -/
def effDispatchDisable (r : Req) (s : State) : Eff :=
  let p := r.payload
  let k := u8 p 0
  let i := u16 p 2
  nullTarget r (
  need (unitOk k i) .invalidArg (
  need (s.inService || s.mode == .maintenance) .wrongState (
  need ((s.inst k i).st == .enabled) .wrongState (
  need (!(k == 1 && s.audio.legs.any fun e => e.2.core == i)) .wrongState (
  need ((u8 p 1 == 1 || u8 p 1 == 2) && zeros p 4 4) .invalidArg (
  let s1 := s.updInst k i fun x => { x with st := .draining, drainBy := some r.mbx }
  let b := kindBudget k
  let used := tget 0 s.used (bkey b 0)
  if s1.ceiling b 0 < used then .fail .noBudget (noBudget b 0 0 used (s1.ceiling b 0))
  else if u8 p 1 = 1 then
    let run := s.running k i
    let s2 := match s.staged k i with | some x => (s1.setItem x.id .queued).updWork fun w => w.noteDepth (instList k i) | none => s1
    .done (le 4 (s.drainBound run) ++ le 2 0 ++ le 2 0) 0 s2
  else
    let held (x : Item) : Bool := x.heldBy (instList k i) (instNo k i)
    let kept (x : Item) : Bool := held x && !x.marked
    .done (discardedList (s.work.items.filter kept)) 0 ((s1.endWhere (fun x => held x && x.marked) 1 0).endWhere kept 3 0)))))))

/-- DISPATCH_DISABLE: InstanceDrained follows the response where nothing is left to drain. -/
def execDispatchDisable (r : Req) (s : State) : Host.Outcome State Fault Refusal :=
  let k := u8 r.payload 0
  let i := u16 r.payload 2
  let t := s.command 0x0F50 (· == 8) r (effDispatchDisable r)
  .next (if (s.inst k i).st == .enabled && (t.inst k i).st == .draining then t.settle.drainEnd k i else t)

/-- DRAIN_BOUND_EXPIRY: an engine fault, and the instance is DISABLED unless it retires (R277). -/
def execDrainBoundExpiry (kind inst : Nat) (s : State) : Host.Outcome State Fault Refusal :=
  if !unitOk kind inst then .fault .noSuchUnit
  else if (s.inst kind inst).st ≠ .draining then .next s
  else
    let s := s.engineFault kind inst 3
    if (s.inst kind inst).st = .draining then .next ((s.updInst kind inst fun i => { i with st := .disabled }).drained kind inst)
    else .next s

end Sys2Proof.Machine
end

