-- ==== Sys2Proof/Machine/Block.lean ====
section
/-!
DEFINITION. The triggers of the time unit (R587): the block start, the end of the mix, frame boundaries and line frames.
-/

namespace Sys2Proof.Machine

/-! ### The mix (Table 5.2) -/

/-- The mix of the previous block ends: outputs, meters, the write application phase, trunk signals and taps (R142, R644). -/
def State.mixEnd (s : State) : State :=
  if !s.matrix.mixing || s.matrix.down then s
  else
    let s := s.at (s.block * blockNs + tMix s.matrix.count.length)
    let s := (s.mixBlock.applyPhase s.block).updMatrix fun m => { m with mixing := false }
    s.trunkSend.tapOutputs.endBursts

/-- MIX_END. -/
def execMixEnd (s : State) : Host.Outcome State Fault Refusal := .next s.mixEnd

/-! ### Commands that wait for room (R147) -/

/-- The handles of a bulk node set's entries. -/
def bulkNames (d : Bytes) (n : Nat) : List Nat := (List.range n).flatMap fun i => [u32 d (12 * i), u32 d (12 * i + 4)]

/-- The own part of a command that waits for room in the write queue, run again, and the handles it names. -/
def Flight.again (x : Flight) : Option (List Nat × (State → Eff)) :=
  let r := x.req
  let names := namedHandles x.op r.payload r.tgt
  match x.op with
  | 0x0300 => some (names, effNodeSet r)
  | 0x0301 => some (bulkNames x.resp (u32 r.payload 0), effNodeSetBulkData r x.resp)
  | 0x0302 => some (names, effNodeFade r)
  | 0x0110 => some (names, effSessionMixSet r)
  | 0x0200 => some (names, effLegCreate r)
  | 0x0201 => some (names, effLegDestroy r)
  | 0x0902 => some (names, effCascadeLeave r)
  | 0x0904 => some (names, effTrunkDestroy r)
  | _ => none

/-- A mailbox whose command waits for room tries again at a block start. -/
def State.retryRoom (s : State) (f : Nat) : State :=
  match (s.mb f).flight with
  | none => s
  | some x =>
    if x.wait ≠ .room then s
    else
      match x.again with
      | none => s
      | some (names, own) => ((s.updMb f fun m => { m with flight := none }).judge x.op x.req names own).settleTaken f

/-! ### The block start -/

/-- The banks swap and Beryl begins to mix the block just captured (R134, R142). -/
def State.swapBanks (s : State) : State :=
  s.updMatrix fun m => { m with
    outRead := m.outMix, outMix := [], inRead := m.inWrite, inWrite := [], poisonRead := m.poisonWrite, poisonWrite := [], mixing := !m.down }

/-- A boundary that a block start brings: blocks up to `n`, and the line frame that begins with it. -/
def dueAtBlock (n : Nat) (b : Boundary) : Bool :=
  match b with
  | .block k => decide (k ≤ n)
  | .line => true
  | _ => false

/-- The firmware's sign of life on every function (R50). -/
def State.beat (s : State) : State :=
  if s.mode.isOpen then [0, 1, 2, 3, 4].foldl (fun s f => s.updMb f fun m => { m with heartbeat := m.heartbeat + 1 }) s else s

/-- The leg chain items of the block submitted for every leg whose media flows (R184); a trunk leg's comes with its signal (R644). -/
def State.submitChains (s : State) : State :=
  (s.audio.legs.filter fun e => s.flows (okey 2 e.1) && !e.2.trunk).foldl (fun s e => s.chainItem (okey 2 e.1) s.block) s

/-- Everything that falls due at the start of block `n`, time standing there. -/
def State.blockWork (s : State) (n : Nat) : State :=
  let s := ((s.swapBanks.runDue (dueAtBlock n)).duckBlock s.duckCalls).framerBlock.cascadeBlock
  let (s, bad) := s.trioBlock.relayBlock.recorderBlock.trackRead.tileFetch
  let s := if bad = [] || !s.matrix.mixing then s else s.engineFault 2 0 2
  let s := s.powerBlock.beat.adaptLanes
  let s := [0, 1, 2, 3, 4].foldl (fun s f => (s.retryRoom f).takeMore f) s
  s.submitChains.tellCaptures

/-- The next block start (R587, R588, Table 18.5); the running block's own where a step has set the counter to it. -/
def State.blockStart (s : State) : State :=
  if s.mode == .reset || s.mode == .halt then s
  else if s.quartz.due then
    ({ s.mixEnd with now := s.block * blockNs, nowFrac := 0 }.updQuartz fun q => { q with due := false }).blockWork s.block
  else
    { s.mixEnd with now := (s.block + 1) * blockNs, nowFrac := 0 }.blockWork (s.block + 1)

/-- BLOCK_START. -/
def execBlockStart (s : State) : Host.Outcome State Fault Refusal := .next s.blockStart

/-! ### Frame boundaries -/

/-- The compositions whose changes a frame boundary of `key` brings: its own, and the first of each encoding it feeds. -/
def State.framesAt (s : State) (key : Nat) : List Nat :=
  kidx key :: (s.video.encs.filterMap fun e =>
    if e.2.streams.any fun x => x.comp == key then (e.2.streams.head?).map fun x => kidx x.comp else none)

/-- A frame boundary of a composition (R387, R412): what waited for it, its planes and picture, and the streams it feeds. -/
def State.frameBoundary (s : State) (comp : Nat) : State :=
  let key := okey 4 comp
  match s.comp key with
  | none => s
  | some c =>
    let n := c.next
    let s := s.at (ceilDiv (c.boundary n) 6)
    let due := s.framesAt key
    -- a commit whose boundary is that of the destroy never takes effect (R409)
    let gone := s.sched.any fun e => e.at_ == Boundary.frame comp && e.act == .free key && decide (e.from_ ≤ s.now)
    let s := if gone then s.dropWhere fun e => e.at_ == Boundary.frame comp && e.act == .applied else s
    let s := s.runDue fun b => match b with | .frame i => due.contains i | _ => false
    let s := s.compFrame key n
    match s.comp key with
    | none => s
    | some c => (s.fedBy key).foldl (fun s e =>
        let asked (x : State) : Bool := match (x.enc e.1).bind (·.streams[e.2]?) with | some y => y.req | none => false
        let s' := s.encBoundary e.1 e.2 c n
        if asked s && !asked s' then s'.keysTaken e.1 [e.2] else s') s

/-- FRAME_BOUNDARY. -/
def execFrameBoundary (comp : Nat) (s : State) : Host.Outcome State Fault Refusal :=
  if 512 ≤ comp then .fault .noSuchUnit else .next (s.frameBoundary comp)

/-! ### Line frames -/

/-- The first sample waiting in a timeslot replaced by the idle byte: a critical TDM leg sends nothing without the lease
(R667). -/
def State.muteTdm (s : State) : State :=
  (s.audio.legs.filter fun e => u8 e.2.cfg 0 == 2 && !s.mayTransmit (okey 2 e.1)).foldl (fun s e =>
    s.updE1 (u32 e.2.cfg 24 % 2 ^ 20) fun p => { p with
      tx := tupd p.tx (u8 e.2.cfg 28) fun l => if l.isEmpty then l else BitVec.ofNat 8 p.idle :: l.drop 1 }) s

/-- LINE_FRAME: changes that wait for a line frame or its CAS multiframe take effect, then the frame is received and sent (R595 to R615). -/
def execLineFrame (lane t : Nat) (rx : LineRx) (s : State) : Host.Outcome State Fault Refusal :=
  if lane < 24 ∨ 32 ≤ lane then .fault .noSuchUnit
  else if s.unitDown 0x0B 0 then .next s
  else
    let s := s.at t
    let due (b : Boundary) : Bool := match b with | .line => true | .cas i => s.casStarts lane i | _ => false
    .next (((s.runDue due).muteTdm).lineFrame lane rx)

end Sys2Proof.Machine
end

