-- ==== Sys2Proof/Machine/Dma.lean ====
section
/-!
DEFINITION. The ends of a command's DMA (R51 to R53, R797, R798).
-/

namespace Sys2Proof.Machine

/-! ### DMA reads (R52, R797) -/

/-- The failing request with the lowest host address. -/
def lowestFail : List (Nat × DmaFail) → Option (Nat × DmaFail)
  | [] => none
  | e :: r =>
    match lowestFail r with
    | some x => if e.1 ≤ x.1 then some e else some x
    | none => some e

/-- The status that a failed DMA gives its command (R52, R798). -/
def dmaStatus (l : List (Nat × DmaFail)) : Status :=
  match lowestFail l with
  | some (_, .refused) => .denied
  | _ => .timeout

/-- The length of the data a command reads. -/
def dmaLen (x : Flight) : Nat :=
  let p := x.req.payload
  match x.op with
  | 0x0209 => u32 p 12
  | 0x0301 => u32 p 16
  | 0x0D00 => u32 p 8
  | 0x0F12 => u32 p 12
  | _ => 0

/-- What a command does with the data it has read, and the handles the data name. -/
def dmaOwn (x : Flight) (d : Bytes) : Option (List Nat × (State → Eff)) :=
  let r := x.req
  match x.op with
  | 0x0209 => some ([], effClipLoadData r d)
  | 0x0301 => some (bulkNames d (u32 r.payload 0), effNodeSetBulkData r d)
  | 0x0D00 => some ([], effKernelLoadData r d)
  | 0x0F12 => some ([], effFirmwareSlotWriteData r d)
  | _ => none

/-- The DMA reads of mailbox `f`'s command have ended: the data are checked and the command goes on, or it ends with TIMEOUT
or DENIED. A DELTA of a bulk command carries its data behind its header. -/
def State.readEnd (s : State) (f : Nat) (res : DmaResult) : State :=
  match (s.mb f).flight with
  | none => s
  | some x =>
    if x.wait ≠ .read then s
    else
      match res with
      | .failed l => s.endFlight f fun _ _ => .fail (dmaStatus l) []
      | .data b =>
        let d := (padTo (dmaLen x) b).take (dmaLen x)
        match dmaOwn x d with
        | none => s
        | some (names, own) =>
          let r := if x.op = 0x0301 then { x.req with payload := x.req.payload ++ d } else x.req
          ((s.updMb f fun m => { m with flight := none }).judge x.op r names own).settleTaken f

/-- DMA_READ_DONE. -/
def execDmaReadDone (mbx : Nat) (res : DmaResult) (s : State) : Host.Outcome State Fault Refusal :=
  if 5 ≤ mbx then .fault .noSuchUnit else .next (s.readEnd mbx res)

/-! ### The readback after a DMA write (R798) -/

/-- The response of a command that wrote host memory: RecorderRead's carries the write position at its end as well (R532). -/
def State.writeResp (s : State) (x : Flight) : Bytes :=
  if x.op = 0x0709 then
    match s.part (hkey x.req.tgt) with
    | some p => x.resp.take 8 ++ le 8 p.write
    | none => x.resp
  else x.resp

/-- The readback of mailbox `f`'s command has ended. -/
def State.writeEnd (s : State) (f : Nat) (res : DmaResult) : State :=
  match (s.mb f).flight with
  | none => s
  | some x =>
    if x.wait ≠ .write then s
    else
      match res with
      | .failed l => s.endFlight f fun _ _ => .fail (dmaStatus l) []
      | .data _ => s.endFlight f fun x s => .done (s.writeResp x) x.req.tgt s

/-- DMA_WRITE_READBACK_DONE. -/
def execDmaWriteReadbackDone (mbx : Nat) (res : DmaResult) (s : State) : Host.Outcome State Fault Refusal :=
  if 5 ≤ mbx then .fault .noSuchUnit else .next (s.writeEnd mbx res)

end Sys2Proof.Machine
end

