-- ==== Sys2Proof/Machine/Dispatch.lean ====
section
/-!
DEFINITION. One arm per command: each a direct call of its meaning.
-/

namespace Sys2Proof.Machine

/-- What a command does to everything but the queue. -/
def exec (i : Instr) (s : State) : Host.Outcome State Fault Refusal :=
  match i with
  | .echo r => Sys2Proof.Machine.execEcho r s
  | .sysIdentify r => Sys2Proof.Machine.execSysIdentify r s
  | .sysModeGet r => Sys2Proof.Machine.execSysModeGet r s
  | .systemReset r => Sys2Proof.Machine.execSystemReset r s
  | .mediaRestart r => Sys2Proof.Machine.execMediaRestart r s
  | .mediaRestartDone => Sys2Proof.Machine.execMediaRestartDone s
  | .eventMaskSet r => Sys2Proof.Machine.execEventMaskSet r s
  | .sysStatsGet r => Sys2Proof.Machine.execSysStatsGet r s
  | .mbxCmdTailDoorbell fn tail slots => Sys2Proof.Machine.execMbxCmdTailDoorbell fn tail slots s
  | .fenceRelease mbx => Sys2Proof.Machine.execFenceRelease mbx s
  | .mbxRspHeadWrite fn head => Sys2Proof.Machine.execMbxRspHeadWrite fn head s
  | .mbxEvtHeadWrite fn head => Sys2Proof.Machine.execMbxEvtHeadWrite fn head s
  | .cmdRingEnable fn => Sys2Proof.Machine.execCmdRingEnable fn s
  | .cmdRingDisable fn => Sys2Proof.Machine.execCmdRingDisable fn s
  | .rspRingEnable fn => Sys2Proof.Machine.execRspRingEnable fn s
  | .rspRingDisable fn => Sys2Proof.Machine.execRspRingDisable fn s
  | .evtRingEnable fn => Sys2Proof.Machine.execEvtRingEnable fn s
  | .evtRingDisable fn => Sys2Proof.Machine.execEvtRingDisable fn s
  | .pcieHotReset fn => Sys2Proof.Machine.execPcieHotReset fn s
  | .dmaReadDone mbx res => Sys2Proof.Machine.execDmaReadDone mbx res s
  | .dmaWriteReadbackDone mbx res => Sys2Proof.Machine.execDmaWriteReadbackDone mbx res s
  | .registerWrite fn offset data => Sys2Proof.Machine.execRegisterWrite fn offset data s
  | .rcRegisterRead fn offset => Sys2Proof.Machine.execRcRegisterRead fn offset s
  | .engineFault kind inst cause => Sys2Proof.Machine.execEngineFault kind inst cause s
  | .instanceReturn kind inst => Sys2Proof.Machine.execInstanceReturn kind inst s
  | .itemTimeout id => Sys2Proof.Machine.execItemTimeout id s
  | .budgetGet r => Sys2Proof.Machine.execBudgetGet r s
  | .shedClassEscalation => Sys2Proof.Machine.execShedClassEscalation s
  | .blockStart => Sys2Proof.Machine.execBlockStart s
  | .mixEnd => Sys2Proof.Machine.execMixEnd s
  | .nodeSet r => Sys2Proof.Machine.execNodeSet r s
  | .nodeSetBulk r => Sys2Proof.Machine.execNodeSetBulk r s
  | .nodeFade r => Sys2Proof.Machine.execNodeFade r s
  | .nodeGet r => Sys2Proof.Machine.execNodeGet r s
  | .matrixTileMapGet r => Sys2Proof.Machine.execMatrixTileMapGet r s
  | .meterSubscribe r => Sys2Proof.Machine.execMeterSubscribe r s
  | .meterUnsubscribe r => Sys2Proof.Machine.execMeterUnsubscribe r s
  | .meterReport sub => Sys2Proof.Machine.execMeterReport sub s
  | .duckGroupCreate r => Sys2Proof.Machine.execDuckGroupCreate r s
  | .duckGroupDestroy r => Sys2Proof.Machine.execDuckGroupDestroy r s
  | .duckMemberSet r => Sys2Proof.Machine.execDuckMemberSet r s
  | .duckForce r => Sys2Proof.Machine.execDuckForce r s
  | .duckHangExpiry group => Sys2Proof.Machine.execDuckHangExpiry group s
  | .matrixStatsGet r => Sys2Proof.Machine.execMatrixStatsGet r s
  | .sessionMixSet r => Sys2Proof.Machine.execSessionMixSet r s
  | .sessionCreate r => Sys2Proof.Machine.execSessionCreate r s
  | .sessionDestroy r => Sys2Proof.Machine.execSessionDestroy r s
  | .legCreate r => Sys2Proof.Machine.execLegCreate r s
  | .legDestroy r => Sys2Proof.Machine.execLegDestroy r s
  | .legEnable r => Sys2Proof.Machine.execLegEnable r s
  | .legHold r => Sys2Proof.Machine.execLegHold r s
  | .legChainSet r => Sys2Proof.Machine.execLegChainSet r s
  | .legCodecSet r => Sys2Proof.Machine.execLegCodecSet r s
  | .legToneStart r => Sys2Proof.Machine.execLegToneStart r s
  | .legToneStop r => Sys2Proof.Machine.execLegToneStop r s
  | .legPlay r => Sys2Proof.Machine.execLegPlay r s
  | .playDone leg => Sys2Proof.Machine.execPlayDone leg s
  | .clipLoad r => Sys2Proof.Machine.execClipLoad r s
  | .clipFree r => Sys2Proof.Machine.execClipFree r s
  | .legStatsGet r => Sys2Proof.Machine.execLegStatsGet r s
  | .vadHangExpiry leg => Sys2Proof.Machine.execVadHangExpiry leg s
  | .concealmentEnd leg => Sys2Proof.Machine.execConcealmentEnd leg s
  | .mediaTimeout key => Sys2Proof.Machine.execMediaTimeout key s
  | .kernelLoad r => Sys2Proof.Machine.execKernelLoad r s
  | .kernelUnload r => Sys2Proof.Machine.execKernelUnload r s
  | .kernelBind r => Sys2Proof.Machine.execKernelBind r s
  | .kernelUnbind r => Sys2Proof.Machine.execKernelUnbind r s
  | .kernelParamSet r => Sys2Proof.Machine.execKernelParamSet r s
  | .kernelStatsGet r => Sys2Proof.Machine.execKernelStatsGet r s
  | .cyclesException leg slot => Sys2Proof.Machine.execCyclesException leg slot s
  | .workSubmit source desc => Sys2Proof.Machine.execWorkSubmit source desc s
  | .workDispatch kind inst => Sys2Proof.Machine.execWorkDispatch kind inst s
  | .itemComplete id error result data => Sys2Proof.Machine.execItemComplete id error result data s
  | .itemDeadlineExpiry id => Sys2Proof.Machine.execItemDeadlineExpiry id s
  | .workCancel byHandle x => Sys2Proof.Machine.execWorkCancel byHandle x s
  | .submissionResume source kind => Sys2Proof.Machine.execSubmissionResume source kind s
  | .dispatchDisable r => Sys2Proof.Machine.execDispatchDisable r s
  | .dispatchEnable r => Sys2Proof.Machine.execDispatchEnable r s
  | .dispatchStatsGet r => Sys2Proof.Machine.execDispatchStatsGet r s
  | .drainBoundExpiry kind inst => Sys2Proof.Machine.execDrainBoundExpiry kind inst s
  | .decodeSet r => Sys2Proof.Machine.execDecodeSet r s
  | .decodeClear r => Sys2Proof.Machine.execDecodeClear r s
  | .keyFrameRequest r => Sys2Proof.Machine.execKeyFrameRequest r s
  | .decodeStatsGet r => Sys2Proof.Machine.execDecodeStatsGet r s
  | .decodeStartTimeout leg => Sys2Proof.Machine.execDecodeStartTimeout leg s
  | .keyFrameRequestDeferred leg => Sys2Proof.Machine.execKeyFrameRequestDeferred leg s
  | .firEscalation leg => Sys2Proof.Machine.execFirEscalation leg s
  | .encodingCreate r => Sys2Proof.Machine.execEncodingCreate r s
  | .encodingDestroy r => Sys2Proof.Machine.execEncodingDestroy r s
  | .encodingEnable r => Sys2Proof.Machine.execEncodingEnable r s
  | .encodingHold r => Sys2Proof.Machine.execEncodingHold r s
  | .encodingRateSet r => Sys2Proof.Machine.execEncodingRateSet r s
  | .encodingKeyFrame r => Sys2Proof.Machine.execEncodingKeyFrame r s
  | .encodingStatsGet r => Sys2Proof.Machine.execEncodingStatsGet r s
  | .frameBoundary comp => Sys2Proof.Machine.execFrameBoundary comp s
  | .compositeSliceStart comp k => Sys2Proof.Machine.execCompositeSliceStart comp k s
  | .compositionCreate r => Sys2Proof.Machine.execCompositionCreate r s
  | .compositionDestroy r => Sys2Proof.Machine.execCompositionDestroy r s
  | .compositionEnable r => Sys2Proof.Machine.execCompositionEnable r s
  | .compositionHold r => Sys2Proof.Machine.execCompositionHold r s
  | .planeSet r => Sys2Proof.Machine.execPlaneSet r s
  | .compositionCommit r => Sys2Proof.Machine.execCompositionCommit r s
  | .planeGet r => Sys2Proof.Machine.execPlaneGet r s
  | .compositionStatsGet r => Sys2Proof.Machine.execCompositionStatsGet r s
  | .opalScalerTableGet r => Sys2Proof.Machine.execOpalScalerTableGet r s
  | .videoLegCreate r => Sys2Proof.Machine.execVideoLegCreate r s
  | .videoLegDestroy r => Sys2Proof.Machine.execVideoLegDestroy r s
  | .videoLegEnable r => Sys2Proof.Machine.execVideoLegEnable r s
  | .videoLegHold r => Sys2Proof.Machine.execVideoLegHold r s
  | .videoLegBoundaryTimeout leg => Sys2Proof.Machine.execVideoLegBoundaryTimeout leg s
  | .forwardSet r => Sys2Proof.Machine.execForwardSet r s
  | .forwardTargetSet r => Sys2Proof.Machine.execForwardTargetSet r s
  | .videoLegStatsGet r => Sys2Proof.Machine.execVideoLegStatsGet r s
  | .layerRecompute => Sys2Proof.Machine.execLayerRecompute s
  | .frameReceive port t fecOk data => Sys2Proof.Machine.execFrameReceive port t fecOk data s
  | .pauseExpiry port prio => Sys2Proof.Machine.execPauseExpiry port prio s
  | .linkStateChange port up => Sys2Proof.Machine.execLinkStateChange port up s
  | .queueWriteResume queue => Sys2Proof.Machine.execQueueWriteResume queue s
  | .pfcRefresh port prio => Sys2Proof.Machine.execPfcRefresh port prio s
  | .staleTailTimeout queue => Sys2Proof.Machine.execStaleTailTimeout queue s
  | .hostTransmitDoorbell fn tail recs => Sys2Proof.Machine.execHostTransmitDoorbell fn tail recs s
  | .hostReceiveHeadWrite fn head => Sys2Proof.Machine.execHostReceiveHeadWrite fn head s
  | .netGroupSet r => Sys2Proof.Machine.execNetGroupSet r s
  | .portSet r => Sys2Proof.Machine.execPortSet r s
  | .neighbourSet r => Sys2Proof.Machine.execNeighbourSet r s
  | .hostRingSet r => Sys2Proof.Machine.execHostRingSet r s
  | .queueNoticeSet r => Sys2Proof.Machine.execQueueNoticeSet r s
  | .queueStatsGet r => Sys2Proof.Machine.execQueueStatsGet r s
  | .portStatsGet r => Sys2Proof.Machine.execPortStatsGet r s
  | .egressSelect port t => Sys2Proof.Machine.execEgressSelect port t s
  | .legShaperRefill shaper => Sys2Proof.Machine.execLegShaperRefill shaper s
  | .classShaperRefill shaper => Sys2Proof.Machine.execClassShaperRefill shaper s
  | .shaperSet r => Sys2Proof.Machine.execShaperSet r s
  | .classShaperSet r => Sys2Proof.Machine.execClassShaperSet r s
  | .egressPortSet r => Sys2Proof.Machine.execEgressPortSet r s
  | .shaperGet r => Sys2Proof.Machine.execShaperGet r s
  | .keyLoad r => Sys2Proof.Machine.execKeyLoad r s
  | .keyDestroy r => Sys2Proof.Machine.execKeyDestroy r s
  | .keyUpdate r => Sys2Proof.Machine.execKeyUpdate r s
  | .keyStatsGet r => Sys2Proof.Machine.execKeyStatsGet r s
  | .linkKeyLoad r => Sys2Proof.Machine.execLinkKeyLoad r s
  | .keySystemGet r => Sys2Proof.Machine.execKeySystemGet r s
  | .entropyHealthFail test => Sys2Proof.Machine.execEntropyHealthFail test s
  | .entropyRecovered => Sys2Proof.Machine.execEntropyRecovered s
  | .drbgExhausted inst => Sys2Proof.Machine.execDrbgExhausted inst s
  | .partitionCreate r => Sys2Proof.Machine.execPartitionCreate r s
  | .partitionDestroy r => Sys2Proof.Machine.execPartitionDestroy r s
  | .partitionEnable r => Sys2Proof.Machine.execPartitionEnable r s
  | .partitionHold r => Sys2Proof.Machine.execPartitionHold r s
  | .tapSet r => Sys2Proof.Machine.execTapSet r s
  | .exportSet r => Sys2Proof.Machine.execExportSet r s
  | .exportAck r => Sys2Proof.Machine.execExportAck r s
  | .freezeSet r => Sys2Proof.Machine.execFreezeSet r s
  | .freezeRelease r => Sys2Proof.Machine.execFreezeRelease r s
  | .recorderRead r => Sys2Proof.Machine.execRecorderRead r s
  | .partitionStatsGet r => Sys2Proof.Machine.execPartitionStatsGet r s
  | .recorderSurvivorsGet r => Sys2Proof.Machine.execRecorderSurvivorsGet r s
  | .partitionAdopt r => Sys2Proof.Machine.execPartitionAdopt r s
  | .recordWrite part => Sys2Proof.Machine.execRecordWrite part s
  | .pictureCopyTimeout part => Sys2Proof.Machine.execPictureCopyTimeout part s
  | .freezeEnd part range => Sys2Proof.Machine.execFreezeEnd part range s
  | .exportWrite part => Sys2Proof.Machine.execExportWrite part s
  | .memLayoutSet r => Sys2Proof.Machine.execMemLayoutSet r s
  | .memPolicySet r => Sys2Proof.Machine.execMemPolicySet r s
  | .memStatusGet r => Sys2Proof.Machine.execMemStatusGet r s
  | .refreshDue chan rank => Sys2Proof.Machine.execRefreshDue chan rank s
  | .realtimeBurstEnd chan rank => Sys2Proof.Machine.execRealtimeBurstEnd chan rank s
  | .calibrationWindowStart chan => Sys2Proof.Machine.execCalibrationWindowStart chan s
  | .calibrationWindowEnd chan => Sys2Proof.Machine.execCalibrationWindowEnd chan s
  | .pageIdleTimeout chan bank => Sys2Proof.Machine.execPageIdleTimeout chan bank s
  | .dramTemperatureRead temps => Sys2Proof.Machine.execDramTemperatureRead temps s
  | .correctedWriteBack chan loc => Sys2Proof.Machine.execCorrectedWriteBack chan loc s
  | .scrubStep chan errs => Sys2Proof.Machine.execScrubStep chan errs s
  | .timeDomainSet r => Sys2Proof.Machine.execTimeDomainSet r s
  | .timeServoSet r => Sys2Proof.Machine.execTimeServoSet r s
  | .timeSelect r => Sys2Proof.Machine.execTimeSelect r s
  | .timeStep r => Sys2Proof.Machine.execTimeStep r s
  | .timeStatusGet r => Sys2Proof.Machine.execTimeStatusGet r s
  | .timeCaptureSet r => Sys2Proof.Machine.execTimeCaptureSet r s
  | .ptpAnnounceReceive dom t msg => Sys2Proof.Machine.execPtpAnnounceReceive dom t msg s
  | .ptpSyncReceive dom t msg => Sys2Proof.Machine.execPtpSyncReceive dom t msg s
  | .ptpDelayResponseReceive dom t msg => Sys2Proof.Machine.execPtpDelayResponseReceive dom t msg s
  | .ptpPdelayReqReceive port t msg => Sys2Proof.Machine.execPtpPdelayReqReceive port t msg s
  | .ptpDelayReqSend dom t => Sys2Proof.Machine.execPtpDelayReqSend dom t s
  | .domainLossTimeout dom => Sys2Proof.Machine.execDomainLossTimeout dom s
  | .timeSnapTake => Sys2Proof.Machine.execTimeSnapTake s
  | .timePulseArm pulse => Sys2Proof.Machine.execTimePulseArm pulse s
  | .timePulseStop pulse => Sys2Proof.Machine.execTimePulseStop pulse s
  | .pulseEdge pulse => Sys2Proof.Machine.execPulseEdge pulse s
  | .tsInEdge pin t rising => Sys2Proof.Machine.execTsInEdge pin t rising s
  | .lineCreate r => Sys2Proof.Machine.execLineCreate r s
  | .e1PathCreate r => Sys2Proof.Machine.execE1PathCreate r s
  | .vcatGroupCreate r => Sys2Proof.Machine.execVcatGroupCreate r s
  | .pathDestroy r => Sys2Proof.Machine.execPathDestroy r s
  | .pathEnable r => Sys2Proof.Machine.execPathEnable r s
  | .pathHold r => Sys2Proof.Machine.execPathHold r s
  | .mspSet r => Sys2Proof.Machine.execMspSet r s
  | .mspCommand r => Sys2Proof.Machine.execMspCommand r s
  | .casSet r => Sys2Proof.Machine.execCasSet r s
  | .framerStatusGet r => Sys2Proof.Machine.execFramerStatusGet r s
  | .lineFrame lane t rx => Sys2Proof.Machine.execLineFrame lane t rx s
  | .losDeclare lane => Sys2Proof.Machine.execLosDeclare lane s
  | .lofDeclare lane => Sys2Proof.Machine.execLofDeclare lane s
  | .lofClear lane => Sys2Proof.Machine.execLofClear lane s
  | .crc4MultiframeTimeout path => Sys2Proof.Machine.execCrc4MultiframeTimeout path s
  | .crc4AutoFallback path => Sys2Proof.Machine.execCrc4AutoFallback path s
  | .fopDeclare pair => Sys2Proof.Machine.execFopDeclare pair s
  | .waitToRestoreExpiry pair => Sys2Proof.Machine.execWaitToRestoreExpiry pair s
  | .gfpFrameReceive group data => Sys2Proof.Machine.execGfpFrameReceive group data s
  | .enumerate frame => Sys2Proof.Machine.execEnumerate frame s
  | .windowWrite frame => Sys2Proof.Machine.execWindowWrite frame s
  | .windowRead frame => Sys2Proof.Machine.execWindowRead frame s
  | .doorbellGo frame => Sys2Proof.Machine.execDoorbellGo frame s
  | .doorbellAck frame => Sys2Proof.Machine.execDoorbellAck frame s
  | .poll frame => Sys2Proof.Machine.execPoll frame s
  | .statusRead frame => Sys2Proof.Machine.execStatusRead frame s
  | .chainResetCold frame => Sys2Proof.Machine.execChainResetCold frame s
  | .chainResetWarm frame => Sys2Proof.Machine.execChainResetWarm frame s
  | .cascadeJoin r => Sys2Proof.Machine.execCascadeJoin r s
  | .cascadeForm r => Sys2Proof.Machine.execCascadeForm r s
  | .formationTimeout => Sys2Proof.Machine.execFormationTimeout s
  | .cascadeLeave r => Sys2Proof.Machine.execCascadeLeave r s
  | .trunkCreate r => Sys2Proof.Machine.execTrunkCreate r s
  | .trunkDestroy r => Sys2Proof.Machine.execTrunkDestroy r s
  | .sessionPlace r => Sys2Proof.Machine.execSessionPlace r s
  | .sessionUnplace r => Sys2Proof.Machine.execSessionUnplace r s
  | .cascadeStatusGet r => Sys2Proof.Machine.execCascadeStatusGet r s
  | .directoryGet r => Sys2Proof.Machine.execDirectoryGet r s
  | .linkLock link => Sys2Proof.Machine.execLinkLock link s
  | .hello link data => Sys2Proof.Machine.execHello link data s
  | .heartbeat link data => Sys2Proof.Machine.execHeartbeat link data s
  | .time link t data => Sys2Proof.Machine.execTime link t data s
  | .control link data => Sys2Proof.Machine.execControl link data s
  | .trunk link data => Sys2Proof.Machine.execTrunk link data s
  | .linkSilenceTimeout link => Sys2Proof.Machine.execLinkSilenceTimeout link s
  | .masterLost peer => Sys2Proof.Machine.execMasterLost peer s
  | .spanningCommandRollback => Sys2Proof.Machine.execSpanningCommandRollback s
  | .trunkArrivalDeadline trunk => Sys2Proof.Machine.execTrunkArrivalDeadline trunk s
  | .trioJoin r => Sys2Proof.Machine.execTrioJoin r s
  | .trioForm r => Sys2Proof.Machine.execTrioForm r s
  | .trioLeave r => Sys2Proof.Machine.execTrioLeave r s
  | .trioCriticalSet r => Sys2Proof.Machine.execTrioCriticalSet r s
  | .trioHandover r => Sys2Proof.Machine.execTrioHandover r s
  | .trioRevertSet r => Sys2Proof.Machine.execTrioRevertSet r s
  | .trioRejoin r => Sys2Proof.Machine.execTrioRejoin r s
  | .trioStatusGet r => Sys2Proof.Machine.execTrioStatusGet r s
  | .mirror link data => Sys2Proof.Machine.execMirror link data s
  | .delta link data => Sys2Proof.Machine.execDelta link data s
  | .digest link data => Sys2Proof.Machine.execDigest link data s
  | .endorse link data => Sys2Proof.Machine.execEndorse link data s
  | .snapshot link data => Sys2Proof.Machine.execSnapshot link data s
  | .vote => Sys2Proof.Machine.execVote s
  | .leaseExpiry => Sys2Proof.Machine.execLeaseExpiry s
  | .crcClaim fn u => Sys2Proof.Machine.execCrcClaim fn u s
  | .crcRelease fn u => Sys2Proof.Machine.execCrcRelease fn u s
  | .crcStart fn u => Sys2Proof.Machine.execCrcStart fn u s
  | .crcData fn u data => Sys2Proof.Machine.execCrcData fn u data s
  | .crcDmaGo fn u => Sys2Proof.Machine.execCrcDmaGo fn u s
  | .crcDmaDone u res => Sys2Proof.Machine.execCrcDmaDone u res s
  | .powerClassSet r => Sys2Proof.Machine.execPowerClassSet r s
  | .thermalSet r => Sys2Proof.Machine.execThermalSet r s
  | .powerStatusGet r => Sys2Proof.Machine.execPowerStatusGet r s
  | .nvmStatusGet r => Sys2Proof.Machine.execNvmStatusGet r s
  | .powerSample w => Sys2Proof.Machine.execPowerSample w s
  | .currentSample phases => Sys2Proof.Machine.execCurrentSample phases s
  | .overCurrentFault phase decamp => Sys2Proof.Machine.execOverCurrentFault phase decamp s
  | .avsUpdate target => Sys2Proof.Machine.execAvsUpdate target s
  | .temperatureSample temps => Sys2Proof.Machine.execTemperatureSample temps s
  | .aonTemperatureSample temp => Sys2Proof.Machine.execAonTemperatureSample temp s
  | .tripCooldownExpiry => Sys2Proof.Machine.execTripCooldownExpiry s
  | .shedExit => Sys2Proof.Machine.execShedExit s
  | .refclk25Loss => Sys2Proof.Machine.execRefclk25Loss s
  | .rootPllUnlock => Sys2Proof.Machine.execRootPllUnlock s
  | .serdesRefclkLoss => Sys2Proof.Machine.execSerdesRefclkLoss s
  | .pcieRefclkLoss => Sys2Proof.Machine.execPcieRefclkLoss s
  | .rootPllLock => Sys2Proof.Machine.execRootPllLock s
  | .railPowerGood rail => Sys2Proof.Machine.execRailPowerGood rail s
  | .railSequenceStep => Sys2Proof.Machine.execRailSequenceStep s
  | .powerGoodTimeout => Sys2Proof.Machine.execPowerGoodTimeout s
  | .railRetry => Sys2Proof.Machine.execRailRetry s
  | .powerGoodFall rail => Sys2Proof.Machine.execPowerGoodFall rail s
  | .clearFaults => Sys2Proof.Machine.execClearFaults s
  | .voutMode => Sys2Proof.Machine.execVoutMode s
  | .statusWord => Sys2Proof.Machine.execStatusWord s
  | .readVout => Sys2Proof.Machine.execReadVout s
  | .readIout => Sys2Proof.Machine.execReadIout s
  | .readTemperature1 => Sys2Proof.Machine.execReadTemperature1 s
  | .readTemperature2 => Sys2Proof.Machine.execReadTemperature2 s
  | .readPout => Sys2Proof.Machine.execReadPout s
  | .mfrSeqStatus => Sys2Proof.Machine.execMfrSeqStatus s
  | .pmbusUnsupportedCommand code => Sys2Proof.Machine.execPmbusUnsupportedCommand code s
  | .nvmWordPulseEnd => Sys2Proof.Machine.execNvmWordPulseEnd s
  | .nvmEraseDone => Sys2Proof.Machine.execNvmEraseDone s
  | .flightRecordCommit => Sys2Proof.Machine.execFlightRecordCommit s
  | .modeSet r => Sys2Proof.Machine.execModeSet r s
  | .flightRecordRead r => Sys2Proof.Machine.execFlightRecordRead r s
  | .firmwareSlotWrite r => Sys2Proof.Machine.execFirmwareSlotWrite r s
  | .otpKekWrite r => Sys2Proof.Machine.execOtpKekWrite r s
  | .firmwareCommit r => Sys2Proof.Machine.execFirmwareCommit r s
  | .debugChallengeGet r => Sys2Proof.Machine.execDebugChallengeGet r s
  | .debugUnlock r => Sys2Proof.Machine.execDebugUnlock r s
  | .laneTestSet r => Sys2Proof.Machine.execLaneTestSet r s
  | .laneTestGet r => Sys2Proof.Machine.execLaneTestGet r s
  | .powerOn pclass pmaddr => Sys2Proof.Machine.execPowerOn pclass pmaddr s
  | .resetNAssert => Sys2Proof.Machine.execResetNAssert s
  | .resetRelease => Sys2Proof.Machine.execResetRelease s
  | .bootRun => Sys2Proof.Machine.execBootRun s
  | .calibrateRun => Sys2Proof.Machine.execCalibrateRun s
  | .pwrFailNAssert => Sys2Proof.Machine.execPwrFailNAssert s
  | .pwrFailNRelease => Sys2Proof.Machine.execPwrFailNRelease s
  | .firstLevelWatchdogExpiry core => Sys2Proof.Machine.execFirstLevelWatchdogExpiry core s
  | .secondLevelWatchdogExpiry => Sys2Proof.Machine.execSecondLevelWatchdogExpiry s
  | .rstClrHaltCount fn => Sys2Proof.Machine.execRstClrHaltCount fn s
  | .throttledShareEnd => Sys2Proof.Machine.execThrottledShareEnd s
  | .refclk25Return => Sys2Proof.Machine.execRefclk25Return s
  | .perstNDeassert => Sys2Proof.Machine.execPerstNDeassert s
  | .vddAonLoss => Sys2Proof.Machine.execVddAonLoss s
  | .railPowerDownStep => Sys2Proof.Machine.execRailPowerDownStep s
  | .msixVectorUnmask fn vec => Sys2Proof.Machine.execMsixVectorUnmask fn vec s
  | .firmwareSlotWriteDone => Sys2Proof.Machine.execFirmwareSlotWriteDone s

end Sys2Proof.Machine
end

