-- ==== Sys2Proof/WellFormed.lean ====
section
/-!
DEFINITION. When a command is well formed: the mailbox is one of the five, a slot holds its payload, and the units, lanes,
ports and indices a row names are among those the part has.
-/

namespace Sys2Proof

/-- A slot of one of the five mailboxes: at most 224 payload bytes (R26, R36). -/
def Req.wf (r : Req) : Bool := decide (r.mbx < 5) && decide (r.payload.length ≤ 224)

/-- A network port or a line lane (Table 13.9). -/
def portNamed (p : Nat) : Bool := decide (p < 8) || (decide (24 ≤ p) && decide (p < 32))

/-- A line lane. -/
def laneNamed (l : Nat) : Bool := decide (24 ≤ l) && decide (l < 32)

/-- An instance of an engine kind with ready lists (Table 8.1). -/
def listedNamed (kind inst : Nat) : Bool :=
  match kind with
  | 1 => decide (inst < 256)
  | 3 => decide (inst < 32)
  | 4 => decide (inst < 32)
  | 5 => decide (inst < 16)
  | 6 => decide (inst < 8)
  | _ => false

/-- An instance of an engine kind (Tables 1.1 and 3.8). -/
def unitNamed (kind inst : Nat) : Bool :=
  listedNamed kind inst || (kind == 0x0C && decide (inst < 4)) || (kind == 0x0E && decide (inst < 8)) ||
  (decide (1 ≤ kind) && decide (kind ≤ 0x10) && inst == 0)

/-- A rank of a memory channel: up to four of a DDR5 channel, one of an HBM channel (Tables 17.1 and 17.3). -/
def rankNamed (chan rank : Nat) : Bool := if chan < 8 then decide (rank < 4) else decide (chan < 40) && rank == 0

/-- A command is well formed. -/
def Instr.wf (i : Instr) : Bool :=
  match i with
  | .echo r | .sysIdentify r | .sysModeGet r | .systemReset r | .mediaRestart r | .eventMaskSet r | .sysStatsGet r | .budgetGet r
  | .nodeSet r | .nodeSetBulk r | .nodeFade r | .nodeGet r | .matrixTileMapGet r | .meterSubscribe r | .meterUnsubscribe r
  | .duckGroupCreate r | .duckGroupDestroy r | .duckMemberSet r | .duckForce r | .matrixStatsGet r | .sessionMixSet r | .sessionCreate r
  | .sessionDestroy r | .legCreate r | .legDestroy r | .legEnable r | .legHold r | .legChainSet r | .legCodecSet r | .legToneStart r
  | .legToneStop r | .legPlay r | .clipLoad r | .clipFree r | .legStatsGet r | .kernelLoad r | .kernelUnload r | .kernelBind r
  | .kernelUnbind r | .kernelParamSet r | .kernelStatsGet r | .dispatchDisable r | .dispatchEnable r | .dispatchStatsGet r | .decodeSet r
  | .decodeClear r | .keyFrameRequest r | .decodeStatsGet r | .encodingCreate r | .encodingDestroy r | .encodingEnable r
  | .encodingHold r | .encodingRateSet r | .encodingKeyFrame r | .encodingStatsGet r | .compositionCreate r | .compositionDestroy r
  | .compositionEnable r | .compositionHold r | .planeSet r | .compositionCommit r | .planeGet r | .compositionStatsGet r
  | .opalScalerTableGet r | .videoLegCreate r | .videoLegDestroy r | .videoLegEnable r | .videoLegHold r | .forwardSet r
  | .forwardTargetSet r | .videoLegStatsGet r | .netGroupSet r | .portSet r | .neighbourSet r | .hostRingSet r | .queueNoticeSet r
  | .queueStatsGet r | .portStatsGet r | .shaperSet r | .classShaperSet r | .egressPortSet r | .shaperGet r | .keyLoad r | .keyDestroy r
  | .keyUpdate r | .keyStatsGet r | .linkKeyLoad r | .keySystemGet r | .partitionCreate r | .partitionDestroy r | .partitionEnable r
  | .partitionHold r | .tapSet r | .exportSet r | .exportAck r | .freezeSet r | .freezeRelease r | .recorderRead r | .partitionStatsGet r
  | .recorderSurvivorsGet r | .partitionAdopt r | .memLayoutSet r | .memPolicySet r | .memStatusGet r | .timeDomainSet r
  | .timeServoSet r | .timeSelect r | .timeStep r | .timeStatusGet r | .timeCaptureSet r | .lineCreate r | .e1PathCreate r
  | .vcatGroupCreate r | .pathDestroy r | .pathEnable r | .pathHold r | .mspSet r | .mspCommand r | .casSet r | .framerStatusGet r
  | .cascadeJoin r | .cascadeForm r | .cascadeLeave r | .trunkCreate r | .trunkDestroy r | .sessionPlace r | .sessionUnplace r
  | .cascadeStatusGet r | .directoryGet r | .trioJoin r | .trioForm r | .trioLeave r | .trioCriticalSet r | .trioHandover r
  | .trioRevertSet r | .trioRejoin r | .trioStatusGet r | .powerClassSet r | .thermalSet r | .powerStatusGet r | .nvmStatusGet r
  | .modeSet r | .flightRecordRead r | .firmwareSlotWrite r | .otpKekWrite r | .firmwareCommit r | .debugChallengeGet r | .debugUnlock r
  | .laneTestSet r | .laneTestGet r => r.wf
  | .mbxCmdTailDoorbell fn tail _ => decide (fn < 4) && decide (tail < 2 ^ 32)
  | .fenceRelease mbx => decide (mbx < 5)
  | .mbxRspHeadWrite fn head => decide (fn < 4) && decide (head < 2 ^ 32)
  | .mbxEvtHeadWrite fn head => decide (fn < 4) && decide (head < 2 ^ 32)
  | .cmdRingEnable fn => decide (fn < 4)
  | .cmdRingDisable fn => decide (fn < 4)
  | .rspRingEnable fn => decide (fn < 4)
  | .rspRingDisable fn => decide (fn < 4)
  | .evtRingEnable fn => decide (fn < 4)
  | .evtRingDisable fn => decide (fn < 4)
  | .pcieHotReset fn => decide (fn < 4)
  | .dmaReadDone mbx _ => decide (mbx < 5)
  | .dmaWriteReadbackDone mbx _ => decide (mbx < 5)
  | .registerWrite fn offset data => decide (fn < 4) && decide (offset < 2 ^ 26) && (data.length == 4 || data.length == 8)
  | .rcRegisterRead fn offset => decide (fn < 4) && decide (offset < 2 ^ 26)
  | .engineFault kind inst cause => unitNamed kind inst && decide (1 ≤ cause) && decide (cause ≤ 4)
  | .instanceReturn kind inst => unitNamed kind inst
  | .itemTimeout id => decide (id < 2 ^ 32)
  | .meterReport sub => decide (sub < 4096)
  | .duckHangExpiry group => decide (group < 1024)
  | .playDone leg => decide (leg < 16384)
  | .vadHangExpiry leg => decide (leg < 16384)
  | .concealmentEnd leg => decide (leg < 16384)
  | .mediaTimeout key => (key / 2 ^ 20 == 2 && decide (key % 2 ^ 20 < 16384)) || (key / 2 ^ 20 == 3 && decide (key % 2 ^ 20 < 8192))
  | .cyclesException leg slot => decide (leg < 16384) && (slot == 1 || slot == 2)
  | .workSubmit source desc => decide (source < 8) && desc.length == 64
  | .workDispatch kind inst => listedNamed kind inst
  | .itemComplete id _ result _ => decide (id < 2 ^ 32) && decide (result < 2 ^ 32)
  | .itemDeadlineExpiry id => decide (id < 2 ^ 32)
  | .workCancel _ x => decide (x < 2 ^ 32)
  | .submissionResume source kind => decide (source < 8) && listedNamed kind 0
  | .drainBoundExpiry kind inst => listedNamed kind inst
  | .decodeStartTimeout leg => decide (leg < 8192)
  | .keyFrameRequestDeferred leg => decide (leg < 8192)
  | .firEscalation leg => decide (leg < 8192)
  | .frameBoundary comp => decide (comp < 512)
  | .compositeSliceStart comp k => decide (comp < 512) && decide (k < 256)
  | .videoLegBoundaryTimeout leg => decide (leg < 8192)
  | .frameReceive port _ _ _ => portNamed port
  | .pauseExpiry port prio => portNamed port && decide (prio < 8)
  | .linkStateChange port _ => portNamed port
  | .queueWriteResume queue => decide (queue < 65536)
  | .pfcRefresh port prio => portNamed port && decide (prio < 8)
  | .staleTailTimeout queue => decide (queue < 65536)
  | .hostTransmitDoorbell fn tail _ => decide (fn < 4) && decide (tail < 2 ^ 32)
  | .hostReceiveHeadWrite fn head => decide (fn < 4) && decide (head < 2 ^ 32)
  | .egressSelect port _ => portNamed port
  | .legShaperRefill shaper => decide (shaper < 65536)
  | .classShaperRefill shaper => decide (shaper < 256) && decide (shaper % 16 ≤ 8)
  | .entropyHealthFail test => decide (1 ≤ test) && decide (test ≤ 3)
  | .drbgExhausted inst => decide (inst < 9)
  | .recordWrite part => decide (part < 16)
  | .pictureCopyTimeout part => decide (part < 16)
  | .freezeEnd part range => decide (part < 16) && decide (range < 65536)
  | .exportWrite part => decide (part < 16)
  | .refreshDue chan rank => rankNamed chan rank
  | .realtimeBurstEnd chan rank => rankNamed chan rank
  | .calibrationWindowStart chan => decide (chan < 40)
  | .calibrationWindowEnd chan => decide (chan < 40)
  | .pageIdleTimeout chan bank => decide (chan < 40) && decide (bank < if chan < 8 then 256 else 16)
  | .dramTemperatureRead temps => temps.length == 9
  | .correctedWriteBack chan _ => decide (chan < 40)
  | .scrubStep chan errs => decide (chan < 40) && errs.all fun b => decide (b < (if chan < 8 then 640 else 288))
  | .ptpAnnounceReceive dom _ _ => decide (dom < 2)
  | .ptpSyncReceive dom _ _ => decide (dom < 2)
  | .ptpDelayResponseReceive dom _ _ => decide (dom < 2)
  | .ptpPdelayReqReceive port _ _ => portNamed port
  | .ptpDelayReqSend dom _ => decide (dom < 2)
  | .domainLossTimeout dom => decide (dom < 2)
  | .timePulseArm pulse => decide (pulse < 4)
  | .timePulseStop pulse => decide (pulse < 4)
  | .pulseEdge pulse => decide (pulse < 4)
  | .tsInEdge pin _ _ => decide (pin < 4)
  | .lineFrame lane _ _ => laneNamed lane
  | .losDeclare lane => laneNamed lane
  | .lofDeclare lane => laneNamed lane
  | .lofClear lane => laneNamed lane
  | .crc4MultiframeTimeout path => decide (path < 504)
  | .crc4AutoFallback path => decide (path < 504)
  | .fopDeclare pair => laneNamed pair
  | .waitToRestoreExpiry pair => laneNamed pair
  | .gfpFrameReceive group _ => decide (group < 64)
  | .enumerate frame => decide (8 ≤ frame.length)
  | .windowWrite frame => decide (8 ≤ frame.length)
  | .windowRead frame => decide (8 ≤ frame.length)
  | .doorbellGo frame => decide (8 ≤ frame.length)
  | .doorbellAck frame => decide (8 ≤ frame.length)
  | .poll frame => decide (8 ≤ frame.length)
  | .statusRead frame => decide (8 ≤ frame.length)
  | .chainResetCold frame => decide (8 ≤ frame.length)
  | .chainResetWarm frame => decide (8 ≤ frame.length)
  | .linkLock link => decide (link < 4)
  | .hello link _ => decide (link < 4)
  | .heartbeat link _ => decide (link < 4)
  | .time link _ _ => decide (link < 4)
  | .control link _ => decide (link < 4)
  | .trunk link _ => decide (link < 4)
  | .linkSilenceTimeout link => decide (link < 4)
  | .masterLost peer => decide (peer < 32)
  | .mirror link _ => decide (link < 4)
  | .delta link _ => decide (link < 4)
  | .digest link _ => decide (link < 4)
  | .endorse link _ => decide (link < 4)
  | .snapshot link _ => decide (link < 4)
  | .crcClaim fn u => (decide (fn < 4) || fn == 7) && decide (u < 4)
  | .crcRelease fn u => (decide (fn < 4) || fn == 7) && decide (u < 4)
  | .crcStart fn u => (decide (fn < 4) || fn == 7) && decide (u < 4)
  | .crcData fn u data => (decide (fn < 4) || fn == 7) && decide (u < 4) && decide (1 ≤ data.length) && decide (data.length ≤ 4)
  | .crcDmaGo fn u => (decide (fn < 4) || fn == 7) && decide (u < 4)
  | .crcDmaDone u _ => decide (u < 4)
  | .currentSample phases => phases.length == 12
  | .overCurrentFault phase _ => decide (phase < 12) || phase == 255
  | .temperatureSample temps => temps.length == 16
  | .railPowerGood rail => decide (1 ≤ rail) && decide (rail ≤ 9)
  | .powerGoodFall rail => decide (1 ≤ rail) && decide (rail ≤ 9)
  | .pmbusUnsupportedCommand code => decide (code < 256)
  | .powerOn pclass pmaddr => decide (pclass < 4) && decide (pmaddr < 8)
  | .firstLevelWatchdogExpiry core => decide (core < 4)
  | .rstClrHaltCount fn => decide (fn < 4)
  | .msixVectorUnmask fn vec => decide (fn < 4) && decide (vec.getD 0 < 4)
  | .mediaRestartDone | .shedClassEscalation | .blockStart | .mixEnd | .layerRecompute | .entropyRecovered | .timeSnapTake
  | .formationTimeout | .spanningCommandRollback | .trunkArrivalDeadline _ | .vote | .leaseExpiry | .powerSample _ | .avsUpdate _
  | .aonTemperatureSample _ | .tripCooldownExpiry | .shedExit | .refclk25Loss | .rootPllUnlock | .serdesRefclkLoss | .pcieRefclkLoss
  | .rootPllLock | .railSequenceStep | .powerGoodTimeout | .railRetry | .clearFaults | .voutMode | .statusWord | .readVout | .readIout
  | .readTemperature1 | .readTemperature2 | .readPout | .mfrSeqStatus | .nvmWordPulseEnd | .nvmEraseDone | .flightRecordCommit
  | .resetNAssert | .resetRelease | .bootRun | .calibrateRun | .pwrFailNAssert | .pwrFailNRelease | .secondLevelWatchdogExpiry
  | .throttledShareEnd | .refclk25Return | .perstNDeassert | .vddAonLoss | .railPowerDownStep | .firmwareSlotWriteDone => true

end Sys2Proof
end

