-- ==== Sys2Proof/Safety.lean ====
section
/-!
DEFINITION. The words in which claims are stated: when a command's turn has come, how it is answered, what of the state a response
changes, and which states are sound.
-/

namespace Sys2Proof.Machine

/-- The state in which a command's own part runs, where the command is one that runs now: its turn on its mailbox has come
(R45), no restart or reset aborts it (R67, R739), it is not held by FENCE (R48), its flags are defined (step 5 of Table 2.6) and
it names no object of a critical set (R655). -/
def State.turn (s : State) (op : Nat) (r : Req) : Option State :=
  match s.start op r with
  | none => none
  | some s1 =>
    if s.aborting r.mbx then none
    else if r.flags.getLsbD 0 && decide (0 < (s1.mb r.mbx).outstanding) && decide (r.mbx < 4) then none
    else if (s1.critOf (namedHandles op r.payload r.tgt)).isSome then none
    else if r.flags.toNat < 4 then some s1 else none

/-- A command answered OK with its effect in `s`, `Applied` behind its response where EFFECT_EVENT asks for it (R47). -/
def State.answered (s : State) (op : Nat) (r : Req) (target : Nat) (p : Bytes) : State := s.finish op r (.done p target s)

/-- A command answered OK whose change waits for a boundary (R47). -/
def State.accepted (s : State) (op : Nat) (r : Req) (target : Nat) (p : Bytes) : State := s.finish op r (.later p target s)

/-- A command answered with a status other than OK, without an effect (R40). -/
def State.failed (s : State) (op : Nat) (r : Req) (st : Status) (p : Bytes) : State := s.finish op r (.fail st p)

/-- A command in flight: its response follows the end of what it waits for (R797, R798). -/
def State.waiting (s : State) (op : Nat) (r : Req) (w : Wait) (p : Bytes) : State := s.finish op r (.wait w p s)

/-- Two states differ at most in their mailboxes, their window and what was put out. -/
def State.sameBut (s t : State) : Prop := t = { s with mbx := t.mbx, nmc := t.nmc, out := t.out }

/-- A chain frame that this device acts on (R623 to R626): complete, of the command `cmd`, addressed to the device, or broadcast where
the command is one, its FCRC good and its length allowed, in a mode other than RESET. -/
def State.chainActs (s : State) (cmd : Nat) (bcast : Bool) (lenOk : Nat → Bool) (f : Bytes) : Bool :=
  s.sys.mode != .reset && u8 f 0 == 0x5A && f.length == 8 + chainLen f && u8 f 1 / 32 == cmd &&
  (if bcast then u8 f 1 % 32 == 0 else u8 f 1 % 32 != 0 && u8 f 1 % 32 == s.nmc.addr) && fcrcOk f && lenOk (chainLen f) &&
  decide (u8 f 2 + chainLen f ≤ 256)

/-- The state in which a chain frame is acted on: counted (Table 25.11). -/
def State.chainCounted (s : State) : State := s.updNmc fun x => { x with acted := x.acted + 1 }

/-- A BLP frame of a kind that arrives for this device on a link, an Onyx core being free for it: it authenticates, its counter is one the
link still expects, and it is addressed to this device or to all (R493, R495, R638, R639). The state once it is heard, its source,
block and payload. -/
def State.blpHeard (s : State) (l kind : Nat) (d : Bytes) : Option (State × Nat × Nat × Bytes) :=
  if u8 d 3 ≠ kind ∨ s.unitDown 0x0C l ∨ bfld d 0 2 ≠ 0xB17A ∨ u8 d 2 / 16 ≠ 1 then none
  else
    match s.linkCore l false (u8 d 2 % 8) with
    | none => none
    | some c =>
      match (((s.linkThrough l false (u8 d 2 % 8) (linkSize false d)).passOnyx 1 (linkDesc l 0 (u8 d 2 % 8))).linkShares c l 0).openLink l d with
      | (_, none) => none
      | (s1, some p) => if u8 d 5 ≠ 0 ∧ u8 d 5 ≠ s1.nmc.addr then none else some (s1, u8 d 4, bfld d 16 8, p)

/-- A BLP frame of a kind that arrives well-formed on a link while no Onyx core can take it, or behind another of its link
(R495, R638; log entry 103). -/
def State.blpWaits (s : State) (l kind : Nat) (d : Bytes) : Bool :=
  u8 d 3 == kind && !s.unitDown 0x0C l && bfld d 0 2 == 0xB17A && u8 d 2 / 16 == 1 && (s.linkCore l false (u8 d 2 % 8)).isNone

/-- A sound state: every generation is one a handle may carry (R76), retained memory is in its canonical form, and the HALT
count does not pass three (R733). -/
def State.sound (s : State) : Bool :=
  (s.gens.all fun e => decide (1 ≤ e.2) && decide (e.2 ≤ 127)) && Memory.wf s.retained && decide (s.rst.haltCount ≤ 3)

/-- Admission finds room for a cost in every budget (R111). -/
def State.admits (s : State) (c : Costs) : Bool := (s.firstOver (overCost c [])).isNone

/-- An object of the key of which no change is due lives at an index, named by its handle. -/
abbrev State.lives (s : State) (h key : Nat) (ty : Nat) : Prop := s.checkHandle h [ty] = .ok key

/-- An outcome that is a next state. -/
def answersNext (o : Host.Outcome State Fault Refusal) : Prop := ∃ t, o = .next t

end Sys2Proof.Machine
end

