-- ==== Sys2Proof/Certificates/Slice0/Obligations.lean ====
section
/-!
DEFINITION. The statements for the provers. Each says what its title in OBLIGATIONS.json says; `s.turn op r = some s1` reads: the
turn of the command has come in `s`, and its own part runs in `s1`, which differs from `s` in the mailbox alone.
-/

open Sys2Proof Sys2Proof.Machine

/-- The step takes commands first in, first out, and idles on an empty queue (the idling is the model's choice, log entry 1). -/
def Obligations.StepRunsFront : Prop :=
  (∀ (c : Instr) (s : State), step (s.withCommand c) = exec c s) ∧
  ∀ s : State, s.pending = [] → step s = .next s

/-- No command touches the queue of those that wait: they run first in, first out. -/
def Obligations.StepKeepsQueueOrder : Prop :=
  ∀ s t : State, step s = .next t → t.pending = s.pending.tail

/-- Soundness (Safety.lean) is kept by every step, from every sound state. -/
def Obligations.StepKeepsSound : Prop :=
  ∀ s t : State, s.sound = true → step s = .next t → t.sound = true

/-- The invariant of StepKeepsSound holds at reset. -/
def Obligations.ResetIsSound : Prop := State.reset.sound = true

/-- Reset (Tables 24.4, 25.6, 25.10). -/
def Obligations.ResetLeaves : Prop :=
  let z := State.reset
  z.mode = .reset ∧ z.objs = [] ∧ (∀ k, z.gen k = 1) ∧ z.sched = [] ∧ z.used = [] ∧ z.awaiting = [] ∧ z.rails.on = 0 ∧
  (∀ f, (z.mb f).cmd.en = false ∧ (z.mb f).rsp.en = false ∧ (z.mb f).evt.en = false ∧ (z.mb f).cmd.head = 0 ∧ (z.mb f).cmd.tail = 0 ∧
    (z.mb f).cmd.seq = 0 ∧ (z.mb f).rsp.seq = 0 ∧ (z.mb f).evt.seq = 0 ∧ (z.mb f).taken = [] ∧ (z.mb f).flight = none ∧
    (z.mb f).outstanding = 0 ∧ (z.mb f).mask = 0) ∧
  z.nmc.wstate = .idle ∧ z.nmc.attn = false ∧ (∀ n, z.backup n = 0) ∧ (∀ i, z.retainedByte i = 0) ∧
  z.pins.actLow = 0xFF ∧ z.pins.openDrain = 0 ∧ z.pins.drvFctl = 1 ∧ z.pins.drvPps = 1 ∧ z.pins.force = 0 ∧ z.pins.forceEn = 0 ∧
  z.pins.fctlOe = 0 ∧ z.pins.ppsOe = 0 ∧ z.pins.noPull = 0

/-- What the state decides about the units a command names: whether the port or rank is there, and that a register write
does not reach the DBG region (R768). -/
def Obligations.WellFormedCommandsRun : Prop :=
  ∀ (i : Instr) (s : State), i.wf = true →
    (match i with
      | .frameReceive port _ _ _ => s.portOk port = true
      | .egressSelect port _ => s.portOk port = true
      | .linkStateChange port _ => s.portOk port = true
      | .ptpPdelayReqReceive port _ _ => s.portOk port = true
      | .refreshDue chan rank => rankOk chan rank = true
      | .realtimeBurstEnd chan rank => rankOk chan rank = true
      | .registerWrite _ off _ => inDbg off = false
      | .rcRegisterRead _ off => inDbg off = false
      | _ => True) →
    answersNext (exec i s)

/-- The turn of a command (R34, R40, R45, R48, R59). Taking and starting an untaken command in one step is the model's choice
(log entry 2). -/
def Obligations.TurnOfCommand : Prop :=
  ∀ (s : State) (op : Nat) (r : Req), s.sys.mode.isOpen = true → s.sys.restart = none → s.sys.marks = [] → s.trio.id = 0 →
    (s.mb r.mbx).flight = none → r.flags.toNat < 4 → (r.fence = true → (s.mb r.mbx).outstanding = 0) →
    (r.mbx < 4 → (s.mb r.mbx).taken = [] → (s.mb r.mbx).cmd.en = true → (s.mb r.mbx).cmd.err = false →
      (s.mb r.mbx).rsp.en = true → (s.mb r.mbx).rsp.err = false → 0 < (s.mb r.mbx).rsp.free →
      ∃ s1, s.turn op r = some s1 ∧ s1 = { s with mbx := s1.mbx } ∧ (∀ g, g ≠ r.mbx → s1.mb g = s.mb g) ∧
        s1.mb r.mbx = { s.mb r.mbx with
          nTaken := (s.mb r.mbx).nTaken + 1, cmd := { (s.mb r.mbx).cmd with seq := (s.mb r.mbx).cmd.seq + 1 } }) ∧
    (r.mbx = 4 → (s.mb 4).taken = [] → s.nmc.wstate = .idle → s.nmc.queue = [] →
      ∃ s1, s.turn op r = some s1 ∧ s1.nmc = { s.nmc with wstate := .busy } ∧ s1 = { s with mbx := s1.mbx, nmc := s1.nmc } ∧
        (∀ g, g ≠ 4 → s1.mb g = s.mb g)) ∧
    (∀ rest, r.mbx < 5 → (s.mb r.mbx).taken = .run op r :: rest →
      ∃ s1, s.turn op r = some s1 ∧ s1 = { s with mbx := s1.mbx } ∧ (∀ g, g ≠ r.mbx → s1.mb g = s.mb g) ∧
        s1.mb r.mbx = { s.mb r.mbx with taken := rest })

/-- A response (R33, R45, R58), or one to be discarded (R755). -/
def Obligations.AnswerIsOneSlot : Prop :=
  ∀ (s t : State) (op target : Nat) (r : Req) (p : Bytes) (st : Status),
    ((t = s.answered op r target p ∧ r.effect = false ∧ st = .ok) ∨ (t = s.accepted op r target p ∧ st = .ok) ∨
      (t = s.failed op r st p ∧ target = r.tgt)) →
    s.sameBut t ∧ (∀ g, g ≠ r.mbx → t.mb g = s.mb g) ∧
    (r.mbx < 4 → (s.mb r.mbx).drop = 0 → (s.mb r.mbx).rsp.en = true → (s.mb r.mbx).rsp.err = false →
      .slot r.mbx 1 (s.mb r.mbx).rsp.tail
        { opcode := op, flags := r.flags.toNat % 4, seq := (s.mb r.mbx).rsp.seq.toNat, target := target, status := st.code,
          tag := r.tag.toNat, payload := p } ∈ t.out ∧
      (t.mb r.mbx).rsp = { (s.mb r.mbx).rsp with
        tail := ((s.mb r.mbx).rsp.tail + 1) % (s.mb r.mbx).rsp.size, seq := (s.mb r.mbx).rsp.seq + 1 }) ∧
    (r.mbx < 4 → 0 < (s.mb r.mbx).drop → t = s.updMb r.mbx fun m => { m with drop := m.drop - 1 }) ∧
    (4 ≤ r.mbx → t.nmc.wstate = .response ∧ t.nmc.attn = true ∧ t.out = s.out ∧
      t.nmc.window = ({ opcode := op, flags := r.flags.toNat % 4, seq := (s.mb r.mbx).rsp.seq.toNat, target := target,
                        status := st.code, tag := r.tag.toNat, payload := p } : Slot).bytes 0x11)

/-- FENCE (R48), and FENCE_RELEASE. -/
def Obligations.FenceHoldsAndReleases : Prop :=
  (∀ (r : Req) (s s1 : State), s.start 0x0000 r = some s1 → s.aborting r.mbx = false → r.fence = true → r.mbx < 4 →
    0 < (s1.mb r.mbx).outstanding →
    exec (.echo r) s = .next (s1.updMb r.mbx fun m => { m with flight := some { op := 0, req := r, resp := [], wait := .fence } })) ∧
  (∀ (f : Nat) (x : Flight) (s : State), f < 5 → (s.mb f).flight = some x → x.wait = .fence → (s.mb f).outstanding = 0 →
    exec (.fenceRelease f) s = .next (s.updMb f fun m => { m with flight := none, taken := .run x.op x.req :: m.taken })) ∧
  (∀ (f : Nat) (x : Flight) (s : State), f < 5 → (s.mb f).flight = some x → x.wait = .fence → 0 < (s.mb f).outstanding →
    exec (.fenceRelease f) s = .next s) ∧
  ∀ (r : Req) (s : State), s.start 0x0000 r = none → exec (.echo r) s = .next s

/-- The system commands (R65, R66, R119). -/
def Obligations.SystemCommandsComplete : Prop :=
  (∀ r s s1, s.turn 0x0000 r = some s1 → r.target = 0 → exec (.echo r) s = .next (s1.answered 0x0000 r 0 r.payload)) ∧
  (∀ r s s1, s.turn 0x0001 r = some s1 → r.target = 0 → r.payload = [] →
    exec (.sysIdentify r) s = .next (s1.answered 0x0001 r 0 (s1.identify r.mbx)) ∧ (s1.identify r.mbx).length = 32 ∧
    u16 (s1.identify r.mbx) 0 = 3 ∧ u16 (s1.identify r.mbx) 2 = 1 ∧ u16 (s1.identify r.mbx) 8 = 0x00B1) ∧
  (∀ r s s1, s.turn 0x0002 r = some s1 → r.target = 0 → r.payload = [] → s1.mode ≠ .shed →
    exec (.sysModeGet r) s = .next (s1.answered 0x0002 r 0 [BitVec.ofNat 8 s1.mode.code, 0xFF, 0, 0])) ∧
  (∀ r s s1 m, s.turn 0x0002 r = some s1 → r.target = 0 → r.payload = [] → s1.mode = .shed → s1.sys.remembered = some m →
    exec (.sysModeGet r) s = .next (s1.answered 0x0002 r 0 [BitVec.ofNat 8 s1.mode.code, BitVec.ofNat 8 m.code, 0, 0])) ∧
  (∀ r s s1, s.turn 0x0005 r = some s1 → r.target = 0 → r.payload.length = 8 → u16 r.payload 0 % 2 = 0 → zeros r.payload 2 6 = true →
    exec (.eventMaskSet r) s =
      .next ((s1.updMb r.mbx fun m => { m with mask := BitVec.ofNat 16 (u16 r.payload 0) }).answered 0x0005 r 0 [])) ∧
  (∀ r s s1, s.turn 0x0006 r = some s1 → r.target = 0 → r.payload = [] →
    exec (.sysStatsGet r) s = .next (s1.answered 0x0006 r 0
      (le 4 (s1.mb r.mbx).nTaken ++ le 4 (s1.mb r.mbx).nBadCrc ++ le 4 (s1.mb r.mbx).nSeqGap ++ le 4 (s1.mb r.mbx).nLost))) ∧
  (∀ r s s1, s.turn 0x0F40 r = some s1 → r.target = 0 → r.payload.length = 8 → zeros r.payload 2 2 = true →
    budgetListed (u16 r.payload 0) (u32 r.payload 4) = true →
    exec (.budgetGet r) s = .next (s1.answered 0x0F40 r 0
      (le 4 (s1.ceiling (u16 r.payload 0) (u32 r.payload 4)) ++ le 4 (tget 0 s1.used (bkey (u16 r.payload 0) (u32 r.payload 4))) ++
       le 4 (tget 0 s1.awaiting (bkey (u16 r.payload 0) (u32 r.payload 4))) ++ le 4 0)))

/-- The ring pointers of the host (R32, R41, R42, R753, R754): each of the three writes completes in every state of its ring. That a
doorbell of a ring stopped by its error flag changes nothing is the model's choice (log entry 92). -/
def Obligations.RingPointersMove : Prop :=
  (∀ (s : State) (f tail : Nat) (l : List Bytes), f < 4 → (s.mb f).cmd.en = true → (s.mb f).cmd.err = false → tail < (s.mb f).cmd.size →
    (s.mb f).cmd.filled + (tail + (s.mb f).cmd.size - (s.mb f).cmd.tail) % (s.mb f).cmd.size < (s.mb f).cmd.size →
    l.length = (tail + (s.mb f).cmd.size - (s.mb f).cmd.tail) % (s.mb f).cmd.size →
    exec (.mbxCmdTailDoorbell f tail l) s = .next (State.takeMore (s.updMb f fun m => { m with
      cmd := { m.cmd with tail := tail }, rung := m.rung ++ l.map (padTo 256) }) f)) ∧
  (∀ (s : State) (f head : Nat), f < 4 → (s.mb f).rsp.en = true → head < (s.mb f).rsp.size →
    (head + (s.mb f).rsp.size - (s.mb f).rsp.head) % (s.mb f).rsp.size ≤ (s.mb f).rsp.filled →
    exec (.mbxRspHeadWrite f head) s = .next (State.takeMore (s.updMb f fun m => { m with rsp := { m.rsp with head := head } }) f)) ∧
  (∀ (s : State) (f head : Nat), f < 4 → (s.mb f).evt.en = true → head < (s.mb f).evt.size →
    (head + (s.mb f).evt.size - (s.mb f).evt.head) % (s.mb f).evt.size ≤ (s.mb f).evt.filled →
    exec (.mbxEvtHeadWrite f head) s = .next (State.pump (s.updMb f fun m => { m with evt := { m.evt with head := head } }) f)) ∧
  (∀ (s : State) (f tail : Nat) (b : Bytes) (x : Flight), f < 4 → s.sys.mode.isOpen = true → (s.mb f).cmd.en = true →
    (s.mb f).cmd.err = false → (s.mb f).rung = [] → (s.mb f).flight = some x → tail < (s.mb f).cmd.size →
    tail = ((s.mb f).cmd.tail + 1) % (s.mb f).cmd.size → (s.mb f).cmd.tail < (s.mb f).cmd.size →
    (s.mb f).cmd.filled + 1 < (s.mb f).cmd.size → (s.mb f).rspRoom = true → b.length = 256 →
    ∀ tk pass, checkSlot f (s.mb f).cmd.seq.toNat b = (tk, pass) →
    ∃ t, exec (.mbxCmdTailDoorbell f tail [b]) s = .next t ∧ t = { s with mbx := t.mbx, sys := t.sys } ∧ (t.mb f).cmd.tail = tail ∧
      (t.mb f).cmd.head = ((s.mb f).cmd.head + 1) % (s.mb f).cmd.size ∧ (t.mb f).taken = (s.mb f).taken ++ [tk] ∧
      (t.mb f).nTaken = (s.mb f).nTaken + 1 ∧
      (t.mb f).cmd.seq = (if pass then (s.mb f).cmd.seq + 1 else (s.mb f).cmd.seq)) ∧
  (∀ (f expect : Nat) (b : Bytes), u8 b 3 = 3 → u16 b 12 ≤ 224 → slotCrcOk (ringNo f 0) b = true → u32 b 4 ≠ expect →
    checkSlot f expect b = (.bad (u16 b 0) (slotReq f b) .seqGap (le 4 expect), false)) ∧
  (∀ (s : State) (f tail : Nat) (l : List Bytes), f < 4 → (s.mb f).cmd.en = true → (s.mb f).cmd.err = false →
    tail < (s.mb f).cmd.size →
    (s.mb f).cmd.size ≤ (s.mb f).cmd.filled + (tail + (s.mb f).cmd.size - (s.mb f).cmd.tail) % (s.mb f).cmd.size →
    ∃ t, exec (.mbxCmdTailDoorbell f tail l) s = .next t ∧ (t.mb f).cmd.err = true ∧ (t.mb f).taken = (s.mb f).taken ∧
      t = { s with mbx := t.mbx }) ∧
  (∀ (s : State) (f head : Nat), f < 4 → (s.mb f).rsp.en = true → head < (s.mb f).rsp.size →
    (s.mb f).rsp.filled < (head + (s.mb f).rsp.size - (s.mb f).rsp.head) % (s.mb f).rsp.size →
    exec (.mbxRspHeadWrite f head) s = .next (s.updMb f fun m => { m with rsp := { m.rsp with err := true } })) ∧
  (∀ (s : State) (f head : Nat), f < 4 → (s.mb f).rsp.en = true → head < (s.mb f).rsp.size →
    (head + (s.mb f).rsp.size - (s.mb f).rsp.head) % (s.mb f).rsp.size ≤ (s.mb f).rsp.filled →
    (s.mb f).rung = [] → (s.mb f).taken = [] →
    ∃ t, exec (.mbxRspHeadWrite f head) s = .next t ∧ (t.mb f).rsp = { (s.mb f).rsp with head := head } ∧ t = { s with mbx := t.mbx }) ∧
  (∀ (s : State) (f head : Nat), f < 4 → (s.mb f).evt.en = true → head < (s.mb f).evt.size →
    (s.mb f).evt.filled < (head + (s.mb f).evt.size - (s.mb f).evt.head) % (s.mb f).evt.size →
    exec (.mbxEvtHeadWrite f head) s = .next (s.updMb f fun m => { m with evt := { m.evt with err := true } })) ∧
  (∀ (s : State) (f head : Nat), f < 4 → (s.mb f).evt.en = true → head < (s.mb f).evt.size →
    (head + (s.mb f).evt.size - (s.mb f).evt.head) % (s.mb f).evt.size ≤ (s.mb f).evt.filled →
    (s.mb f).readyDue = false → (s.mb f).held = [] → (s.mb f).lostCount = 0 →
    ∃ t, exec (.mbxEvtHeadWrite f head) s = .next t ∧ (t.mb f).evt = { (s.mb f).evt with head := head } ∧ t = { s with mbx := t.mbx }) ∧
  (∀ (s : State) (f tail : Nat) (l : List Bytes), f < 4 → ((s.mb f).cmd.en = false ∨ (s.mb f).cmd.err = true ∨ (s.mb f).cmd.size ≤ tail) →
    exec (.mbxCmdTailDoorbell f tail l) s = .next s) ∧
  (∀ (s : State) (f head : Nat), f < 4 → ((s.mb f).rsp.en = false ∨ (s.mb f).rsp.size ≤ head) →
    exec (.mbxRspHeadWrite f head) s = .next s) ∧
  (∀ (s : State) (f head : Nat), f < 4 → ((s.mb f).evt.en = false ∨ (s.mb f).evt.size ≤ head) →
    exec (.mbxEvtHeadWrite f head) s = .next s)

/-- Ring enables and disables (R29, R755, R756). -/
def Obligations.RingEnablesComplete : Prop :=
  ∀ (s : State) (f : Nat), f < 4 →
    (s.sys.mode.isOpen = true →
      ((s.mb f).cmd.en = false → exec (.cmdRingEnable f) s = .next (s.updMb f fun m => { m with
        rung := [], cmd := { m.cmd with en := true, head := 0, tail := 0, seq := 0, err := false } })) ∧
      ((s.mb f).cmd.en = true → exec (.cmdRingDisable f) s = .next (s.updMb f fun m => { m with
        rung := [], cmd := { m.cmd with en := false } })) ∧
      ((s.mb f).rsp.en = false → (s.mb f).rung = [] → (s.mb f).taken = [] →
        ∃ t, exec (.rspRingEnable f) s = .next t ∧ t = { s with mbx := t.mbx } ∧
          (t.mb f) = { s.mb f with rsp := { (s.mb f).rsp with en := true, head := 0, tail := 0, seq := 0, err := false } }) ∧
      ((s.mb f).rsp.en = true → exec (.rspRingDisable f) s = .next (s.updMb f fun m => { m with
        rsp := { m.rsp with en := false }, drop := m.taken.length + (if m.flight.isSome then 1 else 0) })) ∧
      ((s.mb f).evt.en = false → (s.mb f).readyRaised = false → (s.mb f).held = [] → (s.mb f).lostCount = 0 →
        ∃ t, exec (.evtRingEnable f) s = .next t ∧ t = { s with mbx := t.mbx } ∧
          (t.mb f) = { s.mb f with readyDue := false, evt := { (s.mb f).evt with en := true, head := 0, tail := 0, seq := 0, err := false } }) ∧
      ((s.mb f).evt.en = true → exec (.evtRingDisable f) s = .next (s.updMb f fun m => { m with
        readyDue := false, evt := { m.evt with en := false } }))) ∧
    (s.sys.mode.isOpen = false →
      exec (.cmdRingEnable f) s = .next s ∧ exec (.cmdRingDisable f) s = .next s ∧ exec (.rspRingEnable f) s = .next s ∧
      exec (.rspRingDisable f) s = .next s ∧ exec (.evtRingEnable f) s = .next s ∧ exec (.evtRingDisable f) s = .next s)

/-- Retained memory and the backup registers as the host reaches them (R742, R766, R767). What firmware has saved in its half is a
free value of the model (log entry 6). -/
def Obligations.RetainedMemoryByHost : Prop :=
  (∀ (s : State) (fn off : Nat) (data : List (Option Byte)) (b : Byte) (rest : List (Nat × Byte)), fn < 4 → s.mode.booted = true →
    Memory.wf s.retained = true → 0x10000 ≤ off → off < 0x20000 → enabled off data = (off, b) :: rest →
    ∃ t, exec (.registerWrite fn off data) s = .next t ∧ t = { s with retained := t.retained } ∧ Memory.wf t.retained = true ∧
      ∀ i, i < 0x10000 → t.retainedByte i =
        (if 0x8000 ≤ i then (((enabled off data).find? fun e => e.1 == 0x10000 + i).map (·.2)).getD (s.retainedByte i) else s.retainedByte i)) ∧
  (∀ (s : State) (fn n k : Nat) (b : Byte), fn < 4 → s.mode.booted = true → n < 16 → k < 4 →
    exec (.registerWrite fn (0x8000 + 4 * n + k) [some b]) s =
      .next { s with bkp := tset s.bkp n (withByte (s.backup n) k b) }) ∧
  (∀ (s : State) (fn n : Nat), fn < 4 → s.mode.booted = true → n < 16 →
    exec (.rcRegisterRead fn (0x8000 + 4 * n)) s = .next (s.emit (.read (le 4 (s.backup n).toNat)))) ∧
  (∀ (s : State) (fn i : Nat), fn < 4 → s.mode.booted = true → 0x8000 ≤ i → i < 0x10000 → i % 4 = 0 →
    exec (.rcRegisterRead fn (0x10000 + i)) s =
      .next (s.emit (.read [s.retainedByte i, s.retainedByte (i + 1), s.retainedByte (i + 2), s.retainedByte (i + 3)]))) ∧
  (∀ (s : State) (fn i : Nat), fn < 4 → s.mode.booted = true → i < 0x8000 → i % 4 = 0 → ∃ v : Nat,
    exec (.rcRegisterRead fn (0x10000 + i)) s = .next (s.draw.2.emit (.read (le 4 v))))

/-- Access to the regions (R746, R749, R763). -/
def Obligations.RegisterAccessByMode : Prop :=
  (∀ (s : State) (fn off : Nat), fn < 4 → inDbg off = false → s.mode.booted = false →
    exec (.rcRegisterRead fn off) s = .next (s.emit (.read [0, 0, 0, 0]))) ∧
  (∀ (s : State) (fn off : Nat) (data : List (Option Byte)), fn < 4 → inDbg off = false → s.mode.booted = false →
    exec (.registerWrite fn off data) s = .next s) ∧
  (∀ (s : State) (fn : Nat), fn < 4 → s.mode.booted = true →
    exec (.rcRegisterRead fn 0x2010) s =
      .next ((s.updSys fun x => { x with restarts := 0 }).emit (.read (le 4 (s.regRead fn 0x2010))))) ∧
  (∀ (s : State) (fn : Nat) (a b c d : Byte), fn < 4 → s.mode ≠ .maintenance →
    ∃ t, exec (.registerWrite fn 0x6008 [some a, some b, some c, some d]) s = .next t ∧ t.pins = s.pins) ∧
  ∀ (s : State) (fn : Nat) (a b : Byte), fn < 4 → s.mode = .maintenance →
    ∃ t, exec (.registerWrite fn 0x6008 [some a, some b, some 0, some 0]) s = .next t ∧ t.pins = { s.pins with force := a, forceEn := b }

/-- The CRC units (R683 to R688): what each write by each requester, function or firmware, does to a unit in every state of it, and
what the end of a DMA run does. The result after a failed DMA run is a free value, so nothing is said of it. -/
def Obligations.CrcUnitsComplete : Prop :=
  ∀ (s : State) (f c u : Nat), ((f < 4 ∧ c = f + 1) ∨ (f = 7 ∧ c = 8)) → u < 4 →
    exec (.crcClaim f u) s = .next (if (s.crcUnit u).owner = 0 ∧ (f ≠ 7 ∨ s.mode = .boot ∨ s.mode = .calibrate) then
      s.updCrc u fun x => { x with owner := c, r := CrcUnit.reset.r, dead := false } else s) ∧
    exec (.crcRelease f u) s = .next (if (s.crcUnit u).owner = c then
      s.updCrc u fun x => { x with owner := 0, busy := false, dead := x.dead || x.busy } else s) ∧
    exec (.crcStart f u) s = .next (s.updCrc u fun x =>
      if x.owner = c ∧ x.busy = false then x.start else { x with ignored := true }) ∧
    (∀ d : Bytes, 1 ≤ d.length → d.length ≤ 4 → exec (.crcData f u d) s = .next (s.updCrc u fun x =>
      if x.owner = c ∧ x.busy = false then d.foldl CrcUnit.feed x else { x with ignored := true })) ∧
    exec (.crcDmaGo f u) s = .next (s.updCrc u fun x =>
      if x.owner = c ∧ x.busy = false then (if x.dmaLen = 0 then { x with done := true } else { x with busy := true })
      else { x with ignored := true }) ∧
    (∀ res, (s.crcUnit u).busy = false → exec (.crcDmaDone u res) s = .next s) ∧
    ((s.crcUnit u).busy = true →
      (∀ d : Bytes, d.length = (s.crcUnit u).dmaLen.toNat → exec (.crcDmaDone u (.data d)) s =
        .next (s.updCrc u fun x => { d.foldl CrcUnit.feed x with busy := false, done := true })) ∧
      ∀ l, ∃ t, exec (.crcDmaDone u (.failed l)) s = .next t ∧ (t.crcUnit u).busy = false ∧ (t.crcUnit u).dmaErr = true ∧
        (t.crcUnit u).done = (s.crcUnit u).done ∧ (∀ v, v ≠ u → t.crcUnit v = s.crcUnit v) ∧ t = { s with crc := t.crc, fresh := s.fresh + 1 })

/-- MSI-X and the resets of a PCIe function (R70, R691, R757). -/
def Obligations.PcieFunctionsReset : Prop :=
  (∀ (s : State) (f v : Nat), f < 4 → v < 4 → (s.mb f).msixPending = 0 →
    exec (.msixVectorUnmask f (some v)) s =
      .next (s.updMb f fun m => { m with msixMask := m.msixMask &&& ~~~(BitVec.ofNat 4 (2 ^ v)) })) ∧
  (∀ (s : State) (f v : Nat), f < 4 → v < 4 → (s.mb f).msixPending = BitVec.ofNat 4 (2 ^ v) → (s.mb f).msixFnMask = false →
    ∃ t, exec (.msixVectorUnmask f (some v)) s = .next t ∧ t.out = .msix f v :: s.out ∧ (t.mb f).msixPending = 0 ∧
      (t.mb f).msixMask = (s.mb f).msixMask &&& ~~~(BitVec.ofNat 4 (2 ^ v)) ∧ ∀ g, g ≠ f → t.mb g = s.mb g) ∧
  (∀ (s : State) (f : Nat), f < 4 → ∃ t, exec (.pcieHotReset f) s = .next t ∧
    (t.mb f).cmd.en = false ∧ (t.mb f).rsp.en = false ∧ (t.mb f).evt.en = false ∧ (t.mb f).ie = 0 ∧ (t.mb f).taken = [] ∧
    (t.mb f).rung = [] ∧ (t.mb f).fwReady = (s.mb f).fwReady ∧ (t.mb f).flight = (s.mb f).flight ∧
    (t.mb f).drop = (if (s.mb f).flight.isSome then 1 else 0) ∧ (∀ g, g ≠ f → t.mb g = s.mb g) ∧ (t.hring f 0).en = false ∧ (t.hring f 1).en = false ∧
    (∀ u x, tget? t.crc u = some x → x.owner ≠ f + 1) ∧ t.objs = s.objs ∧
    t.sys = { s.sys with marks := t.sys.marks, aborts := t.sys.aborts }) ∧
  (∀ s : State, ∃ t, exec .pcieRefclkLoss s = .next t ∧
    (∀ f, f < 4 → (t.mb f).cmd.en = false ∧ (t.mb f).rsp.en = false ∧ (t.mb f).evt.en = false) ∧ ∀ f, f < 4 → tget true t.sys.perst f = false) ∧
  ∀ s : State, exec .perstNDeassert s = .next (s.updSys fun x => { x with perst := [(0, true), (1, true), (2, true), (3, true)] })

/-- The media restart (R69, R79, R717). -/
def Obligations.MediaRestartEndsObjects : Prop :=
  (∀ r s s1, s.turn 0x0004 r = some s1 → r.target = 0 → r.payload = [] → (s1.mode = .ready ∨ s1.inService = true) →
    (∀ g, g < 5 → g ≠ r.mbx → (s.mb g).flight = none ∧ (s.mb g).taken = []) →
    ∃ t, exec (.mediaRestart r) s = .next t ∧ t.mode = .ready ∧ t.sys.restart.isSome = true ∧ t.objs = [] ∧ t.sched = [] ∧ t.used = [] ∧
      ((s.objs.map (·.1)).Nodup → ∀ k o, (k, o) ∈ s.objs → t.gen k = if o.dying then s.gen k else nextGen (s.gen k))) ∧
  (∀ (s : State) (x : Restart), s.sys.restart = some x →
    ∃ t, exec .mediaRestartDone s = .next t ∧ t.sys.restart = none ∧ t.sys.marks = [] ∧ t.mode = s.mode ∧ t.objs = s.objs ∧ t.gens = s.gens) ∧
  ∀ s : State, s.sys.restart = none → exec .mediaRestartDone s = .next s

/-- Resets (R67, R68, R629, R721 to R729, R777). -/
def Obligations.ResetsComplete : Prop :=
  (∀ r s s1, s.turn 0x0003 r = some s1 → r.target = 0 → r.payload.length = 4 → (u8 r.payload 0 = 1 ∨ u8 r.payload 0 = 2) →
    zeros r.payload 1 3 = true → s1.resetRights r.mbx = true → (∀ g, g < 5 → g ≠ r.mbx → (s.mb g).flight = none ∧ (s.mb g).taken = []) →
    s.nvm.jobs = [] →
    ∃ t, exec (.systemReset r) s = .next t ∧ t.mode = .reset ∧ t.objs = [] ∧ t.gens = [] ∧ t.retained = s.retained ∧ t.bkp = s.bkp ∧
      t.rst.source = (if u8 r.payload 0 = 1 then 4 else 9)) ∧
  (∀ r s s1, s.turn 0x0003 r = some s1 → r.target = 0 → r.payload.length = 4 → (u8 r.payload 0 = 1 ∨ u8 r.payload 0 = 2) →
    zeros r.payload 1 3 = true → s1.resetRights r.mbx = false → exec (.systemReset r) s = .next (s1.failed 0x0003 r .denied [])) ∧
  (∀ s : State, s.mode ≠ .reset → s.nvm.jobs = [] →
    ∃ t, exec .resetNAssert s = .next t ∧ t.mode = .reset ∧ t.objs = [] ∧ t.gens = [] ∧ t.retained = s.retained ∧ t.bkp = s.bkp ∧
      t.rst.source = 2) ∧
  (∀ s : State, s.mode ≠ .reset → s.nvm.jobs ≠ [] → s.sys.resetDue = none →
    ∃ t, exec .resetNAssert s = .next t ∧ t.sys = { s.sys with resetDue := some (true, 2) } ∧ t.objs = s.objs ∧ t.nvm = s.nvm) ∧
  (∀ (s : State) (f : Bytes) (b : Bool), s.chainActs 6 b (· == 1) f = true → b = (u8 f 1 % 32 == 0) → u8 (chainData f) 0 = 1 →
    s.sys.strapNmc = true → s.nvm.jobs = [] →
    ∃ t, exec (.chainResetCold f) s = .next t ∧ t.mode = .reset ∧ t.objs = [] ∧ t.retained = s.retained ∧ t.rst.source = 3 ∧
      .chain (if b then f else withStatus f 0) ∈ t.out) ∧
  (∀ (s : State) (f : Bytes) (b : Bool), s.chainActs 6 b (· == 1) f = true → b = (u8 f 1 % 32 == 0) → u8 (chainData f) 0 = 2 →
    s.sys.strapNmc = true → s.nvm.jobs = [] →
    ∃ t, exec (.chainResetWarm f) s = .next t ∧ t.mode = .reset ∧ t.objs = [] ∧ t.retained = s.retained ∧ t.rst.source = 8 ∧
      .chain (if b then f else withStatus f 0) ∈ t.out) ∧
  (∀ (s : State) (f : Bytes), s.chainActs 6 false (· == 1) f = true → s.sys.strapNmc = false →
    (u8 (chainData f) 0 = 1 → exec (.chainResetCold f) s = .next (s.chainCounted.emit (.chain (withStatus f 4)))) ∧
    (u8 (chainData f) 0 = 2 → exec (.chainResetWarm f) s = .next (s.chainCounted.emit (.chain (withStatus f 4))))) ∧
  (∀ s : State, ∃ t, exec .vddAonLoss s = .next t ∧ t.mode = .reset ∧ t.retained = [] ∧ t.bkp = [] ∧ t.nvm.records = s.nvm.cut.records ∧ t.flash = s.flash)

/-- Bring-up (R695, R690, R722, Tables 24.7 and 24.8). -/
def Obligations.BringUpCompletes : Prop :=
  (∀ (s : State) (c a : Nat), c < 4 → a < 8 → ∃ t, exec (.powerOn c a) s = .next t ∧ t.mode = .reset ∧ t.retained = [] ∧ t.objs = [] ∧
    t.rails.waiting = true ∧ t.rails.on = 0 ∧ t.sys.pclass = c ∧ t.sys.pmaddr = a ∧ t.out = .pin 2 0 1 :: s.out) ∧
  (∀ (s : State) (n : Nat), 1 ≤ n → n ≤ 9 → s.rails.waiting = true → n = s.rails.on + 1 → exec (.railPowerGood n) s =
    .next (s.updRails fun x => { x with on := n, waiting := false, gap := decide (n < 9), fails := if n = 9 then 0 else x.fails })) ∧
  (∀ s : State, s.rails.gap = true → ∃ t, exec .railSequenceStep s = .next t ∧ t.rails = { s.rails with gap := false, waiting := true } ∧
    (2 ≤ s.rails.on → t.out = .pin 2 (s.rails.on - 1) 1 :: s.out)) ∧
  (∀ s : State, 3 ≤ s.rails.on → s.sys.refclk = true → exec .rootPllLock s = .next (s.updSys fun x => { x with pll := true })) ∧
  (∀ s : State, exec .refclk25Return s = .next (s.updSys fun x => { x with refclk := true })) ∧
  (∀ s : State, s.mode = .reset → s.rails.on = 9 → s.sys.pll = true → s.sys.refclk = true → s.rails.hot = false → s.rails.down = false →
    ∃ t, exec .resetRelease s = .next t ∧ t.mode = .boot ∧ t = { s with sys := t.sys }) ∧
  (∀ s : State, s.mode = .boot → s.sys.fill = false →
    let k := firstSlot (s.slotBytes 0) (s.slotBytes 1)
    ∃ t, exec .bootRun s = .next t ∧ t.retained = s.retained ∧ t.bkp = s.bkp ∧
      (if verifySlot s.sys.otpCounter (s.slotBytes k) = 0 then
        t.mode = .calibrate ∧ t.sys.slot = k ∧ t.sys.fallback = false ∧ t.sys.fwBuild = u32 (s.slotBytes k) 12
      else if verifySlot s.sys.otpCounter (s.slotBytes (1 - k)) = 0 then
        t.mode = .calibrate ∧ t.sys.slot = 1 - k ∧ t.sys.fallback = true ∧ t.sys.fwBuild = u32 (s.slotBytes (1 - k)) 12
      else t.mode = .halt ∧ t.sys.halted = some 0x0A)) ∧
  (∀ s : State, s.mode = .boot → s.sys.fill = true → ∃ t, exec .bootRun s = .next t ∧ t.retained = [] ∧ t.bkp = [] ∧ t.sys.fill = false) ∧
  (∀ s : State, s.mode = .calibrate →
    ∃ t, exec .calibrateRun s = .next t ∧
      t.mode = (if (trainingFault s.rst.trainings).isNone && fusesGood then .ready else .maintenance) ∧
      t.mem.ddr = (trainingFault s.rst.trainings).isNone ∧ t.mem.hbm = fusesGood ∧ t.pins.applied = true ∧ t.objs = s.objs ∧ ∀ f, f < 5 → (t.mb f).readyRaised = true)

/-- Fatal conditions and HALT (R733, R739 to R741). -/
def Obligations.FatalConditionsHalt : Prop :=
  let halts (c : Nat) (d : Bytes) (s t : State) : Prop :=
    t.mode = .halt ∧ t.sys.halted = some c ∧ t.rst.halts.head? = some (c, s.aonNow) ∧
    t.rst.haltCount = min 3 (1 + (s.rst.halts.filter fun e => decide (s.aonNow < e.2 + 60000000000) && e.1 == c).length) ∧ t.objs = s.objs ∧
    t.nvm.jobs = s.nvm.jobs ++ [s.flightBytes c d]
  (∀ (s : State) (ph da : Nat), s.mode ≠ .reset → s.mode ≠ .halt → (ph < 12 ∨ ph = 0xFF) →
    ∃ t, exec (.overCurrentFault ph da) s = .next t ∧ halts 2 (le 1 ph ++ le 2 da) s t ∧ t.rails.pmIout = true) ∧
  (∀ (s : State) (n : Nat), s.mode ≠ .reset → s.mode ≠ .halt → 1 ≤ n → n ≤ 9 → n ≤ s.rails.on → s.rails.down = false →
    ∃ t, exec (.powerGoodFall n) s = .next t ∧ halts 5 (le 1 n) s t ∧ t.rails.failStep = n) ∧
  (∀ s : State, s.mode ≠ .reset → s.mode ≠ .halt →
    ∃ t, exec .refclk25Loss s = .next t ∧ halts 3 [] s t ∧ t.sys.refclk = false ∧ t.sys.pll = false) ∧
  (∀ s : State, s.mode ≠ .reset → s.mode ≠ .halt → ∃ t, exec .rootPllUnlock s = .next t ∧ halts 4 [] s t ∧ t.sys.pll = false) ∧
  (∀ (s : State) (c : Nat), s.nvm.jobs = [] → s.sys.after = none → s.mode = .halt → s.sys.halted = some c →
    (c ≠ 0x0A → s.rst.haltCount < 3 → ∃ t, exec .flightRecordCommit s = .next t ∧ t.mode = .reset ∧ t.objs = [] ∧ t.retained = s.retained) ∧
    (c = 0x0A ∨ 3 ≤ s.rst.haltCount → exec .flightRecordCommit s = .next (if c = 1 ∨ c = 2 ∨ c = 5 then s.updRails fun x => { x with
        down := decide (0 < x.on), waiting := false, gap := false, hot := false, retry := false } else s))) ∧
  (∀ s : State, s.mode ≠ .reset → s.mode ≠ .halt → ∃ t, exec .secondLevelWatchdogExpiry s = .next t ∧ t.sys = { s.sys with after := some 6 } ∧
    t.objs = s.objs ∧ t.nvm.jobs = s.nvm.jobs ++ [s.flightBytes 9 []]) ∧
  (∀ (s : State) (c : Nat), s.nvm.jobs = [] → s.sys.after = some c → ∃ t, exec .flightRecordCommit s = .next t ∧ t.mode = .reset ∧ t.rst.source = c) ∧
  (∀ (s : State) (c : Nat), s.sys.restart = none → (s.mode = .ready ∨ s.inService = true) →
    ∃ t, exec (.firstLevelWatchdogExpiry c) s = .next t ∧ t.mode = .ready ∧ t.sys.restart.isSome = true ∧ t.objs = [] ∧
      (t.nvm.jobs = s.nvm.jobs ++ [s.flightBytes 8 (le 1 c)] ∨
        t.nvm.jobs = s.nvm.jobs ++ [s.flightBytes 0x0D (le 1 c), (s.flight 0x0D (le 1 c)).flightBytes 8 (le 1 c)])) ∧
  (∀ s : State, s.mode ≠ .reset → s.mode ≠ .halt → s.mode ≠ .boot → ∃ t, exec .pwrFailNAssert s = .next t ∧ t.mode = s.mode ∧ t.objs = s.objs ∧
    t.nvm.jobs = s.nvm.jobs ++ [s.flightBytes 7 []] ∧ t.sys = { s.sys with pwrFail := true }) ∧
  (∀ s : State, s.sys.pwrFail = true → ∃ t, exec .pwrFailNRelease s = .next t ∧ t.sys = { s.sys with pwrFail := false } ∧ t.nvm = s.nvm ∧ t.objs = s.objs) ∧
  ∀ (s : State) (f : Nat), f < 4 → s.mode.isOpen = true →
    exec (.rstClrHaltCount f) s = .next (s.updRst fun x => { x with haltCount := 0, halts := [] })

/-- The flight-record NVM (R711 to R713, R729). Whether a word verifies is the device's own (`Config.wordFails`). -/
def Obligations.NvmWritesComplete : Prop :=
  (∀ (s : State) (r : Bytes) (l : List Bytes), s.nvm.jobs = r :: l → s.sys.resetDue = none → s.nvm.word + 1 < 16 →
    ∃ t, exec .nvmWordPulseEnd s = .next t ∧ t.nvm.jobs = s.nvm.jobs ∧
      (if Config.wordFails s.nvm.sector (s.nvm.sec s.nvm.sector).2 s.nvm.word then (t.nvm.sec s.nvm.sector).1 = .retired
       else t = s.updNvm fun n => { n with word := n.word + 1 })) ∧
  (∀ (s : State) (r : Bytes) (l : List Bytes), s.nvm.jobs = r :: l → s.sys.resetDue = none → s.nvm.word = 15 →
    4 ≤ (s.nvm.setSec s.nvm.sector .record (s.nvm.sec s.nvm.sector).2).usable →
    ∃ t, exec .nvmWordPulseEnd s = .next t ∧
      (if Config.wordFails s.nvm.sector (s.nvm.sec s.nvm.sector).2 15 then
        (t.nvm.sec s.nvm.sector).1 = .retired ∧ t.nvm.jobs = s.nvm.jobs
       else t.nvm.jobs = l ∧ t.nvm.seq = s.nvm.seq + 1 ∧ t.rst.last = u8 r 5 ∧
        (s.nvm.records ≠ [] ∨ l ≠ [] → (s.nvm.sector, r) ∈ t.nvm.records))) ∧
  (∀ (s : State) (cold : Bool) (c : Nat), s.sys.resetDue = some (cold, c) →
    ∃ t, exec .nvmWordPulseEnd s = .next t ∧ t.mode = .reset ∧ t.rst.held = true ∧ t.rst.source = c) ∧
  ∀ (s : State) (i : Nat), s.nvm.erase = some i → (s.nvm.sec i).2 + 1 < 950000 →
    ∃ t, exec .nvmEraseDone s = .next t ∧ t.nvm.sec i = (.erased, (s.nvm.sec i).2 + 1) ∧ t.objs = s.objs ∧ t.sys = s.sys

/-- PMBus (R710). The bit places of STATUS_WORD and of MFR_SEQ_STATUS are the model's (log entries 61 and 62). -/
def Obligations.PmbusAnswers : Prop :=
  ∀ s : State,
    exec .voutMode s = .next (s.emit (.read [0x14])) ∧
    exec .readVout s = .next (s.emit (.read (le 2 (if s.rails.on < 2 then 0 else s.pwr.mv * 4096 / 1000)))) ∧
    exec .readIout s = .next (s.emit (.read (le 2 (linear11 s.pwr.current 10)))) ∧
    exec .readTemperature1 s = .next (s.emit (.read (le 2 (linear11 s.pwr.junction 1)))) ∧
    exec .readTemperature2 s = .next (s.emit (.read (le 2 (linear11 s.pwr.aon 1)))) ∧
    exec .readPout s = .next (s.emit (.read (le 2 (linear11 s.pwr.last 1000)))) ∧
    exec .mfrSeqStatus s = .next (s.emit (.read (le 1 (s.rails.failStep + 16 * s.rails.fails)))) ∧
    (∃ p : Bytes, p.length = 2 ∧ exec .statusWord s = .next (s.emit (.read p))) ∧
    exec .clearFaults s = .next (s.updRails fun x => { x with pmVout := false, pmIout := false, pmTemp := false, pmCml := false, pmMfr := false }) ∧
    ∀ c, c < 256 → c ∉ [0x03, 0x20, 0x79, 0x8B, 0x8C, 0x8D, 0x8E, 0x96, 0xD0] →
      exec (.pmbusUnsupportedCommand c) s = .next (s.updRails fun x => { x with pmCml := true })

/-- Power, thermal, NVM and mode commands (R699, R705, R717, R743). -/
def Obligations.PowerAndModeCommandsComplete : Prop :=
  (∀ r s s1, s.turn 0x0F00 r = some s1 → r.target = 0 → r.payload.length = 4 → 1 ≤ u8 r.payload 0 → u8 r.payload 0 ≤ 3 →
    zeros r.payload 1 3 = true →
    (u8 r.payload 0 = s1.pwr.cls → exec (.powerClassSet r) s = .next (s1.answered 0x0F00 r 0 [])) ∧
    (u8 r.payload 0 ≠ s1.pwr.cls → (s1.pwr.cls < u8 r.payload 0 ∨ s1.classOver (u8 r.payload 0) = none) →
      exec (.powerClassSet r) s =
        .next (((s1.updPwr fun p => { p with cls := u8 r.payload 0 }).schedule (.block s1.nextBlock) (r.origin 0) .applied).accepted 0x0F00 r 0 []))) ∧
  (∀ r s s1, s.turn 0x0F01 r = some s1 → r.target = 0 → r.payload.length = 4 → zeros r.payload 3 1 = true →
    signed 8 (u8 r.payload 0) < signed 8 (u8 r.payload 1) → signed 8 (u8 r.payload 1) < signed 8 (u8 r.payload 2) →
    signed 8 (u8 r.payload 2) ≤ (if Config.gradeX then 120 else 115) →
    exec (.thermalSet r) s = .next (((s1.updPwr fun p => { p with
      pend := some (signed 8 (u8 r.payload 0), signed 8 (u8 r.payload 1), signed 8 (u8 r.payload 2)) }).schedule .sample (r.origin 0) .applied).accepted
        0x0F01 r 0 [])) ∧
  (∀ r s s1, s.turn 0x0F02 r = some s1 → r.target = 0 → r.payload = [] →
    ∃ p, p.length = 48 ∧ exec (.powerStatusGet r) s = .next ((s1.updPwr fun x => { x with mMax := 0 }).answered 0x0F02 r 0 p)) ∧
  (∀ r s s1, s.turn 0x0F03 r = some s1 → r.target = 0 → r.payload = [] →
    ∃ p, p.length = 16 ∧ exec (.nvmStatusGet r) s = .next (s1.answered 0x0F03 r 0 p)) ∧
  (∀ r s s1 m, s.turn 0x0F10 r = some s1 → r.target = 0 → r.payload.length = 4 → zeros r.payload 1 3 = true →
    modeNamed (u8 r.payload 0) = some m →
    (s1.mode = m → exec (.modeSet r) s = .next (s1.answered 0x0F10 r 0 [])) ∧
    (s1.mode ≠ m → s1.mayMove m = true →
      ∃ t : State, exec (.modeSet r) s = .next (t.answered 0x0F10 r 0 []) ∧ t.mode = m ∧ t.objs = s1.objs ∧
        (s1.mode ≠ .maintenance → t = { s1 with sys := t.sys, mbx := t.mbx, nmc := t.nmc, out := t.out }))) ∧
  (∀ (r : Req) (s s1 : State) (l : List (Nat × Bytes)), s.turn 0x0F11 r = some s1 → r.target = 0 → r.payload.length = 20 → u16 r.payload 2 ≤ 128 →
    u32 r.payload 12 = 128 * u16 r.payload 2 → zeros r.payload 16 4 = true →
    l = (s1.nvm.records.drop (u16 r.payload 0)).take (u16 r.payload 2) → l.flatMap (·.2) ≠ [] →
    exec (.flightRecordRead r) s = .next (State.waiting (s1.emit (.hostWrite (u64 r.payload 4) (l.flatMap (·.2)))) 0x0F11 r .write
      (le 2 l.length ++ le 2 s1.nvm.records.length ++ le 2 s1.nvm.discarded ++ le 2 0))) ∧
  (∀ r s s1, s.turn 0x0F11 r = some s1 → r.target = 0 → r.payload.length = 20 → u16 r.payload 2 = 0 → u32 r.payload 12 = 0 →
    zeros r.payload 16 4 = true →
    exec (.flightRecordRead r) s = .next (s1.answered 0x0F11 r 0 (le 2 0 ++ le 2 s1.nvm.records.length ++ le 2 s1.nvm.discarded ++ le 2 0)))

/-- Firmware, OTP, debug and lane tests (R734 to R737, Table 24.14). Whether an image or a signature verifies is a matter of the
device's keys (`Config`); the challenge and a lane's counts are free values. -/
def Obligations.FirmwareAndDebugCommandsComplete : Prop :=
  (∀ r s s1, s.turn 0x0F12 r = some s1 → r.target = 0 → r.payload.length = 20 → u8 r.payload 0 < 2 → u8 r.payload 0 ≠ s1.sys.slot →
    zeros r.payload 1 3 = true → u32 r.payload 12 ≤ slotSize → zeros r.payload 16 4 = true →
    (u32 r.payload 12 = 0 → exec (.firmwareSlotWrite r) s = .next (s1.waiting 0x0F12 r .flash [])) ∧
    (u32 r.payload 12 ≠ 0 → exec (.firmwareSlotWrite r) s = .next (s1.waiting 0x0F12 r .read []))) ∧
  (∀ (s u : State) (f : Nat) (x : Flight), f < 5 → (s.mb f).flight = some x → x.wait = .flash →
    (∀ g, g < 5 → g ≠ f → (s.mb g).flight.all (fun y => y.wait != .flash) = true) → u = (s.updMb f fun m => { m with flight := none }) →
    exec .firmwareSlotWriteDone s = .next (State.settleTaken
      (if verifySlot s.sys.otpCounter x.resp = 0 then
        State.answered { u with flash := tset s.flash (u8 x.req.payload 0) x.resp } x.op x.req 0 []
      else State.failed { u with flash := tset s.flash (u8 x.req.payload 0) [] } x.op x.req .invalidArg []) f)) ∧
  (∀ r s s1, s.turn 0x0F13 r = some s1 → r.target = 0 → r.payload.length = 36 → s1.mode = .ready → s1.onyx.otp = none →
    (aes256 (r.payload.take 32) (List.replicate 16 0)).take 4 = r.payload.drop 32 →
    exec (.otpKekWrite r) s = .next ((s1.updOnyx fun o => { o with otp := some (r.payload.take 32) }).answered 0x0F13 r 0 [])) ∧
  (∀ r s s1, s.turn 0x0F14 r = some s1 → r.target = 0 → r.payload = [] → s1.sys.otpCounter ≤ 64 → s1.sys.secVersion ≤ 64 →
    exec (.firmwareCommit r) s = .next ((s1.updSys fun x => { x with otpCounter := max s1.sys.otpCounter s1.sys.secVersion }).answered
      0x0F14 r 0 (le 4 (max s1.sys.otpCounter s1.sys.secVersion)))) ∧
  (∀ r s s1, s.turn 0x0F15 r = some s1 → r.target = 0 → r.payload = [] →
    ∃ c, c.length = 16 ∧ exec (.debugChallengeGet r) s =
      .next (({ s1 with fresh := s1.fresh + 2, sys := { s1.sys with challenge := some c } } : State).answered 0x0F15 r 0 c)) ∧
  (∀ r s s1 c, s.turn 0x0F16 r = some s1 → r.target = 0 → r.payload.length = 96 → s1.sys.challenge = some c →
    ∃ t, exec (.debugUnlock r) s = .next t ∧ t.sys.challenge = none ∧ t.objs = s1.objs ∧
      (if verify384 Config.debugKey (le 8 Config.serial.toNat ++ c) r.payload then
        t.sys.unlocked = true ∧ t.nvm.jobs = s1.nvm.jobs ++ [s1.flightBytes 0x0C (le 1 r.mbx)]
      else t = (s1.updSys fun x => { x with challenge := none }).failed 0x0F16 r .denied [])) ∧
  (∀ r s s1, s.turn 0x0F17 r = some s1 → r.target = 0 → r.payload.length = 4 → u8 r.payload 0 < 32 → u8 r.payload 1 < 4 →
    zeros r.payload 2 2 = true → s1.mode = .maintenance → s1.laneLive (u8 r.payload 0) = false →
    exec (.laneTestSet r) s =
      .next ((s1.updSys fun x => { x with laneTests := tset x.laneTests (u8 r.payload 0) (u8 r.payload 1) }).answered 0x0F17 r 0 [])) ∧
  (∀ r s s1, s.turn 0x0F18 r = some s1 → r.target = 0 → r.payload.length = 4 → u8 r.payload 0 < 32 → zeros r.payload 1 3 = true →
    ∃ p, p.length = 16 ∧ u8 p 0 = tget 0 s1.sys.laneTests (u8 r.payload 0) % 256 ∧
      exec (.laneTestGet r) s = .next (({ s1 with fresh := s1.fresh + 2 } : State).answered 0x0F18 r 0 p))

/-- Metering, temperature, shedding, AVS (R124, R692 to R709). -/
def Obligations.PowerEventsComplete : Prop :=
  (∀ (s : State) (w : Nat), ∃ t, exec (.powerSample w) s = .next t ∧ t.pwr.last = w ∧ t.pwr.sum = s.pwr.sum + w ∧
    t.pwr.energy = (if classW s.pwr.target * 1000 < w then s.pwr.energy - (w - classW s.pwr.target * 1000) * 18
      else min (bucket s.pwr.target) (s.pwr.energy + refillOf s.pwr.target)) ∧ t.objs = s.objs ∧ t.mode = s.mode) ∧
  (∀ (s : State) (l : List Nat), l.length = 12 → ∃ t, exec (.currentSample l) s = .next t ∧ t.pwr.amps = (l.sum :: s.pwr.amps).take 10 ∧
    (t.pwr.limit = true → t.pwr.share = 8) ∧ t.mode = s.mode) ∧
  (∀ (s : State) (l : List Int), l.length = 16 → s.mode ≠ .reset → s.mode ≠ .halt →
    ∃ t, exec (.temperatureSample l) s = .next t ∧ t.pwr.temps = l ∧
      (s.pwr.trip ≤ (hottest l).2 → t.mode = .halt ∧ t.sys.halted = some 1) ∧ ((hottest l).2 < s.pwr.trip → t.mode = s.mode)) ∧
  (∀ (s : State) (x : Int), s.mode ≠ .reset → s.mode ≠ .halt →
    ∃ t, exec (.aonTemperatureSample x) s = .next t ∧ t.pwr.aon = x ∧ (s.pwr.trip ≤ x → t.mode = .halt) ∧ (x < s.pwr.trip → t.mode = s.mode)) ∧
  (∀ (s : State) (l : List Int), l.length = 9 → ∃ t, exec (.dramTemperatureRead l) s = .next t ∧ t.pwr.dram = l ∧
    (∀ c, c < 40 → (t.mem.chan c).temp = l.getD (min c 8) 0) ∧ t.objs = s.objs) ∧
  (∀ s : State, s.mode = .shed → s.shedNow = false →
    exec .shedClassEscalation s = .next (s.updPwr fun p => { p with cls4 := 4 })) ∧
  (∀ s : State, s.mode = .shed → s.shedNow = true → 1 < s.pwr.cls4 → s.pwr.cls4 < 4 → s.pwr.shedAt + 100000000 ≤ s.now →
    ∃ t, exec .shedClassEscalation s = .next t ∧ t.pwr.cls4 = s.pwr.cls4 - 1 ∧ t.pwr.shedAt = s.block * blockNs ∧ t.mode = .shed) ∧
  (∀ (s : State) (m : Mode), s.mode = .shed → 500 ≤ s.pwr.calm → s.sys.remembered = some m → m ≠ .shed →
    ∃ t, exec .shedExit s = .next t ∧ t.mode = m ∧ t.sys.remembered = none ∧ t.objs = s.objs) ∧
  (∀ s : State, exec .throttledShareEnd s = .next (s.updWork fun w => { w with throttled := false })) ∧
  (∀ (s : State) (v : Nat), ∃ t, exec (.avsUpdate v) s = .next t ∧ t.pwr.mv = (if s.pwr.mv < v then min 850 (s.pwr.mv + 5)
    else if v + 10 < s.pwr.mv then max 700 (s.pwr.mv - 5) else s.pwr.mv) ∧ t = { s with pwr := t.pwr })

/-- Rail failures and power-down (R696, R697, R709), SerDes reference loss (R691). -/
def Obligations.RailFailuresComplete : Prop :=
  (∀ s : State, s.rails.waiting = true → ∃ t, exec .powerGoodTimeout s = .next t ∧ t.rails.failStep = s.rails.on + 1 ∧
    t.rails.fails = min 3 (s.rails.fails + 1) ∧ t.rails.waiting = false ∧ t.rails.down = decide (0 < s.rails.on) ∧
    t.rails.retry = decide (s.rails.fails + 1 < 3) ∧ t.nvm.jobs.length = s.nvm.jobs.length + 1 ∧ t.mode = s.mode) ∧
  (∀ s : State, s.rails.retry = true → ∃ t, exec .railRetry s = .next t ∧ t.out = .pin 2 0 1 :: s.out ∧
    t.rails = { s.rails with waiting := true, gap := false, down := false, on := 0, retry := false, hot := false }) ∧
  (∀ s : State, s.rails.hot = true → s.pwr.aon ≤ s.pwr.trip - 20 → ∃ t, exec .tripCooldownExpiry s = .next t ∧ t.out = .pin 2 0 1 :: s.out ∧
    t.rails = { s.rails with waiting := true, gap := false, down := false, on := 0, retry := false, hot := false }) ∧
  (∀ s : State, s.rails.down = true → ∃ t, exec .railPowerDownStep s = .next t ∧
    t.rails = { s.rails with on := s.rails.on - 1, down := decide (1 < s.rails.on) } ∧ (3 ≤ s.rails.on → t.out = .pin 2 (s.rails.on - 2) 0 :: s.out)) ∧
  (∀ s : State, (s.net.ports.map (·.1)).Nodup →
    ∃ t, exec .serdesRefclkLoss s = .next t ∧ (∀ p x, tget? t.net.ports p = some x → x.up = false) ∧
      ∀ e ∈ t.cascade.links, e.2.st = 0)

/-- The matrix commands (chapter 5). -/
def Obligations.MatrixCommandsComplete : Prop :=
  (∀ r s s1 ws b, s.turn 0x0300 r = some s1 → r.target = 0 → r.payload.length = 4 + 12 * u16 r.payload 0 → zeros r.payload 2 2 = true →
    s1.nodeWrites 0 (nodeEntries (r.payload.drop 4) (u16 r.payload 0)) = .ok ws → ws ≠ [] →
    (∀ e ∈ nodeEntries (r.payload.drop 4) (u16 r.payload 0), e.2.2.2 = 0) →
    (∀ w ∈ ws, s1.breaksNode w.2.2.1 w.2.2.2 w.2.1 = false) → s1.placeBlock r.mbx ws.length = some b →
    s1.admits (tileCost (s1.tileAsk (s1.matrix.withWrites b (r.origin 0) ws) (tilesOf (ws.map (·.1))))) = true →
    ∃ t : State, exec (.nodeSet r) s = .next (t.accepted 0x0300 r 0 (le 8 b)) ∧ t.objs = s1.objs ∧ t.matrix.plane = s1.matrix.plane ∧
      t.matrix.queue = s1.matrix.queue ++ [{ block := b, what := .writes ws, org := r.origin 0 }] ∧
      ∃ e ∈ t.sched, e.at_ = .block b ∧ e.act = .applied ∧ e.org = r.origin 0) ∧
  (∀ r s s1, s.turn 0x0301 r = some s1 → r.target = 0 → r.payload.length = 24 → u32 r.payload 0 ≤ 65536 →
    u32 r.payload 16 = 12 * u32 r.payload 0 → 0 < u32 r.payload 0 → zeros r.payload 4 4 = true → zeros r.payload 20 4 = true →
    exec (.nodeSetBulk r) s = .next (s1.waiting 0x0301 r .read [])) ∧
  (∀ r s s1 ka kb b gains cut, s.turn 0x0302 r = some s1 → r.target = 0 → r.payload.length = 12 → s1.lives (u32 r.payload 0) ka 0x02 →
    s1.lives (u32 r.payload 4) kb 0x02 → 1 ≤ u8 r.payload 10 → u8 r.payload 10 ≤ 10 → zeros r.payload 11 1 = true →
    s1.breaksNode ka kb (BitVec.ofNat 16 (u16 r.payload 8)) = false → s1.matrix.mayFade (node (s1.legM ka) (s1.legM kb)) gains.length = true →
    s1.placeFade r.mbx (node (s1.legM ka) (s1.legM kb)) (BitVec.ofNat 16 (u16 r.payload 8)) (u8 r.payload 10) = some (b, gains, cut) →
    s1.admits (tileCost (s1.tileAsk (s1.matrix.withFade (fadeOf r s1 ka kb b gains cut)) [tileOf (node (s1.legM ka) (s1.legM kb))])) = true →
    ∃ t : State, exec (.nodeFade r) s = .next (t.accepted 0x0302 r 0 (le 8 b)) ∧ t.objs = s1.objs ∧ t.matrix.plane = s1.matrix.plane ∧
      t.matrix.queue = s1.matrix.queue ∧ (gains ≠ [] → ∃ f ∈ t.matrix.fades, f.node = node (s1.legM ka) (s1.legM kb) ∧ f.start = b ∧ f.gains = gains)) ∧
  (∀ r s s1 ka kb, s.turn 0x0303 r = some s1 → r.target = 0 → r.payload.length = 8 → s1.lives (u32 r.payload 0) ka 0x02 →
    s1.lives (u32 r.payload 4) kb 0x02 →
    ∃ p, p.length = 8 ∧ u16 p 0 = (s1.gainAfter (node (s1.legM ka) (s1.legM kb)) s1.block).toNat ∧
      exec (.nodeGet r) s = .next (s1.answered 0x0303 r 0 p)) ∧
  (∀ r s s1, s.turn 0x0304 r = some s1 → r.target = 0 → r.payload.length = 16 → u32 r.payload 8 = 8192 → zeros r.payload 12 4 = true →
    exec (.matrixTileMapGet r) s = .next (State.waiting (s1.emit (.hostWrite (u64 r.payload 0) (tileMap s1.matrix.count)))
      0x0304 r .write (le 8 s1.planeBlock))) ∧
  (∀ r s s1, s.turn 0x030B r = some s1 → r.target = 0 → r.payload = [] →
    ∃ p, p.length = 48 ∧ exec (.matrixStatsGet r) s = .next ((s1.updMatrix fun x => { x with longest := 0 }).answered 0x030B r 0 p)) ∧
  (∀ r s s1 key, s.turn 0x0110 r = some s1 → r.payload.length = 4 → s1.lives r.tgt key 0x01 → u8 r.payload 0 = 0 →
    zeros r.payload 1 1 = true →
    exec (.sessionMixSet r) s = .next (State.answered { s1 with audio := { s1.audio with
      sessions := tset s1.audio.sessions (kidx key) { autoMix := false, gain := BitVec.ofNat 16 (u16 r.payload 2) } } } 0x0110 r r.tgt [])) ∧
  (∀ r s s1 key ws b, s.turn 0x0110 r = some s1 → r.payload.length = 4 → s1.lives r.tgt key 0x01 → u8 r.payload 0 = 1 →
    (s1.members (kidx key) true).length ≤ 256 → zeros r.payload 1 1 = true → s1.breaksSession (s1.members (kidx key) false) = false →
    ws = s1.meshWrites (kidx key) (BitVec.ofNat 16 (u16 r.payload 2)) → ws ≠ [] → s1.placeBlock r.mbx ws.length = some b →
    s1.admits (tileCost (s1.tileAsk (s1.matrix.withWrites b (r.origin r.tgt) ws) (tilesOf (ws.map (·.1))))) = true →
    ∃ t : State, exec (.sessionMixSet r) s = .next (t.accepted 0x0110 r r.tgt []) ∧ t.objs = s1.objs ∧ t.matrix.plane = s1.matrix.plane ∧
      tget? t.audio.sessions (kidx key) = some { autoMix := true, gain := BitVec.ofNat 16 (u16 r.payload 2) } ∧
      t.matrix.queue = s1.matrix.queue ++ [{ block := b, what := .writes ws, org := r.origin r.tgt }] ∧
      ∃ e ∈ t.sched, e.at_ = .block b ∧ e.act = .applied ∧ e.org = r.origin r.tgt)

/-- Meters and duck groups (R164, R166, R167). -/
def Obligations.MetersAndDucksComplete : Prop :=
  (∀ r s s1 pts i, s.turn 0x0305 r = some s1 → r.target = 0 → r.payload.length = 8 + 8 * u8 r.payload 6 →
    s1.meterPoints r.payload 0 (u8 r.payload 6) = .ok pts → s1.inService = true → 20 ≤ u16 r.payload 0 → u16 r.payload 0 ≤ 10000 →
    u16 r.payload 0 % 2 = 0 → u16 r.payload 2 ≤ 10000 → u16 r.payload 4 ≤ 1000 → 1 ≤ u8 r.payload 6 → u8 r.payload 6 ≤ 16 →
    zeros r.payload 7 1 = true →
    (∀ i < u8 r.payload 6, (u8 r.payload (12 + 8 * i) = 1 ∨ u8 r.payload (12 + 8 * i) = 2) ∧ zeros r.payload (13 + 8 * i) 3 = true) →
    s1.lowestFree 0x0C 0 4096 = some i → i < 2 ^ 20 →
    ∃ t : State, exec (.meterSubscribe r) s = .next (t.answered 0x0305 r (s1.handle (okey 0x0C i)) []) ∧
      (∃ o, tget? t.objs (okey 0x0C i) = some o ∧ o.owner = r.mbx ∧ o.dying = false) ∧
      tget? t.matrix.subs i = some { period := u16 r.payload 0, hold := u16 r.payload 2, decay := u16 r.payload 4, points := pts, blocks := 0 }) ∧
  (∀ r s s1 ses i, s.turn 0x0307 r = some s1 → r.target = 0 → r.payload.length = 12 → s1.lives (u32 r.payload 0) ses 0x01 →
    s1.inService = true → u8 r.payload 4 ≤ 60 → 1 ≤ u8 r.payload 5 → u8 r.payload 5 ≤ 3 → 1 ≤ u16 r.payload 6 → u16 r.payload 6 ≤ 600 →
    1 ≤ u16 r.payload 8 → u16 r.payload 8 ≤ 600 → u16 r.payload 10 ≤ 5000 → u16 r.payload 10 % 2 = 0 →
    s1.lowestFree 0x0D 0 1024 = some i → i < 2 ^ 20 →
    ∃ t : State, exec (.duckGroupCreate r) s = .next (t.answered 0x0307 r (s1.handle (okey 0x0D i)) []) ∧
      (∃ o, tget? t.objs (okey 0x0D i) = some o ∧ o.owner = r.mbx ∧ o.dying = false) ∧
      (∃ d, tget? t.matrix.ducks i = some d ∧ d.session = kidx ses ∧ d.st = .idle ∧ d.members = [])) ∧
  (∀ r s s1 key, s.turn 0x0306 r = some s1 → r.payload = [] → s1.lives r.tgt key 0x0C →
    ∃ t : State, exec (.meterUnsubscribe r) s = .next (t.accepted 0x0306 r r.tgt []) ∧ t.gen key = nextGen (s1.gen key) ∧
      ∃ e ∈ t.sched, e.at_ = .block (s1.firstBlock r.mbx) ∧ e.act = .free key) ∧
  (∀ r s s1 key, s.turn 0x0308 r = some s1 → r.payload = [] → s1.lives r.tgt key 0x0D →
    ∃ t : State, exec (.duckGroupDestroy r) s = .next (t.accepted 0x0308 r r.tgt []) ∧ t.gen key = nextGen (s1.gen key) ∧
      ∃ e ∈ t.sched, e.at_ = .block (s1.firstBlock r.mbx) ∧ e.act = .free key) ∧
  (∀ r s s1 key legs, s.turn 0x0309 r = some s1 → r.payload.length = 4 + 4 * u8 r.payload 1 → s1.lives r.tgt key 0x0D →
    s1.duckLegs r.payload 0 (u8 r.payload 1) = .ok legs → 1 ≤ u8 r.payload 0 → u8 r.payload 0 ≤ 3 → u8 r.payload 1 ≤ 54 →
    zeros r.payload 2 2 = true → s1.duckBreak (kidx key) (u8 r.payload 0) (s1.ducksAhead (s1.firstBlock r.mbx)) legs = none →
    exec (.duckMemberSet r) s = .next (State.accepted
      (s1.schedule (.block (s1.firstBlock r.mbx)) (r.origin r.tgt) (.duckSet (kidx key) (u8 r.payload 0) legs)) 0x0309 r r.tgt [])) ∧
  (∀ r s s1 key, s.turn 0x030A r = some s1 → r.payload.length = 4 → s1.lives r.tgt key 0x0D → u8 r.payload 0 ≤ 1 → zeros r.payload 1 3 = true →
    exec (.duckForce r) s = .next (State.accepted
      (s1.schedule (.block (s1.firstBlock r.mbx)) (r.origin r.tgt) (.duckForce (kidx key) (u8 r.payload 0 == 1))) 0x030A r r.tgt [])) ∧
  (∀ (s : State) (i : Nat) (u : MeterSub), i < 4096 → tget? s.matrix.subs i = some u → u.period ≤ 2 * u.blocks →
    ∃ t, exec (.meterReport i) s = .next t ∧ (∃ v, tget? t.matrix.subs i = some v ∧ v.blocks = 0 ∧ v.period = u.period) ∧ t.objs = s.objs) ∧
  (∀ (s : State) (g : Nat) (d : Duck), g < 1024 → tget? s.matrix.ducks g = some d →
    ∃ t, exec (.duckHangExpiry g) s = .next t ∧
      tget? t.matrix.ducks g = some (if d.st = .hang ∧ d.hang ≤ 2 * d.quiet then { d with st := .release } else d) ∧ t.objs = s.objs)

/-- Sessions and legs: create and destroy (R155, R180, R215). -/
def Obligations.LegsCreatedAndDestroyed : Prop :=
  (∀ r s s1 i, s.turn 0x0100 r = some s1 → r.target = 0 → r.payload = [] → s1.inService = true → s1.lowestFree 1 0 4096 = some i → i < 2 ^ 20 →
    ∃ t : State, exec (.sessionCreate r) s = .next (t.answered 0x0100 r (s1.handle (okey 1 i)) []) ∧
      (∃ o, tget? t.objs (okey 1 i) = some o ∧ o.owner = r.mbx ∧ o.dying = false) ∧ thas t.audio.sessions i = true) ∧
  (∀ r s s1 key, s.turn 0x0101 r = some s1 → r.payload = [] → s1.lives r.tgt key 0x01 → s1.members (kidx key) true = [] →
    (∀ e ∈ s1.matrix.ducks, e.2.session ≠ kidx key) → (∀ e ∈ s1.video.legs, u32 e.2.cfg 4 % 2 ^ 20 ≠ kidx key) →
    ∃ t : State, exec (.sessionDestroy r) s = .next (t.answered 0x0101 r r.tgt []) ∧ tget? t.objs key = none ∧ t.gen key = nextGen (s1.gen key) ∧
      tget? t.audio.sessions (kidx key) = none) ∧
  (∀ r s s1 ses m i core kind, s.turn 0x0200 r = some s1 → r.target = 0 → u8 r.payload 0 = kind → 1 ≤ kind → kind ≤ 3 →
    r.payload.length = (if kind = 2 then 32 else 96) → s1.lives (u32 r.payload 4) ses 0x01 → s1.inService = true →
    s1.autoGain (kidx ses) = none → s1.autoGain (u32 r.payload 4 % 2 ^ 20) = none → legCommonOk r.payload = true →
    (kind = 1 → s1.portOk (u8 r.payload 32) = true ∧ u32 r.payload 24 = 0 ∧ u32 r.payload 28 = 0 ∧ legRtpOk r.payload = true ∧
      s1.keyHeld (legKeyOf r.payload) = false) →
    (kind = 2 → (∃ k, s1.lives (u32 r.payload 24) k 0x09) ∧ s1.timeslotOk r.payload = true ∧ zeros r.payload 29 3 = true ∧
      codecFields 2 (u8 r.payload 1) (u8 r.payload 12) (u8 r.payload 13) (u16 r.payload 14) (u16 r.payload 10) 0 0 0 = true ∧ u32 r.payload 24 ≠ 0) →
    (kind = 3 → r.mbx < 4 ∧ zeros r.payload 24 8 = true ∧ legRtpOk r.payload = true) →
    s1.pickNumber (u16 r.payload 8) = some m → s1.lowestFree 2 0 16384 = some i → i < 2 ^ 20 →
    s1.admits (plusCost (s1.legCost r.payload) (s1.tilesFor r.mbx [])) = true →
    s1.pickCore (codecQuanta kind (u8 r.payload 1)) = some core →
    ∃ (t : State) (p : Bytes), exec (.legCreate r) s = .next (t.accepted 0x0200 r (s1.handle (okey 2 i)) p) ∧ p.length = 8 ∧ u16 p 0 = m % 65536 ∧
      (∃ o, tget? t.objs (okey 2 i) = some o ∧ o.owner = r.mbx ∧ o.dying = false ∧ o.cost = s1.legCost r.payload) ∧
      (∃ l, tget? t.audio.legs i = some l ∧ l.cfg = r.payload ∧ l.core = core) ∧
      t.used = plusCost s1.used (s1.legCost r.payload)) ∧
  (∀ r s s1 key l b, s.turn 0x0201 r = some s1 → r.payload = [] → s1.lives r.tgt key 0x02 → s1.leg key = some l → l.trunk = false →
    s1.critical key = false → s1.placeBlock r.mbx 512 = some b →
    ∃ t : State, exec (.legDestroy r) s = .next (t.accepted 0x0201 r r.tgt []) ∧ t.gen key = nextGen (s1.gen key) ∧
      ∃ e ∈ t.sched, e.at_ = .block b ∧ e.act = .free key)

/-- Leg commands and timers (R83, R184 to R213). -/
def Obligations.LegCommandsComplete : Prop :=
  (∀ r s s1 key o, s.turn 0x0202 r = some s1 → r.payload = [] → s1.lives r.tgt key 0x02 → s1.obj key = some o → o.active = false →
    (o.shed = false ∨ s1.mode ≠ .shed) →
    exec (.legEnable r) s = .next (State.accepted ((s1.updObj key fun o => { o with active := true, shed := false }).schedule
      (.block (s1.firstBlock r.mbx)) (r.origin r.tgt) (.live key true)) 0x0202 r r.tgt [])) ∧
  (∀ r s s1 key o, s.turn 0x0203 r = some s1 → r.payload = [] → s1.lives r.tgt key 0x02 → s1.obj key = some o → o.active = true →
    exec (.legHold r) s = .next (State.accepted ((s1.updObj key fun o => { o with active := false }).schedule
      (.block (s1.firstBlock r.mbx)) (r.origin r.tgt) (.live key false)) 0x0203 r r.tgt [])) ∧
  (∀ r s s1 key l, s.turn 0x0204 r = some s1 → r.payload.length = 16 → s1.lives r.tgt key 0x02 → s1.leg key = some l → l.trunk = false →
    chainOk l.kind (u8 (s1.cfgAhead key l.cfg) 1) r.payload = true →
    exec (.legChainSet r) s = .next (State.accepted (s1.schedule (.block (s1.firstBlock r.mbx)) (r.origin r.tgt) (.chain key r.payload)) 0x0204 r r.tgt [])) ∧
  (∀ r s s1 key l, s.turn 0x0205 r = some s1 → r.payload.length = 16 → s1.lives r.tgt key 0x02 → s1.leg key = some l → l.trunk = false →
    codecSetOk l.kind (s1.flagsAhead key l) r.payload = true →
    s1.firstOver (overCost (plusCost (s1.legCost (withCodec (s1.cfgAhead key l.cfg) r.payload))
      (s1.mirrorRise key (withCodec (s1.cfgAhead key l.cfg) r.payload))) (s1.legCost (s1.cfgAhead key l.cfg))) = none →
    codecQuanta l.kind (u8 (withCodec (s1.cfgAhead key l.cfg) r.payload) 1) - codecQuanta l.kind (u8 (s1.cfgAhead key l.cfg) 1) ≤
      s1.coreRoom l.core →
    ∃ t : State, exec (.legCodecSet r) s = .next (t.accepted 0x0205 r r.tgt []) ∧
      t.audio = (s1.updLeg key fun l => { l with quanta := l.quanta +
        (codecQuanta l.kind (u8 (withCodec (s1.cfgAhead key l.cfg) r.payload) 1) - codecQuanta l.kind (u8 (s1.cfgAhead key l.cfg) 1)) }).audio ∧
      ∃ e ∈ t.sched, e.at_ = .block (s1.firstBlock r.mbx) ∧ e.act = .codec key r.payload ∧ e.org = r.origin r.tgt) ∧
  (∀ r s s1 key l, s.turn 0x0206 r = some s1 → r.payload.length = 16 → s1.lives r.tgt key 0x02 → s1.leg key = some l → l.trunk = false →
    s1.isActive key = true →
    toneOk (l.kind != 2 && u8 (s1.cfgAhead key l.cfg) 36 != 255) (codedRate (u8 (s1.cfgAhead key l.cfg) 1) (u16 (s1.cfgAhead key l.cfg) 14)) r.payload = true →
    exec (.legToneStart r) s = .next (State.accepted (s1.schedule (.block (s1.firstBlock r.mbx)) (r.origin r.tgt) (.play key false r.payload)) 0x0206 r r.tgt [])) ∧
  (∀ r s s1 key, s.turn 0x0207 r = some s1 → r.payload = [] → s1.lives r.tgt key 0x02 →
    exec (.legToneStop r) s = .next (State.accepted (s1.schedule (.block (s1.firstBlock r.mbx)) (r.origin r.tgt) (.stopPlay key)) 0x0207 r r.tgt [])) ∧
  (∀ r s s1 key l, s.turn 0x0208 r = some s1 → r.payload.length = 8 → s1.lives r.tgt key 0x02 → s1.leg key = some l → l.trunk = false →
    u16 r.payload 0 < 256 → s1.isActive key = true → thas s1.audio.clips (u16 r.payload 0) = true →
    (u8 r.payload 2 = 1 ∨ u8 r.payload 2 = 2) → zeros r.payload 3 1 = true → zeros r.payload 6 2 = true → s1.admits playCost = true →
    ∃ t : State, exec (.legPlay r) s = .next (t.accepted 0x0208 r r.tgt []) ∧ t.audio = s1.audio ∧
      ∃ e ∈ t.sched, e.at_ = .block (s1.firstBlock r.mbx) ∧ e.act = .play key true r.payload) ∧
  (∀ r s s1, s.turn 0x0209 r = some s1 → r.target = 0 → r.payload.length = 20 → u16 r.payload 0 < 256 → s1.clipUsed (u16 r.payload 0) = false →
    zeros r.payload 2 2 = true → zeros r.payload 16 4 = true → 2 ≤ u32 r.payload 12 → u32 r.payload 12 ≤ 2 ^ 24 → u32 r.payload 12 % 2 = 0 →
    exec (.clipLoad r) s = .next (s1.waiting 0x0209 r .read [])) ∧
  (∀ r s s1, s.turn 0x020A r = some s1 → r.target = 0 → r.payload.length = 4 → u16 r.payload 0 < 256 → s1.clipUsed (u16 r.payload 0) = false →
    zeros r.payload 2 2 = true →
    exec (.clipFree r) s = .next (State.answered { s1 with audio := { s1.audio with clips := tdel s1.audio.clips (u16 r.payload 0) } } 0x020A r 0 [])) ∧
  (∀ r s s1 key l, s.turn 0x020B r = some s1 → r.payload = [] → s1.lives r.tgt key 0x02 → s1.leg key = some l →
    ∃ p, p.length = 72 ∧ exec (.legStatsGet r) s = .next (s1.answered 0x020B r r.tgt p)) ∧
  (∀ (s : State) (i : Nat) (l : Leg), i < 16384 → tget? s.audio.legs i = some l →
    (l.tone = none → l.clip = none → exec (.playDone i) s = .next s) ∧
    (∀ x n, l.tone = some x → l.clip = none → s.playBlocks x = some n → x.start + n ≤ s.block + 1 →
      ∃ t m, exec (.playDone i) s = .next t ∧ tget? t.audio.legs i = some m ∧ m.tone = none)) ∧
  (∀ (s : State) (i : Nat) (l : Leg), i < 16384 → tget? s.audio.legs i = some l → l.voice = true → l.lastSpeech + u16 l.chain 8 / 2 ≤ s.block →
    ∃ t m, exec (.vadHangExpiry i) s = .next t ∧ tget? t.audio.legs i = some m ∧ m.voice = false ∧ t.objs = s.objs) ∧
  (∀ (s : State) (i : Nat) (l : Leg), i < 16384 → tget? s.audio.legs i = some l → l.rx = 2 → 60 ≤ l.concealMs →
    ∃ t m, exec (.concealmentEnd i) s = .next t ∧ tget? t.audio.legs i = some m ∧ m.rx = 3 ∧ t.objs = s.objs)

/-- Garnet kernels (chapter 7). -/
def Obligations.KernelCommandsComplete : Prop :=
  (∀ r s s1, s.turn 0x0D00 r = some s1 → r.target = 0 → r.payload.length = 16 → s1.inService = true → zeros r.payload 12 4 = true →
    u32 r.payload 8 ≠ 0 → exec (.kernelLoad r) s = .next (s1.waiting 0x0D00 r .read [])) ∧
  (∀ r s s1 key, s.turn 0x0D01 r = some s1 → r.payload = [] → s1.lives r.tgt key 7 → s1.kernelBound (kidx key) = false →
    ∃ t : State, exec (.kernelUnload r) s = .next (t.accepted 0x0D01 r r.tgt []) ∧ t.gen key = nextGen (s1.gen key) ∧
      ∃ e ∈ t.sched, e.at_ = .block (s1.firstBlock r.mbx) ∧ e.act = .free key) ∧
  (∀ r s s1 key kk l k slot old, s.turn 0x0D02 r = some s1 → r.payload.length = 72 → s1.lives r.tgt key 2 → s1.lives (u32 r.payload 0) kk 7 →
    u8 r.payload 4 = slot → (slot = 1 ∨ slot = 2) → s1.leg key = some l → s1.kernel (kidx kk) = some k → l.trunk = false →
    u8 r.payload 5 = k.params → k.mask / slot % 2 = 1 → zeros r.payload 6 2 = true →
    zeros r.payload (8 + u8 r.payload 5) (64 - u8 r.payload 5) = true →
    s1.poolUsed ((key, slot, kidx kk) :: (s1.boundOn l.core).filter fun e => !(e.1 == key && e.2.1 == slot)) ≤ 49152 →
    old = ((s1.slotAhead key slot).map (·.2.1)).getD 0 →
    s1.firstOver (overCost (costOf [(1, 0, ceilDiv k.w 46000)]) (costOf [(1, 0, old)])) = none → ceilDiv k.w 46000 - old ≤ s1.coreRoom l.core →
    ∃ t : State, exec (.kernelBind r) s = .next (t.accepted 0x0D02 r r.tgt []) ∧
      t.audio = (s1.updLeg key fun l => { l with quanta := l.quanta + (ceilDiv k.w 46000 - old) }).audio ∧
      ∃ e ∈ t.sched, e.at_ = .block (s1.firstBlock r.mbx) ∧
        e.act = .bind key slot (kidx kk) (ceilDiv k.w 46000) ((r.payload.drop 8).take (u8 r.payload 5))) ∧
  (∀ r s s1 key b, s.turn 0x0D03 r = some s1 → r.payload.length = 4 → s1.lives r.tgt key 2 → (u8 r.payload 0 = 1 ∨ u8 r.payload 0 = 2) →
    s1.slotAhead key (u8 r.payload 0) = some b → zeros r.payload 1 3 = true →
    ∃ t : State, exec (.kernelUnbind r) s = .next (t.accepted 0x0D03 r r.tgt []) ∧ t.audio = s1.audio ∧
      ∃ e ∈ t.sched, e.at_ = .block (s1.firstBlock r.mbx) ∧ e.act = .unbind key (u8 r.payload 0)) ∧
  (∀ r s s1 key k q x, s.turn 0x0D04 r = some s1 → r.payload.length = 68 → s1.lives r.tgt key 2 → (u8 r.payload 0 = 1 ∨ u8 r.payload 0 = 2) →
    s1.slotAhead key (u8 r.payload 0) = some (k, q, false) → s1.kernel k = some x → u8 r.payload 1 = x.params → zeros r.payload 2 2 = true →
    zeros r.payload (4 + u8 r.payload 1) (64 - u8 r.payload 1) = true →
    exec (.kernelParamSet r) s = .next (State.accepted (s1.schedule (.block (s1.firstBlock r.mbx)) (r.origin r.tgt)
      (.params key (u8 r.payload 0) ((r.payload.drop 4).take (u8 r.payload 1)))) 0x0D04 r r.tgt [])) ∧
  (∀ r s s1 key k, s.turn 0x0D05 r = some s1 → r.payload = [] → s1.lives r.tgt key 7 → s1.kernel (kidx key) = some k →
    ∃ p, p.length = 32 ∧ exec (.kernelStatsGet r) s = .next (s1.answered 0x0D05 r r.tgt p)) ∧
  (∀ (s : State) (leg slot : Nat) (b : Binding), leg < 16384 → (s.leg (okey 2 leg)).bind (·.binding slot) = some b →
    (b.overTimes = none → exec (.cyclesException leg slot) s = .next s) ∧
    ∀ u blk, b.overTimes = some (u, blk) → exec (.cyclesException leg slot) s = .next (s.kernelFault (okey 2 leg) slot 3 u blk))

/-- Work items (chapter 8). `settle` passes on the results that are released in order (R264). -/
def Obligations.WorkItemsComplete : Prop :=
  (∀ (s : State) (src : Nat) (d : Bytes), src < 8 → descOk d = true → s.work.waiting src (dKind d) = [] →
    (s.work.accepts d = true → ∃ t i, exec (.workSubmit src d) s = .next t ∧ t.work.items = s.work.items ++ [i] ∧
      i.id = s.work.nextId (dList d) ∧ i.desc = d ∧ i.source = src ∧ i.st = .queued ∧ t = { s with work := t.work }) ∧
    (s.work.accepts d = false → ∃ t, exec (.workSubmit src d) s = .next t ∧ t.work.items = s.work.items ∧
      ∃ x, t.work.waiting src (dKind d) = [x] ∧ x.desc = d)) ∧
  (∀ (s : State) (src kind : Nat) (x : Submission) (rest : List Submission), src < 8 → s.work.waiting src kind = x :: rest →
    s.work.accepts x.desc = true →
    ∃ t i l, exec (.submissionResume src kind) s = .next t ∧ t.work.items = s.work.items ++ i :: l ∧ i.desc = x.desc ∧ i.st = .queued ∧
      t = { s with work := t.work } ∧ (rest = [] → l = [] ∧ t.work.waiting src kind = [])) ∧
  (∀ (s t : State) (kind inst : Nat) (i : Item), unitOk kind inst = true → s.unitDown 0x0A 0 = false →
    s.dispatch kind inst = (t, some i) → exec (.workDispatch kind inst) s = .next (t.startJob inst i) ∧ t = { s with work := t.work } ∧
      (i.job = .none → t.startJob inst i = t) ∧ ∀ j ∈ t.work.items, j.id = i.id → j.st = .running (instNo kind inst)) ∧
  (∀ (s : State) (kind inst : Nat), unitOk kind inst = true → s.unitDown 0x0A 0 = true → exec (.workDispatch kind inst) s = .next s) ∧
  (∀ (s : State) (id res kind inst : Nat) (err : Bool) (d : Bytes) (i : Item), (s.work.items.find? fun x => x.id == id) = some i →
    i.runsOn = some (kind, inst) →
    exec (.itemComplete id err res d) s = .next (State.drainEnd (State.settle (State.endWhere
      (if i.resultFrom then s.setItemData id d else s) (fun x => x.id == id)
      (if kind = 6 ∧ s.onyx.stopped.getLsbD inst = true then 5 else if i.marked then 1 else if err then 5 else 0) (res % 2 ^ 32))) kind inst)) ∧
  (∀ (s : State) (id res : Nat) (err : Bool) (d : Bytes) (i : Item) (n : Nat), s.work.items = [i] → i.id = id → i.st = .running n →
    i.job = .none → s.work.released = [] →
    ∃ t, exec (.itemComplete id err res d) s = .next t ∧ t.work.items = []) ∧
  (∀ (s : State) (id : Nat) (i : Item), (s.work.items.find? fun x => x.id == id) = some i → dDeadline i.desc ≠ 0 →
    exec (.itemDeadlineExpiry id) s = .next (State.settle ((s.at (dDeadline i.desc)).expireItem id))) ∧
  (∀ (s : State) (byHandle : Bool) (x : Nat), exec (.workCancel byHandle x) s =
    .next (State.settle (s.cancelWhere fun i => if byHandle then dObj i.desc == x else i.id == x))) ∧
  (∀ (s : State) (id : Nat) (i : Item), s.work.items = [i] → i.id = id → i.st = .queued → i.job = .none → s.work.released = [] →
    dDeadline i.desc ≠ 0 → s.now ≤ dDeadline i.desc →
    ∃ t, exec (.itemDeadlineExpiry id) s = .next t ∧ t.now = dDeadline i.desc ∧ t.work.items = []) ∧
  (∀ (s : State) (id : Nat) (i : Item), s.work.items = [i] → i.id = id → i.job = .none → s.work.released = [] →
    (i.st = .queued → ∃ t, exec (.workCancel false id) s = .next t ∧ t.work.items = []) ∧
    (∀ n, i.st = .running n → ∃ t, exec (.workCancel false id) s = .next t ∧ t.work.items = [{ i with marked := true }]))

/-- Engine instances (R86 to R91, R273 to R285). -/
def Obligations.InstancesComplete : Prop :=
  (∀ (s : State) (kind inst cause : Nat), inst < engineCount kind → 1 ≤ cause → cause ≤ 4 → s.serving = true →
    (s.faultTimes kind inst).length < 3 →
    ∃ t, exec (.engineFault kind inst cause) s = .next t ∧ (t.inst kind inst).down = true ∧ (t.inst kind inst).st = (s.inst kind inst).st ∧
      ∀ f, f < 5 → (t.mb f).flight = none ∧ (t.mb f).taken = []) ∧
  (∀ (s : State) (kind inst cause : Nat), inst < engineCount kind → 1 ≤ cause → cause ≤ 4 → s.serving = true → s.trio.id = 0 →
    3 ≤ (s.faultTimes kind inst).length →
    ∃ t, exec (.engineFault kind inst cause) s = .next t ∧ (t.inst kind inst).down = true ∧ (t.inst kind inst).st = .retired) ∧
  (∀ (s : State) (id kind inst : Nat) (i : Item), (s.work.items.find? fun x => x.id == id) = some i → i.runsOn = some (kind, inst) →
    exec (.itemTimeout id) s = .next ((s.at (i.started + s.itemBound i)).engineFault kind inst 3)) ∧
  (∀ (s : State) (kind inst : Nat), inst < engineCount kind → kind ≠ 1 → kind ≠ 2 → (s.inst kind inst).down = true →
    ((s.inst kind inst).st = .retired → exec (.instanceReturn kind inst) s = .next s) ∧
    ((s.inst kind inst).st = .enabled →
      exec (.instanceReturn kind inst) s = .next (s.updInst kind inst fun i => { i with down := false }))) ∧
  (∀ (s : State) (kind inst : Nat), inst < engineCount kind → (s.inst kind inst).down = true → (s.inst kind inst).st ≠ .retired →
    ∃ t : State, exec (.instanceReturn kind inst) s = .next t ∧ (t.inst kind inst).down = false ∧ t.objs = s.objs ∧
      ((s.inst kind inst).st = .enabled → (t.inst kind inst).st = .enabled) ∧
      (kind = 2 → t.matrix.plane = s.matrix.shadow ∧ t.matrix.down = false)) ∧
  (∀ r s s1, s.turn 0x0F51 r = some s1 → r.target = 0 → r.payload.length = 4 → unitOk (u8 r.payload 0) (u16 r.payload 2) = true →
    (s1.inst (u8 r.payload 0) (u16 r.payload 2)).st ≠ .draining → (s1.inst (u8 r.payload 0) (u16 r.payload 2)).st ≠ .retired →
    zeros r.payload 1 1 = true →
    exec (.dispatchEnable r) s =
      .next (State.answered (s1.updInst (u8 r.payload 0) (u16 r.payload 2) fun x => { x with st := .enabled }) 0x0F51 r 0 [])) ∧
  (∀ r s s1, s.turn 0x0F50 r = some s1 → r.target = 0 → r.payload.length = 8 → unitOk (u8 r.payload 0) (u16 r.payload 2) = true →
    (s1.inService = true ∨ s1.mode = .maintenance) → (s1.inst (u8 r.payload 0) (u16 r.payload 2)).st = .enabled →
    (s1.inst (u8 r.payload 0) (u16 r.payload 2)).down = false → s1.work.items = [] → s1.work.released = [] →
    (u8 r.payload 0 = 1 → ∀ e ∈ s1.audio.legs, e.2.core ≠ u16 r.payload 2) → u8 r.payload 1 = 1 → zeros r.payload 4 4 = true →
    tget 0 s1.used (bkey (kindBudget (u8 r.payload 0)) 0) ≤
      (s1.updInst (u8 r.payload 0) (u16 r.payload 2) fun x => { x with st := .draining, drainBy := some r.mbx }).ceiling (kindBudget (u8 r.payload 0)) 0 →
    ∃ t, exec (.dispatchDisable r) s = .next t ∧ (t.inst (u8 r.payload 0) (u16 r.payload 2)).st = .disabled ∧ t.objs = s1.objs ∧ t.used = s1.used) ∧
  (∀ r s s1 k i, s.turn 0x0F50 r = some s1 → r.target = 0 → r.payload.length = 8 → k = u8 r.payload 0 → i = u16 r.payload 2 → unitOk k i = true →
    (s1.inService = true ∨ s1.mode = .maintenance) → (s1.inst k i).st = .enabled → (k = 1 → ∀ e ∈ s1.audio.legs, e.2.core ≠ i) →
    (u8 r.payload 1 = 1 ∨ u8 r.payload 1 = 2) → zeros r.payload 4 4 = true →
    tget 0 s1.used (bkey (kindBudget k) 0) ≤
      (s1.updInst k i fun x => { x with st := .draining, drainBy := some r.mbx }).ceiling (kindBudget k) 0 →
    ∃ (t : State) (p : Bytes), exec (.dispatchDisable r) s = .next (State.drainEnd (State.settle (t.answered 0x0F50 r 0 p)) k i) ∧
      (t.inst k i).st = .draining ∧ (t.inst k i).drainBy = some r.mbx ∧ t.objs = s1.objs ∧ t.used = s1.used ∧
      (u8 r.payload 1 = 1 → p = le 4 (s1.drainBound (s1.running k i)) ++ le 4 0 ∧ t.work.items.map (·.id) = s1.work.items.map (·.id)) ∧
      (u8 r.payload 1 = 2 → ∀ x ∈ t.work.items, x.heldBy (instList k i) (instNo k i) = false)) ∧
  (∀ r s s1, s.turn 0x0F52 r = some s1 → r.target = 0 → r.payload.length = 4 → unitOk (u8 r.payload 0) (u16 r.payload 2) = true →
    (u8 r.payload 0 = 1 ∨ u16 r.payload 2 = 0) → zeros r.payload 1 1 = true →
    ∃ (t : State) (p : Bytes), p.length = 40 ∧ exec (.dispatchStatsGet r) s = .next (t.answered 0x0F52 r 0 p) ∧
      t = { s1 with work := { s1.work with stats := t.work.stats } }) ∧
  (∀ (s : State) (kind inst : Nat), unitOk kind inst = true → (s.inst kind inst).st = .draining →
    ∃ t, exec (.drainBoundExpiry kind inst) s = .next t ∧ (t.inst kind inst).st ≠ .draining)

/-- Video legs (chapter 11). -/
def Obligations.VideoLegCommandsComplete : Prop :=
  (∀ r s s1 ses i, s.turn 0x0400 r = some s1 → r.target = 0 → r.payload.length = 104 → s1.lives (u32 r.payload 4) ses 0x01 →
    (u32 r.payload 8 = 0 ∨ ∃ k, s1.lives (u32 r.payload 8) k 0x08 ∧ s1.bindable k 1 = true) →
    (u32 r.payload 12 = 0 ∨ ∃ k, s1.lives (u32 r.payload 12) k 0x08 ∧ s1.bindable k 2 = true) → s1.portOk (u8 r.payload 16) = true → s1.inService = true →
    (u8 r.payload 0 = 1 ∨ u8 r.payload 0 = 2) → vlegOk r.payload = true → s1.keyHeld (videoKeyOf r.payload) = false →
    s1.lowestFree 3 0 8192 = some i → i < 2 ^ 20 → s1.admits (vlegCost r.payload) = true →
    ∃ (t : State) (p : Bytes), exec (.videoLegCreate r) s = .next (t.answered 0x0400 r (s1.handle (okey 3 i)) p) ∧ p.length = 4 ∧
      (∃ o, tget? t.objs (okey 3 i) = some o ∧ o.owner = r.mbx ∧ o.dying = false ∧ o.cost = vlegCost r.payload) ∧
      thas t.video.legs i = true ∧ t.used = plusCost s1.used (overCost (vlegCost r.payload) [])) ∧
  (∀ r s s1 key, s.turn 0x0401 r = some s1 → r.payload = [] → s1.lives r.tgt key 0x03 → s1.critical key = false →
    ∃ t : State, exec (.videoLegDestroy r) s = .next (t.accepted 0x0401 r r.tgt []) ∧ t.gen key = nextGen (s1.gen key) ∧
      ∃ e ∈ t.sched, e.at_ = s1.legBound key ∧ e.act = .free key) ∧
  (∀ r s s1 key o, s.turn 0x0402 r = some s1 → r.payload = [] → s1.lives r.tgt key 0x03 → s1.obj key = some o → o.active = false → s1.mode ≠ .shed →
    exec (.videoLegEnable r) s = .next (State.accepted ((s1.updObj key fun o => { o with active := true, shed := false }).schedule
      (s1.legBound key) (r.origin r.tgt) (.live key true)) 0x0402 r r.tgt [])) ∧
  (∀ r s s1 key o, s.turn 0x0403 r = some s1 → r.payload = [] → s1.lives r.tgt key 0x03 → s1.obj key = some o → o.active = true →
    exec (.videoLegHold r) s = .next (State.accepted ((s1.updObj key fun o => { o with active := false }).schedule
      (s1.legBound key) (r.origin r.tgt) (.live key false)) 0x0403 r r.tgt [])) ∧
  (∀ r s s1 key l, s.turn 0x0404 r = some s1 → r.payload.length = 12 → s1.lives r.tgt key 0x03 → s1.vleg key = some l → l.sending = false →
    u32 r.payload 0 = 0 → u8 r.payload 8 ≤ 2 → u8 r.payload 9 ≤ 3 → zeros r.payload 10 2 = true →
    exec (.forwardSet r) s = .next (State.answered (s1.updVleg key fun l => { l with
      target := u32 r.payload 4, maxS := u8 r.payload 8, maxT := u8 r.payload 9, source := none, old := none, st := 0, cur := none, wanted := none })
      0x0404 r r.tgt [])) ∧
  (∀ r s s1 key l k, s.turn 0x0404 r = some s1 → r.payload.length = 12 → s1.lives r.tgt key 0x03 → s1.vleg key = some l → l.sending = false →
    u32 r.payload 0 ≠ 0 → s1.checkHandle (u32 r.payload 0) [0x03, 0x05] = .ok k → (∀ x, s1.vleg k = some x → x.sending = true) →
    (∀ e, s1.enc k = some e → s1.burstCovers l.cfg e (fun i => ((e.streams[i]?).map (·.cpb)).getD 0) = true) →
    u8 r.payload 8 ≤ 2 → u8 r.payload 9 ≤ 3 → zeros r.payload 10 2 = true → (s1.critical key = true → s1.critical k = true) →
    (l.source ≠ some k → ((s1.receivers k).filter (· != key)).length < 1024 →
      ∃ t : State, exec (.forwardSet r) s = .next (State.accepted (t.chooseAll.schedule (.refill (vqueue key)) (r.origin r.tgt) .applied) 0x0404 r r.tgt []) ∧
        t.objs = s1.objs ∧
        ∃ m, t.vleg key = some m ∧ m.source = some k ∧ m.old = (if l.st = 2 then l.source else l.old) ∧ m.st = 1 ∧
          m.target = u32 r.payload 4 ∧ m.maxS = u8 r.payload 8 ∧ m.maxT = u8 r.payload 9) ∧
    (l.source = some k → exec (.forwardSet r) s = .next (State.answered (State.chooseAll (s1.updVleg key fun l => { l with
      target := u32 r.payload 4, maxS := u8 r.payload 8, maxT := u8 r.payload 9 })) 0x0404 r r.tgt []))) ∧
  (∀ r s s1 key l, s.turn 0x0405 r = some s1 → r.payload.length = 4 → s1.lives r.tgt key 0x03 → s1.vleg key = some l → l.sending = false →
    exec (.forwardTargetSet r) s = .next (State.answered (State.chooseAll (s1.updVleg key fun l => { l with target := u32 r.payload 0 }))
      0x0405 r r.tgt [])) ∧
  (∀ r s s1 key l, s.turn 0x0406 r = some s1 → r.payload = [] → s1.lives r.tgt key 0x03 → s1.vleg key = some l →
    ∃ p, p.length = 48 ∧ exec (.videoLegStatsGet r) s = .next (s1.answered 0x0406 r r.tgt p))

/-- Decoding and key frames (chapters 9 and 11). -/
def Obligations.DecodeAndKeyFramesComplete : Prop :=
  (∀ r s s1 key l, s.turn 0x0420 r = some s1 → r.payload.length = 32 → s1.lives r.tgt key 0x03 → s1.vleg key = some l → l.sending = true →
    decodeOk r.payload = true → syntaxSize r.payload ≤ s1.syntaxFree key →
    s1.firstOver (overCost (decodeCost r.payload) ((l.decl.map decodeCost).getD [])) = none →
    ∃ t : State, exec (.decodeSet r) s = .next (t.accepted 0x0420 r r.tgt []) ∧ (∃ m, t.vleg key = some m ∧ m.decl = some r.payload ∧ m.decode = l.decode) ∧
      ∃ e ∈ t.sched, e.at_ = .picture (kidx key) s1.now ∧ e.act = .decodeSet key r.payload) ∧
  (∀ r s s1 key l p, s.turn 0x0421 r = some s1 → r.payload = [] → s1.lives r.tgt key 0x03 → s1.vleg key = some l → l.sending = true → l.decl = some p →
    ∃ t : State, exec (.decodeClear r) s = .next (t.accepted 0x0421 r r.tgt []) ∧ (∃ m, t.vleg key = some m ∧ m.decl = none ∧ m.decode = l.decode) ∧
      ∃ e ∈ t.sched, e.at_ = s1.legBound key ∧ e.act = .decodeClear key) ∧
  (∀ r s s1 key l, s.turn 0x0422 r = some s1 → r.payload.length = 4 → s1.lives r.tgt key 0x03 → s1.vleg key = some l → l.sending = true →
    (s1.following = false ∨ s1.critical key = false) → s1.isActive key = true → (u8 r.payload 0 = 1 ∨ u8 r.payload 0 = 2) → zeros r.payload 1 3 = true →
    ∃ (t : State) (p : Bytes), exec (.keyFrameRequest r) s = .next (t.answered 0x0422 r r.tgt p) ∧ p.length = 4 ∧
      t = s1.request key { method := u8 r.payload 0, ssrc := l.ssrcOf 0, why := 2 } ∧ (s1.mayRequest l = true → p = le 4 1)) ∧
  (∀ r s s1 key l, s.turn 0x0423 r = some s1 → r.payload = [] → s1.lives r.tgt key 0x03 → s1.vleg key = some l → l.sending = true →
    ∃ p, p.length = 48 ∧ exec (.decodeStatsGet r) s = .next (s1.answered 0x0423 r r.tgt p)) ∧
  (∀ (s : State) (i t0 : Nat) (d : Decode), i < 8192 → s.dec (okey 3 i) = some d → d.began = some t0 → d.st = 1 → u8 d.cfg 25 ≠ 0 →
    t0 + u8 d.cfg 25 * 100000000 ≤ s.now →
    exec (.decodeStartTimeout i) s = .next (s.updDec (okey 3 i) fun d => { d with forced := some (t0 + u8 d.cfg 25 * 100000000), began := none })) ∧
  (∀ (s : State) (i : Nat) (l : VLeg), i < 8192 → s.vleg (okey 3 i) = some l →
    (s.mayRequest l = true → exec (.keyFrameRequestDeferred i) s = .next ((State.runDeferred (okey 3 i) l.deferred.length s).repeatRequest (okey 3 i))) ∧
    (s.mayRequest l = false → exec (.keyFrameRequestDeferred i) s = .next s)) ∧
  (∀ (s : State) (i t0 : Nat) (d : Decode), i < 8192 → s.dec (okey 3 i) = some d → d.episode = some (t0, false) →
    (u8 d.cfg 24 = 3 → t0 + 500000000 ≤ s.now → exec (.firEscalation i) s = .next (s.policyRequest (okey 3 i) true)) ∧
    (u8 d.cfg 24 ≠ 3 → exec (.firEscalation i) s = .next s)) ∧
  (∀ (s : State) (i : Nat) (l : Leg), i < 16384 → tget? s.audio.legs i = some l → u16 l.cfg 18 ≠ 0 → (l.kind = 1 ∨ l.kind = 3) →
    s.flows (okey 2 i) = true → l.rx ≠ 4 → l.lastArrival + u16 l.cfg 18 * 1000000 ≤ s.now →
    ∃ t m, exec (.mediaTimeout (okey 2 i)) s = .next t ∧ tget? t.audio.legs i = some m ∧ m.rx = 4 ∧ t.objs = s.objs) ∧
  (∀ (s : State) (i : Nat), i < 8192 → exec (.mediaTimeout (okey 3 i)) s = .next (s.videoTimeout (okey 3 i))) ∧
  (∀ s : State, (s.video.legs.map (·.1)).Nodup → (∀ e ∈ s.video.legs, e.1 < 8192) →
    ∃ t : State, exec .layerRecompute s = .next t ∧ t.objs = s.objs ∧ t.now = s.now ∧
    ∀ i l, tget? s.video.legs i = some l → ∃ m, tget? t.video.legs i = some m ∧
      m.window = l.window.filter (fun e => decide (s.now < e.1 + 1200000000)) ∧ m.target = l.target ∧ m.cfg = l.cfg ∧
      (l.sending = true → m.wanted = l.wanted)) ∧
  (∀ (s s1 : State) (i src : Nat) (l : VLeg), i < 8192 → (s.video.legs.filter fun e => !e.2.sending) = [(i, l)] → tget? s.video.legs i = some l →
    l.source = some src → s.flows (okey 3 i) = true → l.st ≠ 0 →
    s1 = { s with video := { s.video with
      legs := tmap s.video.legs (fun _ l => { l with window := l.window.filter fun e => decide (s.now < e.1 + 1200000000) }),
      encs := tmap s.video.encs (fun _ e => { e with streams := e.streams.map fun x =>
        { x with window := x.window.filter fun w => decide (s.now < w.1 + 1200000000) } }) } } →
    ∃ (t : State) (m : VLeg), exec .layerRecompute s = .next t ∧ tget? t.video.legs i = some m ∧
      m.wanted = wantedPoint (s1.points src l.maxS l.maxT) (s1.pointRate src) (if l.st = 2 then l.cur else none) (min l.target (u32 l.cfg 32))
        (u8 l.cfg 19 / 4 % 2 == 1)) ∧
  (∀ (s : State) (i : Nat), i < 8192 → (∀ e ∈ s.sched, ∀ since, e.at_ = .leg i since → s.now < since + 100000000) →
    exec (.videoLegBoundaryTimeout i) s = .next s) ∧
  (∀ (s : State) (i : Nat) (due : Sched → Bool), i < 8192 → (∀ e, due e = true ↔ e.from_ ≤ s.now ∧ ∃ since, e.at_ = .leg i since ∧ since + 100000000 ≤ s.now) →
    exec (.videoLegBoundaryTimeout i) s = .next ((s.sched.filter due).foldl State.applySched { s with sched := s.sched.filter fun e => !due e })) ∧
  (∀ (s : State) (i since : Nat) (e : Sched), i < 8192 → s.sched = [e] → e.at_ = .leg i since → since + 100000000 ≤ s.now → e.from_ ≤ s.now →
    exec (.videoLegBoundaryTimeout i) s = .next (State.applySched { s with sched := [] } e)) ∧
  (∀ (s : State) (i since : Nat), i < 8192 → since + 100000000 ≤ s.now →
    s.sched = [{ at_ := .leg i since, org := noOrigin, act := .live (okey 3 i) true, from_ := 0 }] → (s.obj (okey 3 i)).isSome = true →
    ∃ t : State, exec (.videoLegBoundaryTimeout i) s = .next t ∧ t.flows (okey 3 i) = true)

/-- Encodings (chapter 10). -/
def Obligations.EncodingCommandsComplete : Prop :=
  (∀ r s s1 cs i, s.turn 0x0600 r = some s1 → r.target = 0 → r.payload.length = 32 + 32 * u8 r.payload 10 →
    (∀ k : List (Nat × Comp) → Eff, s1.withComps (encStreams r.payload) k = k cs) → s1.inService = true →
    (encOk r.payload && (encStreams r.payload).all streamOk && (cs.map (·.1)).eraseDups.length == cs.length &&
      cs.all (fun c => c.2.period == (cs.headD c).2.period && c.2.phase == (cs.headD c).2.phase) &&
      (cs.zip (encStreams r.payload)).all (fun e => streamRateOk r.payload e.1.2 (u32 e.2 16) (u32 e.2 20) &&
        s1.streamFits r.payload e.1.1 e.1.2 (u32 e.2 20) none)) = true →
    s1.lowestFree 5 0 1024 = some i → i < 2 ^ 20 → s1.admits (encTotal r.payload cs ((encStreams r.payload).map fun q => u32 q 16)) = true →
    ∃ (t : State) (p : Bytes), exec (.encodingCreate r) s = .next (t.answered 0x0600 r (s1.handle (okey 5 i)) p) ∧ p.length = 8 ∧
      (∃ o, tget? t.objs (okey 5 i) = some o ∧ o.owner = r.mbx ∧ o.dying = false) ∧ thas t.video.encs i = true) ∧
  (∀ r s s1 key, s.turn 0x0601 r = some s1 → r.payload = [] → s1.lives r.tgt key 0x05 →
    ∃ t : State, exec (.encodingDestroy r) s = .next (t.accepted 0x0601 r r.tgt []) ∧ t.gen key = nextGen (s1.gen key) ∧
      ∃ e ∈ t.sched, e.at_ = s1.encBound key ∧ e.act = .free key) ∧
  (∀ r s s1 key o, s.turn 0x0602 r = some s1 → r.payload = [] → s1.lives r.tgt key 0x05 → s1.obj key = some o → o.active = false → s1.mode ≠ .shed →
    exec (.encodingEnable r) s = .next (State.accepted ((s1.updObj key fun o => { o with active := true, shed := false }).schedule
      (s1.encBound key) (r.origin r.tgt) (.live key true)) 0x0602 r r.tgt [])) ∧
  (∀ r s s1 key o, s.turn 0x0603 r = some s1 → r.payload = [] → s1.lives r.tgt key 0x05 → s1.obj key = some o → o.active = true →
    exec (.encodingHold r) s = .next (State.accepted ((s1.updObj key fun o => { o with active := false }).schedule
      (s1.encBound key) (r.origin r.tgt) (.live key false)) 0x0603 r r.tgt [])) ∧
  (∀ r s s1 key e x c, s.turn 0x0604 r = some s1 → r.payload.length = 20 → s1.lives r.tgt key 0x05 → s1.enc key = some e →
    e.streams[u8 r.payload 0]? = some x → s1.comp x.comp = some c →
    rateFields (u8 r.payload 1) (u8 r.payload 2) (u8 r.payload 3) (u8 r.payload 4) (u32 r.payload 8) (u32 r.payload 12) = true →
    zeros r.payload 5 3 = true → streamRateOk e.cfg c (u32 r.payload 12) (u32 r.payload 16) = true →
    s1.streamFits e.cfg x.comp c (u32 r.payload 16) (some (key, u8 r.payload 0)) = true →
    (u32 r.payload 16 ≤ x.cpb ∨ ∀ k ∈ s1.receivers key, ∀ l, s1.vleg k = some l → s1.burstCovers l.cfg e (fun i =>
      if i = u8 r.payload 0 then u32 r.payload 16 else ((e.streams[i]?).map (·.cpb)).getD 0) = true) →
    s1.firstOver (overCost (addCost (minusCost (s1.objCost key) [(bkey 0x0004 0, s1.capAhead key (u8 r.payload 0) x.cap)]) (bkey 0x0004 0)
      (u32 r.payload 12)) (s1.objCost key)) = none →
    ∃ t : State, exec (.encodingRateSet r) s = .next (t.accepted 0x0604 r r.tgt []) ∧ t.video = s1.video ∧
      ∃ e ∈ t.sched, e.at_ = s1.encBound key ∧ e.act = .rate (kidx key) r.payload) ∧
  (∀ r s s1 key e, s.turn 0x0605 r = some s1 → r.payload.length = 4 → s1.lives r.tgt key 0x05 → s1.enc key = some e →
    (s1.following = false ∨ s1.critical key = false) → s1.isActive key = true → 1 ≤ u8 r.payload 0 → u8 r.payload 0 < 8 →
    u8 r.payload 0 < 2 ^ e.streams.length → zeros r.payload 1 3 = true →
    ∃ (t : State) (p : Bytes), exec (.encodingKeyFrame r) s = .next (t.accepted 0x0605 r r.tgt p) ∧ p.length = 4 ∧ t.objs = s1.objs ∧
      ∃ e' ∈ t.sched, e'.at_ = .keys (kidx key) ((List.range e.streams.length).filter fun i => (u8 r.payload 0).testBit i) ∧ e'.act = .applied ∧
        e'.org = r.origin r.tgt) ∧
  (∀ r s s1 key x, s.turn 0x0606 r = some s1 → r.payload.length = 4 → s1.lives r.tgt key 0x05 → zeros r.payload 1 3 = true →
    (s1.enc key).bind (·.streams[u8 r.payload 0]?) = some x →
    ∃ p, p.length = 56 ∧ exec (.encodingStatsGet r) s = .next (s1.answered 0x0606 r r.tgt p))

/-- Compositions (chapter 12). -/
def Obligations.CompositionsComplete : Prop :=
  (∀ r s s1 i, s.turn 0x0500 r = some s1 → r.target = 0 → r.payload.length = 20 → s1.inService = true → compOk r.payload = true →
    s1.lowestFree 4 0 512 = some i → s1.admits (compCost r.payload (Comp.new r.payload s1.now).planes) = true →
    ∃ t : State, exec (.compositionCreate r) s = .next (t.answered 0x0500 r (s1.handle (okey 4 i))
        (le 2 (Comp.new r.payload s1.now).slices ++ le 2 0 ++ le 4 (Comp.new r.payload s1.now).period)) ∧
      (∃ o, tget? t.objs (okey 4 i) = some o ∧ o.owner = r.mbx ∧ o.dying = false ∧ o.shedClass = u8 r.payload 18 ∧
        o.active = (u8 r.payload 17 == 1)) ∧
      tget? t.video.comps (kidx (okey 4 i)) = some (Comp.new r.payload s1.now)) ∧
  (∀ r s s1 key, s.turn 0x0501 r = some s1 → r.payload = [] → s1.lives r.tgt key 0x04 → s1.fedBy key = [] →
    ∃ t : State, exec (.compositionDestroy r) s = .next (t.accepted 0x0501 r r.tgt []) ∧ t.gen key = nextGen (s1.gen key) ∧
      ∃ e ∈ t.sched, e.at_ = .frame (kidx key) ∧ e.act = .free key) ∧
  (∀ r s s1 key o, s.turn 0x0502 r = some s1 → r.payload = [] → s1.lives r.tgt key 0x04 → s1.mode ≠ .shed → s1.obj key = some o →
    o.active = false →
    exec (.compositionEnable r) s = .next (State.accepted ((s1.updObj key fun o => { o with active := true, shed := false }).schedule
      (.frame (kidx key)) (r.origin r.tgt) (.live key true)) 0x0502 r r.tgt [])) ∧
  (∀ r s s1 key o, s.turn 0x0503 r = some s1 → r.payload = [] → s1.lives r.tgt key 0x04 → s1.obj key = some o → o.active = true →
    exec (.compositionHold r) s = .next (State.accepted ((s1.updObj key fun o => { o with active := false }).schedule
      (.frame (kidx key)) (r.origin r.tgt) (.live key false)) 0x0503 r r.tgt [])) ∧
  (∀ r s s1 key c, s.turn 0x0504 r = some s1 → r.payload.length = 32 → s1.lives r.tgt key 0x04 → s1.comp key = some c →
    u32 r.payload 4 = 0 → c.planeOk r.payload = true → fetches r.payload = false →
    exec (.planeSet r) s = .next (State.answered (s1.updComp key fun c => { c with shadow := c.shadow.set (u8 r.payload 0) r.payload })
      0x0504 r r.tgt [])) ∧
  (∀ r s s1 key c src, s.turn 0x0504 r = some s1 → r.payload.length = 32 → s1.lives r.tgt key 0x04 → s1.comp key = some c →
    u32 r.payload 4 ≠ 0 → s1.checkHandle (u32 r.payload 4) [0x03, 0x04] = .ok src → c.planeOk r.payload = true → s1.srcLive src = true →
    (s1.critical key = true → s1.critical src = true) →
    exec (.planeSet r) s = .next (State.answered (s1.updComp key fun c => { c with shadow := c.shadow.set (u8 r.payload 0) r.payload })
      0x0504 r r.tgt [])) ∧
  (∀ r s s1 key c, s.turn 0x0505 r = some s1 → r.payload = [] → s1.lives r.tgt key 0x04 → s1.comp key = some c → s1.commitCheck key c = none →
    s1.firstOver (overCost (compCost c.cfg c.shadow) (s1.objCost key)) = none →
    ∃ (t : State) (n : Nat), exec (.compositionCommit r) s = .next (t.accepted 0x0505 r r.tgt (le 8 n ++ le 8 (c.boundary n / 6 / blockNs))) ∧
      n = c.frameFrom (max (s1.now + 250000) (s1.trio.effectAt.getD 0)) ∧
      (∃ d, t.comp key = some d ∧ d.commits = c.commits ++ [(n, c.shadow)] ∧ d.planes = c.planes) ∧
      ∃ e ∈ t.sched, e.at_ = .frame (kidx key) ∧ e.act = .applied ∧ e.from_ = c.boundary n / 6) ∧
  (∀ r s s1 key c st p, s.turn 0x0505 r = some s1 → r.payload = [] → s1.lives r.tgt key 0x04 → s1.comp key = some c →
    s1.commitCheck key c = some (st, p) →
    exec (.compositionCommit r) s = .next (State.finish (s1.updComp key fun c => c.bump 12 1) 0x0505 r
      (.refuse st p (s1.updComp key fun c => c.bump 12 1)))) ∧
  (∀ r s s1 key c, s.turn 0x0506 r = some s1 → r.payload.length = 4 → s1.lives r.tgt key 0x04 → s1.comp key = some c → u8 r.payload 0 ≤ 7 →
    u8 r.payload 1 ≤ 1 → zeros r.payload 2 2 = true →
    exec (.planeGet r) s = .next (s1.answered 0x0506 r r.tgt ((if u8 r.payload 1 = 0 then c.shadow else c.planes).getD (u8 r.payload 0) []))) ∧
  (∀ r s s1 key c, s.turn 0x0507 r = some s1 → r.payload = [] → s1.lives r.tgt key 0x04 → s1.comp key = some c →
    ∃ p : Bytes, exec (.compositionStatsGet r) s = .next (s1.answered 0x0507 r r.tgt p) ∧ p.length = 40 ∧ p.take 8 = le 8 (tget 0 c.stats 0)) ∧
  (∀ r s s1, s.turn 0x0508 r = some s1 → r.target = 0 → r.payload.length = 16 → u32 r.payload 8 = 7168 → zeros r.payload 12 4 = true →
    exec (.opalScalerTableGet r) s = .next (State.waiting (s1.emit (.hostWrite (u64 r.payload 0) scalerTable)) 0x0508 r .write []) ∧
      scalerTable.length = 7168) ∧
  (∀ comp (s : State), comp < 512 → exec (.frameBoundary comp) s = .next (s.frameBoundary comp)) ∧
  (∀ comp (s : State) c, comp < 512 → s.comp (okey 4 comp) = some c → (∀ e ∈ s.sched, ∀ i, e.at_ ≠ .frame i) → s.fedBy (okey 4 comp) = [] →
    ∃ (t : State) (d : Comp), exec (.frameBoundary comp) s = .next t ∧ t.objs = s.objs ∧ t.comp (okey 4 comp) = some d ∧
      d.next = c.next + 1 ∧ d.shadow = c.shadow ∧ d.commits = (c.commits.filter fun e => decide (c.next < e.1)) ∧
      (s.flows (okey 4 comp) = false → d.planes = c.planes ∧
        d.parked = (((c.commits.filter fun e => decide (e.1 ≤ c.next)).getLast?).map (·.2)).or c.parked ∧
        d.cur = none ∧ t.mbx = s.mbx ∧ t.out = s.out) ∧
      (s.flows (okey 4 comp) = true →
        d.planes = ((((c.commits.filter fun e => decide (e.1 ≤ c.next)).getLast?).map (·.2)).or c.parked).getD c.planes ∧ d.parked = none ∧ ∃ u, d.cur = some u ∧ u.frame = c.next ∧ u.left = [] ∧ u.done = 0)) ∧
  (∀ comp k (s : State) c u, comp < 512 → s.comp (okey 4 comp) = some c → c.cur = some u → (c.slices ≤ k ∨ thas u.left k = true) →
    exec (.compositeSliceStart comp k) s = .next s) ∧
  (∀ comp k (s : State) c u, comp < 512 → s.comp (okey 4 comp) = some c → c.cur = some u → k < c.slices → thas u.left k = false →
    ∃ t : State, exec (.compositeSliceStart comp k) s = .next t ∧ t.objs = s.objs ∧ t.sched = s.sched ∧ t.mbx = s.mbx ∧
      ∃ d v, t.comp (okey 4 comp) = some d ∧ d.cur = some v ∧ tget 0 v.left k = c.bands ∧ v.frame = u.frame ∧
        v.pic = { u.pic with arrived := v.pic.arrived } ∧ d.planes = c.planes)

/-- Ports, queues and host rings (chapter 13). -/
def Obligations.NetworkCommandsComplete : Prop :=
  (∀ r s s1, s.turn 0x0B00 r = some s1 → r.target = 0 → r.payload.length = 4 → (s1.mode = .ready ∨ s1.mode = .maintenance) →
    1 ≤ u8 r.payload 0 → u8 r.payload 0 ≤ 6 → zeros r.payload 1 3 = true →
    ∃ t : State, exec (.netGroupSet r) s = .next (t.answered 0x0B00 r 0 []) ∧ t.net.config = u8 r.payload 0 ∧ t.objs = s1.objs ∧
      (u8 r.payload 0 = s1.net.config → t = s1) ∧
      (u8 r.payload 0 ≠ s1.net.config → (∀ e ∈ t.net.ports, e.1 < 8 → e.2.en = false ∧ e.2.pfc = false ∧ e.2.mac = List.replicate 6 0 ∧
        e.2.maxFrame = 1518 ∧ e.2.hostFn = 0 ∧ e.2.overhead = 20 ∧ e.2.hostClass = 1) ∧ ∀ e ∈ t.net.neigh, 8 ≤ e.port)) ∧
  (∀ r s s1, s.turn 0x0B01 r = some s1 → r.target = 0 → r.payload.length = 16 → s1.portOk (u8 r.payload 0) = true →
    (u8 r.payload 1 % 2 = 1 ∨ (s1.port (u8 r.payload 0)).en = false ∨ s1.carried (u8 r.payload 0) = []) → u8 r.payload 1 ≤ 3 →
    (u8 r.payload 1 / 2 % 2 = 1 ↔ 1 ≤ u16 r.payload 2) → u8 r.payload 4 % 2 = 0 → u8 r.payload 10 ≤ 3 → zeros r.payload 11 1 = true →
    1518 ≤ u16 r.payload 12 → u16 r.payload 12 ≤ 9216 → zeros r.payload 14 2 = true →
    exec (.portSet r) s = .next (State.answered (s1.updPort (u8 r.payload 0) fun x => { x with
      en := u8 r.payload 1 % 2 == 1, pfc := u8 r.payload 1 / 2 % 2 == 1, quanta := u16 r.payload 2, mac := (r.payload.drop 4).take 6,
      hostFn := u8 r.payload 10, maxFrame := u16 r.payload 12 }) 0x0B01 r 0 [])) ∧
  (∀ r s s1, s.turn 0x0B02 r = some s1 → r.target = 0 → r.payload.length = 32 → s1.portOk (u8 r.payload 0) = true →
    (u8 r.payload 1 = 4 ∨ u8 r.payload 1 = 6) → u8 r.payload 2 = 1 → zeros r.payload 3 1 = true → zeros r.payload 10 6 = true →
    (u8 r.payload 1 = 6 ∨ zeros r.payload 20 12 = true) →
    (s1.net.neigh.length < 32768 ∨ s1.net.neigh.length = 32768 ∧
      (s1.neighbour (u8 r.payload 0) (u8 r.payload 1) ((r.payload.drop 16).take 16)).isSome = true) →
    ∃ t : State, exec (.neighbourSet r) s = .next (t.answered 0x0B02 r 0 []) ∧ t.objs = s1.objs ∧
      t.neighbour (u8 r.payload 0) (u8 r.payload 1) ((r.payload.drop 16).take 16) =
        some { port := u8 r.payload 0, family := u8 r.payload 1, addr := (r.payload.drop 16).take 16, mac := (r.payload.drop 4).take 6 }) ∧
  (∀ r s s1, s.turn 0x0B02 r = some s1 → r.target = 0 → r.payload.length = 32 → s1.portOk (u8 r.payload 0) = true →
    (u8 r.payload 1 = 4 ∨ u8 r.payload 1 = 6) → u8 r.payload 2 = 2 → zeros r.payload 3 1 = true → zeros r.payload 4 6 = true →
    zeros r.payload 10 6 = true → (u8 r.payload 1 = 6 ∨ zeros r.payload 20 12 = true) →
    ∃ t : State, exec (.neighbourSet r) s = .next (t.answered 0x0B02 r 0 []) ∧ t.objs = s1.objs ∧
      t.neighbour (u8 r.payload 0) (u8 r.payload 1) ((r.payload.drop 16).take 16) = none) ∧
  (∀ r s s1 d, s.turn 0x0B03 r = some s1 → r.target = 0 → r.payload.length = 24 → u8 r.payload 0 = d + 1 → d ≤ 1 → r.mbx < 4 →
    (s1.hring r.mbx d).en = false → (u8 r.payload 1 = 1 ∨ u8 r.payload 1 = 2) → 6 ≤ u8 r.payload 2 → u8 r.payload 2 ≤ 16 → u8 r.payload 3 ≤ 1 →
    u32 r.payload 4 ≤ 1048576 → (d = 0 ∨ u32 r.payload 4 = 0) → u64 r.payload 8 % 4096 = 0 →
    u32 r.payload 16 = 2 ^ u8 r.payload 2 * (if u8 r.payload 1 = 2 then 10240 else 2048) → zeros r.payload 20 4 = true →
    s1.firstOver (overCost (costOf [(0x000C, 0, u32 r.payload 4)]) (costOf [(0x000C, 0, (s1.hring r.mbx d).spill)])) = none →
    ∃ t : State, exec (.hostRingSet r) s = .next (t.answered 0x0B03 r 0 []) ∧ t.objs = s1.objs ∧
      (t.hring r.mbx d).en = (u8 r.payload 3 % 2 == 1) ∧ (t.hring r.mbx d).log2n = u8 r.payload 2 ∧ (t.hring r.mbx d).base = u64 r.payload 8 ∧
      (t.hring r.mbx d).slotSize = (if u8 r.payload 1 = 2 then 10240 else 2048) ∧
      (u8 r.payload 3 = 1 → (t.hring r.mbx d).head = 0 ∧ (t.hring r.mbx d).tail = 0 ∧ (t.hring r.mbx d).err = false)) ∧
  (∀ r s s1 d, s.turn 0x0B03 r = some s1 → r.target = 0 → r.payload.length = 24 → u8 r.payload 0 = d + 1 → d ≤ 1 → r.mbx < 4 →
    (s1.hring r.mbx d).en = true → u8 r.payload 3 = 0 → (u8 r.payload 1 = 1 ∨ u8 r.payload 1 = 2) →
    (s1.hring r.mbx d).slotSize = (if u8 r.payload 1 = 2 then 10240 else 2048) → (s1.hring r.mbx d).log2n = u8 r.payload 2 →
    (s1.hring r.mbx d).spill = u32 r.payload 4 → (s1.hring r.mbx d).base = u64 r.payload 8 → 6 ≤ u8 r.payload 2 → u8 r.payload 2 ≤ 16 →
    u32 r.payload 4 ≤ 1048576 → (d = 0 ∨ u32 r.payload 4 = 0) → u64 r.payload 8 % 4096 = 0 →
    u32 r.payload 16 = 2 ^ u8 r.payload 2 * (if u8 r.payload 1 = 2 then 10240 else 2048) → zeros r.payload 20 4 = true →
    ∃ t : State, exec (.hostRingSet r) s = .next (t.answered 0x0B03 r 0 []) ∧ t.objs = s1.objs ∧
      t.hring r.mbx d = { s1.hring r.mbx d with en := false }) ∧
  (∀ r s s1, s.turn 0x0B04 r = some s1 → r.target = 0 → r.payload.length = 24 → s1.queueLives (u16 r.payload 0) = true →
    u8 r.payload 2 = 0 → u8 r.payload 3 ≤ 1 → zeros r.payload 4 20 = true →
    ∃ t : State, exec (.queueNoticeSet r) s = .next (t.answered 0x0B04 r 0 []) ∧ t.objs = s1.objs ∧
      ∃ q, t.queue? (u16 r.payload 0) = some q ∧ q.notice = r.payload.drop 2 ∧ q.lastRead = s1.now ∧ q.asserted = false) ∧
  (∀ r s s1 x, s.turn 0x0B04 r = some s1 → r.target = 0 → r.payload.length = 24 → s1.queue? (u16 r.payload 0) = some x →
    u8 r.payload 2 = 1 → u8 r.payload 3 ≤ 7 → 1 ≤ u32 r.payload 4 → u32 r.payload 4 ≤ x.cap → u32 r.payload 8 < u32 r.payload 4 →
    (if u8 r.payload 3 / 2 % 2 = 1 then u8 r.payload 12 ≤ 7 else u8 r.payload 12 = 0) →
    (if u8 r.payload 3 / 4 % 2 = 1 then s1.portOk (u8 r.payload 13) = true ∧ (s1.port (u8 r.payload 13)).pfc = true ∧ u8 r.payload 14 ≤ 7
     else zeros r.payload 13 2 = true) → zeros r.payload 15 9 = true →
    ∃ t : State, exec (.queueNoticeSet r) s = .next (t.answered 0x0B04 r 0 []) ∧
      ∃ q, t.queue? (u16 r.payload 0) = some q ∧ q.notice = r.payload.drop 2 ∧ q.recs = x.recs ∧
        (u32 r.payload 4 ≤ x.fill → q.asserted = true) ∧ (x.fill ≤ u32 r.payload 8 → q.asserted = false)) ∧
  (∀ r s s1 x, s.turn 0x0B04 r = some s1 → r.target = 0 → r.payload.length = 24 → s1.queue? (u16 r.payload 0) = some x →
    u8 r.payload 2 = 2 → u8 r.payload 3 ≤ 1 → zeros r.payload 4 12 = true → 1 ≤ u32 r.payload 16 → u32 r.payload 16 ≤ 1000000 →
    zeros r.payload 20 4 = true →
    ∃ t : State, exec (.queueNoticeSet r) s = .next (t.answered 0x0B04 r 0 []) ∧
      ∃ q, t.queue? (u16 r.payload 0) = some q ∧ q.notice = r.payload.drop 2 ∧ q.lastRead = s1.now ∧ q.recs = x.recs) ∧
  (∀ r s s1, s.turn 0x0B05 r = some s1 → r.target = 0 → r.payload.length = 4 → s1.queueLives (u16 r.payload 0) = true → u8 r.payload 2 = 0 →
    zeros r.payload 3 1 = true → ∃ p : Bytes, exec (.queueStatsGet r) s = .next (s1.answered 0x0B05 r 0 p) ∧ p.length = 64) ∧
  (∀ r s s1 x, s.turn 0x0B05 r = some s1 → r.target = 0 → r.payload.length = 4 → s1.queueLives (u16 r.payload 0) = true → u8 r.payload 2 = 1 →
    zeros r.payload 3 1 = true → s1.queue? (u16 r.payload 0) = some x → (u16 r.payload 0 < 0xB200 ∨ 0xB240 ≤ u16 r.payload 0) →
    ∃ p : Bytes, exec (.queueStatsGet r) s =
      .next (State.answered (s1.setQueue (u16 r.payload 0) { x with stats := tset x.stats 36 x.fill }) 0x0B05 r 0 p) ∧ p.length = 64) ∧
  (∀ r s s1 l out cls, s.turn 0x0B05 r = some s1 → r.target = 0 → r.payload.length = 4 → l < 4 → cls < 8 →
    u16 r.payload 0 = linkQueue l out cls → u8 r.payload 2 ≤ 1 → zeros r.payload 3 1 = true →
    ∃ (t : State) (p : Bytes), exec (.queueStatsGet r) s = .next (t.answered 0x0B05 r 0 p) ∧ p.length = 64 ∧
      (p.drop 32).take 4 = le 4 (s1.linkFill l out cls) ∧ t.cascade.queues = s1.cascade.queues ∧ t.net = s1.net ∧ t.objs = s1.objs) ∧
  (∀ r s s1, s.turn 0x0B06 r = some s1 → r.target = 0 → r.payload.length = 4 → s1.portOk (u8 r.payload 0) = true → zeros r.payload 1 3 = true →
    ∃ p : Bytes, exec (.portStatsGet r) s = .next (s1.answered 0x0B06 r 0 p) ∧ p.length = 96)

/-- Queue, ring and port events (chapter 13, R617, R618). -/
def Obligations.QueueEventsComplete : Prop :=
  (∀ fn head (s : State), fn < 4 → (s.hring fn 0).en = true → head < 2 ^ (s.hring fn 0).log2n →
    (head + 2 ^ (s.hring fn 0).log2n - (s.hring fn 0).head) % 2 ^ (s.hring fn 0).log2n ≤
      ((s.hring fn 0).tail + 2 ^ (s.hring fn 0).log2n - (s.hring fn 0).head) % 2 ^ (s.hring fn 0).log2n →
    exec (.hostReceiveHeadWrite fn head) s = .next (s.setHring fn 0 { s.hring fn 0 with head := head })) ∧
  (∀ fn head (s : State), fn < 4 → (s.hring fn 0).en = true → head < 2 ^ (s.hring fn 0).log2n →
    ((s.hring fn 0).tail + 2 ^ (s.hring fn 0).log2n - (s.hring fn 0).head) % 2 ^ (s.hring fn 0).log2n <
      (head + 2 ^ (s.hring fn 0).log2n - (s.hring fn 0).head) % 2 ^ (s.hring fn 0).log2n →
    exec (.hostReceiveHeadWrite fn head) s = .next (s.setHring fn 0 { s.hring fn 0 with err := true })) ∧
  (∀ fn tail (recs : List Bytes) (s : State) k, fn < 4 → (s.hring fn 1).en = true → s.mode.isOpen = true → tail < 2 ^ (s.hring fn 1).log2n →
    k = (tail + 2 ^ (s.hring fn 1).log2n - (s.hring fn 1).tail) % 2 ^ (s.hring fn 1).log2n → k ≠ 0 →
    exec (.hostTransmitDoorbell fn tail recs) s = .next (State.msix ((recs.take k).foldl (fun s r => s.hostRecord fn r)
      (s.setHring fn 1 { s.hring fn 1 with head := tail, tail := tail })) fn 3)) ∧
  (∀ fn tail (rec : Bytes) (s : State), fn < 4 → (s.hring fn 1).en = true → s.mode.isOpen = true → 6 ≤ (s.hring fn 1).log2n →
    (s.hring fn 1).tail < 2 ^ (s.hring fn 1).log2n → tail = ((s.hring fn 1).tail + 1) % 2 ^ (s.hring fn 1).log2n →
    32 + u16 rec 4 ≤ (s.hring fn 1).slotSize → u16 rec 4 ≤ 9216 → u8 rec 7 = 1 → s.portOk (u8 rec 6) = true → (s.port (u8 rec 6)).en = true →
    exec (.hostTransmitDoorbell fn tail [rec]) s = .next (State.msix (State.hostFrame
      (State.passQueue (s.setHring fn 1 { s.hring fn 1 with head := tail, tail := tail }) (0xB301 + 2 * fn)
        { kind := 1, flags := 0, obj := u32 rec 0, arrival := 0, deadline := 0, start := 0, data := (rec.drop 32).take (u16 rec 4) })
      (u8 rec 6) ((rec.drop 32).take (u16 rec 4))) fn 3)) ∧
  (∀ queue (s : State) q p, s.queue? queue = some q → q.held = some p → (p.deadline = 0 ∨ s.now ≤ p.deadline) → q.fill + p.size ≤ q.cap →
    exec (.queueWriteResume queue) s = .next (s.enqueue queue { q with held := none } p)) ∧
  (∀ queue (s : State) q p, s.queue? queue = some q → q.held = some p → p.deadline ≠ 0 → p.deadline < s.now →
    exec (.queueWriteResume queue) s = .next (State.lateRefused (s.setQueue queue { q with held := none }) p.obj)) ∧
  (∀ queue (s : State) q p w, s.queue? queue = some q → q.held = none → q.waiting = p :: w → q.fill + p.size ≤ q.cap →
    exec (.queueWriteResume queue) s = .next (s.enqueue queue { q with waiting := w } p)) ∧
  (∀ queue (s : State) q, s.queue? queue = some q → q.mode = 2 → q.recs ≠ [] → q.lastRead + 1000 * q.stale ≤ s.now →
    (queue < 0xB300 ∨ 0xB308 ≤ queue) →
    ∃ t : State, exec (.staleTailTimeout queue) s = .next t ∧ t.objs = s.objs ∧
      ∃ x, t.queue? queue = some x ∧ x.recs = q.recs ∧ x.pushed = true ∧ x.lastRead = s.now ∧
        tget 0 x.stats 56 = tget 0 q.stats 56 + 1) ∧
  (∀ fn (s : State) q, fn < 4 → s.queue? (hostRxQueue fn) = some q → q.mode = 2 → q.recs ≠ [] → q.lastRead + 1000 * q.stale ≤ s.now →
    q.flag 0 = false →
    exec (.staleTailTimeout (hostRxQueue fn)) s = .next (State.hostDrain fn q.recs.length (s.setQueue (hostRxQueue fn) { q.bump 56 1 with
      lastRead := s.now, pushed := true }))) ∧
  (∀ port prio (s : State), tget 0 (s.port port).paused prio ≤ s.now →
    ∃ t : State, exec (.pauseExpiry port prio) s = .next t ∧ t.net.queues = s.net.queues ∧ thas (t.port port).paused prio = false) ∧
  (∀ port prio (s : State), s.pfcOn port prio = true →
    exec (.pfcRefresh port prio) s = .next (s.sendPfc port prio (s.port port).quanta)) ∧
  (∀ port prio (s : State), s.pfcOn port prio = false → exec (.pfcRefresh port prio) s = .next s) ∧
  (∀ port up (s : State), s.portOk port = true →
    ∃ t : State, exec (.linkStateChange port up) s = .next t ∧ t.objs = s.objs ∧ t.net.queues = s.net.queues ∧ (t.port port).up = up ∧
      (t.port port).linkBlock = s.block) ∧
  (∀ port time (data : Bytes) (s : State), s.portOk port = true → (s.port port).en = true → s.mode.isOpen = true → s.unitDown 7 0 = false →
    exec (.frameReceive port time false data) s = .next (State.portBump (s.at time) port 44 1)) ∧
  (∀ port time (data : Bytes) (s : State), s.portOk port = true → (s.port port).en = true → s.mode.isOpen = true → s.unitDown 7 0 = false →
    (data.length < 64 ∨ (s.port port).maxFrame < data.length) →
    exec (.frameReceive port time true data) s = .next (State.portBump (s.at time) port 36 1)) ∧
  (∀ port time (data : Bytes) (s : State), s.portOk port = true → (s.port port).en = true → s.mode.isOpen = true → s.unitDown 7 0 = false →
    64 ≤ data.length → data.length ≤ (s.port port).maxFrame →
    u32 data (data.length - 4) ≠ (fcs (data.take (data.length - 4))).toNat →
    exec (.frameReceive port time true data) s = .next (State.portBump (s.at time) port 32 1)) ∧
  (∀ port time (data : Bytes) (s : State), s.portOk port = true → (s.port port).en = true → s.mode.isOpen = true → s.unitDown 7 0 = false →
    64 ≤ data.length → data.length ≤ (s.port port).maxFrame →
    u32 data (data.length - 4) = (fcs (data.take (data.length - 4))).toNat →
    exec (.frameReceive port time true data) s = .next (State.classify (((s.at time).portBump port 0 1).portBump port 16 data.length)
      port time data.length (data.take (data.length - 4)))) ∧
  (∀ port time (data : Bytes) (s : State), s.portOk port = true → (s.port port).en = true → s.mode.isOpen = true → s.unitDown 7 0 = false →
    64 ≤ data.length → data.length ≤ (s.port port).maxFrame →
    u32 data (data.length - 4) = (fcs (data.take (data.length - 4))).toNat → data.take 6 = padTo 6 (s.port port).mac →
    bfld data 12 2 = 0x0806 →
    exec (.frameReceive port time true data) s = .next (State.frameToHost (((s.at time).portBump port 0 1).portBump port 16 data.length)
      port time (data.take (data.length - 4)))) ∧
  (∀ group (data f : Bytes) (s : State) g st k bad, group < 64 → tget? s.framer.groups group = some g → (s.port g.home).up = true →
    s.flows (okey 9 (504 + group)) = true → gfpReceive g.gfp g.scrRx data = (st, k, some f, bad) →
    exec (.gfpFrameReceive group data) s = .next (State.etherIn (State.passQueue (s.updGroup group fun g => { g with
        gfp := st, scrRx := k, stats := if bad then tset g.stats 36 (tget 0 g.stats 36 + 1) else g.stats }) (0xB100 + group)
      { kind := 1, flags := 0, obj := s.handle (okey 9 (504 + group)), arrival := s.now, deadline := 0, start := 0, data := f })
      g.home s.now true f))

/-- Shaping (chapter 14). -/
def Obligations.ShapingComplete : Prop :=
  (∀ r s s1, s.turn 0x0B10 r = some s1 → r.target = 0 → r.payload.length = 16 →
    ((s1.queuePort (u16 r.payload 0)).isSome = true ∨ (s1.hostLeg (u16 r.payload 0)).isSome = true) → u16 r.payload 0 < 0xF020 → u8 r.payload 2 ≤ 6 →
    zeros r.payload 3 1 = true → u32 r.payload 4 ≤ s1.declaredRate (u16 r.payload 0) → 1 ≤ u32 r.payload 8 → u32 r.payload 8 ≤ 16777215 →
    zeros r.payload 12 4 = true →
    exec (.shaperSet r) s = .next (State.accepted ((s1.setEgShaper (u16 r.payload 0) { s1.egShaper (u16 r.payload 0) with
      pend := some (u32 r.payload 4, u32 r.payload 8, u8 r.payload 2) }).schedule (.refill (u16 r.payload 0)) (r.origin 0) .applied)
      0x0B10 r 0 [])) ∧
  (∀ r s s1, s.turn 0x0B11 r = some s1 → r.target = 0 → r.payload.length = 16 → s1.shaperOk (u8 r.payload 0) = true → u8 r.payload 1 ≤ 1 →
    zeros r.payload 2 2 = true → (u32 r.payload 4 ≤ 400000000 ∨ u32 r.payload 4 = 0xFFFFFFFF) → 1 ≤ u32 r.payload 8 → u32 r.payload 8 ≤ 16777215 →
    zeros r.payload 12 4 = true → (u32 r.payload 4 = 0 ∨ u32 r.payload 4 = 0xFFFFFFFF ∨ s1.governed (u8 r.payload 0) ≤ u32 r.payload 4) →
    exec (.classShaperSet r) s = .next (State.answered (s1.setClassShaper (u8 r.payload 0) { s1.classShaper (u8 r.payload 0) with
      rate := u32 r.payload 4, burst := u32 r.payload 8, tokens := if u8 r.payload 1 = 1 then (u32 r.payload 8 : Int) * 65536 else 0 })
      0x0B11 r 0 [])) ∧
  (∀ r s s1, s.turn 0x0B12 r = some s1 → r.target = 0 → r.payload.length = 4 → s1.portOk (u8 r.payload 0) = true →
    (signed 8 (u8 r.payload 1) = (s1.port (u8 r.payload 0)).overhead ∨ s1.carried (u8 r.payload 0) = []) → -32 ≤ signed 8 (u8 r.payload 1) →
    u8 r.payload 2 ≤ 6 → zeros r.payload 3 1 = true →
    ∃ t : State, exec (.egressPortSet r) s = .next (t.answered 0x0B12 r 0 []) ∧ (t.port (u8 r.payload 0)).overhead = signed 8 (u8 r.payload 1) ∧
      (t.port (u8 r.payload 0)).hostClass = u8 r.payload 2 ∧ t.net.queues = s1.net.queues ∧ t.egress.classes = s1.egress.classes) ∧
  (∀ r s s1, s.turn 0x0B13 r = some s1 → r.target = 0 → r.payload.length = 4 → u8 r.payload 0 = 1 →
    ((s1.queuePort (u16 r.payload 2)).isSome = true ∨ (s1.hostLeg (u16 r.payload 2)).isSome = true) → zeros r.payload 1 1 = true →
    exec (.shaperGet r) s = .next (s1.answered 0x0B13 r 0 ((s1.egShaper (u16 r.payload 2)).report true)) ∧
      ((s1.egShaper (u16 r.payload 2)).report true).length = 40) ∧
  (∀ r s s1, s.turn 0x0B13 r = some s1 → r.target = 0 → r.payload.length = 4 → u8 r.payload 0 = 2 → s1.shaperOk (u16 r.payload 2) = true →
    zeros r.payload 1 1 = true →
    exec (.shaperGet r) s = .next (s1.answered 0x0B13 r 0 ((s1.classShaper (u16 r.payload 2)).report false))) ∧
  (∀ shaper (s : State), exec (.legShaperRefill shaper) s = .next ((s.refillLeg shaper).runDue (· == .refill shaper))) ∧
  (∀ shaper (s : State) p rate burst cls, s.queuePort shaper = some p → shaper < 0xF000 →
    (s.egShaper shaper).pend = some (rate, burst, cls) → (∀ e ∈ s.sched, e.at_ = .refill shaper → e.act = .applied) →
    ∃ t : State, exec (.legShaperRefill shaper) s = .next t ∧ (s.queue? shaper = none → t.net = s.net) ∧ t.objs = s.objs ∧
      (t.egShaper shaper).rate = rate ∧ (t.egShaper shaper).burst = burst ∧ (t.egShaper shaper).cls = cls ∧ (t.egShaper shaper).pend = none) ∧
  (∀ shaper (s : State), shaper < 256 → shaper % 16 ≤ 8 →
    exec (.classShaperRefill shaper) s = .next (s.setClassShaper shaper ((s.classShaper shaper).refill 256))) ∧
  (∀ shaper (s : State), shaper < 256 → shaper % 16 ≤ 8 → (s.classShaper shaper).pend = none →
    (s.classShaper shaper).rate ≠ 0 → (s.classShaper shaper).rate ≠ 0xFFFFFFFF →
    ∃ t : State, exec (.classShaperRefill shaper) s = .next t ∧ t.net = s.net ∧ t.egress.legs = s.egress.legs ∧
      (t.classShaper shaper).tokens = min (((s.classShaper shaper).burst : Int) * 65536)
        ((s.classShaper shaper).tokens + ((s.classShaper shaper).rate * 1000 * 256 * 65536 / 9600000000 : Nat)) ∧
      ∀ n, n ≠ shaper → t.classShaper n = s.classShaper n) ∧
  (∀ port time (s : State) q r, s.portOk port = true → (s.port port).up = true → (s.port port).en = true → s.mode.isOpen = true →
    s.unitDown 9 0 = false → s.net.queues = [(0xF020 + port, q)] → q.recs = [r] → q.mode = 0 → r.deadline = 0 → r.flags = 0 → r.bad = [] → q.cells = [] → r.kind = 1 →
    s.egress.legs = [] → s.egress.classes = [] → (s.port port).paused = [] → s.now ≤ time →
    ∃ t : State, exec (.egressSelect port time) s = .next t ∧ t.now = time ∧ t.objs = s.objs ∧
      t.out = .frame port (s.onWire port r.data) :: s.out)

/-- Key contexts, link keys and entropy (chapter 15). -/
def Obligations.KeysComplete : Prop :=
  (∀ (r : Req) (s s1 : State) i, s.turn 0x0C00 r = some s1 → r.target = 0 → r.payload.length = 72 → (u32 r.payload 4 = 0 ∨ ∃ w, s1.lives (u32 r.payload 4) w 0x08 ∧ 32768 ≤ kidx w) →
    s1.inService = true → s1.onyx.otp.isSome = true → u8 r.payload 0 = 1 → blobLen (u8 r.payload 1) ≠ 0 → u8 r.payload 2 = 1 → u32 r.payload 12 = 0 →
    u8 r.payload 3 = blobLen (u8 r.payload 1) → zeros r.payload (16 + blobLen (u8 r.payload 1)) (56 - blobLen (u8 r.payload 1)) = true →
    s1.lowestFree 8 0 32768 = some i →
    (match s1.unwrapKey (u32 r.payload 4) ((r.payload.drop 16).take (blobLen (u8 r.payload 1))) (padLen (u8 r.payload 1)) with
     | none => exec (.keyLoad r) s = .next (s1.failed 0x0C00 r .denied [])
     | some key => exec (.keyLoad r) s = .next (State.answered ((s1.addObj (okey 8 i) r.mbx true 0 []).setKey i
        (KeyCtx.new (u8 r.payload 1) 1 (u32 r.payload 8) 0 key)) 0x0C00 r (s1.handle (okey 8 i)) []))) ∧
  (∀ (r : Req) (s s1 : State) i, s.turn 0x0C00 r = some s1 → r.target = 0 → r.payload.length = 72 → (u32 r.payload 4 = 0 ∨ ∃ w, s1.lives (u32 r.payload 4) w 0x08 ∧ 32768 ≤ kidx w) →
    s1.inService = true → s1.onyx.otp.isSome = true → u8 r.payload 0 = 1 → blobLen (u8 r.payload 1) ≠ 0 → u8 r.payload 2 = 2 → u32 r.payload 12 ≤ 2 ^ 31 - 2 →
    u8 r.payload 3 = blobLen (u8 r.payload 1) → zeros r.payload (16 + blobLen (u8 r.payload 1)) (56 - blobLen (u8 r.payload 1)) = true →
    s1.lowestFree 8 0 32768 = some i →
    (match s1.unwrapKey (u32 r.payload 4) ((r.payload.drop 16).take (blobLen (u8 r.payload 1))) (padLen (u8 r.payload 1)) with
     | none => exec (.keyLoad r) s = .next (s1.failed 0x0C00 r .denied [])
     | some key => exec (.keyLoad r) s = .next (State.answered ((s1.addObj (okey 8 i) r.mbx true 0 []).setKey i
        (KeyCtx.new (u8 r.payload 1) 2 (u32 r.payload 8) (u32 r.payload 12) key)) 0x0C00 r (s1.handle (okey 8 i)) []))) ∧
  (∀ (r : Req) (s s1 : State) i, s.turn 0x0C00 r = some s1 → r.target = 0 → r.payload.length = 72 → u32 r.payload 4 = 0 → s1.inService = true →
    s1.onyx.otp.isSome = true → u8 r.payload 0 = 2 → zeros r.payload 1 2 = true → u8 r.payload 3 = 40 → zeros r.payload 4 12 = true →
    zeros r.payload 56 16 = true → s1.lowestFree 8 32768 16 = some i →
    (match s1.unwrapKey 0 ((r.payload.drop 16).take 40) 0 with
     | none => exec (.keyLoad r) s = .next (s1.failed 0x0C00 r .denied [])
     | some key => exec (.keyLoad r) s = .next (State.answered ((s1.addObj (okey 8 i) r.mbx true 0 []).setKey i
        (KeyCtx.new 0 0 0 0 key)) 0x0C00 r (s1.handle (okey 8 i)) []))) ∧
  (∀ (r : Req) (s s1 : State) k c, s.turn 0x0C01 r = some s1 → r.payload = [] → s1.lives r.tgt k 8 → s1.keyCtx (kidx k) = some c → (c.st = .loaded ∨ c.st = .spent) →
    ∃ t : State, exec (.keyDestroy r) s = .next (t.answered 0x0C01 r r.tgt []) ∧ t.gen k = nextGen (s1.gen k) ∧ thas t.objs k = false ∧
      t.keyCtx (kidx k) = none) ∧
  (∀ (r : Req) (s s1 : State) k c, s.turn 0x0C02 r = some s1 → r.payload.length = 80 → s1.lives r.tgt k 8 → kidx k < 32768 → s1.keyCtx (kidx k) = some c →
    (u32 r.payload 12 = 0 ∨ ∃ w, s1.lives (u32 r.payload 12) w 0x08 ∧ 32768 ≤ kidx w) → (c.st = .loaded ∨ c.st = .bound) →
    (s1.onyx.otp.isSome = true ∨ u32 r.payload 12 ≠ 0) → u64 r.payload 0 ≤ 2 ^ 48 - 2 →
    u32 r.payload 8 ≤ 2 ^ 31 - 2 → u8 r.payload 16 = blobLen c.profile → zeros r.payload 17 7 = true →
    zeros r.payload (24 + blobLen c.profile) (56 - blobLen c.profile) = true →
    (match s1.unwrapKey (u32 r.payload 12) ((r.payload.drop 24).take (blobLen c.profile)) (padLen c.profile) with
     | none => exec (.keyUpdate r) s = .next (s1.failed 0x0C02 r .denied [])
     | some key => ∃ n m, exec (.keyUpdate r) s = .next (State.answered (s1.setKey (kidx k) { c with keyB := key, role := 1, n := n, m := m })
         0x0C02 r r.tgt (le 8 n ++ le 4 m ++ le 4 0)) ∧
         n = (if c.dir = 2 then max (u64 r.payload 0) c.next else u64 r.payload 0) ∧
         m = (if c.dir = 2 then max (u32 r.payload 8) c.rtcp else u32 r.payload 8))) ∧
  (∀ (r : Req) (s s1 : State) k c, s.turn 0x0C03 r = some s1 → r.payload = [] → s1.lives r.tgt k 8 → kidx k < 32768 → s1.keyCtx (kidx k) = some c →
    ∃ p : Bytes, exec (.keyStatsGet r) s = .next (s1.answered 0x0C03 r r.tgt p) ∧ p.length = 40 ∧ p.take 8 = le 8 c.packets) ∧
  (∀ (r : Req) (s s1 : State) d, s.turn 0x0C04 r = some s1 → r.target = 0 → r.payload.length = 56 → u8 r.payload 0 < 4 →
    (u32 r.payload 4 = 0 ∨ ∃ w, s1.lives (u32 r.payload 4) w 0x08 ∧ 32768 ≤ kidx w) → (s1.onyx.otp.isSome = true ∨ u32 r.payload 4 ≠ 0) → u8 r.payload 1 = d + 1 → d ≤ 1 → u8 r.payload 2 ≤ 1 → u8 r.payload 3 ≤ d →
    (d = 0 ∨ u8 r.payload 2 ≠ (s1.linkKey (u8 r.payload 0) d).active ∨ (s1.linkKey (u8 r.payload 0) d).phase (u8 r.payload 2) = none) →
    (match s1.unwrapKey (u32 r.payload 4) ((r.payload.drop 8).take 48) 5 with
     | none => exec (.linkKeyLoad r) s = .next (s1.failed 0x0C04 r .denied [])
     | some key => ∃ t : State, exec (.linkKeyLoad r) s = .next (t.answered 0x0C04 r 0 []) ∧ t.objs = s1.objs ∧ t.onyx.keys = s1.onyx.keys ∧
         (t.linkKey (u8 r.payload 0) d).phase (u8 r.payload 2) = some key ∧
         (∀ e ∈ (t.linkKey (u8 r.payload 0) d).counter, e.1 % 2 ≠ u8 r.payload 2) ∧
         (d = 1 → u8 r.payload 3 = 1 → (t.linkKey (u8 r.payload 0) d).active = u8 r.payload 2))) ∧
  (∀ (r : Req) (s s1 : State), s.turn 0x0C05 r = some s1 → r.target = 0 → r.payload = [] →
    ∃ p : Bytes, exec (.keySystemGet r) s = .next (s1.answered 0x0C05 r 0 p) ∧ (s1.onyx.otp = none → p.take 5 = [0, 0, 0, 0, 0])) ∧
  (∀ test (s : State), 1 ≤ test → test ≤ 3 → ∃ t : State, exec (.entropyHealthFail test) s = .next t ∧ t.objs = s.objs ∧
    t.onyx = { s.onyx with entropy := max s.onyx.entropy 1, rct := s.onyx.rct + (if test = 1 then 1 else 0),
                           apt := s.onyx.apt + (if test = 2 then 1 else 0) }) ∧
  (∀ s : State, ∃ t : State, exec .entropyRecovered s = .next t ∧ t.objs = s.objs ∧
    t.onyx = { s.onyx with entropy := if s.onyx.stopped = 0 then 0 else 2, requests := [] }) ∧
  (∀ inst (s : State), inst < 9 → ∃ t : State, exec (.drbgExhausted inst) s = .next t ∧ t.objs = s.objs ∧ t.onyx.entropy = 2 ∧
    t.onyx.keys = s.onyx.keys ∧ t.onyx.stopped.getLsbD inst = true)

/-- The recorder's commands (chapter 16). -/
def Obligations.RecorderCommandsComplete : Prop :=
  (∀ r s s1 i base, s.turn 0x0700 r = some s1 → r.target = 0 → r.payload.length = 8 → s1.inService = true → 1 ≤ u32 r.payload 0 →
    u32 r.payload 0 ≤ 2097152 → u8 r.payload 4 ≤ 1 → zeros r.payload 5 3 = true → s1.lowestFree 6 0 16 = some i → s1.mem.ddr = true →
    s1.ringPlace (u32 r.payload 0) = some base →
    ∃ t : State, (if u8 r.payload 4 = 1 then exec (.partitionCreate r) s = .next (t.accepted 0x0700 r (s1.handle (okey 6 i)) (le 4 base ++ le 4 0))
        else exec (.partitionCreate r) s = .next (t.answered 0x0700 r (s1.handle (okey 6 i)) (le 4 base ++ le 4 0))) ∧
      tget? t.recorder.parts (kidx (okey 6 i)) = some (Part.new base (u32 r.payload 0)) ∧
      ∃ o, tget? t.objs (okey 6 i) = some o ∧ o.owner = r.mbx ∧ o.active = (u8 r.payload 4 == 1)) ∧
  (∀ r s s1 key p, s.turn 0x0701 r = some s1 → r.payload = [] → s1.lives r.tgt key 0x06 → s1.part key = some p → p.freezes = [] →
    ∃ t : State, exec (.partitionDestroy r) s = .next (t.accepted 0x0701 r r.tgt []) ∧ t.gen key = nextGen (s1.gen key) ∧
      ∃ e ∈ t.sched, e.at_ = .block (s1.firstBlock r.mbx) ∧ e.act = .free key) ∧
  (∀ r s s1 key p o, s.turn 0x0702 r = some s1 → r.payload = [] → s1.lives r.tgt key 0x06 → s1.part key = some p → p.evidence = false →
    s1.obj key = some o → o.active = false → (o.shed = false ∨ s1.mode ≠ .shed) →
    exec (.partitionEnable r) s = .next (State.accepted ((s1.updObj key fun o => { o with active := true, shed := false }).schedule
      (.block (s1.firstBlock r.mbx)) (r.origin r.tgt) (.live key true)) 0x0702 r r.tgt [])) ∧
  (∀ r s s1 key p o, s.turn 0x0703 r = some s1 → r.payload = [] → s1.lives r.tgt key 0x06 → s1.part key = some p → p.evidence = false →
    s1.obj key = some o → o.active = true →
    exec (.partitionHold r) s = .next (State.accepted ((s1.updObj key fun o => { o with active := false }).schedule
      (.block (s1.firstBlock r.mbx)) (r.origin r.tgt) (.live key false)) 0x0703 r r.tgt [])) ∧
  (∀ r s s1 key p ob, s.turn 0x0704 r = some s1 → r.payload.length = 12 → s1.lives r.tgt key 0x06 → s1.part key = some p → u8 r.payload 0 = 1 →
    s1.checkHandle (u32 r.payload 4) [1, 2, 3, 4, 5, 6, 7, 8, 9, 10, 11, 12, 13] = .ok ob → p.evidence = false →
    s1.tapObj (u8 r.payload 1) ob (u8 r.payload 8) = true → (u8 r.payload 1 = 5 ∨ u8 r.payload 8 = 0) → zeros r.payload 9 3 = true →
    p.taps.length < 4096 → s1.tapCount < 16384 → 8 * recordLen (s1.tapLargest (u8 r.payload 1) ob (u8 r.payload 8)) ≤ p.bytesOf →
    s1.exportFits p.cfg ((u8 r.payload 1, ob, u8 r.payload 8) :: p.tapList) = true →
    s1.admits (s1.tapCost (u8 r.payload 1) ob (u8 r.payload 8) (u8 p.cfg 0 != 0)) = true →
    ∃ (t : State) (i : Nat), exec (.tapSet r) s = .next (t.accepted 0x0704 r r.tgt (le 2 i ++ le 2 0)) ∧ thas p.taps i = false ∧ i < 4096 ∧
      (∃ q x, t.part key = some q ∧ tget? q.taps i = some x ∧ x.kind = u8 r.payload 1 ∧ x.obj = ob ∧ x.on = false) ∧
      ∃ e ∈ t.sched, e.at_ = .block (s1.firstBlock r.mbx) ∧ e.act = .tapOn (kidx key) i) ∧
  (∀ r s s1 key p x, s.turn 0x0704 r = some s1 → r.payload.length = 12 → s1.lives r.tgt key 0x06 → s1.part key = some p → u8 r.payload 0 = 2 →
    p.evidence = false → tget? p.taps (u16 r.payload 2) = some x → x.dying = false → zeros r.payload 9 3 = true →
    ∃ t : State, exec (.tapSet r) s = .next (t.accepted 0x0704 r r.tgt (le 2 (u16 r.payload 2) ++ le 2 0)) ∧
      ∃ e ∈ t.sched, e.at_ = .block (s1.firstBlock r.mbx) ∧ e.act = .tapOff (kidx key) (u16 r.payload 2)) ∧
  (∀ r s s1 key p, s.turn 0x0705 r = some s1 → r.payload.length = 96 → s1.lives r.tgt key 0x06 → s1.part key = some p →
    s1.exportOk r.payload = true → s1.exportFits r.payload p.tapList = true →
    s1.firstOver (overCost (p.taps.foldl (fun c t => if t.2.dying then c else
      plusCost c (s1.tapCost t.2.kind t.2.obj t.2.stream (u8 r.payload 0 != 0))) (s1.exportCost r.payload)) (s1.objCost key)) = none →
    ∃ t : State, exec (.exportSet r) s = .next (t.answered 0x0705 r r.tgt []) ∧
      ∃ q, t.part key = some q ∧ q.cfg = r.payload ∧ q.recs = p.recs ∧ q.start = (u8 r.payload 0 != 0) ∧
        (u8 p.cfg 0 ≠ u8 r.payload 0 → q.exported = p.oldest ∧ q.acked = p.oldest)) ∧
  (∀ r s s1 key p, s.turn 0x0706 r = some s1 → r.payload.length = 8 → s1.lives r.tgt key 0x06 → s1.part key = some p → u8 p.cfg 0 = 1 →
    p.acked ≤ u64 r.payload 0 → u64 r.payload 0 ≤ p.exported →
    exec (.exportAck r) s = .next (State.answered (s1.updPart key fun p => { p with acked := u64 r.payload 0 }) 0x0706 r r.tgt [])) ∧
  (∀ r s s1 key p i, s.turn 0x0707 r = some s1 → r.payload.length = 16 → s1.lives r.tgt key 0x06 → s1.part key = some p →
    u64 r.payload 0 ≤ u64 r.payload 8 → (List.range 8).find? (fun i => !thas p.freezes i) = some i → 2 * (p.recs.map (·.len)).sum ≤ p.bytesOf →
    ∃ (t : State) (a : Bytes), exec (.freezeSet r) s = .next (t.answered 0x0707 r r.tgt a) ∧ a.length = 16 ∧ u8 a 0 = i ∧ t.objs = s1.objs ∧
      ∃ q f, t.part key = some q ∧ q.recs = p.recs ∧ q.write = p.write ∧ tget? q.freezes i = some f ∧ f.t1 = 2 * u64 r.payload 0 ∧
        f.t2 = 2 * u64 r.payload 8 ∧ f.growing = decide (s1.now < f.t2) ∧
        ∀ x ∈ p.recs, x.filler = false → f.t1 ≤ x.capture → x.capture ≤ f.t2 → f.lo ≤ x.off ∧ x.off + x.len ≤ f.hi) ∧
  (∀ r s s1 key p, s.turn 0x0708 r = some s1 → r.payload.length = 4 → s1.lives r.tgt key 0x06 → s1.part key = some p →
    thas p.freezes (u8 r.payload 0) = true → zeros r.payload 1 3 = true →
    exec (.freezeRelease r) s = .next (State.answered (s1.updPart key fun p => { p with freezes := tdel p.freezes (u8 r.payload 0) })
      0x0708 r r.tgt [])) ∧
  (∀ r s s1 key p, s.turn 0x0709 r = some s1 → r.payload.length = 32 → s1.lives r.tgt key 0x06 → s1.part key = some p → zeros r.payload 8 8 = true →
    zeros r.payload 28 4 = true → u64 r.payload 0 + u32 r.payload 24 ≤ p.bytesOf → 0 < u32 r.payload 24 →
    exec (.recorderRead r) s = .next (State.waiting ((s1.memRead (p.base * 2 ^ 20 + u64 r.payload 0) (u32 r.payload 24)).1.emit
        (dmaWrite (u64 r.payload 16) (p.ringBytes (u64 r.payload 0) (u32 r.payload 24))
          (s1.memRead (p.base * 2 ^ 20 + u64 r.payload 0) (u32 r.payload 24)).2)) 0x0709 r .write (le 8 p.write ++ le 8 p.write))) ∧
  (∀ r s s1 key p, s.turn 0x0709 r = some s1 → r.payload.length = 32 → s1.lives r.tgt key 0x06 → s1.part key = some p → zeros r.payload 8 8 = true →
    zeros r.payload 28 4 = true → u64 r.payload 0 ≤ p.bytesOf → u32 r.payload 24 = 0 →
    exec (.recorderRead r) s = .next (s1.answered 0x0709 r r.tgt (le 8 p.write ++ le 8 p.write))) ∧
  (∀ r s s1 key p, s.turn 0x070A r = some s1 → r.payload = [] → s1.lives r.tgt key 0x06 → s1.part key = some p →
    ∃ a : Bytes, exec (.partitionStatsGet r) s = .next (s1.answered 0x070A r r.tgt a) ∧ a.length = 48 ∧ a.take 16 = le 8 p.written ++ le 8 p.bytes) ∧
  (∀ r s s1, s.turn 0x070B r = some s1 → r.target = 0 → r.payload = [] →
    ∃ a : Bytes, exec (.recorderSurvivorsGet r) s = .next (s1.answered 0x070B r 0 a) ∧ a.length = 4 + 16 * min 13 s1.recorder.survivors.length) ∧
  (∀ r s s1 x i u w n, s.turn 0x070C r = some s1 → r.target = 0 → r.payload.length = 4 → (s1.mode = .ready ∨ s1.inService = true) →
    (s1.recorder.survivors.find? fun x => x.base == u32 r.payload 0) = some x → s1.lowestFree 6 0 16 = some i →
    s1.ringWalk x.base (x.size * 2 ^ 20) (x.recs.filter fun e => decide (x.saved ≤ e.off)) (x.saved, none) = (u, w, n) →
    ∃ t : State, exec (.partitionAdopt r) s = .next (t.answered 0x070C r (s1.handle (okey 6 i)) []) ∧
      ∃ q, tget? t.recorder.parts (kidx (okey 6 i)) = some q ∧ q.evidence = true ∧ q.base = x.base ∧ q.size = x.size ∧ q.write = w ∧
        q.seq = n.getD 0 ∧ q.recs = (x.recs.filter fun e => decide (e.off < w)) ∧ q.freezes = x.freezes)

/-- The recorder's own triggers (chapter 16). -/
def Obligations.RecorderEventsComplete : Prop :=
  (∀ part (s : State) p c q w, part < 16 → s.part (okey 6 part) = some p → s.work.throttled = false → s.mem.ddr = true → s.unitDown 0x0D 0 = false →
    p.nextCopy = some (c, q) → w = p.skip (p.recs.length + 1) p.write → recordLen c.data.length ≤ p.gap w →
    ∃ t : State, exec (.recordWrite part) s = .next t ∧ t.objs = s.objs ∧ (p.freezes = [] → t.mbx = s.mbx) ∧
      ∃ x, t.part (okey 6 part) = some x ∧ x.seq = p.seq + 1 ∧ x.written = p.written + 1 ∧ x.bytes = p.bytes + recordLen c.data.length ∧
        x.write = w + recordLen c.data.length ∧ ∃ rec ∈ x.recs, rec.off = w ∧ rec.len = recordLen c.data.length ∧
          rec.capture = c.capture ∧ rec.filler = false) ∧
  (∀ part (s : State) p c q w, part < 16 → s.part (okey 6 part) = some p → s.work.throttled = false → s.mem.ddr = true → s.unitDown 0x0D 0 = false →
    p.nextCopy = some (c, q) → w = p.skip (p.recs.length + 1) p.write → p.gap w < recordLen c.data.length →
    ∃ t : State, exec (.recordWrite part) s = .next t ∧ t.objs = s.objs ∧ (p.freezes = [] → t.mbx = s.mbx) ∧
      ∃ x, t.part (okey 6 part) = some x ∧ x.seq = p.seq + 1 ∧ x.ingest = p.ingest ∧ x.pics = p.pics ∧
        x.write = w + p.gap w ∧ ∃ rec ∈ x.recs, rec.off = w ∧ rec.len = p.gap w ∧ rec.filler = true) ∧
  (∀ w (p : Part), p.freezes = [] → p.skip (p.recs.length + 1) w = w ∧ p.gap w = p.bytesOf - w % p.bytesOf) ∧
  (∀ part (s : State) p, part < 16 → s.part (okey 6 part) = some p →
    ∃ t : State, exec (.pictureCopyTimeout part) s = .next t ∧ t.objs = s.objs ∧ t.out = s.out ∧
      ∃ x, t.part (okey 6 part) = some x ∧ x.recs = p.recs ∧ x.ingest = p.ingest ∧ x.pics = p.pics.filter fun c => decide (s.now < c.deadline)) ∧
  (∀ part range (s : State) p f, part < 16 → s.part (okey 6 part) = some p → tget? p.freezes range = some f →
    ∃ t : State, exec (.freezeEnd part range) s = .next t ∧ t.objs = s.objs ∧ t.out = s.out ∧
      ∃ x, t.part (okey 6 part) = some x ∧ x.recs = p.recs ∧
        tget? x.freezes range = some (if f.t2 < s.now then { f with growing := false } else f)) ∧
  (∀ part (s : State) p, part < 16 → s.part (okey 6 part) = some p → u8 p.cfg 0 = 0 → exec (.exportWrite part) s = .next s) ∧
  (∀ part (s u : State) p rec n bad, part < 16 → s.part (okey 6 part) = some p → u8 p.cfg 0 = 1 → s.work.throttled = false → s.unitDown 0x0D 0 = false →
    p.exportNext = some rec →
    n = min (min (rec.off + rec.len - max p.exported rec.off) (u32 p.cfg 16 - (p.exported - p.acked)))
        (u32 p.cfg 16 - max p.exported rec.off % u32 p.cfg 16) → n ≠ 0 →
    s.memRead (p.base * 2 ^ 20 + max p.exported rec.off % p.bytesOf) n = (u, bad) →
    ∃ t : State, exec (.exportWrite part) s =
        .next (if n = rec.off + rec.len - max p.exported rec.off then t.exportLag (okey 6 part) rec.done u.now else t) ∧ t.objs = s.objs ∧
      t.out = .hostWrite (u64 p.cfg 24) (le 8 (max p.exported rec.off + n) ++
          le 2 ((if p.start then 1 else 0) + (if p.skipped then 2 else 0)) ++ le 6 0) ::
        dmaWrite (u64 p.cfg 8 + max p.exported rec.off % u32 p.cfg 16) (p.slice rec (max p.exported rec.off - rec.off) n) bad :: u.out ∧
      ∃ x, t.part (okey 6 part) = some x ∧ x.exported = max p.exported rec.off + n ∧ x.acked = p.acked ∧ x.start = false ∧ x.skipped = false) ∧
  (∀ part (s : State) p rec n d, part < 16 → s.part (okey 6 part) = some p → u8 p.cfg 0 = 2 → s.work.throttled = false → s.unitDown 0x0D 0 = false →
    p.exportNext = some rec → n = min (rec.off + rec.len - max p.exported rec.off) 1408 →
    d = be 4 0x44515845 ++ [1] ++ be 1 part ++ be 2 ((if p.start then 1 else 0) + (if p.skipped then 2 else 0)) ++ be 4 p.dgram ++ be 4 p.size ++
      be 8 (max p.exported rec.off) ++ p.slice rec (max p.exported rec.off - rec.off) n →
    (s.frameFor (exportRoute p.cfg) d = none → exec (.exportWrite part) s = .next ((s.portBump (u8 p.cfg 40) 68 1).updPart (okey 6 part) fun p =>
      { p with exported := max p.exported rec.off + n, start := false, skipped := false, dgram := (p.dgram + 1) % 2 ^ 32 })) ∧
    ∀ f q, s.frameFor (exportRoute p.cfg) d = some f → s.queue? (exportQueue (okey 6 part)) = some q → q.held = none → q.waiting = [] →
      q.fill + (32 + f.length) + 7 ≤ q.cap →
      ∃ t : State, exec (.exportWrite part) s = .next t ∧ t.objs = s.objs ∧
        ∃ x, t.part (okey 6 part) = some x ∧ x.exported = max p.exported rec.off + n ∧ x.dgram = (p.dgram + 1) % 2 ^ 32 ∧ x.start = false ∧
          x.skipped = false)

/-- The memory system (chapter 17). -/
def Obligations.MemoryComplete : Prop :=
  (∀ r s s1, s.turn 0x0F60 r = some s1 → r.target = 0 → r.payload.length = 16 → (s1.mode = .ready ∨ s1.mode = .maintenance) → s1.objs = [] →
    (u8 r.payload 3 % 2 = 1 ∨ s1.recorder.survivors = []) → 8 ≤ u8 r.payload 0 → u8 r.payload 0 ≤ 16 → 8 ≤ u8 r.payload 1 → u8 r.payload 1 ≤ 13 →
    u8 r.payload 2 ≤ 16 → u8 r.payload 3 ≤ 1 → zeros r.payload 4 12 = true →
    exec (.memLayoutSet r) s = .next (State.answered { s1 with
      mem := { s1.mem with g5 := u8 r.payload 0, g3 := u8 r.payload 1, spill := u8 r.payload 2 }
      recorder := { s1.recorder with survivors := [] } } 0x0F60 r 0 [])) ∧
  (∀ r s s1, s.turn 0x0F61 r = some s1 → r.target = 0 → r.payload.length = 16 → 8 ≤ u8 r.payload 1 → u8 r.payload 1 ≤ 16 → u16 r.payload 2 ≤ 1023 →
    1 ≤ u8 r.payload 5 → zeros r.payload 6 10 = true →
    ((u8 r.payload 0 = 1 ∧ 2 ≤ u8 r.payload 4 ∧ u8 r.payload 4 ≤ 16 ∧ u8 r.payload 5 ≤ 168) ∨
      (u8 r.payload 0 = 2 ∧ u8 r.payload 4 = 0 ∧ u8 r.payload 5 ≤ 24)) →
    exec (.memPolicySet r) s = .next (State.accepted (s1.schedule (.block (s1.firstBlock r.mbx)) (r.origin 0) (.memPolicy r.payload)) 0x0F61 r 0 [])) ∧
  (∀ r s s1, s.turn 0x0F62 r = some s1 → r.target = 0 → r.payload.length = 4 → zeros r.payload 2 2 = true →
    ((u8 r.payload 0 = 1 ∧ u8 r.payload 1 < 8) ∨ (u8 r.payload 0 = 2 ∧ u8 r.payload 1 < 16)) →
    ∃ p : Bytes, exec (.memStatusGet r) s = .next (s1.answered 0x0F62 r 0 p) ∧ p.length = 64 ∧
      p.take 2 = le 1 (u8 r.payload 0) ++ le 1 (u8 r.payload 1)) ∧
  (∀ chan rank (s : State), rankOk chan rank = true → (s.mem.rank chan rank).burst = true → (s.mem.chan chan).window = false →
    (s.mem.rank chan rank).owed < 4 →
    ∃ t : State, exec (.refreshDue chan rank) s = .next t ∧ t.objs = s.objs ∧ t.mbx = s.mbx ∧
      (t.mem.rank chan rank).owed = (s.mem.rank chan rank).owed + 1 ∧ (t.mem.rank chan rank).burst = true ∧
      (t.mem.chan chan).forced = (s.mem.chan chan).forced) ∧
  (∀ chan rank (s : State), rankOk chan rank = true → (s.mem.rank chan rank).burst = true → (s.mem.chan chan).window = false →
    4 ≤ (s.mem.rank chan rank).owed →
    exec (.refreshDue chan rank) s = .next ((s.refreshRank chan rank 1).updChan chan fun c => { c with forced := c.forced + 1 })) ∧
  (∀ chan rank (s : State), rankOk chan rank = true → ((s.mem.rank chan rank).burst = false ∨ (s.mem.chan chan).window = true) →
    ∃ t : State, exec (.refreshDue chan rank) s = .next t ∧ t.objs = s.objs ∧ t.mbx = s.mbx ∧ .refresh chan rank ∈ t.out ∧
      t.mem.rank chan rank = { s.mem.rank chan rank with owed := 0 }) ∧
  (∀ chan rank (s : State), rankOk chan rank = true → (s.mem.rank chan rank).burst = true → s.burstGoesOn chan = false →
    ∃ t : State, exec (.realtimeBurstEnd chan rank) s = .next t ∧ t.objs = s.objs ∧ t.mbx = s.mbx ∧
      t.mem.rank chan rank = { owed := 0, burst := false }) ∧
  (∀ chan rank (s : State), rankOk chan rank = true → (s.mem.rank chan rank).burst = true → s.burstGoesOn chan = true →
    exec (.realtimeBurstEnd chan rank) s = .next s) ∧
  (∀ chan bank (s : State), (chan < 8 ∧ bank < 256 ∨ 8 ≤ chan ∧ chan < 40 ∧ bank < 16) →
    (s.idleOver chan bank = true → ∃ t : State, exec (.pageIdleTimeout chan bank) s = .next t ∧ t.objs = s.objs ∧ t.mbx = s.mbx ∧
      thas t.mem.rows (chan * 1024 + bank) = false ∧ ∀ k, k ≠ chan * 1024 + bank → tget? t.mem.rows k = tget? s.mem.rows k) ∧
    (s.idleOver chan bank = false → exec (.pageIdleTimeout chan bank) s = .next s)) ∧
  (∀ chan (s : State), chan < 40 → (if chan < 8 then s.mem.ddr = true else s.mem.hbm = true) →
    s.mem.found chan (s.mem.chan chan).scrub = (0, false) →
    ∃ t : State, exec (.scrubStep chan []) s = .next t ∧ t.objs = s.objs ∧ t.mbx = s.mbx ∧ t.mem.fixes = s.mem.fixes ∧
      (t.mem.chan chan).corrected = (s.mem.chan chan).corrected ∧ (t.mem.chan chan).uncorrected = (s.mem.chan chan).uncorrected ∧
      (if (s.mem.chan chan).scrub + 1 < locations chan then (t.mem.chan chan).scrub = (s.mem.chan chan).scrub + 1
       else (t.mem.chan chan).scrub = 0 ∧ (t.mem.chan chan).passes = (s.mem.chan chan).passes + 1)) ∧
  (∀ chan b (s : State), chan < 40 → (if chan < 8 then s.mem.ddr = true else s.mem.hbm = true) →
    tget? s.mem.errs (locKey chan (s.mem.chan chan).scrub) = none → tget? s.mem.dead (locKey chan (s.mem.chan chan).scrub) = none →
    b < (if chan < 8 then 640 else 288) →
    ∃ t : State, exec (.scrubStep chan [b]) s = .next t ∧ t.objs = s.objs ∧ t.mem.fixes = s.mem.fixes ++ [(chan, (s.mem.chan chan).scrub)] ∧
      (t.mem.chan chan).corrected = (s.mem.chan chan).corrected + 1 ∧ (t.mem.chan chan).uncorrected = (s.mem.chan chan).uncorrected) ∧
  (∀ chan b c (s : State), chan < 40 → (if chan < 8 then s.mem.ddr = true else s.mem.hbm = true) →
    tget? s.mem.errs (locKey chan (s.mem.chan chan).scrub) = none → tget? s.mem.dead (locKey chan (s.mem.chan chan).scrub) = none →
    (if chan < 8 then b % 40 / 4 ≠ c % 40 / 4 else b < 288 ∧ b ≠ c ∧ b / 72 = c / 72) →
    ∃ t : State, exec (.scrubStep chan [b, c]) s = .next t ∧ t.objs = s.objs ∧ t.mem.fixes = s.mem.fixes ∧
      (t.mem.chan chan).corrected = (s.mem.chan chan).corrected ∧ (t.mem.chan chan).uncorrected = (s.mem.chan chan).uncorrected + 1) ∧
  (∀ chan loc (s : State), chan < 40 → (chan, loc) ∉ s.mem.fixes → exec (.correctedWriteBack chan loc) s = .next s) ∧
  (∀ chan loc (s : State), chan < 40 → (chan, loc) ∈ s.mem.fixes →
    ∃ t : State, exec (.correctedWriteBack chan loc) s = .next t ∧ t.objs = s.objs ∧ t.mbx = s.mbx ∧ (chan, loc) ∉ t.mem.fixes ∧
      ∀ e ∈ s.mem.fixes, e ≠ (chan, loc) → e ∈ t.mem.fixes) ∧
  (∀ chan (s : State), chan < 8 → s.mem.ddr = true →
    ∃ t : State, exec (.calibrationWindowStart chan) s = .next t ∧ t.objs = s.objs ∧ (t.mem.chan chan).window = true ∧
      (t.mem.chan chan).last = s.block ∧ ∀ rank, rank < 4 → (t.mem.rank chan rank).owed = 0) ∧
  (∀ chan (s : State), 8 ≤ chan → chan < 40 → s.mem.hbm = true →
    ∃ t : State, exec (.calibrationWindowStart chan) s = .next t ∧ t.objs = s.objs ∧ t.mbx = s.mbx ∧
      ∀ c ∈ windowChans chan, (t.mem.chan c).window = true ∧ (t.mem.rank c 0).owed = 0) ∧
  (∀ chan (s : State), chan < 40 →
    ∃ t : State, exec (.calibrationWindowEnd chan) s = .next t ∧ t.objs = s.objs ∧ t.mbx = s.mbx ∧ t.mem.ranks = s.mem.ranks ∧
      ∀ c ∈ windowChans chan, (t.mem.chan c).window = false)

/-- The time unit's commands, pulses and captures (chapter 18). -/
def Obligations.TimeCommandsComplete : Prop :=
  (∀ r s s1, s.turn 0x0800 r = some s1 → r.target = 0 → r.payload.length = 32 → u8 r.payload 0 ≤ 1 → s1.domainSetOk r.payload = true →
    ∃ t : State, exec (.timeDomainSet r) s = .next (t.answered 0x0800 r 0 []) ∧ t.objs = s1.objs ∧ t.now = s1.now ∧
      t.dom (u8 r.payload 0) = { TimeDomain.init with
        cfg := r.payload, st := u8 r.payload 1 % 2, reqSeq := (s1.dom (u8 r.payload 0)).reqSeq } ∧
      ∀ d, d ≠ u8 r.payload 0 → t.dom d = s1.dom d) ∧
  (∀ r s s1, s.turn 0x0801 r = some s1 → r.target = 0 → r.payload.length = 8 → 1 ≤ u16 r.payload 0 → u16 r.payload 0 ≤ 255 → u16 r.payload 2 ≤ 255 →
    zeros r.payload 4 4 = true →
    exec (.timeServoSet r) s = .next (State.accepted ((s1.updQuartz fun q => { q with pendK := some (u16 r.payload 0, u16 r.payload 2) }).schedule
      (.update 3) (r.origin 0) .applied) 0x0801 r 0 [])) ∧
  (∀ r s s1, s.turn 0x0802 r = some s1 → r.target = 0 → r.payload.length = 4 → u8 r.payload 0 ≤ 1 →
    (s1.role ≠ .cascadeMember ∨ s1.quartz.active ≠ some 2) → s1.tracking (u8 r.payload 0) = true → u8 r.payload 1 ≤ 1 → zeros r.payload 2 2 = true →
    exec (.timeSelect r) s = .next (State.accepted ((s1.updQuartz fun q => { q with sel := some (u8 r.payload 0, u8 r.payload 1 == 1) }).schedule
      (.update (u8 r.payload 0)) (r.origin 0) .applied) 0x0802 r 0 [])) ∧
  (∀ r s s1, s.turn 0x0803 r = some s1 → r.target = 0 → r.payload.length = 16 → (s1.mode = .ready ∨ s1.mode = .maintenance) →
    u32 r.payload 8 < 1000000000 → zeros r.payload 12 4 = true →
    ∃ t : State, exec (.timeStep r) s = .next (t.answered 0x0803 r 0 []) ∧ t.now = fld r.payload 0 6 * 1000000000 + u32 r.payload 8 ∧
      t.nowFrac = u16 r.payload 6 ∧ t.objs = s1.objs ∧ t.quartz.servo = (if s1.quartz.active.isSome then 1 else 0) ∧
      t.quartz.due = ((fld r.payload 0 6 * 1000000000 + u32 r.payload 8) % 2000000 == 0 && u16 r.payload 6 == 0)) ∧
  (∀ r s s1, s.turn 0x0804 r = some s1 → r.target = 0 → r.payload = [] →
    exec (.timeStatusGet r) s = .next (s1.answered 0x0804 r 0 s1.timeStatus) ∧ s1.timeStatus.length = 64) ∧
  (∀ r s s1, s.turn 0x0805 r = some s1 → r.target = 0 → r.payload.length = 4 → u8 r.payload 0 ≤ 3 → u8 r.payload 1 ≤ 3 → zeros r.payload 2 2 = true →
    exec (.timeCaptureSet r) s = .next (State.answered (s1.updQuartz fun q => { q with edges := tset q.edges (u8 r.payload 0) (u8 r.payload 1) })
      0x0805 r 0 [])) ∧
  (∀ s : State, exec .timeSnapTake s = .next (s.updQuartz fun q => { q with snap := (s.now, s.nowFrac, q.snapState) })) ∧
  (∀ pulse (s : State), pulse < 4 → s.mode ≠ .reset → s.mode ≠ .halt → (s.pulse pulse).armed = false → (s.pulse pulse).ok = true →
    (s.pulse pulse).period = 0 → (s.pulse pulse).rise 0 < s.now →
    exec (.timePulseArm pulse) s = .next (s.updPulse pulse fun x => { x with late := true, done := 0 })) ∧
  (∀ pulse (s : State), pulse < 4 → s.mode ≠ .reset → s.mode ≠ .halt → (s.pulse pulse).armed = false → (s.pulse pulse).ok = true →
    ((s.pulse pulse).period ≠ 0 ∨ s.now ≤ (s.pulse pulse).rise 0) →
    ∃ t : State, exec (.timePulseArm pulse) s = .next t ∧ t.objs = s.objs ∧ ((s.pulse pulse).opened = false → t.out = s.out) ∧
      (t.pulse pulse).armed = true ∧ (t.pulse pulse).opened = false ∧ (t.pulse pulse).done = 0) ∧
  (∀ pulse (s : State), pulse < 4 → ((s.pulse pulse).armed = true ∨ (s.pulse pulse).ok = false) → exec (.timePulseArm pulse) s = .next s) ∧
  (∀ pulse (s : State), pulse < 4 →
    ∃ t : State, exec (.timePulseStop pulse) s = .next t ∧ t.objs = s.objs ∧ (t.pulse pulse).armed = false ∧ (t.pulse pulse).opened = false ∧
      ((s.pulse pulse).opened = false → t.out = s.out)) ∧
  (∀ pulse (s : State), pulse < 4 → s.mode ≠ .reset → s.mode ≠ .halt → (s.pulse pulse).armed = true → (s.pulse pulse).opened = false →
    s.now ≤ (s.pulse pulse).rise (s.pulse pulse).k →
    ∃ t : State, exec (.pulseEdge pulse) s = .next t ∧ t.objs = s.objs ∧ t.now = (s.pulse pulse).rise (s.pulse pulse).k ∧
      (t.pulse pulse).opened = true ∧ (t.pulse pulse).done = ((s.pulse pulse).done + 1) % 2 ^ 32 ∧
      (s.pins.applied = true → s.pins.ppsOe.getLsbD pulse = true →
        t.out = .pin 1 pulse (if (s.pulse pulse).pol then 0 else 1) :: s.out)) ∧
  (∀ pulse (s : State), pulse < 4 → s.mode ≠ .reset → s.mode ≠ .halt → (s.pulse pulse).armed = true → (s.pulse pulse).opened = true →
    s.now ≤ (s.pulse pulse).fall (s.pulse pulse).k →
    ∃ t : State, exec (.pulseEdge pulse) s = .next t ∧ t.objs = s.objs ∧ t.now = (s.pulse pulse).fall (s.pulse pulse).k ∧
      (t.pulse pulse).opened = false ∧ (t.pulse pulse).k = (s.pulse pulse).k + 1 ∧ ((s.pulse pulse).period = 0 → (t.pulse pulse).armed = false)) ∧
  (∀ pin time rising (s : State), pin < 4 → s.serving = false → s.now ≤ time → s.quartz.caps = [] →
    (if rising then tget 0 s.quartz.edges pin % 2 = 1 else tget 0 s.quartz.edges pin / 2 % 2 = 1) →
    ∃ t : State, exec (.tsInEdge pin time rising) s = .next t ∧ t.objs = s.objs ∧
      ∃ f, t.quartz.caps = [(pin, (if rising then 1 else 2), time / 2 * 2, f)]) ∧
  (∀ pin time rising (s : State), pin < 4 →
    (if rising then tget 0 s.quartz.edges pin % 2 = 1 else tget 0 s.quartz.edges pin / 2 % 2 = 1) →
    (s.quartz.caps.filter fun c => c.1 == pin).length < 64 →
    ∃ t : State, exec (.tsInEdge pin time rising) s = .next t ∧ t.objs = s.objs ∧ t.now = max s.now time ∧
      (if s.serving then t.quartz.caps = []
       else t.mbx = s.mbx ∧ (pin, (if rising then 1 else 2), time / 2 * 2, (s.at time).nowFrac) ∈ t.quartz.caps)) ∧
  (∀ pin time rising (s : State), pin < 4 →
    (if rising then tget 0 s.quartz.edges pin % 2 = 1 else tget 0 s.quartz.edges pin / 2 % 2 = 1) →
    64 ≤ (s.quartz.caps.filter fun c => c.1 == pin).length →
    exec (.tsInEdge pin time rising) s = .next ((s.at time).updQuartz fun q => { q with dropped := tset q.dropped pin (tget 0 q.dropped pin + 1) })) ∧
  (∀ pin time rising (s : State), pin < 4 → s.now ≤ time →
    (if rising then tget 0 s.quartz.edges pin % 2 = 0 else tget 0 s.quartz.edges pin / 2 % 2 = 0) →
    exec (.tsInEdge pin time rising) s = .next (s.at time))

/-- PTP messages (chapter 18). -/
def Obligations.PtpComplete : Prop :=
  (∀ dom time (msg : Bytes) (s : State), dom < 2 → s.mode ≠ .reset → s.mode ≠ .halt → ((s.dom dom).enabled = false ∨ u8 msg 4 ≠ u8 (s.dom dom).cfg 5) →
    exec (.ptpAnnounceReceive dom time msg) s = .next ((s.at time).updQuartz fun q => { q with discarded := q.discarded + 1 }) ∧
    exec (.ptpSyncReceive dom time msg) s = .next ((s.at time).updQuartz fun q => { q with discarded := q.discarded + 1 }) ∧
    exec (.ptpDelayResponseReceive dom time msg) s = .next ((s.at time).updQuartz fun q => { q with discarded := q.discarded + 1 })) ∧
  (∀ dom time (msg : Bytes) (s : State), dom < 2 → s.mode ≠ .reset → s.mode ≠ .halt → (s.dom dom).enabled = true → u8 msg 4 = u8 (s.dom dom).cfg 5 →
    ptpType msg = 11 → u8 msg 48 ≤ u8 (s.dom dom).cfg 11 → bfld msg 61 2 ≠ 255 →
    ∃ t : State, exec (.ptpAnnounceReceive dom time msg) s = .next t ∧ t.objs = s.objs ∧ t.mbx = s.mbx ∧
      (∃ m ∈ (t.dom dom).masters, m.source = ptpSource msg ∧ m.priority1 = u8 msg 47 ∧ m.cls = u8 msg 48 ∧ m.accuracy = u8 msg 49 ∧
        m.variance = bfld msg 50 2 ∧ m.priority2 = u8 msg 52 ∧ m.steps = bfld msg 61 2) ∧
      (∀ o ∈ (s.dom dom).masters, o.source ≠ ptpSource msg → o ∈ (t.dom dom).masters)) ∧
  (∀ dom time (msg : Bytes) (s : State) m, dom < 2 → s.mode ≠ .reset → s.mode ≠ .halt → (s.dom dom).enabled = true →
    u8 msg 4 = u8 (s.dom dom).cfg 5 → (s.dom dom).master = some m → m.source = ptpSource msg → ptpType msg = 0 → -7 ≤ signed 8 (u8 msg 33) →
    signed 8 (u8 msg 33) ≤ 0 → u8 msg 6 / 2 % 2 = 1 → s.now < time →
    ∃ t : State, exec (.ptpSyncReceive dom time msg) s = .next t ∧ t.objs = s.objs ∧ t.mbx = s.mbx ∧
      (t.dom dom).sync = some (ptpSeq msg, (time : Int) * 65536, ptpCorr msg, 1000000000 / 2 ^ (-(signed 8 (u8 msg 33))).toNat)) ∧
  (∀ dom time (msg : Bytes) (s : State) m, dom < 2 → s.mode ≠ .reset → s.mode ≠ .halt → (s.dom dom).enabled = true →
    u8 msg 4 = u8 (s.dom dom).cfg 5 → (s.dom dom).master = some m → m.source = ptpSource msg → ptpType msg = 0 → -7 ≤ signed 8 (u8 msg 33) →
    signed 8 (u8 msg 33) ≤ 0 → u8 msg 6 / 2 % 2 = 0 → s.now < time → (s.dom dom).delays = [] →
    ∃ t : State, exec (.ptpSyncReceive dom time msg) s = .next t ∧ t.objs = s.objs ∧ t.mbx = s.mbx ∧
      (t.dom dom).t12 = some (ptpTime msg 34, (time : Int) * 65536) ∧ (t.dom dom).st = (s.dom dom).st ∧
      (t.dom dom).tau = 1000000000 / 2 ^ (-(signed 8 (u8 msg 33))).toNat) ∧
  (∀ dom time (msg : Bytes) (s : State) m delay, dom < 2 → s.mode ≠ .reset → s.mode ≠ .halt → (s.dom dom).enabled = true →
    u8 msg 4 = u8 (s.dom dom).cfg 5 → (s.dom dom).master = some m → m.source = ptpSource msg → ptpType msg = 0 → -7 ≤ signed 8 (u8 msg 33) →
    signed 8 (u8 msg 33) ≤ 0 → u8 msg 6 / 2 % 2 = 0 → s.now < time → (s.dom dom).mpd = some delay →
    ∃ t : State, exec (.ptpSyncReceive dom time msg) s = .next t ∧ t.objs = s.objs ∧ (t.dom dom).st = 2 ∧
      (t.dom dom).theta = some ((time : Int) * 65536 - ptpTime msg 34 - delay - ptpCorr msg - (s.dom dom).asym)) ∧
  (∀ dom time (msg : Bytes) (s : State) m t2 c tau, dom < 2 → s.mode ≠ .reset → s.mode ≠ .halt → (s.dom dom).enabled = true →
    u8 msg 4 = u8 (s.dom dom).cfg 5 → (s.dom dom).master = some m → m.source = ptpSource msg → ptpType msg = 8 →
    (s.dom dom).sync = some (ptpSeq msg, t2, c, tau) → (s.dom dom).delays = [] →
    ∃ t : State, exec (.ptpSyncReceive dom time msg) s = .next t ∧ t.objs = s.objs ∧ t.mbx = s.mbx ∧
      (t.dom dom).t12 = some (ptpTime msg 34, t2) ∧ (t.dom dom).tau = tau ∧ (t.dom dom).sync = none) ∧
  (∀ dom time (msg : Bytes) (s : State) m seq sent t1 t2, dom < 2 → s.mode ≠ .reset → s.mode ≠ .halt → (s.dom dom).enabled = true →
    u8 msg 4 = u8 (s.dom dom).cfg 5 → (s.dom dom).p2p = false → (s.dom dom).master = some m → m.source = ptpSource msg → ptpType msg = 9 →
    (s.dom dom).req = some (seq, sent) → ptpSeq msg = seq → (msg.drop 44).take 10 = ownIdentity (s.dom dom).port →
    (s.dom dom).t12 = some (t1, t2) →
    ∃ t : State, exec (.ptpDelayResponseReceive dom time msg) s = .next t ∧ t.objs = s.objs ∧ t.mbx = s.mbx ∧ (t.dom dom).req = none ∧
      (t.dom dom).delays = (((t2 - t1) + (ptpTime msg 34 - sent)) :: (s.dom dom).delays).take 16) ∧
  (∀ dom time (msg : Bytes) (s : State) seq sent, dom < 2 → s.mode ≠ .reset → s.mode ≠ .halt → (s.dom dom).enabled = true →
    u8 msg 4 = u8 (s.dom dom).cfg 5 → (s.dom dom).p2p = true → ptpType msg = 3 → u8 msg 6 / 2 % 2 = 0 → s.now < time →
    (s.dom dom).req = some (seq, sent) → ptpSeq msg = seq → (msg.drop 44).take 10 = ownIdentity (s.dom dom).port →
    ∃ t : State, exec (.ptpDelayResponseReceive dom time msg) s = .next t ∧ t.objs = s.objs ∧ t.mbx = s.mbx ∧ (t.dom dom).req = none ∧
      (t.dom dom).delays = ((((time : Int) * 65536 - sent) - ptpCorr msg) :: (s.dom dom).delays).take 16) ∧
  (∀ port time (msg : Bytes) (s : State), s.portOk port = true → s.mode ≠ .reset → s.mode ≠ .halt →
    ([0, 1].find? fun d => (s.dom d).enabled && (s.dom d).port == port && u8 msg 4 == u8 (s.dom d).cfg 5) = none →
    exec (.ptpPdelayReqReceive port time msg) s = .next ((s.at time).updQuartz fun q => { q with discarded := q.discarded + 1 })) ∧
  (∀ port time (msg : Bytes) (s : State) d, s.portOk port = true → s.mode ≠ .reset → s.mode ≠ .halt →
    ([0, 1].find? fun d => (s.dom d).enabled && (s.dom d).port == port && u8 msg 4 == u8 (s.dom d).cfg 5) = some d →
    (s.dom d).p2p = true → ptpType msg = 2 → s.queue? (0xF020 + port) = none →
    ∃ (t : State) (f : Bytes), exec (.ptpPdelayReqReceive port time msg) s = .next t ∧ t.objs = s.objs ∧ t.quartz = s.quartz ∧
      ∃ q rec, t.queue? (0xF020 + port) = some q ∧ q.recs.head? = some rec ∧ rec.data = (s.at time).ptpFrame (s.dom d) true true f) ∧
  (∀ dom time (s : State) m, dom < 2 → s.mode ≠ .reset → s.mode ≠ .halt → (s.dom dom).enabled = true → (s.dom dom).master = some m → s.now < time →
    ∃ t : State, exec (.ptpDelayReqSend dom time) s = .next t ∧ t.objs = s.objs ∧
      (t.dom dom).req = some (((s.dom dom).reqSeq + 1) % 65536, (time : Int) * 65536) ∧ (t.dom dom).reqSeq = ((s.dom dom).reqSeq + 1) % 65536) ∧
  (∀ dom (s : State), dom < 2 → (s.dom dom).st = 2 →
    ∃ t : State, exec (.domainLossTimeout dom) s = .next t ∧ t.objs = s.objs ∧ t.now = s.now ∧ (t.dom dom).st = 3 ∧ (t.dom dom).theta = none ∧
      (t.dom dom).masters = []) ∧
  (∀ dom (s : State), dom < 2 → (s.dom dom).st ≠ 2 → exec (.domainLossTimeout dom) s = .next s)

/-- The framer's commands (chapter 19). -/
def Obligations.FramerCommandsComplete : Prop :=
  (∀ r s s1 l, s.turn 0x0E00 r = some s1 → r.target = 0 → r.payload.length = 8 → l = u8 r.payload 0 → 24 ≤ l → l < 32 →
    (s1.inService = true ∨ s1.mode = .maintenance) → thas s1.objs (laneKey l) = false → u8 r.payload 3 ≤ 1 → zeros r.payload 6 2 = true →
    (u8 r.payload 1 = 5 ∨ u8 r.payload 1 = 6 → u8 r.payload 2 = 0 ∧ u8 r.payload 4 = 0 ∧ u8 r.payload 5 = 0) →
    (1 ≤ u8 r.payload 1 → u8 r.payload 1 ≤ 4 → (u8 r.payload 2 = 1 ∨ u8 r.payload 2 = 2) ∧ 3 ≤ u8 r.payload 4 ∧ u8 r.payload 4 ≤ 5 ∧
      (u8 r.payload 5 = 0 ∨ (5 ≤ u8 r.payload 5 ∧ u8 r.payload 5 ≤ 9))) → 1 ≤ u8 r.payload 1 → u8 r.payload 1 ≤ 6 →
    ∃ t : State, (if u8 r.payload 3 = 1 then exec (.lineCreate r) s = .next (t.accepted 0x0E00 r (s1.handle (laneKey l)) [])
        else exec (.lineCreate r) s = .next (t.answered 0x0E00 r (s1.handle (laneKey l)) [])) ∧
      (∃ x, tget? t.framer.lanes l = some x ∧ x.mode = u8 r.payload 1 ∧ x.inFrame = false ∧ x.msp = none ∧ x.defects = 0) ∧
      ∃ o, tget? t.objs (laneKey l) = some o ∧ o.owner = r.mbx ∧ o.active = (u8 r.payload 3 == 1)) ∧
  (∀ r s s1 lk lane i, s.turn 0x0E01 r = some s1 → r.target = 0 → r.payload.length = 12 → s1.lives (u32 r.payload 0) lk 9 → lane = kidx lk - 544 →
    568 ≤ kidx lk → s1.inService = true → s1.sdhWorking lane = true →
    locOk 1 (match tget? s1.framer.lanes lane with | some x => modeAus x.mode | none => 0) (u8 r.payload 4) (u8 r.payload 5) (u8 r.payload 6)
      (u8 r.payload 7) = true → u8 r.payload 8 ≤ 2 → u8 r.payload 9 ≤ 1 → u8 r.payload 11 ≤ 1 →
    s1.terminated lane (u8 r.payload 4) (u8 r.payload 5) (u8 r.payload 6 * 16 + u8 r.payload 7) = false → s1.lowestFree 9 0 504 = some i →
    ∃ t : State, (if u8 r.payload 11 = 1 then exec (.e1PathCreate r) s = .next (t.accepted 0x0E01 r (s1.handle (okey 9 i)) [])
        else exec (.e1PathCreate r) s = .next (t.answered 0x0E01 r (s1.handle (okey 9 i)) [])) ∧
      (∃ x, tget? t.framer.e1 (kidx (okey 9 i)) = some x ∧ x.lane = lane ∧ x.a = u8 r.payload 4 ∧ x.k = u8 r.payload 5 ∧ x.l = u8 r.payload 6 ∧
        x.m = u8 r.payload 7 ∧ x.crcMode = u8 r.payload 8 ∧ x.ts16 = u8 r.payload 9 ∧ x.idle = u8 r.payload 10) ∧
      ∃ o, tget? t.objs (okey 9 i) = some o ∧ o.owner = r.mbx ∧ o.active = (u8 r.payload 11 == 1)) ∧
  (∀ r s s1 i, s.turn 0x0E02 r = some s1 → r.target = 0 → r.payload.length = 16 + 4 * u8 r.payload 1 → 24 ≤ u8 r.payload 3 → u8 r.payload 3 < 32 →
    s1.inService = true → 1 ≤ u8 r.payload 0 → u8 r.payload 0 ≤ 3 → 1 ≤ u8 r.payload 1 → u8 r.payload 1 ≤ (if u8 r.payload 0 = 3 then 16 else 48) →
    u8 r.payload 2 ≤ 64 → u8 r.payload 4 ≤ 1 → zeros r.payload 6 10 = true →
    (u8 r.payload 5 = 0 ∨ (u8 r.payload 5 = 1 ∧ ((s1.homeGroups (u8 r.payload 3)).any fun e => s1.isActive (groupKey e.1)) = false ∧
      ∀ g : Vcat, g.ty = u8 r.payload 0 → g.members = vcatMembers r.payload → tget 0 s1.used (bkey 0x000B (u8 r.payload 3)) ≤ g.ceiling)) →
    (∀ m ∈ vcatMembers r.payload, 24 ≤ m.lane ∧ m.lane < 32 ∧ s1.sdhWorking m.lane = true ∧
      locOk (u8 r.payload 0) (match tget? s1.framer.lanes m.lane with | some x => modeAus x.mode | none => 0) m.a m.k (m.lm / 16) (m.lm % 16) = true ∧
      s1.terminated m.lane m.a m.k m.lm = false) → membersApart (vcatMembers r.payload) = true → s1.lowestFree 9 504 64 = some i →
    s1.admits (vcatCost (u8 r.payload 0) (u8 r.payload 1) (u8 r.payload 2)) = true →
    ∃ t : State, (if u8 r.payload 5 = 1 then exec (.vcatGroupCreate r) s = .next (t.accepted 0x0E02 r (s1.handle (okey 9 i)) [])
        else exec (.vcatGroupCreate r) s = .next (t.answered 0x0E02 r (s1.handle (okey 9 i)) [])) ∧
      (∃ g, tget? t.framer.groups (kidx (okey 9 i) - 504) = some g ∧ g.ty = u8 r.payload 0 ∧ g.members = vcatMembers r.payload ∧
        g.home = u8 r.payload 3 ∧ g.maxDelay = u8 r.payload 2) ∧
      ∃ o, tget? t.objs (okey 9 i) = some o ∧ o.owner = r.mbx ∧ o.active = (u8 r.payload 5 == 1)) ∧
  (∀ r s s1 key, s.turn 0x0E03 r = some s1 → r.payload = [] → s1.lives r.tgt key 9 → s1.pathBusy key = false →
    ∃ t : State, exec (.pathDestroy r) s = .next (t.accepted 0x0E03 r r.tgt []) ∧ t.gen key = nextGen (s1.gen key) ∧
      ∃ e ∈ t.sched, e.at_ = .line ∧ e.act = .free key) ∧
  (∀ r s s1 key, s.turn 0x0E04 r = some s1 → r.payload = [] → s1.lives r.tgt key 9 → s1.isActive key = false → (kidx key < 504 ∨ 568 ≤ kidx key) →
    exec (.pathEnable r) s = .next (State.accepted ((s1.updObj key fun o => { o with active := true }).schedule .line (r.origin r.tgt)
      (.live key true)) 0x0E04 r r.tgt [])) ∧
  (∀ r s s1 key g, s.turn 0x0E04 r = some s1 → r.payload = [] → s1.lives r.tgt key 9 → s1.isActive key = false → 504 ≤ kidx key → kidx key < 568 →
    tget? s1.framer.groups (kidx key - 504) = some g → ((s1.homeGroups g.home).any fun e => s1.isActive (groupKey e.1)) = false →
    tget 0 s1.used (bkey 0x000B g.home) ≤ g.ceiling →
    exec (.pathEnable r) s = .next (State.accepted ((s1.updObj key fun o => { o with active := true }).schedule .line (r.origin r.tgt)
      (.live key true)) 0x0E04 r r.tgt [])) ∧
  (∀ r s s1 key, s.turn 0x0E05 r = some s1 → r.payload = [] → s1.lives r.tgt key 9 → s1.isActive key = true →
    exec (.pathHold r) s = .next (State.accepted ((s1.updObj key fun o => { o with active := false }).schedule .line (r.origin r.tgt)
      (.live key false)) 0x0E05 r r.tgt [])) ∧
  (∀ r s s1 wk pk lw lq, s.turn 0x0E06 r = some s1 → r.payload.length = 8 → s1.lives r.tgt wk 9 → u32 r.payload 0 ≠ 0 →
    s1.lives (u32 r.payload 0) pk 9 → 568 ≤ kidx wk → 568 ≤ kidx pk → kidx pk ≠ kidx wk →
    tget? s1.framer.lanes (kidx wk - 544) = some lw → tget? s1.framer.lanes (kidx pk - 544) = some lq → modeAus lw.mode ≠ 0 → lq.mode = lw.mode →
    lq.msp = none → s1.protects (kidx wk - 544) = none →
    (∀ e, s1.protects (kidx pk - 544) = some e → e.1 = kidx wk - 544) →
    s1.pathBusy (laneKey (kidx wk - 544)) = false → s1.pathBusy (laneKey (kidx pk - 544)) = false →
    u8 r.payload 4 ≤ 3 → (if u8 r.payload 4 / 2 = 1 then 1 ≤ u8 r.payload 5 ∧ u8 r.payload 5 ≤ 12 else u8 r.payload 5 = 0) →
    zeros r.payload 6 2 = true →
    exec (.mspSet r) s = .next (State.answered (s1.updLane (kidx wk - 544) fun l => { l with
      msp := some (Msp.new (kidx pk - 544) (u8 r.payload 4) (u8 r.payload 5)) }) 0x0E06 r r.tgt [])) ∧
  (∀ r s s1 wk lw m, s.turn 0x0E06 r = some s1 → r.payload.length = 8 → s1.lives r.tgt wk 9 → zeros r.payload 0 8 = true → u32 r.payload 0 = 0 →
    u8 r.payload 4 = 0 → u8 r.payload 5 = 0 → zeros r.payload 6 2 = true → 568 ≤ kidx wk →
    tget? s1.framer.lanes (kidx wk - 544) = some lw → modeAus lw.mode ≠ 0 → lw.msp = some m → s1.pathBusy (laneKey (kidx wk - 544)) = false →
    exec (.mspSet r) s = .next (State.answered (s1.updLane (kidx wk - 544) fun l => { l with msp := none }) 0x0E06 r r.tgt [])) ∧
  (∀ r s s1 wk lw m, s.turn 0x0E07 r = some s1 → r.payload.length = 4 → s1.lives r.tgt wk 9 → 568 ≤ kidx wk →
    tget? s1.framer.lanes (kidx wk - 544) = some lw → lw.msp = some m → u8 r.payload 0 ≤ 5 → zeros r.payload 1 3 = true →
    ∃ t : State, exec (.mspCommand r) s = .next (t.answered 0x0E07 r r.tgt []) ∧ t.objs = s1.objs ∧
      ∃ x p, tget? t.framer.lanes (kidx wk - 544) = some x ∧ x.msp = some p ∧ p.cmd = u8 r.payload 0 ∧ p.prot = m.prot) ∧
  (∀ r s s1 key e, s.turn 0x0E08 r = some s1 → r.payload.length = 4 → s1.lives r.tgt key 9 → kidx key < 504 →
    tget? s1.framer.e1 (kidx key) = some e → e.ts16 = 1 → 1 ≤ u8 r.payload 0 → u8 r.payload 0 ≤ 30 → 1 ≤ u8 r.payload 1 → u8 r.payload 1 ≤ 15 →
    zeros r.payload 2 2 = true →
    exec (.casSet r) s = .next (State.accepted (s1.schedule (.cas (kidx key)) (r.origin r.tgt) (.cas (kidx key) (u8 r.payload 0) (u8 r.payload 1)))
      0x0E08 r r.tgt [])) ∧
  (∀ r s s1 key, s.turn 0x0E09 r = some s1 → r.payload = [] → s1.lives r.tgt key 9 →
    ∃ p : Bytes, exec (.framerStatusGet r) s = .next (s1.answered 0x0E09 r r.tgt p) ∧ p.length = 48 ∧ p.take 4 = le 4 (s1.defects key).toNat)

/-- The framer's frames and timers (chapter 19). -/
def Obligations.FramerEventsComplete : Prop :=
  (∀ lane time (rx : LineRx) (s : State), 24 ≤ lane → lane < 32 → s.unitDown 0x0B 0 = false →
    exec (.lineFrame lane time rx) s = .next ((((s.at time).runDue fun b => match b with
      | .line => true
      | .cas i => (s.at time).casStarts lane i
      | _ => false).muteTdm).lineFrame lane rx)) ∧
  (∀ lane time (rx : LineRx) (s : State), 24 ≤ lane → lane < 32 → s.unitDown 0x0B 0 = false → s.sched = [] → s.audio.legs = [] →
    tget? s.framer.lanes lane = none → exec (.lineFrame lane time rx) s = .next (s.at time)) ∧
  (∀ lane time (rx : LineRx) (s : State) l, 24 ≤ lane → lane < 32 → s.unitDown 0x0B 0 = false → s.sched = [] → s.audio.legs = [] →
    s.framer.lanes = [(lane, l)] → s.framer.e1 = [] → s.framer.groups = [] → modeAus l.mode ≠ 0 → l.msp = none → l.defects = 0 → l.inFrame = true →
    rx.patterns = [l.pos] → rx.au = [] → l.au = [] → l.aisRow = 0 → rx.k2 = 0 → rx.ber = 0 →
    ∃ t : State, exec (.lineFrame lane time rx) s = .next t ∧ t.objs = s.objs ∧ t.now = (s.at time).now ∧
      (∃ x : LineTx, t.out = .line lane x :: s.out ∧ x.k1 = 0 ∧ x.k2 = 0 ∧ x.m1 = l.rei + rx.b2 ∧ x.trib = [] ∧ x.members = []) ∧
      ∃ x, tget? t.framer.lanes lane = some x ∧ x.inFrame = true ∧ x.pos = l.pos ∧ x.badA = 0 ∧ x.defects = 0 ∧
        tget 0 x.stats 4 = tget 0 l.stats 4 + rx.b1 ∧ tget 0 x.stats 8 = tget 0 l.stats 8 + rx.b2) ∧
  (∀ lane (s : State) l, 24 ≤ lane → lane < 32 → tget? s.framer.lanes lane = some l → modeAus l.mode ≠ 0 →
    ∃ t : State, exec (.losDeclare lane) s = .next t ∧ t.objs = s.objs ∧
      ∃ x, tget? t.framer.lanes lane = some x ∧ x.inFrame = false ∧ x.defects.getLsbD 1 = true ∧ x.mode = l.mode) ∧
  (∀ lane (s : State) l, tget? s.framer.lanes lane = some l → 24 ≤ lane → lane < 32 → modeAus l.mode ≠ 0 → l.inFrame = false →
    ∃ t : State, exec (.lofDeclare lane) s = .next t ∧ t.objs = s.objs ∧
      ∃ x, tget? t.framer.lanes lane = some x ∧ x.inFrame = false ∧ x.defects.getLsbD 2 = true) ∧
  (∀ lane (s : State) l, tget? s.framer.lanes lane = some l → 24 ≤ lane → lane < 32 → l.inFrame = true →
    ∃ t : State, exec (.lofClear lane) s = .next t ∧ t.objs = s.objs ∧
      ∃ x, tget? t.framer.lanes lane = some x ∧ x.inFrame = true ∧ x.defects.getLsbD 2 = false) ∧
  (∀ path (s : State) e, path < 504 → tget? s.framer.e1 path = some e → e.rx.inFrame = true → e.rx.crcOn = false → e.crcMode ≠ 0 → e.rx.crcOff = false →
    ∃ t : State, exec (.crc4MultiframeTimeout path) s = .next t ∧ t.objs = s.objs ∧
      ∃ x, tget? t.framer.e1 path = some x ∧ x.rx.inFrame = false ∧ x.defects.getLsbD 10 = true ∧ x.crcMode = e.crcMode) ∧
  (∀ path (s : State) e, path < 504 → tget? s.framer.e1 path = some e → e.crcMode = 2 → e.rx.crcOn = false → e.rx.crcOff = false →
    ∃ t : State, exec (.crc4AutoFallback path) s = .next t ∧ t.objs = s.objs ∧
      ∃ x, tget? t.framer.e1 path = some x ∧ x.rx.crcOff = true ∧ x.defects.getLsbD 12 = true ∧ x.defects.getLsbD 10 = false) ∧
  (∀ pair (s : State) l p, 24 ≤ pair → pair < 32 → tget? s.framer.lanes pair = some l → l.msp = some p → 12 ≤ p.stale →
    ∃ t : State, exec (.fopDeclare pair) s = .next t ∧ t.objs = s.objs ∧
      ∃ x, tget? t.framer.lanes pair = some x ∧ x.defects.getLsbD 14 = true) ∧
  (∀ pair (s : State) l p, tget? s.framer.lanes pair = some l → l.msp = some p → p.stale < 12 → exec (.fopDeclare pair) s = .next s) ∧
  (∀ pair (s : State) l p, 24 ≤ pair → pair < 32 → tget? s.framer.lanes pair = some l → l.msp = some p → p.waiting = true →
    (maxReq (s.localReq pair { p with waiting := false }) (s.remoteReq pair p)).1 = 0 →
    ∃ t : State, exec (.waitToRestoreExpiry pair) s = .next t ∧ t.objs = s.objs ∧
      ∃ x q, tget? t.framer.lanes pair = some x ∧ x.msp = some q ∧ q.waiting = false ∧ q.sel = false ∧ q.prot = p.prot)

/-- The management chain (chapter 20). -/
def Obligations.ChainFramesComplete : Prop :=
  (∀ (f : Bytes) (s : State), s.chainActs 0 true (· == 1) f = true → s.addrLocked = false → 1 ≤ u8 (chainData f) 0 → u8 (chainData f) 0 ≤ 31 →
    exec (.enumerate f) s = .next (State.emit (s.chainCounted.updNmc fun x => { x with addr := u8 (chainData f) 0, enumerated := true })
      (.chain (withData f (le 1 (u8 (chainData f) 0 + 1)))))) ∧
  (∀ (f : Bytes) (s : State), s.chainActs 0 true (· == 1) f = true → s.addrLocked = false → (u8 (chainData f) 0 = 0 ∨ 31 < u8 (chainData f) 0) →
    exec (.enumerate f) s = .next (State.emit (s.chainCounted.updNmc fun x => { x with addr := 0, enumerated := false }) (.chain f))) ∧
  (∀ (f : Bytes) (s : State), s.chainActs 0 true (· == 1) f = true → s.addrLocked = true → u8 f 7 = 0xFF →
    exec (.enumerate f) s = .next (s.chainCounted.emit (.chain (withStatus (withData f
      (if 1 ≤ u8 (chainData f) 0 ∧ u8 (chainData f) 0 ≤ 31 then le 1 (u8 (chainData f) 0 + 1) else chainData f)) 5)))) ∧
  (∀ (f : Bytes) (s : State), s.chainActs 1 false (fun n => decide (n ≤ 256)) f = true → s.nmc.wstate = .idle →
    exec (.windowWrite f) s = .next (State.emit (s.chainCounted.updNmc fun x => { x with window := poke (padTo 256 x.window) (u8 f 2) (chainData f) })
      (.chain (withStatus f 0)))) ∧
  (∀ (f : Bytes) (s : State), s.chainActs 1 false (fun n => decide (n ≤ 256)) f = true → s.nmc.wstate ≠ .idle →
    exec (.windowWrite f) s = .next (s.chainCounted.emit (.chain (withStatus f 3)))) ∧
  (∀ (f : Bytes) (s : State), s.chainActs 2 false (fun n => decide (n ≤ 256)) f = true →
    exec (.windowRead f) s = .next (s.chainCounted.emit (.chain (withStatus
      (withData f (((padTo 256 s.nmc.window).drop (u8 f 2)).take (chainData f).length)) 0)))) ∧
  (∀ (f : Bytes) (s : State), s.chainActs 3 false (· == 1) f = true → u8 (chainData f) 0 = 1 → s.nmc.wstate = .idle → s.mode.isOpen = true →
    exec (.doorbellGo f) s = .next (State.emit (((s.chainCounted.updNmc fun x => { x with wstate := .busy }).takeSlot 4
      (padTo 256 s.nmc.window)).settleTaken 4) (.chain (withStatus f 0)))) ∧
  (∀ (f : Bytes) (s : State), s.chainActs 3 false (· == 1) f = true → u8 (chainData f) 0 = 1 → s.nmc.wstate ≠ .idle →
    exec (.doorbellGo f) s = .next (State.emit (s.chainCounted.updNmc fun x => { x with
      overflow := if x.overflow = 0xFFFF then 0xFFFF else x.overflow + 1 }) (.chain (withStatus f 3)))) ∧
  (∀ (f : Bytes) (s : State), s.chainActs 3 false (· == 1) f = true → u8 (chainData f) 0 = 2 → (s.nmc.wstate = .response ∨ s.nmc.wstate = .event) →
    exec (.doorbellAck f) s = .next (State.emit s.chainCounted.windowAck (.chain (withStatus f 0)))) ∧
  (∀ (f : Bytes) (s : State), s.chainActs 3 false (· == 1) f = true → u8 (chainData f) 0 = 2 → (s.nmc.wstate = .idle ∨ s.nmc.wstate = .busy) →
    exec (.doorbellAck f) s = .next (s.chainCounted.emit (.chain (withStatus f 3)))) ∧
  (∀ (f : Bytes) (s : State), s.chainActs 4 true (· == 4) f = true → s.nmc.attn = true →
    exec (.poll f) s = .next (s.chainCounted.emit (.chain (withData f (be 4 (bfld (chainData f) 0 4 ||| 2 ^ s.nmc.addr)))))) ∧
  (∀ (f : Bytes) (s : State), s.chainActs 4 true (· == 4) f = true → s.nmc.attn = false →
    exec (.poll f) s = .next (s.chainCounted.emit (.chain f))) ∧
  (∀ (f : Bytes) (s : State), s.chainActs 5 false (· == 4) f = true →
    exec (.statusRead f) s = .next (s.chainCounted.emit (.chain (withStatus
      (withData f (le 1 s.nmc.wstate.code ++ le 1 s.mode.code ++ le 1 s.nmc.queue.length ++ le 1 0)) 0)))) ∧
  (∀ (f : Bytes) (s : State), s.sys.mode ≠ .reset → u8 f 1 % 32 ≠ 0 → u8 f 1 % 32 ≠ s.nmc.addr →
    exec (.windowWrite f) s = .next (s.emit (.chain f)) ∧ exec (.windowRead f) s = .next (s.emit (.chain f)) ∧
    exec (.statusRead f) s = .next (s.emit (.chain f))) ∧
  (∀ (f : Bytes) (s : State), s.sys.mode ≠ .reset → u8 f 0 = 0x5A → f.length = 8 + chainLen f → u8 f 1 / 32 = 5 → u8 f 1 % 32 ≠ 0 →
    u8 f 1 % 32 = s.nmc.addr → fcrcOk f = false →
    exec (.statusRead f) s = .next (State.emit (s.updNmc fun x => { x with fcrcErr := if x.fcrcErr = 0xFFFF then 0xFFFF else x.fcrcErr + 1 })
      (.chain (withStatus f 1))))

/-- The cascade's commands and timers (chapter 20). -/
def Obligations.CascadeComplete : Prop :=
  (∀ r s s1, s.turn 0x0900 r = some s1 → r.target = 0 → r.payload.length = 4 → s1.mayJoin (u8 r.payload 1) = true → 1 ≤ u8 r.payload 0 →
    u8 r.payload 0 ≤ 31 → u8 r.payload 0 ≠ s1.nmc.addr → 1 ≤ u8 r.payload 1 → u8 r.payload 1 ≤ 3 → zeros r.payload 2 2 = true →
    exec (.cascadeJoin r) s = .next (State.answered ((s1.beginForming r.mbx (Forming.new false (u8 r.payload 1) [] [] s1.now)).updCas fun c =>
      { c with master := u8 r.payload 0 }) 0x0900 r 0 [])) ∧
  (∀ r s s1 n, s.turn 0x0901 r = some s1 → r.target = 0 → n = u8 r.payload 1 → r.payload.length = 4 + 20 * n → s1.mayForm (u8 r.payload 0) = true →
    1 ≤ u8 r.payload 0 → u8 r.payload 0 ≤ 3 → 2 ≤ n → n ≤ 8 → (u8 r.payload 0 ≠ 3 ∨ n = 8) → zeros r.payload 2 2 = true →
    s1.formOk (u8 r.payload 0) n r.payload = true →
    exec (.cascadeForm r) s = .next (State.waiting ((s1.beginForming r.mbx (Forming.new false (u8 r.payload 0) (formAddrs r.payload n)
      (formReserves r.payload n) s1.now)).updCas fun c => { c with master := s1.nmc.addr }) 0x0901 r .formation [])) ∧
  (∀ r s s1, s.turn 0x0902 r = some s1 → r.target = 0 → r.payload = [] → (s1.role = .cascadeMaster ∨ s1.role = .cascadeMember) →
    s1.cascade.leaving = none →
    (s1.stripBlock r.mbx (((s1.cascade.ends.map fun e => e.2.trunk).eraseDups).flatMap s1.trunkLegs) = none →
      exec (.cascadeLeave r) s = .next (State.waiting s1 0x0902 r .room [])) ∧
    ∀ b, s1.stripBlock r.mbx (((s1.cascade.ends.map fun e => e.2.trunk).eraseDups).flatMap s1.trunkLegs) = some b →
      ∃ (t : State) (c : Nat), exec (.cascadeLeave r) s = .next (t.accepted 0x0902 r 0 []) ∧ b ≤ c ∧ t.cascade.leaving = some c ∧
        (s1.cascade.ends = [] → c = s1.firstBlock r.mbx) ∧
        ∃ e ∈ t.sched, e.at_ = .block c ∧ e.act = .applied ∧ e.org = r.origin 0) ∧
  (∀ r s s1 id, s.turn 0x0903 r = some s1 → r.target = 0 → r.payload.length = 16 → s1.role = .cascadeMaster → u8 r.payload 0 ≠ s1.nmc.addr →
    u8 r.payload 1 ≠ s1.nmc.addr → u8 r.payload 0 ≠ u8 r.payload 1 → s1.cascade.addrs.contains (u8 r.payload 0) = true →
    s1.cascade.addrs.contains (u8 r.payload 1) = true → 1 ≤ u8 r.payload 2 → u8 r.payload 2 ≤ 3 → u8 r.payload 3 ≤ 1 →
    (u8 r.payload 3 = 0 ∨ s1.cascade.topo ≠ 3) → u8 r.payload 4 ≤ 3 → zeros r.payload 5 3 = true → s1.freeTrunk 1 65535 = some id →
    (s.mb r.mbx).flight = none →
    ∃ t : State, exec (.trunkCreate r) s = .next t ∧ (t.mb r.mbx).flight = some { op := 0x0903, req := r, resp := le 4 id, wait := .formation } ∧
      ∃ x, tget? t.cascade.trunks id = some x ∧ x.a = u8 r.payload 0 ∧ x.b = u8 r.payload 1 ∧ x.dirs = u8 r.payload 2 ∧ x.commit = none ∧
        x.mbx = r.mbx) ∧
  (∀ r s s1 id, s.turn 0x0903 r = some s1 → r.target = 0 → r.payload.length = 16 → s1.role = .cascadeMaster → u8 r.payload 0 ≠ u8 r.payload 1 →
    (u8 r.payload 0 = s1.nmc.addr → ∃ k, s1.lives (u32 r.payload 8) k 1) → (u8 r.payload 1 = s1.nmc.addr → ∃ k, s1.lives (u32 r.payload 12) k 1) →
    s1.cascade.addrs.contains (u8 r.payload 0) = true → s1.cascade.addrs.contains (u8 r.payload 1) = true → 1 ≤ u8 r.payload 2 →
    u8 r.payload 2 ≤ 3 → u8 r.payload 3 ≤ 1 → (u8 r.payload 3 = 0 ∨ s1.cascade.topo ≠ 3) → u8 r.payload 4 ≤ 3 → zeros r.payload 5 3 = true →
    s1.freeTrunk 1 65535 = some id → (s.mb r.mbx).flight = none →
    ∃ x : TrunkRec, x.a = u8 r.payload 0 ∧ x.b = u8 r.payload 1 ∧ x.dirs = u8 r.payload 2 ∧ x.flags = u8 r.payload 3 ∧ x.commit = none ∧ x.mbx = r.mbx ∧
      x.charges = s1.cascade.trunkCharges x.a x.b x.dirs x.flags ∧
      exec (.trunkCreate r) s = .next (((State.waiting (s1.updCas fun c => { c with trunks := tset c.trunks id x }) 0x0903 r .formation (le 4 id)).askEnd
        id x.a true x.dirs x.flags (u8 r.payload 4) (u32 r.payload 8) x.b).askEnd id x.b false x.dirs x.flags (u8 r.payload 4) (u32 r.payload 12) x.a)) ∧
  (∀ r s s1 t0, s.turn 0x0904 r = some s1 → r.target = 0 → r.payload.length = 4 → s1.role = .cascadeMaster →
    tget? s1.cascade.trunks (u32 r.payload 0) = some t0 → t0.commit.isSome = true → t0.gone = none →
    (s1.stripBlock r.mbx (s1.trunkLegs (u32 r.payload 0)) = none → exec (.trunkDestroy r) s = .next (State.waiting s1 0x0904 r .room [])) ∧
    ∀ b, s1.stripBlock r.mbx (s1.trunkLegs (u32 r.payload 0)) = some b →
      ∃ t : State, exec (.trunkDestroy r) s = .next (t.accepted 0x0904 r 0 []) ∧
        tget? t.cascade.trunks (u32 r.payload 0) = some { t0 with gone := some b } ∧
        ∃ e ∈ t.sched, e.at_ = .block b ∧ e.act = .applied ∧ e.org = r.origin 0) ∧
  (∀ r s s1 a, s.turn 0x0905 r = some s1 → r.target = 0 → r.payload.length = 16 → s1.role = .cascadeMaster → zeros r.payload 13 3 = true →
    a = u8 r.payload 12 → a ≠ 0 → a < 32 → s1.cascade.addrs.contains a = true → u32 r.payload 4 ≤ (s1.roomAt a).1 → u32 r.payload 8 ≤ (s1.roomAt a).2 →
    (thas s1.cascade.dir (u32 r.payload 0) = true ∨ s1.cascade.dir.length < 32768) →
    exec (.sessionPlace r) s = .next (State.answered (s1.updCas fun c => { c with dir := tset c.dir (u32 r.payload 0) a }) 0x0905 r 0
      (le 1 a ++ le 3 0))) ∧
  (∀ r s s1 a, s.turn 0x0905 r = some s1 → r.target = 0 → r.payload.length = 16 → s1.role = .cascadeMaster → zeros r.payload 13 3 = true →
    u8 r.payload 12 < 32 → (u8 r.payload 12 = 0 ∨ s1.cascade.addrs.contains (u8 r.payload 12) = false ∨
      (s1.roomAt (u8 r.payload 12)).1 < u32 r.payload 4 ∨ (s1.roomAt (u8 r.payload 12)).2 < u32 r.payload 8) →
    a < 32 → s1.cascade.addrs.contains a = true → u32 r.payload 4 ≤ (s1.roomAt a).1 → u32 r.payload 8 ≤ (s1.roomAt a).2 →
    (∀ x, x < a → s1.cascade.addrs.contains x = false ∨ (s1.roomAt x).1 < u32 r.payload 4 ∨ (s1.roomAt x).2 < u32 r.payload 8) →
    (thas s1.cascade.dir (u32 r.payload 0) = true ∨ s1.cascade.dir.length < 32768) →
    exec (.sessionPlace r) s = .next (State.answered (s1.updCas fun c => { c with dir := tset c.dir (u32 r.payload 0) a }) 0x0905 r 0
      (le 1 a ++ le 3 0))) ∧
  (∀ r s s1, s.turn 0x0906 r = some s1 → r.target = 0 → r.payload.length = 4 → s1.role = .cascadeMaster → thas s1.cascade.dir (u32 r.payload 0) = true →
    exec (.sessionUnplace r) s = .next (State.answered (s1.updCas fun c => { c with dir := tdel c.dir (u32 r.payload 0) }) 0x0906 r 0 [])) ∧
  (∀ r s s1, s.turn 0x0907 r = some s1 → r.target = 0 → r.payload = [] →
    ∃ p : Bytes, exec (.cascadeStatusGet r) s = .next (s1.answered 0x0907 r 0 p) ∧ p.length = 48) ∧
  (∀ r s s1, s.turn 0x0908 r = some s1 → r.target = 0 → r.payload.length = 16 → s1.role = .cascadeMaster → u32 r.payload 8 = 262144 →
    zeros r.payload 12 4 = true → s1.cascade.dir ≠ [] →
    exec (.directoryGet r) s = .next (State.waiting (s1.emit (.hostWrite (u64 r.payload 0) (dirBytes s1.cascade.dir))) 0x0908 r .write
      (le 4 s1.cascade.dir.length))) ∧
  (∀ r s s1, s.turn 0x0908 r = some s1 → r.target = 0 → r.payload.length = 16 → s1.role = .cascadeMaster → u32 r.payload 8 = 262144 →
    zeros r.payload 12 4 = true → s1.cascade.dir = [] → exec (.directoryGet r) s = .next (s1.answered 0x0908 r 0 (le 4 0))) ∧
  (∀ (s : State) f, s.cascade.forming = some f → s.cascade.master = s.nmc.addr → f.since + 200000000 ≤ s.now →
    exec .formationTimeout s = .next (s.failForming .timeout [])) ∧
  (∀ (s : State) f, s.cascade.forming = some f → s.now < f.since + 200000000 → exec .formationTimeout s = .next s) ∧
  (∀ (s : State) a since, s.cascade.forming = none → s.trio.rejoin = some (a, since) → since + 200000000 ≤ s.now →
    exec .formationTimeout s = .next (State.answer (s.updTrio fun x => { x with rejoin := none }) s.cascade.mbx fun _ _ => .fail .timeout [])) ∧
  (∀ link (s : State), link < 4 → (s.blp link).st = 0 → exec (.linkLock link) s = .next (s.updBlp link fun x => { x with st := 1, silent := 0 })) ∧
  (∀ link (s : State), link < 4 → (s.blp link).st ≠ 0 → exec (.linkLock link) s = .next s) ∧
  (∀ link (s : State), link < 4 → (s.blp link).st = 2 → s.cascade.trunks = [] →
    ∃ t : State, exec (.linkSilenceTimeout link) s = .next t ∧ t.objs = s.objs ∧ (t.blp link).st = 0 ∧ ∀ l, l ≠ link → t.blp l = s.blp l) ∧
  (∀ link (s : State), link < 4 → ((s.blp link).st = 2 →
      ∃ t : State, exec (.linkSilenceTimeout link) s = .next t ∧ (t.blp link).st = 0 ∧ (t.blp link).heard = false ∧ ∀ l, l ≠ link → t.blp l = s.blp l) ∧
    ((s.blp link).st ≠ 2 → exec (.linkSilenceTimeout link) s = .next s)) ∧
  (∀ peer (s : State), s.cascade.id ≠ 0 → s.trio.id = 0 → s.cascade.addrs.contains peer = true → tget s.cascade.id s.cascade.heardFrom peer + 3 ≤ s.block →
    s.cascade.lost.contains peer = false → s.cascade.master = s.nmc.addr →
    exec (.masterLost peer) s = .next (s.updCas fun c => { c with lost := peer :: c.lost })) ∧
  (∀ peer (s : State), s.cascade.id ≠ 0 → s.trio.id = 0 → s.cascade.addrs.contains peer = true → tget s.cascade.id s.cascade.heardFrom peer + 3 ≤ s.block →
    s.cascade.lost.contains peer = false → peer = s.cascade.master → s.cascade.master ≠ s.nmc.addr → s.cascade.st = 2 →
    ∃ t : State, exec (.masterLost peer) s = .next t ∧ t.objs = s.objs ∧ t.cascade = { s.cascade with st := 3, lost := peer :: s.cascade.lost }) ∧
  (∀ s : State, s.cascade.st ≠ 3 → exec .spanningCommandRollback s = .next s) ∧
  (∀ (s : State) i e b, s.cascade.st = 3 → s.cascade.ends = [(i, e)] → e.prepared = some b → b + 3 ≤ s.block →
    ∃ t : State, exec .spanningCommandRollback s = .next t ∧ t.cascade.ends = [] ∧ t.gen (okey 2 i) = s.gen (okey 2 i) ∧
      ((s.leg (okey 2 i)).isSome = true → thas t.objs (okey 2 i) = false ∧ t.leg (okey 2 i) = none)) ∧
  (∀ s : State, s.cascade.st = 3 →
    ∃ t : State, exec .spanningCommandRollback s = .next t ∧ t.cascade.ends = s.cascade.ends.filter fun e => !s.cascade.ends.any fun d =>
      d.2.trunk == e.2.trunk && (match d.2.prepared with | some b => decide (b + 3 ≤ s.block) | none => false)) ∧
  (∀ trunk (s : State) i e, s.block * 2000000 + 1750000 ≤ s.now → s.cascade.ends = [(i, e)] → e.trunk = trunk → e.recv.isSome = true →
    e.arrived = false → s.flows (okey 2 i) = true →
    ∃ t : State, exec (.trunkArrivalDeadline trunk) s = .next t ∧ t.objs = s.objs ∧ t.cascade.gaps = s.cascade.gaps + 1 ∧
      ∃ x, tget? t.cascade.ends i = some x ∧ x.gap = true ∧ x.arrived = true) ∧
  (∀ trunk (s : State), s.block * 2000000 + 1750000 ≤ s.now →
    ∃ t : State, exec (.trunkArrivalDeadline trunk) s = .next t ∧ t.objs = s.objs ∧ t.cascade.gaps = s.cascade.gaps + (s.cascade.ends.filter fun e =>
      e.2.trunk == trunk && e.2.recv.isSome && !e.2.arrived && s.flows (okey 2 e.1)).length) ∧
  (∀ trunk (s : State), s.now < s.block * 2000000 + 1750000 → exec (.trunkArrivalDeadline trunk) s = .next s)

/-- The trio's commands, its vote and its lease (chapter 21). -/
def Obligations.TrioComplete : Prop :=
  (∀ r s s1, s.turn 0x0A00 r = some s1 → r.target = 0 → r.payload.length = 4 → s1.trio.id = 0 → s1.mayForm (u8 r.payload 1) = true →
    1 ≤ u8 r.payload 0 → u8 r.payload 0 ≤ 31 → u8 r.payload 0 ≠ s1.nmc.addr → (u8 r.payload 1 = 1 ∨ u8 r.payload 1 = 2) → zeros r.payload 2 2 = true →
    exec (.trioJoin r) s = .next (State.answered ((s1.beginForming r.mbx (Forming.new true (u8 r.payload 1) [] [] s1.now)).updCas fun c =>
      { c with master := u8 r.payload 0 }) 0x0A00 r 0 [])) ∧
  (∀ r s s1, s.turn 0x0A01 r = some s1 → r.target = 0 → r.payload.length = 68 → s1.trio.id = 0 → s1.mayForm (u8 r.payload 0) = true →
    (u8 r.payload 0 = 1 ∨ u8 r.payload 0 = 2) → zeros r.payload 1 3 = true → s1.formOk (u8 r.payload 0) 3 r.payload = true →
    zeros r.payload 64 4 = true →
    exec (.trioForm r) s = .next (State.waiting ((s1.beginForming r.mbx (Forming.new true (u8 r.payload 0) (formAddrs r.payload 3)
      (formReserves r.payload 3) s1.now)).updCas fun c => { c with master := s1.nmc.addr }) 0x0A01 r .formation [])) ∧
  (∀ r s s1 key, s.turn 0x0A02 r = some s1 → r.payload = [] → s1.lives r.tgt key 0x0B → s1.trio.leader ≠ s1.nmc.addr → s1.trio.leaving = none →
    ∃ t : State, exec (.trioLeave r) s = .next (t.accepted 0x0A02 r r.tgt []) ∧ t.trio.leaving = some (s1.firstBlock r.mbx) ∧
      t.objs = (s1.dying (okey 0x0B 0)).objs ∧ t.gen (okey 0x0B 0) = nextGen (s1.gen (okey 0x0B 0)) ∧
      ∃ e ∈ t.sched, e.at_ = .block (s1.firstBlock r.mbx) ∧ e.act = .applied ∧ e.org = r.origin r.tgt) ∧
  (∀ r s s1 key, s.turn 0x0A03 r = some s1 → r.target = 0 → r.payload.length = 8 → u32 r.payload 0 ≠ 0 →
    s1.checkHandle (u32 r.payload 0) [2, 3, 4, 5] = .ok key → s1.mayBeCritical key = true → u16 r.payload 4 < (if ktype key = 2 then 1024 else 64) →
    s1.following = false → u8 r.payload 6 = 1 → zeros r.payload 7 1 = true → s1.breaksCritical key = false → s1.critical key = false →
    tget? s1.trio.entries (if ktype key = 2 then u16 r.payload 4 else 1024 + u16 r.payload 4) = none →
    exec (.trioCriticalSet r) s = .next (State.answered (s1.updTrio fun t => { t with
        entries := tset t.entries (if ktype key = 2 then u16 r.payload 4 else 1024 + u16 r.payload 4)
          { key := key, active := false, configs := [] } }) 0x0A03 r 0 [])) ∧
  (∀ r s s1 key e, s.turn 0x0A03 r = some s1 → r.target = 0 → r.payload.length = 8 → u32 r.payload 0 ≠ 0 →
    s1.checkHandle (u32 r.payload 0) [2, 3, 4, 5] = .ok key → s1.mayBeCritical key = true → u16 r.payload 4 < (if ktype key = 2 then 1024 else 64) →
    s1.following = false → u8 r.payload 6 = 2 → zeros r.payload 7 1 = true →
    tget? s1.trio.entries (if ktype key = 2 then u16 r.payload 4 else 1024 + u16 r.payload 4) = some e → e.key = key →
    s1.clearBreaks (if ktype key = 2 then u16 r.payload 4 else 1024 + u16 r.payload 4) = false →
    exec (.trioCriticalSet r) s = .next (State.answered (s1.updTrio fun t => { t with
        entries := tdel t.entries (if ktype key = 2 then u16 r.payload 4 else 1024 + u16 r.payload 4) }) 0x0A03 r 0 [])) ∧
  (∀ r s s1, s.turn 0x0A04 r = some s1 → r.target = 0 → r.payload.length = 4 → s1.trio.id ≠ 0 → s1.trio.addrs.contains (u8 r.payload 0) = true →
    u8 r.payload 0 ≠ s1.nmc.addr → s1.following = false → s1.trio.turn = none → s1.trio.present.contains (u8 r.payload 0) = true →
    zeros r.payload 1 3 = true →
    ∃ t : State, exec (.trioHandover r) s = .next (t.answered 0x0A04 r 0 (le 8 (s1.block + 2))) ∧ t.objs = s1.objs ∧
      t.trio = { s1.trio with turn := some (s1.block + 2, u8 r.payload 0, 4) }) ∧
  (∀ r s s1, s.turn 0x0A05 r = some s1 → r.target = 0 → r.payload.length = 4 → s1.following = false → (u16 r.payload 0 = 0 ∨ 50 ≤ u16 r.payload 0) →
    zeros r.payload 2 2 = true →
    ∃ t : State, exec (.trioRevertSet r) s = .next (t.answered 0x0A05 r 0 []) ∧ t.objs = s1.objs ∧
      t.trio = { s1.trio with revert := u16 r.payload 0 }) ∧
  (∀ r s s1, s.turn 0x0A06 r = some s1 → r.target = 0 → r.payload.length = 4 → s1.trio.id ≠ 0 → s1.trio.addrs.contains (u8 r.payload 0) = true →
    s1.following = false → s1.trio.present.contains (u8 r.payload 0) = false → s1.trio.rejoin = none → s1.cascade.forming = none →
    zeros r.payload 1 3 = true →
    exec (.trioRejoin r) s = .next (State.waiting ((s1.updTrio fun t => { t with rejoin := some (u8 r.payload 0, s1.now) }).updCas fun c =>
      { c with mbx := r.mbx }) 0x0A06 r .formation [])) ∧
  (∀ r s s1, s.turn 0x0A07 r = some s1 → r.target = 0 → r.payload = [] →
    ∃ p : Bytes, exec (.trioStatusGet r) s = .next (s1.answered 0x0A07 r 0 p) ∧ p.length = 48 ∧ p.take 8 = le 8 s1.trio.id) ∧
  (∀ s : State, (s.trio.id = 0 ∨ s.trio.stopped = true) → exec .vote s = .next s) ∧
  (∀ s : State, s.trio.id ≠ 0 → s.trio.stopped = false → exec .vote s = .next s.vote) ∧
  (∀ s : State, s.trio.id ≠ 0 → s.trio.stopped = false → s.trio.entries = [] → s.trio.leader = s.nmc.addr → s.trio.turn = none → s.trio.revert = 0 →
    exec .vote s = .next { s with trio := { s.trio with clean := s.trio.clean + 1 } }) ∧
  (∀ s : State, s.trio.id ≠ 0 → s.trio.leader = s.nmc.addr → s.trio.stopped = false →
    (match s.trio.lease with | some b => b < s.block | none => True) → exec .leaseExpiry s = .next s.trioOut) ∧
  (∀ (s : State), (s.trio.id = 0 ∨ s.trio.leader ≠ s.nmc.addr ∨ s.trio.stopped = true) → exec .leaseExpiry s = .next s) ∧
  (∀ (s : State) b, s.trio.lease = some b → s.block ≤ b → exec .leaseExpiry s = .next s)

/-- BLP frames (chapters 20 and 21). That a frame passes Onyx in the step of its arrival while a core is free, and else waits in its link
queue, is the model's choice (log entry 103). -/
def Obligations.BlpFramesComplete : Prop :=
  (∀ link (data p : Bytes) (s s1 : State) src b, link < 4 →
    (s.blpHeard link 1 data = some (s1, src, b, p) → exec (.hello link data) s = .next (State.takeHello link s1 src b p)) ∧
    (s.blpHeard link 2 data = some (s1, src, b, p) → exec (.heartbeat link data) s = .next (State.takeHeartbeat link s1 src b p)) ∧
    (s.blpHeard link 4 data = some (s1, src, b, p) → exec (.control link data) s = .next (State.takeControl link s1 src b p)) ∧
    (s.blpHeard link 5 data = some (s1, src, b, p) → exec (.trunk link data) s = .next (State.takeTrunk link s1 src b p)) ∧
    (s.blpHeard link 8 data = some (s1, src, b, p) → exec (.mirror link data) s = .next (State.takeMirror link s1 src b p)) ∧
    (s.blpHeard link 9 data = some (s1, src, b, p) → exec (.delta link data) s = .next (State.takeDeltaFrame link s1 src b p)) ∧
    (s.blpHeard link 10 data = some (s1, src, b, p) → exec (.digest link data) s = .next (State.takeDigest s1 src b p)) ∧
    (s.blpHeard link 11 data = some (s1, src, b, p) → exec (.endorse link data) s = .next (State.takeEndorse s1 src b p)) ∧
    (s.blpHeard link 12 data = some (s1, src, b, p) → exec (.snapshot link data) s = .next (State.takeSnapshot s1 src b p))) ∧
  (∀ link time (data p : Bytes) (s s1 : State) src b, link < 4 → (s.at time).blpHeard link 3 data = some (s1, src, b, p) →
    exec (.time link time data) s = .next (State.takeTime link time s1 src b p)) ∧
  (∀ link (data : Bytes) (s : State), link < 4 →
    (s.blpWaits link 1 data = true → exec (.hello link data) s = .next (s.queueLink link false (u8 data 2 % 8) (.linkIn link 1 s.now) data)) ∧
    (s.blpWaits link 2 data = true → exec (.heartbeat link data) s = .next (s.queueLink link false (u8 data 2 % 8) (.linkIn link 2 s.now) data)) ∧
    (s.blpWaits link 4 data = true → exec (.control link data) s = .next (s.queueLink link false (u8 data 2 % 8) (.linkIn link 4 s.now) data)) ∧
    (s.blpWaits link 5 data = true → exec (.trunk link data) s = .next (s.queueLink link false (u8 data 2 % 8) (.linkIn link 5 s.now) data)) ∧
    (s.blpWaits link 8 data = true → exec (.mirror link data) s = .next (s.queueLink link false (u8 data 2 % 8) (.linkIn link 8 s.now) data)) ∧
    (s.blpWaits link 9 data = true → exec (.delta link data) s = .next (s.queueLink link false (u8 data 2 % 8) (.linkIn link 9 s.now) data)) ∧
    (s.blpWaits link 10 data = true → exec (.digest link data) s = .next (s.queueLink link false (u8 data 2 % 8) (.linkIn link 10 s.now) data)) ∧
    (s.blpWaits link 11 data = true → exec (.endorse link data) s = .next (s.queueLink link false (u8 data 2 % 8) (.linkIn link 11 s.now) data)) ∧
    (s.blpWaits link 12 data = true → exec (.snapshot link data) s = .next (s.queueLink link false (u8 data 2 % 8) (.linkIn link 12 s.now) data))) ∧
  (∀ link time (data : Bytes) (s : State), link < 4 → (s.at time).blpWaits link 3 data = true →
    exec (.time link time data) s = .next ((s.at time).queueLink link false (u8 data 2 % 8) (.linkIn link 3 (s.at time).now) data)) ∧
  (∀ link (data p : Bytes) (s s1 : State) src b, link < 4 → s.blpHeard link 1 data = some (s1, src, b, p) → s1.cascade.book ≠ [] →
    s1.helloOk (bfld p 4 8) = true → u8 p 0 = s1.expected link → u8 p 0 = src →
    u8 p 1 = (peerOf s1.cascade.shape s1.cascade.book.length s1.myPos link).1 →
    u8 p 2 = (peerOf s1.cascade.shape s1.cascade.book.length s1.myPos link).2 → (s1.blp link).st = 1 →
    exec (.hello link data) s = .next (((s1.updBlp link fun x => { x with st := 2 }).linkState link true src).formCheck)) ∧
  (∀ link (data p : Bytes) (s s1 : State) src b, link < 4 → s.blpHeard link 1 data = some (s1, src, b, p) → s1.cascade.book ≠ [] →
    s1.helloOk (bfld p 4 8) = false → exec (.hello link data) s = .next (s1.blpDiscard link)) ∧
  (∀ link (data p : Bytes) (s s1 : State) src b, link < 4 → s.blpHeard link 2 data = some (s1, src, b, p) → bfld p 1 8 = s1.cascade.id →
    s1.cascade.id ≠ 0 → s1.cascade.st = 2 → s1.cascade.beat = s1.block →
    exec (.heartbeat link data) s = .next (s1.updCas fun c => { c with
      heardFrom := tset c.heardFrom (u8 p 0) s1.block, lost := c.lost.filter (· != u8 p 0) })) ∧
  (∀ link (data p : Bytes) (s s1 : State) src b, link < 4 → s.blpHeard link 2 data = some (s1, src, b, p) →
    (bfld p 1 8 ≠ s1.cascade.id ∨ s1.cascade.id = 0) → exec (.heartbeat link data) s = .next (s1.blpDiscard link)) ∧
  (∀ link time (data p : Bytes) (s s1 : State) src b, link < 4 → (s.at time).blpHeard link 3 data = some (s1, src, b, p) → u8 p 2 = 1 →
    ∃ t : State, exec (.time link time data) s = .next t ∧ s1.fresh < t.fresh ∧ t.objs = s1.objs ∧ t.quartz = s1.quartz) ∧
  (∀ link time (data p : Bytes) (s s1 : State) src b, link < 4 → (s.at time).blpHeard link 3 data = some (s1, src, b, p) → u8 p 2 = 2 →
    s1.role = .cascadeMember → s1.cascade.waiting = true → bfld p 0 2 = s1.cascade.seq →
    ∃ t : State, exec (.time link time data) s = .next t ∧ t.objs = s1.objs ∧ t.quartz.relay = true ∧ t.cascade.waiting = false ∧ t.cascade.missed = 0) ∧
  (∀ link (data p : Bytes) (s s1 : State) src b, link < 4 → s.blpHeard link 4 data = some (s1, src, b, p) →
    (match Config.readControl p with
     | none => exec (.control link data) s = .next (s1.blpDiscard link)
     | some (.room q k) => exec (.control link data) s = .next (s1.updCas fun c => { c with rooms := tset c.rooms src (q, k) })
     | some .trioLeft => exec (.control link data) s = .next (s1.updTrio fun t => { t with present := t.present.filter (· != src) })
     | _ => ∃ t : State, exec (.control link data) s = .next t)) ∧
  (∀ link (data p : Bytes) (s s1 : State) src b i e, link < 4 → s.blpHeard link 5 data = some (s1, src, b, p) → p.length = 292 →
    (s1.cascade.ends.find? fun e => e.2.recv == some (bfld p 0 2)) = some (i, e) → e.arrived = false → b + 1 = s1.block →
    s1.now ≤ s1.block * 2000000 + 1750000 → s1.flows (okey 2 i) = true →
    ∃ t : State, exec (.trunk link data) s = .next t ∧ t.now = s1.now ∧ tget? t.cascade.trunkIn i = some (trunkSamples (p.drop 4))) ∧
  (∀ link (data p : Bytes) (s s1 : State) src b e, link < 4 → s.blpHeard link 8 data = some (s1, src, b, p) →
    tget? s1.trio.entries (bfld p 0 2) = some e → s1.following = true → src = s1.trio.leader → u8 p 2 = 1 → ktype e.key = 2 →
    s1.block ≤ bfld p 4 8 →
    exec (.mirror link data) s = .next (s1.legAccept e.key s1.now (some (96 * bfld p 4 8 + bfld p 12 4)) (p.drop 20))) ∧
  (∀ link (data p : Bytes) (s s1 : State) src b, link < 4 → s.blpHeard link 8 data = some (s1, src, b, p) →
    tget? s1.trio.entries (bfld p 0 2) = none → exec (.mirror link data) s = .next s1) ∧
  (∀ link (data p : Bytes) (s s1 : State) src b e, link < 4 → s.blpHeard link 9 data = some (s1, src, b, p) →
    tget? s1.trio.entries (bfld p 8 2) = some e → bfld p 10 2 = 0 →
    exec (.delta link data) s = .next (s1.noteConfig (bfld p 8 2) src (BitVec.ofNat 64 (bfld p 12 8)))) ∧
  (∀ link (data p : Bytes) (s s1 : State) src b e, link < 4 → s.blpHeard link 9 data = some (s1, src, b, p) →
    tget? s1.trio.entries (bfld p 8 2) = some e → bfld p 10 2 ≠ 0 → s1.following = true → src = s1.trio.leader →
    exec (.delta link data) s = .next (s1.takeDelta e.key (bfld p 10 2) (bfld p 0 8) (p.drop 12))) ∧
  (∀ link (data p : Bytes) (s s1 : State) src b, link < 4 → s.blpHeard link 10 data = some (s1, src, b, p) → s1.trio.id ≠ 0 →
    s1.trio.present.contains src = true →
    ∃ t : State, exec (.digest link data) s = .next t ∧ t.objs = s1.objs ∧ t.mbx = s1.mbx ∧ tget? t.trio.came src = some (bfld p 0 8) ∧
      (0 < bfld p 8 2 → bfld p 18 2 % 2 = 0 → (bfld p 0 8, src, bfld p 16 2, BitVec.ofNat 64 (bfld p 24 8)) ∈ t.trio.digests)) ∧
  (∀ link (data p : Bytes) (s s1 : State) src b, link < 4 → s.blpHeard link 11 data = some (s1, src, b, p) → s1.trio.id ≠ 0 →
    s1.trio.stopped = false → s1.trio.present.contains src = true → bfld p 8 8 = s1.block → bfld p 0 1 = s1.trio.leader →
    bfld p 0 1 ≠ s1.nmc.addr →
    exec (.endorse link data) s = .next (s1.updTrio fun t => { t with endorsed := s1.block })) ∧
  (∀ link (data p : Bytes) (s s1 : State) src b, link < 4 → s.blpHeard link 11 data = some (s1, src, b, p) → s1.trio.id ≠ 0 →
    s1.trio.stopped = false → s1.trio.present.contains src = true → bfld p 8 8 = s1.block → bfld p 0 1 = s1.nmc.addr →
    s1.trio.leader = s1.nmc.addr →
    ∃ t : State, exec (.endorse link data) s = .next t ∧ t.trio.lease = some (s1.block + 2) ∧ t.trio.endorsed = s1.block ∧ t.objs = s1.objs) ∧
  (∀ link (data p : Bytes) (s s1 : State) src b e, link < 4 → s.blpHeard link 12 data = some (s1, src, b, p) →
    tget? s1.trio.entries (bfld p 0 2) = some e → s1.trio.mute = true → src = s1.trio.leader → s1.trio.sync = some (bfld p 8 8) →
    (match Config.readChain (p.drop 16) with
     | some (dec, enc, voice, nums) => exec (.snapshot link data) s = .next (s1.updLeg e.key fun l => { l with
        decSt := dec, encSt := enc, voiceSt := voice, txSeq := nums.getD 0 l.txSeq, txTs := nums.getD 1 l.txTs,
        tsBlock := nums.getD 2 l.tsBlock, lastTs := nums.getD 3 l.lastTs, agc := nums.getD 4 l.agc })
     | none => exec (.snapshot link data) s = .next s1)) ∧
  (∀ link (data : Bytes) (s : State), link < 4 → bfld data 0 2 ≠ 0xB17A → u8 data 3 = 1 → s.unitDown 0x0C link = false →
    exec (.hello link data) s = .next (s.blpDiscard link)) ∧
  (∀ link (data : Bytes) (s : State), link < 4 → u8 data 3 ∉ frameTypes → s.unitDown 0x0C link = false →
    exec (.hello link data) s = .next (s.blpDiscard link)) ∧
  (∀ link (data : Bytes) (s : State), link < 4 → (u8 data 3 ≠ 1 ∧ u8 data 3 ∈ frameTypes ∨ s.unitDown 0x0C link = true) →
    exec (.hello link data) s = .next s)

/-- Triggers of blocks and the ends of DMA (R52, R142, R587, R797, R798). -/
def Obligations.BlocksAndDmaComplete : Prop :=
  (∀ (s : State), s.mode = .reset ∨ s.mode = .halt → exec .blockStart s = .next s) ∧
  (∀ (s : State), s.mode ≠ .reset → s.mode ≠ .halt → s.quartz.due = true →
    exec .blockStart s = .next (State.blockWork { s.mixEnd with
      now := s.block * 2000000, nowFrac := 0, quartz := { s.mixEnd.quartz with due := false } } s.block)) ∧
  (∀ (s : State), s.mode ≠ .reset → s.mode ≠ .halt → s.quartz.due = false →
    exec .blockStart s = .next (State.blockWork { s.mixEnd with now := (s.block + 1) * 2000000, nowFrac := 0 } (s.block + 1))) ∧
  (∀ (n : Nat) (m : Mode), m = .ready ∨ m = .standalone → ∃ t : State,
    exec .blockStart { State.reset with now := n, sys := { State.reset.sys with mode := m } } = .next t ∧
    t.now = (n / 2000000 + 1) * 2000000 ∧ t.mode = m ∧ t.out = [] ∧ t.objs = [] ∧ t.matrix.mixing = true ∧
    ∀ f, f < 5 → (t.mb f).heartbeat = 1) ∧
  (∀ (s : State), s.matrix.mixing = false ∨ s.matrix.down = true → exec .mixEnd s = .next s) ∧
  (∀ (s : State), s.matrix.mixing = true → s.matrix.down = false → ∃ t : State, exec .mixEnd s = .next t ∧ t.matrix.mixing = false ∧
    t.matrix.outMix = (s.audio.legs.map fun e => (e.2.m, (mixOutput s.matrix.plane
      (s.matrix.inRead.filter fun x => !s.matrix.poisonRead.contains x.1) e.2.m).map sat24)).foldl
      (fun o e => tset o e.1 e.2) [] ∧
    t.objs = s.objs) ∧
  (∀ (s : State) (f : Nat) (x : Flight) (l : List (Nat × DmaFail)), f < 5 → (s.mb f).flight = some x → x.wait = .read →
    exec (.dmaReadDone f (.failed l)) s =
      .next (((s.updMb f fun m => { m with flight := none }).failed x.op x.req (dmaStatus l) []).settleTaken f)) ∧
  (∀ (s : State) (f : Nat) (x : Flight) (b : Bytes) (own : State → Eff), f < 5 → (s.mb f).flight = some x → x.wait = .read →
    x.op ≠ 0x0301 → dmaOwn x ((padTo (dmaLen x) b).take (dmaLen x)) = some ([], own) →
    exec (.dmaReadDone f (.data b)) s =
      .next (((s.updMb f fun m => { m with flight := none }).finish x.op x.req (own (s.updMb f fun m => { m with flight := none }))).settleTaken f)) ∧
  (∀ (s : State) (f : Nat) (x : Flight) (b : Bytes), f < 5 → (s.mb f).flight = some x → x.wait = .read →
    x.op = 0x0301 → s.critOf (bulkNames ((padTo (dmaLen x) b).take (dmaLen x)) (u32 x.req.payload 0)) = none →
    exec (.dmaReadDone f (.data b)) s =
      .next (((s.updMb f fun m => { m with flight := none }).finish 0x0301 { x.req with payload := x.req.payload ++ (padTo (dmaLen x) b).take (dmaLen x) }
        (effNodeSetBulkData x.req ((padTo (dmaLen x) b).take (dmaLen x)) (s.updMb f fun m => { m with flight := none }))).settleTaken f)) ∧
  (∀ (s : State) (f : Nat) (x : Flight) (b : Bytes), f < 5 → (s.mb f).flight = some x → x.wait = .write →
    exec (.dmaWriteReadbackDone f (.data b)) s =
      .next (((s.updMb f fun m => { m with flight := none }).answered x.op x.req x.req.tgt
        ((s.updMb f fun m => { m with flight := none }).writeResp x)).settleTaken f)) ∧
  (∀ (s : State) (f : Nat) (x : Flight) (l : List (Nat × DmaFail)), f < 5 → (s.mb f).flight = some x → x.wait = .write →
    exec (.dmaWriteReadbackDone f (.failed l)) s =
      .next (((s.updMb f fun m => { m with flight := none }).failed x.op x.req (dmaStatus l) []).settleTaken f)) ∧
  (∀ (l r : List (Nat × DmaFail)) (a : Nat) (e : DmaFail), (∀ d ∈ l, a < d.1) → (∀ d ∈ r, a < d.1) →
    dmaStatus (l ++ (a, e) :: r) = (match e with | .refused => .denied | _ => .timeout))

/-- Rings begin at zero, and count their slots (R29, R30). -/
def Obligations.RingsBeginAndCount : Prop :=
  (∀ (s : State) (f : Nat), f < 4 → s.sys.mode.isOpen = true →
    ((s.mb f).cmd.en = false → exec (.cmdRingEnable f) s = .next (s.updMb f fun m => { m with
      rung := [], cmd := { m.cmd with en := true, head := 0, tail := 0, seq := 0, err := false } })) ∧
    ((s.mb f).rsp.en = false → exec (.rspRingEnable f) s = .next (State.takeMore (s.updMb f fun m => { m with
      rsp := { m.rsp with en := true, head := 0, tail := 0, seq := 0, err := false } }) f)) ∧
    ((s.mb f).evt.en = false → exec (.evtRingEnable f) s = .next (State.pump (s.updMb f fun m => { m with
      evt := { m.evt with en := true, head := 0, tail := 0, seq := 0, err := false }, readyDue := m.readyRaised }) f))) ∧
  (∀ r : Ring, r.head < r.size → r.tail < r.size →
    (r.filled = 0 ↔ r.head = r.tail) ∧ (r.free = 0 ↔ (r.tail + 1) % r.size = r.head) ∧ r.filled ≤ r.size - 1 ∧
    (0 < r.free → r.push.filled = r.filled + 1 ∧ r.push.tail < r.push.size))

/-- The expected sequence (R41), and the payload of SEQ_GAP (R42). -/
def Obligations.SequenceAdvancesPastStepFour : Prop :=
  (∀ (s : State) (f : Nat) (b : Bytes),
    ((s.takeSlot f b).mb f).cmd.seq =
      (if u8 b 3 = 3 ∧ u16 b 12 ≤ 224 ∧ slotCrcOk (ringNo f 0) b = true ∧ u32 b 4 = (s.mb f).cmd.seq.toNat then (s.mb f).cmd.seq + 1
       else (s.mb f).cmd.seq)) ∧
  (∀ (s : State) (f : Nat) (b : Bytes), u8 b 3 = 3 → u16 b 12 ≤ 224 → slotCrcOk (ringNo f 0) b = true →
    u32 b 4 ≠ (s.mb f).cmd.seq.toNat →
    ((s.takeSlot f b).mb f).taken = (s.mb f).taken ++ [.bad (u16 b 0) (slotReq f b) .seqGap (le 4 (s.mb f).cmd.seq.toNat)] ∧
    ((s.mb f).flight = none → (s.mb f).taken = [] → ∃ t : State, s.sameBut t ∧ (t.mb f).rsp = (s.mb f).rsp ∧
      (s.takeSlot f b).settleTaken f = t.respond f (u16 b 0) (slotReq f b) .seqGap (slotReq f b).tgt (le 4 (s.mb f).cmd.seq.toNat)))

/-- Shapers (R457). -/
def Obligations.ShapersAdmitAndPay : Prop :=
  (∀ (x : Shaper) (L : Nat), x.admits L = true ↔
    x.rate = 0xFFFFFFFF ∨ (x.rate ≠ 0 ∧ (((min L x.burst : Nat) : Int) * 65536 ≤ x.tokens))) ∧
  (∀ (s s2 : State) (port c q q2 k : Nat) (r : Rec), State.lookAt port c (s, none) q = (s2, some (k, q2, r)) →
    q2 = q ∧ (s2.egShaper q).admits (s2.headLen port q r) = true ∧
    (s2.classShaper (classNo port c)).admits (s2.headLen port q r) = true ∧ (s2.classShaper (portNo port)).admits (s2.headLen port q r) = true) ∧
  (∀ (s s2 : State) (port t c q : Nat) (r : Rec), s.portOk port = true → ((s.at t).port port).up = true → ((s.at t).port port).en = true →
    s.sys.mode.isOpen = true → (s.at t).unitDown 9 0 = false → State.choose port [7, 6, 5, 4, 3, 2, 1, 0] (s.at t) = (s2, some (c, q, r)) →
    exec (.egressSelect port t) s = .next (match (s2.debitAll port c q (s2.headLen port q r)).readQueue q with
      | (u, some x) => u.depart port q x
      | (u, none) => u)) ∧
  (∀ (s : State) (port c q L : Nat), c < 8 → port < 32 → 0x4000 ≤ q → q < 0xC000 →
    ((s.debitAll port c q L).egShaper q).tokens =
      (if (s.egShaper q).rate = 0xFFFFFFFF then (s.egShaper q).tokens else (s.egShaper q).tokens - (L : Int) * 65536) ∧
    ((s.debitAll port c q L).classShaper (classNo port c)).tokens =
      (if (s.classShaper (classNo port c)).rate = 0xFFFFFFFF then (s.classShaper (classNo port c)).tokens
       else (s.classShaper (classNo port c)).tokens - (L : Int) * 65536) ∧
    ((s.debitAll port c q L).classShaper (portNo port)).tokens =
      (if (s.classShaper (portNo port)).rate = 0xFFFFFFFF then (s.classShaper (portNo port)).tokens
       else (s.classShaper (portNo port)).tokens - (L : Int) * 65536) ∧
    ∀ n, n ≠ classNo port c → n ≠ portNo port → (s.debitAll port c q L).classShaper n = s.classShaper n)

/-- The DBG region (R768). -/
def Obligations.DebugRegionIsClosed : Prop :=
  (∀ (s : State) (fn off : Nat) (data : List (Option Byte)), fn < 4 → 0x100000 ≤ off → off < 0x200000 → s.sys.unlocked = false →
    exec (.registerWrite fn off data) s = .next s ∧ exec (.rcRegisterRead fn off) s = .next (s.emit (.read [0, 0, 0, 0]))) ∧
  (∀ (s : State) (fn off : Nat) (data : List (Option Byte)), fn < 4 → 0x100000 ≤ off → off < 0x200000 → s.sys.unlocked = true →
    s.mode ≠ .halt →
    exec (.registerWrite fn off data) s = .refused .debugRegion ∧ exec (.rcRegisterRead fn off) s = .refused .debugRegion)

/-- Handles (R77, R81, R793). -/
def Obligations.HandlesAreChecked : Prop :=
  (∀ (s : State) (ty g i : Nat) (tys : List Nat), g < 128 → i < 2 ^ 20 →
    s.checkHandle (ty * 2 ^ 27 + g * 2 ^ 20 + i) tys =
      if ty * 2 ^ 27 + g * 2 ^ 20 + i = 0 then .error .noSuchObject
      else if ty ∉ tys then .error .noSuchObject
      else if g = 0 ∨ quota ty ≤ i then .error .noSuchObject
      else if g ≠ s.gen (okey ty i) then .error .staleHandle
      else if s.objLive (okey ty i) = false then .error .noSuchObject
      else .ok (okey ty i)) ∧
  (∀ (s : State) (ty i : Nat), 1 ≤ ty → i < quota ty → s.sound = true → s.objLive (okey ty i) = true →
    s.checkHandle (s.handle (okey ty i)) [ty] = .ok (okey ty i)) ∧
  (∀ (s t : State) (h key : Nat) (tys : List Nat), s.sound = true → s.checkHandle h tys = .ok key → t.gen key = nextGen (s.gen key) →
    t.checkHandle h tys = .error .staleHandle) ∧
  (∀ (s t : State) (ty i : Nat), 1 ≤ ty → i < quota ty → s.sound = true → t = s.dying (okey ty i) →
    (s.objLive (okey ty i) = true → t.handle (okey ty i) = s.handle (okey ty i) ∧
      t.checkHandle (t.handle (okey ty i)) [ty] = .error .staleHandle) ∧
    t.checkHandle (ty * 2 ^ 27 + nextGen (s.gen (okey ty i)) * 2 ^ 20 + i) [ty] = .error .noSuchObject) ∧
  nextGen 127 = 1 ∧ (∀ g, 1 ≤ g → g < 127 → nextGen g = g + 1)

/-- Failing checks (R40). -/
def Obligations.FailedCommandsChangeNothing : Prop :=
  (∀ (s s1 : State) (op : Nat) (len : Nat → Bool) (r : Req) (own : State → Eff), s.turn op r = some s1 → len r.payload.length = false →
    s.command op len r own = s1.failed op r .badLength []) ∧
  (∀ (s s1 : State) (op : Nat) (len : Nat → Bool) (r : Req) (own : State → Eff) (st : Status) (p : Bytes), s.turn op r = some s1 →
    len r.payload.length = true → own s1 = .fail st p → s.command op len r own = s1.failed op r st p) ∧
  (∀ (s s1 : State) (op : Nat) (r : Req) (st : Status) (p : Bytes), s.turn op r = some s1 →
    s.sameBut (s1.failed op r st p) ∧ ∀ g, g ≠ r.mbx → (s1.failed op r st p).mb g = s.mb g) ∧
  (∀ (s s1 : State) (op : Nat) (len : Nat → Bool) (r : Req) (own : State → Eff), s.start op r = some s1 → s.aborting r.mbx = false →
    (r.flags.getLsbD 0 = false ∨ (s1.mb r.mbx).outstanding = 0) → 4 ≤ r.flags.toNat →
    s.command op len r own = s1.failed op r .invalidArg [])

/-- Critical objects on a follower (R655). -/
def Obligations.FollowersHoldNoLease : Prop :=
  (∀ (s s1 : State) (op entry : Nat) (len : Nat → Bool) (r : Req) (own : State → Eff), s.start op r = some s1 → s.aborting r.mbx = false →
    (r.flags.getLsbD 0 = false ∨ (s1.mb r.mbx).outstanding = 0) → s1.critOf (namedHandles op r.payload r.tgt) = some entry →
    s1.role = .trioFollower → r.flags.toNat < 4 → len r.payload.length = true → (∀ p, own s1 ≠ .fail .staleHandle p) →
    (∀ p, own s1 ≠ .fail .noSuchObject p) → (∀ p, own s1 ≠ .fail .badLength p) →
    s.command op len r own = s1.failed op r .leaseHeld []) ∧
  (∀ (s s1 : State) (r : Req) (key entry : Nat), s.start 0x0203 r = some s1 → s.aborting r.mbx = false → r.flags = 0 →
    s1.lives r.tgt key 2 → s1.critOf [r.tgt] = some entry → s1.role = .trioFollower → r.payload = [] →
    exec (.legHold r) s = .next (s1.failed 0x0203 r .leaseHeld []))
end

