-- ==== Sys2Proof/Laws/State.lean ====
section
/-!
SUPPORT. Every update of one field of the state, read through every field: true by computation, so that no proof unfolds a record
update.
-/

namespace Sys2Proof.Machine

variable (s : State)

/-! `emit` changes `out` alone. -/

@[simp] theorem State.emit_now (o : Out) : (s.emit o).now = s.now := rfl
@[simp] theorem State.emit_nowFrac (o : Out) : (s.emit o).nowFrac = s.nowFrac := rfl
@[simp] theorem State.emit_pending (o : Out) : (s.emit o).pending = s.pending := rfl
@[simp] theorem State.emit_out (o : Out) : (s.emit o).out = o :: s.out := rfl
@[simp] theorem State.emit_fresh (o : Out) : (s.emit o).fresh = s.fresh := rfl
@[simp] theorem State.emit_sys (o : Out) : (s.emit o).sys = s.sys := rfl
@[simp] theorem State.emit_mbx (o : Out) : (s.emit o).mbx = s.mbx := rfl
@[simp] theorem State.emit_nmc (o : Out) : (s.emit o).nmc = s.nmc := rfl
@[simp] theorem State.emit_gens (o : Out) : (s.emit o).gens = s.gens := rfl
@[simp] theorem State.emit_objs (o : Out) : (s.emit o).objs = s.objs := rfl
@[simp] theorem State.emit_used (o : Out) : (s.emit o).used = s.used := rfl
@[simp] theorem State.emit_awaiting (o : Out) : (s.emit o).awaiting = s.awaiting := rfl
@[simp] theorem State.emit_sched (o : Out) : (s.emit o).sched = s.sched := rfl
@[simp] theorem State.emit_matrix (o : Out) : (s.emit o).matrix = s.matrix := rfl
@[simp] theorem State.emit_audio (o : Out) : (s.emit o).audio = s.audio := rfl
@[simp] theorem State.emit_garnet (o : Out) : (s.emit o).garnet = s.garnet := rfl
@[simp] theorem State.emit_work (o : Out) : (s.emit o).work = s.work := rfl
@[simp] theorem State.emit_objCtr (o : Out) : (s.emit o).objCtr = s.objCtr := rfl
@[simp] theorem State.emit_video (o : Out) : (s.emit o).video = s.video := rfl
@[simp] theorem State.emit_net (o : Out) : (s.emit o).net = s.net := rfl
@[simp] theorem State.emit_egress (o : Out) : (s.emit o).egress = s.egress := rfl
@[simp] theorem State.emit_onyx (o : Out) : (s.emit o).onyx = s.onyx := rfl
@[simp] theorem State.emit_recorder (o : Out) : (s.emit o).recorder = s.recorder := rfl
@[simp] theorem State.emit_mem (o : Out) : (s.emit o).mem = s.mem := rfl
@[simp] theorem State.emit_quartz (o : Out) : (s.emit o).quartz = s.quartz := rfl
@[simp] theorem State.emit_framer (o : Out) : (s.emit o).framer = s.framer := rfl
@[simp] theorem State.emit_cascade (o : Out) : (s.emit o).cascade = s.cascade := rfl
@[simp] theorem State.emit_trio (o : Out) : (s.emit o).trio = s.trio := rfl
@[simp] theorem State.emit_crc (o : Out) : (s.emit o).crc = s.crc := rfl
@[simp] theorem State.emit_pwr (o : Out) : (s.emit o).pwr = s.pwr := rfl
@[simp] theorem State.emit_rails (o : Out) : (s.emit o).rails = s.rails := rfl
@[simp] theorem State.emit_nvm (o : Out) : (s.emit o).nvm = s.nvm := rfl
@[simp] theorem State.emit_rst (o : Out) : (s.emit o).rst = s.rst := rfl
@[simp] theorem State.emit_retained (o : Out) : (s.emit o).retained = s.retained := rfl
@[simp] theorem State.emit_bkp (o : Out) : (s.emit o).bkp = s.bkp := rfl
@[simp] theorem State.emit_flash (o : Out) : (s.emit o).flash = s.flash := rfl
@[simp] theorem State.emit_aonBase (o : Out) : (s.emit o).aonBase = s.aonBase := rfl
@[simp] theorem State.emit_pins (o : Out) : (s.emit o).pins = s.pins := rfl

/-! `emits` changes `out` alone. -/

@[simp] theorem State.emits_now (l : List Out) : (s.emits l).now = s.now := rfl
@[simp] theorem State.emits_nowFrac (l : List Out) : (s.emits l).nowFrac = s.nowFrac := rfl
@[simp] theorem State.emits_pending (l : List Out) : (s.emits l).pending = s.pending := rfl
@[simp] theorem State.emits_out (l : List Out) : (s.emits l).out = l.reverse ++ s.out := rfl
@[simp] theorem State.emits_fresh (l : List Out) : (s.emits l).fresh = s.fresh := rfl
@[simp] theorem State.emits_sys (l : List Out) : (s.emits l).sys = s.sys := rfl
@[simp] theorem State.emits_mbx (l : List Out) : (s.emits l).mbx = s.mbx := rfl
@[simp] theorem State.emits_nmc (l : List Out) : (s.emits l).nmc = s.nmc := rfl
@[simp] theorem State.emits_gens (l : List Out) : (s.emits l).gens = s.gens := rfl
@[simp] theorem State.emits_objs (l : List Out) : (s.emits l).objs = s.objs := rfl
@[simp] theorem State.emits_used (l : List Out) : (s.emits l).used = s.used := rfl
@[simp] theorem State.emits_awaiting (l : List Out) : (s.emits l).awaiting = s.awaiting := rfl
@[simp] theorem State.emits_sched (l : List Out) : (s.emits l).sched = s.sched := rfl
@[simp] theorem State.emits_matrix (l : List Out) : (s.emits l).matrix = s.matrix := rfl
@[simp] theorem State.emits_audio (l : List Out) : (s.emits l).audio = s.audio := rfl
@[simp] theorem State.emits_garnet (l : List Out) : (s.emits l).garnet = s.garnet := rfl
@[simp] theorem State.emits_work (l : List Out) : (s.emits l).work = s.work := rfl
@[simp] theorem State.emits_objCtr (l : List Out) : (s.emits l).objCtr = s.objCtr := rfl
@[simp] theorem State.emits_video (l : List Out) : (s.emits l).video = s.video := rfl
@[simp] theorem State.emits_net (l : List Out) : (s.emits l).net = s.net := rfl
@[simp] theorem State.emits_egress (l : List Out) : (s.emits l).egress = s.egress := rfl
@[simp] theorem State.emits_onyx (l : List Out) : (s.emits l).onyx = s.onyx := rfl
@[simp] theorem State.emits_recorder (l : List Out) : (s.emits l).recorder = s.recorder := rfl
@[simp] theorem State.emits_mem (l : List Out) : (s.emits l).mem = s.mem := rfl
@[simp] theorem State.emits_quartz (l : List Out) : (s.emits l).quartz = s.quartz := rfl
@[simp] theorem State.emits_framer (l : List Out) : (s.emits l).framer = s.framer := rfl
@[simp] theorem State.emits_cascade (l : List Out) : (s.emits l).cascade = s.cascade := rfl
@[simp] theorem State.emits_trio (l : List Out) : (s.emits l).trio = s.trio := rfl
@[simp] theorem State.emits_crc (l : List Out) : (s.emits l).crc = s.crc := rfl
@[simp] theorem State.emits_pwr (l : List Out) : (s.emits l).pwr = s.pwr := rfl
@[simp] theorem State.emits_rails (l : List Out) : (s.emits l).rails = s.rails := rfl
@[simp] theorem State.emits_nvm (l : List Out) : (s.emits l).nvm = s.nvm := rfl
@[simp] theorem State.emits_rst (l : List Out) : (s.emits l).rst = s.rst := rfl
@[simp] theorem State.emits_retained (l : List Out) : (s.emits l).retained = s.retained := rfl
@[simp] theorem State.emits_bkp (l : List Out) : (s.emits l).bkp = s.bkp := rfl
@[simp] theorem State.emits_flash (l : List Out) : (s.emits l).flash = s.flash := rfl
@[simp] theorem State.emits_aonBase (l : List Out) : (s.emits l).aonBase = s.aonBase := rfl
@[simp] theorem State.emits_pins (l : List Out) : (s.emits l).pins = s.pins := rfl

/-! `setMb` changes `mbx` alone. -/

@[simp] theorem State.setMb_now (f : Nat) (m : Mailbox) : (s.setMb f m).now = s.now := rfl
@[simp] theorem State.setMb_nowFrac (f : Nat) (m : Mailbox) : (s.setMb f m).nowFrac = s.nowFrac := rfl
@[simp] theorem State.setMb_pending (f : Nat) (m : Mailbox) : (s.setMb f m).pending = s.pending := rfl
@[simp] theorem State.setMb_out (f : Nat) (m : Mailbox) : (s.setMb f m).out = s.out := rfl
@[simp] theorem State.setMb_fresh (f : Nat) (m : Mailbox) : (s.setMb f m).fresh = s.fresh := rfl
@[simp] theorem State.setMb_sys (f : Nat) (m : Mailbox) : (s.setMb f m).sys = s.sys := rfl
@[simp] theorem State.setMb_mbx (f : Nat) (m : Mailbox) : (s.setMb f m).mbx = tset s.mbx f m := rfl
@[simp] theorem State.setMb_nmc (f : Nat) (m : Mailbox) : (s.setMb f m).nmc = s.nmc := rfl
@[simp] theorem State.setMb_gens (f : Nat) (m : Mailbox) : (s.setMb f m).gens = s.gens := rfl
@[simp] theorem State.setMb_objs (f : Nat) (m : Mailbox) : (s.setMb f m).objs = s.objs := rfl
@[simp] theorem State.setMb_used (f : Nat) (m : Mailbox) : (s.setMb f m).used = s.used := rfl
@[simp] theorem State.setMb_awaiting (f : Nat) (m : Mailbox) : (s.setMb f m).awaiting = s.awaiting := rfl
@[simp] theorem State.setMb_sched (f : Nat) (m : Mailbox) : (s.setMb f m).sched = s.sched := rfl
@[simp] theorem State.setMb_matrix (f : Nat) (m : Mailbox) : (s.setMb f m).matrix = s.matrix := rfl
@[simp] theorem State.setMb_audio (f : Nat) (m : Mailbox) : (s.setMb f m).audio = s.audio := rfl
@[simp] theorem State.setMb_garnet (f : Nat) (m : Mailbox) : (s.setMb f m).garnet = s.garnet := rfl
@[simp] theorem State.setMb_work (f : Nat) (m : Mailbox) : (s.setMb f m).work = s.work := rfl
@[simp] theorem State.setMb_objCtr (f : Nat) (m : Mailbox) : (s.setMb f m).objCtr = s.objCtr := rfl
@[simp] theorem State.setMb_video (f : Nat) (m : Mailbox) : (s.setMb f m).video = s.video := rfl
@[simp] theorem State.setMb_net (f : Nat) (m : Mailbox) : (s.setMb f m).net = s.net := rfl
@[simp] theorem State.setMb_egress (f : Nat) (m : Mailbox) : (s.setMb f m).egress = s.egress := rfl
@[simp] theorem State.setMb_onyx (f : Nat) (m : Mailbox) : (s.setMb f m).onyx = s.onyx := rfl
@[simp] theorem State.setMb_recorder (f : Nat) (m : Mailbox) : (s.setMb f m).recorder = s.recorder := rfl
@[simp] theorem State.setMb_mem (f : Nat) (m : Mailbox) : (s.setMb f m).mem = s.mem := rfl
@[simp] theorem State.setMb_quartz (f : Nat) (m : Mailbox) : (s.setMb f m).quartz = s.quartz := rfl
@[simp] theorem State.setMb_framer (f : Nat) (m : Mailbox) : (s.setMb f m).framer = s.framer := rfl
@[simp] theorem State.setMb_cascade (f : Nat) (m : Mailbox) : (s.setMb f m).cascade = s.cascade := rfl
@[simp] theorem State.setMb_trio (f : Nat) (m : Mailbox) : (s.setMb f m).trio = s.trio := rfl
@[simp] theorem State.setMb_crc (f : Nat) (m : Mailbox) : (s.setMb f m).crc = s.crc := rfl
@[simp] theorem State.setMb_pwr (f : Nat) (m : Mailbox) : (s.setMb f m).pwr = s.pwr := rfl
@[simp] theorem State.setMb_rails (f : Nat) (m : Mailbox) : (s.setMb f m).rails = s.rails := rfl
@[simp] theorem State.setMb_nvm (f : Nat) (m : Mailbox) : (s.setMb f m).nvm = s.nvm := rfl
@[simp] theorem State.setMb_rst (f : Nat) (m : Mailbox) : (s.setMb f m).rst = s.rst := rfl
@[simp] theorem State.setMb_retained (f : Nat) (m : Mailbox) : (s.setMb f m).retained = s.retained := rfl
@[simp] theorem State.setMb_bkp (f : Nat) (m : Mailbox) : (s.setMb f m).bkp = s.bkp := rfl
@[simp] theorem State.setMb_flash (f : Nat) (m : Mailbox) : (s.setMb f m).flash = s.flash := rfl
@[simp] theorem State.setMb_aonBase (f : Nat) (m : Mailbox) : (s.setMb f m).aonBase = s.aonBase := rfl
@[simp] theorem State.setMb_pins (f : Nat) (m : Mailbox) : (s.setMb f m).pins = s.pins := rfl

/-! `updMb` changes `mbx` alone. -/

@[simp] theorem State.updMb_now (f : Nat) (g : Mailbox → Mailbox) : (s.updMb f g).now = s.now := rfl
@[simp] theorem State.updMb_nowFrac (f : Nat) (g : Mailbox → Mailbox) : (s.updMb f g).nowFrac = s.nowFrac := rfl
@[simp] theorem State.updMb_pending (f : Nat) (g : Mailbox → Mailbox) : (s.updMb f g).pending = s.pending := rfl
@[simp] theorem State.updMb_out (f : Nat) (g : Mailbox → Mailbox) : (s.updMb f g).out = s.out := rfl
@[simp] theorem State.updMb_fresh (f : Nat) (g : Mailbox → Mailbox) : (s.updMb f g).fresh = s.fresh := rfl
@[simp] theorem State.updMb_sys (f : Nat) (g : Mailbox → Mailbox) : (s.updMb f g).sys = s.sys := rfl
@[simp] theorem State.updMb_mbx (f : Nat) (g : Mailbox → Mailbox) : (s.updMb f g).mbx = tset s.mbx f (g (s.mb f)) := rfl
@[simp] theorem State.updMb_nmc (f : Nat) (g : Mailbox → Mailbox) : (s.updMb f g).nmc = s.nmc := rfl
@[simp] theorem State.updMb_gens (f : Nat) (g : Mailbox → Mailbox) : (s.updMb f g).gens = s.gens := rfl
@[simp] theorem State.updMb_objs (f : Nat) (g : Mailbox → Mailbox) : (s.updMb f g).objs = s.objs := rfl
@[simp] theorem State.updMb_used (f : Nat) (g : Mailbox → Mailbox) : (s.updMb f g).used = s.used := rfl
@[simp] theorem State.updMb_awaiting (f : Nat) (g : Mailbox → Mailbox) : (s.updMb f g).awaiting = s.awaiting := rfl
@[simp] theorem State.updMb_sched (f : Nat) (g : Mailbox → Mailbox) : (s.updMb f g).sched = s.sched := rfl
@[simp] theorem State.updMb_matrix (f : Nat) (g : Mailbox → Mailbox) : (s.updMb f g).matrix = s.matrix := rfl
@[simp] theorem State.updMb_audio (f : Nat) (g : Mailbox → Mailbox) : (s.updMb f g).audio = s.audio := rfl
@[simp] theorem State.updMb_garnet (f : Nat) (g : Mailbox → Mailbox) : (s.updMb f g).garnet = s.garnet := rfl
@[simp] theorem State.updMb_work (f : Nat) (g : Mailbox → Mailbox) : (s.updMb f g).work = s.work := rfl
@[simp] theorem State.updMb_objCtr (f : Nat) (g : Mailbox → Mailbox) : (s.updMb f g).objCtr = s.objCtr := rfl
@[simp] theorem State.updMb_video (f : Nat) (g : Mailbox → Mailbox) : (s.updMb f g).video = s.video := rfl
@[simp] theorem State.updMb_net (f : Nat) (g : Mailbox → Mailbox) : (s.updMb f g).net = s.net := rfl
@[simp] theorem State.updMb_egress (f : Nat) (g : Mailbox → Mailbox) : (s.updMb f g).egress = s.egress := rfl
@[simp] theorem State.updMb_onyx (f : Nat) (g : Mailbox → Mailbox) : (s.updMb f g).onyx = s.onyx := rfl
@[simp] theorem State.updMb_recorder (f : Nat) (g : Mailbox → Mailbox) : (s.updMb f g).recorder = s.recorder := rfl
@[simp] theorem State.updMb_mem (f : Nat) (g : Mailbox → Mailbox) : (s.updMb f g).mem = s.mem := rfl
@[simp] theorem State.updMb_quartz (f : Nat) (g : Mailbox → Mailbox) : (s.updMb f g).quartz = s.quartz := rfl
@[simp] theorem State.updMb_framer (f : Nat) (g : Mailbox → Mailbox) : (s.updMb f g).framer = s.framer := rfl
@[simp] theorem State.updMb_cascade (f : Nat) (g : Mailbox → Mailbox) : (s.updMb f g).cascade = s.cascade := rfl
@[simp] theorem State.updMb_trio (f : Nat) (g : Mailbox → Mailbox) : (s.updMb f g).trio = s.trio := rfl
@[simp] theorem State.updMb_crc (f : Nat) (g : Mailbox → Mailbox) : (s.updMb f g).crc = s.crc := rfl
@[simp] theorem State.updMb_pwr (f : Nat) (g : Mailbox → Mailbox) : (s.updMb f g).pwr = s.pwr := rfl
@[simp] theorem State.updMb_rails (f : Nat) (g : Mailbox → Mailbox) : (s.updMb f g).rails = s.rails := rfl
@[simp] theorem State.updMb_nvm (f : Nat) (g : Mailbox → Mailbox) : (s.updMb f g).nvm = s.nvm := rfl
@[simp] theorem State.updMb_rst (f : Nat) (g : Mailbox → Mailbox) : (s.updMb f g).rst = s.rst := rfl
@[simp] theorem State.updMb_retained (f : Nat) (g : Mailbox → Mailbox) : (s.updMb f g).retained = s.retained := rfl
@[simp] theorem State.updMb_bkp (f : Nat) (g : Mailbox → Mailbox) : (s.updMb f g).bkp = s.bkp := rfl
@[simp] theorem State.updMb_flash (f : Nat) (g : Mailbox → Mailbox) : (s.updMb f g).flash = s.flash := rfl
@[simp] theorem State.updMb_aonBase (f : Nat) (g : Mailbox → Mailbox) : (s.updMb f g).aonBase = s.aonBase := rfl
@[simp] theorem State.updMb_pins (f : Nat) (g : Mailbox → Mailbox) : (s.updMb f g).pins = s.pins := rfl

/-! `updCrc` changes `crc` alone. -/

@[simp] theorem State.updCrc_now (u : Nat) (f : CrcUnit → CrcUnit) : (s.updCrc u f).now = s.now := rfl
@[simp] theorem State.updCrc_nowFrac (u : Nat) (f : CrcUnit → CrcUnit) : (s.updCrc u f).nowFrac = s.nowFrac := rfl
@[simp] theorem State.updCrc_pending (u : Nat) (f : CrcUnit → CrcUnit) : (s.updCrc u f).pending = s.pending := rfl
@[simp] theorem State.updCrc_out (u : Nat) (f : CrcUnit → CrcUnit) : (s.updCrc u f).out = s.out := rfl
@[simp] theorem State.updCrc_fresh (u : Nat) (f : CrcUnit → CrcUnit) : (s.updCrc u f).fresh = s.fresh := rfl
@[simp] theorem State.updCrc_sys (u : Nat) (f : CrcUnit → CrcUnit) : (s.updCrc u f).sys = s.sys := rfl
@[simp] theorem State.updCrc_mbx (u : Nat) (f : CrcUnit → CrcUnit) : (s.updCrc u f).mbx = s.mbx := rfl
@[simp] theorem State.updCrc_nmc (u : Nat) (f : CrcUnit → CrcUnit) : (s.updCrc u f).nmc = s.nmc := rfl
@[simp] theorem State.updCrc_gens (u : Nat) (f : CrcUnit → CrcUnit) : (s.updCrc u f).gens = s.gens := rfl
@[simp] theorem State.updCrc_objs (u : Nat) (f : CrcUnit → CrcUnit) : (s.updCrc u f).objs = s.objs := rfl
@[simp] theorem State.updCrc_used (u : Nat) (f : CrcUnit → CrcUnit) : (s.updCrc u f).used = s.used := rfl
@[simp] theorem State.updCrc_awaiting (u : Nat) (f : CrcUnit → CrcUnit) : (s.updCrc u f).awaiting = s.awaiting := rfl
@[simp] theorem State.updCrc_sched (u : Nat) (f : CrcUnit → CrcUnit) : (s.updCrc u f).sched = s.sched := rfl
@[simp] theorem State.updCrc_matrix (u : Nat) (f : CrcUnit → CrcUnit) : (s.updCrc u f).matrix = s.matrix := rfl
@[simp] theorem State.updCrc_audio (u : Nat) (f : CrcUnit → CrcUnit) : (s.updCrc u f).audio = s.audio := rfl
@[simp] theorem State.updCrc_garnet (u : Nat) (f : CrcUnit → CrcUnit) : (s.updCrc u f).garnet = s.garnet := rfl
@[simp] theorem State.updCrc_work (u : Nat) (f : CrcUnit → CrcUnit) : (s.updCrc u f).work = s.work := rfl
@[simp] theorem State.updCrc_objCtr (u : Nat) (f : CrcUnit → CrcUnit) : (s.updCrc u f).objCtr = s.objCtr := rfl
@[simp] theorem State.updCrc_video (u : Nat) (f : CrcUnit → CrcUnit) : (s.updCrc u f).video = s.video := rfl
@[simp] theorem State.updCrc_net (u : Nat) (f : CrcUnit → CrcUnit) : (s.updCrc u f).net = s.net := rfl
@[simp] theorem State.updCrc_egress (u : Nat) (f : CrcUnit → CrcUnit) : (s.updCrc u f).egress = s.egress := rfl
@[simp] theorem State.updCrc_onyx (u : Nat) (f : CrcUnit → CrcUnit) : (s.updCrc u f).onyx = s.onyx := rfl
@[simp] theorem State.updCrc_recorder (u : Nat) (f : CrcUnit → CrcUnit) : (s.updCrc u f).recorder = s.recorder := rfl
@[simp] theorem State.updCrc_mem (u : Nat) (f : CrcUnit → CrcUnit) : (s.updCrc u f).mem = s.mem := rfl
@[simp] theorem State.updCrc_quartz (u : Nat) (f : CrcUnit → CrcUnit) : (s.updCrc u f).quartz = s.quartz := rfl
@[simp] theorem State.updCrc_framer (u : Nat) (f : CrcUnit → CrcUnit) : (s.updCrc u f).framer = s.framer := rfl
@[simp] theorem State.updCrc_cascade (u : Nat) (f : CrcUnit → CrcUnit) : (s.updCrc u f).cascade = s.cascade := rfl
@[simp] theorem State.updCrc_trio (u : Nat) (f : CrcUnit → CrcUnit) : (s.updCrc u f).trio = s.trio := rfl
@[simp] theorem State.updCrc_crc (u : Nat) (f : CrcUnit → CrcUnit) : (s.updCrc u f).crc = tset s.crc u (f (s.crcUnit u)) := rfl
@[simp] theorem State.updCrc_pwr (u : Nat) (f : CrcUnit → CrcUnit) : (s.updCrc u f).pwr = s.pwr := rfl
@[simp] theorem State.updCrc_rails (u : Nat) (f : CrcUnit → CrcUnit) : (s.updCrc u f).rails = s.rails := rfl
@[simp] theorem State.updCrc_nvm (u : Nat) (f : CrcUnit → CrcUnit) : (s.updCrc u f).nvm = s.nvm := rfl
@[simp] theorem State.updCrc_rst (u : Nat) (f : CrcUnit → CrcUnit) : (s.updCrc u f).rst = s.rst := rfl
@[simp] theorem State.updCrc_retained (u : Nat) (f : CrcUnit → CrcUnit) : (s.updCrc u f).retained = s.retained := rfl
@[simp] theorem State.updCrc_bkp (u : Nat) (f : CrcUnit → CrcUnit) : (s.updCrc u f).bkp = s.bkp := rfl
@[simp] theorem State.updCrc_flash (u : Nat) (f : CrcUnit → CrcUnit) : (s.updCrc u f).flash = s.flash := rfl
@[simp] theorem State.updCrc_aonBase (u : Nat) (f : CrcUnit → CrcUnit) : (s.updCrc u f).aonBase = s.aonBase := rfl
@[simp] theorem State.updCrc_pins (u : Nat) (f : CrcUnit → CrcUnit) : (s.updCrc u f).pins = s.pins := rfl

/-! `updObj` changes `objs` alone. -/

@[simp] theorem State.updObj_now (key : Nat) (f : Obj → Obj) : (s.updObj key f).now = s.now := rfl
@[simp] theorem State.updObj_nowFrac (key : Nat) (f : Obj → Obj) : (s.updObj key f).nowFrac = s.nowFrac := rfl
@[simp] theorem State.updObj_pending (key : Nat) (f : Obj → Obj) : (s.updObj key f).pending = s.pending := rfl
@[simp] theorem State.updObj_out (key : Nat) (f : Obj → Obj) : (s.updObj key f).out = s.out := rfl
@[simp] theorem State.updObj_fresh (key : Nat) (f : Obj → Obj) : (s.updObj key f).fresh = s.fresh := rfl
@[simp] theorem State.updObj_sys (key : Nat) (f : Obj → Obj) : (s.updObj key f).sys = s.sys := rfl
@[simp] theorem State.updObj_mbx (key : Nat) (f : Obj → Obj) : (s.updObj key f).mbx = s.mbx := rfl
@[simp] theorem State.updObj_nmc (key : Nat) (f : Obj → Obj) : (s.updObj key f).nmc = s.nmc := rfl
@[simp] theorem State.updObj_gens (key : Nat) (f : Obj → Obj) : (s.updObj key f).gens = s.gens := rfl
@[simp] theorem State.updObj_objs (key : Nat) (f : Obj → Obj) : (s.updObj key f).objs = tupd s.objs key f := rfl
@[simp] theorem State.updObj_used (key : Nat) (f : Obj → Obj) : (s.updObj key f).used = s.used := rfl
@[simp] theorem State.updObj_awaiting (key : Nat) (f : Obj → Obj) : (s.updObj key f).awaiting = s.awaiting := rfl
@[simp] theorem State.updObj_sched (key : Nat) (f : Obj → Obj) : (s.updObj key f).sched = s.sched := rfl
@[simp] theorem State.updObj_matrix (key : Nat) (f : Obj → Obj) : (s.updObj key f).matrix = s.matrix := rfl
@[simp] theorem State.updObj_audio (key : Nat) (f : Obj → Obj) : (s.updObj key f).audio = s.audio := rfl
@[simp] theorem State.updObj_garnet (key : Nat) (f : Obj → Obj) : (s.updObj key f).garnet = s.garnet := rfl
@[simp] theorem State.updObj_work (key : Nat) (f : Obj → Obj) : (s.updObj key f).work = s.work := rfl
@[simp] theorem State.updObj_objCtr (key : Nat) (f : Obj → Obj) : (s.updObj key f).objCtr = s.objCtr := rfl
@[simp] theorem State.updObj_video (key : Nat) (f : Obj → Obj) : (s.updObj key f).video = s.video := rfl
@[simp] theorem State.updObj_net (key : Nat) (f : Obj → Obj) : (s.updObj key f).net = s.net := rfl
@[simp] theorem State.updObj_egress (key : Nat) (f : Obj → Obj) : (s.updObj key f).egress = s.egress := rfl
@[simp] theorem State.updObj_onyx (key : Nat) (f : Obj → Obj) : (s.updObj key f).onyx = s.onyx := rfl
@[simp] theorem State.updObj_recorder (key : Nat) (f : Obj → Obj) : (s.updObj key f).recorder = s.recorder := rfl
@[simp] theorem State.updObj_mem (key : Nat) (f : Obj → Obj) : (s.updObj key f).mem = s.mem := rfl
@[simp] theorem State.updObj_quartz (key : Nat) (f : Obj → Obj) : (s.updObj key f).quartz = s.quartz := rfl
@[simp] theorem State.updObj_framer (key : Nat) (f : Obj → Obj) : (s.updObj key f).framer = s.framer := rfl
@[simp] theorem State.updObj_cascade (key : Nat) (f : Obj → Obj) : (s.updObj key f).cascade = s.cascade := rfl
@[simp] theorem State.updObj_trio (key : Nat) (f : Obj → Obj) : (s.updObj key f).trio = s.trio := rfl
@[simp] theorem State.updObj_crc (key : Nat) (f : Obj → Obj) : (s.updObj key f).crc = s.crc := rfl
@[simp] theorem State.updObj_pwr (key : Nat) (f : Obj → Obj) : (s.updObj key f).pwr = s.pwr := rfl
@[simp] theorem State.updObj_rails (key : Nat) (f : Obj → Obj) : (s.updObj key f).rails = s.rails := rfl
@[simp] theorem State.updObj_nvm (key : Nat) (f : Obj → Obj) : (s.updObj key f).nvm = s.nvm := rfl
@[simp] theorem State.updObj_rst (key : Nat) (f : Obj → Obj) : (s.updObj key f).rst = s.rst := rfl
@[simp] theorem State.updObj_retained (key : Nat) (f : Obj → Obj) : (s.updObj key f).retained = s.retained := rfl
@[simp] theorem State.updObj_bkp (key : Nat) (f : Obj → Obj) : (s.updObj key f).bkp = s.bkp := rfl
@[simp] theorem State.updObj_flash (key : Nat) (f : Obj → Obj) : (s.updObj key f).flash = s.flash := rfl
@[simp] theorem State.updObj_aonBase (key : Nat) (f : Obj → Obj) : (s.updObj key f).aonBase = s.aonBase := rfl
@[simp] theorem State.updObj_pins (key : Nat) (f : Obj → Obj) : (s.updObj key f).pins = s.pins := rfl

/-! `bumpGen` changes `gens` alone. -/

@[simp] theorem State.bumpGen_now (k : Nat) : (s.bumpGen k).now = s.now := rfl
@[simp] theorem State.bumpGen_nowFrac (k : Nat) : (s.bumpGen k).nowFrac = s.nowFrac := rfl
@[simp] theorem State.bumpGen_pending (k : Nat) : (s.bumpGen k).pending = s.pending := rfl
@[simp] theorem State.bumpGen_out (k : Nat) : (s.bumpGen k).out = s.out := rfl
@[simp] theorem State.bumpGen_fresh (k : Nat) : (s.bumpGen k).fresh = s.fresh := rfl
@[simp] theorem State.bumpGen_sys (k : Nat) : (s.bumpGen k).sys = s.sys := rfl
@[simp] theorem State.bumpGen_mbx (k : Nat) : (s.bumpGen k).mbx = s.mbx := rfl
@[simp] theorem State.bumpGen_nmc (k : Nat) : (s.bumpGen k).nmc = s.nmc := rfl
@[simp] theorem State.bumpGen_gens (k : Nat) : (s.bumpGen k).gens = tset s.gens k (nextGen (s.gen k)) := rfl
@[simp] theorem State.bumpGen_objs (k : Nat) : (s.bumpGen k).objs = s.objs := rfl
@[simp] theorem State.bumpGen_used (k : Nat) : (s.bumpGen k).used = s.used := rfl
@[simp] theorem State.bumpGen_awaiting (k : Nat) : (s.bumpGen k).awaiting = s.awaiting := rfl
@[simp] theorem State.bumpGen_sched (k : Nat) : (s.bumpGen k).sched = s.sched := rfl
@[simp] theorem State.bumpGen_matrix (k : Nat) : (s.bumpGen k).matrix = s.matrix := rfl
@[simp] theorem State.bumpGen_audio (k : Nat) : (s.bumpGen k).audio = s.audio := rfl
@[simp] theorem State.bumpGen_garnet (k : Nat) : (s.bumpGen k).garnet = s.garnet := rfl
@[simp] theorem State.bumpGen_work (k : Nat) : (s.bumpGen k).work = s.work := rfl
@[simp] theorem State.bumpGen_objCtr (k : Nat) : (s.bumpGen k).objCtr = s.objCtr := rfl
@[simp] theorem State.bumpGen_video (k : Nat) : (s.bumpGen k).video = s.video := rfl
@[simp] theorem State.bumpGen_net (k : Nat) : (s.bumpGen k).net = s.net := rfl
@[simp] theorem State.bumpGen_egress (k : Nat) : (s.bumpGen k).egress = s.egress := rfl
@[simp] theorem State.bumpGen_onyx (k : Nat) : (s.bumpGen k).onyx = s.onyx := rfl
@[simp] theorem State.bumpGen_recorder (k : Nat) : (s.bumpGen k).recorder = s.recorder := rfl
@[simp] theorem State.bumpGen_mem (k : Nat) : (s.bumpGen k).mem = s.mem := rfl
@[simp] theorem State.bumpGen_quartz (k : Nat) : (s.bumpGen k).quartz = s.quartz := rfl
@[simp] theorem State.bumpGen_framer (k : Nat) : (s.bumpGen k).framer = s.framer := rfl
@[simp] theorem State.bumpGen_cascade (k : Nat) : (s.bumpGen k).cascade = s.cascade := rfl
@[simp] theorem State.bumpGen_trio (k : Nat) : (s.bumpGen k).trio = s.trio := rfl
@[simp] theorem State.bumpGen_crc (k : Nat) : (s.bumpGen k).crc = s.crc := rfl
@[simp] theorem State.bumpGen_pwr (k : Nat) : (s.bumpGen k).pwr = s.pwr := rfl
@[simp] theorem State.bumpGen_rails (k : Nat) : (s.bumpGen k).rails = s.rails := rfl
@[simp] theorem State.bumpGen_nvm (k : Nat) : (s.bumpGen k).nvm = s.nvm := rfl
@[simp] theorem State.bumpGen_rst (k : Nat) : (s.bumpGen k).rst = s.rst := rfl
@[simp] theorem State.bumpGen_retained (k : Nat) : (s.bumpGen k).retained = s.retained := rfl
@[simp] theorem State.bumpGen_bkp (k : Nat) : (s.bumpGen k).bkp = s.bkp := rfl
@[simp] theorem State.bumpGen_flash (k : Nat) : (s.bumpGen k).flash = s.flash := rfl
@[simp] theorem State.bumpGen_aonBase (k : Nat) : (s.bumpGen k).aonBase = s.aonBase := rfl
@[simp] theorem State.bumpGen_pins (k : Nat) : (s.bumpGen k).pins = s.pins := rfl

/-! `updCas` changes `cascade` alone. -/

@[simp] theorem State.updCas_now (f : Cascade → Cascade) : (s.updCas f).now = s.now := rfl
@[simp] theorem State.updCas_nowFrac (f : Cascade → Cascade) : (s.updCas f).nowFrac = s.nowFrac := rfl
@[simp] theorem State.updCas_pending (f : Cascade → Cascade) : (s.updCas f).pending = s.pending := rfl
@[simp] theorem State.updCas_out (f : Cascade → Cascade) : (s.updCas f).out = s.out := rfl
@[simp] theorem State.updCas_fresh (f : Cascade → Cascade) : (s.updCas f).fresh = s.fresh := rfl
@[simp] theorem State.updCas_sys (f : Cascade → Cascade) : (s.updCas f).sys = s.sys := rfl
@[simp] theorem State.updCas_mbx (f : Cascade → Cascade) : (s.updCas f).mbx = s.mbx := rfl
@[simp] theorem State.updCas_nmc (f : Cascade → Cascade) : (s.updCas f).nmc = s.nmc := rfl
@[simp] theorem State.updCas_gens (f : Cascade → Cascade) : (s.updCas f).gens = s.gens := rfl
@[simp] theorem State.updCas_objs (f : Cascade → Cascade) : (s.updCas f).objs = s.objs := rfl
@[simp] theorem State.updCas_used (f : Cascade → Cascade) : (s.updCas f).used = s.used := rfl
@[simp] theorem State.updCas_awaiting (f : Cascade → Cascade) : (s.updCas f).awaiting = s.awaiting := rfl
@[simp] theorem State.updCas_sched (f : Cascade → Cascade) : (s.updCas f).sched = s.sched := rfl
@[simp] theorem State.updCas_matrix (f : Cascade → Cascade) : (s.updCas f).matrix = s.matrix := rfl
@[simp] theorem State.updCas_audio (f : Cascade → Cascade) : (s.updCas f).audio = s.audio := rfl
@[simp] theorem State.updCas_garnet (f : Cascade → Cascade) : (s.updCas f).garnet = s.garnet := rfl
@[simp] theorem State.updCas_work (f : Cascade → Cascade) : (s.updCas f).work = s.work := rfl
@[simp] theorem State.updCas_objCtr (f : Cascade → Cascade) : (s.updCas f).objCtr = s.objCtr := rfl
@[simp] theorem State.updCas_video (f : Cascade → Cascade) : (s.updCas f).video = s.video := rfl
@[simp] theorem State.updCas_net (f : Cascade → Cascade) : (s.updCas f).net = s.net := rfl
@[simp] theorem State.updCas_egress (f : Cascade → Cascade) : (s.updCas f).egress = s.egress := rfl
@[simp] theorem State.updCas_onyx (f : Cascade → Cascade) : (s.updCas f).onyx = s.onyx := rfl
@[simp] theorem State.updCas_recorder (f : Cascade → Cascade) : (s.updCas f).recorder = s.recorder := rfl
@[simp] theorem State.updCas_mem (f : Cascade → Cascade) : (s.updCas f).mem = s.mem := rfl
@[simp] theorem State.updCas_quartz (f : Cascade → Cascade) : (s.updCas f).quartz = s.quartz := rfl
@[simp] theorem State.updCas_framer (f : Cascade → Cascade) : (s.updCas f).framer = s.framer := rfl
@[simp] theorem State.updCas_cascade (f : Cascade → Cascade) : (s.updCas f).cascade = f s.cascade := rfl
@[simp] theorem State.updCas_trio (f : Cascade → Cascade) : (s.updCas f).trio = s.trio := rfl
@[simp] theorem State.updCas_crc (f : Cascade → Cascade) : (s.updCas f).crc = s.crc := rfl
@[simp] theorem State.updCas_pwr (f : Cascade → Cascade) : (s.updCas f).pwr = s.pwr := rfl
@[simp] theorem State.updCas_rails (f : Cascade → Cascade) : (s.updCas f).rails = s.rails := rfl
@[simp] theorem State.updCas_nvm (f : Cascade → Cascade) : (s.updCas f).nvm = s.nvm := rfl
@[simp] theorem State.updCas_rst (f : Cascade → Cascade) : (s.updCas f).rst = s.rst := rfl
@[simp] theorem State.updCas_retained (f : Cascade → Cascade) : (s.updCas f).retained = s.retained := rfl
@[simp] theorem State.updCas_bkp (f : Cascade → Cascade) : (s.updCas f).bkp = s.bkp := rfl
@[simp] theorem State.updCas_flash (f : Cascade → Cascade) : (s.updCas f).flash = s.flash := rfl
@[simp] theorem State.updCas_aonBase (f : Cascade → Cascade) : (s.updCas f).aonBase = s.aonBase := rfl
@[simp] theorem State.updCas_pins (f : Cascade → Cascade) : (s.updCas f).pins = s.pins := rfl

/-! `updNmc` changes `nmc` alone. -/

@[simp] theorem State.updNmc_now (f : Nmc → Nmc) : (s.updNmc f).now = s.now := rfl
@[simp] theorem State.updNmc_nowFrac (f : Nmc → Nmc) : (s.updNmc f).nowFrac = s.nowFrac := rfl
@[simp] theorem State.updNmc_pending (f : Nmc → Nmc) : (s.updNmc f).pending = s.pending := rfl
@[simp] theorem State.updNmc_out (f : Nmc → Nmc) : (s.updNmc f).out = s.out := rfl
@[simp] theorem State.updNmc_fresh (f : Nmc → Nmc) : (s.updNmc f).fresh = s.fresh := rfl
@[simp] theorem State.updNmc_sys (f : Nmc → Nmc) : (s.updNmc f).sys = s.sys := rfl
@[simp] theorem State.updNmc_mbx (f : Nmc → Nmc) : (s.updNmc f).mbx = s.mbx := rfl
@[simp] theorem State.updNmc_nmc (f : Nmc → Nmc) : (s.updNmc f).nmc = f s.nmc := rfl
@[simp] theorem State.updNmc_gens (f : Nmc → Nmc) : (s.updNmc f).gens = s.gens := rfl
@[simp] theorem State.updNmc_objs (f : Nmc → Nmc) : (s.updNmc f).objs = s.objs := rfl
@[simp] theorem State.updNmc_used (f : Nmc → Nmc) : (s.updNmc f).used = s.used := rfl
@[simp] theorem State.updNmc_awaiting (f : Nmc → Nmc) : (s.updNmc f).awaiting = s.awaiting := rfl
@[simp] theorem State.updNmc_sched (f : Nmc → Nmc) : (s.updNmc f).sched = s.sched := rfl
@[simp] theorem State.updNmc_matrix (f : Nmc → Nmc) : (s.updNmc f).matrix = s.matrix := rfl
@[simp] theorem State.updNmc_audio (f : Nmc → Nmc) : (s.updNmc f).audio = s.audio := rfl
@[simp] theorem State.updNmc_garnet (f : Nmc → Nmc) : (s.updNmc f).garnet = s.garnet := rfl
@[simp] theorem State.updNmc_work (f : Nmc → Nmc) : (s.updNmc f).work = s.work := rfl
@[simp] theorem State.updNmc_objCtr (f : Nmc → Nmc) : (s.updNmc f).objCtr = s.objCtr := rfl
@[simp] theorem State.updNmc_video (f : Nmc → Nmc) : (s.updNmc f).video = s.video := rfl
@[simp] theorem State.updNmc_net (f : Nmc → Nmc) : (s.updNmc f).net = s.net := rfl
@[simp] theorem State.updNmc_egress (f : Nmc → Nmc) : (s.updNmc f).egress = s.egress := rfl
@[simp] theorem State.updNmc_onyx (f : Nmc → Nmc) : (s.updNmc f).onyx = s.onyx := rfl
@[simp] theorem State.updNmc_recorder (f : Nmc → Nmc) : (s.updNmc f).recorder = s.recorder := rfl
@[simp] theorem State.updNmc_mem (f : Nmc → Nmc) : (s.updNmc f).mem = s.mem := rfl
@[simp] theorem State.updNmc_quartz (f : Nmc → Nmc) : (s.updNmc f).quartz = s.quartz := rfl
@[simp] theorem State.updNmc_framer (f : Nmc → Nmc) : (s.updNmc f).framer = s.framer := rfl
@[simp] theorem State.updNmc_cascade (f : Nmc → Nmc) : (s.updNmc f).cascade = s.cascade := rfl
@[simp] theorem State.updNmc_trio (f : Nmc → Nmc) : (s.updNmc f).trio = s.trio := rfl
@[simp] theorem State.updNmc_crc (f : Nmc → Nmc) : (s.updNmc f).crc = s.crc := rfl
@[simp] theorem State.updNmc_pwr (f : Nmc → Nmc) : (s.updNmc f).pwr = s.pwr := rfl
@[simp] theorem State.updNmc_rails (f : Nmc → Nmc) : (s.updNmc f).rails = s.rails := rfl
@[simp] theorem State.updNmc_nvm (f : Nmc → Nmc) : (s.updNmc f).nvm = s.nvm := rfl
@[simp] theorem State.updNmc_rst (f : Nmc → Nmc) : (s.updNmc f).rst = s.rst := rfl
@[simp] theorem State.updNmc_retained (f : Nmc → Nmc) : (s.updNmc f).retained = s.retained := rfl
@[simp] theorem State.updNmc_bkp (f : Nmc → Nmc) : (s.updNmc f).bkp = s.bkp := rfl
@[simp] theorem State.updNmc_flash (f : Nmc → Nmc) : (s.updNmc f).flash = s.flash := rfl
@[simp] theorem State.updNmc_aonBase (f : Nmc → Nmc) : (s.updNmc f).aonBase = s.aonBase := rfl
@[simp] theorem State.updNmc_pins (f : Nmc → Nmc) : (s.updNmc f).pins = s.pins := rfl

/-! `updFramer` changes `framer` alone. -/

@[simp] theorem State.updFramer_now (f : Framer → Framer) : (s.updFramer f).now = s.now := rfl
@[simp] theorem State.updFramer_nowFrac (f : Framer → Framer) : (s.updFramer f).nowFrac = s.nowFrac := rfl
@[simp] theorem State.updFramer_pending (f : Framer → Framer) : (s.updFramer f).pending = s.pending := rfl
@[simp] theorem State.updFramer_out (f : Framer → Framer) : (s.updFramer f).out = s.out := rfl
@[simp] theorem State.updFramer_fresh (f : Framer → Framer) : (s.updFramer f).fresh = s.fresh := rfl
@[simp] theorem State.updFramer_sys (f : Framer → Framer) : (s.updFramer f).sys = s.sys := rfl
@[simp] theorem State.updFramer_mbx (f : Framer → Framer) : (s.updFramer f).mbx = s.mbx := rfl
@[simp] theorem State.updFramer_nmc (f : Framer → Framer) : (s.updFramer f).nmc = s.nmc := rfl
@[simp] theorem State.updFramer_gens (f : Framer → Framer) : (s.updFramer f).gens = s.gens := rfl
@[simp] theorem State.updFramer_objs (f : Framer → Framer) : (s.updFramer f).objs = s.objs := rfl
@[simp] theorem State.updFramer_used (f : Framer → Framer) : (s.updFramer f).used = s.used := rfl
@[simp] theorem State.updFramer_awaiting (f : Framer → Framer) : (s.updFramer f).awaiting = s.awaiting := rfl
@[simp] theorem State.updFramer_sched (f : Framer → Framer) : (s.updFramer f).sched = s.sched := rfl
@[simp] theorem State.updFramer_matrix (f : Framer → Framer) : (s.updFramer f).matrix = s.matrix := rfl
@[simp] theorem State.updFramer_audio (f : Framer → Framer) : (s.updFramer f).audio = s.audio := rfl
@[simp] theorem State.updFramer_garnet (f : Framer → Framer) : (s.updFramer f).garnet = s.garnet := rfl
@[simp] theorem State.updFramer_work (f : Framer → Framer) : (s.updFramer f).work = s.work := rfl
@[simp] theorem State.updFramer_objCtr (f : Framer → Framer) : (s.updFramer f).objCtr = s.objCtr := rfl
@[simp] theorem State.updFramer_video (f : Framer → Framer) : (s.updFramer f).video = s.video := rfl
@[simp] theorem State.updFramer_net (f : Framer → Framer) : (s.updFramer f).net = s.net := rfl
@[simp] theorem State.updFramer_egress (f : Framer → Framer) : (s.updFramer f).egress = s.egress := rfl
@[simp] theorem State.updFramer_onyx (f : Framer → Framer) : (s.updFramer f).onyx = s.onyx := rfl
@[simp] theorem State.updFramer_recorder (f : Framer → Framer) : (s.updFramer f).recorder = s.recorder := rfl
@[simp] theorem State.updFramer_mem (f : Framer → Framer) : (s.updFramer f).mem = s.mem := rfl
@[simp] theorem State.updFramer_quartz (f : Framer → Framer) : (s.updFramer f).quartz = s.quartz := rfl
@[simp] theorem State.updFramer_framer (f : Framer → Framer) : (s.updFramer f).framer = f s.framer := rfl
@[simp] theorem State.updFramer_cascade (f : Framer → Framer) : (s.updFramer f).cascade = s.cascade := rfl
@[simp] theorem State.updFramer_trio (f : Framer → Framer) : (s.updFramer f).trio = s.trio := rfl
@[simp] theorem State.updFramer_crc (f : Framer → Framer) : (s.updFramer f).crc = s.crc := rfl
@[simp] theorem State.updFramer_pwr (f : Framer → Framer) : (s.updFramer f).pwr = s.pwr := rfl
@[simp] theorem State.updFramer_rails (f : Framer → Framer) : (s.updFramer f).rails = s.rails := rfl
@[simp] theorem State.updFramer_nvm (f : Framer → Framer) : (s.updFramer f).nvm = s.nvm := rfl
@[simp] theorem State.updFramer_rst (f : Framer → Framer) : (s.updFramer f).rst = s.rst := rfl
@[simp] theorem State.updFramer_retained (f : Framer → Framer) : (s.updFramer f).retained = s.retained := rfl
@[simp] theorem State.updFramer_bkp (f : Framer → Framer) : (s.updFramer f).bkp = s.bkp := rfl
@[simp] theorem State.updFramer_flash (f : Framer → Framer) : (s.updFramer f).flash = s.flash := rfl
@[simp] theorem State.updFramer_aonBase (f : Framer → Framer) : (s.updFramer f).aonBase = s.aonBase := rfl
@[simp] theorem State.updFramer_pins (f : Framer → Framer) : (s.updFramer f).pins = s.pins := rfl

/-! `updGarnet` changes `garnet` alone. -/

@[simp] theorem State.updGarnet_now (f : Garnet → Garnet) : (s.updGarnet f).now = s.now := rfl
@[simp] theorem State.updGarnet_nowFrac (f : Garnet → Garnet) : (s.updGarnet f).nowFrac = s.nowFrac := rfl
@[simp] theorem State.updGarnet_pending (f : Garnet → Garnet) : (s.updGarnet f).pending = s.pending := rfl
@[simp] theorem State.updGarnet_out (f : Garnet → Garnet) : (s.updGarnet f).out = s.out := rfl
@[simp] theorem State.updGarnet_fresh (f : Garnet → Garnet) : (s.updGarnet f).fresh = s.fresh := rfl
@[simp] theorem State.updGarnet_sys (f : Garnet → Garnet) : (s.updGarnet f).sys = s.sys := rfl
@[simp] theorem State.updGarnet_mbx (f : Garnet → Garnet) : (s.updGarnet f).mbx = s.mbx := rfl
@[simp] theorem State.updGarnet_nmc (f : Garnet → Garnet) : (s.updGarnet f).nmc = s.nmc := rfl
@[simp] theorem State.updGarnet_gens (f : Garnet → Garnet) : (s.updGarnet f).gens = s.gens := rfl
@[simp] theorem State.updGarnet_objs (f : Garnet → Garnet) : (s.updGarnet f).objs = s.objs := rfl
@[simp] theorem State.updGarnet_used (f : Garnet → Garnet) : (s.updGarnet f).used = s.used := rfl
@[simp] theorem State.updGarnet_awaiting (f : Garnet → Garnet) : (s.updGarnet f).awaiting = s.awaiting := rfl
@[simp] theorem State.updGarnet_sched (f : Garnet → Garnet) : (s.updGarnet f).sched = s.sched := rfl
@[simp] theorem State.updGarnet_matrix (f : Garnet → Garnet) : (s.updGarnet f).matrix = s.matrix := rfl
@[simp] theorem State.updGarnet_audio (f : Garnet → Garnet) : (s.updGarnet f).audio = s.audio := rfl
@[simp] theorem State.updGarnet_garnet (f : Garnet → Garnet) : (s.updGarnet f).garnet = f s.garnet := rfl
@[simp] theorem State.updGarnet_work (f : Garnet → Garnet) : (s.updGarnet f).work = s.work := rfl
@[simp] theorem State.updGarnet_objCtr (f : Garnet → Garnet) : (s.updGarnet f).objCtr = s.objCtr := rfl
@[simp] theorem State.updGarnet_video (f : Garnet → Garnet) : (s.updGarnet f).video = s.video := rfl
@[simp] theorem State.updGarnet_net (f : Garnet → Garnet) : (s.updGarnet f).net = s.net := rfl
@[simp] theorem State.updGarnet_egress (f : Garnet → Garnet) : (s.updGarnet f).egress = s.egress := rfl
@[simp] theorem State.updGarnet_onyx (f : Garnet → Garnet) : (s.updGarnet f).onyx = s.onyx := rfl
@[simp] theorem State.updGarnet_recorder (f : Garnet → Garnet) : (s.updGarnet f).recorder = s.recorder := rfl
@[simp] theorem State.updGarnet_mem (f : Garnet → Garnet) : (s.updGarnet f).mem = s.mem := rfl
@[simp] theorem State.updGarnet_quartz (f : Garnet → Garnet) : (s.updGarnet f).quartz = s.quartz := rfl
@[simp] theorem State.updGarnet_framer (f : Garnet → Garnet) : (s.updGarnet f).framer = s.framer := rfl
@[simp] theorem State.updGarnet_cascade (f : Garnet → Garnet) : (s.updGarnet f).cascade = s.cascade := rfl
@[simp] theorem State.updGarnet_trio (f : Garnet → Garnet) : (s.updGarnet f).trio = s.trio := rfl
@[simp] theorem State.updGarnet_crc (f : Garnet → Garnet) : (s.updGarnet f).crc = s.crc := rfl
@[simp] theorem State.updGarnet_pwr (f : Garnet → Garnet) : (s.updGarnet f).pwr = s.pwr := rfl
@[simp] theorem State.updGarnet_rails (f : Garnet → Garnet) : (s.updGarnet f).rails = s.rails := rfl
@[simp] theorem State.updGarnet_nvm (f : Garnet → Garnet) : (s.updGarnet f).nvm = s.nvm := rfl
@[simp] theorem State.updGarnet_rst (f : Garnet → Garnet) : (s.updGarnet f).rst = s.rst := rfl
@[simp] theorem State.updGarnet_retained (f : Garnet → Garnet) : (s.updGarnet f).retained = s.retained := rfl
@[simp] theorem State.updGarnet_bkp (f : Garnet → Garnet) : (s.updGarnet f).bkp = s.bkp := rfl
@[simp] theorem State.updGarnet_flash (f : Garnet → Garnet) : (s.updGarnet f).flash = s.flash := rfl
@[simp] theorem State.updGarnet_aonBase (f : Garnet → Garnet) : (s.updGarnet f).aonBase = s.aonBase := rfl
@[simp] theorem State.updGarnet_pins (f : Garnet → Garnet) : (s.updGarnet f).pins = s.pins := rfl

/-! `updNvm` changes `nvm` alone. -/

@[simp] theorem State.updNvm_now (f : Nvm → Nvm) : (s.updNvm f).now = s.now := rfl
@[simp] theorem State.updNvm_nowFrac (f : Nvm → Nvm) : (s.updNvm f).nowFrac = s.nowFrac := rfl
@[simp] theorem State.updNvm_pending (f : Nvm → Nvm) : (s.updNvm f).pending = s.pending := rfl
@[simp] theorem State.updNvm_out (f : Nvm → Nvm) : (s.updNvm f).out = s.out := rfl
@[simp] theorem State.updNvm_fresh (f : Nvm → Nvm) : (s.updNvm f).fresh = s.fresh := rfl
@[simp] theorem State.updNvm_sys (f : Nvm → Nvm) : (s.updNvm f).sys = s.sys := rfl
@[simp] theorem State.updNvm_mbx (f : Nvm → Nvm) : (s.updNvm f).mbx = s.mbx := rfl
@[simp] theorem State.updNvm_nmc (f : Nvm → Nvm) : (s.updNvm f).nmc = s.nmc := rfl
@[simp] theorem State.updNvm_gens (f : Nvm → Nvm) : (s.updNvm f).gens = s.gens := rfl
@[simp] theorem State.updNvm_objs (f : Nvm → Nvm) : (s.updNvm f).objs = s.objs := rfl
@[simp] theorem State.updNvm_used (f : Nvm → Nvm) : (s.updNvm f).used = s.used := rfl
@[simp] theorem State.updNvm_awaiting (f : Nvm → Nvm) : (s.updNvm f).awaiting = s.awaiting := rfl
@[simp] theorem State.updNvm_sched (f : Nvm → Nvm) : (s.updNvm f).sched = s.sched := rfl
@[simp] theorem State.updNvm_matrix (f : Nvm → Nvm) : (s.updNvm f).matrix = s.matrix := rfl
@[simp] theorem State.updNvm_audio (f : Nvm → Nvm) : (s.updNvm f).audio = s.audio := rfl
@[simp] theorem State.updNvm_garnet (f : Nvm → Nvm) : (s.updNvm f).garnet = s.garnet := rfl
@[simp] theorem State.updNvm_work (f : Nvm → Nvm) : (s.updNvm f).work = s.work := rfl
@[simp] theorem State.updNvm_objCtr (f : Nvm → Nvm) : (s.updNvm f).objCtr = s.objCtr := rfl
@[simp] theorem State.updNvm_video (f : Nvm → Nvm) : (s.updNvm f).video = s.video := rfl
@[simp] theorem State.updNvm_net (f : Nvm → Nvm) : (s.updNvm f).net = s.net := rfl
@[simp] theorem State.updNvm_egress (f : Nvm → Nvm) : (s.updNvm f).egress = s.egress := rfl
@[simp] theorem State.updNvm_onyx (f : Nvm → Nvm) : (s.updNvm f).onyx = s.onyx := rfl
@[simp] theorem State.updNvm_recorder (f : Nvm → Nvm) : (s.updNvm f).recorder = s.recorder := rfl
@[simp] theorem State.updNvm_mem (f : Nvm → Nvm) : (s.updNvm f).mem = s.mem := rfl
@[simp] theorem State.updNvm_quartz (f : Nvm → Nvm) : (s.updNvm f).quartz = s.quartz := rfl
@[simp] theorem State.updNvm_framer (f : Nvm → Nvm) : (s.updNvm f).framer = s.framer := rfl
@[simp] theorem State.updNvm_cascade (f : Nvm → Nvm) : (s.updNvm f).cascade = s.cascade := rfl
@[simp] theorem State.updNvm_trio (f : Nvm → Nvm) : (s.updNvm f).trio = s.trio := rfl
@[simp] theorem State.updNvm_crc (f : Nvm → Nvm) : (s.updNvm f).crc = s.crc := rfl
@[simp] theorem State.updNvm_pwr (f : Nvm → Nvm) : (s.updNvm f).pwr = s.pwr := rfl
@[simp] theorem State.updNvm_rails (f : Nvm → Nvm) : (s.updNvm f).rails = s.rails := rfl
@[simp] theorem State.updNvm_nvm (f : Nvm → Nvm) : (s.updNvm f).nvm = f s.nvm := rfl
@[simp] theorem State.updNvm_rst (f : Nvm → Nvm) : (s.updNvm f).rst = s.rst := rfl
@[simp] theorem State.updNvm_retained (f : Nvm → Nvm) : (s.updNvm f).retained = s.retained := rfl
@[simp] theorem State.updNvm_bkp (f : Nvm → Nvm) : (s.updNvm f).bkp = s.bkp := rfl
@[simp] theorem State.updNvm_flash (f : Nvm → Nvm) : (s.updNvm f).flash = s.flash := rfl
@[simp] theorem State.updNvm_aonBase (f : Nvm → Nvm) : (s.updNvm f).aonBase = s.aonBase := rfl
@[simp] theorem State.updNvm_pins (f : Nvm → Nvm) : (s.updNvm f).pins = s.pins := rfl

/-! `updRst` changes `rst` alone. -/

@[simp] theorem State.updRst_now (f : Rst → Rst) : (s.updRst f).now = s.now := rfl
@[simp] theorem State.updRst_nowFrac (f : Rst → Rst) : (s.updRst f).nowFrac = s.nowFrac := rfl
@[simp] theorem State.updRst_pending (f : Rst → Rst) : (s.updRst f).pending = s.pending := rfl
@[simp] theorem State.updRst_out (f : Rst → Rst) : (s.updRst f).out = s.out := rfl
@[simp] theorem State.updRst_fresh (f : Rst → Rst) : (s.updRst f).fresh = s.fresh := rfl
@[simp] theorem State.updRst_sys (f : Rst → Rst) : (s.updRst f).sys = s.sys := rfl
@[simp] theorem State.updRst_mbx (f : Rst → Rst) : (s.updRst f).mbx = s.mbx := rfl
@[simp] theorem State.updRst_nmc (f : Rst → Rst) : (s.updRst f).nmc = s.nmc := rfl
@[simp] theorem State.updRst_gens (f : Rst → Rst) : (s.updRst f).gens = s.gens := rfl
@[simp] theorem State.updRst_objs (f : Rst → Rst) : (s.updRst f).objs = s.objs := rfl
@[simp] theorem State.updRst_used (f : Rst → Rst) : (s.updRst f).used = s.used := rfl
@[simp] theorem State.updRst_awaiting (f : Rst → Rst) : (s.updRst f).awaiting = s.awaiting := rfl
@[simp] theorem State.updRst_sched (f : Rst → Rst) : (s.updRst f).sched = s.sched := rfl
@[simp] theorem State.updRst_matrix (f : Rst → Rst) : (s.updRst f).matrix = s.matrix := rfl
@[simp] theorem State.updRst_audio (f : Rst → Rst) : (s.updRst f).audio = s.audio := rfl
@[simp] theorem State.updRst_garnet (f : Rst → Rst) : (s.updRst f).garnet = s.garnet := rfl
@[simp] theorem State.updRst_work (f : Rst → Rst) : (s.updRst f).work = s.work := rfl
@[simp] theorem State.updRst_objCtr (f : Rst → Rst) : (s.updRst f).objCtr = s.objCtr := rfl
@[simp] theorem State.updRst_video (f : Rst → Rst) : (s.updRst f).video = s.video := rfl
@[simp] theorem State.updRst_net (f : Rst → Rst) : (s.updRst f).net = s.net := rfl
@[simp] theorem State.updRst_egress (f : Rst → Rst) : (s.updRst f).egress = s.egress := rfl
@[simp] theorem State.updRst_onyx (f : Rst → Rst) : (s.updRst f).onyx = s.onyx := rfl
@[simp] theorem State.updRst_recorder (f : Rst → Rst) : (s.updRst f).recorder = s.recorder := rfl
@[simp] theorem State.updRst_mem (f : Rst → Rst) : (s.updRst f).mem = s.mem := rfl
@[simp] theorem State.updRst_quartz (f : Rst → Rst) : (s.updRst f).quartz = s.quartz := rfl
@[simp] theorem State.updRst_framer (f : Rst → Rst) : (s.updRst f).framer = s.framer := rfl
@[simp] theorem State.updRst_cascade (f : Rst → Rst) : (s.updRst f).cascade = s.cascade := rfl
@[simp] theorem State.updRst_trio (f : Rst → Rst) : (s.updRst f).trio = s.trio := rfl
@[simp] theorem State.updRst_crc (f : Rst → Rst) : (s.updRst f).crc = s.crc := rfl
@[simp] theorem State.updRst_pwr (f : Rst → Rst) : (s.updRst f).pwr = s.pwr := rfl
@[simp] theorem State.updRst_rails (f : Rst → Rst) : (s.updRst f).rails = s.rails := rfl
@[simp] theorem State.updRst_nvm (f : Rst → Rst) : (s.updRst f).nvm = s.nvm := rfl
@[simp] theorem State.updRst_rst (f : Rst → Rst) : (s.updRst f).rst = f s.rst := rfl
@[simp] theorem State.updRst_retained (f : Rst → Rst) : (s.updRst f).retained = s.retained := rfl
@[simp] theorem State.updRst_bkp (f : Rst → Rst) : (s.updRst f).bkp = s.bkp := rfl
@[simp] theorem State.updRst_flash (f : Rst → Rst) : (s.updRst f).flash = s.flash := rfl
@[simp] theorem State.updRst_aonBase (f : Rst → Rst) : (s.updRst f).aonBase = s.aonBase := rfl
@[simp] theorem State.updRst_pins (f : Rst → Rst) : (s.updRst f).pins = s.pins := rfl

/-! `updSys` changes `sys` alone. -/

@[simp] theorem State.updSys_now (f : Sys → Sys) : (s.updSys f).now = s.now := rfl
@[simp] theorem State.updSys_nowFrac (f : Sys → Sys) : (s.updSys f).nowFrac = s.nowFrac := rfl
@[simp] theorem State.updSys_pending (f : Sys → Sys) : (s.updSys f).pending = s.pending := rfl
@[simp] theorem State.updSys_out (f : Sys → Sys) : (s.updSys f).out = s.out := rfl
@[simp] theorem State.updSys_fresh (f : Sys → Sys) : (s.updSys f).fresh = s.fresh := rfl
@[simp] theorem State.updSys_sys (f : Sys → Sys) : (s.updSys f).sys = f s.sys := rfl
@[simp] theorem State.updSys_mbx (f : Sys → Sys) : (s.updSys f).mbx = s.mbx := rfl
@[simp] theorem State.updSys_nmc (f : Sys → Sys) : (s.updSys f).nmc = s.nmc := rfl
@[simp] theorem State.updSys_gens (f : Sys → Sys) : (s.updSys f).gens = s.gens := rfl
@[simp] theorem State.updSys_objs (f : Sys → Sys) : (s.updSys f).objs = s.objs := rfl
@[simp] theorem State.updSys_used (f : Sys → Sys) : (s.updSys f).used = s.used := rfl
@[simp] theorem State.updSys_awaiting (f : Sys → Sys) : (s.updSys f).awaiting = s.awaiting := rfl
@[simp] theorem State.updSys_sched (f : Sys → Sys) : (s.updSys f).sched = s.sched := rfl
@[simp] theorem State.updSys_matrix (f : Sys → Sys) : (s.updSys f).matrix = s.matrix := rfl
@[simp] theorem State.updSys_audio (f : Sys → Sys) : (s.updSys f).audio = s.audio := rfl
@[simp] theorem State.updSys_garnet (f : Sys → Sys) : (s.updSys f).garnet = s.garnet := rfl
@[simp] theorem State.updSys_work (f : Sys → Sys) : (s.updSys f).work = s.work := rfl
@[simp] theorem State.updSys_objCtr (f : Sys → Sys) : (s.updSys f).objCtr = s.objCtr := rfl
@[simp] theorem State.updSys_video (f : Sys → Sys) : (s.updSys f).video = s.video := rfl
@[simp] theorem State.updSys_net (f : Sys → Sys) : (s.updSys f).net = s.net := rfl
@[simp] theorem State.updSys_egress (f : Sys → Sys) : (s.updSys f).egress = s.egress := rfl
@[simp] theorem State.updSys_onyx (f : Sys → Sys) : (s.updSys f).onyx = s.onyx := rfl
@[simp] theorem State.updSys_recorder (f : Sys → Sys) : (s.updSys f).recorder = s.recorder := rfl
@[simp] theorem State.updSys_mem (f : Sys → Sys) : (s.updSys f).mem = s.mem := rfl
@[simp] theorem State.updSys_quartz (f : Sys → Sys) : (s.updSys f).quartz = s.quartz := rfl
@[simp] theorem State.updSys_framer (f : Sys → Sys) : (s.updSys f).framer = s.framer := rfl
@[simp] theorem State.updSys_cascade (f : Sys → Sys) : (s.updSys f).cascade = s.cascade := rfl
@[simp] theorem State.updSys_trio (f : Sys → Sys) : (s.updSys f).trio = s.trio := rfl
@[simp] theorem State.updSys_crc (f : Sys → Sys) : (s.updSys f).crc = s.crc := rfl
@[simp] theorem State.updSys_pwr (f : Sys → Sys) : (s.updSys f).pwr = s.pwr := rfl
@[simp] theorem State.updSys_rails (f : Sys → Sys) : (s.updSys f).rails = s.rails := rfl
@[simp] theorem State.updSys_nvm (f : Sys → Sys) : (s.updSys f).nvm = s.nvm := rfl
@[simp] theorem State.updSys_rst (f : Sys → Sys) : (s.updSys f).rst = s.rst := rfl
@[simp] theorem State.updSys_retained (f : Sys → Sys) : (s.updSys f).retained = s.retained := rfl
@[simp] theorem State.updSys_bkp (f : Sys → Sys) : (s.updSys f).bkp = s.bkp := rfl
@[simp] theorem State.updSys_flash (f : Sys → Sys) : (s.updSys f).flash = s.flash := rfl
@[simp] theorem State.updSys_aonBase (f : Sys → Sys) : (s.updSys f).aonBase = s.aonBase := rfl
@[simp] theorem State.updSys_pins (f : Sys → Sys) : (s.updSys f).pins = s.pins := rfl

/-! `updPwr` changes `pwr` alone. -/

@[simp] theorem State.updPwr_now (f : Power → Power) : (s.updPwr f).now = s.now := rfl
@[simp] theorem State.updPwr_nowFrac (f : Power → Power) : (s.updPwr f).nowFrac = s.nowFrac := rfl
@[simp] theorem State.updPwr_pending (f : Power → Power) : (s.updPwr f).pending = s.pending := rfl
@[simp] theorem State.updPwr_out (f : Power → Power) : (s.updPwr f).out = s.out := rfl
@[simp] theorem State.updPwr_fresh (f : Power → Power) : (s.updPwr f).fresh = s.fresh := rfl
@[simp] theorem State.updPwr_sys (f : Power → Power) : (s.updPwr f).sys = s.sys := rfl
@[simp] theorem State.updPwr_mbx (f : Power → Power) : (s.updPwr f).mbx = s.mbx := rfl
@[simp] theorem State.updPwr_nmc (f : Power → Power) : (s.updPwr f).nmc = s.nmc := rfl
@[simp] theorem State.updPwr_gens (f : Power → Power) : (s.updPwr f).gens = s.gens := rfl
@[simp] theorem State.updPwr_objs (f : Power → Power) : (s.updPwr f).objs = s.objs := rfl
@[simp] theorem State.updPwr_used (f : Power → Power) : (s.updPwr f).used = s.used := rfl
@[simp] theorem State.updPwr_awaiting (f : Power → Power) : (s.updPwr f).awaiting = s.awaiting := rfl
@[simp] theorem State.updPwr_sched (f : Power → Power) : (s.updPwr f).sched = s.sched := rfl
@[simp] theorem State.updPwr_matrix (f : Power → Power) : (s.updPwr f).matrix = s.matrix := rfl
@[simp] theorem State.updPwr_audio (f : Power → Power) : (s.updPwr f).audio = s.audio := rfl
@[simp] theorem State.updPwr_garnet (f : Power → Power) : (s.updPwr f).garnet = s.garnet := rfl
@[simp] theorem State.updPwr_work (f : Power → Power) : (s.updPwr f).work = s.work := rfl
@[simp] theorem State.updPwr_objCtr (f : Power → Power) : (s.updPwr f).objCtr = s.objCtr := rfl
@[simp] theorem State.updPwr_video (f : Power → Power) : (s.updPwr f).video = s.video := rfl
@[simp] theorem State.updPwr_net (f : Power → Power) : (s.updPwr f).net = s.net := rfl
@[simp] theorem State.updPwr_egress (f : Power → Power) : (s.updPwr f).egress = s.egress := rfl
@[simp] theorem State.updPwr_onyx (f : Power → Power) : (s.updPwr f).onyx = s.onyx := rfl
@[simp] theorem State.updPwr_recorder (f : Power → Power) : (s.updPwr f).recorder = s.recorder := rfl
@[simp] theorem State.updPwr_mem (f : Power → Power) : (s.updPwr f).mem = s.mem := rfl
@[simp] theorem State.updPwr_quartz (f : Power → Power) : (s.updPwr f).quartz = s.quartz := rfl
@[simp] theorem State.updPwr_framer (f : Power → Power) : (s.updPwr f).framer = s.framer := rfl
@[simp] theorem State.updPwr_cascade (f : Power → Power) : (s.updPwr f).cascade = s.cascade := rfl
@[simp] theorem State.updPwr_trio (f : Power → Power) : (s.updPwr f).trio = s.trio := rfl
@[simp] theorem State.updPwr_crc (f : Power → Power) : (s.updPwr f).crc = s.crc := rfl
@[simp] theorem State.updPwr_pwr (f : Power → Power) : (s.updPwr f).pwr = f s.pwr := rfl
@[simp] theorem State.updPwr_rails (f : Power → Power) : (s.updPwr f).rails = s.rails := rfl
@[simp] theorem State.updPwr_nvm (f : Power → Power) : (s.updPwr f).nvm = s.nvm := rfl
@[simp] theorem State.updPwr_rst (f : Power → Power) : (s.updPwr f).rst = s.rst := rfl
@[simp] theorem State.updPwr_retained (f : Power → Power) : (s.updPwr f).retained = s.retained := rfl
@[simp] theorem State.updPwr_bkp (f : Power → Power) : (s.updPwr f).bkp = s.bkp := rfl
@[simp] theorem State.updPwr_flash (f : Power → Power) : (s.updPwr f).flash = s.flash := rfl
@[simp] theorem State.updPwr_aonBase (f : Power → Power) : (s.updPwr f).aonBase = s.aonBase := rfl
@[simp] theorem State.updPwr_pins (f : Power → Power) : (s.updPwr f).pins = s.pins := rfl

/-! `updRails` changes `rails` alone. -/

@[simp] theorem State.updRails_now (f : Rails → Rails) : (s.updRails f).now = s.now := rfl
@[simp] theorem State.updRails_nowFrac (f : Rails → Rails) : (s.updRails f).nowFrac = s.nowFrac := rfl
@[simp] theorem State.updRails_pending (f : Rails → Rails) : (s.updRails f).pending = s.pending := rfl
@[simp] theorem State.updRails_out (f : Rails → Rails) : (s.updRails f).out = s.out := rfl
@[simp] theorem State.updRails_fresh (f : Rails → Rails) : (s.updRails f).fresh = s.fresh := rfl
@[simp] theorem State.updRails_sys (f : Rails → Rails) : (s.updRails f).sys = s.sys := rfl
@[simp] theorem State.updRails_mbx (f : Rails → Rails) : (s.updRails f).mbx = s.mbx := rfl
@[simp] theorem State.updRails_nmc (f : Rails → Rails) : (s.updRails f).nmc = s.nmc := rfl
@[simp] theorem State.updRails_gens (f : Rails → Rails) : (s.updRails f).gens = s.gens := rfl
@[simp] theorem State.updRails_objs (f : Rails → Rails) : (s.updRails f).objs = s.objs := rfl
@[simp] theorem State.updRails_used (f : Rails → Rails) : (s.updRails f).used = s.used := rfl
@[simp] theorem State.updRails_awaiting (f : Rails → Rails) : (s.updRails f).awaiting = s.awaiting := rfl
@[simp] theorem State.updRails_sched (f : Rails → Rails) : (s.updRails f).sched = s.sched := rfl
@[simp] theorem State.updRails_matrix (f : Rails → Rails) : (s.updRails f).matrix = s.matrix := rfl
@[simp] theorem State.updRails_audio (f : Rails → Rails) : (s.updRails f).audio = s.audio := rfl
@[simp] theorem State.updRails_garnet (f : Rails → Rails) : (s.updRails f).garnet = s.garnet := rfl
@[simp] theorem State.updRails_work (f : Rails → Rails) : (s.updRails f).work = s.work := rfl
@[simp] theorem State.updRails_objCtr (f : Rails → Rails) : (s.updRails f).objCtr = s.objCtr := rfl
@[simp] theorem State.updRails_video (f : Rails → Rails) : (s.updRails f).video = s.video := rfl
@[simp] theorem State.updRails_net (f : Rails → Rails) : (s.updRails f).net = s.net := rfl
@[simp] theorem State.updRails_egress (f : Rails → Rails) : (s.updRails f).egress = s.egress := rfl
@[simp] theorem State.updRails_onyx (f : Rails → Rails) : (s.updRails f).onyx = s.onyx := rfl
@[simp] theorem State.updRails_recorder (f : Rails → Rails) : (s.updRails f).recorder = s.recorder := rfl
@[simp] theorem State.updRails_mem (f : Rails → Rails) : (s.updRails f).mem = s.mem := rfl
@[simp] theorem State.updRails_quartz (f : Rails → Rails) : (s.updRails f).quartz = s.quartz := rfl
@[simp] theorem State.updRails_framer (f : Rails → Rails) : (s.updRails f).framer = s.framer := rfl
@[simp] theorem State.updRails_cascade (f : Rails → Rails) : (s.updRails f).cascade = s.cascade := rfl
@[simp] theorem State.updRails_trio (f : Rails → Rails) : (s.updRails f).trio = s.trio := rfl
@[simp] theorem State.updRails_crc (f : Rails → Rails) : (s.updRails f).crc = s.crc := rfl
@[simp] theorem State.updRails_pwr (f : Rails → Rails) : (s.updRails f).pwr = s.pwr := rfl
@[simp] theorem State.updRails_rails (f : Rails → Rails) : (s.updRails f).rails = f s.rails := rfl
@[simp] theorem State.updRails_nvm (f : Rails → Rails) : (s.updRails f).nvm = s.nvm := rfl
@[simp] theorem State.updRails_rst (f : Rails → Rails) : (s.updRails f).rst = s.rst := rfl
@[simp] theorem State.updRails_retained (f : Rails → Rails) : (s.updRails f).retained = s.retained := rfl
@[simp] theorem State.updRails_bkp (f : Rails → Rails) : (s.updRails f).bkp = s.bkp := rfl
@[simp] theorem State.updRails_flash (f : Rails → Rails) : (s.updRails f).flash = s.flash := rfl
@[simp] theorem State.updRails_aonBase (f : Rails → Rails) : (s.updRails f).aonBase = s.aonBase := rfl
@[simp] theorem State.updRails_pins (f : Rails → Rails) : (s.updRails f).pins = s.pins := rfl

/-! `updMatrix` changes `matrix` alone. -/

@[simp] theorem State.updMatrix_now (f : Matrix → Matrix) : (s.updMatrix f).now = s.now := rfl
@[simp] theorem State.updMatrix_nowFrac (f : Matrix → Matrix) : (s.updMatrix f).nowFrac = s.nowFrac := rfl
@[simp] theorem State.updMatrix_pending (f : Matrix → Matrix) : (s.updMatrix f).pending = s.pending := rfl
@[simp] theorem State.updMatrix_out (f : Matrix → Matrix) : (s.updMatrix f).out = s.out := rfl
@[simp] theorem State.updMatrix_fresh (f : Matrix → Matrix) : (s.updMatrix f).fresh = s.fresh := rfl
@[simp] theorem State.updMatrix_sys (f : Matrix → Matrix) : (s.updMatrix f).sys = s.sys := rfl
@[simp] theorem State.updMatrix_mbx (f : Matrix → Matrix) : (s.updMatrix f).mbx = s.mbx := rfl
@[simp] theorem State.updMatrix_nmc (f : Matrix → Matrix) : (s.updMatrix f).nmc = s.nmc := rfl
@[simp] theorem State.updMatrix_gens (f : Matrix → Matrix) : (s.updMatrix f).gens = s.gens := rfl
@[simp] theorem State.updMatrix_objs (f : Matrix → Matrix) : (s.updMatrix f).objs = s.objs := rfl
@[simp] theorem State.updMatrix_used (f : Matrix → Matrix) : (s.updMatrix f).used = s.used := rfl
@[simp] theorem State.updMatrix_awaiting (f : Matrix → Matrix) : (s.updMatrix f).awaiting = s.awaiting := rfl
@[simp] theorem State.updMatrix_sched (f : Matrix → Matrix) : (s.updMatrix f).sched = s.sched := rfl
@[simp] theorem State.updMatrix_matrix (f : Matrix → Matrix) : (s.updMatrix f).matrix = f s.matrix := rfl
@[simp] theorem State.updMatrix_audio (f : Matrix → Matrix) : (s.updMatrix f).audio = s.audio := rfl
@[simp] theorem State.updMatrix_garnet (f : Matrix → Matrix) : (s.updMatrix f).garnet = s.garnet := rfl
@[simp] theorem State.updMatrix_work (f : Matrix → Matrix) : (s.updMatrix f).work = s.work := rfl
@[simp] theorem State.updMatrix_objCtr (f : Matrix → Matrix) : (s.updMatrix f).objCtr = s.objCtr := rfl
@[simp] theorem State.updMatrix_video (f : Matrix → Matrix) : (s.updMatrix f).video = s.video := rfl
@[simp] theorem State.updMatrix_net (f : Matrix → Matrix) : (s.updMatrix f).net = s.net := rfl
@[simp] theorem State.updMatrix_egress (f : Matrix → Matrix) : (s.updMatrix f).egress = s.egress := rfl
@[simp] theorem State.updMatrix_onyx (f : Matrix → Matrix) : (s.updMatrix f).onyx = s.onyx := rfl
@[simp] theorem State.updMatrix_recorder (f : Matrix → Matrix) : (s.updMatrix f).recorder = s.recorder := rfl
@[simp] theorem State.updMatrix_mem (f : Matrix → Matrix) : (s.updMatrix f).mem = s.mem := rfl
@[simp] theorem State.updMatrix_quartz (f : Matrix → Matrix) : (s.updMatrix f).quartz = s.quartz := rfl
@[simp] theorem State.updMatrix_framer (f : Matrix → Matrix) : (s.updMatrix f).framer = s.framer := rfl
@[simp] theorem State.updMatrix_cascade (f : Matrix → Matrix) : (s.updMatrix f).cascade = s.cascade := rfl
@[simp] theorem State.updMatrix_trio (f : Matrix → Matrix) : (s.updMatrix f).trio = s.trio := rfl
@[simp] theorem State.updMatrix_crc (f : Matrix → Matrix) : (s.updMatrix f).crc = s.crc := rfl
@[simp] theorem State.updMatrix_pwr (f : Matrix → Matrix) : (s.updMatrix f).pwr = s.pwr := rfl
@[simp] theorem State.updMatrix_rails (f : Matrix → Matrix) : (s.updMatrix f).rails = s.rails := rfl
@[simp] theorem State.updMatrix_nvm (f : Matrix → Matrix) : (s.updMatrix f).nvm = s.nvm := rfl
@[simp] theorem State.updMatrix_rst (f : Matrix → Matrix) : (s.updMatrix f).rst = s.rst := rfl
@[simp] theorem State.updMatrix_retained (f : Matrix → Matrix) : (s.updMatrix f).retained = s.retained := rfl
@[simp] theorem State.updMatrix_bkp (f : Matrix → Matrix) : (s.updMatrix f).bkp = s.bkp := rfl
@[simp] theorem State.updMatrix_flash (f : Matrix → Matrix) : (s.updMatrix f).flash = s.flash := rfl
@[simp] theorem State.updMatrix_aonBase (f : Matrix → Matrix) : (s.updMatrix f).aonBase = s.aonBase := rfl
@[simp] theorem State.updMatrix_pins (f : Matrix → Matrix) : (s.updMatrix f).pins = s.pins := rfl

/-! `updMem` changes `mem` alone. -/

@[simp] theorem State.updMem_now (f : Mem → Mem) : (s.updMem f).now = s.now := rfl
@[simp] theorem State.updMem_nowFrac (f : Mem → Mem) : (s.updMem f).nowFrac = s.nowFrac := rfl
@[simp] theorem State.updMem_pending (f : Mem → Mem) : (s.updMem f).pending = s.pending := rfl
@[simp] theorem State.updMem_out (f : Mem → Mem) : (s.updMem f).out = s.out := rfl
@[simp] theorem State.updMem_fresh (f : Mem → Mem) : (s.updMem f).fresh = s.fresh := rfl
@[simp] theorem State.updMem_sys (f : Mem → Mem) : (s.updMem f).sys = s.sys := rfl
@[simp] theorem State.updMem_mbx (f : Mem → Mem) : (s.updMem f).mbx = s.mbx := rfl
@[simp] theorem State.updMem_nmc (f : Mem → Mem) : (s.updMem f).nmc = s.nmc := rfl
@[simp] theorem State.updMem_gens (f : Mem → Mem) : (s.updMem f).gens = s.gens := rfl
@[simp] theorem State.updMem_objs (f : Mem → Mem) : (s.updMem f).objs = s.objs := rfl
@[simp] theorem State.updMem_used (f : Mem → Mem) : (s.updMem f).used = s.used := rfl
@[simp] theorem State.updMem_awaiting (f : Mem → Mem) : (s.updMem f).awaiting = s.awaiting := rfl
@[simp] theorem State.updMem_sched (f : Mem → Mem) : (s.updMem f).sched = s.sched := rfl
@[simp] theorem State.updMem_matrix (f : Mem → Mem) : (s.updMem f).matrix = s.matrix := rfl
@[simp] theorem State.updMem_audio (f : Mem → Mem) : (s.updMem f).audio = s.audio := rfl
@[simp] theorem State.updMem_garnet (f : Mem → Mem) : (s.updMem f).garnet = s.garnet := rfl
@[simp] theorem State.updMem_work (f : Mem → Mem) : (s.updMem f).work = s.work := rfl
@[simp] theorem State.updMem_objCtr (f : Mem → Mem) : (s.updMem f).objCtr = s.objCtr := rfl
@[simp] theorem State.updMem_video (f : Mem → Mem) : (s.updMem f).video = s.video := rfl
@[simp] theorem State.updMem_net (f : Mem → Mem) : (s.updMem f).net = s.net := rfl
@[simp] theorem State.updMem_egress (f : Mem → Mem) : (s.updMem f).egress = s.egress := rfl
@[simp] theorem State.updMem_onyx (f : Mem → Mem) : (s.updMem f).onyx = s.onyx := rfl
@[simp] theorem State.updMem_recorder (f : Mem → Mem) : (s.updMem f).recorder = s.recorder := rfl
@[simp] theorem State.updMem_mem (f : Mem → Mem) : (s.updMem f).mem = f s.mem := rfl
@[simp] theorem State.updMem_quartz (f : Mem → Mem) : (s.updMem f).quartz = s.quartz := rfl
@[simp] theorem State.updMem_framer (f : Mem → Mem) : (s.updMem f).framer = s.framer := rfl
@[simp] theorem State.updMem_cascade (f : Mem → Mem) : (s.updMem f).cascade = s.cascade := rfl
@[simp] theorem State.updMem_trio (f : Mem → Mem) : (s.updMem f).trio = s.trio := rfl
@[simp] theorem State.updMem_crc (f : Mem → Mem) : (s.updMem f).crc = s.crc := rfl
@[simp] theorem State.updMem_pwr (f : Mem → Mem) : (s.updMem f).pwr = s.pwr := rfl
@[simp] theorem State.updMem_rails (f : Mem → Mem) : (s.updMem f).rails = s.rails := rfl
@[simp] theorem State.updMem_nvm (f : Mem → Mem) : (s.updMem f).nvm = s.nvm := rfl
@[simp] theorem State.updMem_rst (f : Mem → Mem) : (s.updMem f).rst = s.rst := rfl
@[simp] theorem State.updMem_retained (f : Mem → Mem) : (s.updMem f).retained = s.retained := rfl
@[simp] theorem State.updMem_bkp (f : Mem → Mem) : (s.updMem f).bkp = s.bkp := rfl
@[simp] theorem State.updMem_flash (f : Mem → Mem) : (s.updMem f).flash = s.flash := rfl
@[simp] theorem State.updMem_aonBase (f : Mem → Mem) : (s.updMem f).aonBase = s.aonBase := rfl
@[simp] theorem State.updMem_pins (f : Mem → Mem) : (s.updMem f).pins = s.pins := rfl

/-! `updOnyx` changes `onyx` alone. -/

@[simp] theorem State.updOnyx_now (f : Onyx → Onyx) : (s.updOnyx f).now = s.now := rfl
@[simp] theorem State.updOnyx_nowFrac (f : Onyx → Onyx) : (s.updOnyx f).nowFrac = s.nowFrac := rfl
@[simp] theorem State.updOnyx_pending (f : Onyx → Onyx) : (s.updOnyx f).pending = s.pending := rfl
@[simp] theorem State.updOnyx_out (f : Onyx → Onyx) : (s.updOnyx f).out = s.out := rfl
@[simp] theorem State.updOnyx_fresh (f : Onyx → Onyx) : (s.updOnyx f).fresh = s.fresh := rfl
@[simp] theorem State.updOnyx_sys (f : Onyx → Onyx) : (s.updOnyx f).sys = s.sys := rfl
@[simp] theorem State.updOnyx_mbx (f : Onyx → Onyx) : (s.updOnyx f).mbx = s.mbx := rfl
@[simp] theorem State.updOnyx_nmc (f : Onyx → Onyx) : (s.updOnyx f).nmc = s.nmc := rfl
@[simp] theorem State.updOnyx_gens (f : Onyx → Onyx) : (s.updOnyx f).gens = s.gens := rfl
@[simp] theorem State.updOnyx_objs (f : Onyx → Onyx) : (s.updOnyx f).objs = s.objs := rfl
@[simp] theorem State.updOnyx_used (f : Onyx → Onyx) : (s.updOnyx f).used = s.used := rfl
@[simp] theorem State.updOnyx_awaiting (f : Onyx → Onyx) : (s.updOnyx f).awaiting = s.awaiting := rfl
@[simp] theorem State.updOnyx_sched (f : Onyx → Onyx) : (s.updOnyx f).sched = s.sched := rfl
@[simp] theorem State.updOnyx_matrix (f : Onyx → Onyx) : (s.updOnyx f).matrix = s.matrix := rfl
@[simp] theorem State.updOnyx_audio (f : Onyx → Onyx) : (s.updOnyx f).audio = s.audio := rfl
@[simp] theorem State.updOnyx_garnet (f : Onyx → Onyx) : (s.updOnyx f).garnet = s.garnet := rfl
@[simp] theorem State.updOnyx_work (f : Onyx → Onyx) : (s.updOnyx f).work = s.work := rfl
@[simp] theorem State.updOnyx_objCtr (f : Onyx → Onyx) : (s.updOnyx f).objCtr = s.objCtr := rfl
@[simp] theorem State.updOnyx_video (f : Onyx → Onyx) : (s.updOnyx f).video = s.video := rfl
@[simp] theorem State.updOnyx_net (f : Onyx → Onyx) : (s.updOnyx f).net = s.net := rfl
@[simp] theorem State.updOnyx_egress (f : Onyx → Onyx) : (s.updOnyx f).egress = s.egress := rfl
@[simp] theorem State.updOnyx_onyx (f : Onyx → Onyx) : (s.updOnyx f).onyx = f s.onyx := rfl
@[simp] theorem State.updOnyx_recorder (f : Onyx → Onyx) : (s.updOnyx f).recorder = s.recorder := rfl
@[simp] theorem State.updOnyx_mem (f : Onyx → Onyx) : (s.updOnyx f).mem = s.mem := rfl
@[simp] theorem State.updOnyx_quartz (f : Onyx → Onyx) : (s.updOnyx f).quartz = s.quartz := rfl
@[simp] theorem State.updOnyx_framer (f : Onyx → Onyx) : (s.updOnyx f).framer = s.framer := rfl
@[simp] theorem State.updOnyx_cascade (f : Onyx → Onyx) : (s.updOnyx f).cascade = s.cascade := rfl
@[simp] theorem State.updOnyx_trio (f : Onyx → Onyx) : (s.updOnyx f).trio = s.trio := rfl
@[simp] theorem State.updOnyx_crc (f : Onyx → Onyx) : (s.updOnyx f).crc = s.crc := rfl
@[simp] theorem State.updOnyx_pwr (f : Onyx → Onyx) : (s.updOnyx f).pwr = s.pwr := rfl
@[simp] theorem State.updOnyx_rails (f : Onyx → Onyx) : (s.updOnyx f).rails = s.rails := rfl
@[simp] theorem State.updOnyx_nvm (f : Onyx → Onyx) : (s.updOnyx f).nvm = s.nvm := rfl
@[simp] theorem State.updOnyx_rst (f : Onyx → Onyx) : (s.updOnyx f).rst = s.rst := rfl
@[simp] theorem State.updOnyx_retained (f : Onyx → Onyx) : (s.updOnyx f).retained = s.retained := rfl
@[simp] theorem State.updOnyx_bkp (f : Onyx → Onyx) : (s.updOnyx f).bkp = s.bkp := rfl
@[simp] theorem State.updOnyx_flash (f : Onyx → Onyx) : (s.updOnyx f).flash = s.flash := rfl
@[simp] theorem State.updOnyx_aonBase (f : Onyx → Onyx) : (s.updOnyx f).aonBase = s.aonBase := rfl
@[simp] theorem State.updOnyx_pins (f : Onyx → Onyx) : (s.updOnyx f).pins = s.pins := rfl

/-! `updNet` changes `net` alone. -/

@[simp] theorem State.updNet_now (f : Net → Net) : (s.updNet f).now = s.now := rfl
@[simp] theorem State.updNet_nowFrac (f : Net → Net) : (s.updNet f).nowFrac = s.nowFrac := rfl
@[simp] theorem State.updNet_pending (f : Net → Net) : (s.updNet f).pending = s.pending := rfl
@[simp] theorem State.updNet_out (f : Net → Net) : (s.updNet f).out = s.out := rfl
@[simp] theorem State.updNet_fresh (f : Net → Net) : (s.updNet f).fresh = s.fresh := rfl
@[simp] theorem State.updNet_sys (f : Net → Net) : (s.updNet f).sys = s.sys := rfl
@[simp] theorem State.updNet_mbx (f : Net → Net) : (s.updNet f).mbx = s.mbx := rfl
@[simp] theorem State.updNet_nmc (f : Net → Net) : (s.updNet f).nmc = s.nmc := rfl
@[simp] theorem State.updNet_gens (f : Net → Net) : (s.updNet f).gens = s.gens := rfl
@[simp] theorem State.updNet_objs (f : Net → Net) : (s.updNet f).objs = s.objs := rfl
@[simp] theorem State.updNet_used (f : Net → Net) : (s.updNet f).used = s.used := rfl
@[simp] theorem State.updNet_awaiting (f : Net → Net) : (s.updNet f).awaiting = s.awaiting := rfl
@[simp] theorem State.updNet_sched (f : Net → Net) : (s.updNet f).sched = s.sched := rfl
@[simp] theorem State.updNet_matrix (f : Net → Net) : (s.updNet f).matrix = s.matrix := rfl
@[simp] theorem State.updNet_audio (f : Net → Net) : (s.updNet f).audio = s.audio := rfl
@[simp] theorem State.updNet_garnet (f : Net → Net) : (s.updNet f).garnet = s.garnet := rfl
@[simp] theorem State.updNet_work (f : Net → Net) : (s.updNet f).work = s.work := rfl
@[simp] theorem State.updNet_objCtr (f : Net → Net) : (s.updNet f).objCtr = s.objCtr := rfl
@[simp] theorem State.updNet_video (f : Net → Net) : (s.updNet f).video = s.video := rfl
@[simp] theorem State.updNet_net (f : Net → Net) : (s.updNet f).net = f s.net := rfl
@[simp] theorem State.updNet_egress (f : Net → Net) : (s.updNet f).egress = s.egress := rfl
@[simp] theorem State.updNet_onyx (f : Net → Net) : (s.updNet f).onyx = s.onyx := rfl
@[simp] theorem State.updNet_recorder (f : Net → Net) : (s.updNet f).recorder = s.recorder := rfl
@[simp] theorem State.updNet_mem (f : Net → Net) : (s.updNet f).mem = s.mem := rfl
@[simp] theorem State.updNet_quartz (f : Net → Net) : (s.updNet f).quartz = s.quartz := rfl
@[simp] theorem State.updNet_framer (f : Net → Net) : (s.updNet f).framer = s.framer := rfl
@[simp] theorem State.updNet_cascade (f : Net → Net) : (s.updNet f).cascade = s.cascade := rfl
@[simp] theorem State.updNet_trio (f : Net → Net) : (s.updNet f).trio = s.trio := rfl
@[simp] theorem State.updNet_crc (f : Net → Net) : (s.updNet f).crc = s.crc := rfl
@[simp] theorem State.updNet_pwr (f : Net → Net) : (s.updNet f).pwr = s.pwr := rfl
@[simp] theorem State.updNet_rails (f : Net → Net) : (s.updNet f).rails = s.rails := rfl
@[simp] theorem State.updNet_nvm (f : Net → Net) : (s.updNet f).nvm = s.nvm := rfl
@[simp] theorem State.updNet_rst (f : Net → Net) : (s.updNet f).rst = s.rst := rfl
@[simp] theorem State.updNet_retained (f : Net → Net) : (s.updNet f).retained = s.retained := rfl
@[simp] theorem State.updNet_bkp (f : Net → Net) : (s.updNet f).bkp = s.bkp := rfl
@[simp] theorem State.updNet_flash (f : Net → Net) : (s.updNet f).flash = s.flash := rfl
@[simp] theorem State.updNet_aonBase (f : Net → Net) : (s.updNet f).aonBase = s.aonBase := rfl
@[simp] theorem State.updNet_pins (f : Net → Net) : (s.updNet f).pins = s.pins := rfl

/-! `updQuartz` changes `quartz` alone. -/

@[simp] theorem State.updQuartz_now (f : Quartz → Quartz) : (s.updQuartz f).now = s.now := rfl
@[simp] theorem State.updQuartz_nowFrac (f : Quartz → Quartz) : (s.updQuartz f).nowFrac = s.nowFrac := rfl
@[simp] theorem State.updQuartz_pending (f : Quartz → Quartz) : (s.updQuartz f).pending = s.pending := rfl
@[simp] theorem State.updQuartz_out (f : Quartz → Quartz) : (s.updQuartz f).out = s.out := rfl
@[simp] theorem State.updQuartz_fresh (f : Quartz → Quartz) : (s.updQuartz f).fresh = s.fresh := rfl
@[simp] theorem State.updQuartz_sys (f : Quartz → Quartz) : (s.updQuartz f).sys = s.sys := rfl
@[simp] theorem State.updQuartz_mbx (f : Quartz → Quartz) : (s.updQuartz f).mbx = s.mbx := rfl
@[simp] theorem State.updQuartz_nmc (f : Quartz → Quartz) : (s.updQuartz f).nmc = s.nmc := rfl
@[simp] theorem State.updQuartz_gens (f : Quartz → Quartz) : (s.updQuartz f).gens = s.gens := rfl
@[simp] theorem State.updQuartz_objs (f : Quartz → Quartz) : (s.updQuartz f).objs = s.objs := rfl
@[simp] theorem State.updQuartz_used (f : Quartz → Quartz) : (s.updQuartz f).used = s.used := rfl
@[simp] theorem State.updQuartz_awaiting (f : Quartz → Quartz) : (s.updQuartz f).awaiting = s.awaiting := rfl
@[simp] theorem State.updQuartz_sched (f : Quartz → Quartz) : (s.updQuartz f).sched = s.sched := rfl
@[simp] theorem State.updQuartz_matrix (f : Quartz → Quartz) : (s.updQuartz f).matrix = s.matrix := rfl
@[simp] theorem State.updQuartz_audio (f : Quartz → Quartz) : (s.updQuartz f).audio = s.audio := rfl
@[simp] theorem State.updQuartz_garnet (f : Quartz → Quartz) : (s.updQuartz f).garnet = s.garnet := rfl
@[simp] theorem State.updQuartz_work (f : Quartz → Quartz) : (s.updQuartz f).work = s.work := rfl
@[simp] theorem State.updQuartz_objCtr (f : Quartz → Quartz) : (s.updQuartz f).objCtr = s.objCtr := rfl
@[simp] theorem State.updQuartz_video (f : Quartz → Quartz) : (s.updQuartz f).video = s.video := rfl
@[simp] theorem State.updQuartz_net (f : Quartz → Quartz) : (s.updQuartz f).net = s.net := rfl
@[simp] theorem State.updQuartz_egress (f : Quartz → Quartz) : (s.updQuartz f).egress = s.egress := rfl
@[simp] theorem State.updQuartz_onyx (f : Quartz → Quartz) : (s.updQuartz f).onyx = s.onyx := rfl
@[simp] theorem State.updQuartz_recorder (f : Quartz → Quartz) : (s.updQuartz f).recorder = s.recorder := rfl
@[simp] theorem State.updQuartz_mem (f : Quartz → Quartz) : (s.updQuartz f).mem = s.mem := rfl
@[simp] theorem State.updQuartz_quartz (f : Quartz → Quartz) : (s.updQuartz f).quartz = f s.quartz := rfl
@[simp] theorem State.updQuartz_framer (f : Quartz → Quartz) : (s.updQuartz f).framer = s.framer := rfl
@[simp] theorem State.updQuartz_cascade (f : Quartz → Quartz) : (s.updQuartz f).cascade = s.cascade := rfl
@[simp] theorem State.updQuartz_trio (f : Quartz → Quartz) : (s.updQuartz f).trio = s.trio := rfl
@[simp] theorem State.updQuartz_crc (f : Quartz → Quartz) : (s.updQuartz f).crc = s.crc := rfl
@[simp] theorem State.updQuartz_pwr (f : Quartz → Quartz) : (s.updQuartz f).pwr = s.pwr := rfl
@[simp] theorem State.updQuartz_rails (f : Quartz → Quartz) : (s.updQuartz f).rails = s.rails := rfl
@[simp] theorem State.updQuartz_nvm (f : Quartz → Quartz) : (s.updQuartz f).nvm = s.nvm := rfl
@[simp] theorem State.updQuartz_rst (f : Quartz → Quartz) : (s.updQuartz f).rst = s.rst := rfl
@[simp] theorem State.updQuartz_retained (f : Quartz → Quartz) : (s.updQuartz f).retained = s.retained := rfl
@[simp] theorem State.updQuartz_bkp (f : Quartz → Quartz) : (s.updQuartz f).bkp = s.bkp := rfl
@[simp] theorem State.updQuartz_flash (f : Quartz → Quartz) : (s.updQuartz f).flash = s.flash := rfl
@[simp] theorem State.updQuartz_aonBase (f : Quartz → Quartz) : (s.updQuartz f).aonBase = s.aonBase := rfl
@[simp] theorem State.updQuartz_pins (f : Quartz → Quartz) : (s.updQuartz f).pins = s.pins := rfl

/-! `updRec` changes `recorder` alone. -/

@[simp] theorem State.updRec_now (f : Recorder → Recorder) : (s.updRec f).now = s.now := rfl
@[simp] theorem State.updRec_nowFrac (f : Recorder → Recorder) : (s.updRec f).nowFrac = s.nowFrac := rfl
@[simp] theorem State.updRec_pending (f : Recorder → Recorder) : (s.updRec f).pending = s.pending := rfl
@[simp] theorem State.updRec_out (f : Recorder → Recorder) : (s.updRec f).out = s.out := rfl
@[simp] theorem State.updRec_fresh (f : Recorder → Recorder) : (s.updRec f).fresh = s.fresh := rfl
@[simp] theorem State.updRec_sys (f : Recorder → Recorder) : (s.updRec f).sys = s.sys := rfl
@[simp] theorem State.updRec_mbx (f : Recorder → Recorder) : (s.updRec f).mbx = s.mbx := rfl
@[simp] theorem State.updRec_nmc (f : Recorder → Recorder) : (s.updRec f).nmc = s.nmc := rfl
@[simp] theorem State.updRec_gens (f : Recorder → Recorder) : (s.updRec f).gens = s.gens := rfl
@[simp] theorem State.updRec_objs (f : Recorder → Recorder) : (s.updRec f).objs = s.objs := rfl
@[simp] theorem State.updRec_used (f : Recorder → Recorder) : (s.updRec f).used = s.used := rfl
@[simp] theorem State.updRec_awaiting (f : Recorder → Recorder) : (s.updRec f).awaiting = s.awaiting := rfl
@[simp] theorem State.updRec_sched (f : Recorder → Recorder) : (s.updRec f).sched = s.sched := rfl
@[simp] theorem State.updRec_matrix (f : Recorder → Recorder) : (s.updRec f).matrix = s.matrix := rfl
@[simp] theorem State.updRec_audio (f : Recorder → Recorder) : (s.updRec f).audio = s.audio := rfl
@[simp] theorem State.updRec_garnet (f : Recorder → Recorder) : (s.updRec f).garnet = s.garnet := rfl
@[simp] theorem State.updRec_work (f : Recorder → Recorder) : (s.updRec f).work = s.work := rfl
@[simp] theorem State.updRec_objCtr (f : Recorder → Recorder) : (s.updRec f).objCtr = s.objCtr := rfl
@[simp] theorem State.updRec_video (f : Recorder → Recorder) : (s.updRec f).video = s.video := rfl
@[simp] theorem State.updRec_net (f : Recorder → Recorder) : (s.updRec f).net = s.net := rfl
@[simp] theorem State.updRec_egress (f : Recorder → Recorder) : (s.updRec f).egress = s.egress := rfl
@[simp] theorem State.updRec_onyx (f : Recorder → Recorder) : (s.updRec f).onyx = s.onyx := rfl
@[simp] theorem State.updRec_recorder (f : Recorder → Recorder) : (s.updRec f).recorder = f s.recorder := rfl
@[simp] theorem State.updRec_mem (f : Recorder → Recorder) : (s.updRec f).mem = s.mem := rfl
@[simp] theorem State.updRec_quartz (f : Recorder → Recorder) : (s.updRec f).quartz = s.quartz := rfl
@[simp] theorem State.updRec_framer (f : Recorder → Recorder) : (s.updRec f).framer = s.framer := rfl
@[simp] theorem State.updRec_cascade (f : Recorder → Recorder) : (s.updRec f).cascade = s.cascade := rfl
@[simp] theorem State.updRec_trio (f : Recorder → Recorder) : (s.updRec f).trio = s.trio := rfl
@[simp] theorem State.updRec_crc (f : Recorder → Recorder) : (s.updRec f).crc = s.crc := rfl
@[simp] theorem State.updRec_pwr (f : Recorder → Recorder) : (s.updRec f).pwr = s.pwr := rfl
@[simp] theorem State.updRec_rails (f : Recorder → Recorder) : (s.updRec f).rails = s.rails := rfl
@[simp] theorem State.updRec_nvm (f : Recorder → Recorder) : (s.updRec f).nvm = s.nvm := rfl
@[simp] theorem State.updRec_rst (f : Recorder → Recorder) : (s.updRec f).rst = s.rst := rfl
@[simp] theorem State.updRec_retained (f : Recorder → Recorder) : (s.updRec f).retained = s.retained := rfl
@[simp] theorem State.updRec_bkp (f : Recorder → Recorder) : (s.updRec f).bkp = s.bkp := rfl
@[simp] theorem State.updRec_flash (f : Recorder → Recorder) : (s.updRec f).flash = s.flash := rfl
@[simp] theorem State.updRec_aonBase (f : Recorder → Recorder) : (s.updRec f).aonBase = s.aonBase := rfl
@[simp] theorem State.updRec_pins (f : Recorder → Recorder) : (s.updRec f).pins = s.pins := rfl

/-! `updTrio` changes `trio` alone. -/

@[simp] theorem State.updTrio_now (f : Trio → Trio) : (s.updTrio f).now = s.now := rfl
@[simp] theorem State.updTrio_nowFrac (f : Trio → Trio) : (s.updTrio f).nowFrac = s.nowFrac := rfl
@[simp] theorem State.updTrio_pending (f : Trio → Trio) : (s.updTrio f).pending = s.pending := rfl
@[simp] theorem State.updTrio_out (f : Trio → Trio) : (s.updTrio f).out = s.out := rfl
@[simp] theorem State.updTrio_fresh (f : Trio → Trio) : (s.updTrio f).fresh = s.fresh := rfl
@[simp] theorem State.updTrio_sys (f : Trio → Trio) : (s.updTrio f).sys = s.sys := rfl
@[simp] theorem State.updTrio_mbx (f : Trio → Trio) : (s.updTrio f).mbx = s.mbx := rfl
@[simp] theorem State.updTrio_nmc (f : Trio → Trio) : (s.updTrio f).nmc = s.nmc := rfl
@[simp] theorem State.updTrio_gens (f : Trio → Trio) : (s.updTrio f).gens = s.gens := rfl
@[simp] theorem State.updTrio_objs (f : Trio → Trio) : (s.updTrio f).objs = s.objs := rfl
@[simp] theorem State.updTrio_used (f : Trio → Trio) : (s.updTrio f).used = s.used := rfl
@[simp] theorem State.updTrio_awaiting (f : Trio → Trio) : (s.updTrio f).awaiting = s.awaiting := rfl
@[simp] theorem State.updTrio_sched (f : Trio → Trio) : (s.updTrio f).sched = s.sched := rfl
@[simp] theorem State.updTrio_matrix (f : Trio → Trio) : (s.updTrio f).matrix = s.matrix := rfl
@[simp] theorem State.updTrio_audio (f : Trio → Trio) : (s.updTrio f).audio = s.audio := rfl
@[simp] theorem State.updTrio_garnet (f : Trio → Trio) : (s.updTrio f).garnet = s.garnet := rfl
@[simp] theorem State.updTrio_work (f : Trio → Trio) : (s.updTrio f).work = s.work := rfl
@[simp] theorem State.updTrio_objCtr (f : Trio → Trio) : (s.updTrio f).objCtr = s.objCtr := rfl
@[simp] theorem State.updTrio_video (f : Trio → Trio) : (s.updTrio f).video = s.video := rfl
@[simp] theorem State.updTrio_net (f : Trio → Trio) : (s.updTrio f).net = s.net := rfl
@[simp] theorem State.updTrio_egress (f : Trio → Trio) : (s.updTrio f).egress = s.egress := rfl
@[simp] theorem State.updTrio_onyx (f : Trio → Trio) : (s.updTrio f).onyx = s.onyx := rfl
@[simp] theorem State.updTrio_recorder (f : Trio → Trio) : (s.updTrio f).recorder = s.recorder := rfl
@[simp] theorem State.updTrio_mem (f : Trio → Trio) : (s.updTrio f).mem = s.mem := rfl
@[simp] theorem State.updTrio_quartz (f : Trio → Trio) : (s.updTrio f).quartz = s.quartz := rfl
@[simp] theorem State.updTrio_framer (f : Trio → Trio) : (s.updTrio f).framer = s.framer := rfl
@[simp] theorem State.updTrio_cascade (f : Trio → Trio) : (s.updTrio f).cascade = s.cascade := rfl
@[simp] theorem State.updTrio_trio (f : Trio → Trio) : (s.updTrio f).trio = f s.trio := rfl
@[simp] theorem State.updTrio_crc (f : Trio → Trio) : (s.updTrio f).crc = s.crc := rfl
@[simp] theorem State.updTrio_pwr (f : Trio → Trio) : (s.updTrio f).pwr = s.pwr := rfl
@[simp] theorem State.updTrio_rails (f : Trio → Trio) : (s.updTrio f).rails = s.rails := rfl
@[simp] theorem State.updTrio_nvm (f : Trio → Trio) : (s.updTrio f).nvm = s.nvm := rfl
@[simp] theorem State.updTrio_rst (f : Trio → Trio) : (s.updTrio f).rst = s.rst := rfl
@[simp] theorem State.updTrio_retained (f : Trio → Trio) : (s.updTrio f).retained = s.retained := rfl
@[simp] theorem State.updTrio_bkp (f : Trio → Trio) : (s.updTrio f).bkp = s.bkp := rfl
@[simp] theorem State.updTrio_flash (f : Trio → Trio) : (s.updTrio f).flash = s.flash := rfl
@[simp] theorem State.updTrio_aonBase (f : Trio → Trio) : (s.updTrio f).aonBase = s.aonBase := rfl
@[simp] theorem State.updTrio_pins (f : Trio → Trio) : (s.updTrio f).pins = s.pins := rfl

/-! `updVideo` changes `video` alone. -/

@[simp] theorem State.updVideo_now (f : Video → Video) : (s.updVideo f).now = s.now := rfl
@[simp] theorem State.updVideo_nowFrac (f : Video → Video) : (s.updVideo f).nowFrac = s.nowFrac := rfl
@[simp] theorem State.updVideo_pending (f : Video → Video) : (s.updVideo f).pending = s.pending := rfl
@[simp] theorem State.updVideo_out (f : Video → Video) : (s.updVideo f).out = s.out := rfl
@[simp] theorem State.updVideo_fresh (f : Video → Video) : (s.updVideo f).fresh = s.fresh := rfl
@[simp] theorem State.updVideo_sys (f : Video → Video) : (s.updVideo f).sys = s.sys := rfl
@[simp] theorem State.updVideo_mbx (f : Video → Video) : (s.updVideo f).mbx = s.mbx := rfl
@[simp] theorem State.updVideo_nmc (f : Video → Video) : (s.updVideo f).nmc = s.nmc := rfl
@[simp] theorem State.updVideo_gens (f : Video → Video) : (s.updVideo f).gens = s.gens := rfl
@[simp] theorem State.updVideo_objs (f : Video → Video) : (s.updVideo f).objs = s.objs := rfl
@[simp] theorem State.updVideo_used (f : Video → Video) : (s.updVideo f).used = s.used := rfl
@[simp] theorem State.updVideo_awaiting (f : Video → Video) : (s.updVideo f).awaiting = s.awaiting := rfl
@[simp] theorem State.updVideo_sched (f : Video → Video) : (s.updVideo f).sched = s.sched := rfl
@[simp] theorem State.updVideo_matrix (f : Video → Video) : (s.updVideo f).matrix = s.matrix := rfl
@[simp] theorem State.updVideo_audio (f : Video → Video) : (s.updVideo f).audio = s.audio := rfl
@[simp] theorem State.updVideo_garnet (f : Video → Video) : (s.updVideo f).garnet = s.garnet := rfl
@[simp] theorem State.updVideo_work (f : Video → Video) : (s.updVideo f).work = s.work := rfl
@[simp] theorem State.updVideo_objCtr (f : Video → Video) : (s.updVideo f).objCtr = s.objCtr := rfl
@[simp] theorem State.updVideo_video (f : Video → Video) : (s.updVideo f).video = f s.video := rfl
@[simp] theorem State.updVideo_net (f : Video → Video) : (s.updVideo f).net = s.net := rfl
@[simp] theorem State.updVideo_egress (f : Video → Video) : (s.updVideo f).egress = s.egress := rfl
@[simp] theorem State.updVideo_onyx (f : Video → Video) : (s.updVideo f).onyx = s.onyx := rfl
@[simp] theorem State.updVideo_recorder (f : Video → Video) : (s.updVideo f).recorder = s.recorder := rfl
@[simp] theorem State.updVideo_mem (f : Video → Video) : (s.updVideo f).mem = s.mem := rfl
@[simp] theorem State.updVideo_quartz (f : Video → Video) : (s.updVideo f).quartz = s.quartz := rfl
@[simp] theorem State.updVideo_framer (f : Video → Video) : (s.updVideo f).framer = s.framer := rfl
@[simp] theorem State.updVideo_cascade (f : Video → Video) : (s.updVideo f).cascade = s.cascade := rfl
@[simp] theorem State.updVideo_trio (f : Video → Video) : (s.updVideo f).trio = s.trio := rfl
@[simp] theorem State.updVideo_crc (f : Video → Video) : (s.updVideo f).crc = s.crc := rfl
@[simp] theorem State.updVideo_pwr (f : Video → Video) : (s.updVideo f).pwr = s.pwr := rfl
@[simp] theorem State.updVideo_rails (f : Video → Video) : (s.updVideo f).rails = s.rails := rfl
@[simp] theorem State.updVideo_nvm (f : Video → Video) : (s.updVideo f).nvm = s.nvm := rfl
@[simp] theorem State.updVideo_rst (f : Video → Video) : (s.updVideo f).rst = s.rst := rfl
@[simp] theorem State.updVideo_retained (f : Video → Video) : (s.updVideo f).retained = s.retained := rfl
@[simp] theorem State.updVideo_bkp (f : Video → Video) : (s.updVideo f).bkp = s.bkp := rfl
@[simp] theorem State.updVideo_flash (f : Video → Video) : (s.updVideo f).flash = s.flash := rfl
@[simp] theorem State.updVideo_aonBase (f : Video → Video) : (s.updVideo f).aonBase = s.aonBase := rfl
@[simp] theorem State.updVideo_pins (f : Video → Video) : (s.updVideo f).pins = s.pins := rfl

/-! `updWork` changes `work` alone. -/

@[simp] theorem State.updWork_now (f : Work → Work) : (s.updWork f).now = s.now := rfl
@[simp] theorem State.updWork_nowFrac (f : Work → Work) : (s.updWork f).nowFrac = s.nowFrac := rfl
@[simp] theorem State.updWork_pending (f : Work → Work) : (s.updWork f).pending = s.pending := rfl
@[simp] theorem State.updWork_out (f : Work → Work) : (s.updWork f).out = s.out := rfl
@[simp] theorem State.updWork_fresh (f : Work → Work) : (s.updWork f).fresh = s.fresh := rfl
@[simp] theorem State.updWork_sys (f : Work → Work) : (s.updWork f).sys = s.sys := rfl
@[simp] theorem State.updWork_mbx (f : Work → Work) : (s.updWork f).mbx = s.mbx := rfl
@[simp] theorem State.updWork_nmc (f : Work → Work) : (s.updWork f).nmc = s.nmc := rfl
@[simp] theorem State.updWork_gens (f : Work → Work) : (s.updWork f).gens = s.gens := rfl
@[simp] theorem State.updWork_objs (f : Work → Work) : (s.updWork f).objs = s.objs := rfl
@[simp] theorem State.updWork_used (f : Work → Work) : (s.updWork f).used = s.used := rfl
@[simp] theorem State.updWork_awaiting (f : Work → Work) : (s.updWork f).awaiting = s.awaiting := rfl
@[simp] theorem State.updWork_sched (f : Work → Work) : (s.updWork f).sched = s.sched := rfl
@[simp] theorem State.updWork_matrix (f : Work → Work) : (s.updWork f).matrix = s.matrix := rfl
@[simp] theorem State.updWork_audio (f : Work → Work) : (s.updWork f).audio = s.audio := rfl
@[simp] theorem State.updWork_garnet (f : Work → Work) : (s.updWork f).garnet = s.garnet := rfl
@[simp] theorem State.updWork_work (f : Work → Work) : (s.updWork f).work = f s.work := rfl
@[simp] theorem State.updWork_objCtr (f : Work → Work) : (s.updWork f).objCtr = s.objCtr := rfl
@[simp] theorem State.updWork_video (f : Work → Work) : (s.updWork f).video = s.video := rfl
@[simp] theorem State.updWork_net (f : Work → Work) : (s.updWork f).net = s.net := rfl
@[simp] theorem State.updWork_egress (f : Work → Work) : (s.updWork f).egress = s.egress := rfl
@[simp] theorem State.updWork_onyx (f : Work → Work) : (s.updWork f).onyx = s.onyx := rfl
@[simp] theorem State.updWork_recorder (f : Work → Work) : (s.updWork f).recorder = s.recorder := rfl
@[simp] theorem State.updWork_mem (f : Work → Work) : (s.updWork f).mem = s.mem := rfl
@[simp] theorem State.updWork_quartz (f : Work → Work) : (s.updWork f).quartz = s.quartz := rfl
@[simp] theorem State.updWork_framer (f : Work → Work) : (s.updWork f).framer = s.framer := rfl
@[simp] theorem State.updWork_cascade (f : Work → Work) : (s.updWork f).cascade = s.cascade := rfl
@[simp] theorem State.updWork_trio (f : Work → Work) : (s.updWork f).trio = s.trio := rfl
@[simp] theorem State.updWork_crc (f : Work → Work) : (s.updWork f).crc = s.crc := rfl
@[simp] theorem State.updWork_pwr (f : Work → Work) : (s.updWork f).pwr = s.pwr := rfl
@[simp] theorem State.updWork_rails (f : Work → Work) : (s.updWork f).rails = s.rails := rfl
@[simp] theorem State.updWork_nvm (f : Work → Work) : (s.updWork f).nvm = s.nvm := rfl
@[simp] theorem State.updWork_rst (f : Work → Work) : (s.updWork f).rst = s.rst := rfl
@[simp] theorem State.updWork_retained (f : Work → Work) : (s.updWork f).retained = s.retained := rfl
@[simp] theorem State.updWork_bkp (f : Work → Work) : (s.updWork f).bkp = s.bkp := rfl
@[simp] theorem State.updWork_flash (f : Work → Work) : (s.updWork f).flash = s.flash := rfl
@[simp] theorem State.updWork_aonBase (f : Work → Work) : (s.updWork f).aonBase = s.aonBase := rfl
@[simp] theorem State.updWork_pins (f : Work → Work) : (s.updWork f).pins = s.pins := rfl

end Sys2Proof.Machine
end

