-- ==== Sys2Proof/Laws/Tables.lean ====
section
/-!
SUPPORT. Sparse tables, byte fields and retained memory: what a read gives after a write, how long a field is, and that writing
keeps the canonical form.
-/

namespace Sys2Proof.Machine

variable {α : Type}

@[simp] theorem tget?_tset_same (t : Table α) (k : Nat) (v : α) : tget? (tset t k v) k = some v := by
  induction t with
  | nil => simp [tset, tget?]
  | cons e r ih =>
    obtain ⟨k', w⟩ := e
    simp only [tset]
    split
    · simp [tget?]
    · split
      · simp [tget?]
      · simp [tget?, *]

theorem tget?_tset_other (t : Table α) {k j : Nat} (v : α) (h : j ≠ k) : tget? (tset t k v) j = tget? t j := by
  induction t with
  | nil => simp [tset, tget?, Ne.symm h]
  | cons e r ih =>
    obtain ⟨k', w⟩ := e
    simp only [tset]
    split
    · rename_i hk
      subst hk
      simp [tget?, Ne.symm h]
    · split
      · simp [tget?, Ne.symm h]
      · simp [tget?, ih]

@[simp] theorem tget_tset_same (d : α) (t : Table α) (k : Nat) (v : α) : tget d (tset t k v) k = v := by simp [tget]

theorem tget_tset_other (d : α) (t : Table α) {k j : Nat} (v : α) (h : j ≠ k) : tget d (tset t k v) j = tget d t j := by
  simp [tget, tget?_tset_other t v h]

@[simp] theorem thas_tset_same (t : Table α) (k : Nat) (v : α) : thas (tset t k v) k = true := by simp [thas]

@[simp] theorem tget?_nil (k : Nat) : tget? ([] : Table α) k = none := rfl

theorem tget?_tdel_same (t : Table α) (k : Nat) : tget? (tdel t k) k = none := by
  induction t with
  | nil => rfl
  | cons e r ih =>
    obtain ⟨k', w⟩ := e
    by_cases h : k' = k <;> simp_all [tdel, tget?]

theorem tget?_tupd_same (t : Table α) (k : Nat) (f : α → α) : tget? (tupd t k f) k = (tget? t k).map f := by
  induction t with
  | nil => rfl
  | cons e r ih =>
    obtain ⟨k', w⟩ := e
    by_cases h : k' = k <;> simp_all [tupd, tget?]

theorem tget?_tupd_other (t : Table α) {k j : Nat} (f : α → α) (h : j ≠ k) : tget? (tupd t k f) j = tget? t j := by
  induction t with
  | nil => rfl
  | cons e r ih =>
    obtain ⟨k', w⟩ := e
    by_cases hk : k' = k
    · subst hk
      simp_all [tupd, tget?, Ne.symm h]
    · by_cases hj : k' = j <;> simp_all [tupd, tget?]

theorem tget?_tmap (t : Table α) (f : Nat → α → α) (k : Nat) : tget? (tmap t f) k = (tget? t k).map (f k) := by
  induction t with
  | nil => rfl
  | cons e r ih =>
    obtain ⟨k', w⟩ := e
    by_cases hk : k' = k <;> simp_all [tmap, tget?]

@[simp] theorem le_length (k n : Nat) : (le k n).length = k := by
  induction k generalizing n with
  | zero => rfl
  | succ k ih => simp [le, ih]

@[simp] theorem be_length (k n : Nat) : (be k n).length = k := by simp [be]

theorem unle_le (k n : Nat) : unle (le k n) = n % 256 ^ k := by
  induction k generalizing n with
  | zero => simp [le, unle, Nat.mod_one]
  | succ k ih =>
    simp only [le, unle, ih, BitVec.toNat_ofNat]
    have h : 256 ^ (k + 1) = 256 * 256 ^ k := by rw [Nat.pow_succ, Nat.mul_comm]
    rw [h]
    exact (Nat.mod_mul (x := n) (a := 256) (b := 256 ^ k)).symm

/-- A read of the written byte. -/
theorem cellAt_cellSet_same (m : List Host.Cell) (n i : Nat) (v : Byte) (h : cellsFrom n m = true) :
    cellAt (cellSet m i v) i = v := by
  induction m generalizing n with
  | nil =>
    simp only [cellSet]
    split
    · rename_i hv; exact hv.symm
    · simp [cellAt]
  | cons e r ih =>
    obtain ⟨a, b⟩ := e
    have hr : cellsFrom (a + 1) r = true := by simp [cellsFrom] at h; exact h.2
    have below : ∀ (l : List Host.Cell) (n j : Nat), cellsFrom n l = true → j < n → cellAt l j = 0 := by
      intro l
      induction l with
      | nil => intros; rfl
      | cons e l ihl =>
        intro n j hl hj
        obtain ⟨x, y⟩ := e
        simp [cellsFrom] at hl
        have : x ≠ j := by omega
        simp [cellAt, this]
        exact ihl (x + 1) j hl.2 (by omega)
    simp only [cellSet]
    split
    · rename_i ha
      subst ha
      split
      · rename_i hv; subst hv; exact below r (a + 1) a hr (by omega)
      · simp [cellAt]
    · split
      · split
        · rename_i hv
          subst hv
          rename_i hlt
          simp [cellAt, show a ≠ i by omega]
          exact below r (a + 1) i hr (by omega)
        · simp [cellAt]
      · rename_i ha _
        simp [cellAt, ha]
        exact ih _ hr

/-- Writing a byte keeps the canonical form. -/
theorem cellSet_keeps_form (m : List Host.Cell) (n i : Nat) (v : Byte) (h : cellsFrom n m = true) (hn : n ≤ i) (hi : i < 0x10000) :
    cellsFrom n (cellSet m i v) = true := by
  have lower : ∀ (l : List Host.Cell) (a b : Nat), cellsFrom b l = true → a ≤ b → cellsFrom a l = true := by
    intro l a b hl hab
    cases l with
    | nil => rfl
    | cons e l =>
      obtain ⟨x, y⟩ := e
      simp [cellsFrom] at hl ⊢
      exact ⟨⟨⟨by omega, hl.1.1.2⟩, hl.1.2⟩, hl.2⟩
  induction m generalizing n with
  | nil =>
    simp only [cellSet]
    split <;> simp_all [cellsFrom]
  | cons e r ih =>
    obtain ⟨a, b⟩ := e
    simp [cellsFrom] at h
    simp only [cellSet]
    split
    · split
      · exact lower r n (a + 1) h.2 (by omega)
      · simp_all [cellsFrom]
    · split
      · split
        · simp_all [cellsFrom]
        · have below : i + 1 ≤ a := by omega
          simp_all [cellsFrom]
      · simp [cellsFrom, h]
        exact ih (a + 1) h.2 (by omega)

/-- A byte the host writes keeps retained memory in its canonical form (R742). -/
theorem hostByte_keeps_retained (s : State) (off : Nat) (b : Byte) (h : Memory.wf s.retained = true) :
    Memory.wf (s.hostByte off b).retained = true := by
  unfold State.hostByte
  split
  · exact cellSet_keeps_form _ 0 _ _ h (by omega) (by omega)
  · split <;> exact h

end Sys2Proof.Machine
end

