-- ==== Sys2Proof/Laws/Cipher.lean ====
section
/-!
SUPPORT. The ciphers: a block is 16 bytes, counter mode undoes itself, and what AES-GCM seals it opens.
-/

namespace Sys2Proof.Machine

@[simp] theorem addKey_length (ks st : List Nat) : (addKey ks st).length = 16 := by simp [addKey]

theorem aesRounds_length (ks st : List Nat) : (aesRounds ks st).length = 16 := by
  induction ks, st using aesRounds.induct with
  | case1 a b c d e r st ih => simpa [aesRounds] using ih
  | case2 ks st h => rw [aesRounds.eq_2 _ _ h]; simp

@[simp] theorem aesBlock_length (ks : List Nat) (b : Bytes) : (aesBlock ks b).length = 16 := by
  simp [aesBlock, bytesOf, aesRounds_length]

theorem xorBytes_twice (a k : Bytes) (h : a.length ≤ k.length) : xorBytes (xorBytes a k) k = a := by
  induction a generalizing k with
  | nil => simp [xorBytes]
  | cons x a ih =>
    cases k with
    | nil => simp at h
    | cons y k =>
      have := ih k (by simpa using h)
      simp only [xorBytes, List.zipWith_cons_cons] at this ⊢
      rw [this, BitVec.xor_assoc, BitVec.xor_self, BitVec.xor_zero]

@[simp] theorem xorBytes_length (a k : Bytes) : (xorBytes a k).length = min a.length k.length := by simp [xorBytes]

theorem blocks16_nil : blocks16 [] = [] := rfl

theorem blocks16_short (b : Bytes) (h0 : b ≠ []) (h : b.length ≤ 16) : blocks16 b = [b] := by
  have h1 : 0 < b.length := List.length_pos_iff.2 h0
  have h2 : (b.length + 15) / 16 = 1 := by omega
  simp [blocks16, h2, List.take_of_length_le h]

theorem blocks16_append (a b : Bytes) (h : a.length = 16) : blocks16 (a ++ b) = a :: blocks16 b := by
  have h1 : ((a ++ b).length + 15) / 16 = (b.length + 15) / 16 + 1 := by simp; omega
  unfold blocks16
  rw [h1, List.range_succ_eq_map, List.map_cons, List.map_map]
  congr 1
  · simp [← h]
  · refine List.map_congr_left fun i _ => ?_
    show ((a ++ b).drop (16 * (i + 1))).take 16 = _
    rw [List.drop_append, List.drop_eq_nil_of_le (by omega), List.nil_append, show 16 * (i + 1) - a.length = 16 * i by omega]

theorem ctrMode_short (ks : List Nat) (ctr : Nat → Nat) (b : Bytes) (h0 : b ≠ []) (h : b.length ≤ 16) :
    ctrMode ks ctr b = xorBytes b (aesBlock ks (be 16 (ctr 0))) := by simp [ctrMode, blocks16_short b h0 h]

theorem ctrMode_append (ks : List Nat) (ctr : Nat → Nat) (a b : Bytes) (h : a.length = 16) :
    ctrMode ks ctr (a ++ b) = xorBytes a (aesBlock ks (be 16 (ctr 0))) ++ ctrMode ks (fun i => ctr (i + 1)) b := by
  simp [ctrMode, blocks16_append a b h, List.mapIdx_cons]

/-- Counter mode keeps the length of its data and undoes itself. -/
theorem ctrMode_spec (ks : List Nat) (ctr : Nat → Nat) (b : Bytes) :
    (ctrMode ks ctr b).length = b.length ∧ ctrMode ks ctr (ctrMode ks ctr b) = b := by
  induction hn : b.length using Nat.strongRecOn generalizing b ctr with
  | ind n ih =>
    subst hn
    by_cases h0 : b = []
    · subst h0; simp [ctrMode, blocks16_nil]
    have h1 : 0 < b.length := List.length_pos_iff.2 h0
    by_cases h : b.length ≤ 16
    · rw [ctrMode_short ks ctr b h0 h]
      have hl : (xorBytes b (aesBlock ks (be 16 (ctr 0)))).length = b.length := by simp; omega
      refine ⟨hl, ?_⟩
      rw [ctrMode_short ks ctr _ (fun he => by rw [he] at hl; simp at hl; omega) (by omega), xorBytes_twice _ _ (by simpa using h)]
    · obtain ⟨a, c, rfl, ha⟩ : ∃ a c, b = a ++ c ∧ a.length = 16 := ⟨b.take 16, b.drop 16, by simp, by simp; omega⟩
      rw [ctrMode_append ks ctr a c ha]
      have hi := ih c.length (by simp; omega) (fun i => ctr (i + 1)) c rfl
      have hl : (xorBytes a (aesBlock ks (be 16 (ctr 0)))).length = 16 := by simp [ha]
      refine ⟨by simp [hi.1, ha], ?_⟩
      rw [ctrMode_append ks ctr _ _ hl, hi.2, xorBytes_twice _ _ (by simp [ha])]

@[simp] theorem ctrMode_length (ks : List Nat) (ctr : Nat → Nat) (b : Bytes) : (ctrMode ks ctr b).length = b.length := (ctrMode_spec ks ctr b).1
@[simp] theorem ctrMode_twice (ks : List Nat) (ctr : Nat → Nat) (b : Bytes) : ctrMode ks ctr (ctrMode ks ctr b) = b := (ctrMode_spec ks ctr b).2

@[simp] theorem gcmTag_length (ks : List Nat) (iv head ct : Bytes) : (gcmTag ks iv head ct).length = 16 := by simp [gcmTag]

@[simp] theorem gcmSeal_length (key iv head data : Bytes) : (gcmSeal key iv head data).length = data.length + 16 := by simp [gcmSeal]

/-- What AES-GCM seals under a key, an IV and associated data, it opens under the same. -/
theorem gcmOpen_gcmSeal (key iv head data : Bytes) : gcmOpen key iv head (gcmSeal key iv head data) = some data := by
  simp [gcmOpen, gcmSeal]

end Sys2Proof.Machine
end

