-- ==== Sys2Proof/Laws/Command.lean ====
section
/-!
SUPPORT. The frame of a JCI command, once: when its turn has come it is what `finish` makes of its own part; otherwise it answers
all the same. The mailbox that an update of another leaves alone.
-/

namespace Sys2Proof.Machine

@[simp] theorem mb_setMb_same (s : State) (f : Nat) (m : Mailbox) : (s.setMb f m).mb f = m := by simp [State.mb]

theorem mb_setMb_other (s : State) {f g : Nat} (m : Mailbox) (h : g ≠ f) : (s.setMb f m).mb g = s.mb g := by
  simp [State.mb, tget_tset_other _ _ _ h]

@[simp] theorem mb_updMb_same (s : State) (f : Nat) (u : Mailbox → Mailbox) : (s.updMb f u).mb f = u (s.mb f) := by
  simp [State.updMb]

theorem mb_updMb_other (s : State) {f g : Nat} (u : Mailbox → Mailbox) (h : g ≠ f) : (s.updMb f u).mb g = s.mb g :=
  mb_setMb_other s _ h

@[simp] theorem mb_emit (s : State) (o : Out) (f : Nat) : (s.emit o).mb f = s.mb f := rfl

/-- A command whose turn has come starts. -/
theorem start_of_turn {s s1 : State} {op : Nat} {r : Req} (h : s.turn op r = some s1) : s.start op r = some s1 := by
  unfold State.turn at h
  cases hs : s.start op r with
  | none => simp [hs] at h
  | some t =>
    simp only [hs] at h
    repeat' (split at h <;> try (cases h; done))
    exact h

/-- The frame of a command whose turn has come, with a payload of the right length: its own part runs and is answered. -/
theorem command_of_turn {s s1 : State} {op : Nat} {len : Nat → Bool} {r : Req} {own : State → Eff}
    (h : s.turn op r = some s1) (hl : len r.payload.length = true) : s.command op len r own = s1.finish op r (own s1) := by
  unfold State.turn at h
  unfold State.command
  cases hs : s.start op r with
  | none => simp [hs] at h
  | some t =>
    simp only [hs] at h
    split at h <;> try cases h
    split at h <;> try cases h
    split at h <;> try cases h
    split at h <;> try (cases h; done)
    rename_i h1 h2 h3 h4
    cases h
    have hc : State.critOf s1 (namedHandles op r.payload r.tgt) = none := by simpa using h3
    have h5 : ¬ 4 ≤ r.flags.toNat := by omega
    simp only [if_neg h1, if_neg h2, if_neg h5, State.judge, hc]
    simp [need, hl]

/-- A payload of another length is answered BAD_LENGTH (step 7 of Table 2.6). -/
theorem command_bad_length {s s1 : State} {op : Nat} {len : Nat → Bool} {r : Req} {own : State → Eff}
    (h : s.turn op r = some s1) (hl : len r.payload.length = false) : s.command op len r own = s1.failed op r .badLength [] := by
  unfold State.turn at h
  unfold State.command
  cases hs : s.start op r with
  | none => simp [hs] at h
  | some t =>
    simp only [hs] at h
    split at h <;> try cases h
    split at h <;> try cases h
    split at h <;> try cases h
    split at h <;> try (cases h; done)
    rename_i h1 h2 h3 h4
    cases h
    have hc : State.critOf s1 (namedHandles op r.payload r.tgt) = none := by simpa using h3
    have h5 : ¬ 4 ≤ r.flags.toNat := by omega
    simp only [if_neg h1, if_neg h2, if_neg h5, State.judge, hc]
    simp [need, hl, State.failed]

/-- A command whose turn has not come changes nothing. -/
theorem command_no_turn {s : State} {op : Nat} {len : Nat → Bool} {r : Req} {own : State → Eff}
    (h : s.start op r = none) : s.command op len r own = s := by
  simp [State.command, h]

/-- A check that holds. -/
@[simp] theorem need_true (st : Status) (k : Eff) : need true st k = k := rfl

/-- A check that fails. -/
@[simp] theorem need_false (st : Status) (k : Eff) : need false st k = .fail st [] := rfl

/-- A handle that names a live object of one of the types. -/
theorem withHandle_ok {s : State} {h : Nat} {tys : List Nat} {key : Nat} (hk : s.checkHandle h tys = .ok key) (k : Nat → Eff) :
    s.withHandle h tys k = k key := by
  simp [State.withHandle, hk]

/-- A command that starts has changed at most its mailbox and the window. -/
theorem start_frame {s s1 : State} {op : Nat} {r : Req} (h : s.start op r = some s1) : s.sameBut s1 := by
  simp only [State.start] at h
  unfold State.sameBut
  split at h
  · cases h
  · split at h
    · split at h <;> cases h
      rfl
    · split at h
      · cases h
        split <;> rfl
      · cases h

/-- A command whose turn has come has changed at most its mailbox and the window. -/
theorem turn_frame {s s1 : State} {op : Nat} {r : Req} (h : s.turn op r = some s1) : s.sameBut s1 :=
  start_frame (start_of_turn h)

end Sys2Proof.Machine
end

