-- ==== Sys2Proof/Laws/Events.lean ====
section
/-!
SUPPORT. Responses and events, once: each changes the mailboxes, the window and what was put out, and nothing else of the
state. What a response writes.
-/

namespace Sys2Proof.Machine

/-! ### Changing the mailboxes, the window and the outputs alone -/

theorem sameBut_refl (s : State) : s.sameBut s := rfl

theorem sameBut_trans {a b c : State} (h : a.sameBut b) (k : b.sameBut c) : a.sameBut c := by
  unfold State.sameBut at *
  rw [k, h]

theorem setMb_same (s : State) (f : Nat) (m : Mailbox) : s.sameBut (s.setMb f m) := rfl

theorem updMb_same (s : State) (f : Nat) (u : Mailbox → Mailbox) : s.sameBut (s.updMb f u) := rfl

theorem emit_same (s : State) (o : Out) : s.sameBut (s.emit o) := rfl

theorem nmc_same (s : State) (n : Nmc) : s.sameBut { s with nmc := n } := rfl

/-- One fold of functions that each change no more than that. -/
theorem foldl_same {α : Type} (g : State → α → State) (h : ∀ (s : State) a, s.sameBut (g s a)) (l : List α) (s : State) :
    s.sameBut (l.foldl g s) := by
  induction l generalizing s with
  | nil => rfl
  | cons a l ih => exact sameBut_trans (h s a) (ih _)

theorem msix_same (s : State) (f v : Nat) : s.sameBut (s.msix f v) := by
  simp only [State.msix]
  repeat' split
  all_goals rfl

theorem placeEvent_same (s : State) : s.sameBut s.placeEvent := by
  unfold State.placeEvent
  split <;> rfl

theorem pushEvent_same (s : State) (f : Nat) (e : Slot) : s.sameBut (s.pushEvent f e) :=
  sameBut_trans (sameBut_trans (setMb_same ..) (emit_same ..)) (msix_same ..)

theorem writeEvents_same (s : State) (f : Nat) (l : List Slot) : s.sameBut (s.writeEvents f l) := by
  unfold State.writeEvents
  split
  · exact foldl_same _ (fun s e => pushEvent_same s f e) l s
  · exact sameBut_trans (nmc_same s _) (placeEvent_same _)

theorem dropEvent_same (s : State) (f op : Nat) : s.sameBut (s.dropEvent f op) := by
  simp only [State.dropEvent]
  split <;> rfl

theorem raiseOn_same (s : State) (f op target tag : Nat) (p : Bytes) : s.sameBut (s.raiseOn f op target tag p) := by
  simp only [State.raiseOn]
  repeat' split
  · rfl
  · exact writeEvents_same ..
  · exact dropEvent_same ..

theorem flushHeld_same (f : Nat) (l : List Bytes) (s : State) : s.sameBut (State.flushHeld f l s) := by
  induction l generalizing s with
  | nil => rfl
  | cons p r ih =>
    simp only [State.flushHeld]
    split
    · exact sameBut_trans (sameBut_trans (writeEvents_same ..) (updMb_same ..)) (ih _)
    · rfl

theorem flushReady_same (s : State) (f : Nat) : s.sameBut (s.flushReady f) := by
  unfold State.flushReady
  split
  · exact sameBut_trans (writeEvents_same ..) (updMb_same ..)
  · rfl

theorem flushLost_same (s : State) (f : Nat) : s.sameBut (s.flushLost f) := by
  simp only [State.flushLost]
  split
  · exact sameBut_trans (writeEvents_same ..) (updMb_same ..)
  · rfl

theorem pump_same (s : State) (f : Nat) : s.sameBut (s.pump f) := by
  simp only [State.pump]
  split
  · exact flushReady_same ..
  · exact sameBut_trans (sameBut_trans (flushReady_same ..) (flushHeld_same ..)) (flushLost_same ..)

theorem notice_same (s : State) (f : Nat) (p : Bytes) : s.sameBut (s.notice f p) := by
  unfold State.notice
  repeat' split
  · rfl
  · exact sameBut_trans (updMb_same ..) (pump_same ..)
  · exact sameBut_trans (dropEvent_same ..) (updMb_same ..)

theorem raiseAll_same (s : State) (op : Nat) (p : Bytes) : s.sameBut (s.raiseAll op p) := by
  unfold State.raiseAll
  apply foldl_same
  intro s f
  split
  · rfl
  · exact raiseOn_same ..

theorem raise_same (s : State) (k op : Nat) (p : Bytes) : s.sameBut (s.raise k op p) := by
  unfold State.raise
  split
  · exact raiseOn_same ..
  · rfl

theorem applied_same (s : State) (o : Origin) : s.sameBut (s.applied o) := by
  simp only [State.applied]
  split
  · exact sameBut_trans (updMb_same ..) (raiseOn_same ..)
  · rfl

theorem respond_same (s : State) (f op : Nat) (r : Req) (st : Status) (target : Nat) (p : Bytes) :
    s.sameBut (s.respond f op r st target p) := by
  simp only [State.respond]
  repeat' split
  · exact setMb_same ..
  · exact sameBut_trans (sameBut_trans (setMb_same ..) (emit_same ..)) (msix_same ..)
  · rfl
  · rfl

theorem answered_same (s : State) (op : Nat) (r : Req) (target : Nat) (p : Bytes) : s.sameBut (s.answered op r target p) := by
  simp only [State.answered, State.finish]
  split
  · exact sameBut_trans (respond_same ..) (raiseOn_same ..)
  · exact respond_same ..

theorem accepted_same (s : State) (op : Nat) (r : Req) (target : Nat) (p : Bytes) : s.sameBut (s.accepted op r target p) :=
  respond_same ..

theorem failed_same (s : State) (op : Nat) (r : Req) (st : Status) (p : Bytes) : s.sameBut (s.failed op r st p) :=
  respond_same ..

/-- A change of mode changes the mode, and raises at most ModeChanged. -/
theorem toMode_spec (s : State) (m : Mode) : State.sameBut { s with sys := { s.sys with mode := m } } (s.toMode m) := by
  by_cases h : s.sys.mode = m
  · subst h; simp [State.toMode, State.sameBut]
  · simp only [State.toMode, if_neg h]
    split
    · exact raiseAll_same ..
    · rfl

/-! ### What a response writes -/

theorem and3 (x : BitVec 8) : (x &&& 3#8).toNat = x.toNat % 4 := by
  rw [BitVec.toNat_and]
  exact Nat.and_two_pow_sub_one_eq_mod _ 2

/-- An interrupt leaves the other mailboxes, what was put out before and the response ring as they are. -/
theorem msix_frame (s : State) (f v : Nat) :
    (∀ g, g ≠ f → (s.msix f v).mb g = s.mb g) ∧ (∀ o ∈ s.out, o ∈ (s.msix f v).out) ∧ ((s.msix f v).mb f).rsp = (s.mb f).rsp := by
  simp only [State.msix]
  split
  · split
    · exact ⟨fun g hg => mb_setMb_other _ _ hg, fun o h => h, by simp⟩
    · exact ⟨fun g hg => rfl, fun o h => by simp [State.emit, h], rfl⟩
  · exact ⟨fun _ _ => rfl, fun _ h => h, rfl⟩

/-- A response to be discarded writes nothing: one less is to be discarded (R70, R755). -/
theorem respond_drop (s : State) (f op : Nat) (r : Req) (st : Status) (target : Nat) (p : Bytes) (hf : f < 4) (hd : 0 < (s.mb f).drop) :
    s.respond f op r st target p = s.setMb f { s.mb f with drop := (s.mb f).drop - 1 } := by
  simp only [State.respond, if_pos hf, if_pos hd]

end Sys2Proof.Machine
end

