-- ==== Sys2Proof/Laws/Matrix.lean ====
section
/-!
SUPPORT. What placing writes does to the state around the matrix, and when tiles are released (R140).
-/

namespace Sys2Proof.Machine

@[simp] theorem retile_matrix (s : State) (x : Matrix) (b : Nat) (l : List Nat) : (s.retile x b l).matrix = x := rfl
@[simp] theorem retile_objs (s : State) (x : Matrix) (b : Nat) (l : List Nat) : (s.retile x b l).objs = s.objs := rfl
@[simp] theorem retile_used (s : State) (x : Matrix) (b : Nat) (l : List Nat) : (s.retile x b l).used = s.used := rfl
@[simp] theorem retile_mbx (s : State) (x : Matrix) (b : Nat) (l : List Nat) : (s.retile x b l).mbx = s.mbx := rfl
@[simp] theorem retile_out (s : State) (x : Matrix) (b : Nat) (l : List Nat) : (s.retile x b l).out = s.out := rfl

/-- Placing writes changes the matrix, what waits for a boundary and what awaits its release, nothing else. -/
theorem retile_frame (s : State) (x : Matrix) (b : Nat) (l : List Nat) :
    s.retile x b l = { s with matrix := x, sched := (s.retile x b l).sched, awaiting := (s.retile x b l).awaiting } := rfl

/-- A release taken back leaves only changes that waited before. -/
theorem dropRelease_mem {l : List Sched} {b : Nat} {e : Sched} (h : e ∈ dropRelease l b) : e ∈ l := List.mem_of_mem_eraseP h

/-- Only a release of one tile at block `b` is taken back. -/
theorem dropRelease_keeps {l : List Sched} {b : Nat} {e : Sched} (h : e ∈ l) (ha : e.act ≠ .release (tileCost 1)) :
    e ∈ dropRelease l b := by
  refine (List.mem_eraseP_of_neg ?_).2 h
  simp [ha]

/-- An occupation that starts with block `b` falls after it. -/
theorem falls_gt (l : List Bool) (b : Nat) : ∀ k ∈ falls b l, b < k := by
  induction l generalizing b with
  | nil => simp [falls]
  | cons a r ih =>
    intro k hk
    rw [falls, List.mem_append] at hk
    cases hk with
    | inl h =>
      split at h
      · rw [List.mem_singleton] at h; omega
      · cases h
    | inr h => exact Nat.lt_of_succ_lt (ih (b + 1) k h)

end Sys2Proof.Machine
end

