-- ==== Sys2Proof/Laws/Units.lean ====
section
/-!
SUPPORT. The parts of a unit, each changed in one place: what a change of one part leaves of the state, and what a read of a part gives
after it.
-/

namespace Sys2Proof.Machine

variable (s : State)

/-! ### A change of one part changes its unit alone -/

theorem updLeg_only (k : Nat) (f : Leg → Leg) : s.updLeg k f = { s with audio := (s.updLeg k f).audio } := rfl
theorem updVleg_only (k : Nat) (f : VLeg → VLeg) : s.updVleg k f = { s with video := (s.updVleg k f).video } := rfl
theorem updDec_only (k : Nat) (f : Decode → Decode) : s.updDec k f = { s with video := (s.updDec k f).video } := rfl
theorem updComp_only (k : Nat) (f : Comp → Comp) : s.updComp k f = { s with video := (s.updComp k f).video } := rfl
theorem updEnc_only (k : Nat) (f : Encoding → Encoding) : s.updEnc k f = { s with video := (s.updEnc k f).video } := rfl
theorem updKernel_only (i : Nat) (f : Kernel → Kernel) : s.updKernel i f = { s with garnet := (s.updKernel i f).garnet } := rfl
theorem updInst_only (k i : Nat) (f : Inst → Inst) : s.updInst k i f = { s with work := (s.updInst k i f).work } := rfl
theorem setItem_only (i : Nat) (st : ItemState) : s.setItem i st = { s with work := (s.setItem i st).work } := rfl
theorem passOnyx_only (src : Nat) (d : Bytes) : s.passOnyx src d = { s with work := (s.passOnyx src d).work } := rfl
theorem updPort_only (p : Nat) (f : Port → Port) : s.updPort p f = { s with net := (s.updPort p f).net } := rfl
theorem setQueue_only (i : Nat) (q : Queue) : s.setQueue i q = { s with net := (s.setQueue i q).net } := rfl
theorem setHring_only (f d : Nat) (h : HostRing) : s.setHring f d h = { s with net := (s.setHring f d h).net } := rfl
theorem setClassShaper_only (n : Nat) (x : Shaper) : s.setClassShaper n x = { s with egress := (s.setClassShaper n x).egress } := rfl
theorem setKey_only (i : Nat) (c : KeyCtx) : s.setKey i c = { s with onyx := (s.setKey i c).onyx } := rfl
theorem setLinkKey_only (l d : Nat) (k : LinkKey) : s.setLinkKey l d k = { s with onyx := (s.setLinkKey l d k).onyx } := rfl
theorem updPart_only (k : Nat) (f : Part → Part) : s.updPart k f = { s with recorder := (s.updPart k f).recorder } := rfl
theorem updDom_only (d : Nat) (f : TimeDomain → TimeDomain) : s.updDom d f = { s with quartz := (s.updDom d f).quartz } := rfl
theorem updPulse_only (n : Nat) (f : Pulse → Pulse) : s.updPulse n f = { s with quartz := (s.updPulse n f).quartz } := rfl
theorem updLane_only (l : Nat) (f : Lane → Lane) : s.updLane l f = { s with framer := (s.updLane l f).framer } := rfl
theorem updE1_only (i : Nat) (f : E1 → E1) : s.updE1 i f = { s with framer := (s.updE1 i f).framer } := rfl
theorem updGroup_only (g : Nat) (f : Vcat → Vcat) : s.updGroup g f = { s with framer := (s.updGroup g f).framer } := rfl
theorem updBlp_only (l : Nat) (f : BlpLink → BlpLink) : s.updBlp l f = { s with cascade := (s.updBlp l f).cascade } := rfl
theorem updChan_only (c : Nat) (f : MemChan → MemChan) : s.updChan c f = { s with mem := (s.updChan c f).mem } := rfl
theorem updRank_only (c r : Nat) (f : RankRun → RankRun) : s.updRank c r f = { s with mem := (s.updRank c r f).mem } := rfl

/-! ### What a read gives after it -/

@[simp] theorem updDom_dom (d : Nat) (f : TimeDomain → TimeDomain) : (s.updDom d f).dom d = f (s.dom d) := tget_tset_same ..
@[simp] theorem updPulse_pulse (n : Nat) (f : Pulse → Pulse) : (s.updPulse n f).pulse n = f (s.pulse n) := tget_tset_same ..
@[simp] theorem updInst_inst (k i : Nat) (f : Inst → Inst) : (s.updInst k i f).inst k i = f (s.inst k i) := tget_tset_same ..
@[simp] theorem updPort_port (p : Nat) (f : Port → Port) : (s.updPort p f).port p = f (s.port p) := tget_tset_same ..
@[simp] theorem setHring_hring (f d : Nat) (h : HostRing) : (s.setHring f d h).hring f d = h := tget_tset_same ..
@[simp] theorem setLinkKey_linkKey (l d : Nat) (k : LinkKey) : (s.setLinkKey l d k).linkKey l d = k := tget_tset_same ..
@[simp] theorem setClassShaper_classShaper (n : Nat) (x : Shaper) : (s.setClassShaper n x).classShaper n = x := tget_tset_same ..
@[simp] theorem updBlp_blp (l : Nat) (f : BlpLink → BlpLink) : (s.updBlp l f).blp l = f (s.blp l) := tget_tset_same ..
@[simp] theorem updChan_chan (c : Nat) (f : MemChan → MemChan) : (s.updChan c f).mem.chan c = f (s.mem.chan c) := tget_tset_same ..
@[simp] theorem updRank_rank (c r : Nat) (f : RankRun → RankRun) : (s.updRank c r f).mem.rank c r = f (s.mem.rank c r) := tget_tset_same ..
@[simp] theorem setQueue_queue (i : Nat) (q : Queue) : (s.setQueue i q).queue? i = some q := tget?_tset_same ..
@[simp] theorem updLeg_leg (k : Nat) (f : Leg → Leg) : (s.updLeg k f).leg k = (s.leg k).map f := tget?_tupd_same ..
@[simp] theorem updVleg_vleg (k : Nat) (f : VLeg → VLeg) : (s.updVleg k f).vleg k = (s.vleg k).map f := by
  unfold State.vleg; split
  · exact tget?_tupd_same ..
  · rfl
@[simp] theorem updComp_comp (k : Nat) (f : Comp → Comp) : (s.updComp k f).comp k = (s.comp k).map f := by
  unfold State.comp; split
  · exact tget?_tupd_same ..
  · rfl
@[simp] theorem updEnc_enc (k : Nat) (f : Encoding → Encoding) : (s.updEnc k f).enc k = (s.enc k).map f := by
  unfold State.enc; split
  · exact tget?_tupd_same ..
  · rfl
@[simp] theorem updPart_part (k : Nat) (f : Part → Part) : (s.updPart k f).part k = (s.part k).map f := by
  unfold State.part; split
  · exact tget?_tupd_same ..
  · rfl
@[simp] theorem updKernel_kernel (i : Nat) (f : Kernel → Kernel) : (s.updKernel i f).kernel i = (s.kernel i).map f := tget?_tupd_same ..

end Sys2Proof.Machine
end

