-- ==== Sys2Proof/Laws/Memory.lean ====
section
/-!
SUPPORT. The memory controllers, once: what an access changes of the state, what a read of good memory finds, and that a write of whole
bursts leaves no error behind (R561 to R563, R676, R677).
-/

namespace Sys2Proof.Machine

/-! ### What an access changes -/

theorem memOnly_self (s : State) : s.memOnly s = s := rfl

theorem memOnly_trans {a b c : State} (h : a.memOnly b = b) (k : b.memOnly c = c) : a.memOnly c = c := by
  rw [← k, ← h]; rfl

/-- An access changes the memory system, the draws and the outputs only. -/
theorem touch_only (s : State) (c l : Nat) : s.memOnly (s.touch c l) = s.touch c l := rfl

/-- A write of bytes changes no more than its accesses do. -/
theorem memWrite_only (s : State) (a n : Nat) : s.memOnly (s.memWrite a n) = s.memWrite a n := by
  unfold State.memWrite
  generalize s.mem.pieces a n = l
  induction l generalizing s with
  | nil => rfl
  | cons p l ih => exact memOnly_trans (b := _) rfl (ih _)

/-- What a read adds to that: the mailboxes and the window, where it raises MemError. -/
def State.readOnly (s t : State) : State := { s.memOnly t with mbx := t.mbx, nmc := t.nmc }

theorem readOnly_trans {a b c : State} (h : a.readOnly b = b) (k : b.readOnly c = c) : a.readOnly c = c := by
  rw [← k, ← h]; rfl

theorem readOnly_of_same {s t : State} (h : s.sameBut t) : s.readOnly t = t := by
  unfold State.sameBut at h
  rw [h]; rfl

theorem readOnly_foldl {α : Type} (g : State → α → State) (h : ∀ (s : State) a, s.readOnly (g s a) = g s a) (l : List α) (s : State) :
    s.readOnly (l.foldl g s) = l.foldl g s := by
  induction l generalizing s with
  | nil => rfl
  | cons a l ih => exact readOnly_trans (h s a) (ih _)

/-- MemError where it is due. -/
theorem told_only {s t : State} {b : Prop} [Decidable b] (c k n l : Nat) (h : s.readOnly t = t) :
    s.readOnly (if b then t.memError c k n l else t) = if b then t.memError c k n l else t := by
  split
  · exact readOnly_trans h (readOnly_of_same (raiseAll_same ..))
  · exact h

theorem corrected_only (s : State) (c l : Nat) : s.readOnly (s.corrected c l) = s.corrected c l := by
  unfold State.corrected
  exact told_only _ _ _ _ rfl

theorem uncorrected_only (s : State) (c kind l : Nat) : s.readOnly (s.uncorrected c kind l) = s.uncorrected c kind l := by
  unfold State.uncorrected
  exact told_only _ _ _ _ rfl

/-- A location read. -/
theorem readOne_only (s : State) (c kind l : Nat) : s.readOnly (s.readOne c kind l) = s.readOne c kind l := by
  unfold State.readOne
  dsimp only
  split <;> split
  · exact readOnly_trans (b := State.updMem _ _) rfl (corrected_only ..)
  · rfl
  · exact readOnly_trans (readOnly_trans (b := State.updMem _ _) rfl (corrected_only ..)) (uncorrected_only ..)
  · exact uncorrected_only ..

/-! ### What a read finds -/

/-- Of no wrong bit, no device and no word is wrong. -/
theorem wrongUnits_nil (c w : Nat) : wrongUnits c w [] = 0 := by unfold wrongUnits; split <;> rfl

/-- A location in which no bit is wrong and that no write has marked reads good. -/
theorem found_good (m : Mem) (c l : Nat) (he : tget? m.errs (locKey c l) = none) (hd : tget? m.dead (locKey c l) = none) :
    m.found c l = (0, false) := by
  unfold Mem.found readLoc tget
  rw [he, hd]
  simp only [Option.getD_none, wrongUnits_nil, codeOutcome, Nat.zero_testBit]
  split <;> rfl

/-- A DDR5 burst written whole is good again, whatever stood in it (R563, R677). -/
theorem writeLoc_whole (m : Mem) {c : Nat} (l : Nat) (hc : c < 8) : (m.writeLoc c l 0 64).found c l = (0, false) := by
  apply found_good
  · simp [Mem.writeLoc, hc, Nat.not_le.2 hc, tget?_tdel_same]
  · simp only [Mem.writeLoc, hc, decide_true, Bool.true_or, beq_self_eq_true, Bool.and_self, Bool.not_true, Bool.and_false, if_true, if_false,
      Bool.false_eq_true]
    exact tget?_tdel_same ..

end Sys2Proof.Machine
end

