-- ==== Sys2Proof/Tests/Slice0.lean ====
section
/-!
SUPPORT. The model's own tests: each check of WellFormed refuses an ill-formed term, the hypotheses of each statement are met by a
state and operands written out here, and a few values that the spec prints.
-/

-- The tests evaluate whole steps in the kernel: one after another, so that they do not all hold a thread at once.
set_option Elab.async false

namespace Sys2Proof.Tests

open Sys2Proof Sys2Proof.Machine

/-! ### Small states -/

/-- An enabled ring of 16 slots. -/
def ringOn : Ring := { en := true, base := 0, log2n := 4, head := 0, tail := 0, seq := 0, err := false }

/-- A mailbox with its rings enabled. -/
def mbOn : Mailbox := { Mailbox.init with cmd := ringOn, rsp := ringOn, evt := ringOn, fwReady := true }

/-- A bridge in a mode, one second after its reset, with mailbox 0 enabled and network configuration 1. -/
def inMode (m : Mode) : State :=
  { State.reset with
    now := 1000000000, sys := { State.reset.sys with mode := m, fill := false }, mbx := [(0, mbOn)],
    net := { State.reset.net with config := 1 }, rails := { State.reset.rails with on := 9 } }

/-- A bridge in STANDALONE. -/
def up : State := inMode .standalone

/-- A command of mailbox 0 with a payload. -/
def rq (p : Bytes) : Req := { mbx := 0, flags := 0, target := 0, tag := 7, payload := p }

/-- A command of mailbox 0 with a target. -/
def rt (h : Nat) (p : Bytes) : Req := { rq p with target := BitVec.ofNat 32 h }

/-- `n` zero bytes. -/
def zz (n : Nat) : Bytes := List.replicate n 0

/-- The state in which a command's own part runs. -/
def after (op : Nat) (r : Req) (s : State) : State := (s.turn op r).getD s

theorem turn_after {op : Nat} {r : Req} {s : State} (h : (s.turn op r).isSome = true) : s.turn op r = some (after op r s) := by
  unfold after
  match ht : s.turn op r with
  | some t => rfl
  | none => rw [ht] at h; exact absurd h (by decide)

/-- The handle of the first generation of an object. -/
def hd (ty i : Nat) : Nat := ty * 2 ^ 27 + 2 ^ 20 + i

/-- A live object. -/
def obj (active flow : Bool) : Obj :=
  { owner := 0, active := active, flow := flow, dying := false, unborn := false, shedClass := 1, shed := false, cost := [] }

/-- An Echo slot with a sequence number. -/
def echoSlot (n : Nat) : Bytes :=
  Slot.bytes (ringNo 0 0) { opcode := 0, flags := 0, seq := n, target := 0, status := 0, tag := 7, payload := [] }

/-- A chain frame with its CRCs (Table 20.1). -/
def cframe (cmd addr off : Nat) (d : Bytes) : Bytes :=
  let h : Bytes := le 1 (32 * cmd + addr) ++ le 1 off ++ be 2 d.length ++ d
  [0x5A] ++ h ++ [crc8 h, 0xFF, crc8 [0xFF]]

/-- An accepted result, as a test. -/
def okIs {ε α : Type} [DecidableEq α] (e : Except ε α) (a : α) : Bool :=
  match e with
  | .ok x => decide (x = a)
  | .error _ => false

theorem ok_of {ε α : Type} [DecidableEq α] {e : Except ε α} {a : α} (h : okIs e a = true) : e = .ok a := by
  match e, h with
  | .ok x, h => rw [of_decide_eq_true h]

/-- What holds of the value that stands holds of every value that stands; of none, anything does. -/
theorem holds_of {α : Type} {o : Option α} {p : α → Bool} (h : o.all p = true) : ∀ x, o = some x → p x = true := by
  rintro x rfl; exact h

theorem none_holds {α : Type} {o : Option α} {q : α → Prop} (h : o.isNone = true) : ∀ x, o = some x → q x := by
  rintro x rfl; exact absurd h Bool.false_ne_true

theorem some_getD {α : Type} {o : Option α} {a : α} (h : o.isSome = true) : o = some (o.getD a) := by
  match o, h with
  | some x, _ => rfl

/-- A cost that fits whatever the DDR5 fitting is. -/
theorem admits_ddr {s : State} {c : Costs}
    (h : ((overCost c []).all fun e =>
      if e.1 = 0x000A * 2 ^ 32 then decide (e.2 + tget 0 s.used e.1 ≤ 245862400) else decide (e.2 ≤ s.roomOf e.1)) = true) :
    s.admits c = true := by
  suffices ∀ l : Costs, (l.all fun e =>
      if e.1 = 0x000A * 2 ^ 32 then decide (e.2 + tget 0 s.used e.1 ≤ 245862400) else decide (e.2 ≤ s.roomOf e.1)) = true →
      s.firstOver l = none by
    unfold State.admits; rw [this _ h]; rfl
  intro l
  induction l with
  | nil => intro _; rfl
  | cons e l ih =>
    intro h
    rw [List.all_cons, Bool.and_eq_true] at h
    have hr : ¬ s.roomOf e.1 < e.2 := by
      have h1 := h.1
      split at h1
      · rename_i he
        have h2 := of_decide_eq_true h1
        have h3 : 245862400 ≤ s.ceiling (e.1 / 2 ^ 32) (e.1 % 2 ^ 32) := by
          rw [he]; show 245862400 ≤ if Config.fitting.two then 245862400 else 280985600
          split <;> decide
        unfold State.roomOf; omega
      · have h2 := of_decide_eq_true h1
        omega
    show (if s.roomOf e.1 < e.2 then some (e.1, e.2) else s.firstOver l) = none
    rw [if_neg hr]; exact ih h.2

/-- A configuration of an RTP leg: PCMU of 20 ms, J of 60 ms, at port 0 over IPv4. -/
def legCfg (ses m port : Nat) : Bytes :=
  [1, 1, 1, 1] ++ le 4 ses ++ le 2 m ++ le 2 60 ++ [20, 20] ++ le 2 640 ++ le 2 0 ++ le 2 100 ++ zz 12 ++ [0, 4, 0, 0, 255, 2, 46, 0] ++ le 2 0 ++
    le 2 port ++ le 2 6000 ++ le 2 218 ++ le 2 218 ++ zz 46

/-- A leg of matrix number `m`. -/
def aLeg (m : Nat) : Leg := Leg.new (legCfg (hd 1 0) m (7000 + m)) m 0 m 0x4000 1000000000 500

/-- A sending video leg's configuration, and a receiving one's. -/
def vCfg (kind port : Nat) : Bytes :=
  le 1 kind ++ [2, 1, 1] ++ le 4 (hd 1 0) ++ zz 8 ++ [0, 4, 96, 0] ++ le 2 0 ++ [34] ++ le 1 (if kind = 1 then 1 else 0) ++ le 2 port ++ le 2 9000 ++ le 2 1400 ++
    zz 2 ++ le 4 1000 ++ le 4 100 ++ le 4 65536 ++ le 2 0 ++ zz 10 ++ (if kind = 1 then zz 4 ++ le 4 77 else le 4 9 ++ zz 4) ++ zz 40

/-- A DecodeSet payload: HEVC, WAIT_RAP's start after 1 s. -/
def decCfg (policy : Nat) : Bytes :=
  [3, 1, 8, 4] ++ le 2 640 ++ le 2 360 ++ le 4 30000 ++ le 4 1000 ++ le 4 100000 ++ le 2 100 ++ [0, 0] ++ le 1 policy ++ [10] ++ zz 6

/-- A composition of 64 by 64 samples at 50 frames per second. -/
def compCfg (active : Nat) : Bytes := le 2 64 ++ le 2 64 ++ le 4 50 ++ le 2 1 ++ [8, 0] ++ le 4 0 ++ [0] ++ le 1 active ++ [1, 0]

/-- An encoding of AVC with one stream of composition 0. -/
def encCfg : Bytes :=
  [1, 66, 30, 0, 1, 1, 1, 1, 1, 0, 1, 96] ++ le 2 60 ++ le 2 0 ++ le 2 1400 ++ zz 14 ++
    (le 4 (hd 4 0) ++ zz 4 ++ [1, 10, 40, 20] ++ le 4 0 ++ le 4 1000 ++ le 4 100000 ++ le 2 0 ++ zz 2 ++ le 4 5)

/-- A kernel of one quantum with four bytes of parameters. -/
def kern : Kernel :=
  { w := 46000, entry := 0, code := [], consts := [], stateBytes := 16, scratch := 0, params := 4, mask := 3, invocations := 0, largest := 0,
    cycles := 0, others := 0 }

/-- A binding of kernel 0. -/
def bnd : Binding := { kernel := 0, quanta := 1, data := zz 16, params := zz 4, faults := [], suspended := false, overTimes := none }

/-- A duck group of session 0. -/
def duck : Duck := { Duck.init with depth := 20, mode := 1, attack := 1, release := 1, hang := 0 }

/-- A bridge with a session of two audio legs, a sending and a receiving video leg, a composition, an encoding, a kernel, a meter
subscription and a duck group. -/
def studio : State :=
  { up with
    objs := [(okey 1 0, obj true true), (okey 2 0, obj true true), (okey 2 1, obj true true), (okey 3 0, obj true true),
      (okey 3 1, obj true true), (okey 4 0, obj true true), (okey 5 0, obj true true), (okey 7 0, obj true true),
      (okey 12 0, obj true true), (okey 13 0, obj true true)]
    audio := { up.audio with sessions := [(0, { autoMix := false, gain := 0 })], legs := [(0, aLeg 5), (1, aLeg 70)], clips := [(0, [1, 2])] }
    video := { legs := [(0, VLeg.new (vCfg 1 9000) 0), (1, VLeg.new (vCfg 2 9001) 0)], comps := [(0, Comp.new (compCfg 1) 0)],
               encs := [(0, { cfg := encCfg.take 32, streams := [Stream.new (encCfg.drop 32)] })] }
    garnet := { up.garnet with kernels := [(0, kern)] }
    matrix := { up.matrix with
      subs := [(0, { period := 20, hold := 0, decay := 0, points := [], blocks := 10 })], ducks := [(0, duck)] } }

/-- The studio with an object held. -/
def heldIn (ty i : Nat) : State := studio.updObj (okey ty i) fun _ => obj false false

/-- The studio with its sending leg's decode. -/
def decoding (d : Decode) : State := studio.updVleg (okey 3 0) fun l => { l with decode := some d, decl := some d.cfg }

/-- A work item of engine kind 3. -/
def item (st : ItemState) (deadline : Nat) : Item :=
  { id := 5, list := 256, source := 0, desc := descriptor 3 0 0 0 0xFFFF 0 deadline [], data := [], job := .none, st := st, marked := false, started := 0 }

/-- A bridge with one work item. -/
def working (st : ItemState) (deadline : Nat) : State := { up with work := { up.work with items := [item st deadline] } }

/-- The changes due at the boundary of a leg that has brought none for 100 ms. -/
def dueAt (now leg : Nat) (e : Sched) : Bool :=
  decide (e.from_ ≤ now) && match e.at_ with
    | .leg j since => decide (j = leg ∧ since + 100000000 ≤ now)
    | _ => false

theorem dueAt_iff {now leg : Nat} (e : Sched) :
    dueAt now leg e = true ↔ e.from_ ≤ now ∧ ∃ since, e.at_ = .leg leg since ∧ since + 100000000 ≤ now := by
  unfold dueAt
  rw [Bool.and_eq_true, decide_eq_true_iff]
  refine and_congr_right fun _ => ?_
  split
  · rename_i j since h
    simp only [h, Boundary.leg.injEq, decide_eq_true_eq]
    exact ⟨fun x => ⟨since, ⟨x.1, rfl⟩, x.2⟩, fun ⟨_, ⟨a, b⟩, c⟩ => ⟨a, b ▸ c⟩⟩
  · rename_i h
    exact ⟨fun x => absurd x Bool.false_ne_true, fun ⟨_, a, _⟩ => absurd a (h _ _)⟩

/-- A picture that nothing of it is looked at. -/
def blankPic : Picture :=
  { id := 0, w := 64, h := 64, depth := 8, ts := 0, data := [], concealed := false, rows := 0, since := 0, s := 0, t := 0, order := 0, arrived := [] }

/-- A composition's picture in progress. -/
def compRun (left : Table Nat) : CompRun := { frame := 1, pic := blankPic, started := 0, left := left, planes := [], sel := [], bad := [], poison := [], broken := [], done := 0 }

/-- A bridge with one composition, that feeds no encoding. -/
def stage (f : Comp → Comp) : State :=
  { up with objs := [(okey 4 0, obj true false)], video := { up.video with comps := [(0, f (Comp.new (compCfg 1) 0))] } }

/-- A port whose link is up. -/
def portOn : Port := { Port.init with en := true, up := true }

/-- A host ring of 64 slots. -/
def hostRing (t : Nat) : HostRing := { en := true, slotSize := 2048, log2n := 6, spill := 0, base := 0, head := 0, tail := t, err := false }

/-- A packet of a queue. -/
def pkt (n : Nat) : Rec := { kind := 1, flags := 0, obj := 0, arrival := 0, deadline := 0, start := 0, data := zz n }

/-- A bridge with port 0 enabled, host rings of function 0 and a queue. -/
def wired (id : Nat) (q : Queue) : State :=
  { up with net := { up.net with ports := [(0, portOn)], rings := [(0, hostRing 3), (1, hostRing 3)], queues := [(id, q)] } }

/-- A bridge with an OTP key and a key context of an SRTP profile. -/
def keyed : State :=
  { up with
    objs := [(okey 8 0, obj true false)]
    onyx := { up.onyx with otp := some (zz 32), keys := [(0, KeyCtx.new 1 1 0 0 (zz 28))] } }

/-- The studio with memory trained and a partition of 8 MiB. -/
def taping (p : Part) : State :=
  { studio with
    objs := [(okey 2 0, obj true true), (okey 6 0, obj true true)]
    mem := { studio.mem with ddr := true, hbm := true }
    recorder := { studio.recorder with parts := [(0, p)] } }

/-- A ring of 1 MiB fits wherever no other ring stands, whatever the DDR5 fitting is. -/
theorem ring_fits (s : State) (n : Nat) (hn : n = 1) (h : s.recorder.parts = []) (h2 : s.recorder.survivors = []) (hs : s.mem.spillBytes = 8 * 2 ^ 28) :
    s.ringPlace n = some s.mem.recLo := by
  subst hn
  unfold State.ringPlace State.ringRegions Mem.recLo recHi
  rw [h, h2, hs]
  unfold fitGiB fitDimms fitRanks
  cases Config.fitting.two <;> cases Config.fitting.ranks2 <;> cases Config.fitting.big <;> decide +kernel

/-- A copy of 64 bytes that waits, and a tap. -/
def oneCopy : Copy := { tap := 0, kind := 1, obj := okey 2 0, concealed := false, capture := 0, stamp := 0, done := 0, deadline := 0, data := zz 64 }
def oneTap : Tap := { kind := 1, obj := okey 2 0, stream := 0, on := true, dying := false, lost := 0, cost := [] }

/-- An export to a host buffer of 64 KiB. -/
def hostExport : Bytes := [1, 0, 0, 0] ++ le 4 1000000 ++ le 8 0 ++ le 4 65536 ++ le 4 0 ++ le 8 4096 ++ le 4 16 ++ zz 60

/-- A partition with a freeze. -/
def oneFreeze : Freeze := { t1 := 0, t2 := 10, lo := 0, hi := 0, growing := true }

/-- A record of 64 MiB of stream, for an export that the buffer cuts. -/
def longRecord : Record := { off := 0, len := 131072, capture := 0, done := 0, filler := false, bytes := [] }

/-- An export in datagrams by port 0 to 10.0.0.1, and a record that one of them holds. -/
def netExport : Bytes := [2, 0, 0, 0] ++ zz 36 ++ [0, 4, 46, 0] ++ le 2 6000 ++ le 2 7000 ++ zz 16 ++ [10, 0, 0, 1] ++ zz 12
def oneRecord : Record := { off := 0, len := 64, capture := 0, done := 0, filler := false, bytes := [] }

/-- A bridge with a PTP domain. -/
def ptp (x : TimeDomain) : State := { up with quartz := { up.quartz with doms := [(0, x)] } }

/-- A PTP domain, enabled, end to end, and its master. -/
def domOn : TimeDomain := { TimeDomain.init with cfg := [0, 1, 1, 1, 0, 0, 0, 2, 0, 0, 0, 255] ++ zz 20, st := 1 }
def master0 : PtpMaster :=
  { source := zz 10, priority1 := 0, cls := 6, accuracy := 0, variance := 0, priority2 := 0, identity := zz 8, steps := 0, utc := 0 }

/-- A PTP message of a type. -/
def ptpMsg (type flags : Nat) : Bytes := le 1 type ++ [2, 0, 64, 0, 0] ++ le 1 flags ++ zz 57

/-- A bridge with a pulse program on pin 3. -/
def pulsing (x : Pulse) : State := { up with quartz := { up.quartz with pulses := [(3, x)] } }

/-- A pulse program that starts at a time in ns. -/
def pulse1 (start period : Nat) (on opened : Bool) : Pulse :=
  { Pulse.init with startNs := start % 1000000000, startLo := start / 1000000000, period := period, width := 2, armed := on, opened := opened }

/-- An SDH lane in frame. -/
def lane0 (msp : Option Msp) : Lane :=
  { mode := 1, loop := false, sf := 3, sd := 0, inFrame := true, cands := [], pos := 0, badA := 0, aisRow := 0, au := [], rei := 0, auRei := [], msp := msp, defects := 0,
    stats := [] }

/-- An E1 path that is not in frame. -/
def path0 (frame : Bool) : E1 :=
  { lane := 24, a := 1, k := 1, l := 1, m := 1, crcMode := 2, ts16 := 1, idle := 0, ptr := PtrState.init, rx := { E1Rx.init with inFrame := frame },
    slip := [], lastRead := [], rxNow := [], rxDone := [], tx := [], casTx := [], txFrame := 0, txCrc := 0, txCrcLast := 0, rei := 0, defects := 0, stats := [] }

/-- A VCAT group at home on lane 31. -/
def group0 : Vcat := { ty := 1, members := [], maxDelay := 0, home := 31, pfcs := false, gfp := 2, scrTx := 0, scrRx := 0, defects := 0, stats := [] }

/-- A bridge with two SDH lanes, an E1 path and a VCAT group. -/
def framing (msp : Option Msp) (e1 : List (Nat × E1)) (on : Bool) : State :=
  { up with
    objs := [(okey 9 0, obj on on), (okey 9 504, obj on on), (okey 9 568, obj on on), (okey 9 569, obj on on)]
    framer := { lanes := [(24, lane0 msp), (25, lane0 none)], e1 := e1, groups := [(0, group0)] } }

/-- A key of a link. -/
def linkKey0 : LinkKey := { LinkKey.init with phase0 := some (zz 35) }

/-- A bridge of chain address 5 whose links have keys. -/
def linked (f : State → State) : State :=
  f { up with nmc := { up.nmc with addr := 5 }, onyx := { up.onyx with links := (List.range 8).map fun i => (i, linkKey0) } }

/-- The header of a BLP frame from the device of address 6 to all (Table 20.2). -/
def blpHead (kind block : Nat) (p : Bytes) : Bytes :=
  be 2 0xB17A ++ le 1 16 ++ le 1 kind ++ le 1 6 ++ le 3 0 ++ be 8 0 ++ be 8 block ++ be 2 p.length ++ le 6 0

/-- The key of `linked` without its salt. -/
def key32 : Bytes := (zz 35).take 32

/-- That frame under the key of `linked`. -/
def blpFrame (kind block : Nat) (p : Bytes) : Bytes :=
  blpHead kind block p ++ gcmSeal key32 (linkNonce (zz 35) 0 0) (blpHead kind block p) p

/-- A state whose Onyx cores have all stopped, so that a frame has to wait. -/
def stuck : State := { up with onyx := { up.onyx with stopped := 255 } }

/-- The state in which the bytes of a frame of class 0 with payload `p` are opened: it has passed its queue, an Onyx core takes it, and
its shares are refreshed. -/
def taken (l : Nat) (p : Bytes) (s : State) : State :=
  ((s.linkThrough l false 0 (24 + 8 * ceilDiv (48 + p.length) 8)).passOnyx 1 (linkDesc l 0 0)).linkShares 0 l 0

/-- The state once a BLP frame of `blpFrame` is heard. -/
def heard (l : Nat) (p : Bytes) (s : State) : State :=
  (((taken l p s).updBlp l fun x => { x with heard := true, silent := 0, last := tset x.last 0 1 }).linkCount l 0 0 0 0).hear 6

theorem hears {l kind block : Nat} {p : Bytes} {s : State}
    (h : u8 (blpFrame kind block p) 3 = kind ∧ u8 (blpFrame kind block p) 2 = 16 ∧ bfld (blpFrame kind block p) 0 2 = 0xB17A ∧
      u8 (blpFrame kind block p) 4 = 6 ∧ u8 (blpFrame kind block p) 5 = 0 ∧ bfld (blpFrame kind block p) 8 8 = 0 ∧
      bfld (blpFrame kind block p) 16 8 = block ∧ s.unitDown 0x0C l = false ∧ s.linkCore l false 0 = some 0 ∧
      ((taken l p s).linkKey l 0).phase 0 = some (zz 35) ∧ ((taken l p s).blp l).last = []) :
    s.blpHeard l kind (blpFrame kind block p) = some (heard l p s, 6, block, p) := by
  obtain ⟨h1, h2, h3, h4, h5, h6, h7, h8, h9, h10, h11⟩ := h
  have ho : gcmOpen key32 (linkNonce (zz 35) 0 0) ((blpFrame kind block p).take 32) ((blpFrame kind block p).drop 32) = some p := by
    have hl : (blpHead kind block p).length = 32 := by simp [blpHead]
    unfold blpFrame
    rw [List.take_append_of_le_length (by omega), List.drop_append_of_le_length (by omega), List.take_of_length_le (by omega),
      List.drop_eq_nil_of_le (by omega), List.nil_append]
    exact gcmOpen_gcmSeal ..
  unfold key32 at ho
  have hl : linkSize false (blpFrame kind block p) = 24 + 8 * ceilDiv (48 + p.length) 8 := by
    have hn : (blpFrame kind block p).length = 48 + p.length := by simp [blpFrame, blpHead]; omega
    simp [linkSize, hn]
  have hp : (taken l p s).openLink l (blpFrame kind block p) = (heard l p s, some p) := by
    unfold State.openLink
    simp only [h2, h4, h6, h10, h11, ho, Nat.reduceDiv, Nat.reduceMod, Nat.reduceMul, Nat.reduceAdd, tget, tget?, Option.getD, heard]
    rfl
  unfold State.blpHeard
  simp only [h1, h2, h3, h5, h8, h9, hl, ne_eq, not_true_eq_false, Nat.reduceDiv, Nat.reduceMod, or_false, Bool.false_eq_true, if_false]
  change (match (taken l p s).openLink l (blpFrame kind block p) with
    | (_, none) => none
    | (s1, some p) => if ¬ 0 = 0 ∧ ¬ 0 = s1.nmc.addr then none else some (s1, u8 (blpFrame kind block p) 4, bfld (blpFrame kind block p) 16 8, p)) = _
  rw [hp]
  simp [h4, h7]

/-- A device of a cascade of two, and of a trio. -/
def cascaded (m : Mode) (master st : Nat) (f : Cascade → Cascade) : State :=
  linked fun s => { s with
    sys := { s.sys with mode := m }
    cascade := f { s.cascade with st := st, id := 77, topo := 1, addrs := [5, 6], master := master, links := [(0, { st := 1, heard := false, silent := 0, discarded := 0, last := [] })] } }
def trioed (m : Mode) (leader : Nat) (f : Trio → Trio) : State :=
  linked fun s => { s with
    sys := { s.sys with mode := m }
    objs := [(okey 2 0, obj true true), (okey 11 0, obj true false)]
    audio := { s.audio with legs := [(0, aLeg 5)] }
    trio := f { s.trio with id := 77, topo := 1, addrs := [5, 6, 7], present := [5, 6, 7], leader := leader } }

/-- A critical-set entry of audio leg 0. -/
def entry0 : CritEntry := { key := okey 2 0, active := true, configs := [] }

/-- A trunk end of leg 0 that receives, and a trunk. -/
def end0 : TrunkEnd :=
  { trunk := 1, far := 6, send := none, recv := some 0, prot := false, arrived := false, gap := false, onProt := false, told := 0, prepared := some 490 }
def trunk0 : TrunkRec :=
  { a := 6, b := 7, dirs := 3, flags := 0, legA := 0, legB := 0, mA := 0, mB := 0, charges := [], answers := [], commit := some 400, gone := none, mbx := 0 }

/-- A master of a cascade with a trunk leg, function 0 of which has commands in every apply block of the queue. -/
def noRoom (f : Cascade → Cascade) : State :=
  let s := cascaded .cascadeMaster 5 2 f
  { s with objs := [(okey 2 0, obj true true)], matrix := { s.matrix with floor := [(0, s.block + 5)] } }

/-- A bridge with a command in flight. -/
def flying (op : Nat) (p : Bytes) (w : Wait) : State :=
  { up with mbx := [(0, { mbOn with flight := some { op := op, req := rq p, resp := [], wait := w }, outstanding := 1 })] }

/-- A cascade's form payload of two devices. -/
def form (n : Nat) : Bytes := (List.range n).flatMap fun i => [BitVec.ofNat 8 (5 + i), 0, 0, 0] ++ le 4 1200 ++ le 4 216000000 ++ zz 8

/-! ### Values that the spec prints, and vectors of the standards it names -/

/-- "With these parameters, the nine ASCII bytes 123456789 give 0xE306_9283" (chapter 2). -/
theorem test_crc32c : crc32c [0x31, 0x32, 0x33, 0x34, 0x35, 0x36, 0x37, 0x38, 0x39] = 0xE3069283#32 := by decide +kernel

/-- Table 2.5: the ring number of function 1's command ring. -/
theorem test_ring_number : ringNo 1 0 = 4 ∧ ringNo 1 1 = 5 ∧ ringNo 4 2 = 0x12 := by decide

/-- A slot of the ring of Table 2.5 passes its checks; with one payload bit turned it fails its CRC. -/
theorem test_slot_crc :
    slotCrcOk 4 (Slot.bytes 4 { opcode := 0, flags := 0, seq := 0x2A, target := 0, status := 0, tag := 0x44332211, payload := [1, 2, 3, 4] }) = true ∧
    slotCrcOk 4 ((Slot.bytes 4
      { opcode := 0, flags := 0, seq := 0x2A, target := 0, status := 0, tag := 0x44332211, payload := [1, 2, 3, 4] }).set 32 3) = false := by
  decide +kernel

/-- A fade of four steps from open: a write of its node placed two blocks after its first ends it there (R150, R152). -/
theorem test_fade_ends_at_a_write_placed_before :
    ((studio.updMatrix fun x => { x with queue := [{ block := 503, what := .writes [(node 5 70, 0x2000, 0, 1)], org := noOrigin }] }).placeFade
      0 (node 5 70) 12 10) = some (501, [8, 9], true) := by decide +kernel

/-- A node set for apply block 501 and opened in 503: its tile is held once and released at 503; opened in 502 as well, at
502 (R140). -/
theorem test_tile_release :
    let set : QueueEntry := { block := 501, what := .writes [(node 5 70, 0x2000, 0, 1)], org := noOrigin }
    let clear (b : Nat) : QueueEntry := { block := b, what := .writes [(node 5 70, 0, 0, 1)], org := noOrigin }
    studio.tileRuns { studio.matrix with queue := [set, clear 503] } (tileOf (node 5 70)) = ([503], 1) ∧
    studio.tileRuns { studio.matrix with queue := [set, clear 503, clear 502] } (tileOf (node 5 70)) = ([502], 1) := by
  decide +kernel

/-- The announcement node of chapter 5: its tile, its address, and the mix time of two tiles. -/
theorem test_node_address : tileOf (node 2051 128) = 8194 ∧ nodeAddr (node 2051 128) = 0x100004004180 ∧ tMix 2 = 17784 := by decide +kernel

/-- Table 5.15: the fade-out from 0x1009 in steps of 1 dB. -/
theorem test_fade_out :
    (fadeGains 0x1009 0 10).length = 55 ∧ (fadeGains 0x1009 0 10).take 2 = [0x0E4B, 0x0CBD] ∧ (fadeGains 0x1009 0 10).drop 52 = [9, 8, 0] := by
  decide +kernel

/-- Chapter 17's worked example: the memory channel and local address of a record, and the pseudo-channel of a node. -/
theorem test_memory_map : ddrMap 12 0x001234567880 = (4, 0x2468AC880) ∧ hbmMap 11 0x100004004180 = (8, 0x200180) := by decide +kernel

/-- Chapter 15's worked example: the IV of index 201,456. -/
theorem test_srtp_iv :
    gcmRtpIv [0x0A, 0x1B, 0x2C, 0x3D, 0x4E, 0x5F, 0x60, 0x71, 0x82, 0x93, 0xA4, 0xB5] 0x5E7A0101 201456 =
      [0x0A, 0x1B, 0x72, 0x47, 0x4F, 0x5E, 0x60, 0x71, 0x82, 0x90, 0xB6, 0x45] := by decide +kernel

/-- FIPS 197, appendix C.3. -/
theorem test_aes256 :
    aes256 ((List.range 32).map (BitVec.ofNat 8)) ((List.range 16).map fun i => BitVec.ofNat 8 (0x11 * i)) =
      [0x8E, 0xA2, 0xB7, 0xCA, 0x51, 0x67, 0x45, 0xBF, 0xEA, 0xFC, 0x49, 0x90, 0x4B, 0x49, 0x60, 0x89] := by decide +kernel

/-- Table 2.6: step 1 comes before step 2, and step 3 before step 4. -/
theorem test_check_order :
    checkSlot 0 0 (List.replicate 256 0xFF) = (.bad 0xFFFF (slotReq 0 (List.replicate 256 0xFF)) .unsupported [], false) := by decide +kernel

/-- A command at the front of the queue runs: Echo in STANDALONE answers its payload. -/
theorem test_step_runs :
    (match step { up with pending := [.echo (rq [1, 2]), .blockStart] } with
     | .next t => t.pending == [.blockStart] && (t.mb 0).rsp.tail == 1
     | _ => false) = true := by decide +kernel

/-- A word spells no command: the table gives its rows no bits. -/
theorem test_no_bits : decodeTableWord 32 0 = none := by decide

/-! ### Each check of WellFormed refuses a term that is ill formed in that point alone -/

theorem test_wf_commands_1 :
    ([.echo, .sysIdentify, .sysModeGet, .systemReset, .mediaRestart, .eventMaskSet, .sysStatsGet, .budgetGet, .nodeSet, .nodeSetBulk, .nodeFade,
      .nodeGet, .matrixTileMapGet, .meterSubscribe, .meterUnsubscribe, .duckGroupCreate, .duckGroupDestroy, .duckMemberSet, .duckForce,
      .matrixStatsGet, .sessionMixSet, .sessionCreate, .sessionDestroy, .legCreate, .legDestroy, .legEnable, .legHold, .legChainSet, .legCodecSet,
      .legToneStart, .legToneStop, .legPlay, .clipLoad, .clipFree, .legStatsGet, .kernelLoad, .kernelUnload, .kernelBind, .kernelUnbind,
      .kernelParamSet] : List (Req → Instr)).all (fun f => (f (rq (zz 224))).wf && !(f (rq (zz 225))).wf &&
      (f (rq [])).wf && !(f { rq [] with mbx := 5 }).wf) = true := by decide +kernel

theorem test_wf_commands_2 :
    ([.kernelStatsGet, .dispatchDisable, .dispatchEnable, .dispatchStatsGet, .decodeSet, .decodeClear, .keyFrameRequest, .decodeStatsGet,
      .encodingCreate, .encodingDestroy, .encodingEnable, .encodingHold, .encodingRateSet, .encodingKeyFrame, .encodingStatsGet, .compositionCreate,
      .compositionDestroy, .compositionEnable, .compositionHold, .planeSet, .compositionCommit, .planeGet, .compositionStatsGet, .opalScalerTableGet,
      .videoLegCreate, .videoLegDestroy, .videoLegEnable, .videoLegHold, .forwardSet, .forwardTargetSet, .videoLegStatsGet, .netGroupSet, .portSet,
      .neighbourSet, .hostRingSet, .queueNoticeSet, .queueStatsGet, .portStatsGet, .shaperSet, .classShaperSet] : List (Req → Instr)).all (fun f => (f (rq (zz 224))).wf && !(f (rq (zz 225))).wf &&
      (f (rq [])).wf && !(f { rq [] with mbx := 5 }).wf) = true := by decide +kernel

theorem test_wf_commands_3 :
    ([.egressPortSet, .shaperGet, .keyLoad, .keyDestroy, .keyUpdate, .keyStatsGet, .linkKeyLoad, .keySystemGet, .partitionCreate, .partitionDestroy,
      .partitionEnable, .partitionHold, .tapSet, .exportSet, .exportAck, .freezeSet, .freezeRelease, .recorderRead, .partitionStatsGet,
      .recorderSurvivorsGet, .partitionAdopt, .memLayoutSet, .memPolicySet, .memStatusGet, .timeDomainSet, .timeServoSet, .timeSelect, .timeStep,
      .timeStatusGet, .timeCaptureSet, .lineCreate, .e1PathCreate, .vcatGroupCreate, .pathDestroy, .pathEnable, .pathHold, .mspSet, .mspCommand,
      .casSet, .framerStatusGet] : List (Req → Instr)).all (fun f => (f (rq (zz 224))).wf && !(f (rq (zz 225))).wf &&
      (f (rq [])).wf && !(f { rq [] with mbx := 5 }).wf) = true := by decide +kernel

theorem test_wf_commands_4 :
    ([.cascadeJoin, .cascadeForm, .cascadeLeave, .trunkCreate, .trunkDestroy, .sessionPlace, .sessionUnplace, .cascadeStatusGet, .directoryGet,
      .trioJoin, .trioForm, .trioLeave, .trioCriticalSet, .trioHandover, .trioRevertSet, .trioRejoin, .trioStatusGet, .powerClassSet, .thermalSet,
      .powerStatusGet, .nvmStatusGet, .modeSet, .flightRecordRead, .firmwareSlotWrite, .otpKekWrite, .firmwareCommit, .debugChallengeGet,
      .debugUnlock, .laneTestSet, .laneTestGet] : List (Req → Instr)).all (fun f => (f (rq (zz 224))).wf && !(f (rq (zz 225))).wf &&
      (f (rq [])).wf && !(f { rq [] with mbx := 5 }).wf) = true := by decide +kernel

theorem test_wf_takes_1 :
    ([.mbxCmdTailDoorbell 0 0 [], .fenceRelease 0, .mbxRspHeadWrite 0 0, .mbxEvtHeadWrite 0 0, .cmdRingEnable 0, .cmdRingDisable 0, .rspRingEnable 0,
      .rspRingDisable 0, .evtRingEnable 0, .evtRingDisable 0, .pcieHotReset 0, .dmaReadDone 0 (.failed []), .dmaWriteReadbackDone 0 (.failed []),
      .registerWrite 0 0 (List.replicate 4 none), .rcRegisterRead 0 0, .engineFault 1 0 1, .instanceReturn 1 0, .itemTimeout 0, .meterReport 0,
      .duckHangExpiry 0, .playDone 0, .vadHangExpiry 0, .concealmentEnd 0, .mediaTimeout (2 * 2 ^ 20), .cyclesException 0 1,
      .workSubmit 0 (List.replicate 64 0), .workDispatch 1 0, .itemComplete 0 false 0 [], .itemDeadlineExpiry 0, .workCancel false 0,
      .submissionResume 0 1, .drainBoundExpiry 1 0, .decodeStartTimeout 0, .keyFrameRequestDeferred 0, .firEscalation 0, .frameBoundary 0,
      .compositeSliceStart 0 0, .videoLegBoundaryTimeout 0, .frameReceive 0 0 false [], .pauseExpiry 0 0] : List Instr).all (·.wf) = true := by decide +kernel

theorem test_wf_takes_2 :
    ([.linkStateChange 0 false, .queueWriteResume 0, .pfcRefresh 0 0, .staleTailTimeout 0, .hostTransmitDoorbell 0 0 [], .hostReceiveHeadWrite 0 0,
      .egressSelect 0 0, .legShaperRefill 0, .classShaperRefill 0, .entropyHealthFail 1, .drbgExhausted 0, .recordWrite 0, .pictureCopyTimeout 0,
      .freezeEnd 0 0, .exportWrite 0, .refreshDue 0 0, .realtimeBurstEnd 0 0, .calibrationWindowStart 0, .calibrationWindowEnd 0,
      .pageIdleTimeout 0 0, .dramTemperatureRead (List.replicate 9 0), .correctedWriteBack 0 0, .scrubStep 0 [], .ptpAnnounceReceive 0 0 [],
      .ptpSyncReceive 0 0 [], .ptpDelayResponseReceive 0 0 [], .ptpPdelayReqReceive 0 0 [], .ptpDelayReqSend 0 0, .domainLossTimeout 0,
      .timePulseArm 0, .timePulseStop 0, .pulseEdge 0, .tsInEdge 0 0 false,
      .lineFrame 24 0 { patterns := [], k1 := 0, k2 := 0, m1 := 0, b1 := 0, b2 := 0, ber := 0, au := [], trib := [], members := [] }, .losDeclare 24,
      .lofDeclare 24, .lofClear 24, .crc4MultiframeTimeout 0, .crc4AutoFallback 0, .fopDeclare 24] : List Instr).all (·.wf) = true := by decide +kernel

theorem test_wf_takes_3 :
    ([.waitToRestoreExpiry 24, .gfpFrameReceive 0 [], .enumerate (List.replicate 8 0), .windowWrite (List.replicate 8 0),
      .windowRead (List.replicate 8 0), .doorbellGo (List.replicate 8 0), .doorbellAck (List.replicate 8 0), .poll (List.replicate 8 0),
      .statusRead (List.replicate 8 0), .chainResetCold (List.replicate 8 0), .chainResetWarm (List.replicate 8 0), .linkLock 0, .hello 0 [],
      .heartbeat 0 [], .time 0 0 [], .control 0 [], .trunk 0 [], .linkSilenceTimeout 0, .masterLost 0, .mirror 0 [], .delta 0 [], .digest 0 [],
      .endorse 0 [], .snapshot 0 [], .crcClaim 0 0, .crcRelease 0 0, .crcStart 0 0, .crcData 0 0 (List.replicate 1 0), .crcDmaGo 0 0,
      .crcDmaDone 0 (.failed []), .currentSample (List.replicate 12 0), .overCurrentFault 0 0, .temperatureSample (List.replicate 16 0),
      .railPowerGood 1, .powerGoodFall 1, .pmbusUnsupportedCommand 0, .powerOn 0 0, .firstLevelWatchdogExpiry 0, .rstClrHaltCount 0,
      .msixVectorUnmask 0 none] : List Instr).all (·.wf) = true := by decide +kernel

theorem test_wf_refuses_1 :
    ([.mbxCmdTailDoorbell 4 0 [], .mbxCmdTailDoorbell 0 (2 ^ 32) [], .fenceRelease 5, .mbxRspHeadWrite 4 0, .mbxRspHeadWrite 0 (2 ^ 32),
      .mbxEvtHeadWrite 4 0, .mbxEvtHeadWrite 0 (2 ^ 32), .cmdRingEnable 4, .cmdRingDisable 4, .rspRingEnable 4, .rspRingDisable 4, .evtRingEnable 4,
      .evtRingDisable 4, .pcieHotReset 4, .dmaReadDone 5 (.failed []), .dmaWriteReadbackDone 5 (.failed []),
      .registerWrite 4 0 (List.replicate 4 none), .registerWrite 0 (2 ^ 26) (List.replicate 4 none), .registerWrite 0 0 (List.replicate 5 none),
      .rcRegisterRead 4 0, .rcRegisterRead 0 (2 ^ 26), .engineFault 17 0 1, .engineFault 1 256 1, .engineFault 1 0 0, .engineFault 1 0 5,
      .instanceReturn 17 0, .instanceReturn 1 256, .itemTimeout (2 ^ 32), .meterReport 4096, .duckHangExpiry 1024, .playDone 16384,
      .vadHangExpiry 16384, .concealmentEnd 16384, .mediaTimeout (2 ^ 20), .mediaTimeout (2 * 2 ^ 20 + 16384), .mediaTimeout (3 * 2 ^ 20 + 8192),
      .cyclesException 16384 1, .cyclesException 0 3, .workSubmit 8 (List.replicate 64 0), .workSubmit 0 (List.replicate 63 0)] : List Instr).all (!·.wf) = true := by decide +kernel

theorem test_wf_refuses_2 :
    ([.workDispatch 2 0, .workDispatch 1 256, .itemComplete (2 ^ 32) false 0 [], .itemComplete 0 false (2 ^ 32) [], .itemDeadlineExpiry (2 ^ 32),
      .workCancel false (2 ^ 32), .submissionResume 8 1, .submissionResume 0 2, .drainBoundExpiry 2 0, .drainBoundExpiry 1 256,
      .decodeStartTimeout 8192, .keyFrameRequestDeferred 8192, .firEscalation 8192, .frameBoundary 512, .compositeSliceStart 512 0,
      .compositeSliceStart 0 256, .videoLegBoundaryTimeout 8192, .frameReceive 8 0 false [], .frameReceive 32 0 false [], .pauseExpiry 8 0,
      .pauseExpiry 32 0, .pauseExpiry 0 8, .linkStateChange 8 false, .linkStateChange 32 false, .queueWriteResume 65536, .pfcRefresh 8 0,
      .pfcRefresh 32 0, .pfcRefresh 0 8, .staleTailTimeout 65536, .hostTransmitDoorbell 4 0 [], .hostTransmitDoorbell 0 (2 ^ 32) [],
      .hostReceiveHeadWrite 4 0, .hostReceiveHeadWrite 0 (2 ^ 32), .egressSelect 8 0, .egressSelect 32 0, .legShaperRefill 65536,
      .classShaperRefill 256, .classShaperRefill 9, .entropyHealthFail 0, .entropyHealthFail 4] : List Instr).all (!·.wf) = true := by decide +kernel

theorem test_wf_refuses_3 :
    ([.drbgExhausted 9, .recordWrite 16, .pictureCopyTimeout 16, .freezeEnd 16 0, .freezeEnd 0 65536, .exportWrite 16, .refreshDue 40 0,
      .refreshDue 0 4, .realtimeBurstEnd 40 0, .realtimeBurstEnd 0 4, .calibrationWindowStart 40, .calibrationWindowEnd 40, .pageIdleTimeout 40 0,
      .pageIdleTimeout 0 256, .pageIdleTimeout 8 16, .dramTemperatureRead (List.replicate 8 0), .correctedWriteBack 40 0, .scrubStep 40 [],
      .scrubStep 0 [640], .ptpAnnounceReceive 2 0 [], .ptpSyncReceive 2 0 [], .ptpDelayResponseReceive 2 0 [], .ptpPdelayReqReceive 8 0 [],
      .ptpPdelayReqReceive 32 0 [], .ptpDelayReqSend 2 0, .domainLossTimeout 2, .timePulseArm 4, .timePulseStop 4, .pulseEdge 4, .tsInEdge 4 0 false,
      .lineFrame 23 0 { patterns := [], k1 := 0, k2 := 0, m1 := 0, b1 := 0, b2 := 0, ber := 0, au := [], trib := [], members := [] },
      .lineFrame 32 0 { patterns := [], k1 := 0, k2 := 0, m1 := 0, b1 := 0, b2 := 0, ber := 0, au := [], trib := [], members := [] }, .losDeclare 23,
      .losDeclare 32, .lofDeclare 23, .lofDeclare 32, .lofClear 23, .lofClear 32, .crc4MultiframeTimeout 504, .crc4AutoFallback 504] : List Instr).all (!·.wf) = true := by decide +kernel

theorem test_wf_refuses_4 :
    ([.fopDeclare 23, .fopDeclare 32, .waitToRestoreExpiry 23, .waitToRestoreExpiry 32, .gfpFrameReceive 64 [], .enumerate (List.replicate 7 0),
      .windowWrite (List.replicate 7 0), .windowRead (List.replicate 7 0), .doorbellGo (List.replicate 7 0), .doorbellAck (List.replicate 7 0),
      .poll (List.replicate 7 0), .statusRead (List.replicate 7 0), .chainResetCold (List.replicate 7 0), .chainResetWarm (List.replicate 7 0),
      .linkLock 4, .hello 4 [], .heartbeat 4 [], .time 4 0 [], .control 4 [], .trunk 4 [], .linkSilenceTimeout 4, .masterLost 32, .mirror 4 [],
      .delta 4 [], .digest 4 [], .endorse 4 [], .snapshot 4 [], .crcClaim 4 0, .crcClaim 0 4, .crcRelease 4 0, .crcRelease 0 4, .crcStart 4 0,
      .crcStart 0 4, .crcData 4 0 (List.replicate 1 0), .crcData 0 4 (List.replicate 1 0), .crcData 0 0 (List.replicate 0 0),
      .crcData 0 0 (List.replicate 5 0), .crcDmaGo 4 0, .crcDmaGo 0 4, .crcDmaDone 4 (.failed [])] : List Instr).all (!·.wf) = true := by decide +kernel

theorem test_wf_refuses_5 :
    ([.currentSample (List.replicate 11 0), .overCurrentFault 12 0, .temperatureSample (List.replicate 15 0), .railPowerGood 0, .railPowerGood 10,
      .powerGoodFall 0, .powerGoodFall 10, .pmbusUnsupportedCommand 256, .powerOn 4 0, .powerOn 0 8, .firstLevelWatchdogExpiry 4, .rstClrHaltCount 4,
      .msixVectorUnmask 4 none, .msixVectorUnmask 0 (some 4)] : List Instr).all (!·.wf) = true := by decide +kernel
/-! ### The hypotheses of each statement are met together, one conjunct for each of its clauses -/

theorem witness_StepRunsFront :
    ∃ (s : State), s.pending = [] :=
  ⟨up, by decide +kernel⟩

theorem witness_StepKeepsQueueOrder :
    ∃ (s : State) (t : State), step s = .next t :=
  ⟨up, up, rfl⟩

theorem witness_StepKeepsSound :
    ∃ (s : State) (t : State), s.sound = true ∧ step s = .next t :=
  ⟨up, up, by decide +kernel, rfl⟩

theorem witness_WellFormedCommandsRun :
    ∃ (i : Instr) (s : State), i.wf = true ∧
      (match i with | .frameReceive port _ _ _ => s.portOk port = true | .egressSelect port _ => s.portOk port = true | .linkStateChange port _ => s.portOk port = true | .ptpPdelayReqReceive port _ _ => s.portOk port = true | .refreshDue chan rank => rankOk chan rank = true | .realtimeBurstEnd chan rank => rankOk chan rank = true | .registerWrite _ off _ => inDbg off = false | .rcRegisterRead _ off => inDbg off = false | _ => True) :=
  ⟨(.echo (rq [])), up, by decide +kernel⟩

theorem witness_TurnOfCommand :
    (∃ (s : State) (r : Req), s.sys.mode.isOpen = true ∧ s.sys.restart = none ∧ s.sys.marks = [] ∧ s.trio.id = 0 ∧ (s.mb r.mbx).flight = none ∧
      r.flags.toNat < 4 ∧ (r.fence = true → (s.mb r.mbx).outstanding = 0) ∧ r.mbx < 4 ∧ (s.mb r.mbx).taken = [] ∧ (s.mb r.mbx).cmd.en = true ∧
      (s.mb r.mbx).cmd.err = false ∧ (s.mb r.mbx).rsp.en = true ∧ (s.mb r.mbx).rsp.err = false ∧ 0 < (s.mb r.mbx).rsp.free) ∧
    (∃ (s : State) (r : Req), s.sys.mode.isOpen = true ∧ s.sys.restart = none ∧ s.sys.marks = [] ∧ s.trio.id = 0 ∧ (s.mb r.mbx).flight = none ∧
      r.flags.toNat < 4 ∧ (r.fence = true → (s.mb r.mbx).outstanding = 0) ∧ r.mbx = 4 ∧ (s.mb 4).taken = [] ∧ s.nmc.wstate = .idle ∧
      s.nmc.queue = []) ∧
    (∃ (s : State) (op : Nat) (r : Req) (rest : _), s.sys.mode.isOpen = true ∧ s.sys.restart = none ∧ s.sys.marks = [] ∧ s.trio.id = 0 ∧
      (s.mb r.mbx).flight = none ∧ r.flags.toNat < 4 ∧ (r.fence = true → (s.mb r.mbx).outstanding = 0) ∧ r.mbx < 5 ∧
      (s.mb r.mbx).taken = .run op r :: rest) :=
  ⟨⟨up, (rq []), by decide +kernel⟩,
   ⟨up, ({ rq [] with mbx := 4 }), by decide +kernel⟩,
   ⟨({ up with mbx := [(0, { mbOn with taken := [.run 0 (rq [])] })] }), 0, (rq []), ([]), by decide +kernel⟩⟩

theorem witness_AnswerIsOneSlot :
    (∃ (s : State) (t : State) (op : Nat) (target : Nat) (r : Req) (p : Bytes) (st : Status), ((t = s.answered op r target p ∧ r.effect = false ∧
      st = .ok) ∨ (t = s.accepted op r target p ∧ st = .ok) ∨ (t = s.failed op r st p ∧ target = r.tgt))) ∧
    (∃ (s : State) (t : State) (op : Nat) (target : Nat) (r : Req) (p : Bytes) (st : Status) (g : _), ((t = s.answered op r target p ∧
      r.effect = false ∧ st = .ok) ∨ (t = s.accepted op r target p ∧ st = .ok) ∨ (t = s.failed op r st p ∧ target = r.tgt)) ∧ g ≠ r.mbx) ∧
    (∃ (s : State) (t : State) (op : Nat) (target : Nat) (r : Req) (p : Bytes) (st : Status), ((t = s.answered op r target p ∧ r.effect = false ∧
      st = .ok) ∨ (t = s.accepted op r target p ∧ st = .ok) ∨ (t = s.failed op r st p ∧ target = r.tgt)) ∧ r.mbx < 4 ∧ (s.mb r.mbx).drop = 0 ∧
      (s.mb r.mbx).rsp.en = true ∧ (s.mb r.mbx).rsp.err = false) ∧
    (∃ (s : State) (t : State) (op : Nat) (target : Nat) (r : Req) (p : Bytes) (st : Status), ((t = s.answered op r target p ∧ r.effect = false ∧
      st = .ok) ∨ (t = s.accepted op r target p ∧ st = .ok) ∨ (t = s.failed op r st p ∧ target = r.tgt)) ∧ r.mbx < 4 ∧ 0 < (s.mb r.mbx).drop) ∧
    (∃ (s : State) (t : State) (op : Nat) (target : Nat) (r : Req) (p : Bytes) (st : Status), ((t = s.answered op r target p ∧ r.effect = false ∧
      st = .ok) ∨ (t = s.accepted op r target p ∧ st = .ok) ∨ (t = s.failed op r st p ∧ target = r.tgt)) ∧ 4 ≤ r.mbx) :=
  ⟨⟨up, (up.answered 0 (rq []) 0 []), 0, 0, (rq []), ([]), .ok, Or.inl ⟨rfl, by decide +kernel⟩⟩,
   ⟨up, (up.accepted 0 (rq []) 0 []), 0, 0, (rq []), ([]), .ok, 1, Or.inr (Or.inl ⟨rfl, rfl⟩), by decide +kernel⟩,
   ⟨up, (up.failed 0 (rq []) .denied [1]), 0, 0, (rq []), ([1]), .denied, Or.inr (Or.inr ⟨rfl, by decide +kernel⟩), by decide +kernel⟩,
   ⟨({ up with mbx := [(0, { mbOn with drop := 1 })] } : State), (State.accepted ({ up with mbx := [(0, { mbOn with drop := 1 })] } : State) 0 (rq []) 0 []), 0, 0, (rq []), ([]), .ok, Or.inr (Or.inl ⟨rfl, rfl⟩), by decide +kernel⟩,
   ⟨up, (up.failed 0 { rq [] with mbx := 4 } .busy []), 0, 0, ({ rq [] with mbx := 4 }), ([]), .busy, Or.inr (Or.inr ⟨rfl, by decide +kernel⟩), by decide +kernel⟩⟩

theorem witness_FenceHoldsAndReleases :
    (∃ (r : Req) (s : State) (s1 : State), s.start 0x0000 r = some s1 ∧ s.aborting r.mbx = false ∧ r.fence = true ∧ r.mbx < 4 ∧
      0 < (s1.mb r.mbx).outstanding) ∧
    (∃ (f : Nat) (x : Flight) (s : State), f < 5 ∧ (s.mb f).flight = some x ∧ x.wait = .fence ∧ (s.mb f).outstanding = 0) ∧
    (∃ (f : Nat) (x : Flight) (s : State), f < 5 ∧ (s.mb f).flight = some x ∧ x.wait = .fence ∧ 0 < (s.mb f).outstanding) ∧
    (∃ (r : Req) (s : State), s.start 0x0000 r = none) :=
  ⟨⟨({ rq [] with flags := 1 }), ({ up with mbx := [(0, { mbOn with outstanding := 1 })] }), (({ up with mbx := [(0, { mbOn with outstanding := 1 })] } : State).countTaken 0), rfl, by decide +kernel⟩,
   ⟨0, ({ op := 0, req := rq [], resp := [], wait := .fence }), ({ up with mbx := [(0, { mbOn with flight := some { op := 0, req := rq [], resp := [], wait := .fence } })] }), by decide +kernel⟩,
   ⟨0, ({ op := 0, req := rq [], resp := [], wait := .fence }), ({ up with mbx := [(0, { mbOn with outstanding := 1, flight := some { op := 0, req := rq [], resp := [], wait := .fence } })] }), by decide +kernel⟩,
   ⟨(rq []), State.reset, by decide +kernel⟩⟩

theorem witness_SystemCommandsComplete :
    (∃ (r : Req) (s : State) (s1 : State), s.turn 0x0000 r = some s1 ∧ r.target = 0) ∧
    (∃ (r : Req) (s : State) (s1 : State), s.turn 0x0001 r = some s1 ∧ r.target = 0 ∧ r.payload = []) ∧
    (∃ (r : Req) (s : State) (s1 : State), s.turn 0x0002 r = some s1 ∧ r.target = 0 ∧ r.payload = [] ∧ s1.mode ≠ .shed) ∧
    (∃ (r : Req) (s : State) (s1 : State) (m : _), s.turn 0x0002 r = some s1 ∧ r.target = 0 ∧ r.payload = [] ∧ s1.mode = .shed ∧
      s1.sys.remembered = some m) ∧
    (∃ (r : Req) (s : State) (s1 : State), s.turn 0x0005 r = some s1 ∧ r.target = 0 ∧ r.payload.length = 8 ∧ u16 r.payload 0 % 2 = 0 ∧
      zeros r.payload 2 6 = true) ∧
    (∃ (r : Req) (s : State) (s1 : State), s.turn 0x0006 r = some s1 ∧ r.target = 0 ∧ r.payload = []) ∧
    (∃ (r : Req) (s : State) (s1 : State), s.turn 0x0F40 r = some s1 ∧ r.target = 0 ∧ r.payload.length = 8 ∧ zeros r.payload 2 2 = true ∧
      budgetListed (u16 r.payload 0) (u32 r.payload 4) = true) :=
  ⟨⟨(rq [1, 2, 3]), up, (after 0x0000 (rq [1, 2, 3]) (up)), turn_after (by decide +kernel), by decide +kernel⟩,
   ⟨(rq []), up, (after 0x0001 (rq []) (up)), turn_after (by decide +kernel), by decide +kernel⟩,
   ⟨(rq []), up, (after 0x0002 (rq []) (up)), turn_after (by decide +kernel), by decide +kernel⟩,
   ⟨(rq []), ({ up with sys := { up.sys with mode := .shed, remembered := some .standalone } }), (after 0x0002 (rq []) ({ up with sys := { up.sys with mode := .shed, remembered := some .standalone } })), .standalone, turn_after (by decide +kernel), by decide +kernel⟩,
   ⟨(rq [2, 0, 0, 0, 0, 0, 0, 0]), up, (after 0x0005 (rq [2, 0, 0, 0, 0, 0, 0, 0]) (up)), turn_after (by decide +kernel), by decide +kernel⟩,
   ⟨(rq []), up, (after 0x0006 (rq []) (up)), turn_after (by decide +kernel), by decide +kernel⟩,
   ⟨(rq [1, 0, 0, 0, 0, 0, 0, 0]), up, (after 0x0F40 (rq [1, 0, 0, 0, 0, 0, 0, 0]) (up)), turn_after (by decide +kernel), by decide +kernel⟩⟩

theorem witness_RingPointersMove :
    (∃ (s : State) (f : Nat) (tail : Nat) (l : List Bytes), f < 4 ∧ (s.mb f).cmd.en = true ∧ (s.mb f).cmd.err = false ∧ tail < (s.mb f).cmd.size ∧
      (s.mb f).cmd.filled + (tail + (s.mb f).cmd.size - (s.mb f).cmd.tail) % (s.mb f).cmd.size < (s.mb f).cmd.size ∧ l.length = (tail + (s.mb
      f).cmd.size - (s.mb f).cmd.tail) % (s.mb f).cmd.size) ∧
    (∃ (s : State) (f : Nat) (head : Nat), f < 4 ∧ (s.mb f).rsp.en = true ∧ head < (s.mb f).rsp.size ∧ (head + (s.mb f).rsp.size - (s.mb f).rsp.head)
      % (s.mb f).rsp.size ≤ (s.mb f).rsp.filled) ∧
    (∃ (s : State) (f : Nat) (head : Nat), f < 4 ∧ (s.mb f).evt.en = true ∧ head < (s.mb f).evt.size ∧ (head + (s.mb f).evt.size - (s.mb f).evt.head)
      % (s.mb f).evt.size ≤ (s.mb f).evt.filled) ∧
    (∃ (s : State) (f : Nat) (tail : Nat) (b : Bytes) (x : Flight) (tk : _) (pass : _), f < 4 ∧ s.sys.mode.isOpen = true ∧ (s.mb f).cmd.en = true ∧
      (s.mb f).cmd.err = false ∧ (s.mb f).rung = [] ∧ (s.mb f).flight = some x ∧ tail < (s.mb f).cmd.size ∧ tail = ((s.mb f).cmd.tail + 1) % (s.mb
      f).cmd.size ∧ (s.mb f).cmd.tail < (s.mb f).cmd.size ∧ (s.mb f).cmd.filled + 1 < (s.mb f).cmd.size ∧ (s.mb f).rspRoom = true ∧ b.length = 256 ∧
      checkSlot f (s.mb f).cmd.seq.toNat b = (tk, pass)) ∧
    (∃ (f : Nat) (expect : Nat) (b : Bytes), u8 b 3 = 3 ∧ u16 b 12 ≤ 224 ∧ slotCrcOk (ringNo f 0) b = true ∧ u32 b 4 ≠ expect) ∧
    (∃ (s : State) (f : Nat) (tail : Nat), f < 4 ∧ (s.mb f).cmd.en = true ∧ (s.mb f).cmd.err = false ∧ tail < (s.mb f).cmd.size ∧ (s.mb f).cmd.size ≤
      (s.mb f).cmd.filled + (tail + (s.mb f).cmd.size - (s.mb f).cmd.tail) % (s.mb f).cmd.size) ∧
    (∃ (s : State) (f : Nat) (head : Nat), f < 4 ∧ (s.mb f).rsp.en = true ∧ head < (s.mb f).rsp.size ∧ (s.mb f).rsp.filled < (head + (s.mb f).rsp.size
      - (s.mb f).rsp.head) % (s.mb f).rsp.size) ∧
    (∃ (s : State) (f : Nat) (head : Nat), f < 4 ∧ (s.mb f).rsp.en = true ∧ head < (s.mb f).rsp.size ∧ (head + (s.mb f).rsp.size - (s.mb f).rsp.head)
      % (s.mb f).rsp.size ≤ (s.mb f).rsp.filled ∧ (s.mb f).rung = [] ∧ (s.mb f).taken = []) ∧
    (∃ (s : State) (f : Nat) (head : Nat), f < 4 ∧ (s.mb f).evt.en = true ∧ head < (s.mb f).evt.size ∧ (s.mb f).evt.filled < (head + (s.mb f).evt.size
      - (s.mb f).evt.head) % (s.mb f).evt.size) ∧
    (∃ (s : State) (f : Nat) (head : Nat), f < 4 ∧ (s.mb f).evt.en = true ∧ head < (s.mb f).evt.size ∧ (head + (s.mb f).evt.size - (s.mb f).evt.head)
      % (s.mb f).evt.size ≤ (s.mb f).evt.filled ∧ (s.mb f).readyDue = false ∧ (s.mb f).held = [] ∧ (s.mb f).lostCount = 0) ∧
    (∃ (s : State) (f : Nat) (tail : Nat), f < 4 ∧ ((s.mb f).cmd.en = false ∨ (s.mb f).cmd.err = true ∨ (s.mb f).cmd.size ≤ tail)) ∧
    (∃ (s : State) (f : Nat) (head : Nat), f < 4 ∧ ((s.mb f).rsp.en = false ∨ (s.mb f).rsp.size ≤ head)) ∧
    (∃ (s : State) (f : Nat) (head : Nat), f < 4 ∧ ((s.mb f).evt.en = false ∨ (s.mb f).evt.size ≤ head)) :=
  ⟨⟨up, 0, 1, [echoSlot 0], by decide +kernel⟩,
   ⟨({ up with mbx := [(0, { mbOn with rsp := { ringOn with tail := 1 } })] }), 0, 1, by decide +kernel⟩,
   ⟨({ up with mbx := [(0, { mbOn with evt := { ringOn with tail := 1 } })] }), 0, 1, by decide +kernel⟩,
   ⟨({ up with mbx := [(0, { mbOn with flight := some { op := 0, req := rq [], resp := [], wait := .fence } })] }), 0, 1, (echoSlot 0),
    ({ op := 0, req := rq [], resp := [], wait := .fence }), (.run 0 (rq [])), true, by decide +kernel⟩,
   ⟨0, 5, (echoSlot 0), by decide +kernel⟩,
   ⟨({ up with mbx := [(0, { mbOn with cmd := { ringOn with tail := 8 } })] }), 0, 0, by decide +kernel⟩,
   ⟨up, 0, 15, by decide +kernel⟩,
   ⟨({ up with mbx := [(0, { mbOn with rsp := { ringOn with tail := 8 } })] }), 0, 8, by decide +kernel⟩,
   ⟨up, 0, 1, by decide +kernel⟩,
   ⟨({ up with mbx := [(0, { mbOn with evt := { ringOn with tail := 8 } })] }), 0, 8, by decide +kernel⟩,
   ⟨up, 0, 16, by decide +kernel⟩,
   ⟨up, 0, 16, by decide +kernel⟩,
   ⟨State.reset, 3, 0, by decide +kernel⟩⟩

theorem witness_RingEnablesComplete :
    (∃ (s : State) (f : Nat), f < 4 ∧ s.sys.mode.isOpen = true ∧ (s.mb f).cmd.en = false) ∧
    (∃ (s : State) (f : Nat), f < 4 ∧ s.sys.mode.isOpen = true ∧ (s.mb f).cmd.en = true) ∧
    (∃ (s : State) (f : Nat), f < 4 ∧ s.sys.mode.isOpen = true ∧ (s.mb f).rsp.en = false ∧ (s.mb f).rung = [] ∧ (s.mb f).taken = []) ∧
    (∃ (s : State) (f : Nat), f < 4 ∧ s.sys.mode.isOpen = true ∧ (s.mb f).rsp.en = true) ∧
    (∃ (s : State) (f : Nat), f < 4 ∧ s.sys.mode.isOpen = true ∧ (s.mb f).evt.en = false ∧ (s.mb f).readyRaised = false ∧ (s.mb f).held = [] ∧
      (s.mb f).lostCount = 0) ∧
    (∃ (s : State) (f : Nat), f < 4 ∧ s.sys.mode.isOpen = true ∧ (s.mb f).evt.en = true) ∧
    (∃ (s : State) (f : Nat), f < 4 ∧ s.sys.mode.isOpen = false) :=
  ⟨⟨up, 3, by decide +kernel⟩,
   ⟨up, 0, by decide +kernel⟩,
   ⟨up, 3, by decide +kernel⟩,
   ⟨up, 0, by decide +kernel⟩,
   ⟨up, 3, by decide +kernel⟩,
   ⟨up, 0, by decide +kernel⟩,
   ⟨State.reset, 3, by decide +kernel⟩⟩

theorem witness_RetainedMemoryByHost :
    (∃ (s : State) (fn : Nat) (off : Nat) (data : List (Option Byte)) (b : Byte) (rest : List (Nat × Byte)), fn < 4 ∧ s.mode.booted = true ∧
      Memory.wf s.retained = true ∧ 0x10000 ≤ off ∧ off < 0x20000 ∧ enabled off data = (off, b) :: rest) ∧
    (∃ (s : State) (fn : Nat) (n : Nat) (k : Nat), fn < 4 ∧ s.mode.booted = true ∧ n < 16 ∧ k < 4) ∧
    (∃ (s : State) (fn : Nat) (n : Nat), fn < 4 ∧ s.mode.booted = true ∧ n < 16) ∧
    (∃ (s : State) (fn : Nat) (i : Nat), fn < 4 ∧ s.mode.booted = true ∧ 0x8000 ≤ i ∧ i < 0x10000 ∧ i % 4 = 0) ∧
    (∃ (s : State) (fn : Nat) (i : Nat), fn < 4 ∧ s.mode.booted = true ∧ i < 0x8000 ∧ i % 4 = 0) :=
  ⟨⟨up, 3, 0x1FFFF, ([some 1]), 1, ([]), by decide +kernel⟩,
   ⟨up, 3, 15, 3, by decide +kernel⟩,
   ⟨up, 3, 15, by decide +kernel⟩,
   ⟨up, 3, 0xFFFC, by decide +kernel⟩,
   ⟨up, 3, 0x7FFC, by decide +kernel⟩⟩

theorem witness_RegisterAccessByMode :
    (∃ (s : State) (fn : Nat) (off : Nat), fn < 4 ∧ inDbg off = false ∧ s.mode.booted = false) ∧
    (∃ (s : State) (fn : Nat), fn < 4 ∧ s.mode.booted = true) ∧
    (∃ (s : State) (fn : Nat), fn < 4 ∧ s.mode ≠ .maintenance) ∧
    (∃ (s : State) (fn : Nat), fn < 4 ∧ s.mode = .maintenance) :=
  ⟨⟨State.reset, 3, 0, by decide +kernel⟩,
   ⟨up, 3, by decide +kernel⟩,
   ⟨up, 0, by decide +kernel⟩,
   ⟨(inMode .maintenance), 0, by decide +kernel⟩⟩

theorem witness_CrcUnitsComplete :
    (∃ (f : Nat) (c : Nat) (u : Nat), ((f < 4 ∧ c = f + 1) ∨ (f = 7 ∧ c = 8)) ∧ u < 4) ∧
    (∃ (f : Nat) (c : Nat) (u : Nat) (d : Bytes), ((f < 4 ∧ c = f + 1) ∨ (f = 7 ∧ c = 8)) ∧ u < 4 ∧ 1 ≤ d.length ∧ d.length ≤ 4) ∧
    (∃ (s : State) (f : Nat) (c : Nat) (u : Nat), ((f < 4 ∧ c = f + 1) ∨ (f = 7 ∧ c = 8)) ∧ u < 4 ∧ (s.crcUnit u).busy = false) ∧
    (∃ (s : State) (f : Nat) (c : Nat) (u : Nat) (d : Bytes), ((f < 4 ∧ c = f + 1) ∨ (f = 7 ∧ c = 8)) ∧ u < 4 ∧ (s.crcUnit u).busy = true ∧
      d.length = (s.crcUnit u).dmaLen.toNat) ∧
    (∃ (s : State) (f : Nat) (c : Nat) (u : Nat), ((f < 4 ∧ c = f + 1) ∨ (f = 7 ∧ c = 8)) ∧ u < 4 ∧ (s.crcUnit u).busy = true) :=
  ⟨⟨3, 4, 3, by decide +kernel⟩,
   ⟨7, 8, 3, ([1, 2, 3, 4]), by decide +kernel⟩,
   ⟨up, 3, 4, 3, by decide +kernel⟩,
   ⟨({ up with crc := [(3, { CrcUnit.reset with owner := 4, busy := true, dmaLen := 2 })] }), 3, 4, 3, ([1, 2]), by decide +kernel⟩,
   ⟨({ up with crc := [(3, { CrcUnit.reset with owner := 8, busy := true })] }), 7, 8, 3, by decide +kernel⟩⟩

theorem witness_PcieFunctionsReset :
    (∃ (s : State) (f : Nat) (v : Nat), f < 4 ∧ v < 4 ∧ (s.mb f).msixPending = 0) ∧
    (∃ (s : State) (f : Nat) (v : Nat), f < 4 ∧ v < 4 ∧ (s.mb f).msixPending = BitVec.ofNat 4 (2 ^ v) ∧ (s.mb f).msixFnMask = false) ∧
    (∃ (f : Nat), f < 4) :=
  ⟨⟨up, 3, 3, by decide +kernel⟩,
   ⟨({ up with mbx := [(3, { mbOn with msixPending := 8 })] }), 3, 3, by decide +kernel⟩,
   ⟨3, by decide +kernel⟩⟩

theorem witness_MediaRestartEndsObjects :
    (∃ (r : Req) (s : State) (s1 : State), s.turn 0x0004 r = some s1 ∧ r.target = 0 ∧ r.payload = [] ∧ (s1.mode = .ready ∨ s1.inService = true) ∧
      (∀ g, g < 5 → g ≠ r.mbx → (s.mb g).flight = none ∧ (s.mb g).taken = [])) ∧
    (∃ (s : State) (x : Restart), s.sys.restart = some x) ∧
    (∃ (s : State), s.sys.restart = none) :=
  ⟨⟨(rq []), up, (after 0x0004 (rq []) (up)), turn_after (by decide +kernel), by decide +kernel⟩,
   ⟨({ up with sys := { up.sys with restart := some { from_ := .standalone, by_ := none, cause := 8, aborted := 0, dropped := 0, block := 1 } } }), ({ from_ := .standalone, by_ := none, cause := 8, aborted := 0, dropped := 0, block := 1 }), by decide +kernel⟩,
   ⟨up, by decide +kernel⟩⟩

theorem witness_ResetsComplete :
    (∃ (r : Req) (s : State) (s1 : State), s.turn 0x0003 r = some s1 ∧ r.target = 0 ∧ r.payload.length = 4 ∧
      (u8 r.payload 0 = 1 ∨ u8 r.payload 0 = 2) ∧ zeros r.payload 1 3 = true ∧ s1.resetRights r.mbx = true ∧
      (∀ g, g < 5 → g ≠ r.mbx → (s.mb g).flight = none ∧ (s.mb g).taken = []) ∧ s.nvm.jobs = []) ∧
    (∃ (r : Req) (s : State) (s1 : State), s.turn 0x0003 r = some s1 ∧ r.target = 0 ∧ r.payload.length = 4 ∧
      (u8 r.payload 0 = 1 ∨ u8 r.payload 0 = 2) ∧ zeros r.payload 1 3 = true ∧ s1.resetRights r.mbx = false) ∧
    (∃ (s : State), s.mode ≠ .reset ∧ s.nvm.jobs = []) ∧
    (∃ (s : State), s.mode ≠ .reset ∧ s.nvm.jobs ≠ [] ∧ s.sys.resetDue = none) ∧
    (∃ (s : State) (f : Bytes) (b : Bool), s.chainActs 6 b (· == 1) f = true ∧ b = (u8 f 1 % 32 == 0) ∧ u8 (chainData f) 0 = 1 ∧
      s.sys.strapNmc = true ∧ s.nvm.jobs = []) ∧
    (∃ (s : State) (f : Bytes) (b : Bool), s.chainActs 6 b (· == 1) f = true ∧ b = (u8 f 1 % 32 == 0) ∧ u8 (chainData f) 0 = 2 ∧
      s.sys.strapNmc = true ∧ s.nvm.jobs = []) ∧
    (∃ (s : State) (f : Bytes), s.chainActs 6 false (· == 1) f = true ∧ s.sys.strapNmc = false ∧ u8 (chainData f) 0 = 1) ∧
    (∃ (s : State) (f : Bytes), s.chainActs 6 false (· == 1) f = true ∧ s.sys.strapNmc = false ∧ u8 (chainData f) 0 = 2) :=
  ⟨⟨(rq [1, 0, 0, 0]), up, (after 0x0003 (rq [1, 0, 0, 0]) (up)), turn_after (by decide +kernel), by decide +kernel⟩,
   ⟨({ rq [2, 0, 0, 0] with mbx := 4 }), up, (after 0x0003 ({ rq [2, 0, 0, 0] with mbx := 4 }) (up)), turn_after (by decide +kernel), by decide +kernel⟩,
   ⟨up, by decide +kernel⟩,
   ⟨({ up with nvm := { up.nvm with jobs := [[]] } }), by decide +kernel⟩,
   ⟨({ up with sys := { up.sys with strapNmc := true }, nmc := { up.nmc with addr := 3 } }), (cframe 6 3 0 [1]), false, by decide +kernel⟩,
   ⟨({ up with sys := { up.sys with strapNmc := true }, nmc := { up.nmc with addr := 3 } }), (cframe 6 0 0 [2]), true, by decide +kernel⟩,
   ⟨({ up with nmc := { up.nmc with addr := 31 } }), (cframe 6 31 0 [1]), by decide +kernel⟩,
   ⟨({ up with nmc := { up.nmc with addr := 31 } }), (cframe 6 31 0 [2]), by decide +kernel⟩⟩

theorem witness_BringUpCompletes :
    (∃ (c : Nat) (a : Nat), c < 4 ∧ a < 8) ∧
    (∃ (s : State) (n : Nat), 1 ≤ n ∧ n ≤ 9 ∧ s.rails.waiting = true ∧ n = s.rails.on + 1) ∧
    (∃ (s : State), s.rails.gap = true) ∧
    (∃ (s : State), 3 ≤ s.rails.on ∧ s.sys.refclk = true) ∧
    (∃ (s : State), s.mode = .reset ∧ s.rails.on = 9 ∧ s.sys.pll = true ∧ s.sys.refclk = true ∧ s.rails.hot = false ∧ s.rails.down = false) ∧
    (∃ (s : State), s.mode = .boot ∧ s.sys.fill = false) ∧
    (∃ (s : State), s.mode = .boot ∧ s.sys.fill = true) ∧
    (∃ (s : State), s.mode = .calibrate) :=
  ⟨⟨3, 7, by decide +kernel⟩,
   ⟨({ State.reset with rails := { State.reset.rails with waiting := true, on := 8 } }), 9, by decide +kernel⟩,
   ⟨({ State.reset with rails := { State.reset.rails with gap := true } }), by decide +kernel⟩,
   ⟨up, by decide +kernel⟩,
   ⟨({ State.reset with sys := { State.reset.sys with pll := true }, rails := { State.reset.rails with on := 9 } }), by decide +kernel⟩,
   ⟨(inMode .boot), by decide +kernel⟩,
   ⟨({ State.reset with sys := { State.reset.sys with mode := .boot } }), by decide +kernel⟩,
   ⟨(inMode .calibrate), by decide +kernel⟩⟩

theorem witness_FatalConditionsHalt :
    (∃ (s : State) (ph : Nat), s.mode ≠ .reset ∧ s.mode ≠ .halt ∧ (ph < 12 ∨ ph = 0xFF)) ∧
    (∃ (s : State) (n : Nat), s.mode ≠ .reset ∧ s.mode ≠ .halt ∧ 1 ≤ n ∧ n ≤ 9 ∧ n ≤ s.rails.on ∧ s.rails.down = false) ∧
    (∃ (s : State), s.mode ≠ .reset ∧ s.mode ≠ .halt) ∧
    (∃ (s : State) (c : Nat), s.nvm.jobs = [] ∧ s.sys.after = none ∧ s.mode = .halt ∧ s.sys.halted = some c ∧ c ≠ 0x0A ∧ s.rst.haltCount < 3) ∧
    (∃ (s : State) (c : Nat), s.nvm.jobs = [] ∧ s.sys.after = none ∧ s.mode = .halt ∧ s.sys.halted = some c ∧ (c = 0x0A ∨ 3 ≤ s.rst.haltCount)) ∧
    (∃ (s : State), s.mode ≠ .reset ∧ s.mode ≠ .halt) ∧
    (∃ (s : State) (c : Nat), s.nvm.jobs = [] ∧ s.sys.after = some c) ∧
    (∃ (s : State), s.sys.restart = none ∧ (s.mode = .ready ∨ s.inService = true)) ∧
    (∃ (s : State), s.mode ≠ .reset ∧ s.mode ≠ .halt ∧ s.mode ≠ .boot) ∧
    (∃ (s : State), s.sys.pwrFail = true) ∧
    (∃ (s : State) (f : Nat), f < 4 ∧ s.mode.isOpen = true) :=
  ⟨⟨up, 0xFF, by decide +kernel⟩,
   ⟨up, 9, by decide +kernel⟩,
   ⟨up, by decide +kernel⟩,
   ⟨({ inMode .halt with sys := { (inMode .halt).sys with halted := some 1 } }), 1, by decide +kernel⟩,
   ⟨({ inMode .halt with sys := { (inMode .halt).sys with halted := some 10 } }), 10, by decide +kernel⟩,
   ⟨up, by decide +kernel⟩,
   ⟨({ up with sys := { up.sys with after := some 6 } }), 6, by decide +kernel⟩,
   ⟨up, by decide +kernel⟩,
   ⟨up, by decide +kernel⟩,
   ⟨({ up with sys := { up.sys with pwrFail := true } }), by decide +kernel⟩,
   ⟨up, 3, by decide +kernel⟩⟩

theorem witness_NvmWritesComplete :
    (∃ (s : State) (r : Bytes) (l : List Bytes), s.nvm.jobs = r :: l ∧ s.sys.resetDue = none ∧ s.nvm.word + 1 < 16) ∧
    (∃ (s : State) (r : Bytes) (l : List Bytes), s.nvm.jobs = r :: l ∧ s.sys.resetDue = none ∧ s.nvm.word = 15 ∧
      4 ≤ (s.nvm.setSec s.nvm.sector .record (s.nvm.sec s.nvm.sector).2).usable) ∧
    (∃ (s : State) (cold : Bool) (c : Nat), s.sys.resetDue = some (cold, c)) ∧
    (∃ (s : State) (i : Nat), s.nvm.erase = some i ∧ (s.nvm.sec i).2 + 1 < 950000) :=
  ⟨⟨({ up with nvm := { up.nvm with jobs := [[1]], word := 14 } }), ([1]), ([]), by decide +kernel⟩,
   ⟨({ up with nvm := { up.nvm with jobs := [[1]], word := 15 } }), ([1]), ([]), by decide +kernel⟩,
   ⟨({ up with sys := { up.sys with resetDue := some (true, 2) } }), true, 2, by decide +kernel⟩,
   ⟨({ up with nvm := { up.nvm with erase := some 0 } }), 0, by decide +kernel⟩⟩

theorem witness_PmbusAnswers :
    ∃ (c : _), c < 256 ∧ c ∉ [0x03, 0x20, 0x79, 0x8B, 0x8C, 0x8D, 0x8E, 0x96, 0xD0] :=
  ⟨255, by decide +kernel⟩

theorem witness_PowerAndModeCommandsComplete :
    (∃ (r : Req) (s : State) (s1 : State), s.turn 0x0F00 r = some s1 ∧ r.target = 0 ∧ r.payload.length = 4 ∧ 1 ≤ u8 r.payload 0 ∧ u8 r.payload 0 ≤ 3 ∧
      zeros r.payload 1 3 = true ∧ u8 r.payload 0 = s1.pwr.cls) ∧
    (∃ (r : Req) (s : State) (s1 : State), s.turn 0x0F00 r = some s1 ∧ r.target = 0 ∧ r.payload.length = 4 ∧ 1 ≤ u8 r.payload 0 ∧ u8 r.payload 0 ≤ 3 ∧
      zeros r.payload 1 3 = true ∧ u8 r.payload 0 ≠ s1.pwr.cls ∧ (s1.pwr.cls < u8 r.payload 0 ∨ s1.classOver (u8 r.payload 0) = none)) ∧
    (∃ (r : Req) (s : State) (s1 : State), s.turn 0x0F01 r = some s1 ∧ r.target = 0 ∧ r.payload.length = 4 ∧ zeros r.payload 3 1 = true ∧ signed 8 (u8
      r.payload 0) < signed 8 (u8 r.payload 1) ∧ signed 8 (u8 r.payload 1) < signed 8 (u8 r.payload 2) ∧ signed 8 (u8 r.payload 2) ≤ (if Config.gradeX
      then 120 else 115)) ∧
    (∃ (r : Req) (s : State) (s1 : State), s.turn 0x0F02 r = some s1 ∧ r.target = 0 ∧ r.payload = []) ∧
    (∃ (r : Req) (s : State) (s1 : State), s.turn 0x0F03 r = some s1 ∧ r.target = 0 ∧ r.payload = []) ∧
    (∃ (r : Req) (s : State) (s1 : State) (m : _), s.turn 0x0F10 r = some s1 ∧ r.target = 0 ∧ r.payload.length = 4 ∧ zeros r.payload 1 3 = true ∧
      modeNamed (u8 r.payload 0) = some m ∧ s1.mode = m) ∧
    (∃ (r : Req) (s : State) (s1 : State) (m : _), s.turn 0x0F10 r = some s1 ∧ r.target = 0 ∧ r.payload.length = 4 ∧ zeros r.payload 1 3 = true ∧
      modeNamed (u8 r.payload 0) = some m ∧ s1.mode ≠ m ∧ s1.mayMove m = true) ∧
    (∃ (r : Req) (s : State) (s1 : State) (l : List (Nat × Bytes)), s.turn 0x0F11 r = some s1 ∧ r.target = 0 ∧ r.payload.length = 20 ∧ u16 r.payload 2
      ≤ 128 ∧ u32 r.payload 12 = 128 * u16 r.payload 2 ∧ zeros r.payload 16 4 = true ∧ l = (s1.nvm.records.drop (u16 r.payload 0)).take (u16 r.payload
      2) ∧ l.flatMap (·.2) ≠ []) ∧
    (∃ (r : Req) (s : State) (s1 : State), s.turn 0x0F11 r = some s1 ∧ r.target = 0 ∧ r.payload.length = 20 ∧ u16 r.payload 2 = 0 ∧ u32 r.payload 12 =
      0 ∧ zeros r.payload 16 4 = true) :=
  ⟨⟨(rq [1, 0, 0, 0]), up, (after 0x0F00 (rq [1, 0, 0, 0]) (up)), turn_after (by decide +kernel), by decide +kernel⟩,
   ⟨(rq [3, 0, 0, 0]), up, (after 0x0F00 (rq [3, 0, 0, 0]) (up)), turn_after (by decide +kernel), by decide +kernel⟩,
   ⟨(rq [90, 100, 115, 0]), up, (after 0x0F01 (rq [90, 100, 115, 0]) (up)), turn_after (by decide +kernel), by decide +kernel, by decide +kernel,
    by decide +kernel, by decide +kernel, by decide +kernel, by split <;> decide⟩,
   ⟨(rq []), up, (after 0x0F02 (rq []) (up)), turn_after (by decide +kernel), by decide +kernel⟩,
   ⟨(rq []), up, (after 0x0F03 (rq []) (up)), turn_after (by decide +kernel), by decide +kernel⟩,
   ⟨(rq [4, 0, 0, 0]), up, (after 0x0F10 (rq [4, 0, 0, 0]) (up)), .standalone, turn_after (by decide +kernel), by decide +kernel⟩,
   ⟨(rq [3, 0, 0, 0]), up, (after 0x0F10 (rq [3, 0, 0, 0]) (up)), .ready, turn_after (by decide +kernel), by decide +kernel⟩,
   ⟨(rq (le 2 0 ++ le 2 1 ++ zz 8 ++ le 4 128 ++ zz 4)), ({ up with nvm := { up.nvm with records := [(0, zz 128)] } }),
    (after 0x0F11 (rq (le 2 0 ++ le 2 1 ++ zz 8 ++ le 4 128 ++ zz 4)) ({ up with nvm := { up.nvm with records := [(0, zz 128)] } })), ([(0, zz 128)]),
    turn_after (by decide +kernel), by decide +kernel⟩,
   ⟨(rq (zz 20)), up, (after 0x0F11 (rq (zz 20)) (up)), turn_after (by decide +kernel), by decide +kernel⟩⟩

theorem witness_FirmwareAndDebugCommandsComplete :
    (∃ (r : Req) (s : State) (s1 : State), s.turn 0x0F12 r = some s1 ∧ r.target = 0 ∧ r.payload.length = 20 ∧ u8 r.payload 0 < 2 ∧ u8 r.payload 0 ≠
      s1.sys.slot ∧ zeros r.payload 1 3 = true ∧ u32 r.payload 12 ≤ slotSize ∧ zeros r.payload 16 4 = true ∧ u32 r.payload 12 = 0) ∧
    (∃ (r : Req) (s : State) (s1 : State), s.turn 0x0F12 r = some s1 ∧ r.target = 0 ∧ r.payload.length = 20 ∧ u8 r.payload 0 < 2 ∧ u8 r.payload 0 ≠
      s1.sys.slot ∧ zeros r.payload 1 3 = true ∧ u32 r.payload 12 ≤ slotSize ∧ zeros r.payload 16 4 = true ∧ u32 r.payload 12 ≠ 0) ∧
    (∃ (s : State) (u : State) (f : Nat) (x : Flight), f < 5 ∧ (s.mb f).flight = some x ∧ x.wait = .flash ∧ (∀ g, g < 5 → g ≠ f → (s.mb g).flight.all
      (fun y => y.wait != .flash) = true) ∧ u = (s.updMb f fun m => { m with flight := none })) ∧
    (∃ (r : Req) (s : State) (s1 : State), s.turn 0x0F13 r = some s1 ∧ r.target = 0 ∧ r.payload.length = 36 ∧ s1.mode = .ready ∧ s1.onyx.otp = none ∧
      (aes256 (r.payload.take 32) (List.replicate 16 0)).take 4 = r.payload.drop 32) ∧
    (∃ (r : Req) (s : State) (s1 : State), s.turn 0x0F14 r = some s1 ∧ r.target = 0 ∧ r.payload = [] ∧ s1.sys.otpCounter ≤ 64 ∧ s1.sys.secVersion ≤
      64) ∧
    (∃ (r : Req) (s : State) (s1 : State), s.turn 0x0F15 r = some s1 ∧ r.target = 0 ∧ r.payload = []) ∧
    (∃ (r : Req) (s : State) (s1 : State) (c : _), s.turn 0x0F16 r = some s1 ∧ r.target = 0 ∧ r.payload.length = 96 ∧ s1.sys.challenge = some c) ∧
    (∃ (r : Req) (s : State) (s1 : State), s.turn 0x0F17 r = some s1 ∧ r.target = 0 ∧ r.payload.length = 4 ∧ u8 r.payload 0 < 32 ∧ u8 r.payload 1 < 4
      ∧ zeros r.payload 2 2 = true ∧ s1.mode = .maintenance ∧ s1.laneLive (u8 r.payload 0) = false) ∧
    (∃ (r : Req) (s : State) (s1 : State), s.turn 0x0F18 r = some s1 ∧ r.target = 0 ∧ r.payload.length = 4 ∧ u8 r.payload 0 < 32 ∧ zeros r.payload 1 3
      = true) :=
  ⟨⟨(rq ([1] ++ zz 19)), up, (after 0x0F12 (rq ([1] ++ zz 19)) (up)), turn_after (by decide +kernel), by decide +kernel⟩,
   ⟨(rq ([1] ++ zz 11 ++ [0, 2, 0, 0, 0, 0, 0, 0])), up, (after 0x0F12 (rq ([1] ++ zz 11 ++ [0, 2, 0, 0, 0, 0, 0, 0])) (up)),
    turn_after (by decide +kernel), by decide +kernel⟩,
   ⟨({ up with mbx := [(3, { mbOn with flight := some { op := 0x0F12, req := { rq ([1] ++ zz 19) with mbx := 3 }, resp := [], wait := .flash } })] } : State),
    (({ up with mbx := [(3, { mbOn with flight := some { op := 0x0F12, req := { rq ([1] ++ zz 19) with mbx := 3 }, resp := [], wait := .flash } })] } : State).updMb 3 fun m => { m with flight := none }),
    3, ({ op := 0x0F12, req := { rq ([1] ++ zz 19) with mbx := 3 }, resp := [], wait := .flash }), by decide +kernel, by decide +kernel,
    by decide +kernel, by decide +kernel, rfl⟩,
   ⟨(rq (zz 32 ++ [0xDC, 0x95, 0xC0, 0x78])), (inMode .ready), (after 0x0F13 (rq (zz 32 ++ [0xDC, 0x95, 0xC0, 0x78])) (inMode .ready)),
    turn_after (by decide +kernel), by decide +kernel⟩,
   ⟨(rq []), up, (after 0x0F14 (rq []) (up)), turn_after (by decide +kernel), by decide +kernel⟩,
   ⟨(rq []), up, (after 0x0F15 (rq []) (up)), turn_after (by decide +kernel), by decide +kernel⟩,
   ⟨(rq (zz 96)), ({ up with sys := { up.sys with challenge := some (zz 16) } }),
    (after 0x0F16 (rq (zz 96)) ({ up with sys := { up.sys with challenge := some (zz 16) } })), (zz 16), turn_after (by decide +kernel),
    by decide +kernel⟩,
   ⟨(rq [31, 3, 0, 0]), (inMode .maintenance), (after 0x0F17 (rq [31, 3, 0, 0]) (inMode .maintenance)), turn_after (by decide +kernel),
    by decide +kernel⟩,
   ⟨(rq [31, 0, 0, 0]), up, (after 0x0F18 (rq [31, 0, 0, 0]) (up)), turn_after (by decide +kernel), by decide +kernel⟩⟩

theorem witness_PowerEventsComplete :
    (∃ (l : List Nat), l.length = 12) ∧
    (∃ (s : State) (l : List Int), l.length = 16 ∧ s.mode ≠ .reset ∧ s.mode ≠ .halt) ∧
    (∃ (s : State), s.mode ≠ .reset ∧ s.mode ≠ .halt) ∧
    (∃ (l : List Int), l.length = 9) ∧
    (∃ (s : State), s.mode = .shed ∧ s.shedNow = false) ∧
    (∃ (s : State), s.mode = .shed ∧ s.shedNow = true ∧ 1 < s.pwr.cls4 ∧ s.pwr.cls4 < 4 ∧ s.pwr.shedAt + 100000000 ≤ s.now) ∧
    (∃ (s : State) (m : Mode), s.mode = .shed ∧ 500 ≤ s.pwr.calm ∧ s.sys.remembered = some m ∧ m ≠ .shed) :=
  ⟨⟨(List.replicate 12 10), by decide +kernel⟩,
   ⟨up, (List.replicate 16 30), by decide +kernel⟩,
   ⟨up, by decide +kernel⟩,
   ⟨(List.replicate 9 40), by decide +kernel⟩,
   ⟨({ inMode .shed with pwr := { up.pwr with shed := 98 } }), by decide +kernel⟩,
   ⟨({ inMode .shed with pwr := { up.pwr with shed := 98, limit := true, cls4 := 3 } }), by decide +kernel⟩,
   ⟨({ inMode .shed with pwr := { up.pwr with calm := 500 }, sys := { up.sys with mode := .shed, remembered := some .standalone } }), .standalone,
    by decide +kernel⟩⟩

theorem witness_RailFailuresComplete :
    (∃ (s : State), s.rails.waiting = true) ∧
    (∃ (s : State), s.rails.retry = true) ∧
    (∃ (s : State), s.rails.hot = true ∧ s.pwr.aon ≤ s.pwr.trip - 20) ∧
    (∃ (s : State), s.rails.down = true) ∧
    (∃ (s : State), (s.net.ports.map (·.1)).Nodup) :=
  ⟨⟨({ State.reset with rails := { State.reset.rails with waiting := true } }), by decide +kernel⟩,
   ⟨({ State.reset with rails := { State.reset.rails with retry := true } }), by decide +kernel⟩,
   ⟨({ State.reset with rails := { State.reset.rails with hot := true }, pwr := { State.reset.pwr with aon := 25, trip := 115 } }), by decide +kernel⟩,
   ⟨({ State.reset with rails := { State.reset.rails with down := true, on := 1 } }), by decide +kernel⟩,
   ⟨({ up with net := { up.net with ports := [(0, { Port.init with up := true })] } }), by decide +kernel⟩⟩

theorem witness_MatrixCommandsComplete :
    (∃ (r : Req) (s : State) (s1 : State) (ws : _) (b : _), s.turn 0x0300 r = some s1 ∧ r.target = 0 ∧ r.payload.length = 4 + 12 * u16 r.payload 0 ∧
      zeros r.payload 2 2 = true ∧ s1.nodeWrites 0 (nodeEntries (r.payload.drop 4) (u16 r.payload 0)) = .ok ws ∧ ws ≠ [] ∧ (∀ e ∈ nodeEntries
      (r.payload.drop 4) (u16 r.payload 0), e.2.2.2 = 0) ∧ (∀ w ∈ ws, s1.breaksNode w.2.2.1 w.2.2.2 w.2.1 = false) ∧ s1.placeBlock r.mbx ws.length =
      some b ∧ s1.admits (tileCost (s1.tileAsk (s1.matrix.withWrites b (r.origin 0) ws) (tilesOf (ws.map (·.1))))) = true) ∧
    (∃ (r : Req) (s : State) (s1 : State), s.turn 0x0301 r = some s1 ∧ r.target = 0 ∧ r.payload.length = 24 ∧ u32 r.payload 0 ≤ 65536 ∧ u32 r.payload
      16 = 12 * u32 r.payload 0 ∧ 0 < u32 r.payload 0 ∧ zeros r.payload 4 4 = true ∧ zeros r.payload 20 4 = true) ∧
    (∃ (r : Req) (s : State) (s1 : State) (ka : _) (kb : _) (b : _) (gains : _) (cut : _), s.turn 0x0302 r = some s1 ∧ r.target = 0 ∧ r.payload.length
      = 12 ∧ s1.lives (u32 r.payload 0) ka 0x02 ∧ s1.lives (u32 r.payload 4) kb 0x02 ∧ 1 ≤ u8 r.payload 10 ∧ u8 r.payload 10 ≤ 10 ∧ zeros r.payload 11
      1 = true ∧ s1.breaksNode ka kb (BitVec.ofNat 16 (u16 r.payload 8)) = false ∧ s1.matrix.mayFade (node (s1.legM ka) (s1.legM kb)) gains.length =
      true ∧ s1.placeFade r.mbx (node (s1.legM ka) (s1.legM kb)) (BitVec.ofNat 16 (u16 r.payload 8)) (u8 r.payload 10) = some (b, gains, cut) ∧
      s1.admits (tileCost (s1.tileAsk (s1.matrix.withFade (fadeOf r s1 ka kb b gains cut)) [tileOf (node (s1.legM ka) (s1.legM kb))])) = true) ∧
    (∃ (r : Req) (s : State) (s1 : State) (ka : _) (kb : _), s.turn 0x0303 r = some s1 ∧ r.target = 0 ∧ r.payload.length = 8 ∧ s1.lives (u32 r.payload
      0) ka 0x02 ∧ s1.lives (u32 r.payload 4) kb 0x02) ∧
    (∃ (r : Req) (s : State) (s1 : State), s.turn 0x0304 r = some s1 ∧ r.target = 0 ∧ r.payload.length = 16 ∧ u32 r.payload 8 = 8192 ∧ zeros r.payload
      12 4 = true) ∧
    (∃ (r : Req) (s : State) (s1 : State), s.turn 0x030B r = some s1 ∧ r.target = 0 ∧ r.payload = []) ∧
    (∃ (r : Req) (s : State) (s1 : State) (key : _), s.turn 0x0110 r = some s1 ∧ r.payload.length = 4 ∧ s1.lives r.tgt key 0x01 ∧ u8 r.payload 0 = 0 ∧
      zeros r.payload 1 1 = true) ∧
    (∃ (r : Req) (s : State) (s1 : State) (key : _) (ws : _) (b : _), s.turn 0x0110 r = some s1 ∧ r.payload.length = 4 ∧ s1.lives r.tgt key 0x01 ∧ u8
      r.payload 0 = 1 ∧ (s1.members (kidx key) true).length ≤ 256 ∧ zeros r.payload 1 1 = true ∧ s1.breaksSession (s1.members (kidx key) false) =
      false ∧ ws = s1.meshWrites (kidx key) (BitVec.ofNat 16 (u16 r.payload 2)) ∧ ws ≠ [] ∧ s1.placeBlock r.mbx ws.length = some b ∧ s1.admits
      (tileCost (s1.tileAsk (s1.matrix.withWrites b (r.origin r.tgt) ws) (tilesOf (ws.map (·.1))))) = true) :=
  ⟨⟨(rq (le 2 1 ++ zz 2 ++ le 4 (hd 2 0) ++ le 4 (hd 2 1) ++ le 2 0x2000 ++ zz 2)), studio,
    (after 0x0300 (rq (le 2 1 ++ zz 2 ++ le 4 (hd 2 0) ++ le 4 (hd 2 1) ++ le 2 0x2000 ++ zz 2)) (studio)),
    ([(node 5 70, 0x2000, okey 2 0, okey 2 1)]), 501, turn_after (by decide +kernel), by decide +kernel, by decide +kernel, by decide +kernel,
    ok_of (by decide +kernel), by decide +kernel⟩,
   ⟨(rq (le 4 65536 ++ zz 4 ++ le 8 0 ++ le 4 786432 ++ zz 4)), up, (after 0x0301 (rq (le 4 65536 ++ zz 4 ++ le 8 0 ++ le 4 786432 ++ zz 4)) (up)),
    turn_after (by decide +kernel), by decide +kernel⟩,
   ⟨(rq (le 4 (hd 2 0) ++ le 4 (hd 2 1) ++ le 2 12 ++ [10, 0])), studio,
    (after 0x0302 (rq (le 4 (hd 2 0) ++ le 4 (hd 2 1) ++ le 2 12 ++ [10, 0])) (studio)), (okey 2 0), (okey 2 1), 501, ([8, 9, 10, 12, 12]), false,
    turn_after (by decide +kernel), by decide +kernel, by decide +kernel, ok_of (by decide +kernel), ok_of (by decide +kernel), by decide +kernel⟩,
   ⟨(rq (le 4 (hd 2 0) ++ le 4 (hd 2 1))), studio, (after 0x0303 (rq (le 4 (hd 2 0) ++ le 4 (hd 2 1))) (studio)), (okey 2 0), (okey 2 1),
    turn_after (by decide +kernel), by decide +kernel, by decide +kernel, ok_of (by decide +kernel), ok_of (by decide +kernel)⟩,
   ⟨(rq (le 8 0 ++ le 4 8192 ++ zz 4)), up, (after 0x0304 (rq (le 8 0 ++ le 4 8192 ++ zz 4)) (up)), turn_after (by decide +kernel), by decide +kernel⟩,
   ⟨(rq []), up, (after 0x030B (rq []) (up)), turn_after (by decide +kernel), by decide +kernel⟩,
   ⟨(rt (hd 1 0) (zz 4)), studio, (after 0x0110 (rt (hd 1 0) (zz 4)) (studio)), (okey 1 0), turn_after (by decide +kernel), by decide +kernel,
    ok_of (by decide +kernel), by decide +kernel⟩,
   ⟨(rt (hd 1 0) ([1, 0] ++ le 2 0x1000)), (studio), (after 0x0110 (rt (hd 1 0) ([1, 0] ++ le 2 0x1000)) (studio)), (okey 1 0),
    ((after 0x0110 (rt (hd 1 0) ([1, 0] ++ le 2 0x1000)) studio).meshWrites 0 0x1000), 501, turn_after (by decide +kernel), by decide +kernel,
    ok_of (by decide +kernel), by decide +kernel⟩⟩

theorem witness_MetersAndDucksComplete :
    (∃ (r : Req) (s : State) (s1 : State) (pts : _) (i : _), s.turn 0x0305 r = some s1 ∧ r.target = 0 ∧ r.payload.length = 8 + 8 * u8 r.payload 6 ∧
      s1.meterPoints r.payload 0 (u8 r.payload 6) = .ok pts ∧ s1.inService = true ∧ 20 ≤ u16 r.payload 0 ∧ u16 r.payload 0 ≤ 10000 ∧
      u16 r.payload 0 % 2 = 0 ∧ u16 r.payload 2 ≤ 10000 ∧ u16 r.payload 4 ≤ 1000 ∧ 1 ≤ u8 r.payload 6 ∧ u8 r.payload 6 ≤ 16 ∧
      zeros r.payload 7 1 = true ∧ (∀ i < u8 r.payload 6, (u8 r.payload (12 + 8 * i) = 1 ∨ u8 r.payload (12 + 8 * i) = 2) ∧
      zeros r.payload (13 + 8 * i) 3 = true) ∧ s1.lowestFree 0x0C 0 4096 = some i ∧ i < 2 ^ 20) ∧
    (∃ (r : Req) (s : State) (s1 : State) (ses : _) (i : _), s.turn 0x0307 r = some s1 ∧ r.target = 0 ∧ r.payload.length = 12 ∧
      s1.lives (u32 r.payload 0) ses 0x01 ∧ s1.inService = true ∧ u8 r.payload 4 ≤ 60 ∧ 1 ≤ u8 r.payload 5 ∧ u8 r.payload 5 ≤ 3 ∧
      1 ≤ u16 r.payload 6 ∧ u16 r.payload 6 ≤ 600 ∧ 1 ≤ u16 r.payload 8 ∧ u16 r.payload 8 ≤ 600 ∧ u16 r.payload 10 ≤ 5000 ∧ u16 r.payload 10 % 2 = 0 ∧
      s1.lowestFree 0x0D 0 1024 = some i ∧ i < 2 ^ 20) ∧
    (∃ (r : Req) (s : State) (s1 : State) (key : _), s.turn 0x0306 r = some s1 ∧ r.payload = [] ∧ s1.lives r.tgt key 0x0C) ∧
    (∃ (r : Req) (s : State) (s1 : State) (key : _), s.turn 0x0308 r = some s1 ∧ r.payload = [] ∧ s1.lives r.tgt key 0x0D) ∧
    (∃ (r : Req) (s : State) (s1 : State) (key : _) (legs : _), s.turn 0x0309 r = some s1 ∧ r.payload.length = 4 + 4 * u8 r.payload 1 ∧
      s1.lives r.tgt key 0x0D ∧ s1.duckLegs r.payload 0 (u8 r.payload 1) = .ok legs ∧ 1 ≤ u8 r.payload 0 ∧ u8 r.payload 0 ≤ 3 ∧
      u8 r.payload 1 ≤ 54 ∧ zeros r.payload 2 2 = true ∧ s1.duckBreak (kidx key) (u8 r.payload 0) (s1.ducksAhead (s1.firstBlock r.mbx)) legs = none) ∧
    (∃ (r : Req) (s : State) (s1 : State) (key : _), s.turn 0x030A r = some s1 ∧ r.payload.length = 4 ∧ s1.lives r.tgt key 0x0D ∧ u8 r.payload 0 ≤ 1 ∧
      zeros r.payload 1 3 = true) ∧
    (∃ (s : State) (i : Nat) (u : MeterSub), i < 4096 ∧ tget? s.matrix.subs i = some u ∧ u.period ≤ 2 * u.blocks) ∧
    (∃ (s : State) (g : Nat) (d : Duck), g < 1024 ∧ tget? s.matrix.ducks g = some d) :=
  ⟨⟨(rq (le 2 10000 ++ le 2 10000 ++ le 2 1000 ++ [1, 0] ++ le 4 (hd 2 0) ++ [2, 0, 0, 0])), studio, (after 0x0305 (rq (le 2 10000 ++ le 2 10000 ++ le 2 1000 ++ [1, 0] ++ le 4 (hd 2 0) ++ [2, 0, 0, 0])) (studio)), ([{ leg := okey 2 0, output := true, held := peakMilli 0, age := 0, peak := 0, msSum := 0, clipped := false }]), 1, turn_after (by decide +kernel), by decide +kernel, by decide +kernel, ok_of (by decide +kernel), by decide +kernel⟩,
   ⟨(rq (le 4 (hd 1 0) ++ [60, 3] ++ le 2 600 ++ le 2 600 ++ le 2 5000)), studio, (after 0x0307 (rq (le 4 (hd 1 0) ++ [60, 3] ++ le 2 600 ++ le 2 600 ++ le 2 5000)) (studio)), (okey 1 0), 1, turn_after (by decide +kernel), by decide +kernel, by decide +kernel, ok_of (by decide +kernel), by decide +kernel⟩,
   ⟨(rt (hd 12 0) []), studio, (after 0x0306 (rt (hd 12 0) []) (studio)), (okey 12 0), turn_after (by decide +kernel), by decide +kernel, ok_of (by decide +kernel)⟩,
   ⟨(rt (hd 13 0) []), studio, (after 0x0308 (rt (hd 13 0) []) (studio)), (okey 13 0), turn_after (by decide +kernel), by decide +kernel, ok_of (by decide +kernel)⟩,
   ⟨(rt (hd 13 0) ([1, 1, 0, 0] ++ le 4 (hd 2 0))), studio, (after 0x0309 (rt (hd 13 0) ([1, 1, 0, 0] ++ le 4 (hd 2 0))) (studio)), (okey 13 0), ([okey 2 0]), turn_after (by decide +kernel), by decide +kernel, ok_of (by decide +kernel), ok_of (by decide +kernel), by decide +kernel⟩,
   ⟨(rt (hd 13 0) [1, 0, 0, 0]), studio, (after 0x030A (rt (hd 13 0) [1, 0, 0, 0]) (studio)), (okey 13 0), turn_after (by decide +kernel), by decide +kernel, ok_of (by decide +kernel), by decide +kernel⟩,
   ⟨studio, 0, ({ period := 20, hold := 0, decay := 0, points := [], blocks := 10 }), by decide +kernel⟩,
   ⟨studio, 0, duck, by decide +kernel⟩⟩

theorem witness_LegsCreatedAndDestroyed :
    (∃ (r : Req) (s : State) (s1 : State) (i : _), s.turn 0x0100 r = some s1 ∧ r.target = 0 ∧ r.payload = [] ∧ s1.inService = true ∧ s1.lowestFree 1 0
      4096 = some i ∧ i < 2 ^ 20) ∧
    (∃ (r : Req) (s : State) (s1 : State) (key : _), s.turn 0x0101 r = some s1 ∧ r.payload = [] ∧ s1.lives r.tgt key 0x01 ∧ s1.members (kidx key) true
      = [] ∧ (∀ e ∈ s1.matrix.ducks, e.2.session ≠ kidx key) ∧ (∀ e ∈ s1.video.legs, u32 e.2.cfg 4 % 2 ^ 20 ≠ kidx key)) ∧
    (∃ (r : Req) (s : State) (s1 : State) (ses : _) (m : _) (i : _) (core : _) (kind : _), s.turn 0x0200 r = some s1 ∧ r.target = 0 ∧ u8 r.payload 0 =
      kind ∧ 1 ≤ kind ∧ kind ≤ 3 ∧ r.payload.length = (if kind = 2 then 32 else 96) ∧ s1.lives (u32 r.payload 4) ses 0x01 ∧ s1.inService = true ∧
      s1.autoGain (kidx ses) = none ∧ s1.autoGain (u32 r.payload 4 % 2 ^ 20) = none ∧ legCommonOk r.payload = true ∧ (kind = 1 → s1.portOk (u8
      r.payload 32) = true ∧ u32 r.payload 24 = 0 ∧ u32 r.payload 28 = 0 ∧ legRtpOk r.payload = true ∧ s1.keyHeld (legKeyOf r.payload) = false) ∧
      (kind = 2 → (∃ k, s1.lives (u32 r.payload 24) k 0x09) ∧ s1.timeslotOk r.payload = true ∧ zeros r.payload 29 3 = true ∧ codecFields 2 (u8
      r.payload 1) (u8 r.payload 12) (u8 r.payload 13) (u16 r.payload 14) (u16 r.payload 10) 0 0 0 = true ∧ u32 r.payload 24 ≠ 0) ∧ (kind = 3 → r.mbx
      < 4 ∧ zeros r.payload 24 8 = true ∧ legRtpOk r.payload = true) ∧ s1.pickNumber (u16 r.payload 8) = some m ∧ s1.lowestFree 2 0 16384 = some i ∧ i
      < 2 ^ 20 ∧ s1.admits (plusCost (s1.legCost r.payload) (s1.tilesFor r.mbx [])) = true ∧ s1.pickCore (codecQuanta kind (u8 r.payload 1)) = some
      core) ∧
    (∃ (r : Req) (s : State) (s1 : State) (key : _) (l : _) (b : _), s.turn 0x0201 r = some s1 ∧ r.payload = [] ∧ s1.lives r.tgt key 0x02 ∧ s1.leg key
      = some l ∧ l.trunk = false ∧ s1.critical key = false ∧ s1.placeBlock r.mbx 512 = some b) :=
  ⟨⟨(rq []), studio, (after 0x0100 (rq []) (studio)), 1, turn_after (by decide +kernel), by decide +kernel⟩,
   ⟨(rt (hd 1 0) []), ({ up with objs := [(okey 1 0, obj true true)] }),
    (after 0x0101 (rt (hd 1 0) []) ({ up with objs := [(okey 1 0, obj true true)] })), (okey 1 0), turn_after (by decide +kernel), by decide +kernel,
    ok_of (by decide +kernel), by decide +kernel⟩,
   ⟨(rq (legCfg (hd 1 0) 0xFFFF 7100)), studio, (after 0x0200 (rq (legCfg (hd 1 0) 0xFFFF 7100)) (studio)), (okey 1 0), 0, 2, 0, 1,
    turn_after (by decide +kernel),
    by and_intros <;> first | exact ok_of (by decide +kernel) | exact fun _ => by decide +kernel | exact fun h => absurd h (by decide) | decide +kernel⟩,
   ⟨(rt (hd 2 0) []), studio, (after 0x0201 (rt (hd 2 0) []) (studio)), (okey 2 0), (aLeg 5), 501, turn_after (by decide +kernel), by decide +kernel,
    ok_of (by decide +kernel), by decide +kernel⟩⟩

theorem witness_LegCommandsComplete :
    (∃ (r : Req) (s : State) (s1 : State) (key : _) (o : _), s.turn 0x0202 r = some s1 ∧ r.payload = [] ∧ s1.lives r.tgt key 0x02 ∧ s1.obj key = some
      o ∧ o.active = false ∧ (o.shed = false ∨ s1.mode ≠ .shed)) ∧
    (∃ (r : Req) (s : State) (s1 : State) (key : _) (o : _), s.turn 0x0203 r = some s1 ∧ r.payload = [] ∧ s1.lives r.tgt key 0x02 ∧ s1.obj key = some
      o ∧ o.active = true) ∧
    (∃ (r : Req) (s : State) (s1 : State) (key : _) (l : _), s.turn 0x0204 r = some s1 ∧ r.payload.length = 16 ∧ s1.lives r.tgt key 0x02 ∧ s1.leg key
      = some l ∧ l.trunk = false ∧ chainOk l.kind (u8 (s1.cfgAhead key l.cfg) 1) r.payload = true) ∧
    (∃ (r : Req) (s : State) (s1 : State) (key : _) (l : _), s.turn 0x0205 r = some s1 ∧ r.payload.length = 16 ∧ s1.lives r.tgt key 0x02 ∧ s1.leg key
      = some l ∧ l.trunk = false ∧ codecSetOk l.kind (s1.flagsAhead key l) r.payload = true ∧ s1.firstOver (overCost (plusCost (s1.legCost (withCodec
      (s1.cfgAhead key l.cfg) r.payload)) (s1.mirrorRise key (withCodec (s1.cfgAhead key l.cfg) r.payload))) (s1.legCost (s1.cfgAhead key l.cfg))) =
      none ∧ codecQuanta l.kind (u8 (withCodec (s1.cfgAhead key l.cfg) r.payload) 1) - codecQuanta l.kind (u8 (s1.cfgAhead key l.cfg) 1) ≤
      s1.coreRoom l.core) ∧
    (∃ (r : Req) (s : State) (s1 : State) (key : _) (l : _), s.turn 0x0206 r = some s1 ∧ r.payload.length = 16 ∧ s1.lives r.tgt key 0x02 ∧ s1.leg key
      = some l ∧ l.trunk = false ∧ s1.isActive key = true ∧ toneOk (l.kind != 2 && u8 (s1.cfgAhead key l.cfg) 36 != 255) (codedRate (u8 (s1.cfgAhead
      key l.cfg) 1) (u16 (s1.cfgAhead key l.cfg) 14)) r.payload = true) ∧
    (∃ (r : Req) (s : State) (s1 : State) (key : _), s.turn 0x0207 r = some s1 ∧ r.payload = [] ∧ s1.lives r.tgt key 0x02) ∧
    (∃ (r : Req) (s : State) (s1 : State) (key : _) (l : _), s.turn 0x0208 r = some s1 ∧ r.payload.length = 8 ∧ s1.lives r.tgt key 0x02 ∧ s1.leg key =
      some l ∧ l.trunk = false ∧ u16 r.payload 0 < 256 ∧ s1.isActive key = true ∧ thas s1.audio.clips (u16 r.payload 0) = true ∧ (u8 r.payload 2 = 1 ∨
      u8 r.payload 2 = 2) ∧ zeros r.payload 3 1 = true ∧ zeros r.payload 6 2 = true ∧ s1.admits playCost = true) ∧
    (∃ (r : Req) (s : State) (s1 : State), s.turn 0x0209 r = some s1 ∧ r.target = 0 ∧ r.payload.length = 20 ∧ u16 r.payload 0 < 256 ∧ s1.clipUsed (u16
      r.payload 0) = false ∧ zeros r.payload 2 2 = true ∧ zeros r.payload 16 4 = true ∧ 2 ≤ u32 r.payload 12 ∧ u32 r.payload 12 ≤ 2 ^ 24 ∧ u32
      r.payload 12 % 2 = 0) ∧
    (∃ (r : Req) (s : State) (s1 : State), s.turn 0x020A r = some s1 ∧ r.target = 0 ∧ r.payload.length = 4 ∧ u16 r.payload 0 < 256 ∧ s1.clipUsed (u16
      r.payload 0) = false ∧ zeros r.payload 2 2 = true) ∧
    (∃ (r : Req) (s : State) (s1 : State) (key : _) (l : _), s.turn 0x020B r = some s1 ∧ r.payload = [] ∧ s1.lives r.tgt key 0x02 ∧ s1.leg key = some
      l) ∧
    (∃ (s : State) (i : Nat) (l : Leg), i < 16384 ∧ tget? s.audio.legs i = some l ∧ l.tone = none ∧ l.clip = none) ∧
    (∃ (s : State) (i : Nat) (l : Leg) (x : _) (n : _), i < 16384 ∧ tget? s.audio.legs i = some l ∧ l.tone = some x ∧ l.clip = none ∧ s.playBlocks x =
      some n ∧ x.start + n ≤ s.block + 1) ∧
    (∃ (s : State) (i : Nat) (l : Leg), i < 16384 ∧ tget? s.audio.legs i = some l ∧ l.voice = true ∧ l.lastSpeech + u16 l.chain 8 / 2 ≤ s.block) ∧
    (∃ (s : State) (i : Nat) (l : Leg), i < 16384 ∧ tget? s.audio.legs i = some l ∧ l.rx = 2 ∧ 60 ≤ l.concealMs) :=
  ⟨⟨(rt (hd 2 0) []), (heldIn 2 0), (after 0x0202 (rt (hd 2 0) []) (heldIn 2 0)), (okey 2 0), (obj false false), turn_after (by decide +kernel),
    by decide +kernel, ok_of (by decide +kernel), by decide +kernel⟩,
   ⟨(rt (hd 2 0) []), studio, (after 0x0203 (rt (hd 2 0) []) (studio)), (okey 2 0), (obj true true), turn_after (by decide +kernel), by decide +kernel,
    ok_of (by decide +kernel), by decide +kernel⟩,
   ⟨(rt (hd 2 0) (chainOf 0xF0 |>.set 0 3)), studio, (after 0x0204 (rt (hd 2 0) (chainOf 0xF0 |>.set 0 3)) (studio)), (okey 2 0), (aLeg 5),
    turn_after (by decide +kernel), by decide +kernel, ok_of (by decide +kernel), by decide +kernel⟩,
   ⟨(rt (hd 2 0) ([2, 1, 20, 20] ++ le 2 640 ++ le 2 60 ++ le 2 218 ++ le 2 218 ++ [2, 8, 8, 0])), studio,
    (after 0x0205 (rt (hd 2 0) ([2, 1, 20, 20] ++ le 2 640 ++ le 2 60 ++ le 2 218 ++ le 2 218 ++ [2, 8, 8, 0])) (studio)), (okey 2 0), (aLeg 5),
    turn_after (by decide +kernel), by decide +kernel, ok_of (by decide +kernel), by decide +kernel⟩,
   ⟨(rt (hd 2 0) ([1, 2, 0, 40] ++ le 2 425 ++ le 2 3600 ++ le 2 10000 ++ le 2 10000 ++ le 2 0 ++ zz 2)), studio,
    (after 0x0206 (rt (hd 2 0) ([1, 2, 0, 40] ++ le 2 425 ++ le 2 3600 ++ le 2 10000 ++ le 2 10000 ++ le 2 0 ++ zz 2)) (studio)), (okey 2 0), (aLeg 5),
    turn_after (by decide +kernel), by decide +kernel, ok_of (by decide +kernel), by decide +kernel⟩,
   ⟨(rt (hd 2 0) []), studio, (after 0x0207 (rt (hd 2 0) []) (studio)), (okey 2 0), turn_after (by decide +kernel), by decide +kernel,
    ok_of (by decide +kernel)⟩,
   ⟨(rt (hd 2 0) ([0, 0, 2, 0, 1, 0, 0, 0])), studio, (after 0x0208 (rt (hd 2 0) ([0, 0, 2, 0, 1, 0, 0, 0])) (studio)), (okey 2 0), (aLeg 5),
    turn_after (by decide +kernel), by and_intros <;> first | exact ok_of (by decide +kernel) | exact admits_ddr (by decide +kernel) | decide +kernel⟩,
   ⟨(rq (le 2 255 ++ zz 10 ++ le 4 16777216 ++ zz 4)), studio, (after 0x0209 (rq (le 2 255 ++ zz 10 ++ le 4 16777216 ++ zz 4)) (studio)),
    turn_after (by decide +kernel), by decide +kernel⟩,
   ⟨(rq (le 2 255 ++ zz 2)), studio, (after 0x020A (rq (le 2 255 ++ zz 2)) (studio)), turn_after (by decide +kernel), by decide +kernel⟩,
   ⟨(rt (hd 2 0) []), studio, (after 0x020B (rt (hd 2 0) []) (studio)), (okey 2 0), (aLeg 5), turn_after (by decide +kernel), by decide +kernel,
    ok_of (by decide +kernel), by decide +kernel⟩,
   ⟨studio, 0, (aLeg 5), by decide +kernel⟩,
   ⟨(studio.updLeg (okey 2 0) fun l => { l with tone := some { isClip := false, spec := zz 8 ++ le 2 10 ++ le 2 0 ++ le 2 1 ++ zz 2, start := 496, stop := none } }),
    0, ({ aLeg 5 with tone := some { isClip := false, spec := zz 8 ++ le 2 10 ++ le 2 0 ++ le 2 1 ++ zz 2, start := 496, stop := none } }),
    ({ isClip := false, spec := zz 8 ++ le 2 10 ++ le 2 0 ++ le 2 1 ++ zz 2, start := 496, stop := none }), 5, by decide +kernel⟩,
   ⟨(studio.updLeg (okey 2 0) fun l => { l with voice := true, lastSpeech := 400 }), 0, ({ aLeg 5 with voice := true, lastSpeech := 400 }),
    by decide +kernel⟩,
   ⟨(studio.updLeg (okey 2 0) fun l => { l with rx := 2, concealMs := 60 }), 0, ({ aLeg 5 with rx := 2, concealMs := 60 }), by decide +kernel⟩⟩

theorem witness_KernelCommandsComplete :
    (∃ (r : Req) (s : State) (s1 : State), s.turn 0x0D00 r = some s1 ∧ r.target = 0 ∧ r.payload.length = 16 ∧ s1.inService = true ∧ zeros r.payload 12
      4 = true ∧ u32 r.payload 8 ≠ 0) ∧
    (∃ (r : Req) (s : State) (s1 : State) (key : _), s.turn 0x0D01 r = some s1 ∧ r.payload = [] ∧ s1.lives r.tgt key 7 ∧ s1.kernelBound (kidx key) =
      false) ∧
    (∃ (r : Req) (s : State) (s1 : State) (key : _) (kk : _) (l : _) (k : _) (slot : _) (old : _), s.turn 0x0D02 r = some s1 ∧ r.payload.length = 72 ∧
      s1.lives r.tgt key 2 ∧ s1.lives (u32 r.payload 0) kk 7 ∧ u8 r.payload 4 = slot ∧ (slot = 1 ∨ slot = 2) ∧ s1.leg key = some l ∧ s1.kernel (kidx
      kk) = some k ∧ l.trunk = false ∧ u8 r.payload 5 = k.params ∧ k.mask / slot % 2 = 1 ∧ zeros r.payload 6 2 = true ∧ zeros r.payload (8 + u8
      r.payload 5) (64 - u8 r.payload 5) = true ∧ s1.poolUsed ((key, slot, kidx kk) :: (s1.boundOn l.core).filter fun e => !(e.1 == key && e.2.1 ==
      slot)) ≤ 49152 ∧ old = ((s1.slotAhead key slot).map (·.2.1)).getD 0 ∧ s1.firstOver (overCost (costOf [(1, 0, ceilDiv k.w 46000)]) (costOf [(1,
      0, old)])) = none ∧ ceilDiv k.w 46000 - old ≤ s1.coreRoom l.core) ∧
    (∃ (r : Req) (s : State) (s1 : State) (key : _) (b : _), s.turn 0x0D03 r = some s1 ∧ r.payload.length = 4 ∧ s1.lives r.tgt key 2 ∧ (u8 r.payload 0
      = 1 ∨ u8 r.payload 0 = 2) ∧ s1.slotAhead key (u8 r.payload 0) = some b ∧ zeros r.payload 1 3 = true) ∧
    (∃ (r : Req) (s : State) (s1 : State) (key : _) (k : _) (q : _) (x : _), s.turn 0x0D04 r = some s1 ∧ r.payload.length = 68 ∧ s1.lives r.tgt key 2
      ∧ (u8 r.payload 0 = 1 ∨ u8 r.payload 0 = 2) ∧ s1.slotAhead key (u8 r.payload 0) = some (k, q, false) ∧ s1.kernel k = some x ∧ u8 r.payload 1 =
      x.params ∧ zeros r.payload 2 2 = true ∧ zeros r.payload (4 + u8 r.payload 1) (64 - u8 r.payload 1) = true) ∧
    (∃ (r : Req) (s : State) (s1 : State) (key : _) (k : _), s.turn 0x0D05 r = some s1 ∧ r.payload = [] ∧ s1.lives r.tgt key 7 ∧ s1.kernel (kidx key)
      = some k) ∧
    (∃ (s : State) (leg : Nat) (slot : Nat) (b : Binding), leg < 16384 ∧ (s.leg (okey 2 leg)).bind (·.binding slot) = some b ∧ b.overTimes = none) ∧
    (∃ (s : State) (leg : Nat) (slot : Nat) (b : Binding) (u : _) (blk : _), leg < 16384 ∧ (s.leg (okey 2 leg)).bind (·.binding slot) = some b ∧
      b.overTimes = some (u, blk)) :=
  ⟨⟨(rq (zz 8 ++ le 4 64 ++ zz 4)), up, (after 0x0D00 (rq (zz 8 ++ le 4 64 ++ zz 4)) (up)), turn_after (by decide +kernel), by decide +kernel⟩,
   ⟨(rt (hd 7 0) []), studio, (after 0x0D01 (rt (hd 7 0) []) (studio)), (okey 7 0), turn_after (by decide +kernel), by decide +kernel,
    ok_of (by decide +kernel), by decide +kernel⟩,
   ⟨(rt (hd 2 0) (le 4 (hd 7 0) ++ [2, 4, 0, 0] ++ zz 64)), (studio), (after 0x0D02 (rt (hd 2 0) (le 4 (hd 7 0) ++ [2, 4, 0, 0] ++ zz 64)) (studio)),
    (okey 2 0), (okey 7 0), (aLeg 5), kern, 2, 0, turn_after (by decide +kernel), by decide +kernel, ok_of (by decide +kernel),
    ok_of (by decide +kernel), by decide +kernel⟩,
   ⟨(rt (hd 2 0) [1, 0, 0, 0]), (studio.updLeg (okey 2 0) fun l => { l with slot1 := some bnd }),
    (after 0x0D03 (rt (hd 2 0) [1, 0, 0, 0]) (studio.updLeg (okey 2 0) fun l => { l with slot1 := some bnd })), (okey 2 0), ((0, 1, false)),
    turn_after (by decide +kernel), by decide +kernel, ok_of (by decide +kernel), by decide +kernel⟩,
   ⟨(rt (hd 2 0) ([1, 4, 0, 0] ++ zz 64)), (studio.updLeg (okey 2 0) fun l => { l with slot1 := some bnd }),
    (after 0x0D04 (rt (hd 2 0) ([1, 4, 0, 0] ++ zz 64)) (studio.updLeg (okey 2 0) fun l => { l with slot1 := some bnd })), (okey 2 0), 0, 1, kern,
    turn_after (by decide +kernel), by decide +kernel, ok_of (by decide +kernel), by decide +kernel⟩,
   ⟨(rt (hd 7 0) []), studio, (after 0x0D05 (rt (hd 7 0) []) (studio)), (okey 7 0), kern, turn_after (by decide +kernel), by decide +kernel,
    ok_of (by decide +kernel), by decide +kernel⟩,
   ⟨(studio.updLeg (okey 2 0) fun l => { l with slot1 := some bnd }), 0, 1, bnd, by decide +kernel⟩,
   ⟨(studio.updLeg (okey 2 0) fun l => { l with slot1 := some { bnd with overTimes := some (40000, 499) } }), 0, 1,
    ({ bnd with overTimes := some (40000, 499) }), 40000, 499, by decide +kernel⟩⟩

theorem witness_WorkItemsComplete :
    (∃ (s : State) (src : Nat) (d : Bytes), src < 8 ∧ descOk d = true ∧ s.work.waiting src (dKind d) = [] ∧ s.work.accepts d = true) ∧
    (∃ (s : State) (src : Nat) (d : Bytes), src < 8 ∧ descOk d = true ∧ s.work.waiting src (dKind d) = [] ∧ s.work.accepts d = false) ∧
    (∃ (s : State) (src : Nat) (kind : Nat) (x : Submission) (rest : List Submission), src < 8 ∧ s.work.waiting src kind = x :: rest ∧ s.work.accepts
      x.desc = true) ∧
    (∃ (s : State) (t : State) (kind : Nat) (inst : Nat) (i : Item), unitOk kind inst = true ∧ s.unitDown 0x0A 0 = false ∧ s.dispatch kind inst = (t,
      some i)) ∧
    (∃ (s : State) (t : State) (kind : Nat) (inst : Nat) (i : Item), unitOk kind inst = true ∧ s.unitDown 0x0A 0 = false ∧ s.dispatch kind inst = (t,
      some i) ∧ i.job = .none) ∧
    (∃ (s : State) (t : State) (kind : Nat) (inst : Nat) (i : Item), unitOk kind inst = true ∧ s.unitDown 0x0A 0 = false ∧ s.dispatch kind inst = (t,
      some i)) ∧
    (∃ (s : State) (kind : Nat) (inst : Nat), unitOk kind inst = true ∧ s.unitDown 0x0A 0 = true) ∧
    (∃ (s : State) (id : Nat) (kind : Nat) (inst : Nat) (i : Item), (s.work.items.find? fun x => x.id == id) = some i ∧ i.runsOn = some (kind, inst)) ∧
    (∃ (s : State) (id : Nat) (i : Item) (n : Nat), s.work.items = [i] ∧ i.id = id ∧ i.st = .running n ∧ i.job = .none ∧ s.work.released = []) ∧
    (∃ (s : State) (id : Nat) (i : Item), (s.work.items.find? fun x => x.id == id) = some i ∧ dDeadline i.desc ≠ 0) ∧
    (∃ (s : State) (id : Nat) (i : Item), s.work.items = [i] ∧ i.id = id ∧ i.st = .queued ∧ i.job = .none ∧ s.work.released = [] ∧ dDeadline i.desc ≠
      0 ∧ s.now ≤ dDeadline i.desc) ∧
    (∃ (s : State) (id : Nat) (i : Item), s.work.items = [i] ∧ i.id = id ∧ i.job = .none ∧ s.work.released = [] ∧ i.st = .queued) ∧
    (∃ (s : State) (id : Nat) (i : Item) (n : _), s.work.items = [i] ∧ i.id = id ∧ i.job = .none ∧ s.work.released = [] ∧ i.st = .running n) :=
  ⟨⟨up, 7, (descriptor 3 0 0 0 0xFFFF 0 0 []), by decide +kernel⟩,
   ⟨({ up with work := { up.work with items := [{ item .queued 0 with id := up.work.nextId (dList (item .queued 0).desc) }] } }), 7,
    (descriptor 3 0 0 0 0xFFFF 0 0 []), by decide +kernel⟩,
   ⟨({ up with work := { up.work with held := [(3, [{ desc := descriptor 3 0 0 0 0xFFFF 0 0 [], data := [], job := .none }])] } }), 0, 3,
    ({ desc := descriptor 3 0 0 0 0xFFFF 0 0 [], data := [], job := .none }), [], by decide +kernel⟩,
   ⟨({ up with work := { up.work with items := [{ item .queued 0 with list := instList 3 0 }] } } : State),
    (State.dispatch ({ up with work := { up.work with items := [{ item .queued 0 with list := instList 3 0 }] } } : State) 3 0).1, 3, 0,
    ((State.dispatch ({ up with work := { up.work with items := [{ item .queued 0 with list := instList 3 0 }] } } : State) 3 0).2.getD (item .queued 0)),
    by decide +kernel, by decide +kernel, rfl⟩,
   ⟨({ up with work := { up.work with items := [{ item .queued 0 with list := instList 3 0 }] } } : State),
    (State.dispatch ({ up with work := { up.work with items := [{ item .queued 0 with list := instList 3 0 }] } } : State) 3 0).1, 3, 0,
    ((State.dispatch ({ up with work := { up.work with items := [{ item .queued 0 with list := instList 3 0 }] } } : State) 3 0).2.getD (item .queued 0)),
    by decide +kernel, by decide +kernel, rfl, by decide +kernel⟩,
   ⟨({ up with work := { up.work with items := [{ item .queued 0 with list := instList 3 0 }] } } : State),
    (State.dispatch ({ up with work := { up.work with items := [{ item .queued 0 with list := instList 3 0 }] } } : State) 3 0).1, 3, 0,
    ((State.dispatch ({ up with work := { up.work with items := [{ item .queued 0 with list := instList 3 0 }] } } : State) 3 0).2.getD (item .queued 0)),
    by decide +kernel, by decide +kernel, rfl⟩,
   ⟨({ up with work := { up.work with insts := [(0x0A * 65536, { st := .enabled, faults := [], down := true, drainBy := none })] } }), 3, 0,
    by decide +kernel⟩,
   ⟨({ up with work := { up.work with items := [{ item (.running 0) 0 with job := .chain 0 0 }] } }), 5, 3, 0,
    ({ item (.running 0) 0 with job := .chain 0 0 }), by decide +kernel⟩,
   ⟨(working (.running 0) 0), 5, (item (.running 0) 0), 0, by decide +kernel⟩,
   ⟨(working .queued 5), 5, (item .queued 5), by decide +kernel⟩,
   ⟨(working .queued 2000000000), 5, (item .queued 2000000000), by decide +kernel⟩,
   ⟨(working .queued 0), 5, (item .queued 0), by decide +kernel⟩,
   ⟨(working (.running 0) 0), 5, (item (.running 0) 0), 0, by decide +kernel⟩⟩

theorem witness_InstancesComplete :
    (∃ (s : State) (kind : Nat) (inst : Nat) (cause : Nat), inst < engineCount kind ∧ 1 ≤ cause ∧ cause ≤ 4 ∧ s.serving = true ∧ (s.faultTimes kind
      inst).length < 3) ∧
    (∃ (s : State) (kind : Nat) (inst : Nat) (cause : Nat), inst < engineCount kind ∧ 1 ≤ cause ∧ cause ≤ 4 ∧ s.serving = true ∧ s.trio.id = 0 ∧ 3 ≤
      (s.faultTimes kind inst).length) ∧
    (∃ (s : State) (id : Nat) (kind : Nat) (inst : Nat) (i : Item), (s.work.items.find? fun x => x.id == id) = some i ∧ i.runsOn = some (kind, inst)) ∧
    (∃ (s : State) (kind : Nat) (inst : Nat), inst < engineCount kind ∧ kind ≠ 1 ∧ kind ≠ 2 ∧ (s.inst kind inst).down = true ∧ (s.inst kind inst).st =
      .retired) ∧
    (∃ (s : State) (kind : Nat) (inst : Nat), inst < engineCount kind ∧ kind ≠ 1 ∧ kind ≠ 2 ∧ (s.inst kind inst).down = true ∧ (s.inst kind inst).st =
      .enabled) ∧
    (∃ (s : State) (kind : Nat) (inst : Nat), inst < engineCount kind ∧ (s.inst kind inst).down = true ∧ (s.inst kind inst).st ≠ .retired) ∧
    (∃ (r : Req) (s : State) (s1 : State), s.turn 0x0F51 r = some s1 ∧ r.target = 0 ∧ r.payload.length = 4 ∧ unitOk (u8 r.payload 0) (u16 r.payload 2)
      = true ∧ (s1.inst (u8 r.payload 0) (u16 r.payload 2)).st ≠ .draining ∧ (s1.inst (u8 r.payload 0) (u16 r.payload 2)).st ≠ .retired ∧ zeros
      r.payload 1 1 = true) ∧
    (∃ (r : Req) (s : State) (s1 : State), s.turn 0x0F50 r = some s1 ∧ r.target = 0 ∧ r.payload.length = 8 ∧ unitOk (u8 r.payload 0) (u16 r.payload 2)
      = true ∧ (s1.inService = true ∨ s1.mode = .maintenance) ∧ (s1.inst (u8 r.payload 0) (u16 r.payload 2)).st = .enabled ∧ (s1.inst (u8 r.payload 0)
      (u16 r.payload 2)).down = false ∧ s1.work.items = [] ∧ s1.work.released = [] ∧ (u8 r.payload 0 = 1 → ∀ e ∈ s1.audio.legs, e.2.core ≠ u16
      r.payload 2) ∧ u8 r.payload 1 = 1 ∧ zeros r.payload 4 4 = true ∧ tget 0 s1.used (bkey (kindBudget (u8 r.payload 0)) 0) ≤ (s1.updInst (u8
      r.payload 0) (u16 r.payload 2) fun x => { x with st := .draining, drainBy := some r.mbx }).ceiling (kindBudget (u8 r.payload 0)) 0) ∧
    (∃ (r : Req) (s : State) (s1 : State) (k : _) (i : _), s.turn 0x0F50 r = some s1 ∧ r.target = 0 ∧ r.payload.length = 8 ∧ k = u8 r.payload 0 ∧ i =
      u16 r.payload 2 ∧ unitOk k i = true ∧ (s1.inService = true ∨ s1.mode = .maintenance) ∧ (s1.inst k i).st = .enabled ∧ (k = 1 → ∀ e ∈
      s1.audio.legs, e.2.core ≠ i) ∧ (u8 r.payload 1 = 1 ∨ u8 r.payload 1 = 2) ∧ zeros r.payload 4 4 = true ∧ tget 0 s1.used (bkey (kindBudget k) 0) ≤
      (s1.updInst k i fun x => { x with st := .draining, drainBy := some r.mbx }).ceiling (kindBudget k) 0) ∧
    (∃ (r : Req) (s : State) (s1 : State), s.turn 0x0F52 r = some s1 ∧ r.target = 0 ∧ r.payload.length = 4 ∧ unitOk (u8 r.payload 0) (u16 r.payload 2)
      = true ∧ (u8 r.payload 0 = 1 ∨ u16 r.payload 2 = 0) ∧ zeros r.payload 1 1 = true) ∧
    (∃ (s : State) (kind : Nat) (inst : Nat), unitOk kind inst = true ∧ (s.inst kind inst).st = .draining) :=
  ⟨⟨up, 1, 255, 4, by decide +kernel⟩,
   ⟨({ up with work := { up.work with insts := [(1 * 65536 + 255, { st := .enabled, faults := [999999990, 999999991], down := false, drainBy := none })] } }),
    1, 255, 4, by decide +kernel⟩,
   ⟨(working (.running 0) 0), 5, 3, 0, (item (.running 0) 0), by decide +kernel⟩,
   ⟨({ up with work := { up.work with insts := [(3 * 65536, { st := .retired, faults := [], down := true, drainBy := none })] } }), 3, 0,
    by decide +kernel⟩,
   ⟨({ up with work := { up.work with insts := [(3 * 65536, { st := .enabled, faults := [], down := true, drainBy := none })] } }), 3, 0,
    by decide +kernel⟩,
   ⟨({ up with work := { up.work with insts := [(3 * 65536, { st := .disabled, faults := [], down := true, drainBy := none })] } }), 3, 0,
    by decide +kernel⟩,
   ⟨(rq [3, 0, 0, 0]),
    ({ up with work := { up.work with insts := [(3 * 65536, { st := .disabled, faults := [], down := false, drainBy := none })] } }),
    (after 0x0F51 (rq [3, 0, 0, 0]) ({ up with work := { up.work with insts := [(3 * 65536, { st := .disabled, faults := [], down := false, drainBy := none })] } })),
    turn_after (by decide +kernel), by decide +kernel⟩,
   ⟨(rq ([1, 1] ++ le 2 255 ++ zz 4)), (up), (after 0x0F50 (rq ([1, 1] ++ le 2 255 ++ zz 4)) (up)), turn_after (by decide +kernel), by decide +kernel⟩,
   ⟨(rq ([1, 2] ++ le 2 255 ++ zz 4)), (up), (after 0x0F50 (rq ([1, 2] ++ le 2 255 ++ zz 4)) (up)), 1, 255, turn_after (by decide +kernel),
    by decide +kernel⟩,
   ⟨(rq ([1, 0] ++ le 2 255)), up, (after 0x0F52 (rq ([1, 0] ++ le 2 255)) (up)), turn_after (by decide +kernel), by decide +kernel⟩,
   ⟨({ up with work := { up.work with insts := [(3 * 65536, { st := .draining, faults := [], down := false, drainBy := none })] } }), 3, 0,
    by decide +kernel⟩⟩

theorem witness_VideoLegCommandsComplete :
    (∃ (r : Req) (s : State) (s1 : State) (ses : _) (i : _), s.turn 0x0400 r = some s1 ∧ r.target = 0 ∧ r.payload.length = 104 ∧ s1.lives (u32
      r.payload 4) ses 0x01 ∧ (u32 r.payload 8 = 0 ∨ ∃ k, s1.lives (u32 r.payload 8) k 0x08 ∧ s1.bindable k 1 = true) ∧ (u32 r.payload 12 = 0 ∨ ∃ k,
      s1.lives (u32 r.payload 12) k 0x08 ∧ s1.bindable k 2 = true) ∧ s1.portOk (u8 r.payload 16) = true ∧ s1.inService = true ∧ (u8 r.payload 0 = 1 ∨
      u8 r.payload 0 = 2) ∧ vlegOk r.payload = true ∧ s1.keyHeld (videoKeyOf r.payload) = false ∧ s1.lowestFree 3 0 8192 = some i ∧ i < 2 ^ 20 ∧
      s1.admits (vlegCost r.payload) = true) ∧
    (∃ (r : Req) (s : State) (s1 : State) (key : _), s.turn 0x0401 r = some s1 ∧ r.payload = [] ∧ s1.lives r.tgt key 0x03 ∧ s1.critical key = false) ∧
    (∃ (r : Req) (s : State) (s1 : State) (key : _) (o : _), s.turn 0x0402 r = some s1 ∧ r.payload = [] ∧ s1.lives r.tgt key 0x03 ∧ s1.obj key = some
      o ∧ o.active = false ∧ s1.mode ≠ .shed) ∧
    (∃ (r : Req) (s : State) (s1 : State) (key : _) (o : _), s.turn 0x0403 r = some s1 ∧ r.payload = [] ∧ s1.lives r.tgt key 0x03 ∧ s1.obj key = some
      o ∧ o.active = true) ∧
    (∃ (r : Req) (s : State) (s1 : State) (key : _) (l : _), s.turn 0x0404 r = some s1 ∧ r.payload.length = 12 ∧ s1.lives r.tgt key 0x03 ∧ s1.vleg key
      = some l ∧ l.sending = false ∧ u32 r.payload 0 = 0 ∧ u8 r.payload 8 ≤ 2 ∧ u8 r.payload 9 ≤ 3 ∧ zeros r.payload 10 2 = true) ∧
    (∃ (r : Req) (s : State) (s1 : State) (key : _) (l : _) (k : _), s.turn 0x0404 r = some s1 ∧ r.payload.length = 12 ∧ s1.lives r.tgt key 0x03 ∧
      s1.vleg key = some l ∧ l.sending = false ∧ u32 r.payload 0 ≠ 0 ∧ s1.checkHandle (u32 r.payload 0) [0x03, 0x05] = .ok k ∧ (∀ x, s1.vleg k = some
      x → x.sending = true) ∧ (∀ e, s1.enc k = some e → s1.burstCovers l.cfg e (fun i => ((e.streams[i]?).map (·.cpb)).getD 0) = true) ∧ u8 r.payload
      8 ≤ 2 ∧ u8 r.payload 9 ≤ 3 ∧ zeros r.payload 10 2 = true ∧ (s1.critical key = true → s1.critical k = true) ∧ l.source ≠ some k ∧ ((s1.receivers
      k).filter (· != key)).length < 1024) ∧
    (∃ (r : Req) (s : State) (s1 : State) (key : _) (l : _) (k : _), s.turn 0x0404 r = some s1 ∧ r.payload.length = 12 ∧ s1.lives r.tgt key 0x03 ∧
      s1.vleg key = some l ∧ l.sending = false ∧ u32 r.payload 0 ≠ 0 ∧ s1.checkHandle (u32 r.payload 0) [0x03, 0x05] = .ok k ∧ (∀ x, s1.vleg k = some
      x → x.sending = true) ∧ (∀ e, s1.enc k = some e → s1.burstCovers l.cfg e (fun i => ((e.streams[i]?).map (·.cpb)).getD 0) = true) ∧ u8 r.payload
      8 ≤ 2 ∧ u8 r.payload 9 ≤ 3 ∧ zeros r.payload 10 2 = true ∧ (s1.critical key = true → s1.critical k = true) ∧ l.source = some k) ∧
    (∃ (r : Req) (s : State) (s1 : State) (key : _) (l : _), s.turn 0x0405 r = some s1 ∧ r.payload.length = 4 ∧ s1.lives r.tgt key 0x03 ∧ s1.vleg key
      = some l ∧ l.sending = false) ∧
    (∃ (r : Req) (s : State) (s1 : State) (key : _) (l : _), s.turn 0x0406 r = some s1 ∧ r.payload = [] ∧ s1.lives r.tgt key 0x03 ∧ s1.vleg key = some
      l) :=
  ⟨⟨(rq (vCfg 1 9100)), (studio), (after 0x0400 (rq (vCfg 1 9100)) (studio)), (okey 1 0), 2, turn_after (by decide +kernel), by decide +kernel,
    by decide +kernel, ok_of (by decide +kernel), Or.inl (by decide +kernel), Or.inl (by decide +kernel), by decide +kernel⟩,
   ⟨(rt (hd 3 0) []), studio, (after 0x0401 (rt (hd 3 0) []) (studio)), (okey 3 0), turn_after (by decide +kernel), by decide +kernel,
    ok_of (by decide +kernel), by decide +kernel⟩,
   ⟨(rt (hd 3 0) []), (heldIn 3 0), (after 0x0402 (rt (hd 3 0) []) (heldIn 3 0)), (okey 3 0), (obj false false), turn_after (by decide +kernel),
    by decide +kernel, ok_of (by decide +kernel), by decide +kernel⟩,
   ⟨(rt (hd 3 0) []), studio, (after 0x0403 (rt (hd 3 0) []) (studio)), (okey 3 0), (obj true true), turn_after (by decide +kernel), by decide +kernel,
    ok_of (by decide +kernel), by decide +kernel⟩,
   ⟨(rt (hd 3 1) (zz 8 ++ [2, 3, 0, 0])), studio, (after 0x0404 (rt (hd 3 1) (zz 8 ++ [2, 3, 0, 0])) (studio)), (okey 3 1), (VLeg.new (vCfg 2 9001) 0),
    turn_after (by decide +kernel), by decide +kernel, ok_of (by decide +kernel), by decide +kernel⟩,
   ⟨(rt (hd 3 1) (le 4 (hd 3 0) ++ le 4 500 ++ [2, 3, 0, 0])), (studio),
    (after 0x0404 (rt (hd 3 1) (le 4 (hd 3 0) ++ le 4 500 ++ [2, 3, 0, 0])) (studio)), (okey 3 1), (VLeg.new (vCfg 2 9001) 0), (okey 3 0),
    turn_after (by decide +kernel), by decide +kernel, ok_of (by decide +kernel), by decide +kernel, by decide +kernel, by decide +kernel,
    ok_of (by decide +kernel), holds_of (by decide +kernel), holds_of (by decide +kernel), by decide +kernel⟩,
   ⟨(rt (hd 3 1) (le 4 (hd 3 0) ++ le 4 500 ++ [2, 3, 0, 0])), (studio.updVleg (okey 3 1) fun l => { l with source := some (okey 3 0) }),
    (after 0x0404 (rt (hd 3 1) (le 4 (hd 3 0) ++ le 4 500 ++ [2, 3, 0, 0])) (studio.updVleg (okey 3 1) fun l => { l with source := some (okey 3 0) })),
    (okey 3 1), ({ VLeg.new (vCfg 2 9001) 0 with source := some (okey 3 0) }), (okey 3 0), turn_after (by decide +kernel), by decide +kernel,
    ok_of (by decide +kernel), by decide +kernel, by decide +kernel, by decide +kernel, ok_of (by decide +kernel), holds_of (by decide +kernel),
    holds_of (by decide +kernel), by decide +kernel⟩,
   ⟨(rt (hd 3 1) (le 4 500)), studio, (after 0x0405 (rt (hd 3 1) (le 4 500)) (studio)), (okey 3 1), (VLeg.new (vCfg 2 9001) 0),
    turn_after (by decide +kernel), by decide +kernel, ok_of (by decide +kernel), by decide +kernel⟩,
   ⟨(rt (hd 3 1) []), studio, (after 0x0406 (rt (hd 3 1) []) (studio)), (okey 3 1), (VLeg.new (vCfg 2 9001) 0), turn_after (by decide +kernel),
    by decide +kernel, ok_of (by decide +kernel), by decide +kernel⟩⟩

theorem witness_DecodeAndKeyFramesComplete :
    (∃ (r : Req) (s : State) (s1 : State) (key : _) (l : _), s.turn 0x0420 r = some s1 ∧ r.payload.length = 32 ∧ s1.lives r.tgt key 0x03 ∧ s1.vleg key
      = some l ∧ l.sending = true ∧ decodeOk r.payload = true ∧ syntaxSize r.payload ≤ s1.syntaxFree key ∧ s1.firstOver (overCost (decodeCost
      r.payload) ((l.decl.map decodeCost).getD [])) = none) ∧
    (∃ (r : Req) (s : State) (s1 : State) (key : _) (l : _) (p : _), s.turn 0x0421 r = some s1 ∧ r.payload = [] ∧ s1.lives r.tgt key 0x03 ∧ s1.vleg
      key = some l ∧ l.sending = true ∧ l.decl = some p) ∧
    (∃ (r : Req) (s : State) (s1 : State) (key : _) (l : _), s.turn 0x0422 r = some s1 ∧ r.payload.length = 4 ∧ s1.lives r.tgt key 0x03 ∧ s1.vleg key
      = some l ∧ l.sending = true ∧ (s1.following = false ∨ s1.critical key = false) ∧ s1.isActive key = true ∧ (u8 r.payload 0 = 1 ∨ u8 r.payload 0 =
      2) ∧ zeros r.payload 1 3 = true) ∧
    (∃ (r : Req) (s : State) (s1 : State) (key : _) (l : _), s.turn 0x0423 r = some s1 ∧ r.payload = [] ∧ s1.lives r.tgt key 0x03 ∧ s1.vleg key = some
      l ∧ l.sending = true) ∧
    (∃ (s : State) (i : Nat) (t0 : Nat) (d : Decode), i < 8192 ∧ s.dec (okey 3 i) = some d ∧ d.began = some t0 ∧ d.st = 1 ∧ u8 d.cfg 25 ≠ 0 ∧ t0 + u8
      d.cfg 25 * 100000000 ≤ s.now) ∧
    (∃ (s : State) (i : Nat) (l : VLeg), i < 8192 ∧ s.vleg (okey 3 i) = some l ∧ s.mayRequest l = true) ∧
    (∃ (s : State) (i : Nat) (l : VLeg), i < 8192 ∧ s.vleg (okey 3 i) = some l ∧ s.mayRequest l = false) ∧
    (∃ (s : State) (i : Nat) (t0 : Nat) (d : Decode), i < 8192 ∧ s.dec (okey 3 i) = some d ∧ d.episode = some (t0, false) ∧ u8 d.cfg 24 = 3 ∧ t0 +
      500000000 ≤ s.now) ∧
    (∃ (s : State) (i : Nat) (t0 : Nat) (d : Decode), i < 8192 ∧ s.dec (okey 3 i) = some d ∧ d.episode = some (t0, false) ∧ u8 d.cfg 24 ≠ 3) ∧
    (∃ (s : State) (i : Nat) (l : Leg), i < 16384 ∧ tget? s.audio.legs i = some l ∧ u16 l.cfg 18 ≠ 0 ∧ (l.kind = 1 ∨ l.kind = 3) ∧ s.flows (okey 2 i)
      = true ∧ l.rx ≠ 4 ∧ l.lastArrival + u16 l.cfg 18 * 1000000 ≤ s.now) ∧
    (∃ (i : Nat), i < 8192) ∧
    (∃ (s : State), (s.video.legs.map (·.1)).Nodup ∧ (∀ e ∈ s.video.legs, e.1 < 8192)) ∧
    (∃ (s : State) (s1 : State) (i : Nat) (src : Nat) (l : VLeg), i < 8192 ∧ (s.video.legs.filter fun e => !e.2.sending) = [(i, l)] ∧ tget?
      s.video.legs i = some l ∧ l.source = some src ∧ s.flows (okey 3 i) = true ∧ l.st ≠ 0 ∧ s1 = { s with video := { s.video with legs := tmap s.video.legs (fun _ l => { l with window := l.window.filter fun e => decide (s.now < e.1 + 1200000000) }), encs := tmap s.video.encs (fun _ e => { e with streams := e.streams.map fun x => { x with window := x.window.filter fun w => decide (s.now < w.1 + 1200000000) } }) } }) ∧
    (∃ (s : State) (i : Nat), i < 8192 ∧ (∀ e ∈ s.sched, ∀ since, e.at_ = .leg i since → s.now < since + 100000000)) ∧
    (∃ (s : State) (i : Nat) (due : Sched → Bool), i < 8192 ∧ (∀ e, due e = true ↔ e.from_ ≤ s.now ∧ ∃ since, e.at_ = .leg i since ∧ since + 100000000
      ≤ s.now)) ∧
    (∃ (s : State) (i : Nat) (since : Nat) (e : Sched), i < 8192 ∧ s.sched = [e] ∧ e.at_ = .leg i since ∧ since + 100000000 ≤ s.now ∧ e.from_ ≤ s.now) ∧
    (∃ (s : State) (i : Nat) (since : Nat), i < 8192 ∧ since + 100000000 ≤ s.now ∧ s.sched = [{ at_ := .leg i since, org := noOrigin, act := .live (okey 3 i) true, from_ := 0 }]
      ∧ (s.obj (okey 3 i)).isSome = true) :=
  ⟨⟨(rt (hd 3 0) (decCfg 3)), studio, (after 0x0420 (rt (hd 3 0) (decCfg 3)) (studio)), (okey 3 0), (VLeg.new (vCfg 1 9000) 0),
    turn_after (by decide +kernel), by decide +kernel, ok_of (by decide +kernel), by decide +kernel⟩,
   ⟨(rt (hd 3 0) []), (decoding (Decode.new (decCfg 3))), (after 0x0421 (rt (hd 3 0) []) (decoding (Decode.new (decCfg 3)))), (okey 3 0),
    ({ VLeg.new (vCfg 1 9000) 0 with decode := some (Decode.new (decCfg 3)), decl := some (decCfg 3) }), (decCfg 3), turn_after (by decide +kernel),
    by decide +kernel, ok_of (by decide +kernel), by decide +kernel⟩,
   ⟨(rt (hd 3 0) [2, 0, 0, 0]), studio, (after 0x0422 (rt (hd 3 0) [2, 0, 0, 0]) (studio)), (okey 3 0), (VLeg.new (vCfg 1 9000) 0),
    turn_after (by decide +kernel), by decide +kernel, ok_of (by decide +kernel), by decide +kernel⟩,
   ⟨(rt (hd 3 0) []), studio, (after 0x0423 (rt (hd 3 0) []) (studio)), (okey 3 0), (VLeg.new (vCfg 1 9000) 0), turn_after (by decide +kernel),
    by decide +kernel, ok_of (by decide +kernel), by decide +kernel⟩,
   ⟨(decoding { Decode.new (decCfg 3) with began := some 0 }), 0, 0, ({ Decode.new (decCfg 3) with began := some 0 }), by decide +kernel⟩,
   ⟨studio, 0, (VLeg.new (vCfg 1 9000) 0), by decide +kernel⟩,
   ⟨(studio.updVleg (okey 3 0) fun l => { l with lastReq := some 600000000 }), 0, ({ VLeg.new (vCfg 1 9000) 0 with lastReq := some 600000000 }),
    by decide +kernel⟩,
   ⟨(decoding { Decode.new (decCfg 3) with episode := some (500000000, false) }), 0, 500000000,
    ({ Decode.new (decCfg 3) with episode := some (500000000, false) }), by decide +kernel⟩,
   ⟨(decoding { Decode.new (decCfg 1) with episode := some (0, false) }), 0, 0, ({ Decode.new (decCfg 1) with episode := some (0, false) }),
    by decide +kernel⟩,
   ⟨(studio.updLeg (okey 2 0) fun l => { l with lastArrival := 900000000, cfg := l.cfg.set 18 100 }), 0,
    ({ aLeg 5 with lastArrival := 900000000, cfg := (aLeg 5).cfg.set 18 100 }), by decide +kernel⟩,
   ⟨8191, by decide⟩,
   ⟨studio, by decide +kernel⟩,
   ⟨(studio.updVleg (okey 3 1) fun l => { l with source := some (okey 3 0), st := 1 }), _, 1, (okey 3 0),
    ({ VLeg.new (vCfg 2 9001) 0 with source := some (okey 3 0), st := 1 }), by and_intros <;> first | decide +kernel | rfl⟩,
   ⟨studio, 0, by decide +kernel, fun e he => by cases he⟩,
   ⟨up, 8191, dueAt up.now 8191, by decide, dueAt_iff⟩,
   ⟨({ studio with sched := [{ at_ := .leg 1 900000000, org := noOrigin, act := .live (okey 3 1) true, from_ := 0 }] }), 1, 900000000,
    ({ at_ := .leg 1 900000000, org := noOrigin, act := .live (okey 3 1) true, from_ := 0 }), by decide +kernel⟩,
   ⟨({ studio with sched := [{ at_ := .leg 1 900000000, org := noOrigin, act := .live (okey 3 1) true, from_ := 0 }] }), 1, 900000000,
    by decide +kernel⟩⟩

theorem witness_EncodingCommandsComplete :
    (∃ (r : Req) (s : State) (s1 : State) (cs : _) (i : _), s.turn 0x0600 r = some s1 ∧ r.target = 0 ∧ r.payload.length = 32 + 32 * u8 r.payload 10 ∧
      (∀ k : List (Nat × Comp) → Eff, s1.withComps (encStreams r.payload) k = k cs) ∧ s1.inService = true ∧ (encOk r.payload && (encStreams
      r.payload).all streamOk && (cs.map (·.1)).eraseDups.length == cs.length && cs.all (fun c => c.2.period == (cs.headD c).2.period && c.2.phase ==
      (cs.headD c).2.phase) && (cs.zip (encStreams r.payload)).all (fun e => streamRateOk r.payload e.1.2 (u32 e.2 16) (u32 e.2 20) && s1.streamFits
      r.payload e.1.1 e.1.2 (u32 e.2 20) none)) = true ∧ s1.lowestFree 5 0 1024 = some i ∧ i < 2 ^ 20 ∧ s1.admits (encTotal r.payload cs ((encStreams
      r.payload).map fun q => u32 q 16)) = true) ∧
    (∃ (r : Req) (s : State) (s1 : State) (key : _), s.turn 0x0601 r = some s1 ∧ r.payload = [] ∧ s1.lives r.tgt key 0x05) ∧
    (∃ (r : Req) (s : State) (s1 : State) (key : _) (o : _), s.turn 0x0602 r = some s1 ∧ r.payload = [] ∧ s1.lives r.tgt key 0x05 ∧ s1.obj key = some
      o ∧ o.active = false ∧ s1.mode ≠ .shed) ∧
    (∃ (r : Req) (s : State) (s1 : State) (key : _) (o : _), s.turn 0x0603 r = some s1 ∧ r.payload = [] ∧ s1.lives r.tgt key 0x05 ∧ s1.obj key = some
      o ∧ o.active = true) ∧
    (∃ (r : Req) (s : State) (s1 : State) (key : _) (e : _) (x : _) (c : _), s.turn 0x0604 r = some s1 ∧ r.payload.length = 20 ∧ s1.lives r.tgt key
      0x05 ∧ s1.enc key = some e ∧ e.streams[u8 r.payload 0]? = some x ∧ s1.comp x.comp = some c ∧ rateFields (u8 r.payload 1) (u8 r.payload 2) (u8
      r.payload 3) (u8 r.payload 4) (u32 r.payload 8) (u32 r.payload 12) = true ∧ zeros r.payload 5 3 = true ∧ streamRateOk e.cfg c (u32 r.payload
      12) (u32 r.payload 16) = true ∧ s1.streamFits e.cfg x.comp c (u32 r.payload 16) (some (key, u8 r.payload 0)) = true ∧ (u32 r.payload 16 ≤ x.cpb
      ∨ ∀ k ∈ s1.receivers key, ∀ l, s1.vleg k = some l → s1.burstCovers l.cfg e (fun i => if i = u8 r.payload 0 then u32 r.payload 16 else
      ((e.streams[i]?).map (·.cpb)).getD 0) = true) ∧ s1.firstOver (overCost (addCost (minusCost (s1.objCost key) [(bkey 0x0004 0, s1.capAhead key
      (u8 r.payload 0) x.cap)]) (bkey 0x0004 0) (u32 r.payload 12)) (s1.objCost key)) = none) ∧
    (∃ (r : Req) (s : State) (s1 : State) (key : _) (e : _), s.turn 0x0605 r = some s1 ∧ r.payload.length = 4 ∧ s1.lives r.tgt key 0x05 ∧ s1.enc key =
      some e ∧ (s1.following = false ∨ s1.critical key = false) ∧ s1.isActive key = true ∧ 1 ≤ u8 r.payload 0 ∧ u8 r.payload 0 < 8 ∧ u8 r.payload 0 <
      2 ^ e.streams.length ∧ zeros r.payload 1 3 = true) ∧
    (∃ (r : Req) (s : State) (s1 : State) (key : _) (x : _), s.turn 0x0606 r = some s1 ∧ r.payload.length = 4 ∧ s1.lives r.tgt key 0x05 ∧ zeros
      r.payload 1 3 = true ∧ (s1.enc key).bind (·.streams[u8 r.payload 0]?) = some x) :=
  ⟨⟨(rq encCfg), studio, (after 0x0600 (rq encCfg) (studio)), ([(okey 4 0, Comp.new (compCfg 1) 0)]), 1, turn_after (by decide +kernel),
    by decide +kernel, by decide +kernel, fun _ => by rfl, by decide +kernel⟩,
   ⟨(rt (hd 5 0) []), (studio), (after 0x0601 (rt (hd 5 0) []) (studio)), (okey 5 0), turn_after (by decide +kernel), by decide +kernel,
    ok_of (by decide +kernel)⟩,
   ⟨(rt (hd 5 0) []), (heldIn 5 0), (after 0x0602 (rt (hd 5 0) []) (heldIn 5 0)), (okey 5 0), (obj false false), turn_after (by decide +kernel),
    by decide +kernel, ok_of (by decide +kernel), by decide +kernel⟩,
   ⟨(rt (hd 5 0) []), studio, (after 0x0603 (rt (hd 5 0) []) (studio)), (okey 5 0), (obj true true), turn_after (by decide +kernel), by decide +kernel,
    ok_of (by decide +kernel), by decide +kernel⟩,
   ⟨(rt (hd 5 0) ([0, 1, 0, 51, 20, 0, 0, 0] ++ le 4 0 ++ le 4 900 ++ le 4 90000)), studio,
    (after 0x0604 (rt (hd 5 0) ([0, 1, 0, 51, 20, 0, 0, 0] ++ le 4 0 ++ le 4 900 ++ le 4 90000)) (studio)), (okey 5 0),
    ({ cfg := encCfg.take 32, streams := [Stream.new (encCfg.drop 32)] }), (Stream.new (encCfg.drop 32)), (Comp.new (compCfg 1) 0),
    turn_after (by decide +kernel), by decide +kernel, ok_of (by decide +kernel), by decide +kernel⟩,
   ⟨(rt (hd 5 0) [1, 0, 0, 0]), studio, (after 0x0605 (rt (hd 5 0) [1, 0, 0, 0]) (studio)), (okey 5 0),
    ({ cfg := encCfg.take 32, streams := [Stream.new (encCfg.drop 32)] }), turn_after (by decide +kernel), by decide +kernel,
    ok_of (by decide +kernel), by decide +kernel⟩,
   ⟨(rt (hd 5 0) [0, 0, 0, 0]), studio, (after 0x0606 (rt (hd 5 0) [0, 0, 0, 0]) (studio)), (okey 5 0), (Stream.new (encCfg.drop 32)),
    turn_after (by decide +kernel), by decide +kernel, ok_of (by decide +kernel), by decide +kernel⟩⟩

theorem witness_CompositionsComplete :
    (∃ (r : Req) (s : State) (s1 : State) (i : _), s.turn 0x0500 r = some s1 ∧ r.target = 0 ∧ r.payload.length = 20 ∧ s1.inService = true ∧ compOk
      r.payload = true ∧ s1.lowestFree 4 0 512 = some i ∧ s1.admits (compCost r.payload (Comp.new r.payload s1.now).planes) = true) ∧
    (∃ (r : Req) (s : State) (s1 : State) (key : _), s.turn 0x0501 r = some s1 ∧ r.payload = [] ∧ s1.lives r.tgt key 0x04 ∧ s1.fedBy key = []) ∧
    (∃ (r : Req) (s : State) (s1 : State) (key : _) (o : _), s.turn 0x0502 r = some s1 ∧ r.payload = [] ∧ s1.lives r.tgt key 0x04 ∧ s1.mode ≠ .shed ∧
      s1.obj key = some o ∧ o.active = false) ∧
    (∃ (r : Req) (s : State) (s1 : State) (key : _) (o : _), s.turn 0x0503 r = some s1 ∧ r.payload = [] ∧ s1.lives r.tgt key 0x04 ∧ s1.obj key = some
      o ∧ o.active = true) ∧
    (∃ (r : Req) (s : State) (s1 : State) (key : _) (c : _), s.turn 0x0504 r = some s1 ∧ r.payload.length = 32 ∧ s1.lives r.tgt key 0x04 ∧ s1.comp key
      = some c ∧ u32 r.payload 4 = 0 ∧ c.planeOk r.payload = true ∧ fetches r.payload = false) ∧
    (∃ (r : Req) (s : State) (s1 : State) (key : _) (c : _) (src : _), s.turn 0x0504 r = some s1 ∧ r.payload.length = 32 ∧ s1.lives r.tgt key 0x04 ∧
      s1.comp key = some c ∧ u32 r.payload 4 ≠ 0 ∧ s1.checkHandle (u32 r.payload 4) [0x03, 0x04] = .ok src ∧ c.planeOk r.payload = true ∧ s1.srcLive
      src = true ∧ (s1.critical key = true → s1.critical src = true)) ∧
    (∃ (r : Req) (s : State) (s1 : State) (key : _) (c : _), s.turn 0x0505 r = some s1 ∧ r.payload = [] ∧ s1.lives r.tgt key 0x04 ∧ s1.comp key = some
      c ∧ s1.commitCheck key c = none ∧ s1.firstOver (overCost (compCost c.cfg c.shadow) (s1.objCost key)) = none) ∧
    (∃ (r : Req) (s : State) (s1 : State) (key : _) (c : _) (st : _) (p : _), s.turn 0x0505 r = some s1 ∧ r.payload = [] ∧ s1.lives r.tgt key 0x04 ∧
      s1.comp key = some c ∧ s1.commitCheck key c = some (st, p)) ∧
    (∃ (r : Req) (s : State) (s1 : State) (key : _) (c : _), s.turn 0x0506 r = some s1 ∧ r.payload.length = 4 ∧ s1.lives r.tgt key 0x04 ∧ s1.comp key
      = some c ∧ u8 r.payload 0 ≤ 7 ∧ u8 r.payload 1 ≤ 1 ∧ zeros r.payload 2 2 = true) ∧
    (∃ (r : Req) (s : State) (s1 : State) (key : _) (c : _), s.turn 0x0507 r = some s1 ∧ r.payload = [] ∧ s1.lives r.tgt key 0x04 ∧ s1.comp key = some
      c) ∧
    (∃ (r : Req) (s : State) (s1 : State), s.turn 0x0508 r = some s1 ∧ r.target = 0 ∧ r.payload.length = 16 ∧ u32 r.payload 8 = 7168 ∧ zeros r.payload
      12 4 = true) ∧
    (∃ (comp : _), comp < 512) ∧
    (∃ (comp : _) (s : State) (c : _), comp < 512 ∧ s.comp (okey 4 comp) = some c ∧ (∀ e ∈ s.sched, ∀ i, e.at_ ≠ .frame i) ∧ s.fedBy (okey 4 comp) =
      []) ∧
    (∃ (comp : _) (k : _) (s : State) (c : _) (u : _), comp < 512 ∧ s.comp (okey 4 comp) = some c ∧ c.cur = some u ∧ (c.slices ≤ k ∨ thas u.left k =
      true)) ∧
    (∃ (comp : _) (k : _) (s : State) (c : _) (u : _), comp < 512 ∧ s.comp (okey 4 comp) = some c ∧ c.cur = some u ∧ k < c.slices ∧ thas u.left k =
      false) :=
  ⟨⟨(rq (compCfg 0)), up, (after 0x0500 (rq (compCfg 0)) (up)), 0, turn_after (by decide +kernel), by decide +kernel⟩,
   ⟨(rt (hd 4 0) []), (stage id), (after 0x0501 (rt (hd 4 0) []) (stage id)), (okey 4 0), turn_after (by decide +kernel), by decide +kernel,
    ok_of (by decide +kernel), by decide +kernel⟩,
   ⟨(rt (hd 4 0) []), (heldIn 4 0), (after 0x0502 (rt (hd 4 0) []) (heldIn 4 0)), (okey 4 0), (obj false false), turn_after (by decide +kernel),
    by decide +kernel, ok_of (by decide +kernel), by decide +kernel⟩,
   ⟨(rt (hd 4 0) []), studio, (after 0x0503 (rt (hd 4 0) []) (studio)), (okey 4 0), (obj true true), turn_after (by decide +kernel), by decide +kernel,
    ok_of (by decide +kernel), by decide +kernel⟩,
   ⟨(rt (hd 4 0) (planeOff 7)), studio, (after 0x0504 (rt (hd 4 0) (planeOff 7)) (studio)), (okey 4 0), (Comp.new (compCfg 1) 0),
    turn_after (by decide +kernel), by decide +kernel, ok_of (by decide +kernel), by decide +kernel⟩,
   ⟨(rt (hd 4 0) ([7, 1, 255, 1] ++ le 4 (hd 3 0) ++ le 2 0 ++ le 2 65534 ++ le 2 8 ++ le 2 8 ++ le 4 0 ++ le 2 64 ++ le 2 64 ++ zz 8)), studio,
    (after 0x0504 (rt (hd 4 0) ([7, 1, 255, 1] ++ le 4 (hd 3 0) ++ le 2 0 ++ le 2 65534 ++ le 2 8 ++ le 2 8 ++ le 4 0 ++ le 2 64 ++ le 2 64 ++ zz 8)) (studio)),
    (okey 4 0), (Comp.new (compCfg 1) 0), (okey 3 0), turn_after (by decide +kernel), by decide +kernel, ok_of (by decide +kernel), by decide +kernel,
    by decide +kernel, ok_of (by decide +kernel), by decide +kernel⟩,
   ⟨(rt (hd 4 0) []), studio, (after 0x0505 (rt (hd 4 0) []) (studio)), (okey 4 0), (Comp.new (compCfg 1) 0), turn_after (by decide +kernel),
    by decide +kernel, ok_of (by decide +kernel), by decide +kernel⟩,
   ⟨(rt (hd 4 0) []),
    (stage fun c => { c with shadow := c.shadow.set 1 ([1, 1, 255, 1] ++ le 4 (hd 3 5) ++ zz 4 ++ le 2 8 ++ le 2 8 ++ le 4 0 ++ le 2 8 ++ le 2 8 ++ zz 8) }),
    (after 0x0505 (rt (hd 4 0) []) (stage fun c => { c with shadow := c.shadow.set 1 ([1, 1, 255, 1] ++ le 4 (hd 3 5) ++ zz 4 ++ le 2 8 ++ le 2 8 ++ le 4 0 ++ le 2 8 ++ le 2 8 ++ zz 8) })),
    (okey 4 0),
    ({ Comp.new (compCfg 1) 0 with shadow := (Comp.new (compCfg 1) 0).shadow.set 1 ([1, 1, 255, 1] ++ le 4 (hd 3 5) ++ zz 4 ++ le 2 8 ++ le 2 8 ++ le 4 0 ++ le 2 8 ++ le 2 8 ++ zz 8) }),
    .invalidArg, ([1, 1, 0, 0]), turn_after (by decide +kernel), by decide +kernel, ok_of (by decide +kernel), by decide +kernel⟩,
   ⟨(rt (hd 4 0) [7, 1, 0, 0]), studio, (after 0x0506 (rt (hd 4 0) [7, 1, 0, 0]) (studio)), (okey 4 0), (Comp.new (compCfg 1) 0),
    turn_after (by decide +kernel), by decide +kernel, ok_of (by decide +kernel), by decide +kernel⟩,
   ⟨(rt (hd 4 0) []), studio, (after 0x0507 (rt (hd 4 0) []) (studio)), (okey 4 0), (Comp.new (compCfg 1) 0), turn_after (by decide +kernel),
    by decide +kernel, ok_of (by decide +kernel), by decide +kernel⟩,
   ⟨(rq (le 8 4096 ++ le 4 7168 ++ zz 4)), up, (after 0x0508 (rq (le 8 4096 ++ le 4 7168 ++ zz 4)) (up)), turn_after (by decide +kernel),
    by decide +kernel⟩,
   ⟨511, by decide⟩,
   ⟨0, ({ stage id with objs := [(okey 4 0, obj true false)] }), (Comp.new (compCfg 1) 0), by decide +kernel, by decide +kernel,
    fun e h => absurd h List.not_mem_nil, by decide +kernel⟩,
   ⟨0, 0, (stage fun c => { c with cur := some (compRun [(0, 5)]) }), ({ Comp.new (compCfg 1) 0 with cur := some (compRun [(0, 5)]) }),
    (compRun [(0, 5)]), by decide +kernel⟩,
   ⟨0, 0, (stage fun c => { c with cur := some (compRun []) }), ({ Comp.new (compCfg 1) 0 with cur := some (compRun []) }), (compRun []),
    by decide +kernel⟩⟩

theorem witness_NetworkCommandsComplete :
    (∃ (r : Req) (s : State) (s1 : State), s.turn 0x0B00 r = some s1 ∧ r.target = 0 ∧ r.payload.length = 4 ∧ (s1.mode = .ready ∨ s1.mode =
      .maintenance) ∧ 1 ≤ u8 r.payload 0 ∧ u8 r.payload 0 ≤ 6 ∧ zeros r.payload 1 3 = true) ∧
    (∃ (r : Req) (s : State) (s1 : State), s.turn 0x0B01 r = some s1 ∧ r.target = 0 ∧ r.payload.length = 16 ∧ s1.portOk (u8 r.payload 0) = true ∧ (u8
      r.payload 1 % 2 = 1 ∨ (s1.port (u8 r.payload 0)).en = false ∨ s1.carried (u8 r.payload 0) = []) ∧ u8 r.payload 1 ≤ 3 ∧ (u8 r.payload 1 / 2 % 2 =
      1 ↔ 1 ≤ u16 r.payload 2) ∧ u8 r.payload 4 % 2 = 0 ∧ u8 r.payload 10 ≤ 3 ∧ zeros r.payload 11 1 = true ∧ 1518 ≤ u16 r.payload 12 ∧ u16 r.payload
      12 ≤ 9216 ∧ zeros r.payload 14 2 = true) ∧
    (∃ (r : Req) (s : State) (s1 : State), s.turn 0x0B02 r = some s1 ∧ r.target = 0 ∧ r.payload.length = 32 ∧ s1.portOk (u8 r.payload 0) = true ∧ (u8
      r.payload 1 = 4 ∨ u8 r.payload 1 = 6) ∧ u8 r.payload 2 = 1 ∧ zeros r.payload 3 1 = true ∧ zeros r.payload 10 6 = true ∧ (u8 r.payload 1 = 6 ∨
      zeros r.payload 20 12 = true) ∧ (s1.net.neigh.length < 32768 ∨ s1.net.neigh.length = 32768 ∧ (s1.neighbour (u8 r.payload 0) (u8 r.payload 1)
      ((r.payload.drop 16).take 16)).isSome = true)) ∧
    (∃ (r : Req) (s : State) (s1 : State), s.turn 0x0B02 r = some s1 ∧ r.target = 0 ∧ r.payload.length = 32 ∧ s1.portOk (u8 r.payload 0) = true ∧ (u8
      r.payload 1 = 4 ∨ u8 r.payload 1 = 6) ∧ u8 r.payload 2 = 2 ∧ zeros r.payload 3 1 = true ∧ zeros r.payload 4 6 = true ∧ zeros r.payload 10 6 =
      true ∧ (u8 r.payload 1 = 6 ∨ zeros r.payload 20 12 = true)) ∧
    (∃ (r : Req) (s : State) (s1 : State) (d : _), s.turn 0x0B03 r = some s1 ∧ r.target = 0 ∧ r.payload.length = 24 ∧ u8 r.payload 0 = d + 1 ∧ d ≤ 1 ∧
      r.mbx < 4 ∧ (s1.hring r.mbx d).en = false ∧ (u8 r.payload 1 = 1 ∨ u8 r.payload 1 = 2) ∧ 6 ≤ u8 r.payload 2 ∧ u8 r.payload 2 ≤ 16 ∧ u8 r.payload
      3 ≤ 1 ∧ u32 r.payload 4 ≤ 1048576 ∧ (d = 0 ∨ u32 r.payload 4 = 0) ∧ u64 r.payload 8 % 4096 = 0 ∧ u32 r.payload 16 = 2 ^ u8 r.payload 2 * (if u8
      r.payload 1 = 2 then 10240 else 2048) ∧ zeros r.payload 20 4 = true ∧ s1.firstOver (overCost (costOf [(0x000C, 0, u32 r.payload 4)]) (costOf
      [(0x000C, 0, (s1.hring r.mbx d).spill)])) = none) ∧
    (∃ (r : Req) (s : State) (s1 : State) (d : _), s.turn 0x0B03 r = some s1 ∧ r.target = 0 ∧ r.payload.length = 24 ∧ u8 r.payload 0 = d + 1 ∧ d ≤ 1 ∧
      r.mbx < 4 ∧ (s1.hring r.mbx d).en = true ∧ u8 r.payload 3 = 0 ∧ (u8 r.payload 1 = 1 ∨ u8 r.payload 1 = 2) ∧ (s1.hring r.mbx d).slotSize = (if u8
      r.payload 1 = 2 then 10240 else 2048) ∧ (s1.hring r.mbx d).log2n = u8 r.payload 2 ∧ (s1.hring r.mbx d).spill = u32 r.payload 4 ∧ (s1.hring r.mbx
      d).base = u64 r.payload 8 ∧ 6 ≤ u8 r.payload 2 ∧ u8 r.payload 2 ≤ 16 ∧ u32 r.payload 4 ≤ 1048576 ∧ (d = 0 ∨ u32 r.payload 4 = 0) ∧ u64 r.payload
      8 % 4096 = 0 ∧ u32 r.payload 16 = 2 ^ u8 r.payload 2 * (if u8 r.payload 1 = 2 then 10240 else 2048) ∧ zeros r.payload 20 4 = true) ∧
    (∃ (r : Req) (s : State) (s1 : State), s.turn 0x0B04 r = some s1 ∧ r.target = 0 ∧ r.payload.length = 24 ∧ s1.queueLives (u16 r.payload 0) = true ∧
      u8 r.payload 2 = 0 ∧ u8 r.payload 3 ≤ 1 ∧ zeros r.payload 4 20 = true) ∧
    (∃ (r : Req) (s : State) (s1 : State) (x : _), s.turn 0x0B04 r = some s1 ∧ r.target = 0 ∧ r.payload.length = 24 ∧ s1.queue? (u16 r.payload 0) =
      some x ∧ u8 r.payload 2 = 1 ∧ u8 r.payload 3 ≤ 7 ∧ 1 ≤ u32 r.payload 4 ∧ u32 r.payload 4 ≤ x.cap ∧ u32 r.payload 8 < u32 r.payload 4 ∧ (if u8
      r.payload 3 / 2 % 2 = 1 then u8 r.payload 12 ≤ 7 else u8 r.payload 12 = 0) ∧ (if u8 r.payload 3 / 4 % 2 = 1 then s1.portOk (u8 r.payload 13) =
      true ∧ (s1.port (u8 r.payload 13)).pfc = true ∧ u8 r.payload 14 ≤ 7 else zeros r.payload 13 2 = true) ∧ zeros r.payload 15 9 = true) ∧
    (∃ (r : Req) (s : State) (s1 : State) (x : _), s.turn 0x0B04 r = some s1 ∧ r.target = 0 ∧ r.payload.length = 24 ∧ s1.queue? (u16 r.payload 0) =
      some x ∧ u8 r.payload 2 = 2 ∧ u8 r.payload 3 ≤ 1 ∧ zeros r.payload 4 12 = true ∧ 1 ≤ u32 r.payload 16 ∧ u32 r.payload 16 ≤ 1000000 ∧ zeros
      r.payload 20 4 = true) ∧
    (∃ (r : Req) (s : State) (s1 : State), s.turn 0x0B05 r = some s1 ∧ r.target = 0 ∧ r.payload.length = 4 ∧ s1.queueLives (u16 r.payload 0) = true ∧
      u8 r.payload 2 = 0 ∧ zeros r.payload 3 1 = true) ∧
    (∃ (r : Req) (s : State) (s1 : State) (x : _), s.turn 0x0B05 r = some s1 ∧ r.target = 0 ∧ r.payload.length = 4 ∧ s1.queueLives (u16 r.payload 0) =
      true ∧ u8 r.payload 2 = 1 ∧ zeros r.payload 3 1 = true ∧ s1.queue? (u16 r.payload 0) = some x ∧ (u16 r.payload 0 < 0xB200 ∨ 0xB240 ≤ u16
      r.payload 0)) ∧
    (∃ (r : Req) (s : State) (s1 : State) (l : _) (out : _) (cls : _), s.turn 0x0B05 r = some s1 ∧ r.target = 0 ∧ r.payload.length = 4 ∧ l < 4 ∧
      cls < 8 ∧ u16 r.payload 0 = linkQueue l out cls ∧ u8 r.payload 2 ≤ 1 ∧ zeros r.payload 3 1 = true) ∧
    (∃ (r : Req) (s : State) (s1 : State), s.turn 0x0B06 r = some s1 ∧ r.target = 0 ∧ r.payload.length = 4 ∧ s1.portOk (u8 r.payload 0) = true ∧ zeros
      r.payload 1 3 = true) :=
  ⟨⟨(rq [6, 0, 0, 0]), (inMode .ready), (after 0x0B00 (rq [6, 0, 0, 0]) (inMode .ready)), turn_after (by decide +kernel), by decide +kernel⟩,
   ⟨(rq ([0, 3] ++ le 2 65535 ++ [2, 0, 0, 0, 0, 1, 3, 0] ++ le 2 9216 ++ zz 2)), up,
    (after 0x0B01 (rq ([0, 3] ++ le 2 65535 ++ [2, 0, 0, 0, 0, 1, 3, 0] ++ le 2 9216 ++ zz 2)) (up)), turn_after (by decide +kernel),
    by decide +kernel⟩,
   ⟨(rq ([0, 4, 1, 0, 2, 0, 0, 0, 0, 1] ++ zz 6 ++ [10, 0, 0, 1] ++ zz 12)), up,
    (after 0x0B02 (rq ([0, 4, 1, 0, 2, 0, 0, 0, 0, 1] ++ zz 6 ++ [10, 0, 0, 1] ++ zz 12)) (up)), turn_after (by decide +kernel), by decide +kernel⟩,
   ⟨(rq ([0, 6, 2, 0] ++ zz 12 ++ zz 16)), up, (after 0x0B02 (rq ([0, 6, 2, 0] ++ zz 12 ++ zz 16)) (up)), turn_after (by decide +kernel),
    by decide +kernel⟩,
   ⟨(rq ([2, 2, 16, 1] ++ le 4 0 ++ le 8 4096 ++ le 4 671088640 ++ zz 4)), up,
    (after 0x0B03 (rq ([2, 2, 16, 1] ++ le 4 0 ++ le 8 4096 ++ le 4 671088640 ++ zz 4)) (up)), 1, turn_after (by decide +kernel), by decide +kernel⟩,
   ⟨(rq ([1, 1, 6, 0] ++ le 4 0 ++ le 8 0 ++ le 4 131072 ++ zz 4)), (wired 0xF020 (Queue.init 8 0)),
    (after 0x0B03 (rq ([1, 1, 6, 0] ++ le 4 0 ++ le 8 0 ++ le 4 131072 ++ zz 4)) (wired 0xF020 (Queue.init 8 0))), 0, turn_after (by decide +kernel),
    by decide +kernel⟩,
   ⟨(rq (le 2 0xF020 ++ [0, 1] ++ zz 20)), (wired 0xF020 (Queue.init 8 0)),
    (after 0x0B04 (rq (le 2 0xF020 ++ [0, 1] ++ zz 20)) (wired 0xF020 (Queue.init 8 0))), turn_after (by decide +kernel), by decide +kernel⟩,
   ⟨(rq (le 2 0xF020 ++ [1, 3] ++ le 4 8704 ++ le 4 8703 ++ [7] ++ zz 11)), (wired 0xF020 (Queue.init 8 0)),
    (after 0x0B04 (rq (le 2 0xF020 ++ [1, 3] ++ le 4 8704 ++ le 4 8703 ++ [7] ++ zz 11)) (wired 0xF020 (Queue.init 8 0))), (Queue.init 8 0),
    turn_after (by decide +kernel), by decide +kernel⟩,
   ⟨(rq (le 2 0xF020 ++ [2, 1] ++ zz 12 ++ le 4 1000000 ++ zz 4)), (wired 0xF020 (Queue.init 8 0)),
    (after 0x0B04 (rq (le 2 0xF020 ++ [2, 1] ++ zz 12 ++ le 4 1000000 ++ zz 4)) (wired 0xF020 (Queue.init 8 0))), (Queue.init 8 0),
    turn_after (by decide +kernel), by decide +kernel⟩,
   ⟨(rq (le 2 0xF020 ++ [0, 0])), (wired 0xF020 (Queue.init 8 0)), (after 0x0B05 (rq (le 2 0xF020 ++ [0, 0])) (wired 0xF020 (Queue.init 8 0))),
    turn_after (by decide +kernel), by decide +kernel⟩,
   ⟨(rq (le 2 0xF020 ++ [1, 0])), (wired 0xF020 (Queue.init 8 0)), (after 0x0B05 (rq (le 2 0xF020 ++ [1, 0])) (wired 0xF020 (Queue.init 8 0))),
    (Queue.init 8 0), turn_after (by decide +kernel), by decide +kernel⟩,
   ⟨(rq (le 2 0xB23F ++ [1, 0])), up, (after 0x0B05 (rq (le 2 0xB23F ++ [1, 0])) up), 3, false, 7, turn_after (by decide +kernel),
    by decide +kernel⟩,
   ⟨(rq [0, 0, 0, 0]), up, (after 0x0B06 (rq [0, 0, 0, 0]) (up)), turn_after (by decide +kernel), by decide +kernel⟩⟩

theorem witness_QueueEventsComplete :
    (∃ (fn : _) (head : _) (s : State), fn < 4 ∧ (s.hring fn 0).en = true ∧ head < 2 ^ (s.hring fn 0).log2n ∧ (head + 2 ^ (s.hring fn 0).log2n -
      (s.hring fn 0).head) % 2 ^ (s.hring fn 0).log2n ≤ ((s.hring fn 0).tail + 2 ^ (s.hring fn 0).log2n - (s.hring fn 0).head) % 2 ^ (s.hring fn
      0).log2n) ∧
    (∃ (fn : _) (head : _) (s : State), fn < 4 ∧ (s.hring fn 0).en = true ∧ head < 2 ^ (s.hring fn 0).log2n ∧ ((s.hring fn 0).tail + 2 ^ (s.hring fn
      0).log2n - (s.hring fn 0).head) % 2 ^ (s.hring fn 0).log2n < (head + 2 ^ (s.hring fn 0).log2n - (s.hring fn 0).head) % 2 ^ (s.hring fn 0).log2n) ∧
    (∃ (fn : _) (tail : _) (s : State) (k : _), fn < 4 ∧ (s.hring fn 1).en = true ∧ s.mode.isOpen = true ∧ tail < 2 ^ (s.hring fn 1).log2n ∧ k = (tail
      + 2 ^ (s.hring fn 1).log2n - (s.hring fn 1).tail) % 2 ^ (s.hring fn 1).log2n ∧ k ≠ 0) ∧
    (∃ (fn : _) (tail : _) (rec : Bytes) (s : State), fn < 4 ∧ (s.hring fn 1).en = true ∧ s.mode.isOpen = true ∧ 6 ≤ (s.hring fn 1).log2n ∧ (s.hring
      fn 1).tail < 2 ^ (s.hring fn 1).log2n ∧ tail = ((s.hring fn 1).tail + 1) % 2 ^ (s.hring fn 1).log2n ∧ 32 + u16 rec 4 ≤ (s.hring fn 1).slotSize ∧
      u16 rec 4 ≤ 9216 ∧ u8 rec 7 = 1 ∧ s.portOk (u8 rec 6) = true ∧ (s.port (u8 rec 6)).en = true) ∧
    (∃ (queue : _) (s : State) (q : _) (p : _), s.queue? queue = some q ∧ q.held = some p ∧ (p.deadline = 0 ∨ s.now ≤ p.deadline) ∧ q.fill + p.size ≤
      q.cap) ∧
    (∃ (queue : _) (s : State) (q : _) (p : _), s.queue? queue = some q ∧ q.held = some p ∧ p.deadline ≠ 0 ∧ p.deadline < s.now) ∧
    (∃ (queue : _) (s : State) (q : _) (p : _) (w : _), s.queue? queue = some q ∧ q.held = none ∧ q.waiting = p :: w ∧ q.fill + p.size ≤ q.cap) ∧
    (∃ (queue : _) (s : State) (q : _), s.queue? queue = some q ∧ q.mode = 2 ∧ q.recs ≠ [] ∧ q.lastRead + 1000 * q.stale ≤ s.now ∧ (queue <
      0xB300 ∨ 0xB308 ≤ queue)) ∧
    (∃ (fn : _) (s : State) (q : _), fn < 4 ∧ s.queue? (hostRxQueue fn) = some q ∧ q.mode = 2 ∧ q.recs ≠ [] ∧ q.lastRead + 1000 * q.stale ≤ s.now ∧
      q.flag 0 = false) ∧
    (∃ (port : _) (prio : _) (s : State), tget 0 (s.port port).paused prio ≤ s.now) ∧
    (∃ (port : _) (prio : _) (s : State), s.pfcOn port prio = true) ∧
    (∃ (port : _) (prio : _) (s : State), s.pfcOn port prio = false) ∧
    (∃ (port : _) (s : State), s.portOk port = true) ∧
    (∃ (port : _) (s : State), s.portOk port = true ∧ (s.port port).en = true ∧ s.mode.isOpen = true ∧ s.unitDown 7 0 = false) ∧
    (∃ (port : _) (data : Bytes) (s : State), s.portOk port = true ∧ (s.port port).en = true ∧ s.mode.isOpen = true ∧ s.unitDown 7 0 = false ∧
      (data.length < 64 ∨ (s.port port).maxFrame < data.length)) ∧
    (∃ (port : _) (data : Bytes) (s : State), s.portOk port = true ∧ (s.port port).en = true ∧ s.mode.isOpen = true ∧ s.unitDown 7 0 = false ∧ 64 ≤
      data.length ∧ data.length ≤ (s.port port).maxFrame ∧ u32 data (data.length - 4) ≠ (fcs (data.take (data.length - 4))).toNat) ∧
    (∃ (port : _) (data : Bytes) (s : State), s.portOk port = true ∧ (s.port port).en = true ∧ s.mode.isOpen = true ∧ s.unitDown 7 0 = false ∧ 64 ≤
      data.length ∧ data.length ≤ (s.port port).maxFrame ∧ u32 data (data.length - 4) = (fcs (data.take (data.length - 4))).toNat) ∧
    (∃ (port : _) (data : Bytes) (s : State), s.portOk port = true ∧ (s.port port).en = true ∧ s.mode.isOpen = true ∧ s.unitDown 7 0 = false ∧ 64 ≤
      data.length ∧ data.length ≤ (s.port port).maxFrame ∧ u32 data (data.length - 4) = (fcs (data.take (data.length - 4))).toNat ∧ data.take 6 =
      padTo 6 (s.port port).mac ∧ bfld data 12 2 = 0x0806) ∧
    (∃ (group : _) (data : Bytes) (f : Bytes) (s : State) (g : _) (st : _) (k : _) (bad : _), group < 64 ∧ tget? s.framer.groups group = some g ∧
      (s.port g.home).up = true ∧ s.flows (okey 9 (504 + group)) = true ∧ gfpReceive g.gfp g.scrRx data = (st, k, some f, bad)) :=
  ⟨⟨0, 3, (wired 0 (Queue.init 8 0)), by decide +kernel⟩,
   ⟨0, 4, (wired 0 (Queue.init 8 0)), by decide +kernel⟩,
   ⟨0, 4, (wired 0xF020 (Queue.init 8 0)), 1, by decide +kernel⟩,
   ⟨0, 4, (zz 4 ++ le 2 64 ++ [0, 1] ++ zz 24 ++ zz 64), (wired 0 (Queue.init 8 0)), by decide +kernel⟩,
   ⟨0xF020, (wired 0xF020 { Queue.init 8 0 with held := some (pkt 64) }), ({ Queue.init 8 0 with held := some (pkt 64) }), (pkt 64), by decide +kernel⟩,
   ⟨0xF020, (wired 0xF020 { Queue.init 8 0 with held := some { pkt 64 with deadline := 5 } }),
    ({ Queue.init 8 0 with held := some { pkt 64 with deadline := 5 } }), ({ pkt 64 with deadline := 5 }), by decide +kernel⟩,
   ⟨0xF020, (wired 0xF020 { Queue.init 8 0 with waiting := [pkt 64] }), ({ Queue.init 8 0 with waiting := [pkt 64] }), (pkt 64), ([]),
    by decide +kernel⟩,
   ⟨0xF020, (wired 0xF020 { Queue.init 8 0 with recs := [pkt 64], notice := [2, 1] ++ zz 12 ++ le 4 1000000 ++ zz 4 }),
    ({ Queue.init 8 0 with recs := [pkt 64], notice := [2, 1] ++ zz 12 ++ le 4 1000000 ++ zz 4 }), by decide +kernel⟩,
   ⟨1, (wired 0xB302 { Queue.init 8 0 with recs := [pkt 64], notice := [2, 0] ++ zz 12 ++ le 4 1000 ++ zz 4 }),
    ({ Queue.init 8 0 with recs := [pkt 64], notice := [2, 0] ++ zz 12 ++ le 4 1000 ++ zz 4 }), by decide +kernel⟩,
   ⟨0, 7, (wired 0 (Queue.init 8 0)), by decide +kernel⟩,
   ⟨0, 0, (wired 0xF020 { Queue.init 8 0 with notice := [1, 4] ++ zz 20, asserted := true }), by decide +kernel⟩,
   ⟨0, 0, up, by decide +kernel⟩,
   ⟨0, up, by decide +kernel⟩,
   ⟨0, (wired 0 (Queue.init 8 0)), by decide +kernel⟩,
   ⟨0, (zz 63), (wired 0 (Queue.init 8 0)), by decide +kernel⟩,
   ⟨0, (zz 64), (wired 0 (Queue.init 8 0)), by decide +kernel⟩,
   ⟨0, (zz 60 ++ le 4 (fcs (zz 60)).toNat), (wired 0xF020 (Queue.init 8 0)), by decide +kernel⟩,
   ⟨0, (withFcs (zz 12 ++ [8, 6] ++ zz 46)), (wired 0 (Queue.init 8 0)), by decide +kernel⟩,
   ⟨63, ((gfpFrame 0 false (zz 60)).2), (zz 60),
    ({ wired 0 (Queue.init 8 0) with objs := [(okey 9 567, obj true true)], framer := { up.framer with groups := [(63, { ty := 1, members := [], maxDelay := 0, home := 0, pfcs := false, gfp := 2, scrTx := 0, scrRx := 0, defects := 0, stats := [] })] } }),
    ({ ty := 1, members := [], maxDelay := 0, home := 0, pfcs := false, gfp := 2, scrTx := 0, scrRx := 0, defects := 0, stats := [] }), 2,
    ((gfpFrame 0 false (zz 60)).1), false, by decide +kernel⟩⟩

theorem witness_ShapingComplete :
    (∃ (r : Req) (s : State) (s1 : State), s.turn 0x0B10 r = some s1 ∧ r.target = 0 ∧ r.payload.length = 16 ∧ ((s1.queuePort (u16 r.payload 0)).isSome
      = true ∨ (s1.hostLeg (u16 r.payload 0)).isSome = true) ∧ u16 r.payload 0 < 0xF020 ∧ u8 r.payload 2 ≤ 6 ∧ zeros r.payload 3 1 = true ∧ u32
      r.payload 4 ≤ s1.declaredRate (u16 r.payload 0) ∧ 1 ≤ u32 r.payload 8 ∧ u32 r.payload 8 ≤ 16777215 ∧ zeros r.payload 12 4 = true) ∧
    (∃ (r : Req) (s : State) (s1 : State), s.turn 0x0B11 r = some s1 ∧ r.target = 0 ∧ r.payload.length = 16 ∧ s1.shaperOk (u8 r.payload 0) = true ∧ u8
      r.payload 1 ≤ 1 ∧ zeros r.payload 2 2 = true ∧ (u32 r.payload 4 ≤ 400000000 ∨ u32 r.payload 4 = 0xFFFFFFFF) ∧ 1 ≤ u32 r.payload 8 ∧ u32
      r.payload 8 ≤ 16777215 ∧ zeros r.payload 12 4 = true ∧ (u32 r.payload 4 = 0 ∨ u32 r.payload 4 = 0xFFFFFFFF ∨ s1.governed (u8 r.payload 0) ≤ u32
      r.payload 4)) ∧
    (∃ (r : Req) (s : State) (s1 : State), s.turn 0x0B12 r = some s1 ∧ r.target = 0 ∧ r.payload.length = 4 ∧ s1.portOk (u8 r.payload 0) = true ∧
      (signed 8 (u8 r.payload 1) = (s1.port (u8 r.payload 0)).overhead ∨ s1.carried (u8 r.payload 0) = []) ∧ -32 ≤ signed 8 (u8 r.payload 1) ∧ u8
      r.payload 2 ≤ 6 ∧ zeros r.payload 3 1 = true) ∧
    (∃ (r : Req) (s : State) (s1 : State), s.turn 0x0B13 r = some s1 ∧ r.target = 0 ∧ r.payload.length = 4 ∧ u8 r.payload 0 = 1 ∧ ((s1.queuePort (u16
      r.payload 2)).isSome = true ∨ (s1.hostLeg (u16 r.payload 2)).isSome = true) ∧ zeros r.payload 1 1 = true) ∧
    (∃ (r : Req) (s : State) (s1 : State), s.turn 0x0B13 r = some s1 ∧ r.target = 0 ∧ r.payload.length = 4 ∧ u8 r.payload 0 = 2 ∧ s1.shaperOk (u16
      r.payload 2) = true ∧ zeros r.payload 1 1 = true) ∧
    (∃ (shaper : _) (s : State) (p : _) (rate : _) (burst : _) (cls : _), s.queuePort shaper = some p ∧ shaper < 0xF000 ∧ (s.egShaper shaper).pend =
      some (rate, burst, cls) ∧ (∀ e ∈ s.sched, e.at_ = .refill shaper → e.act = .applied)) ∧
    (∃ (shaper : _), shaper < 256 ∧ shaper % 16 ≤ 8) ∧
    (∃ (shaper : _) (s : State), shaper < 256 ∧ shaper % 16 ≤ 8 ∧ (s.classShaper shaper).pend = none ∧ (s.classShaper shaper).rate ≠ 0 ∧
      (s.classShaper shaper).rate ≠ 0xFFFFFFFF) ∧
    (∃ (port : _) (time : _) (s : State) (q : _) (r : _), s.portOk port = true ∧ (s.port port).up = true ∧ (s.port port).en = true ∧ s.mode.isOpen =
      true ∧ s.unitDown 9 0 = false ∧ s.net.queues = [(0xF020 + port, q)] ∧ q.recs = [r] ∧ q.mode = 0 ∧ r.deadline = 0 ∧ r.flags = 0 ∧ r.bad = [] ∧
      q.cells = [] ∧ r.kind = 1 ∧ s.egress.legs = [] ∧ s.egress.classes = [] ∧ (s.port port).paused = [] ∧ s.now ≤ time) :=
  ⟨⟨(rq (le 2 0x4000 ++ [6, 0] ++ le 4 64 ++ le 4 16777215 ++ zz 4)), studio,
    (after 0x0B10 (rq (le 2 0x4000 ++ [6, 0] ++ le 4 64 ++ le 4 16777215 ++ zz 4)) (studio)), turn_after (by decide +kernel), by decide +kernel⟩,
   ⟨(rq ([8, 0, 0, 0] ++ le 4 400000000 ++ le 4 16777215 ++ zz 4)), up,
    (after 0x0B11 (rq ([8, 0, 0, 0] ++ le 4 400000000 ++ le 4 16777215 ++ zz 4)) (up)), turn_after (by decide +kernel), by decide +kernel⟩,
   ⟨(rq [0, 224, 6, 0]), up, (after 0x0B12 (rq [0, 224, 6, 0]) (up)), turn_after (by decide +kernel), by decide +kernel⟩,
   ⟨(rq ([1, 0] ++ le 2 0x4000)), studio, (after 0x0B13 (rq ([1, 0] ++ le 2 0x4000)) (studio)), turn_after (by decide +kernel), by decide +kernel⟩,
   ⟨(rq ([2, 0] ++ le 2 8)), up, (after 0x0B13 (rq ([2, 0] ++ le 2 8)) (up)), turn_after (by decide +kernel), by decide +kernel⟩,
   ⟨0x4000, (studio.setEgShaper 0x4000 { Shaper.open 0 with pend := some (64, 1000, 2) }), 0, 64, 1000, 2, by decide +kernel, by decide +kernel,
    by decide +kernel, fun e h => absurd h List.not_mem_nil⟩,
   ⟨248, by decide⟩,
   ⟨248, (up.setClassShaper 248 { Shaper.open 0 with rate := 1000 }), by decide +kernel⟩,
   ⟨0, 1000000000, (wired 0xF020 { Queue.init 8 0 with recs := [pkt 64] }), ({ Queue.init 8 0 with recs := [pkt 64] }), (pkt 64), by decide +kernel⟩⟩

theorem witness_KeysComplete :
    (∃ (r : Req) (s : State) (s1 : State) (i : _), s.turn 0x0C00 r = some s1 ∧ r.target = 0 ∧ r.payload.length = 72 ∧ (u32 r.payload 4 = 0 ∨ ∃ w,
      s1.lives (u32 r.payload 4) w 0x08 ∧ 32768 ≤ kidx w) ∧ s1.inService = true ∧ s1.onyx.otp.isSome = true ∧ u8 r.payload 0 = 1 ∧ blobLen (u8
      r.payload 1) ≠ 0 ∧ u8 r.payload 2 = 1 ∧ u32 r.payload 12 = 0 ∧ u8 r.payload 3 = blobLen (u8 r.payload 1) ∧ zeros r.payload (16 + blobLen (u8
      r.payload 1)) (56 - blobLen (u8 r.payload 1)) = true ∧ s1.lowestFree 8 0 32768 = some i) ∧
    (∃ (r : Req) (s : State) (s1 : State) (i : _), s.turn 0x0C00 r = some s1 ∧ r.target = 0 ∧ r.payload.length = 72 ∧ (u32 r.payload 4 = 0 ∨ ∃ w,
      s1.lives (u32 r.payload 4) w 0x08 ∧ 32768 ≤ kidx w) ∧ s1.inService = true ∧ s1.onyx.otp.isSome = true ∧ u8 r.payload 0 = 1 ∧ blobLen (u8
      r.payload 1) ≠ 0 ∧ u8 r.payload 2 = 2 ∧ u32 r.payload 12 ≤ 2 ^ 31 - 2 ∧ u8 r.payload 3 = blobLen (u8 r.payload 1) ∧ zeros r.payload (16 +
      blobLen (u8 r.payload 1)) (56 - blobLen (u8 r.payload 1)) = true ∧ s1.lowestFree 8 0 32768 = some i) ∧
    (∃ (r : Req) (s : State) (s1 : State) (i : _), s.turn 0x0C00 r = some s1 ∧ r.target = 0 ∧ r.payload.length = 72 ∧ u32 r.payload 4 = 0 ∧
      s1.inService = true ∧ s1.onyx.otp.isSome = true ∧ u8 r.payload 0 = 2 ∧ zeros r.payload 1 2 = true ∧ u8 r.payload 3 = 40 ∧ zeros r.payload 4 12 =
      true ∧ zeros r.payload 56 16 = true ∧ s1.lowestFree 8 32768 16 = some i) ∧
    (∃ (r : Req) (s : State) (s1 : State) (k : _) (c : _), s.turn 0x0C01 r = some s1 ∧ r.payload = [] ∧ s1.lives r.tgt k 8 ∧ s1.keyCtx (kidx k) = some
      c ∧ (c.st = .loaded ∨ c.st = .spent)) ∧
    (∃ (r : Req) (s : State) (s1 : State) (k : _) (c : _), s.turn 0x0C02 r = some s1 ∧ r.payload.length = 80 ∧ s1.lives r.tgt k 8 ∧ kidx k < 32768 ∧
      s1.keyCtx (kidx k) = some c ∧ (u32 r.payload 12 = 0 ∨ ∃ w, s1.lives (u32 r.payload 12) w 0x08 ∧ 32768 ≤ kidx w) ∧ (c.st = .loaded ∨ c.st =
      .bound) ∧ (s1.onyx.otp.isSome = true ∨ u32 r.payload 12 ≠ 0) ∧ u64 r.payload 0 ≤ 2 ^ 48 - 2 ∧ u32 r.payload 8 ≤ 2 ^ 31 - 2 ∧ u8 r.payload 16 =
      blobLen c.profile ∧ zeros r.payload 17 7 = true ∧ zeros r.payload (24 + blobLen c.profile) (56 - blobLen c.profile) = true) ∧
    (∃ (r : Req) (s : State) (s1 : State) (k : _) (c : _), s.turn 0x0C03 r = some s1 ∧ r.payload = [] ∧ s1.lives r.tgt k 8 ∧ kidx k < 32768 ∧
      s1.keyCtx (kidx k) = some c) ∧
    (∃ (r : Req) (s : State) (s1 : State) (d : _), s.turn 0x0C04 r = some s1 ∧ r.target = 0 ∧ r.payload.length = 56 ∧ u8 r.payload 0 < 4 ∧ (u32
      r.payload 4 = 0 ∨ ∃ w, s1.lives (u32 r.payload 4) w 0x08 ∧ 32768 ≤ kidx w) ∧ (s1.onyx.otp.isSome = true ∨ u32 r.payload 4 ≠ 0) ∧ u8 r.payload 1
      = d + 1 ∧ d ≤ 1 ∧ u8 r.payload 2 ≤ 1 ∧ u8 r.payload 3 ≤ d ∧ (d = 0 ∨ u8 r.payload 2 ≠ (s1.linkKey (u8 r.payload 0) d).active ∨ (s1.linkKey (u8
      r.payload 0) d).phase (u8 r.payload 2) = none)) ∧
    (∃ (r : Req) (s : State) (s1 : State), s.turn 0x0C05 r = some s1 ∧ r.target = 0 ∧ r.payload = []) ∧
    (∃ (test : _), 1 ≤ test ∧ test ≤ 3) ∧
    (∃ (inst : _), inst < 9) :=
  ⟨⟨(rq ([1, 1, 1, 40] ++ zz 12 ++ zz 56)), (keyed), (after 0x0C00 (rq ([1, 1, 1, 40] ++ zz 12 ++ zz 56)) (keyed)), 1, turn_after (by decide +kernel),
    by decide +kernel, by decide +kernel, Or.inl (by decide +kernel), by decide +kernel⟩,
   ⟨(rq ([1, 2, 2, 56] ++ zz 8 ++ le 4 2147483646 ++ zz 56)), (keyed), (after 0x0C00 (rq ([1, 2, 2, 56] ++ zz 8 ++ le 4 2147483646 ++ zz 56)) (keyed)),
    1, turn_after (by decide +kernel), by decide +kernel, by decide +kernel, Or.inl (by decide +kernel), by decide +kernel⟩,
   ⟨(rq ([2, 0, 0, 40] ++ zz 12 ++ zz 56)), keyed, (after 0x0C00 (rq ([2, 0, 0, 40] ++ zz 12 ++ zz 56)) (keyed)), 32768,
    turn_after (by decide +kernel), by decide +kernel⟩,
   ⟨(rt (hd 8 0) []), keyed, (after 0x0C01 (rt (hd 8 0) []) (keyed)), (okey 8 0), (KeyCtx.new 1 1 0 0 (zz 28)), turn_after (by decide +kernel),
    by decide +kernel, ok_of (by decide +kernel), by decide +kernel⟩,
   ⟨(rt (hd 8 0) (le 8 281474976710654 ++ le 4 2147483646 ++ zz 4 ++ [40] ++ zz 7 ++ zz 56)), (keyed),
    (after 0x0C02 (rt (hd 8 0) (le 8 281474976710654 ++ le 4 2147483646 ++ zz 4 ++ [40] ++ zz 7 ++ zz 56)) (keyed)), (okey 8 0),
    (KeyCtx.new 1 1 0 0 (zz 28)), turn_after (by decide +kernel), by decide +kernel, ok_of (by decide +kernel), by decide +kernel, by decide +kernel,
    Or.inl (by decide +kernel), by decide +kernel⟩,
   ⟨(rt (hd 8 0) []), keyed, (after 0x0C03 (rt (hd 8 0) []) (keyed)), (okey 8 0), (KeyCtx.new 1 1 0 0 (zz 28)), turn_after (by decide +kernel),
    by decide +kernel, ok_of (by decide +kernel), by decide +kernel⟩,
   ⟨(rq ([3, 2, 1, 1] ++ zz 4 ++ zz 48)), (keyed), (after 0x0C04 (rq ([3, 2, 1, 1] ++ zz 4 ++ zz 48)) (keyed)), 1, turn_after (by decide +kernel),
    by decide +kernel, by decide +kernel, by decide +kernel, Or.inl (by decide +kernel), by decide +kernel⟩,
   ⟨(rq []), up, (after 0x0C05 (rq []) (up)), turn_after (by decide +kernel), by decide +kernel⟩,
   ⟨3, by decide +kernel⟩,
   ⟨8, by decide +kernel⟩⟩

theorem witness_RecorderCommandsComplete :
    (∃ (r : Req) (s : State) (s1 : State) (i : _) (base : _), s.turn 0x0700 r = some s1 ∧ r.target = 0 ∧ r.payload.length = 8 ∧ s1.inService = true ∧
      1 ≤ u32 r.payload 0 ∧ u32 r.payload 0 ≤ 2097152 ∧ u8 r.payload 4 ≤ 1 ∧ zeros r.payload 5 3 = true ∧ s1.lowestFree 6 0 16 = some i ∧ s1.mem.ddr =
      true ∧ s1.ringPlace (u32 r.payload 0) = some base) ∧
    (∃ (r : Req) (s : State) (s1 : State) (key : _) (p : _), s.turn 0x0701 r = some s1 ∧ r.payload = [] ∧ s1.lives r.tgt key 0x06 ∧ s1.part key = some
      p ∧ p.freezes = []) ∧
    (∃ (r : Req) (s : State) (s1 : State) (key : _) (p : _) (o : _), s.turn 0x0702 r = some s1 ∧ r.payload = [] ∧ s1.lives r.tgt key 0x06 ∧ s1.part
      key = some p ∧ p.evidence = false ∧ s1.obj key = some o ∧ o.active = false ∧ (o.shed = false ∨ s1.mode ≠ .shed)) ∧
    (∃ (r : Req) (s : State) (s1 : State) (key : _) (p : _) (o : _), s.turn 0x0703 r = some s1 ∧ r.payload = [] ∧ s1.lives r.tgt key 0x06 ∧ s1.part
      key = some p ∧ p.evidence = false ∧ s1.obj key = some o ∧ o.active = true) ∧
    (∃ (r : Req) (s : State) (s1 : State) (key : _) (p : _) (ob : _), s.turn 0x0704 r = some s1 ∧ r.payload.length = 12 ∧ s1.lives r.tgt key 0x06 ∧
      s1.part key = some p ∧ u8 r.payload 0 = 1 ∧ s1.checkHandle (u32 r.payload 4) [1, 2, 3, 4, 5, 6, 7, 8, 9, 10, 11, 12, 13] = .ok ob ∧ p.evidence =
      false ∧ s1.tapObj (u8 r.payload 1) ob (u8 r.payload 8) = true ∧ (u8 r.payload 1 = 5 ∨ u8 r.payload 8 = 0) ∧ zeros r.payload 9 3 = true ∧
      p.taps.length < 4096 ∧ s1.tapCount < 16384 ∧ 8 * recordLen (s1.tapLargest (u8 r.payload 1) ob (u8 r.payload 8)) ≤ p.bytesOf ∧ s1.exportFits
      p.cfg ((u8 r.payload 1, ob, u8 r.payload 8) :: p.tapList) = true ∧ s1.admits (s1.tapCost (u8 r.payload 1) ob (u8 r.payload 8) (u8 p.cfg 0 != 0))
      = true) ∧
    (∃ (r : Req) (s : State) (s1 : State) (key : _) (p : _) (x : _), s.turn 0x0704 r = some s1 ∧ r.payload.length = 12 ∧ s1.lives r.tgt key 0x06 ∧
      s1.part key = some p ∧ u8 r.payload 0 = 2 ∧ p.evidence = false ∧ tget? p.taps (u16 r.payload 2) = some x ∧ x.dying = false ∧ zeros r.payload 9 3
      = true) ∧
    (∃ (r : Req) (s : State) (s1 : State) (key : _) (p : _), s.turn 0x0705 r = some s1 ∧ r.payload.length = 96 ∧ s1.lives r.tgt key 0x06 ∧ s1.part key
      = some p ∧ s1.exportOk r.payload = true ∧ s1.exportFits r.payload p.tapList = true ∧ s1.firstOver (overCost (p.taps.foldl (fun c t => if
      t.2.dying then c else plusCost c (s1.tapCost t.2.kind t.2.obj t.2.stream (u8 r.payload 0 != 0))) (s1.exportCost r.payload)) (s1.objCost key)) =
      none) ∧
    (∃ (r : Req) (s : State) (s1 : State) (key : _) (p : _), s.turn 0x0706 r = some s1 ∧ r.payload.length = 8 ∧ s1.lives r.tgt key 0x06 ∧ s1.part key
      = some p ∧ u8 p.cfg 0 = 1 ∧ p.acked ≤ u64 r.payload 0 ∧ u64 r.payload 0 ≤ p.exported) ∧
    (∃ (r : Req) (s : State) (s1 : State) (key : _) (p : _) (i : _), s.turn 0x0707 r = some s1 ∧ r.payload.length = 16 ∧ s1.lives r.tgt key 0x06 ∧
      s1.part key = some p ∧ u64 r.payload 0 ≤ u64 r.payload 8 ∧ (List.range 8).find? (fun i => !thas p.freezes i) = some i ∧ 2 * (p.recs.map
      (·.len)).sum ≤ p.bytesOf) ∧
    (∃ (r : Req) (s : State) (s1 : State) (key : _) (p : _), s.turn 0x0708 r = some s1 ∧ r.payload.length = 4 ∧ s1.lives r.tgt key 0x06 ∧ s1.part key
      = some p ∧ thas p.freezes (u8 r.payload 0) = true ∧ zeros r.payload 1 3 = true) ∧
    (∃ (r : Req) (s : State) (s1 : State) (key : _) (p : _), s.turn 0x0709 r = some s1 ∧ r.payload.length = 32 ∧ s1.lives r.tgt key 0x06 ∧ s1.part key
      = some p ∧ zeros r.payload 8 8 = true ∧ zeros r.payload 28 4 = true ∧ u64 r.payload 0 + u32 r.payload 24 ≤ p.bytesOf ∧ 0 < u32 r.payload 24) ∧
    (∃ (r : Req) (s : State) (s1 : State) (key : _) (p : _), s.turn 0x0709 r = some s1 ∧ r.payload.length = 32 ∧ s1.lives r.tgt key 0x06 ∧ s1.part key
      = some p ∧ zeros r.payload 8 8 = true ∧ zeros r.payload 28 4 = true ∧ u64 r.payload 0 ≤ p.bytesOf ∧ u32 r.payload 24 = 0) ∧
    (∃ (r : Req) (s : State) (s1 : State) (key : _) (p : _), s.turn 0x070A r = some s1 ∧ r.payload = [] ∧ s1.lives r.tgt key 0x06 ∧ s1.part key = some
      p) ∧
    (∃ (r : Req) (s : State) (s1 : State), s.turn 0x070B r = some s1 ∧ r.target = 0 ∧ r.payload = []) ∧
    (∃ (r : Req) (s : State) (s1 : State) (x : _) (i : _) (u : _) (w : _) (n : _), s.turn 0x070C r = some s1 ∧ r.target = 0 ∧ r.payload.length = 4 ∧
      (s1.mode = .ready ∨ s1.inService = true) ∧ (s1.recorder.survivors.find? fun x => x.base == u32 r.payload 0) = some x ∧ s1.lowestFree 6 0 16 =
      some i ∧ s1.ringWalk x.base (x.size * 2 ^ 20) (x.recs.filter fun e => decide (x.saved ≤ e.off)) (x.saved, none) = (u, w, n)) :=
  ⟨⟨(rq (le 4 1 ++ [1, 0, 0, 0])), ({ up with mem := { up.mem with ddr := true } }),
    (after 0x0700 (rq (le 4 1 ++ [1, 0, 0, 0])) ({ up with mem := { up.mem with ddr := true } })), 0,
    ((after 0x0700 (rq (le 4 1 ++ [1, 0, 0, 0])) { up with mem := { up.mem with ddr := true } }).mem.recLo), turn_after (by decide +kernel),
    by and_intros <;> first | exact ring_fits _ _ (by decide +kernel) (by decide +kernel) (by decide +kernel) (by decide +kernel) | decide +kernel⟩,
   ⟨(rt (hd 6 0) []), (taping (Part.new 0 8)), (after 0x0701 (rt (hd 6 0) []) (taping (Part.new 0 8))), (okey 6 0), (Part.new 0 8),
    turn_after (by decide +kernel), by decide +kernel, ok_of (by decide +kernel), by decide +kernel⟩,
   ⟨(rt (hd 6 0) []), ({ taping (Part.new 0 8) with objs := [(okey 6 0, obj false false)] }),
    (after 0x0702 (rt (hd 6 0) []) ({ taping (Part.new 0 8) with objs := [(okey 6 0, obj false false)] })), (okey 6 0), (Part.new 0 8),
    (obj false false), turn_after (by decide +kernel), by decide +kernel, ok_of (by decide +kernel), by decide +kernel⟩,
   ⟨(rt (hd 6 0) []), (taping (Part.new 0 8)), (after 0x0703 (rt (hd 6 0) []) (taping (Part.new 0 8))), (okey 6 0), (Part.new 0 8), (obj true true),
    turn_after (by decide +kernel), by decide +kernel, ok_of (by decide +kernel), by decide +kernel⟩,
   ⟨(rt (hd 6 0) ([1, 1, 0, 0] ++ le 4 (hd 2 0) ++ zz 4)), (taping (Part.new 0 8)),
    (after 0x0704 (rt (hd 6 0) ([1, 1, 0, 0] ++ le 4 (hd 2 0) ++ zz 4)) (taping (Part.new 0 8))), (okey 6 0), (Part.new 0 8), (okey 2 0),
    turn_after (by decide +kernel), by and_intros <;> first | exact ok_of (by decide +kernel) | exact admits_ddr (by decide +kernel) | decide +kernel⟩,
   ⟨(rt (hd 6 0) ([2] ++ zz 11)), (taping { Part.new 0 8 with taps := [(0, oneTap)] }),
    (after 0x0704 (rt (hd 6 0) ([2] ++ zz 11)) (taping { Part.new 0 8 with taps := [(0, oneTap)] })), (okey 6 0),
    ({ Part.new 0 8 with taps := [(0, oneTap)] }), oneTap, turn_after (by decide +kernel), by decide +kernel, ok_of (by decide +kernel),
    by decide +kernel⟩,
   ⟨(rt (hd 6 0) hostExport), (taping (Part.new 0 8)), (after 0x0705 (rt (hd 6 0) hostExport) (taping (Part.new 0 8))), (okey 6 0), (Part.new 0 8),
    turn_after (by decide +kernel), by decide +kernel, ok_of (by decide +kernel), by decide +kernel⟩,
   ⟨(rt (hd 6 0) (le 8 64)), (taping { Part.new 0 8 with cfg := hostExport, exported := 64 }),
    (after 0x0706 (rt (hd 6 0) (le 8 64)) (taping { Part.new 0 8 with cfg := hostExport, exported := 64 })), (okey 6 0),
    ({ Part.new 0 8 with cfg := hostExport, exported := 64 }), turn_after (by decide +kernel), by decide +kernel, ok_of (by decide +kernel),
    by decide +kernel⟩,
   ⟨(rt (hd 6 0) (le 8 5 ++ le 8 5)), (taping (Part.new 0 8)), (after 0x0707 (rt (hd 6 0) (le 8 5 ++ le 8 5)) (taping (Part.new 0 8))), (okey 6 0),
    (Part.new 0 8), 0, turn_after (by decide +kernel), by decide +kernel, ok_of (by decide +kernel), by decide +kernel⟩,
   ⟨(rt (hd 6 0) (zz 4)), (taping { Part.new 0 8 with freezes := [(0, oneFreeze)] }),
    (after 0x0708 (rt (hd 6 0) (zz 4)) (taping { Part.new 0 8 with freezes := [(0, oneFreeze)] })), (okey 6 0),
    ({ Part.new 0 8 with freezes := [(0, oneFreeze)] }), turn_after (by decide +kernel), by decide +kernel, ok_of (by decide +kernel),
    by decide +kernel⟩,
   ⟨(rt (hd 6 0) (le 8 8388544 ++ zz 8 ++ le 8 4096 ++ le 4 64 ++ zz 4)), (taping (Part.new 0 8)),
    (after 0x0709 (rt (hd 6 0) (le 8 8388544 ++ zz 8 ++ le 8 4096 ++ le 4 64 ++ zz 4)) (taping (Part.new 0 8))), (okey 6 0), (Part.new 0 8),
    turn_after (by decide +kernel), by decide +kernel, ok_of (by decide +kernel), by decide +kernel⟩,
   ⟨(rt (hd 6 0) (zz 32)), (taping (Part.new 0 8)), (after 0x0709 (rt (hd 6 0) (zz 32)) (taping (Part.new 0 8))), (okey 6 0), (Part.new 0 8),
    turn_after (by decide +kernel), by decide +kernel, ok_of (by decide +kernel), by decide +kernel⟩,
   ⟨(rt (hd 6 0) []), (taping (Part.new 0 8)), (after 0x070A (rt (hd 6 0) []) (taping (Part.new 0 8))), (okey 6 0), (Part.new 0 8),
    turn_after (by decide +kernel), by decide +kernel, ok_of (by decide +kernel), by decide +kernel⟩,
   ⟨(rq []), up, (after 0x070B (rq []) (up)), turn_after (by decide +kernel), by decide +kernel⟩,
   ⟨(rq (zz 4)),
    ({ inMode .ready with recorder := { up.recorder with survivors := [{ base := 0, size := 8, saved := 0, freezes := [], recs := [], write := 0 }] } }),
    (after 0x070C (rq (zz 4)) ({ inMode .ready with recorder := { up.recorder with survivors := [{ base := 0, size := 8, saved := 0, freezes := [], recs := [], write := 0 }] } })),
    ({ base := 0, size := 8, saved := 0, freezes := [], recs := [], write := 0 }), 0,
    (State.ringWalk 0 (8 * 2 ^ 20) [] (0, none) (after 0x070C (rq (zz 4)) ({ inMode .ready with recorder := { up.recorder with survivors := [{ base := 0, size := 8, saved := 0, freezes := [], recs := [], write := 0 }] } }))).1,
    (State.ringWalk 0 (8 * 2 ^ 20) [] (0, none) (after 0x070C (rq (zz 4)) ({ inMode .ready with recorder := { up.recorder with survivors := [{ base := 0, size := 8, saved := 0, freezes := [], recs := [], write := 0 }] } }))).2.1,
    (State.ringWalk 0 (8 * 2 ^ 20) [] (0, none) (after 0x070C (rq (zz 4)) ({ inMode .ready with recorder := { up.recorder with survivors := [{ base := 0, size := 8, saved := 0, freezes := [], recs := [], write := 0 }] } }))).2.2,
    turn_after (by decide +kernel), by decide +kernel, by decide +kernel, by decide +kernel, by decide +kernel, by decide +kernel, rfl⟩⟩

theorem witness_RecorderEventsComplete :
    (∃ (part : _) (s : State) (p : _) (c : _) (q : _) (w : _), part < 16 ∧ s.part (okey 6 part) = some p ∧ s.work.throttled = false ∧ s.mem.ddr = true
      ∧ s.unitDown 0x0D 0 = false ∧ p.nextCopy = some (c, q) ∧ w = p.skip (p.recs.length + 1) p.write ∧ recordLen c.data.length ≤ p.gap w) ∧
    (∃ (part : _) (s : State) (p : _) (c : _) (q : _) (w : _), part < 16 ∧ s.part (okey 6 part) = some p ∧ s.work.throttled = false ∧ s.mem.ddr = true
      ∧ s.unitDown 0x0D 0 = false ∧ p.nextCopy = some (c, q) ∧ w = p.skip (p.recs.length + 1) p.write ∧ p.gap w < recordLen c.data.length) ∧
    (∃ (p : Part), p.freezes = []) ∧
    (∃ (part : _) (s : State) (p : _), part < 16 ∧ s.part (okey 6 part) = some p) ∧
    (∃ (part : _) (range : _) (s : State) (p : _) (f : _), part < 16 ∧ s.part (okey 6 part) = some p ∧ tget? p.freezes range = some f) ∧
    (∃ (part : _) (s : State) (p : _), part < 16 ∧ s.part (okey 6 part) = some p ∧ u8 p.cfg 0 = 0) ∧
    (∃ (part : _) (s : State) (u : State) (p : _) (rec : _) (n : _) (bad : _), part < 16 ∧ s.part (okey 6 part) = some p ∧ u8 p.cfg 0 = 1 ∧
      s.work.throttled = false ∧ s.unitDown 0x0D 0 = false ∧ p.exportNext = some rec ∧ n = min (min (rec.off + rec.len - max p.exported rec.off) (u32 p.cfg 16 - (p.exported -
      p.acked))) (u32 p.cfg 16 - max p.exported rec.off % u32 p.cfg 16) ∧ n ≠ 0 ∧ s.memRead (p.base * 2 ^ 20 + max p.exported rec.off % p.bytesOf) n =
      (u, bad)) ∧
    (∃ (part : _) (s : State) (p : _) (rec : _) (n : _) (d : _), part < 16 ∧ s.part (okey 6 part) = some p ∧ u8 p.cfg 0 = 2 ∧ s.work.throttled = false
      ∧ s.unitDown 0x0D 0 = false ∧ p.exportNext = some rec ∧ n = min (rec.off + rec.len - max p.exported rec.off) 1408 ∧ d = be 4 0x44515845 ++ [1] ++ be 1 part ++ be 2 ((if
      p.start then 1 else 0) + (if p.skipped then 2 else 0)) ++ be 4 p.dgram ++ be 4 p.size ++ be 8 (max p.exported rec.off) ++ p.slice rec (max
      p.exported rec.off - rec.off) n ∧ s.frameFor (exportRoute p.cfg) d = none) ∧
    (∃ (part : _) (s : State) (p : _) (rec : _) (n : _) (d : _) (f : _) (q : _), part < 16 ∧ s.part (okey 6 part) = some p ∧ u8 p.cfg 0 = 2 ∧
      s.work.throttled = false ∧ s.unitDown 0x0D 0 = false ∧ p.exportNext = some rec ∧ n = min (rec.off + rec.len - max p.exported rec.off) 1408 ∧ d = be 4 0x44515845 ++ [1] ++
      be 1 part ++ be 2 ((if p.start then 1 else 0) + (if p.skipped then 2 else 0)) ++ be 4 p.dgram ++ be 4 p.size ++ be 8 (max p.exported rec.off) ++
      p.slice rec (max p.exported rec.off - rec.off) n ∧ s.frameFor (exportRoute p.cfg) d = some f ∧ s.queue? (exportQueue (okey 6 part)) = some q ∧
      q.held = none ∧ q.waiting = [] ∧ q.fill + (32 + f.length) + 7 ≤ q.cap) :=
  ⟨⟨0, (taping ({ Part.new 0 8 with ingest := [oneCopy] })), ({ Part.new 0 8 with ingest := [oneCopy] }), oneCopy, (Part.new 0 8), 0,
    by decide +kernel⟩,
   ⟨0, (taping ({ Part.new 0 8 with ingest := [oneCopy], write := 8388544 })), ({ Part.new 0 8 with ingest := [oneCopy], write := 8388544 }), oneCopy,
    ({ Part.new 0 8 with write := 8388544 }), 8388544, by decide +kernel⟩,
   ⟨(Part.new 0 8), by decide +kernel⟩,
   ⟨0, (taping (Part.new 0 8)), (Part.new 0 8), by decide +kernel⟩,
   ⟨0, 0, (taping { Part.new 0 8 with freezes := [(0, oneFreeze)] }), ({ Part.new 0 8 with freezes := [(0, oneFreeze)] }), oneFreeze,
    by decide +kernel⟩,
   ⟨0, (taping (Part.new 0 8)), (Part.new 0 8), by decide +kernel⟩,
   ⟨0, (taping ({ Part.new 0 8 with cfg := hostExport, recs := [longRecord] } : Part)),
    (State.memRead (taping ({ Part.new 0 8 with cfg := hostExport, recs := [longRecord] } : Part)) (({ Part.new 0 8 with cfg := hostExport, recs := [longRecord] } : Part).base * 2 ^ 20 + max ({ Part.new 0 8 with cfg := hostExport, recs := [longRecord] } : Part).exported longRecord.off % ({ Part.new 0 8 with cfg := hostExport, recs := [longRecord] } : Part).bytesOf) 65536).1,
    ({ Part.new 0 8 with cfg := hostExport, recs := [longRecord] } : Part), longRecord, 65536,
    (State.memRead (taping ({ Part.new 0 8 with cfg := hostExport, recs := [longRecord] } : Part)) (({ Part.new 0 8 with cfg := hostExport, recs := [longRecord] } : Part).base * 2 ^ 20 + max ({ Part.new 0 8 with cfg := hostExport, recs := [longRecord] } : Part).exported longRecord.off % ({ Part.new 0 8 with cfg := hostExport, recs := [longRecord] } : Part).bytesOf) 65536).2,
    by and_intros <;> first | decide +kernel | rfl⟩,
   ⟨0, (taping ({ Part.new 0 8 with cfg := netExport, recs := [oneRecord] } : Part)),
    ({ Part.new 0 8 with cfg := netExport, recs := [oneRecord] } : Part), oneRecord, 64,
    (be 4 0x44515845 ++ [1] ++ be 1 0 ++ be 2 0 ++ be 4 0 ++ be 4 8 ++ be 8 0 ++ ({ Part.new 0 8 with cfg := netExport, recs := [oneRecord] } : Part).slice oneRecord 0 64),
    by decide +kernel⟩,
   ⟨0,
    ({ taping ({ Part.new 0 8 with cfg := netExport, recs := [oneRecord] } : Part) with net := { up.net with neigh := [{ port := 0, family := 4, addr := [10, 0, 0, 1] ++ zz 12, mac := zz 6 }], queues := [(0xB000, Queue.init 8 0)] } } : State),
    ({ Part.new 0 8 with cfg := netExport, recs := [oneRecord] } : Part), oneRecord, 64,
    (be 4 0x44515845 ++ [1] ++ be 1 0 ++ be 2 0 ++ be 4 0 ++ be 4 8 ++ be 8 0 ++ ({ Part.new 0 8 with cfg := netExport, recs := [oneRecord] } : Part).slice oneRecord 0 64),
    (State.frameFor ({ taping ({ Part.new 0 8 with cfg := netExport, recs := [oneRecord] } : Part) with net := { up.net with neigh := [{ port := 0, family := 4, addr := [10, 0, 0, 1] ++ zz 12, mac := zz 6 }], queues := [(0xB000, Queue.init 8 0)] } } : State) (exportRoute netExport) (be 4 0x44515845 ++ [1] ++ be 1 0 ++ be 2 0 ++ be 4 0 ++ be 4 8 ++ be 8 0 ++ ({ Part.new 0 8 with cfg := netExport, recs := [oneRecord] } : Part).slice oneRecord 0 64)).getD [],
    (Queue.init 8 0), by and_intros <;> first | exact some_getD (by decide +kernel) | decide +kernel⟩⟩

theorem witness_MemoryComplete :
    (∃ (r : Req) (s : State) (s1 : State), s.turn 0x0F60 r = some s1 ∧ r.target = 0 ∧ r.payload.length = 16 ∧
      (s1.mode = .ready ∨ s1.mode = .maintenance) ∧ s1.objs = [] ∧ (u8 r.payload 3 % 2 = 1 ∨ s1.recorder.survivors = []) ∧ 8 ≤ u8 r.payload 0 ∧
      u8 r.payload 0 ≤ 16 ∧ 8 ≤ u8 r.payload 1 ∧ u8 r.payload 1 ≤ 13 ∧ u8 r.payload 2 ≤ 16 ∧ u8 r.payload 3 ≤ 1 ∧ zeros r.payload 4 12 = true) ∧
    (∃ (r : Req) (s : State) (s1 : State), s.turn 0x0F61 r = some s1 ∧ r.target = 0 ∧ r.payload.length = 16 ∧ 8 ≤ u8 r.payload 1 ∧
      u8 r.payload 1 ≤ 16 ∧ u16 r.payload 2 ≤ 1023 ∧ 1 ≤ u8 r.payload 5 ∧ zeros r.payload 6 10 = true ∧ ((u8 r.payload 0 = 1 ∧ 2 ≤ u8 r.payload 4 ∧
      u8 r.payload 4 ≤ 16 ∧ u8 r.payload 5 ≤ 168) ∨ (u8 r.payload 0 = 2 ∧ u8 r.payload 4 = 0 ∧ u8 r.payload 5 ≤ 24))) ∧
    (∃ (r : Req) (s : State) (s1 : State), s.turn 0x0F62 r = some s1 ∧ r.target = 0 ∧ r.payload.length = 4 ∧ zeros r.payload 2 2 = true ∧
      ((u8 r.payload 0 = 1 ∧ u8 r.payload 1 < 8) ∨ (u8 r.payload 0 = 2 ∧ u8 r.payload 1 < 16))) ∧
    (∃ (chan : _) (rank : _) (s : State), rankOk chan rank = true ∧ (s.mem.rank chan rank).burst = true ∧ (s.mem.chan chan).window = false ∧
      (s.mem.rank chan rank).owed < 4) ∧
    (∃ (chan : _) (rank : _) (s : State), rankOk chan rank = true ∧ (s.mem.rank chan rank).burst = true ∧ (s.mem.chan chan).window = false ∧
      4 ≤ (s.mem.rank chan rank).owed) ∧
    (∃ (chan : _) (rank : _) (s : State), rankOk chan rank = true ∧ ((s.mem.rank chan rank).burst = false ∨ (s.mem.chan chan).window = true)) ∧
    (∃ (chan : _) (rank : _) (s : State), rankOk chan rank = true ∧ (s.mem.rank chan rank).burst = true ∧ s.burstGoesOn chan = false) ∧
    (∃ (chan : _) (rank : _) (s : State), rankOk chan rank = true ∧ (s.mem.rank chan rank).burst = true ∧ s.burstGoesOn chan = true) ∧
    (∃ (chan : _) (bank : _) (s : State), (chan < 8 ∧ bank < 256 ∨ 8 ≤ chan ∧ chan < 40 ∧ bank < 16) ∧ s.idleOver chan bank = true) ∧
    (∃ (chan : _) (bank : _) (s : State), (chan < 8 ∧ bank < 256 ∨ 8 ≤ chan ∧ chan < 40 ∧ bank < 16) ∧ s.idleOver chan bank = false) ∧
    (∃ (chan : _) (s : State), chan < 40 ∧ (if chan < 8 then s.mem.ddr = true else s.mem.hbm = true) ∧
      s.mem.found chan (s.mem.chan chan).scrub = (0, false)) ∧
    (∃ (chan : _) (b : _) (s : State), chan < 40 ∧ (if chan < 8 then s.mem.ddr = true else s.mem.hbm = true) ∧
      tget? s.mem.errs (locKey chan (s.mem.chan chan).scrub) = none ∧ tget? s.mem.dead (locKey chan (s.mem.chan chan).scrub) = none ∧
      b < (if chan < 8 then 640 else 288)) ∧
    (∃ (chan : _) (b : _) (c : _) (s : State), chan < 40 ∧ (if chan < 8 then s.mem.ddr = true else s.mem.hbm = true) ∧
      tget? s.mem.errs (locKey chan (s.mem.chan chan).scrub) = none ∧ tget? s.mem.dead (locKey chan (s.mem.chan chan).scrub) = none ∧
      (if chan < 8 then b % 40 / 4 ≠ c % 40 / 4 else b < 288 ∧ b ≠ c ∧ b / 72 = c / 72)) ∧
    (∃ (chan : _) (loc : _) (s : State), chan < 40 ∧ (chan, loc) ∉ s.mem.fixes) ∧
    (∃ (chan : _) (loc : _) (s : State), chan < 40 ∧ (chan, loc) ∈ s.mem.fixes) ∧
    (∃ (chan : _) (s : State), chan < 8 ∧ s.mem.ddr = true) ∧
    (∃ (chan : _) (s : State), 8 ≤ chan ∧ chan < 40 ∧ s.mem.hbm = true) ∧
    (∃ (chan : _), chan < 40) :=
  ⟨⟨(rq ([8, 13, 16, 0] ++ zz 12)), (inMode .ready), (after 0x0F60 (rq ([8, 13, 16, 0] ++ zz 12)) (inMode .ready)), turn_after (by decide +kernel), by decide +kernel⟩,
   ⟨(rq ([2, 16, 255, 3, 0, 24] ++ zz 10)), up, (after 0x0F61 (rq ([2, 16, 255, 3, 0, 24] ++ zz 10)) (up)), turn_after (by decide +kernel), by decide +kernel⟩,
   ⟨(rq [2, 15, 0, 0]), up, (after 0x0F62 (rq [2, 15, 0, 0]) (up)), turn_after (by decide +kernel), by decide +kernel⟩,
   ⟨39, 0, (up.markBurst 39 0), by decide +kernel⟩,
   ⟨39, 0, (up.updRank 39 0 fun x => { x with burst := true, owed := 4 }), by decide +kernel⟩,
   ⟨39, 0, up, by decide +kernel⟩,
   ⟨39, 0, (up.markBurst 39 0), by decide +kernel⟩,
   ⟨8, 0, ((up.markBurst 8 0).updMatrix fun m => { m with mixing := true, count := [(0, 1)] }), by decide +kernel⟩,
   ⟨39, 15, up, by decide +kernel⟩,
   ⟨39, 15, (up.updMem fun m => { m with touched := [(39 * 1024 + 15, up.now)] }), by decide +kernel⟩,
   ⟨39, (taping (Part.new 0 8)), by decide +kernel⟩,
   ⟨0, 639, (taping (Part.new 0 8)), by decide +kernel⟩,
   ⟨39, 287, 216, (taping (Part.new 0 8)), by decide +kernel⟩,
   ⟨0, 3, up, by decide +kernel⟩,
   ⟨0, 3, (up.updMem fun m => { m with fixes := [(0, 3)] }), by decide +kernel⟩,
   ⟨7, (taping (Part.new 0 8)), by decide +kernel⟩,
   ⟨8, (taping (Part.new 0 8)), by decide +kernel⟩,
   ⟨39, by decide +kernel⟩⟩

theorem witness_TimeCommandsComplete :
    (∃ (r : Req) (s : State) (s1 : State), s.turn 0x0800 r = some s1 ∧ r.target = 0 ∧ r.payload.length = 32 ∧ u8 r.payload 0 ≤ 1 ∧ s1.domainSetOk
      r.payload = true) ∧
    (∃ (r : Req) (s : State) (s1 : State), s.turn 0x0801 r = some s1 ∧ r.target = 0 ∧ r.payload.length = 8 ∧ 1 ≤ u16 r.payload 0 ∧ u16 r.payload 0 ≤
      255 ∧ u16 r.payload 2 ≤ 255 ∧ zeros r.payload 4 4 = true) ∧
    (∃ (r : Req) (s : State) (s1 : State), s.turn 0x0802 r = some s1 ∧ r.target = 0 ∧ r.payload.length = 4 ∧ u8 r.payload 0 ≤ 1 ∧ (s1.role ≠
      .cascadeMember ∨ s1.quartz.active ≠ some 2) ∧ s1.tracking (u8 r.payload 0) = true ∧ u8 r.payload 1 ≤ 1 ∧ zeros r.payload 2 2 = true) ∧
    (∃ (r : Req) (s : State) (s1 : State), s.turn 0x0803 r = some s1 ∧ r.target = 0 ∧ r.payload.length = 16 ∧ (s1.mode = .ready ∨ s1.mode =
      .maintenance) ∧ u32 r.payload 8 < 1000000000 ∧ zeros r.payload 12 4 = true) ∧
    (∃ (r : Req) (s : State) (s1 : State), s.turn 0x0804 r = some s1 ∧ r.target = 0 ∧ r.payload = []) ∧
    (∃ (r : Req) (s : State) (s1 : State), s.turn 0x0805 r = some s1 ∧ r.target = 0 ∧ r.payload.length = 4 ∧ u8 r.payload 0 ≤ 3 ∧ u8 r.payload 1 ≤ 3 ∧
      zeros r.payload 2 2 = true) ∧
    (∃ (pulse : _) (s : State), pulse < 4 ∧ s.mode ≠ .reset ∧ s.mode ≠ .halt ∧ (s.pulse pulse).armed = false ∧ (s.pulse pulse).ok = true ∧ (s.pulse
      pulse).period = 0 ∧ (s.pulse pulse).rise 0 < s.now) ∧
    (∃ (pulse : _) (s : State), pulse < 4 ∧ s.mode ≠ .reset ∧ s.mode ≠ .halt ∧ (s.pulse pulse).armed = false ∧ (s.pulse pulse).ok = true ∧ ((s.pulse
      pulse).period ≠ 0 ∨ s.now ≤ (s.pulse pulse).rise 0)) ∧
    (∃ (pulse : _) (s : State), pulse < 4 ∧ ((s.pulse pulse).armed = true ∨ (s.pulse pulse).ok = false)) ∧
    (∃ (pulse : _), pulse < 4) ∧
    (∃ (pulse : _) (s : State), pulse < 4 ∧ s.mode ≠ .reset ∧ s.mode ≠ .halt ∧ (s.pulse pulse).armed = true ∧ (s.pulse pulse).opened = false ∧ s.now ≤
      (s.pulse pulse).rise (s.pulse pulse).k) ∧
    (∃ (pulse : _) (s : State), pulse < 4 ∧ s.mode ≠ .reset ∧ s.mode ≠ .halt ∧ (s.pulse pulse).armed = true ∧ (s.pulse pulse).opened = true ∧ s.now ≤
      (s.pulse pulse).fall (s.pulse pulse).k) ∧
    (∃ (pin : _) (time : _) (rising : Bool) (s : State), pin < 4 ∧ s.serving = false ∧ s.now ≤ time ∧ s.quartz.caps = [] ∧ (if rising then tget 0
      s.quartz.edges pin % 2 = 1 else tget 0 s.quartz.edges pin / 2 % 2 = 1)) ∧
    (∃ (pin : _) (rising : Bool) (s : State), pin < 4 ∧ (if rising then tget 0 s.quartz.edges pin % 2 = 1 else tget 0 s.quartz.edges pin / 2 % 2 = 1)
      ∧ (s.quartz.caps.filter fun c => c.1 == pin).length < 64) ∧
    (∃ (pin : _) (rising : Bool) (s : State), pin < 4 ∧ (if rising then tget 0 s.quartz.edges pin % 2 = 1 else tget 0 s.quartz.edges pin / 2 % 2 = 1)
      ∧ 64 ≤ (s.quartz.caps.filter fun c => c.1 == pin).length) ∧
    (∃ (pin : _) (time : _) (rising : Bool) (s : State), pin < 4 ∧ s.now ≤ time ∧ (if rising then tget 0 s.quartz.edges pin % 2 = 0 else tget 0
      s.quartz.edges pin / 2 % 2 = 0)) :=
  ⟨⟨(rq ([1, 7, 2, 2, 0, 127, 249, 10, 255, 239, 63, 6] ++ zz 20)), up,
    (after 0x0800 (rq ([1, 7, 2, 2, 0, 127, 249, 10, 255, 239, 63, 6] ++ zz 20)) (up)), turn_after (by decide +kernel), by decide +kernel⟩,
   ⟨(rq (le 2 255 ++ le 2 255 ++ zz 4)), up, (after 0x0801 (rq (le 2 255 ++ le 2 255 ++ zz 4)) (up)), turn_after (by decide +kernel),
    by decide +kernel⟩,
   ⟨(rq [0, 1, 0, 0]), (ptp { domOn with st := 2 }), (after 0x0802 (rq [0, 1, 0, 0]) (ptp { domOn with st := 2 })), turn_after (by decide +kernel),
    by decide +kernel⟩,
   ⟨(rq (le 8 5 ++ le 4 999999999 ++ zz 4)), (inMode .maintenance), (after 0x0803 (rq (le 8 5 ++ le 4 999999999 ++ zz 4)) (inMode .maintenance)),
    turn_after (by decide +kernel), by decide +kernel⟩,
   ⟨(rq []), up, (after 0x0804 (rq []) (up)), turn_after (by decide +kernel), by decide +kernel⟩,
   ⟨(rq [3, 3, 0, 0]), up, (after 0x0805 (rq [3, 3, 0, 0]) (up)), turn_after (by decide +kernel), by decide +kernel⟩,
   ⟨3, (pulsing (pulse1 0 0 false false)), by decide +kernel⟩,
   ⟨3, (pulsing (pulse1 1000000000 0 false false)), by decide +kernel⟩,
   ⟨3, (pulsing (pulse1 1000000001 0 true true)), by decide +kernel⟩,
   ⟨3, by decide +kernel⟩,
   ⟨3, (pulsing (pulse1 1000000000 0 true false)), by decide +kernel⟩,
   ⟨3, (pulsing (pulse1 1000000000 0 true true)), by decide +kernel⟩,
   ⟨3, 1000000001, true, ({ inMode .boot with quartz := { up.quartz with edges := [(3, 1)] } }), by decide +kernel⟩,
   ⟨3, true, ({ inMode .boot with quartz := { up.quartz with edges := [(3, 1)] } }), by decide +kernel⟩,
   ⟨3, true, ({ inMode .boot with quartz := { up.quartz with edges := [(3, 1)], caps := List.replicate 64 (3, 0, 0, 0) } }), by decide +kernel⟩,
   ⟨3, 1000000000, false, up, by decide +kernel⟩⟩

theorem witness_PtpComplete :
    (∃ (dom : _) (msg : Bytes) (s : State), dom < 2 ∧ s.mode ≠ .reset ∧ s.mode ≠ .halt ∧ ((s.dom dom).enabled = false ∨ u8 msg 4 ≠ u8 (s.dom dom).cfg
      5)) ∧
    (∃ (dom : _) (msg : Bytes) (s : State), dom < 2 ∧ s.mode ≠ .reset ∧ s.mode ≠ .halt ∧ (s.dom dom).enabled = true ∧ u8 msg 4 = u8 (s.dom dom).cfg 5
      ∧ ptpType msg = 11 ∧ u8 msg 48 ≤ u8 (s.dom dom).cfg 11 ∧ bfld msg 61 2 ≠ 255) ∧
    (∃ (dom : _) (time : _) (msg : Bytes) (s : State) (m : _), dom < 2 ∧ s.mode ≠ .reset ∧ s.mode ≠ .halt ∧ (s.dom dom).enabled = true ∧ u8 msg 4 = u8
      (s.dom dom).cfg 5 ∧ (s.dom dom).master = some m ∧ m.source = ptpSource msg ∧ ptpType msg = 0 ∧ -7 ≤ signed 8 (u8 msg 33) ∧ signed 8 (u8 msg 33)
      ≤ 0 ∧ u8 msg 6 / 2 % 2 = 1 ∧ s.now < time) ∧
    (∃ (dom : _) (time : _) (msg : Bytes) (s : State) (m : _), dom < 2 ∧ s.mode ≠ .reset ∧ s.mode ≠ .halt ∧ (s.dom dom).enabled = true ∧ u8 msg 4 = u8
      (s.dom dom).cfg 5 ∧ (s.dom dom).master = some m ∧ m.source = ptpSource msg ∧ ptpType msg = 0 ∧ -7 ≤ signed 8 (u8 msg 33) ∧ signed 8 (u8 msg 33)
      ≤ 0 ∧ u8 msg 6 / 2 % 2 = 0 ∧ s.now < time ∧ (s.dom dom).delays = []) ∧
    (∃ (dom : _) (time : _) (msg : Bytes) (s : State) (m : _) (delay : _), dom < 2 ∧ s.mode ≠ .reset ∧ s.mode ≠ .halt ∧ (s.dom dom).enabled = true ∧
      u8 msg 4 = u8 (s.dom dom).cfg 5 ∧ (s.dom dom).master = some m ∧ m.source = ptpSource msg ∧ ptpType msg = 0 ∧ -7 ≤ signed 8 (u8 msg 33) ∧ signed
      8 (u8 msg 33) ≤ 0 ∧ u8 msg 6 / 2 % 2 = 0 ∧ s.now < time ∧ (s.dom dom).mpd = some delay) ∧
    (∃ (dom : _) (msg : Bytes) (s : State) (m : _) (t2 : _) (c : _) (tau : _), dom < 2 ∧ s.mode ≠ .reset ∧ s.mode ≠ .halt ∧ (s.dom dom).enabled = true
      ∧ u8 msg 4 = u8 (s.dom dom).cfg 5 ∧ (s.dom dom).master = some m ∧ m.source = ptpSource msg ∧ ptpType msg = 8 ∧ (s.dom dom).sync = some (ptpSeq
      msg, t2, c, tau) ∧ (s.dom dom).delays = []) ∧
    (∃ (dom : _) (msg : Bytes) (s : State) (m : _) (seq : _) (sent : _) (t1 : _) (t2 : _), dom < 2 ∧ s.mode ≠ .reset ∧ s.mode ≠ .halt ∧ (s.dom
      dom).enabled = true ∧ u8 msg 4 = u8 (s.dom dom).cfg 5 ∧ (s.dom dom).p2p = false ∧ (s.dom dom).master = some m ∧ m.source = ptpSource msg ∧
      ptpType msg = 9 ∧ (s.dom dom).req = some (seq, sent) ∧ ptpSeq msg = seq ∧ (msg.drop 44).take 10 = ownIdentity (s.dom dom).port ∧ (s.dom dom).t12
      = some (t1, t2)) ∧
    (∃ (dom : _) (time : _) (msg : Bytes) (s : State) (seq : _) (sent : _), dom < 2 ∧ s.mode ≠ .reset ∧ s.mode ≠ .halt ∧ (s.dom dom).enabled = true ∧
      u8 msg 4 = u8 (s.dom dom).cfg 5 ∧ (s.dom dom).p2p = true ∧ ptpType msg = 3 ∧ u8 msg 6 / 2 % 2 = 0 ∧ s.now < time ∧ (s.dom dom).req = some (seq,
      sent) ∧ ptpSeq msg = seq ∧ (msg.drop 44).take 10 = ownIdentity (s.dom dom).port) ∧
    (∃ (port : _) (msg : Bytes) (s : State), s.portOk port = true ∧ s.mode ≠ .reset ∧ s.mode ≠ .halt ∧ ([0, 1].find? fun d => (s.dom d).enabled &&
      (s.dom d).port == port && u8 msg 4 == u8 (s.dom d).cfg 5) = none) ∧
    (∃ (port : _) (msg : Bytes) (s : State) (d : _), s.portOk port = true ∧ s.mode ≠ .reset ∧ s.mode ≠ .halt ∧ ([0, 1].find? fun d => (s.dom
      d).enabled && (s.dom d).port == port && u8 msg 4 == u8 (s.dom d).cfg 5) = some d ∧ (s.dom d).p2p = true ∧ ptpType msg = 2 ∧ s.queue? (0xF020 +
      port) = none) ∧
    (∃ (dom : _) (time : _) (s : State) (m : _), dom < 2 ∧ s.mode ≠ .reset ∧ s.mode ≠ .halt ∧ (s.dom dom).enabled = true ∧ (s.dom dom).master = some m
      ∧ s.now < time) ∧
    (∃ (dom : _) (s : State), dom < 2 ∧ (s.dom dom).st = 2) ∧
    (∃ (dom : _) (s : State), dom < 2 ∧ (s.dom dom).st ≠ 2) :=
  ⟨⟨1, ([]), up, by decide +kernel⟩,
   ⟨0, (ptpMsg 11 0), (ptp domOn), by decide +kernel⟩,
   ⟨0, 1000000001, (ptpMsg 0 2), (ptp { domOn with masters := [master0] }), master0, by decide +kernel⟩,
   ⟨0, 1000000001, (ptpMsg 0 0), (ptp { domOn with masters := [master0] }), master0, by decide +kernel⟩,
   ⟨0, 1000000001, (ptpMsg 0 0), (ptp { domOn with masters := [master0], delays := [10] }), master0, 5, by decide +kernel⟩,
   ⟨0, (ptpMsg 8 0), (ptp { domOn with masters := [master0], sync := some (0, 5, 0, 6) }), master0, 5, 0, 6, by decide +kernel⟩,
   ⟨0, ((ptpMsg 9 0).take 44 ++ ownIdentity 0 ++ zz 10), (ptp { domOn with masters := [master0], req := some (0, 5), t12 := some (1, 2) }), master0, 0,
    5, 1, 2, by and_intros <;> first | decide +kernel | rfl⟩,
   ⟨0, 1000000001, ((ptpMsg 3 0).take 44 ++ ownIdentity 0 ++ zz 10), (ptp { domOn with cfg := domOn.cfg.set 3 2, req := some (0, 5) }), 0, 5,
    by and_intros <;> first | decide +kernel | rfl⟩,
   ⟨0, ([]), up, by decide +kernel⟩,
   ⟨0, (ptpMsg 2 0), (ptp { domOn with cfg := domOn.cfg.set 3 2 }), 0, by decide +kernel⟩,
   ⟨0, 1000000001, (ptp { domOn with masters := [master0] }), master0, by decide +kernel⟩,
   ⟨1, ({ up with quartz := { up.quartz with doms := [(1, { domOn with st := 2 })] } }), by decide +kernel⟩,
   ⟨1, up, by decide +kernel⟩⟩

theorem witness_FramerCommandsComplete :
    (∃ (r : Req) (s : State) (s1 : State) (l : _), s.turn 0x0E00 r = some s1 ∧ r.target = 0 ∧ r.payload.length = 8 ∧ l = u8 r.payload 0 ∧ 24 ≤ l ∧ l <
      32 ∧ (s1.inService = true ∨ s1.mode = .maintenance) ∧ thas s1.objs (laneKey l) = false ∧ u8 r.payload 3 ≤ 1 ∧ zeros r.payload 6 2 = true ∧ (u8
      r.payload 1 = 5 ∨ u8 r.payload 1 = 6 → u8 r.payload 2 = 0 ∧ u8 r.payload 4 = 0 ∧ u8 r.payload 5 = 0) ∧ (1 ≤ u8 r.payload 1 → u8 r.payload 1 ≤ 4
      → (u8 r.payload 2 = 1 ∨ u8 r.payload 2 = 2) ∧ 3 ≤ u8 r.payload 4 ∧ u8 r.payload 4 ≤ 5 ∧ (u8 r.payload 5 = 0 ∨ (5 ≤ u8 r.payload 5 ∧ u8 r.payload
      5 ≤ 9))) ∧ 1 ≤ u8 r.payload 1 ∧ u8 r.payload 1 ≤ 6) ∧
    (∃ (r : Req) (s : State) (s1 : State) (lk : _) (lane : _) (i : _), s.turn 0x0E01 r = some s1 ∧ r.target = 0 ∧ r.payload.length = 12 ∧ s1.lives
      (u32 r.payload 0) lk 9 ∧ lane = kidx lk - 544 ∧ 568 ≤ kidx lk ∧ s1.inService = true ∧ s1.sdhWorking lane = true ∧ locOk 1
      (match tget? s1.framer.lanes lane with | some x => modeAus x.mode | none => 0) (u8 r.payload 4) (u8 r.payload 5) (u8 r.payload 6) (u8 r.payload
      7) = true ∧ u8 r.payload 8 ≤ 2 ∧ u8 r.payload 9 ≤ 1 ∧ u8 r.payload 11 ≤ 1 ∧ s1.terminated lane (u8 r.payload 4) (u8 r.payload 5) (u8 r.payload 6
      * 16 + u8 r.payload 7) = false ∧ s1.lowestFree 9 0 504 = some i) ∧
    (∃ (r : Req) (s : State) (s1 : State) (i : _), s.turn 0x0E02 r = some s1 ∧ r.target = 0 ∧ r.payload.length = 16 + 4 * u8 r.payload 1 ∧ 24 ≤ u8
      r.payload 3 ∧ u8 r.payload 3 < 32 ∧ s1.inService = true ∧ 1 ≤ u8 r.payload 0 ∧ u8 r.payload 0 ≤ 3 ∧ 1 ≤ u8 r.payload 1 ∧ u8 r.payload 1 ≤ (if u8
      r.payload 0 = 3 then 16 else 48) ∧ u8 r.payload 2 ≤ 64 ∧ u8 r.payload 4 ≤ 1 ∧ zeros r.payload 6 10 = true ∧ (u8 r.payload 5 = 0 ∨ (u8 r.payload
      5 = 1 ∧ ((s1.homeGroups (u8 r.payload 3)).any fun e => s1.isActive (groupKey e.1)) = false ∧ ∀ g : Vcat, g.ty = u8 r.payload 0 → g.members =
      vcatMembers r.payload → tget 0 s1.used (bkey 0x000B (u8 r.payload 3)) ≤ g.ceiling)) ∧ (∀ m ∈ vcatMembers r.payload, 24 ≤ m.lane ∧ m.lane < 32 ∧
      s1.sdhWorking m.lane = true ∧ locOk (u8 r.payload 0) (match tget? s1.framer.lanes m.lane with | some x => modeAus x.mode | none => 0) m.a m.k
      (m.lm / 16) (m.lm % 16) = true ∧ s1.terminated m.lane m.a m.k m.lm = false) ∧ membersApart (vcatMembers r.payload) = true ∧ s1.lowestFree 9 504
      64 = some i ∧ s1.admits (vcatCost (u8 r.payload 0) (u8 r.payload 1) (u8 r.payload 2)) = true) ∧
    (∃ (r : Req) (s : State) (s1 : State) (key : _), s.turn 0x0E03 r = some s1 ∧ r.payload = [] ∧ s1.lives r.tgt key 9 ∧ s1.pathBusy key = false) ∧
    (∃ (r : Req) (s : State) (s1 : State) (key : _), s.turn 0x0E04 r = some s1 ∧ r.payload = [] ∧ s1.lives r.tgt key 9 ∧ s1.isActive key = false ∧
      (kidx key < 504 ∨ 568 ≤ kidx key)) ∧
    (∃ (r : Req) (s : State) (s1 : State) (key : _) (g : _), s.turn 0x0E04 r = some s1 ∧ r.payload = [] ∧ s1.lives r.tgt key 9 ∧ s1.isActive key =
      false ∧ 504 ≤ kidx key ∧ kidx key < 568 ∧ tget? s1.framer.groups (kidx key - 504) = some g ∧ ((s1.homeGroups g.home).any fun e => s1.isActive
      (groupKey e.1)) = false ∧ tget 0 s1.used (bkey 0x000B g.home) ≤ g.ceiling) ∧
    (∃ (r : Req) (s : State) (s1 : State) (key : _), s.turn 0x0E05 r = some s1 ∧ r.payload = [] ∧ s1.lives r.tgt key 9 ∧ s1.isActive key = true) ∧
    (∃ (r : Req) (s : State) (s1 : State) (wk : _) (pk : _) (lw : _) (lq : _), s.turn 0x0E06 r = some s1 ∧ r.payload.length = 8 ∧ s1.lives r.tgt wk 9
      ∧ u32 r.payload 0 ≠ 0 ∧ s1.lives (u32 r.payload 0) pk 9 ∧ 568 ≤ kidx wk ∧ 568 ≤ kidx pk ∧ kidx pk ≠ kidx wk ∧ tget? s1.framer.lanes (kidx wk -
      544) = some lw ∧ tget? s1.framer.lanes (kidx pk - 544) = some lq ∧ modeAus lw.mode ≠ 0 ∧ lq.mode = lw.mode ∧ lq.msp = none ∧ s1.protects (kidx
      wk - 544) = none ∧ (∀ e, s1.protects (kidx pk - 544) = some e → e.1 = kidx wk - 544) ∧ s1.pathBusy (laneKey (kidx wk - 544)) = false ∧
      s1.pathBusy (laneKey (kidx pk - 544)) = false ∧ u8 r.payload 4 ≤ 3 ∧ (if u8 r.payload 4 / 2 = 1 then 1 ≤ u8 r.payload 5 ∧ u8 r.payload 5 ≤ 12
      else u8 r.payload 5 = 0) ∧ zeros r.payload 6 2 = true) ∧
    (∃ (r : Req) (s : State) (s1 : State) (wk : _) (lw : _) (m : _), s.turn 0x0E06 r = some s1 ∧ r.payload.length = 8 ∧ s1.lives r.tgt wk 9 ∧ zeros
      r.payload 0 8 = true ∧ u32 r.payload 0 = 0 ∧ u8 r.payload 4 = 0 ∧ u8 r.payload 5 = 0 ∧ zeros r.payload 6 2 = true ∧ 568 ≤ kidx wk ∧ tget?
      s1.framer.lanes (kidx wk - 544) = some lw ∧ modeAus lw.mode ≠ 0 ∧ lw.msp = some m ∧ s1.pathBusy (laneKey (kidx wk - 544)) = false) ∧
    (∃ (r : Req) (s : State) (s1 : State) (wk : _) (lw : _) (m : _), s.turn 0x0E07 r = some s1 ∧ r.payload.length = 4 ∧ s1.lives r.tgt wk 9 ∧ 568 ≤
      kidx wk ∧ tget? s1.framer.lanes (kidx wk - 544) = some lw ∧ lw.msp = some m ∧ u8 r.payload 0 ≤ 5 ∧ zeros r.payload 1 3 = true) ∧
    (∃ (r : Req) (s : State) (s1 : State) (key : _) (e : _), s.turn 0x0E08 r = some s1 ∧ r.payload.length = 4 ∧ s1.lives r.tgt key 9 ∧ kidx key < 504
      ∧ tget? s1.framer.e1 (kidx key) = some e ∧ e.ts16 = 1 ∧ 1 ≤ u8 r.payload 0 ∧ u8 r.payload 0 ≤ 30 ∧ 1 ≤ u8 r.payload 1 ∧ u8 r.payload 1 ≤ 15 ∧
      zeros r.payload 2 2 = true) ∧
    (∃ (r : Req) (s : State) (s1 : State) (key : _), s.turn 0x0E09 r = some s1 ∧ r.payload = [] ∧ s1.lives r.tgt key 9) :=
  ⟨⟨(rq ([31, 4, 2, 1, 5, 9, 0, 0])), up, (after 0x0E00 (rq ([31, 4, 2, 1, 5, 9, 0, 0])) (up)), 31, turn_after (by decide +kernel), by decide +kernel⟩,
   ⟨(rq (le 4 (hd 9 568) ++ [1, 3, 7, 3, 2, 1, 0, 1])), (framing none [] true),
    (after 0x0E01 (rq (le 4 (hd 9 568) ++ [1, 3, 7, 3, 2, 1, 0, 1])) (framing none [] true)), (okey 9 568), 24, 1, turn_after (by decide +kernel),
    by decide +kernel, by decide +kernel, ok_of (by decide +kernel), by decide +kernel⟩,
   ⟨(rq ([1, 2, 64, 31] ++ zz 12 ++ [24, 1, 1, 17, 25, 1, 3, 115])), (framing none [] true),
    (after 0x0E02 (rq ([1, 2, 64, 31] ++ zz 12 ++ [24, 1, 1, 17, 25, 1, 3, 115])) (framing none [] true)), 505, turn_after (by decide +kernel),
    by and_intros <;> first | exact Or.inl (by decide) | exact admits_ddr (by decide +kernel) | decide +kernel⟩,
   ⟨(rt (hd 9 568) []), (framing none [] true), (after 0x0E03 (rt (hd 9 568) []) (framing none [] true)), (okey 9 568), turn_after (by decide +kernel),
    by decide +kernel, ok_of (by decide +kernel), by decide +kernel⟩,
   ⟨(rt (hd 9 0) []), (framing none [(0, path0 true)] false), (after 0x0E04 (rt (hd 9 0) []) (framing none [(0, path0 true)] false)), (okey 9 0),
    turn_after (by decide +kernel), by decide +kernel, ok_of (by decide +kernel), by decide +kernel⟩,
   ⟨(rt (hd 9 504) []), (framing none [(0, path0 true)] false), (after 0x0E04 (rt (hd 9 504) []) (framing none [(0, path0 true)] false)), (okey 9 504),
    group0, turn_after (by decide +kernel), by decide +kernel, ok_of (by decide +kernel), by decide +kernel⟩,
   ⟨(rt (hd 9 504) []), (framing none [(0, path0 true)] true), (after 0x0E05 (rt (hd 9 504) []) (framing none [(0, path0 true)] true)), (okey 9 504),
    turn_after (by decide +kernel), by decide +kernel, ok_of (by decide +kernel), by decide +kernel⟩,
   ⟨(rt (hd 9 568) (le 4 (hd 9 569) ++ [3, 12, 0, 0])), (framing none [] true),
    (after 0x0E06 (rt (hd 9 568) (le 4 (hd 9 569) ++ [3, 12, 0, 0])) (framing none [] true)), (okey 9 568), (okey 9 569), (lane0 none), (lane0 none),
    turn_after (by decide +kernel), by and_intros <;> first | exact ok_of (by decide +kernel) | exact none_holds (by decide +kernel) | decide +kernel⟩,
   ⟨(rt (hd 9 568) (zz 8)), (framing (some (Msp.new 25 0 0)) [] true), (after 0x0E06 (rt (hd 9 568) (zz 8)) (framing (some (Msp.new 25 0 0)) [] true)),
    (okey 9 568), (lane0 (some (Msp.new 25 0 0))), (Msp.new 25 0 0), turn_after (by decide +kernel), by decide +kernel, ok_of (by decide +kernel),
    by decide +kernel⟩,
   ⟨(rt (hd 9 568) [5, 0, 0, 0]), (framing (some (Msp.new 25 0 0)) [] true),
    (after 0x0E07 (rt (hd 9 568) [5, 0, 0, 0]) (framing (some (Msp.new 25 0 0)) [] true)), (okey 9 568), (lane0 (some (Msp.new 25 0 0))),
    (Msp.new 25 0 0), turn_after (by decide +kernel), by decide +kernel, ok_of (by decide +kernel), by decide +kernel⟩,
   ⟨(rt (hd 9 0) [30, 15, 0, 0]), (framing none [(0, path0 true)] true),
    (after 0x0E08 (rt (hd 9 0) [30, 15, 0, 0]) (framing none [(0, path0 true)] true)), (okey 9 0), (path0 true), turn_after (by decide +kernel),
    by decide +kernel, ok_of (by decide +kernel), by decide +kernel⟩,
   ⟨(rt (hd 9 0) []), (framing none [(0, path0 true)] true), (after 0x0E09 (rt (hd 9 0) []) (framing none [(0, path0 true)] true)), (okey 9 0),
    turn_after (by decide +kernel), by decide +kernel, ok_of (by decide +kernel)⟩⟩

theorem witness_FramerEventsComplete :
    (∃ (lane : _) (s : State), 24 ≤ lane ∧ lane < 32 ∧ s.unitDown 0x0B 0 = false) ∧
    (∃ (lane : _) (s : State), 24 ≤ lane ∧ lane < 32 ∧ s.unitDown 0x0B 0 = false ∧ s.sched = [] ∧ s.audio.legs = [] ∧ tget? s.framer.lanes lane =
      none) ∧
    (∃ (lane : _) (rx : LineRx) (s : State) (l : _), 24 ≤ lane ∧ lane < 32 ∧ s.unitDown 0x0B 0 = false ∧ s.sched = [] ∧ s.audio.legs = [] ∧
      s.framer.lanes = [(lane, l)] ∧ s.framer.e1 = [] ∧ s.framer.groups = [] ∧ modeAus l.mode ≠ 0 ∧ l.msp = none ∧ l.defects = 0 ∧ l.inFrame = true ∧
      rx.patterns = [l.pos] ∧ rx.au = [] ∧ l.au = [] ∧ l.aisRow = 0 ∧ rx.k2 = 0 ∧ rx.ber = 0) ∧
    (∃ (lane : _) (s : State) (l : _), 24 ≤ lane ∧ lane < 32 ∧ tget? s.framer.lanes lane = some l ∧ modeAus l.mode ≠ 0) ∧
    (∃ (lane : _) (s : State) (l : _), tget? s.framer.lanes lane = some l ∧ 24 ≤ lane ∧ lane < 32 ∧ modeAus l.mode ≠ 0 ∧ l.inFrame = false) ∧
    (∃ (lane : _) (s : State) (l : _), tget? s.framer.lanes lane = some l ∧ 24 ≤ lane ∧ lane < 32 ∧ l.inFrame = true) ∧
    (∃ (path : _) (s : State) (e : _), path < 504 ∧ tget? s.framer.e1 path = some e ∧ e.rx.inFrame = true ∧ e.rx.crcOn = false ∧ e.crcMode ≠ 0 ∧
      e.rx.crcOff = false) ∧
    (∃ (path : _) (s : State) (e : _), path < 504 ∧ tget? s.framer.e1 path = some e ∧ e.crcMode = 2 ∧ e.rx.crcOn = false ∧ e.rx.crcOff = false) ∧
    (∃ (pair : _) (s : State) (l : _) (p : _), 24 ≤ pair ∧ pair < 32 ∧ tget? s.framer.lanes pair = some l ∧ l.msp = some p ∧ 12 ≤ p.stale) ∧
    (∃ (pair : _) (s : State) (l : _) (p : _), tget? s.framer.lanes pair = some l ∧ l.msp = some p ∧ p.stale < 12) ∧
    (∃ (pair : _) (s : State) (l : _) (p : _), 24 ≤ pair ∧ pair < 32 ∧ tget? s.framer.lanes pair = some l ∧ l.msp = some p ∧ p.waiting = true ∧
      (maxReq (s.localReq pair { p with waiting := false }) (s.remoteReq pair p)).1 = 0) :=
  ⟨⟨31, up, by decide +kernel⟩,
   ⟨31, up, by decide +kernel⟩,
   ⟨24, ({ patterns := [0], k1 := 0, k2 := 0, m1 := 0, b1 := 0, b2 := 0, ber := 0, au := [], trib := [], members := [] }),
    ({ up with framer := { lanes := [(24, lane0 none)], e1 := [], groups := [] } }), (lane0 none), by decide +kernel⟩,
   ⟨24, (framing none [] true), (lane0 none), by decide +kernel⟩,
   ⟨31, ({ up with framer := { lanes := [(31, { lane0 none with inFrame := false })], e1 := [], groups := [] } }),
    ({ lane0 none with inFrame := false }), by decide +kernel⟩,
   ⟨24, (framing none [] true), (lane0 none), by decide +kernel⟩,
   ⟨0, (framing none [(0, path0 true)] true), (path0 true), by decide +kernel⟩,
   ⟨0, (framing none [(0, path0 true)] true), (path0 true), by decide +kernel⟩,
   ⟨24, (framing (some { Msp.new 25 0 0 with stale := 12 }) [] true), (lane0 (some { Msp.new 25 0 0 with stale := 12 })),
    ({ Msp.new 25 0 0 with stale := 12 }), by decide +kernel⟩,
   ⟨24, (framing (some { Msp.new 25 0 0 with stale := 11 }) [] true), (lane0 (some { Msp.new 25 0 0 with stale := 11 })),
    ({ Msp.new 25 0 0 with stale := 11 }), by decide +kernel⟩,
   ⟨24, (framing (some { Msp.new 25 2 1 with waiting := true }) [] true), (lane0 (some { Msp.new 25 2 1 with waiting := true })),
    ({ Msp.new 25 2 1 with waiting := true }), by decide +kernel⟩⟩

theorem witness_ChainFramesComplete :
    (∃ (f : Bytes) (s : State), s.chainActs 0 true (· == 1) f = true ∧ s.addrLocked = false ∧ 1 ≤ u8 (chainData f) 0 ∧ u8 (chainData f) 0 ≤ 31) ∧
    (∃ (f : Bytes) (s : State), s.chainActs 0 true (· == 1) f = true ∧ s.addrLocked = false ∧ (u8 (chainData f) 0 = 0 ∨ 31 < u8 (chainData f) 0)) ∧
    (∃ (f : Bytes) (s : State), s.chainActs 0 true (· == 1) f = true ∧ s.addrLocked = true ∧ u8 f 7 = 0xFF) ∧
    (∃ (f : Bytes) (s : State), s.chainActs 1 false (fun n => decide (n ≤ 256)) f = true ∧ s.nmc.wstate = .idle) ∧
    (∃ (f : Bytes) (s : State), s.chainActs 1 false (fun n => decide (n ≤ 256)) f = true ∧ s.nmc.wstate ≠ .idle) ∧
    (∃ (f : Bytes) (s : State), s.chainActs 2 false (fun n => decide (n ≤ 256)) f = true) ∧
    (∃ (f : Bytes) (s : State), s.chainActs 3 false (· == 1) f = true ∧ u8 (chainData f) 0 = 1 ∧ s.nmc.wstate = .idle ∧ s.mode.isOpen = true) ∧
    (∃ (f : Bytes) (s : State), s.chainActs 3 false (· == 1) f = true ∧ u8 (chainData f) 0 = 1 ∧ s.nmc.wstate ≠ .idle) ∧
    (∃ (f : Bytes) (s : State), s.chainActs 3 false (· == 1) f = true ∧ u8 (chainData f) 0 = 2 ∧ (s.nmc.wstate = .response ∨ s.nmc.wstate = .event)) ∧
    (∃ (f : Bytes) (s : State), s.chainActs 3 false (· == 1) f = true ∧ u8 (chainData f) 0 = 2 ∧ (s.nmc.wstate = .idle ∨ s.nmc.wstate = .busy)) ∧
    (∃ (f : Bytes) (s : State), s.chainActs 4 true (· == 4) f = true ∧ s.nmc.attn = true) ∧
    (∃ (f : Bytes) (s : State), s.chainActs 4 true (· == 4) f = true ∧ s.nmc.attn = false) ∧
    (∃ (f : Bytes) (s : State), s.chainActs 5 false (· == 4) f = true) ∧
    (∃ (f : Bytes) (s : State), s.sys.mode ≠ .reset ∧ u8 f 1 % 32 ≠ 0 ∧ u8 f 1 % 32 ≠ s.nmc.addr) ∧
    (∃ (f : Bytes) (s : State), s.sys.mode ≠ .reset ∧ u8 f 0 = 0x5A ∧ f.length = 8 + chainLen f ∧ u8 f 1 / 32 = 5 ∧ u8 f 1 % 32 ≠ 0 ∧
      u8 f 1 % 32 = s.nmc.addr ∧ fcrcOk f = false) :=
  ⟨⟨(cframe 0 0 0 [31]), up, by decide +kernel⟩,
   ⟨(cframe 0 0 0 [32]), up, by decide +kernel⟩,
   ⟨((cframe 0 0 0 [1]).set 7 0xFF), (inMode .cascadeMaster), by decide +kernel⟩,
   ⟨(cframe 1 5 255 [7]), ({ up with nmc := { up.nmc with addr := 5 } }), by decide +kernel⟩,
   ⟨(cframe 1 5 0 [7]), ({ up with nmc := { up.nmc with addr := 5, wstate := .busy } }), by decide +kernel⟩,
   ⟨(cframe 2 5 0 [7]), ({ up with nmc := { up.nmc with addr := 5 } }), by decide +kernel⟩,
   ⟨(cframe 3 5 0 [1]), ({ up with nmc := { up.nmc with addr := 5 } }), by decide +kernel⟩,
   ⟨(cframe 3 5 0 [1]), ({ up with nmc := { up.nmc with addr := 5, wstate := .event } }), by decide +kernel⟩,
   ⟨(cframe 3 5 0 [2]), ({ up with nmc := { up.nmc with addr := 5, wstate := .event } }), by decide +kernel⟩,
   ⟨(cframe 3 5 0 [2]), ({ up with nmc := { up.nmc with addr := 5, wstate := .busy } }), by decide +kernel⟩,
   ⟨(cframe 4 0 0 (zz 4)), ({ up with nmc := { up.nmc with addr := 5, attn := true } }), by decide +kernel⟩,
   ⟨(cframe 4 0 0 (zz 4)), ({ up with nmc := { up.nmc with addr := 5 } }), by decide +kernel⟩,
   ⟨(cframe 5 5 0 (zz 4)), ({ up with nmc := { up.nmc with addr := 5 } }), by decide +kernel⟩,
   ⟨(cframe 5 6 0 (zz 4)), ({ up with nmc := { up.nmc with addr := 5 } }), by decide +kernel⟩,
   ⟨((cframe 5 5 0 (zz 4)).set 9 2), ({ up with nmc := { up.nmc with addr := 5 } }), by decide +kernel⟩⟩

theorem witness_CascadeComplete :
    (∃ (r : Req) (s : State) (s1 : State), s.turn 0x0900 r = some s1 ∧ r.target = 0 ∧ r.payload.length = 4 ∧ s1.mayJoin (u8 r.payload 1) = true ∧ 1 ≤
      u8 r.payload 0 ∧ u8 r.payload 0 ≤ 31 ∧ u8 r.payload 0 ≠ s1.nmc.addr ∧ 1 ≤ u8 r.payload 1 ∧ u8 r.payload 1 ≤ 3 ∧ zeros r.payload 2 2 = true) ∧
    (∃ (r : Req) (s : State) (s1 : State) (n : _), s.turn 0x0901 r = some s1 ∧ r.target = 0 ∧ n = u8 r.payload 1 ∧ r.payload.length = 4 + 20 * n ∧
      s1.mayForm (u8 r.payload 0) = true ∧ 1 ≤ u8 r.payload 0 ∧ u8 r.payload 0 ≤ 3 ∧ 2 ≤ n ∧ n ≤ 8 ∧ (u8 r.payload 0 ≠ 3 ∨ n = 8) ∧ zeros r.payload 2
      2 = true ∧ s1.formOk (u8 r.payload 0) n r.payload = true) ∧
    (∃ (r : Req) (s : State) (s1 : State), s.turn 0x0902 r = some s1 ∧ r.target = 0 ∧ r.payload = [] ∧ (s1.role = .cascadeMaster ∨ s1.role =
      .cascadeMember) ∧ s1.cascade.leaving = none ∧ s1.stripBlock r.mbx (((s1.cascade.ends.map fun e => e.2.trunk).eraseDups).flatMap s1.trunkLegs) =
      none) ∧ (∃ (r : Req) (s : State) (s1 : State) (b : _), s.turn 0x0902 r = some s1 ∧ r.target = 0 ∧ r.payload = [] ∧ (s1.role = .cascadeMaster ∨
      s1.role = .cascadeMember) ∧ s1.cascade.leaving = none ∧ s1.stripBlock r.mbx (((s1.cascade.ends.map fun e => e.2.trunk).eraseDups).flatMap
      s1.trunkLegs) = some b) ∧
    (∃ (r : Req) (s : State) (s1 : State) (id : _), s.turn 0x0903 r = some s1 ∧ r.target = 0 ∧ r.payload.length = 16 ∧ s1.role = .cascadeMaster ∧ u8
      r.payload 0 ≠ s1.nmc.addr ∧ u8 r.payload 1 ≠ s1.nmc.addr ∧ u8 r.payload 0 ≠ u8 r.payload 1 ∧ s1.cascade.addrs.contains (u8 r.payload 0) = true ∧
      s1.cascade.addrs.contains (u8 r.payload 1) = true ∧ 1 ≤ u8 r.payload 2 ∧ u8 r.payload 2 ≤ 3 ∧ u8 r.payload 3 ≤ 1 ∧ (u8 r.payload 3 = 0 ∨
      s1.cascade.topo ≠ 3) ∧ u8 r.payload 4 ≤ 3 ∧ zeros r.payload 5 3 = true ∧ s1.freeTrunk 1 65535 = some id ∧ (s.mb r.mbx).flight = none) ∧
    (∃ (r : Req) (s : State) (s1 : State) (id : _), s.turn 0x0903 r = some s1 ∧ r.target = 0 ∧ r.payload.length = 16 ∧ s1.role = .cascadeMaster ∧ u8
      r.payload 0 ≠ u8 r.payload 1 ∧ (u8 r.payload 0 = s1.nmc.addr → ∃ k, s1.lives (u32 r.payload 8) k 1) ∧ (u8 r.payload 1 = s1.nmc.addr → ∃ k,
      s1.lives (u32 r.payload 12) k 1) ∧ s1.cascade.addrs.contains (u8 r.payload 0) = true ∧ s1.cascade.addrs.contains (u8 r.payload 1) = true ∧ 1 ≤
      u8 r.payload 2 ∧ u8 r.payload 2 ≤ 3 ∧ u8 r.payload 3 ≤ 1 ∧ (u8 r.payload 3 = 0 ∨ s1.cascade.topo ≠ 3) ∧ u8 r.payload 4 ≤ 3 ∧ zeros r.payload 5 3
      = true ∧ s1.freeTrunk 1 65535 = some id ∧ (s.mb r.mbx).flight = none) ∧
    (∃ (r : Req) (s : State) (s1 : State) (t0 : _), s.turn 0x0904 r = some s1 ∧ r.target = 0 ∧ r.payload.length = 4 ∧ s1.role = .cascadeMaster ∧
      tget? s1.cascade.trunks (u32 r.payload 0) = some t0 ∧ t0.commit.isSome = true ∧ t0.gone = none ∧ s1.stripBlock r.mbx (s1.trunkLegs (u32
      r.payload 0)) = none) ∧ (∃ (r : Req) (s : State) (s1 : State) (t0 : _) (b : _), s.turn 0x0904 r = some s1 ∧ r.target = 0 ∧ r.payload.length = 4
      ∧ s1.role = .cascadeMaster ∧ tget? s1.cascade.trunks (u32 r.payload 0) = some t0 ∧ t0.commit.isSome = true ∧ t0.gone = none ∧ s1.stripBlock
      r.mbx (s1.trunkLegs (u32 r.payload 0)) = some b) ∧
    (∃ (r : Req) (s : State) (s1 : State) (a : _), s.turn 0x0905 r = some s1 ∧ r.target = 0 ∧ r.payload.length = 16 ∧ s1.role = .cascadeMaster ∧ zeros
      r.payload 13 3 = true ∧ a = u8 r.payload 12 ∧ a ≠ 0 ∧ a < 32 ∧ s1.cascade.addrs.contains a = true ∧ u32 r.payload 4 ≤ (s1.roomAt a).1 ∧ u32
      r.payload 8 ≤ (s1.roomAt a).2 ∧ (thas s1.cascade.dir (u32 r.payload 0) = true ∨ s1.cascade.dir.length < 32768)) ∧
    (∃ (r : Req) (s : State) (s1 : State) (a : _), s.turn 0x0905 r = some s1 ∧ r.target = 0 ∧ r.payload.length = 16 ∧ s1.role = .cascadeMaster ∧ zeros
      r.payload 13 3 = true ∧ u8 r.payload 12 < 32 ∧ (u8 r.payload 12 = 0 ∨ s1.cascade.addrs.contains (u8 r.payload 12) = false ∨ (s1.roomAt (u8
      r.payload 12)).1 < u32 r.payload 4 ∨ (s1.roomAt (u8 r.payload 12)).2 < u32 r.payload 8) ∧ a < 32 ∧ s1.cascade.addrs.contains a = true ∧ u32
      r.payload 4 ≤ (s1.roomAt a).1 ∧ u32 r.payload 8 ≤ (s1.roomAt a).2 ∧ (∀ x, x < a → s1.cascade.addrs.contains x = false ∨ (s1.roomAt x).1 < u32
      r.payload 4 ∨ (s1.roomAt x).2 < u32 r.payload 8) ∧ (thas s1.cascade.dir (u32 r.payload 0) = true ∨ s1.cascade.dir.length < 32768)) ∧
    (∃ (r : Req) (s : State) (s1 : State), s.turn 0x0906 r = some s1 ∧ r.target = 0 ∧ r.payload.length = 4 ∧ s1.role = .cascadeMaster ∧ thas
      s1.cascade.dir (u32 r.payload 0) = true) ∧
    (∃ (r : Req) (s : State) (s1 : State), s.turn 0x0907 r = some s1 ∧ r.target = 0 ∧ r.payload = []) ∧
    (∃ (r : Req) (s : State) (s1 : State), s.turn 0x0908 r = some s1 ∧ r.target = 0 ∧ r.payload.length = 16 ∧ s1.role = .cascadeMaster ∧ u32 r.payload
      8 = 262144 ∧ zeros r.payload 12 4 = true ∧ s1.cascade.dir ≠ []) ∧
    (∃ (r : Req) (s : State) (s1 : State), s.turn 0x0908 r = some s1 ∧ r.target = 0 ∧ r.payload.length = 16 ∧ s1.role = .cascadeMaster ∧ u32 r.payload
      8 = 262144 ∧ zeros r.payload 12 4 = true ∧ s1.cascade.dir = []) ∧
    (∃ (s : State) (f : _), s.cascade.forming = some f ∧ s.cascade.master = s.nmc.addr ∧ f.since + 200000000 ≤ s.now) ∧
    (∃ (s : State) (f : _), s.cascade.forming = some f ∧ s.now < f.since + 200000000) ∧
    (∃ (s : State) (a : _) (since : _), s.cascade.forming = none ∧ s.trio.rejoin = some (a, since) ∧ since + 200000000 ≤ s.now) ∧
    (∃ (link : _) (s : State), link < 4 ∧ (s.blp link).st = 0) ∧
    (∃ (link : _) (s : State), link < 4 ∧ (s.blp link).st ≠ 0) ∧
    (∃ (link : _) (s : State), link < 4 ∧ (s.blp link).st = 2 ∧ s.cascade.trunks = []) ∧
    (∃ (link : _) (s : State), link < 4 ∧ (s.blp link).st = 2) ∧
    (∃ (link : _) (s : State), link < 4 ∧ (s.blp link).st ≠ 2) ∧
    (∃ (peer : _) (s : State), s.cascade.id ≠ 0 ∧ s.trio.id = 0 ∧ s.cascade.addrs.contains peer = true ∧ tget s.cascade.id s.cascade.heardFrom peer +
      3 ≤ s.block ∧ s.cascade.lost.contains peer = false ∧ s.cascade.master = s.nmc.addr) ∧
    (∃ (peer : _) (s : State), s.cascade.id ≠ 0 ∧ s.trio.id = 0 ∧ s.cascade.addrs.contains peer = true ∧ tget s.cascade.id s.cascade.heardFrom peer +
      3 ≤ s.block ∧ s.cascade.lost.contains peer = false ∧ peer = s.cascade.master ∧ s.cascade.master ≠ s.nmc.addr ∧ s.cascade.st = 2) ∧
    (∃ (s : State), s.cascade.st ≠ 3) ∧
    (∃ (s : State) (i : _) (e : _) (b : _), s.cascade.st = 3 ∧ s.cascade.ends = [(i, e)] ∧ e.prepared = some b ∧ b + 3 ≤ s.block) ∧
    (∃ (s : State), s.cascade.st = 3) ∧
    (∃ (trunk : _) (s : State) (i : _) (e : _), s.block * 2000000 + 1750000 ≤ s.now ∧ s.cascade.ends = [(i, e)] ∧ e.trunk = trunk ∧ e.recv.isSome =
      true ∧ e.arrived = false ∧ s.flows (okey 2 i) = true) ∧
    (∃ (s : State), s.block * 2000000 + 1750000 ≤ s.now) ∧
    (∃ (s : State), s.now < s.block * 2000000 + 1750000) :=
  ⟨⟨(rq [6, 3, 0, 0]), (linked id), (after 0x0900 (rq [6, 3, 0, 0]) (linked id)), turn_after (by decide +kernel), by decide +kernel⟩,
   ⟨(rq ([1, 2, 0, 0] ++ form 2)), (linked id), (after 0x0901 (rq ([1, 2, 0, 0] ++ form 2)) (linked id)), 2, turn_after (by decide +kernel),
    by decide +kernel⟩,
   ⟨(rq []), (noRoom fun c => { c with ends := [(0, end0)] }), (after 0x0902 (rq []) (noRoom fun c => { c with ends := [(0, end0)] })),
    turn_after (by decide +kernel), by decide +kernel⟩,
   ⟨(rq []), (cascaded .cascadeMaster 5 2 id), (after 0x0902 (rq []) (cascaded .cascadeMaster 5 2 id)), (up.block + 1),
    turn_after (by decide +kernel), by decide +kernel⟩,
   ⟨(rq ([6, 7, 3, 1, 3, 0, 0, 0] ++ zz 8)), (cascaded .cascadeMaster 5 2 fun c => { c with addrs := [5, 6, 7] }),
    (after 0x0903 (rq ([6, 7, 3, 1, 3, 0, 0, 0] ++ zz 8)) (cascaded .cascadeMaster 5 2 fun c => { c with addrs := [5, 6, 7] })), 1,
    turn_after (by decide +kernel), by decide +kernel⟩,
   ⟨(rq ([5, 6, 3, 1, 3, 0, 0, 0] ++ le 4 (hd 1 0) ++ zz 4)), ({ cascaded .cascadeMaster 5 2 id with objs := [(okey 1 0, obj true true)] }),
    (after 0x0903 (rq ([5, 6, 3, 1, 3, 0, 0, 0] ++ le 4 (hd 1 0) ++ zz 4)) ({ cascaded .cascadeMaster 5 2 id with objs := [(okey 1 0, obj true true)] })),
    1, turn_after (by decide +kernel), by decide +kernel, by decide +kernel, by decide +kernel, by decide +kernel,
    (fun _ => ⟨okey 1 0, ok_of (by decide +kernel)⟩), (fun h => absurd h (by decide +kernel)), by decide +kernel⟩,
   ⟨(rq (le 4 1)), (noRoom fun c => { c with ends := [(0, end0)], trunks := [(1, trunk0)] }),
    (after 0x0904 (rq (le 4 1)) (noRoom fun c => { c with ends := [(0, end0)], trunks := [(1, trunk0)] })), trunk0,
    turn_after (by decide +kernel), by decide +kernel⟩,
   ⟨(rq (le 4 1)), (cascaded .cascadeMaster 5 2 fun c => { c with trunks := [(1, trunk0)] }),
    (after 0x0904 (rq (le 4 1)) (cascaded .cascadeMaster 5 2 fun c => { c with trunks := [(1, trunk0)] })), trunk0, (up.block + 1),
    turn_after (by decide +kernel), by decide +kernel⟩,
   ⟨(rq (le 4 9 ++ le 4 0 ++ le 4 0 ++ [6, 0, 0, 0])), (cascaded .cascadeMaster 5 2 id),
    (after 0x0905 (rq (le 4 9 ++ le 4 0 ++ le 4 0 ++ [6, 0, 0, 0])) (cascaded .cascadeMaster 5 2 id)), 6, turn_after (by decide +kernel),
    by decide +kernel⟩,
   ⟨(rq (le 4 9 ++ le 4 0 ++ le 4 0 ++ [0, 0, 0, 0])), (cascaded .cascadeMaster 5 2 id),
    (after 0x0905 (rq (le 4 9 ++ le 4 0 ++ le 4 0 ++ [0, 0, 0, 0])) (cascaded .cascadeMaster 5 2 id)), 5, turn_after (by decide +kernel),
    by decide +kernel⟩,
   ⟨(rq (le 4 9)), (cascaded .cascadeMaster 5 2 fun c => { c with dir := [(9, 6)] }),
    (after 0x0906 (rq (le 4 9)) (cascaded .cascadeMaster 5 2 fun c => { c with dir := [(9, 6)] })), turn_after (by decide +kernel), by decide +kernel⟩,
   ⟨(rq []), up, (after 0x0907 (rq []) (up)), turn_after (by decide +kernel), by decide +kernel⟩,
   ⟨(rq (le 8 4096 ++ le 4 262144 ++ zz 4)), (cascaded .cascadeMaster 5 2 fun c => { c with dir := [(9, 6)] }),
    (after 0x0908 (rq (le 8 4096 ++ le 4 262144 ++ zz 4)) (cascaded .cascadeMaster 5 2 fun c => { c with dir := [(9, 6)] })),
    turn_after (by decide +kernel), by decide +kernel⟩,
   ⟨(rq (le 8 4096 ++ le 4 262144 ++ zz 4)), (cascaded .cascadeMaster 5 2 id),
    (after 0x0908 (rq (le 8 4096 ++ le 4 262144 ++ zz 4)) (cascaded .cascadeMaster 5 2 id)), turn_after (by decide +kernel), by decide +kernel⟩,
   ⟨(cascaded .standalone 5 1 fun c => { c with forming := some (Forming.new false 1 [] [] 800000000) }), (Forming.new false 1 [] [] 800000000),
    by decide +kernel⟩,
   ⟨(cascaded .standalone 5 1 fun c => { c with forming := some (Forming.new false 1 [] [] 800000001) }), (Forming.new false 1 [] [] 800000001),
    by decide +kernel⟩,
   ⟨(trioed .trioLeader 5 fun t => { t with rejoin := some (7, 800000000) }), 7, 800000000, by decide +kernel⟩,
   ⟨3, up, by decide +kernel⟩,
   ⟨0, (cascaded .cascadeMaster 5 2 id), by decide +kernel⟩,
   ⟨0, (cascaded .cascadeMaster 5 2 fun c => { c with links := [(0, { st := 2, heard := false, silent := 3, discarded := 0, last := [] })] }),
    by decide +kernel⟩,
   ⟨0, (cascaded .cascadeMaster 5 2 fun c => { c with links := [(0, { st := 2, heard := false, silent := 3, discarded := 0, last := [] })] }),
    by decide +kernel⟩,
   ⟨3, up, by decide +kernel⟩,
   ⟨6, (cascaded .cascadeMaster 5 2 fun c => { c with heardFrom := [(6, 497)] }), by decide +kernel⟩,
   ⟨6, (cascaded .cascadeMember 6 2 fun c => { c with heardFrom := [(6, 497)] }), by decide +kernel⟩,
   ⟨up, by decide +kernel⟩,
   ⟨(cascaded .cascadeMember 6 3 fun c => { c with ends := [(0, end0)] }), 0, end0, 490, by decide +kernel⟩,
   ⟨(cascaded .cascadeMember 6 3 id), by decide +kernel⟩,
   ⟨1, ({ cascaded .cascadeMember 6 2 fun c => { c with ends := [(0, end0)] } with objs := [(okey 2 0, obj true true)], now := 1001750000 }), 0, end0,
    by decide +kernel⟩,
   ⟨({ up with now := 1001750000 }), by decide +kernel⟩,
   ⟨({ up with now := 1001749999 }), by decide +kernel⟩⟩

theorem witness_TrioComplete :
    (∃ (r : Req) (s : State) (s1 : State), s.turn 0x0A00 r = some s1 ∧ r.target = 0 ∧ r.payload.length = 4 ∧ s1.trio.id = 0 ∧ s1.mayForm (u8 r.payload
      1) = true ∧ 1 ≤ u8 r.payload 0 ∧ u8 r.payload 0 ≤ 31 ∧ u8 r.payload 0 ≠ s1.nmc.addr ∧ (u8 r.payload 1 = 1 ∨ u8 r.payload 1 = 2) ∧ zeros
      r.payload 2 2 = true) ∧
    (∃ (r : Req) (s : State) (s1 : State), s.turn 0x0A01 r = some s1 ∧ r.target = 0 ∧ r.payload.length = 68 ∧ s1.trio.id = 0 ∧ s1.mayForm (u8
      r.payload 0) = true ∧ (u8 r.payload 0 = 1 ∨ u8 r.payload 0 = 2) ∧ zeros r.payload 1 3 = true ∧ s1.formOk (u8 r.payload 0) 3 r.payload = true ∧
      zeros r.payload 64 4 = true) ∧
    (∃ (r : Req) (s : State) (s1 : State) (key : _), s.turn 0x0A02 r = some s1 ∧ r.payload = [] ∧ s1.lives r.tgt key 0x0B ∧ s1.trio.leader ≠
      s1.nmc.addr ∧ s1.trio.leaving = none) ∧
    (∃ (r : Req) (s : State) (s1 : State) (key : _), s.turn 0x0A03 r = some s1 ∧ r.target = 0 ∧ r.payload.length = 8 ∧ u32 r.payload 0 ≠ 0 ∧
      s1.checkHandle (u32 r.payload 0) [2, 3, 4, 5] = .ok key ∧ s1.mayBeCritical key = true ∧ u16 r.payload 4 < (if ktype key = 2 then 1024 else 64) ∧
      s1.following = false ∧ u8 r.payload 6 = 1 ∧ zeros r.payload 7 1 = true ∧ s1.breaksCritical key = false ∧ s1.critical key = false ∧ tget?
      s1.trio.entries (if ktype key = 2 then u16 r.payload 4 else 1024 + u16 r.payload 4) = none) ∧
    (∃ (r : Req) (s : State) (s1 : State) (key : _) (e : _), s.turn 0x0A03 r = some s1 ∧ r.target = 0 ∧ r.payload.length = 8 ∧ u32 r.payload 0 ≠ 0 ∧
      s1.checkHandle (u32 r.payload 0) [2, 3, 4, 5] = .ok key ∧ s1.mayBeCritical key = true ∧ u16 r.payload 4 < (if ktype key = 2 then 1024 else 64) ∧
      s1.following = false ∧ u8 r.payload 6 = 2 ∧ zeros r.payload 7 1 = true ∧ tget? s1.trio.entries (if ktype key = 2 then u16 r.payload 4 else 1024
      + u16 r.payload 4) = some e ∧ e.key = key ∧ s1.clearBreaks (if ktype key = 2 then u16 r.payload 4 else 1024 + u16 r.payload 4) = false) ∧
    (∃ (r : Req) (s : State) (s1 : State), s.turn 0x0A04 r = some s1 ∧ r.target = 0 ∧ r.payload.length = 4 ∧ s1.trio.id ≠ 0 ∧ s1.trio.addrs.contains
      (u8 r.payload 0) = true ∧ u8 r.payload 0 ≠ s1.nmc.addr ∧ s1.following = false ∧ s1.trio.turn = none ∧ s1.trio.present.contains (u8 r.payload 0)
      = true ∧ zeros r.payload 1 3 = true) ∧
    (∃ (r : Req) (s : State) (s1 : State), s.turn 0x0A05 r = some s1 ∧ r.target = 0 ∧ r.payload.length = 4 ∧ s1.following = false ∧ (u16 r.payload 0 =
      0 ∨ 50 ≤ u16 r.payload 0) ∧ zeros r.payload 2 2 = true) ∧
    (∃ (r : Req) (s : State) (s1 : State), s.turn 0x0A06 r = some s1 ∧ r.target = 0 ∧ r.payload.length = 4 ∧ s1.trio.id ≠ 0 ∧ s1.trio.addrs.contains
      (u8 r.payload 0) = true ∧ s1.following = false ∧ s1.trio.present.contains (u8 r.payload 0) = false ∧ s1.trio.rejoin = none ∧ s1.cascade.forming
      = none ∧ zeros r.payload 1 3 = true) ∧
    (∃ (r : Req) (s : State) (s1 : State), s.turn 0x0A07 r = some s1 ∧ r.target = 0 ∧ r.payload = []) ∧
    (∃ (s : State), (s.trio.id = 0 ∨ s.trio.stopped = true)) ∧
    (∃ (s : State), s.trio.id ≠ 0 ∧ s.trio.stopped = false) ∧
    (∃ (s : State), s.trio.id ≠ 0 ∧ s.trio.stopped = false ∧ s.trio.entries = [] ∧ s.trio.leader = s.nmc.addr ∧ s.trio.turn = none ∧ s.trio.revert =
      0) ∧
    (∃ (s : State), s.trio.id ≠ 0 ∧ s.trio.leader = s.nmc.addr ∧ s.trio.stopped = false ∧
      (match s.trio.lease with | some b => b < s.block | none => True)) ∧
    (∃ (s : State), (s.trio.id = 0 ∨ s.trio.leader ≠ s.nmc.addr ∨ s.trio.stopped = true)) ∧
    (∃ (s : State) (b : _), s.trio.lease = some b ∧ s.block ≤ b) :=
  ⟨⟨(rq [6, 2, 0, 0]), (linked id), (after 0x0A00 (rq [6, 2, 0, 0]) (linked id)), turn_after (by decide +kernel), by decide +kernel⟩,
   ⟨(rq ([1, 0, 0, 0] ++ form 3 ++ zz 4)), (linked id), (after 0x0A01 (rq ([1, 0, 0, 0] ++ form 3 ++ zz 4)) (linked id)),
    turn_after (by decide +kernel), by decide +kernel⟩,
   ⟨(rt (hd 11 0) []), (trioed .trioFollower 6 id), (after 0x0A02 (rt (hd 11 0) []) (trioed .trioFollower 6 id)), (okey 11 0),
    turn_after (by decide +kernel), by decide +kernel, ok_of (by decide +kernel), by decide +kernel⟩,
   ⟨(rq (le 4 (hd 2 0) ++ le 2 1023 ++ [1, 0])), (trioed .trioLeader 5 id),
    (after 0x0A03 (rq (le 4 (hd 2 0) ++ le 2 1023 ++ [1, 0])) (trioed .trioLeader 5 id)), (okey 2 0), turn_after (by decide +kernel),
    by decide +kernel, by decide +kernel, by decide +kernel, ok_of (by decide +kernel), by decide +kernel⟩,
   ⟨(rq (le 4 (hd 2 0) ++ le 2 1023 ++ [2, 0])), (trioed .trioLeader 5 fun t => { t with entries := [(1023, entry0)] }),
    (after 0x0A03 (rq (le 4 (hd 2 0) ++ le 2 1023 ++ [2, 0])) (trioed .trioLeader 5 fun t => { t with entries := [(1023, entry0)] })), (okey 2 0),
    entry0, turn_after (by decide +kernel), by decide +kernel, by decide +kernel, by decide +kernel, ok_of (by decide +kernel), by decide +kernel⟩,
   ⟨(rq [6, 0, 0, 0]), (trioed .trioLeader 5 id), (after 0x0A04 (rq [6, 0, 0, 0]) (trioed .trioLeader 5 id)), turn_after (by decide +kernel),
    by decide +kernel⟩,
   ⟨(rq [50, 0, 0, 0]), (trioed .trioLeader 5 id), (after 0x0A05 (rq [50, 0, 0, 0]) (trioed .trioLeader 5 id)), turn_after (by decide +kernel),
    by decide +kernel⟩,
   ⟨(rq [7, 0, 0, 0]), (trioed .trioLeader 5 fun t => { t with present := [5, 6] }),
    (after 0x0A06 (rq [7, 0, 0, 0]) (trioed .trioLeader 5 fun t => { t with present := [5, 6] })), turn_after (by decide +kernel), by decide +kernel⟩,
   ⟨(rq []), up, (after 0x0A07 (rq []) (up)), turn_after (by decide +kernel), by decide +kernel⟩,
   ⟨up, by decide +kernel⟩,
   ⟨(trioed .trioLeader 5 id), by decide +kernel⟩,
   ⟨(trioed .trioLeader 5 fun t => { t with revert := 0 }), by decide +kernel⟩,
   ⟨(trioed .trioLeader 5 fun t => { t with lease := some 499 }), by decide +kernel, by decide +kernel, by decide +kernel,
    (show (499 : Nat) < 500 by decide)⟩,
   ⟨up, by decide +kernel⟩,
   ⟨(trioed .trioLeader 5 fun t => { t with lease := some 500 }), 500, by decide +kernel⟩⟩

theorem witness_BlpFramesComplete :
    (∃ (link : _) (data : Bytes) (p : Bytes) (s : State) (s1 : State) (src : _) (b : _), link < 4 ∧ s.blpHeard link 1 data = some (s1, src, b, p)) ∧
    (∃ (link : _) (data : Bytes) (p : Bytes) (s : State) (s1 : State) (src : _) (b : _), link < 4 ∧ s.blpHeard link 2 data = some (s1, src, b, p)) ∧
    (∃ (link : _) (data : Bytes) (p : Bytes) (s : State) (s1 : State) (src : _) (b : _), link < 4 ∧ s.blpHeard link 4 data = some (s1, src, b, p)) ∧
    (∃ (link : _) (data : Bytes) (p : Bytes) (s : State) (s1 : State) (src : _) (b : _), link < 4 ∧ s.blpHeard link 5 data = some (s1, src, b, p)) ∧
    (∃ (link : _) (data : Bytes) (p : Bytes) (s : State) (s1 : State) (src : _) (b : _), link < 4 ∧ s.blpHeard link 8 data = some (s1, src, b, p)) ∧
    (∃ (link : _) (data : Bytes) (p : Bytes) (s : State) (s1 : State) (src : _) (b : _), link < 4 ∧ s.blpHeard link 9 data = some (s1, src, b, p)) ∧
    (∃ (link : _) (data : Bytes) (p : Bytes) (s : State) (s1 : State) (src : _) (b : _), link < 4 ∧ s.blpHeard link 10 data = some (s1, src, b, p)) ∧
    (∃ (link : _) (data : Bytes) (p : Bytes) (s : State) (s1 : State) (src : _) (b : _), link < 4 ∧ s.blpHeard link 11 data = some (s1, src, b, p)) ∧
    (∃ (link : _) (data : Bytes) (p : Bytes) (s : State) (s1 : State) (src : _) (b : _), link < 4 ∧ s.blpHeard link 12 data = some (s1, src, b, p)) ∧
    (∃ (link : _) (time : _) (data : Bytes) (p : Bytes) (s : State) (s1 : State) (src : _) (b : _), link < 4 ∧ (s.at time).blpHeard link 3 data = some
      (s1, src, b, p)) ∧
    (∃ (link : _) (data : Bytes) (s : State), link < 4 ∧ s.blpWaits link 1 data = true) ∧
    (∃ (link : _) (data : Bytes) (s : State), link < 4 ∧ s.blpWaits link 2 data = true) ∧
    (∃ (link : _) (data : Bytes) (s : State), link < 4 ∧ s.blpWaits link 4 data = true) ∧
    (∃ (link : _) (data : Bytes) (s : State), link < 4 ∧ s.blpWaits link 5 data = true) ∧
    (∃ (link : _) (data : Bytes) (s : State), link < 4 ∧ s.blpWaits link 8 data = true) ∧
    (∃ (link : _) (data : Bytes) (s : State), link < 4 ∧ s.blpWaits link 9 data = true) ∧
    (∃ (link : _) (data : Bytes) (s : State), link < 4 ∧ s.blpWaits link 10 data = true) ∧
    (∃ (link : _) (data : Bytes) (s : State), link < 4 ∧ s.blpWaits link 11 data = true) ∧
    (∃ (link : _) (data : Bytes) (s : State), link < 4 ∧ s.blpWaits link 12 data = true) ∧
    (∃ (link : _) (time : _) (data : Bytes) (s : State), link < 4 ∧ (s.at time).blpWaits link 3 data = true) ∧
    (∃ (link : _) (data : Bytes) (p : Bytes) (s : State) (s1 : State) (src : _) (b : _), link < 4 ∧ s.blpHeard link 1 data = some (s1, src, b, p) ∧
      s1.cascade.book ≠ [] ∧ s1.helloOk (bfld p 4 8) = true ∧ u8 p 0 = s1.expected link ∧ u8 p 0 = src ∧ u8 p 1 = (peerOf s1.cascade.shape
      s1.cascade.book.length s1.myPos link).1 ∧ u8 p 2 = (peerOf s1.cascade.shape s1.cascade.book.length s1.myPos link).2 ∧ (s1.blp link).st = 1) ∧
    (∃ (link : _) (data : Bytes) (p : Bytes) (s : State) (s1 : State) (src : _) (b : _), link < 4 ∧ s.blpHeard link 1 data = some (s1, src, b, p) ∧
      s1.cascade.book ≠ [] ∧ s1.helloOk (bfld p 4 8) = false) ∧
    (∃ (link : _) (data : Bytes) (p : Bytes) (s : State) (s1 : State) (src : _) (b : _), link < 4 ∧ s.blpHeard link 2 data = some (s1, src, b, p) ∧
      bfld p 1 8 = s1.cascade.id ∧ s1.cascade.id ≠ 0 ∧ s1.cascade.st = 2 ∧ s1.cascade.beat = s1.block) ∧
    (∃ (link : _) (data : Bytes) (p : Bytes) (s : State) (s1 : State) (src : _) (b : _), link < 4 ∧ s.blpHeard link 2 data = some (s1, src, b, p) ∧
      (bfld p 1 8 ≠ s1.cascade.id ∨ s1.cascade.id = 0)) ∧
    (∃ (link : _) (time : _) (data : Bytes) (p : Bytes) (s : State) (s1 : State) (src : _) (b : _), link < 4 ∧ (s.at time).blpHeard link 3 data = some
      (s1, src, b, p) ∧ u8 p 2 = 1) ∧
    (∃ (link : _) (time : _) (data : Bytes) (p : Bytes) (s : State) (s1 : State) (src : _) (b : _), link < 4 ∧ (s.at time).blpHeard link 3 data = some
      (s1, src, b, p) ∧ u8 p 2 = 2 ∧ s1.role = .cascadeMember ∧ s1.cascade.waiting = true ∧ bfld p 0 2 = s1.cascade.seq) ∧
    (∃ (link : _) (data : Bytes) (p : Bytes) (s : State) (s1 : State) (src : _) (b : _), link < 4 ∧ s.blpHeard link 4 data = some (s1, src, b, p)) ∧
    (∃ (link : _) (data : Bytes) (p : Bytes) (s : State) (s1 : State) (src : _) (b : _) (i : _) (e : _), link < 4 ∧ s.blpHeard link 5 data = some (s1,
      src, b, p) ∧ p.length = 292 ∧ (s1.cascade.ends.find? fun e => e.2.recv == some (bfld p 0 2)) = some (i, e) ∧ e.arrived = false ∧ b + 1 =
      s1.block ∧ s1.now ≤ s1.block * 2000000 + 1750000 ∧ s1.flows (okey 2 i) = true) ∧
    (∃ (link : _) (data : Bytes) (p : Bytes) (s : State) (s1 : State) (src : _) (b : _) (e : _), link < 4 ∧ s.blpHeard link 8 data = some (s1, src, b,
      p) ∧ tget? s1.trio.entries (bfld p 0 2) = some e ∧ s1.following = true ∧ src = s1.trio.leader ∧ u8 p 2 = 1 ∧ ktype e.key = 2 ∧ s1.block ≤ bfld p
      4 8) ∧
    (∃ (link : _) (data : Bytes) (p : Bytes) (s : State) (s1 : State) (src : _) (b : _), link < 4 ∧ s.blpHeard link 8 data = some (s1, src, b, p) ∧
      tget? s1.trio.entries (bfld p 0 2) = none) ∧
    (∃ (link : _) (data : Bytes) (p : Bytes) (s : State) (s1 : State) (src : _) (b : _) (e : _), link < 4 ∧ s.blpHeard link 9 data = some (s1, src, b,
      p) ∧ tget? s1.trio.entries (bfld p 8 2) = some e ∧ bfld p 10 2 = 0) ∧
    (∃ (link : _) (data : Bytes) (p : Bytes) (s : State) (s1 : State) (src : _) (b : _) (e : _), link < 4 ∧ s.blpHeard link 9 data = some (s1, src, b,
      p) ∧ tget? s1.trio.entries (bfld p 8 2) = some e ∧ bfld p 10 2 ≠ 0 ∧ s1.following = true ∧ src = s1.trio.leader) ∧
    (∃ (link : _) (data : Bytes) (p : Bytes) (s : State) (s1 : State) (src : _) (b : _), link < 4 ∧ s.blpHeard link 10 data = some (s1, src, b, p) ∧
      s1.trio.id ≠ 0 ∧ s1.trio.present.contains src = true) ∧
    (∃ (link : _) (data : Bytes) (p : Bytes) (s : State) (s1 : State) (src : _) (b : _), link < 4 ∧ s.blpHeard link 11 data = some (s1, src, b, p) ∧
      s1.trio.id ≠ 0 ∧ s1.trio.stopped = false ∧ s1.trio.present.contains src = true ∧ bfld p 8 8 = s1.block ∧ bfld p 0 1 = s1.trio.leader ∧ bfld p 0
      1 ≠ s1.nmc.addr) ∧
    (∃ (link : _) (data : Bytes) (p : Bytes) (s : State) (s1 : State) (src : _) (b : _), link < 4 ∧ s.blpHeard link 11 data = some (s1, src, b, p) ∧
      s1.trio.id ≠ 0 ∧ s1.trio.stopped = false ∧ s1.trio.present.contains src = true ∧ bfld p 8 8 = s1.block ∧ bfld p 0 1 = s1.nmc.addr ∧
      s1.trio.leader = s1.nmc.addr) ∧
    (∃ (link : _) (data : Bytes) (p : Bytes) (s : State) (s1 : State) (src : _) (b : _) (e : _), link < 4 ∧ s.blpHeard link 12 data = some (s1, src,
      b, p) ∧ tget? s1.trio.entries (bfld p 0 2) = some e ∧ s1.trio.mute = true ∧ src = s1.trio.leader ∧ s1.trio.sync = some (bfld p 8 8)) ∧
    (∃ (link : _) (data : Bytes) (s : State), link < 4 ∧ bfld data 0 2 ≠ 0xB17A ∧ u8 data 3 = 1 ∧ s.unitDown 0x0C link = false) ∧
    (∃ (link : _) (data : Bytes) (s : State), link < 4 ∧ u8 data 3 ∉ frameTypes ∧ s.unitDown 0x0C link = false) ∧
    (∃ (link : _) (data : Bytes) (s : State), link < 4 ∧ (u8 data 3 ≠ 1 ∧ u8 data 3 ∈ frameTypes ∨ s.unitDown 0x0C link = true)) :=
  ⟨⟨0, (blpFrame 1 500 ([6, 1, 1, 0] ++ be 8 77)), ([6, 1, 1, 0] ++ be 8 77), (cascaded .cascadeMember 6 2 id),
    (heard 0 _ (cascaded .cascadeMember 6 2 id)), 6, 500, by decide +kernel, hears (by decide +kernel)⟩,
   ⟨0, (blpFrame 2 500 ([6] ++ be 8 77 ++ zz 7)), ([6] ++ be 8 77 ++ zz 7), (cascaded .cascadeMember 6 2 id),
    (heard 0 _ (cascaded .cascadeMember 6 2 id)), 6, 500, by decide +kernel, hears (by decide +kernel)⟩,
   ⟨0, (blpFrame 4 500 (zz 8)), (zz 8), (cascaded .cascadeMember 6 2 id), (heard 0 _ (cascaded .cascadeMember 6 2 id)), 6, 500, by decide +kernel,
    hears (by decide +kernel)⟩,
   ⟨0, (blpFrame 5 500 (zz 292)), (zz 292), (cascaded .cascadeMember 6 2 id), (heard 0 _ (cascaded .cascadeMember 6 2 id)), 6, 500, by decide +kernel,
    hears (by decide +kernel)⟩,
   ⟨0, (blpFrame 8 500 (zz 32)), (zz 32), (cascaded .cascadeMember 6 2 id), (heard 0 _ (cascaded .cascadeMember 6 2 id)), 6, 500, by decide +kernel,
    hears (by decide +kernel)⟩,
   ⟨0, (blpFrame 9 500 (zz 20)), (zz 20), (cascaded .cascadeMember 6 2 id), (heard 0 _ (cascaded .cascadeMember 6 2 id)), 6, 500, by decide +kernel,
    hears (by decide +kernel)⟩,
   ⟨0, (blpFrame 10 500 (zz 32)), (zz 32), (cascaded .cascadeMember 6 2 id), (heard 0 _ (cascaded .cascadeMember 6 2 id)), 6, 500, by decide +kernel,
    hears (by decide +kernel)⟩,
   ⟨0, (blpFrame 11 500 (zz 16)), (zz 16), (cascaded .cascadeMember 6 2 id), (heard 0 _ (cascaded .cascadeMember 6 2 id)), 6, 500, by decide +kernel,
    hears (by decide +kernel)⟩,
   ⟨0, (blpFrame 12 500 (zz 20)), (zz 20), (cascaded .cascadeMember 6 2 id), (heard 0 _ (cascaded .cascadeMember 6 2 id)), 6, 500, by decide +kernel,
    hears (by decide +kernel)⟩,
   ⟨0, 1000000000, (blpFrame 3 500 (zz 24)), (zz 24), (cascaded .cascadeMember 6 2 id),
    (heard 0 _ (State.at (cascaded .cascadeMember 6 2 id) 1000000000)), 6, 500, by decide +kernel, hears (by decide +kernel)⟩,
   ⟨0, (blpFrame 1 500 []), stuck, by decide +kernel⟩,
   ⟨1, (blpFrame 2 500 []), stuck, by decide +kernel⟩,
   ⟨2, (blpFrame 4 500 []), stuck, by decide +kernel⟩,
   ⟨3, (blpFrame 5 500 []), stuck, by decide +kernel⟩,
   ⟨0, (blpFrame 8 500 []), stuck, by decide +kernel⟩,
   ⟨1, (blpFrame 9 500 []), stuck, by decide +kernel⟩,
   ⟨2, (blpFrame 10 500 []), stuck, by decide +kernel⟩,
   ⟨3, (blpFrame 11 500 []), stuck, by decide +kernel⟩,
   ⟨0, (blpFrame 12 500 []), stuck, by decide +kernel⟩,
   ⟨0, 1000000000, (blpFrame 3 500 []), stuck, by decide +kernel⟩,
   ⟨0, (blpFrame 1 500 ([6, 1, 1, 0] ++ be 8 77)), ([6, 1, 1, 0] ++ be 8 77), (cascaded .cascadeMember 6 2 id),
    (heard 0 _ (cascaded .cascadeMember 6 2 id)), 6, 500, by decide +kernel, hears (by decide +kernel), by decide +kernel⟩,
   ⟨0, (blpFrame 1 500 ([6, 1, 1, 0] ++ be 8 78)), ([6, 1, 1, 0] ++ be 8 78), (cascaded .cascadeMember 6 2 id),
    (heard 0 _ (cascaded .cascadeMember 6 2 id)), 6, 500, by decide +kernel, hears (by decide +kernel), by decide +kernel⟩,
   ⟨0, (blpFrame 2 500 ([6] ++ be 8 77 ++ zz 7)), ([6] ++ be 8 77 ++ zz 7), (cascaded .cascadeMember 6 2 fun c => { c with beat := 500 }),
    (heard 0 _ (cascaded .cascadeMember 6 2 fun c => { c with beat := 500 })), 6, 500, by decide +kernel, hears (by decide +kernel), by decide +kernel⟩,
   ⟨0, (blpFrame 2 500 ([6] ++ be 8 77 ++ zz 7)), ([6] ++ be 8 77 ++ zz 7), (linked id), (heard 0 _ (linked id)), 6, 500, by decide +kernel,
    hears (by decide +kernel), by decide +kernel⟩,
   ⟨0, 1000000000, (blpFrame 3 500 ([0, 0, 1] ++ zz 21)), ([0, 0, 1] ++ zz 21), (cascaded .cascadeMaster 5 2 id),
    (heard 0 _ (State.at (cascaded .cascadeMaster 5 2 id) 1000000000)), 6, 500, by decide +kernel, hears (by decide +kernel), by decide +kernel⟩,
   ⟨0, 1000000000, (blpFrame 3 500 ([0, 0, 2] ++ zz 21)), ([0, 0, 2] ++ zz 21), (cascaded .cascadeMember 6 2 fun c => { c with waiting := true }),
    (heard 0 _ (State.at (cascaded .cascadeMember 6 2 fun c => { c with waiting := true }) 1000000000)), 6, 500, by decide +kernel,
    hears (by decide +kernel), by decide +kernel⟩,
   ⟨0, (blpFrame 4 500 (zz 8)), (zz 8), (cascaded .cascadeMember 6 2 id), (heard 0 _ (cascaded .cascadeMember 6 2 id)), 6, 500, by decide +kernel,
    hears (by decide +kernel)⟩,
   ⟨0, (blpFrame 5 499 (zz 292)), (zz 292),
    ({ cascaded .cascadeMember 6 2 fun c => { c with ends := [(0, end0)] } with objs := [(okey 2 0, obj true true)], audio := { up.audio with legs := [(0, aLeg 5)] } }),
    (heard 0 _ ({ cascaded .cascadeMember 6 2 fun c => { c with ends := [(0, end0)] } with objs := [(okey 2 0, obj true true)], audio := { up.audio with legs := [(0, aLeg 5)] } })),
    6, 499, 0, end0, by decide +kernel, hears (by decide +kernel), by decide +kernel⟩,
   ⟨0, (blpFrame 8 500 ([0, 0, 1, 0] ++ be 8 500 ++ zz 20)), ([0, 0, 1, 0] ++ be 8 500 ++ zz 20),
    (trioed .trioFollower 6 fun t => { t with entries := [(0, entry0)] }),
    (heard 0 _ (trioed .trioFollower 6 fun t => { t with entries := [(0, entry0)] })), 6, 500, entry0, by decide +kernel, hears (by decide +kernel),
    by decide +kernel⟩,
   ⟨0, (blpFrame 8 500 ([0, 1, 1, 0] ++ be 8 500 ++ zz 20)), ([0, 1, 1, 0] ++ be 8 500 ++ zz 20),
    (trioed .trioFollower 6 fun t => { t with entries := [(0, entry0)] }),
    (heard 0 _ (trioed .trioFollower 6 fun t => { t with entries := [(0, entry0)] })), 6, 500, by decide +kernel, hears (by decide +kernel),
    by decide +kernel⟩,
   ⟨0, (blpFrame 9 500 (be 8 0 ++ zz 12)), (be 8 0 ++ zz 12), (trioed .trioFollower 6 fun t => { t with entries := [(0, entry0)] }),
    (heard 0 _ (trioed .trioFollower 6 fun t => { t with entries := [(0, entry0)] })), 6, 500, entry0, by decide +kernel, hears (by decide +kernel),
    by decide +kernel⟩,
   ⟨0, (blpFrame 9 500 (be 8 502 ++ [0, 0, 2, 3])), (be 8 502 ++ [0, 0, 2, 3]), (trioed .trioFollower 6 fun t => { t with entries := [(0, entry0)] }),
    (heard 0 _ (trioed .trioFollower 6 fun t => { t with entries := [(0, entry0)] })), 6, 500, entry0, by decide +kernel, hears (by decide +kernel),
    by decide +kernel⟩,
   ⟨0, (blpFrame 10 500 (be 8 498 ++ be 2 1 ++ zz 22)), (be 8 498 ++ be 2 1 ++ zz 22), (trioed .trioFollower 6 id),
    (heard 0 _ (trioed .trioFollower 6 id)), 6, 500, by decide +kernel, hears (by decide +kernel), by decide +kernel⟩,
   ⟨0, (blpFrame 11 500 ([6] ++ zz 7 ++ be 8 500)), ([6] ++ zz 7 ++ be 8 500), (trioed .trioFollower 6 id), (heard 0 _ (trioed .trioFollower 6 id)), 6,
    500, by decide +kernel, hears (by decide +kernel), by decide +kernel⟩,
   ⟨0, (blpFrame 11 500 ([5] ++ zz 7 ++ be 8 500)), ([5] ++ zz 7 ++ be 8 500), (trioed .trioLeader 5 id), (heard 0 _ (trioed .trioLeader 5 id)), 6, 500,
    by decide +kernel, hears (by decide +kernel), by decide +kernel⟩,
   ⟨0, (blpFrame 12 500 (zz 8 ++ be 8 499 ++ zz 4)), (zz 8 ++ be 8 499 ++ zz 4),
    (trioed .trioFollower 6 fun t => { t with entries := [(0, entry0)], mute := true, sync := some 499 }),
    (heard 0 _ (trioed .trioFollower 6 fun t => { t with entries := [(0, entry0)], mute := true, sync := some 499 })), 6, 500, entry0, by decide +kernel,
    hears (by decide +kernel), by decide +kernel⟩,
   ⟨3, ([0, 0, 0, 1]), up, by decide +kernel⟩,
   ⟨3, ([0, 0, 0, 0]), up, by decide +kernel⟩,
   ⟨3, ([0, 0, 0, 2]), up, by decide +kernel⟩⟩

theorem witness_BlocksAndDmaComplete :
    (∃ (s : State), (s.mode = .reset ∨ s.mode = .halt)) ∧
    (∃ (s : State), s.mode ≠ .reset ∧ s.mode ≠ .halt ∧ s.quartz.due = true) ∧
    (∃ (s : State), s.mode ≠ .reset ∧ s.mode ≠ .halt ∧ s.quartz.due = false) ∧
    (∃ (m : Mode), (m = .ready ∨ m = .standalone)) ∧
    (∃ (s : State), (s.matrix.mixing = false ∨ s.matrix.down = true)) ∧
    (∃ (s : State), s.matrix.mixing = true ∧ s.matrix.down = false) ∧
    (∃ (s : State) (f : Nat) (x : Flight), f < 5 ∧ (s.mb f).flight = some x ∧ x.wait = .read) ∧
    (∃ (s : State) (f : Nat) (x : Flight) (b : Bytes) (own : State → Eff), f < 5 ∧ (s.mb f).flight = some x ∧ x.wait = .read ∧ x.op ≠ 0x0301 ∧ dmaOwn
      x ((padTo (dmaLen x) b).take (dmaLen x)) = some ([], own)) ∧
    (∃ (s : State) (f : Nat) (x : Flight) (b : Bytes), f < 5 ∧ (s.mb f).flight = some x ∧ x.wait = .read ∧ x.op = 0x0301 ∧ s.critOf (bulkNames ((padTo
      (dmaLen x) b).take (dmaLen x)) (u32 x.req.payload 0)) = none) ∧
    (∃ (s : State) (f : Nat) (x : Flight), f < 5 ∧ (s.mb f).flight = some x ∧ x.wait = .write) ∧
    (∃ (l : List (Nat × DmaFail)) (r : List (Nat × DmaFail)) (a : Nat), (∀ d ∈ l, a < d.1) ∧ (∀ d ∈ r, a < d.1)) :=
  ⟨⟨State.reset, by decide +kernel⟩,
   ⟨(up.updQuartz fun q => { q with due := true }), by decide +kernel⟩,
   ⟨up, by decide +kernel⟩,
   ⟨.ready, by decide +kernel⟩,
   ⟨up, by decide +kernel⟩,
   ⟨(up.updMatrix fun m => { m with mixing := true }), by decide +kernel⟩,
   ⟨(flying 0x0D00 (zz 16) .read), 0, ({ op := 0x0D00, req := rq (zz 16), resp := [], wait := .read }), by decide +kernel⟩,
   ⟨(flying 0x0D00 (zz 16) .read), 0, ({ op := 0x0D00, req := rq (zz 16), resp := [], wait := .read }), ([1]), (effKernelLoadData (rq (zz 16)) []),
    by decide +kernel, by decide +kernel, by decide +kernel, by decide +kernel, by rfl⟩,
   ⟨(flying 0x0301 (le 4 1 ++ zz 12 ++ le 4 12 ++ zz 4) .read), 0,
    ({ op := 0x0301, req := rq (le 4 1 ++ zz 12 ++ le 4 12 ++ zz 4), resp := [], wait := .read }), (zz 12), by decide +kernel⟩,
   ⟨(flying 0x0507 (zz 16) .write), 0, ({ op := 0x0507, req := rq (zz 16), resp := [], wait := .write }), by decide +kernel⟩,
   ⟨([(9, .refused)]), ([]), 8, by decide +kernel⟩⟩

theorem witness_RingsBeginAndCount :
    (∃ (s : State) (f : Nat), f < 4 ∧ s.sys.mode.isOpen = true ∧ (s.mb f).cmd.en = false) ∧
    (∃ (s : State) (f : Nat), f < 4 ∧ s.sys.mode.isOpen = true ∧ (s.mb f).rsp.en = false) ∧
    (∃ (s : State) (f : Nat), f < 4 ∧ s.sys.mode.isOpen = true ∧ (s.mb f).evt.en = false) ∧
    (∃ (r : Ring), r.head < r.size ∧ r.tail < r.size) ∧
    (∃ (r : Ring), r.head < r.size ∧ r.tail < r.size ∧ 0 < r.free) :=
  ⟨⟨({ up with mbx := [] }), 3, by decide +kernel⟩,
   ⟨({ up with mbx := [] }), 3, by decide +kernel⟩,
   ⟨({ up with mbx := [] }), 3, by decide +kernel⟩,
   ⟨ringOn, by decide +kernel⟩,
   ⟨ringOn, by decide +kernel⟩⟩

theorem witness_SequenceAdvancesPastStepFour :
    (∃ (s : State) (f : Nat) (b : Bytes), u8 b 3 = 3 ∧ u16 b 12 ≤ 224 ∧ slotCrcOk (ringNo f 0) b = true ∧ u32 b 4 ≠ (s.mb f).cmd.seq.toNat) ∧
    (∃ (s : State) (f : Nat) (b : Bytes), u8 b 3 = 3 ∧ u16 b 12 ≤ 224 ∧ slotCrcOk (ringNo f 0) b = true ∧ u32 b 4 ≠ (s.mb f).cmd.seq.toNat ∧
      (s.mb f).flight = none ∧ (s.mb f).taken = []) :=
  ⟨⟨up, 0, (echoSlot 1), by decide +kernel⟩,
   ⟨up, 0, (echoSlot 1), by decide +kernel⟩⟩

theorem witness_ShapersAdmitAndPay :
    (∃ (s : State) (s2 : State) (port : Nat) (c : Nat) (q : Nat) (q2 : Nat) (k : Nat) (r : Rec), State.lookAt port c (s, none) q = (s2, some (k, q2, r))) ∧
    (∃ (s : State) (s2 : State) (port : Nat) (t : Nat) (c : Nat) (q : Nat) (r : Rec), s.portOk port = true ∧ ((s.at t).port port).up = true ∧
      ((s.at t).port port).en = true ∧ s.sys.mode.isOpen = true ∧ (s.at t).unitDown 9 0 = false ∧
      State.choose port [7, 6, 5, 4, 3, 2, 1, 0] (s.at t) = (s2, some (c, q, r))) ∧
    (∃ (port : Nat) (c : Nat) (q : Nat), c < 8 ∧ port < 32 ∧ 0x4000 ≤ q ∧ q < 0xC000) ∧
    (∃ (port : Nat) (c : Nat) (q : Nat) (n : _), c < 8 ∧ port < 32 ∧ 0x4000 ≤ q ∧ q < 0xC000 ∧ n ≠ classNo port c ∧ n ≠ portNo port) :=
  ⟨⟨(wired 0xF020 { Queue.init 8 0 with recs := [pkt 64] }), ((State.lookAt 0 7 (wired 0xF020 { Queue.init 8 0 with recs := [pkt 64] }, none) 0xF020).1), 0, 7, 0xF020, 0xF020, 18446744073709551615, (pkt 64), by rfl⟩,
   ⟨(wired 0xF020 { Queue.init 8 0 with recs := [pkt 64] }), ((State.choose 0 [7, 6, 5, 4, 3, 2, 1, 0] ((wired 0xF020 { Queue.init 8 0 with recs := [pkt 64] }).at 1000000000)).1), 0, 1000000000, 7, 0xF020, (pkt 64), by decide +kernel, by decide +kernel, by decide +kernel, by decide +kernel, by decide +kernel, by rfl⟩,
   ⟨31, 7, 0x4000, by decide +kernel⟩,
   ⟨31, 7, 0xBFFF, 0, by decide +kernel⟩⟩

theorem witness_DebugRegionIsClosed :
    (∃ (s : State) (fn : Nat) (off : Nat), fn < 4 ∧ 0x100000 ≤ off ∧ off < 0x200000 ∧ s.sys.unlocked = false) ∧
    (∃ (s : State) (fn : Nat) (off : Nat), fn < 4 ∧ 0x100000 ≤ off ∧ off < 0x200000 ∧ s.sys.unlocked = true ∧ s.mode ≠ .halt) :=
  ⟨⟨up, 3, 0x1FFFFC, by decide +kernel⟩,
   ⟨({ up with sys := { up.sys with unlocked := true } }), 3, 0x100000, by decide +kernel⟩⟩

theorem witness_HandlesAreChecked :
    (∃ (g : Nat) (i : Nat), g < 128 ∧ i < 2 ^ 20) ∧
    (∃ (s : State) (ty : Nat) (i : Nat), 1 ≤ ty ∧ i < quota ty ∧ s.sound = true ∧ s.objLive (okey ty i) = true) ∧
    (∃ (s : State) (t : State) (h : Nat) (key : Nat) (tys : List Nat), s.sound = true ∧ s.checkHandle h tys = .ok key ∧ t.gen key = nextGen (s.gen
      key)) ∧
    (∃ (s : State) (t : State) (ty : Nat) (i : Nat), 1 ≤ ty ∧ i < quota ty ∧ s.sound = true ∧ t = s.dying (okey ty i) ∧ s.objLive (okey ty i) = true) ∧
    (∃ (s : State) (t : State) (ty : Nat) (i : Nat), 1 ≤ ty ∧ i < quota ty ∧ s.sound = true ∧ t = s.dying (okey ty i)) ∧
    (∃ (g : _), 1 ≤ g ∧ g < 127) :=
  ⟨⟨127, 1048575, by decide +kernel⟩,
   ⟨studio, 13, 0, by decide +kernel⟩,
   ⟨studio, (studio.bumpGen (okey 13 0)), (hd 13 0), (okey 13 0), ([13]), by decide +kernel, ok_of (by decide +kernel), by decide +kernel⟩,
   ⟨studio, (studio.dying (okey 13 0)), 13, 0, by decide +kernel, by decide +kernel, by decide +kernel, rfl, by decide +kernel⟩,
   ⟨studio, (studio.dying (okey 13 0)), 13, 0, by decide +kernel, by decide +kernel, by decide +kernel, rfl⟩,
   ⟨126, by decide +kernel⟩⟩

theorem witness_FailedCommandsChangeNothing :
    (∃ (s : State) (s1 : State) (op : Nat) (len : Nat → Bool) (r : Req), s.turn op r = some s1 ∧ len r.payload.length = false) ∧
    (∃ (s : State) (s1 : State) (op : Nat) (len : Nat → Bool) (r : Req) (own : State → Eff) (st : Status) (p : Bytes), s.turn op r = some s1 ∧
      len r.payload.length = true ∧ own s1 = .fail st p) ∧
    (∃ (s : State) (s1 : State) (op : Nat) (r : Req), s.turn op r = some s1) ∧
    (∃ (s : State) (s1 : State) (op : Nat) (r : Req) (g : _), s.turn op r = some s1 ∧ g ≠ r.mbx) ∧
    (∃ (s : State) (s1 : State) (op : Nat) (r : Req), s.start op r = some s1 ∧ s.aborting r.mbx = false ∧
      (r.flags.getLsbD 0 = false ∨ (s1.mb r.mbx).outstanding = 0) ∧ 4 ≤ r.flags.toNat) :=
  ⟨⟨up, (after 0 (rq []) (up)), 0, (fun n => n == 1), (rq []), turn_after (by decide +kernel), by decide +kernel⟩,
   ⟨up, (after 0 (rq []) (up)), 0, (fun _ => true), (rq []), (fun _ => .fail .invalidArg []), .invalidArg, ([]), turn_after (by decide +kernel), by decide +kernel, rfl⟩,
   ⟨up, (after 0 (rq []) (up)), 0, (rq []), turn_after (by decide +kernel)⟩,
   ⟨up, (after 0 (rq []) (up)), 0, (rq []), 1, turn_after (by decide +kernel), by decide +kernel⟩,
   ⟨up, (((up.start 0 { rq [] with flags := 4 }).getD up)), 0, ({ rq [] with flags := 4 }), by rfl, by decide +kernel⟩⟩

theorem witness_FollowersHoldNoLease :
    (∃ (s : State) (s1 : State) (op : Nat) (entry : Nat) (len : Nat → Bool) (r : Req) (own : State → Eff), s.start op r = some s1 ∧ s.aborting r.mbx =
      false ∧ (r.flags.getLsbD 0 = false ∨ (s1.mb r.mbx).outstanding = 0) ∧ s1.critOf (namedHandles op r.payload r.tgt) = some entry ∧ s1.role =
      .trioFollower ∧ r.flags.toNat < 4 ∧ len r.payload.length = true ∧ (∀ p, own s1 ≠ .fail .staleHandle p) ∧ (∀ p, own s1 ≠ .fail .noSuchObject p) ∧
      (∀ p, own s1 ≠ .fail .badLength p)) ∧
    (∃ (s : State) (s1 : State) (r : Req) (key : Nat) (entry : Nat), s.start 0x0203 r = some s1 ∧ s.aborting r.mbx = false ∧ r.flags = 0 ∧ s1.lives
      r.tgt key 2 ∧ s1.critOf [r.tgt] = some entry ∧ s1.role = .trioFollower ∧ r.payload = []) :=
  ⟨⟨(trioed .trioFollower 6 fun t => { t with entries := [(0, entry0)] }),
    ((((trioed .trioFollower 6 fun t => { t with entries := [(0, entry0)] }).start 0x0203 (rt (hd 2 0) [])).getD up)), 0x0203, 0, (fun n => n == 0),
    (rt (hd 2 0) []), (fun _ => .fail .wrongState []), by and_intros <;> first | decide +kernel | rfl | (simp)⟩,
   ⟨(trioed .trioFollower 6 fun t => { t with entries := [(0, entry0)] }),
    ((((trioed .trioFollower 6 fun t => { t with entries := [(0, entry0)] }).start 0x0203 (rt (hd 2 0) [])).getD up)), (rt (hd 2 0) []), (okey 2 0), 0,
    by rfl, by decide +kernel, by decide +kernel, ok_of (by decide +kernel), by decide +kernel⟩⟩

end Sys2Proof.Tests
end

section
/-!
PROOFS. The turn of a command and its response: what a command that starts has changed of its mailbox, and what a response leaves
of the mailboxes (R33, R34, R40, R45).
-/

namespace Sys2Proof.Machine

/-! ### What a command that starts has changed -/

/-- The two ways a command starts: it stood at the front of those its mailbox has taken, or it is taken and started in one step. -/
theorem start_cases {s s1 : State} {op : Nat} {r : Req} (h : s.start op r = some s1) :
    (r.mbx < 5 ∧ s.sys.mode.isOpen = true ∧ (s.mb r.mbx).flight = none) ∧
    ((∃ rest, (s.mb r.mbx).taken = .run op r :: rest ∧ s1 = s.updMb r.mbx fun m => { m with taken := rest }) ∨
     ((s.mb r.mbx).taken = [] ∧ s1 = { s.countTaken r.mbx with nmc := s1.nmc })) := by
  simp only [State.start] at h
  split at h
  · cases h
  next hg =>
    have hg' : r.mbx < 5 ∧ s.sys.mode.isOpen = true ∧ (s.mb r.mbx).flight = none := by
      simp at hg; exact ⟨hg.1.1.1, hg.1.1.2, hg.1.2⟩
    refine ⟨hg', ?_⟩
    split at h
    next c rest ht =>
      split at h <;> cases h
      next hc => exact .inl ⟨rest, hc ▸ ht, rfl⟩
    next ht =>
      split at h <;> cases h
      exact .inr ⟨ht, by split <;> rfl⟩

theorem start_open {s s1 : State} {op : Nat} {r : Req} (h : s.start op r = some s1) : s.sys.mode.isOpen = true :=
  (start_cases h).1.2.1

@[simp] theorem mb_with_nmc (s : State) (n : Nmc) (f : Nat) : State.mb { s with nmc := n } f = s.mb f := rfl

/-- A command that starts leaves every other mailbox as it is. -/
theorem start_mb_other {s s1 : State} {op : Nat} {r : Req} (h : s.start op r = some s1) {g : Nat} (hg : g ≠ r.mbx) :
    s1.mb g = s.mb g := by
  obtain ⟨-, ⟨rest, -, h1⟩ | ⟨-, h1⟩⟩ := start_cases h
  · rw [h1, mb_updMb_other _ _ hg]
  · rw [h1, mb_with_nmc, State.countTaken, mb_updMb_other _ _ hg]

/-- No command of the mailbox is in flight as one starts (R45). -/
theorem start_flight {s s1 : State} {op : Nat} {r : Req} (h : s.start op r = some s1) : (s1.mb r.mbx).flight = none := by
  obtain ⟨⟨-, -, hf⟩, ⟨rest, -, h1⟩ | ⟨-, h1⟩⟩ := start_cases h
  · rw [h1, mb_updMb_same, hf]
  · rw [h1, mb_with_nmc, State.countTaken, mb_updMb_same, hf]

theorem turn_mb_other {s s1 : State} {op : Nat} {r : Req} (h : s.turn op r = some s1) {g : Nat} (hg : g ≠ r.mbx) :
    s1.mb g = s.mb g := start_mb_other (start_of_turn h) hg

/-- FENCE does not hold a command with no earlier change of its ring outstanding (R48). -/
theorem not_held {s1 : State} {r : Req} (h : r.fence = true → (s1.mb r.mbx).outstanding = 0) :
    (r.flags.getLsbD 0 && decide (0 < (s1.mb r.mbx).outstanding) && decide (r.mbx < 4)) = false := by
  show (r.fence && _ && _) = false
  cases hb : r.fence with
  | false => rfl
  | true => simp [h hb]

/-- What lets the turn of a command come once it starts: nothing aborts it, FENCE does not hold it, it names no critical object, and its
flags are defined (R45, R48, R67, R655). -/
theorem turn_of_start {s s1 : State} {op : Nat} {r : Req} (h : s.start op r = some s1) (ha : s.aborting r.mbx = false)
    (hf : r.fence = true → (s1.mb r.mbx).outstanding = 0) (hc : s1.trio.id = 0) (hfl : r.flags.toNat < 4) :
    s.turn op r = some s1 := by
  simp only [State.turn, h, ha, not_held hf, State.critOf, hc, hfl, if_true, Option.isSome_none, Bool.false_eq_true, if_false]

/-! ### What a response leaves of the mailboxes -/

/-- An interrupt leaves the mailboxes as they are, but for the pending bits of its own. -/
theorem msix_mb (s : State) (f v g : Nat) : ∃ b, (s.msix f v).mb g = { s.mb g with msixPending := b } := by
  simp only [State.msix]
  split
  · split
    · by_cases h : g = f
      · subst h; exact ⟨_, mb_setMb_same ..⟩
      · exact ⟨_, mb_setMb_other _ _ h⟩
    · exact ⟨_, rfl⟩
  · exact ⟨_, rfl⟩

/-- A response changes of the mailboxes the response ring of its own, the count to be discarded and the pending bits there. -/
theorem respond_mb (s : State) (f op : Nat) (r : Req) (st : Status) (target : Nat) (p : Bytes) :
    ∃ x d b, (s.respond f op r st target p).mb f = { s.mb f with rsp := x, drop := d, msixPending := b } := by
  simp only [State.respond]
  split
  · split
    · exact ⟨_, _, _, mb_setMb_same ..⟩
    · split
      · obtain ⟨b, hb⟩ := msix_mb ((s.setMb f { s.mb f with rsp := (s.mb f).rsp.push }).emit (.slot f 1 (s.mb f).rsp.tail
          { opcode := op, flags := (r.flags &&& 3#8).toNat, seq := (s.mb f).rsp.seq.toNat, target := target, status := st.code,
            tag := r.tag.toNat, payload := p })) f 0 f
        rw [mb_emit, mb_setMb_same] at hb
        exact ⟨_, _, b, hb⟩
      · exact ⟨_, _, _, rfl⟩
  · exact ⟨_, _, _, mb_setMb_same ..⟩

theorem respond_mb_other (s : State) {f g : Nat} (op : Nat) (r : Req) (st : Status) (target : Nat) (p : Bytes) (hg : g ≠ f) :
    (s.respond f op r st target p).mb g = s.mb g := by
  simp only [State.respond]
  split
  · split
    · exact mb_setMb_other _ _ hg
    · split
      · rw [(msix_frame ..).1 g hg, mb_emit, mb_setMb_other _ _ hg]
      · rfl
  · exact mb_setMb_other _ _ hg

@[simp] theorem respond_flight (s : State) (f op : Nat) (r : Req) (st : Status) (target : Nat) (p : Bytes) (g : Nat) :
    ((s.respond f op r st target p).mb g).flight = (s.mb g).flight := by
  by_cases h : g = f
  · subst h; obtain ⟨x, d, b, hb⟩ := respond_mb s g op r st target p; rw [hb]
  · rw [respond_mb_other _ _ _ _ _ _ h]

theorem failed_mb_other (s : State) (op : Nat) (r : Req) (st : Status) (p : Bytes) {g : Nat} (hg : g ≠ r.mbx) :
    (s.failed op r st p).mb g = s.mb g := respond_mb_other _ _ _ _ _ _ hg

/-- The slot of a response (Table 2.2). -/
def respSlot (s : State) (op : Nat) (r : Req) (st : Status) (target : Nat) (p : Bytes) : Slot :=
  { opcode := op, flags := r.flags.toNat % 4, seq := (s.mb r.mbx).rsp.seq.toNat, target := target, status := st.code,
    tag := r.tag.toNat, payload := p }

/-- A response to an enabled ring: its slot at the tail, the tail and the sequence moved on, and the interrupt (R33). -/
theorem respond_ring {s : State} {r : Req} (op : Nat) (st : Status) (target : Nat) (p : Bytes) (hf : r.mbx < 4)
    (hd : (s.mb r.mbx).drop = 0) (hen : (s.mb r.mbx).rsp.en = true) (herr : (s.mb r.mbx).rsp.err = false) :
    s.respond r.mbx op r st target p =
      ((s.setMb r.mbx { s.mb r.mbx with rsp := (s.mb r.mbx).rsp.push }).emit
        (.slot r.mbx 1 (s.mb r.mbx).rsp.tail (respSlot s op r st target p))).msix r.mbx 0 := by
  simp only [State.respond, if_pos hf, hd, Nat.lt_irrefl, if_false, hen, herr, Bool.not_false, Bool.and_self, if_true, and3, respSlot]

/-- A response in the window (R58). -/
theorem respond_window {s : State} {r : Req} (op : Nat) (st : Status) (target : Nat) (p : Bytes) (hf : 4 ≤ r.mbx) :
    s.respond r.mbx op r st target p =
      { s.setMb r.mbx { s.mb r.mbx with rsp := { (s.mb r.mbx).rsp with seq := (s.mb r.mbx).rsp.seq + 1 } } with
        nmc := { s.nmc with window := (respSlot s op r st target p).bytes 0x11, wstate := .response, attn := true } } := by
  simp only [State.respond, if_neg (Nat.not_lt.2 hf), and3, respSlot, ringNo]
  rfl

end Sys2Proof.Machine
end

section
/-!
PROOFS. Turns, answers, FENCE and failing checks (R40, R45, R48, R58, R755).
-/

namespace Sys2Proof.Machine

/-- With no fence across the mailboxes and no restart in progress nothing is aborted and nothing waits (R67). -/
theorem not_aborting {s : State} (hr : s.sys.restart = none) (hm : s.sys.marks = []) (f : Nat) : s.aborting f = false := by
  simp [State.aborting, State.behindFence, hr, hm]

theorem not_undecided {s : State} (hm : s.sys.marks = []) (f : Nat) : s.undecided f = false := by
  simp [State.undecided, State.behindFence, hm]

/-- A command at the front of those its mailbox has taken starts. -/
theorem start_front {s : State} {op : Nat} {r : Req} {rest : List Taken} (hf : r.mbx < 5) (ho : s.sys.mode.isOpen = true)
    (hfl : (s.mb r.mbx).flight = none) (hu : s.undecided r.mbx = false) (ht : (s.mb r.mbx).taken = .run op r :: rest) :
    s.start op r = some (s.updMb r.mbx fun m => { m with taken := rest }) := by
  simp [State.start, hf, ho, hfl, hu, ht, State.updMb]

/-- A command of a mailbox that has taken none is taken and started in one step. -/
theorem start_untaken {s : State} {op : Nat} {r : Req} (hf : r.mbx < 5) (ho : s.sys.mode.isOpen = true)
    (hfl : (s.mb r.mbx).flight = none) (hu : s.undecided r.mbx = false) (ht : (s.mb r.mbx).taken = []) (hc : s.canTake r.mbx = true) :
    s.start op r = some (if r.mbx < 4 then s.countTaken r.mbx else
      { s.countTaken r.mbx with nmc := { s.nmc with wstate := .busy } }) := by
  simp only [State.start, hf, ho, hfl, hu, ht, hc]
  rfl

/-- Settles O7: the start of a command changes its mailbox (and the window) alone, and nothing then keeps its turn from it. -/
theorem turnOfCommand : Obligations.TurnOfCommand := by
  unfold Obligations.TurnOfCommand
  intro s op r ho hr hm htr hfl hflags hfence
  have ha := not_aborting hr hm r.mbx
  have hu := not_undecided hm r.mbx
  refine ⟨fun hf ht hce hcerr hre hrerr hfree => ?_, fun hf ht hw hq => ?_, fun rest hf ht => ?_⟩
  · have hc : s.canTake r.mbx = true := by
      simp [State.canTake, Mailbox.rspRoom, hf, ht, hfl, hce, hcerr, hre, hrerr]; omega
    have hs := start_untaken (op := op) (by omega) ho hfl hu ht hc
    rw [if_pos hf] at hs
    refine ⟨_, turn_of_start hs ha (fun h => ?_) htr hflags, rfl, fun g hg => start_mb_other hs hg, mb_updMb_same ..⟩
    rw [State.countTaken, mb_updMb_same]; exact hfence h
  · rw [hf] at hfl hu ha hfence
    have hc : s.canTake r.mbx = true := by simp [State.canTake, hf, hw, hq]
    have hs := start_untaken (op := op) (by omega) ho (hf ▸ hfl) (hf ▸ hu) (hf ▸ ht) hc
    rw [if_neg (by omega), hf] at hs
    refine ⟨_, turn_of_start hs (hf ▸ ha) (fun h => ?_) htr hflags, rfl, rfl, fun g hg => start_mb_other hs (hf ▸ hg)⟩
    rw [hf, mb_with_nmc, State.countTaken, mb_updMb_same]; exact hfence h
  · have hs := start_front hf ho hfl hu ht
    refine ⟨_, turn_of_start hs ha (fun h => ?_) htr hflags, rfl, fun g hg => start_mb_other hs hg, mb_updMb_same ..⟩
    rw [mb_updMb_same]; exact hfence h

/-- The three answers of O8 are one response. -/
theorem answer_is_respond {s t : State} {op target : Nat} {r : Req} {p : Bytes} {st : Status}
    (h : (t = s.answered op r target p ∧ r.effect = false ∧ st = .ok) ∨ (t = s.accepted op r target p ∧ st = .ok) ∨
      (t = s.failed op r st p ∧ target = r.tgt)) : t = s.respond r.mbx op r st target p := by
  obtain ⟨rfl, he, rfl⟩ | ⟨rfl, rfl⟩ | ⟨rfl, rfl⟩ := h
  · simp [State.answered, State.finish, he]
  · rfl
  · rfl

/-- Settles O8: whichever way a command is answered, it is one `respond`, which writes one slot or counts one to be discarded. -/
theorem answerIsOneSlot : Obligations.AnswerIsOneSlot := by
  unfold Obligations.AnswerIsOneSlot
  intro s t op target r p st h
  rw [answer_is_respond h]
  refine ⟨respond_same .., fun g hg => respond_mb_other _ _ _ _ _ _ hg, fun hf hd hen herr => ?_, fun hf hd => ?_, fun hf => ?_⟩
  · rw [respond_ring op st target p hf hd hen herr]
    obtain ⟨-, hout, hrsp⟩ := msix_frame ((s.setMb r.mbx { s.mb r.mbx with rsp := (s.mb r.mbx).rsp.push }).emit
      (.slot r.mbx 1 (s.mb r.mbx).rsp.tail (respSlot s op r st target p))) r.mbx 0
    exact ⟨hout _ (.head _), by rw [hrsp, mb_emit, mb_setMb_same]; rfl⟩
  · exact respond_drop _ _ _ _ _ _ _ hf hd
  · rw [respond_window op st target p hf]
    exact ⟨rfl, rfl, rfl, rfl⟩

/-- Settles O9: FENCE puts a command in flight, FENCE_RELEASE puts it back at the front, and a command without its turn is skipped. -/
theorem fenceHoldsAndReleases : Obligations.FenceHoldsAndReleases := by
  unfold Obligations.FenceHoldsAndReleases
  refine ⟨fun r s s1 hs ha hfe hf ho => ?_, fun f x s hf hx hw ho => ?_, fun f x s hf hx hw ho => ?_, fun r s hs => ?_⟩
  · have hb : r.flags.getLsbD 0 = true := hfe
    show Host.Outcome.next (s.command 0x0000 _ r _) = _
    simp [State.command, hs, ha, hb, ho, hf, State.fly]
  · show execFenceRelease f s = _
    simp [execFenceRelease, Nat.not_le.2 hf, State.fenceRelease, hx, hw, State.fenceRelease.free, ho, State.updMb]
  · show execFenceRelease f s = _
    simp [execFenceRelease, Nat.not_le.2 hf, State.fenceRelease, hx, hw, State.fenceRelease.free, Nat.pos_iff_ne_zero.1 ho]
  · exact congrArg _ (command_no_turn hs)

/-- A command with a reserved flag set is answered INVALID_ARG before its length is looked at (step 5 of Table 2.6). -/
theorem command_bad_flags {s s1 : State} {op : Nat} {len : Nat → Bool} {r : Req} {own : State → Eff} (hs : s.start op r = some s1)
    (ha : s.aborting r.mbx = false) (hf : r.flags.getLsbD 0 = false ∨ (s1.mb r.mbx).outstanding = 0) (h4 : 4 ≤ r.flags.toNat) :
    s.command op len r own = s1.failed op r .invalidArg [] := by
  have hf' : r.fence = true → (s1.mb r.mbx).outstanding = 0 := fun h => hf.resolve_left fun h0 => by
    rw [Req.fence, h0] at h; cases h
  simp only [State.command, hs, ha, not_held hf', h4, Bool.false_eq_true, if_false, if_true, State.failed]

/-- Settles O59: each check that fails is answered by `failed`, which writes a response and nothing else. -/
theorem failedCommandsChangeNothing : Obligations.FailedCommandsChangeNothing := by
  unfold Obligations.FailedCommandsChangeNothing
  refine ⟨fun s s1 op len r own h hl => command_bad_length h hl, fun s s1 op len r own st p h hl ho => ?_,
    fun s s1 op r st p h => ⟨sameBut_trans (turn_frame h) (failed_same ..), fun g hg => ?_⟩,
    fun s s1 op len r own hs ha hf h4 => command_bad_flags hs ha hf h4⟩
  · rw [command_of_turn h hl, ho]; rfl
  · rw [failed_mb_other _ _ _ _ _ hg, turn_mb_other h hg]

end Sys2Proof.Machine
end

section
/-!
PROOFS. The rings: how many slots they hold, what a doorbell, a head write and an enable make of them, and how a slot is taken
(R29 to R32, R41, R42, R753 to R756).
-/

namespace Sys2Proof.Machine

/-! ### The slots of a ring -/

theorem Ring.size_pos (r : Ring) : 0 < r.size := Nat.two_pow_pos _

theorem Ring.filled_lt (r : Ring) : r.filled < r.size := Nat.mod_lt _ r.size_pos

/-- The filled slots counted without a remainder: the tail is ahead of the head, or has wrapped. -/
theorem Ring.filled_eq {r : Ring} (hh : r.head < r.size) (ht : r.tail < r.size) :
    r.filled = if r.head ≤ r.tail then r.tail - r.head else r.tail + r.size - r.head := by
  unfold Ring.filled
  split
  · rw [show r.tail + r.size - r.head = (r.tail - r.head) + r.size by omega, Nat.add_mod_right, Nat.mod_eq_of_lt (by omega)]
  · exact Nat.mod_eq_of_lt (by omega)

/-- The place after `i` on a ring of `n` slots. -/
theorem succ_mod_eq {i n : Nat} (h : i < n) : (i + 1) % n = if i + 1 = n then 0 else i + 1 := by
  split
  · next he => rw [he, Nat.mod_self]
  · exact Nat.mod_eq_of_lt (by omega)

@[simp] theorem Ring.push_size (r : Ring) : r.push.size = r.size := rfl

theorem Ring.push_tail_lt (r : Ring) : r.push.tail < r.push.size := Nat.mod_lt _ r.size_pos

/-- A slot filled in a ring with room counts one. -/
theorem Ring.push_filled {r : Ring} (hh : r.head < r.size) (ht : r.tail < r.size) (hr : 0 < r.free) :
    r.push.filled = r.filled + 1 := by
  have hp : r.push.tail = if r.tail + 1 = r.size then 0 else r.tail + 1 := succ_mod_eq ht
  rw [Ring.filled_eq (r := r.push) hh r.push_tail_lt]
  rw [Ring.free, Ring.filled_eq hh ht] at hr
  rw [Ring.filled_eq hh ht, hp, push_size, show r.push.head = r.head from rfl]
  split at hr <;> split <;> split <;> omega

/-- A tail one place on rings for one slot. -/
theorem Ring.next_tail_adds_one {r : Ring} (ht : r.tail < r.size) (h1 : 1 < r.size) :
    ((r.tail + 1) % r.size + r.size - r.tail) % r.size = 1 := by
  rw [succ_mod_eq ht]
  split
  · rw [show 0 + r.size - r.tail = 1 by omega, Nat.mod_eq_of_lt h1]
  · rw [show r.tail + 1 + r.size - r.tail = 1 + r.size by omega, Nat.add_mod_right, Nat.mod_eq_of_lt h1]

/-! ### Writes of a tail and of heads -/

section
variable {s : State} {f n : Nat}

theorem exec_doorbell (hf : f < 4) (l : List Bytes) : exec (.mbxCmdTailDoorbell f n l) s = .next (s.doorbell f n l) :=
  if_neg (Nat.not_le.2 hf)

theorem exec_rspHead (hf : f < 4) : exec (.mbxRspHeadWrite f n) s = .next (s.rspHead f n) := if_neg (Nat.not_le.2 hf)

theorem exec_evtHead (hf : f < 4) : exec (.mbxEvtHeadWrite f n) s = .next (s.evtHead f n) := if_neg (Nat.not_le.2 hf)

/-- A doorbell of a ring that is disabled or stopped, or past the ring, changes nothing (R753; log entry 92). -/
theorem doorbell_ignored (l : List Bytes) (h : (s.mb f).cmd.en = false ∨ (s.mb f).cmd.err = true ∨ (s.mb f).cmd.size ≤ n) :
    s.doorbell f n l = s := by
  refine if_pos ?_
  obtain h | h | h := h <;> simp [h]

/-- A tail that would pass the head stops the ring (R753). -/
theorem doorbell_overrun (l : List Bytes) (he : (s.mb f).cmd.en = true) (hr : (s.mb f).cmd.err = false) (hn : n < (s.mb f).cmd.size)
    (hfull : (s.mb f).cmd.size ≤ (s.mb f).cmd.filled + (n + (s.mb f).cmd.size - (s.mb f).cmd.tail) % (s.mb f).cmd.size) :
    s.doorbell f n l = s.updMb f fun m => { m with cmd := { m.cmd with tail := n, err := true }, rung := [] } := by
  simp only [State.doorbell, he, hr, Nat.not_le.2 hn, hfull, if_true, Bool.not_true, Bool.false_eq_true, or_self,
    if_false, State.updMb]

/-- The slots between the old tail and the new are rung for, and what may be taken is taken (R32). -/
theorem doorbell_adds {l : List Bytes} (he : (s.mb f).cmd.en = true) (hr : (s.mb f).cmd.err = false) (hn : n < (s.mb f).cmd.size)
    (hroom : (s.mb f).cmd.filled + (n + (s.mb f).cmd.size - (s.mb f).cmd.tail) % (s.mb f).cmd.size < (s.mb f).cmd.size)
    (hl : l.length = (n + (s.mb f).cmd.size - (s.mb f).cmd.tail) % (s.mb f).cmd.size) :
    s.doorbell f n l =
      State.takeMore (s.updMb f fun m => { m with cmd := { m.cmd with tail := n }, rung := m.rung ++ l.map (padTo 256) }) f := by
  rw [← hl] at hroom
  simp only [State.doorbell, he, hr, Nat.not_le.2 hn, Nat.not_le.2 hroom, Bool.not_true, Bool.false_eq_true, or_self, if_false,
    ← hl, List.take_left, State.updMb]

theorem rspHead_ignored (h : (s.mb f).rsp.en = false ∨ (s.mb f).rsp.size ≤ n) : s.rspHead f n = s := by
  refine if_pos ?_
  obtain h | h := h <;> simp [h]

theorem rspHead_taken (he : (s.mb f).rsp.en = true) (hn : n < (s.mb f).rsp.size)
    (hin : (n + (s.mb f).rsp.size - (s.mb f).rsp.head) % (s.mb f).rsp.size ≤ (s.mb f).rsp.filled) :
    s.rspHead f n = State.takeMore (s.updMb f fun m => { m with rsp := { m.rsp with head := n } }) f := by
  simp [State.rspHead, he, Nat.not_le.2 hn, Ring.headOk, hin, State.updMb]

/-- A response head that leaves the filled slots stops the ring (R754). -/
theorem rspHead_outside (he : (s.mb f).rsp.en = true) (hn : n < (s.mb f).rsp.size)
    (hout : (s.mb f).rsp.filled < (n + (s.mb f).rsp.size - (s.mb f).rsp.head) % (s.mb f).rsp.size) :
    s.rspHead f n = s.updMb f fun m => { m with rsp := { m.rsp with err := true } } := by
  simp [State.rspHead, he, Nat.not_le.2 hn, Ring.headOk, Nat.not_le.2 hout, State.updMb]

theorem evtHead_ignored (h : (s.mb f).evt.en = false ∨ (s.mb f).evt.size ≤ n) : s.evtHead f n = s := by
  refine if_pos ?_
  obtain h | h := h <;> simp [h]

theorem evtHead_taken (he : (s.mb f).evt.en = true) (hn : n < (s.mb f).evt.size)
    (hin : (n + (s.mb f).evt.size - (s.mb f).evt.head) % (s.mb f).evt.size ≤ (s.mb f).evt.filled) :
    s.evtHead f n = State.pump (s.updMb f fun m => { m with evt := { m.evt with head := n } }) f := by
  simp [State.evtHead, he, Nat.not_le.2 hn, Ring.headOk, hin, State.updMb]

/-- An event head that leaves the filled slots stops the ring (R754). -/
theorem evtHead_outside (he : (s.mb f).evt.en = true) (hn : n < (s.mb f).evt.size)
    (hout : (s.mb f).evt.filled < (n + (s.mb f).evt.size - (s.mb f).evt.head) % (s.mb f).evt.size) :
    s.evtHead f n = s.updMb f fun m => { m with evt := { m.evt with err := true } } := by
  simp [State.evtHead, he, Nat.not_le.2 hn, Ring.headOk, Nat.not_le.2 hout, State.updMb]

end

/-! ### Nothing to take, nothing to write -/

theorem takeMore_nothing {s : State} {f : Nat} (hr : (s.mb f).rung = []) (ht : (s.mb f).taken = []) :
    s.takeMore f = if s.mode.isOpen then s.updMb f fun m => { m with rung := [] } else s := by
  simp [State.takeMore, hr, State.takeRung, State.settleTaken, ht, State.flushBad]

/-- With nothing rung for and nothing taken, taking more leaves the mailbox as it is. -/
theorem takeMore_idle {s : State} {f : Nat} (hr : (s.mb f).rung = []) (ht : (s.mb f).taken = []) :
    s.takeMore f = { s with mbx := (s.takeMore f).mbx } ∧ (s.takeMore f).mb f = s.mb f := by
  rw [takeMore_nothing hr ht]
  split
  · exact ⟨rfl, by rw [mb_updMb_same, ← hr]⟩
  · exact ⟨rfl, rfl⟩

/-- With nothing waiting for room, the mailbox stays as it is. -/
theorem pump_idle {s : State} {f : Nat} (hd : (s.mb f).readyDue = false) (hh : (s.mb f).held = []) (hl : (s.mb f).lostCount = 0) :
    s.pump f = { s with mbx := (s.pump f).mbx } ∧ (s.pump f).mb f = s.mb f := by
  have hi : s.pump f = s.updMb f fun m => { m with held := [] } := by
    simp [State.pump, State.flushReady, hd, hh, State.flushHeld, State.flushLost, hl]
  rw [hi]
  exact ⟨rfl, by rw [mb_updMb_same, ← hh]⟩

/-! ### A slot taken (R40, R41) -/

theorem mb_mark (s : State) (f g : Nat) (b : Bool) : (s.mark f b).mb g = s.mb g := rfl

/-- A slot passes steps 1 to 4 of Table 2.6 exactly where these four hold. -/
theorem checkSlot_pass (f expect : Nat) (b : Bytes) : (checkSlot f expect b).2 = true ↔
    u8 b 3 = 3 ∧ u16 b 12 ≤ 224 ∧ slotCrcOk (ringNo f 0) b = true ∧ u32 b 4 = expect := by
  unfold checkSlot
  by_cases hv : u8 b 3 = 3
  · by_cases hl : u16 b 12 ≤ 224
    · cases hc : slotCrcOk (ringNo f 0) b with
      | false => simp [hv, Nat.not_lt.2 hl]
      | true =>
        by_cases hs : u32 b 4 = expect
        · simp only [hv, Nat.not_lt.2 hl, hs, hl, ne_eq, not_true_eq_false, if_false, Bool.not_true, Bool.false_eq_true, and_self, iff_true]
          repeat' split
          all_goals rfl
        · simp [hv, Nat.not_lt.2 hl, hs]
    · simp [hv, Nat.lt_of_not_le hl, hl]
  · simp [hv]

/-- A slot with another sequence than the one expected (step 4 of Table 2.6). -/
theorem checkSlot_seqGap {f expect : Nat} {b : Bytes} (hv : u8 b 3 = 3) (hl : u16 b 12 ≤ 224) (hc : slotCrcOk (ringNo f 0) b = true)
    (hs : u32 b 4 ≠ expect) : checkSlot f expect b = (.bad (u16 b 0) (slotReq f b) .seqGap (le 4 expect), false) := by
  simp [checkSlot, hv, Nat.not_lt.2 hl, hc, hs]

/-- The mailbox of a slot taken: it stands behind those taken and is counted, and the expected sequence has moved on where it passed. -/
def slotMb (m : Mailbox) (t : Taken) (pass : Bool) : Mailbox :=
  let m := { m with taken := m.taken ++ [t], nTaken := m.nTaken + 1, cmd := { m.cmd with seq := if pass then m.cmd.seq + 1 else m.cmd.seq } }
  match t with
  | .bad _ _ .badCrc _ => { m with nBadCrc := m.nBadCrc + 1 }
  | .bad _ _ .seqGap _ => { m with nSeqGap := m.nSeqGap + 1 }
  | _ => m

/-- A slot taken changes its mailbox and, where it is a fence, the marks (R67). -/
theorem takeSlot_eq {s : State} {f : Nat} {b : Bytes} {tk : Taken} {pass : Bool} (hc : checkSlot f (s.mb f).cmd.seq.toNat b = (tk, pass)) :
    s.takeSlot f b = if (s.setMb f (slotMb (s.mb f) tk pass)).fences tk then (s.setMb f (slotMb (s.mb f) tk pass)).mark f false
      else s.setMb f (slotMb (s.mb f) tk pass) := by
  simp only [State.takeSlot, hc]
  rfl

theorem slotMb_eq (m : Mailbox) (t : Taken) (pass : Bool) : ∃ c g, slotMb m t pass = { m with
    taken := m.taken ++ [t], nTaken := m.nTaken + 1, nBadCrc := c, nSeqGap := g,
    cmd := { m.cmd with seq := if pass then m.cmd.seq + 1 else m.cmd.seq } } := by
  cases t with
  | run op r => exact ⟨_, _, rfl⟩
  | bad op r st p => cases st <;> exact ⟨_, _, rfl⟩

theorem takeSlot_frame (s : State) (f : Nat) (b : Bytes) :
    s.takeSlot f b = { s with mbx := (s.takeSlot f b).mbx, sys := (s.takeSlot f b).sys } := by
  rw [takeSlot_eq (Prod.eta _).symm]
  split <;> rfl

theorem takeSlot_mb {s : State} {f : Nat} {b : Bytes} {tk : Taken} {pass : Bool} (hc : checkSlot f (s.mb f).cmd.seq.toNat b = (tk, pass)) :
    (s.takeSlot f b).mb f = slotMb (s.mb f) tk pass := by
  rw [takeSlot_eq hc]
  split
  · rw [mb_mark, mb_setMb_same]
  · exact mb_setMb_same ..

/-- A slot that fails steps 1 to 6 is no fence: taking it changes the mailboxes alone. -/
theorem takeSlot_bad {s : State} {f op : Nat} {b p : Bytes} {r : Req} {st : Status} {pass : Bool}
    (hc : checkSlot f (s.mb f).cmd.seq.toNat b = (.bad op r st p, pass)) :
    s.takeSlot f b = { s with mbx := (s.takeSlot f b).mbx } := by
  rw [takeSlot_eq hc]
  rfl

/-- A failed command alone on its mailbox is answered at once (R45). -/
theorem settleTaken_bad {s : State} {f op : Nat} {r : Req} {st : Status} {p : Bytes} (hf : (s.mb f).flight = none)
    (ht : (s.mb f).taken = [.bad op r st p]) :
    s.settleTaken f = (s.updMb f fun m => { m with taken := [] }).respond f op r st r.tgt p := by
  simp [State.settleTaken, hf, ht, State.flushBad]

theorem settleTaken_flying {s : State} {f : Nat} (h : (s.mb f).flight.isSome = true) : s.settleTaken f = s := by
  obtain ⟨x, hx⟩ := Option.isSome_iff_exists.1 h
  simp [State.settleTaken, hx]

/-- One slot rung for is taken while responses have room; with a command of the mailbox in flight it stays among the taken. -/
theorem takeMore_one {s : State} {f : Nat} {b : Bytes} (ho : s.sys.mode.isOpen = true) (hr : (s.mb f).rung = [b])
    (he : (s.mb f).cmd.en = true) (herr : (s.mb f).cmd.err = false) (hroom : (s.mb f).rspRoom = true)
    (hfl : (s.mb f).flight.isSome = true) : s.takeMore f =
      ((s.updMb f fun m => { m with cmd := { m.cmd with head := (m.cmd.head + 1) % m.cmd.size } }).takeSlot f b).updMb f
        fun m => { m with rung := [] } := by
  have htake : State.takeRung f [b] s =
      ((s.updMb f fun m => { m with cmd := { m.cmd with head := (m.cmd.head + 1) % m.cmd.size } }).takeSlot f b).updMb f
        fun m => { m with rung := [] } := by
    simp only [State.takeRung, he, herr, hroom, Bool.not_false, Bool.and_self, if_true, State.updMb]
  rw [State.takeMore, State.mode, ho, if_pos rfl, hr, htake]
  refine settleTaken_flying ?_
  rw [mb_updMb_same, takeSlot_mb (Prod.eta _).symm, mb_updMb_same]
  obtain ⟨c, g, hm⟩ := slotMb_eq { s.mb f with cmd := { (s.mb f).cmd with head := ((s.mb f).cmd.head + 1) % (s.mb f).cmd.size } }
    (checkSlot f (s.mb f).cmd.seq.toNat b).1 (checkSlot f (s.mb f).cmd.seq.toNat b).2
  exact hm ▸ hfl

/-- Settles O11: each write is one of the cases of its register's lemma above, and what goes on after it is `takeMore` or `pump`. -/
theorem ringPointersMove : Obligations.RingPointersMove := by
  unfold Obligations.RingPointersMove
  refine ⟨fun s f n l hf he hr hn hroom hl => ?_, fun s f n hf he hn hin => ?_, fun s f n hf he hn hin => ?_,
    fun s f n b x hf ho he hr hru hx hn hnext htl hroom hrsp hb tk pass hc => ?_, fun f e b hv hl hc hs => checkSlot_seqGap hv hl hc hs,
    fun s f n l hf he hr hn hfull => ?_, fun s f n hf he hn hout => ?_, fun s f n hf he hn hin hru ht => ?_,
    fun s f n hf he hn hout => ?_, fun s f n hf he hn hin hd hh hlost => ?_,
    fun s f n l hf h => ?_, fun s f n hf h => ?_, fun s f n hf h => ?_⟩
  · rw [exec_doorbell hf, doorbell_adds he hr hn hroom hl]
  · rw [exec_rspHead hf, rspHead_taken he hn hin]
  · rw [exec_evtHead hf, evtHead_taken he hn hin]
  · have hone : (n + (s.mb f).cmd.size - (s.mb f).cmd.tail) % (s.mb f).cmd.size = 1 := hnext ▸ Ring.next_tail_adds_one htl (by omega)
    have hpad : padTo 256 b = b := by simp [padTo, hb, List.take_of_length_le (Nat.le_of_eq hb)]
    have htake := takeMore_one (s := s.updMb f fun m => { m with cmd := { m.cmd with tail := n }, rung := m.rung ++ [b].map (padTo 256) })
      (f := f) (b := b) ho (by simp [hru, hpad]) (by simpa using he) (by simpa using hr) (by simpa [Mailbox.rspRoom] using hrsp) (by simp [hx])
    rw [exec_doorbell hf, doorbell_adds he hr hn (by omega) (by rw [hone]; rfl), htake]
    refine ⟨_, rfl, ?_, ?_⟩
    · rw [takeSlot_frame]; rfl
    · rw [mb_updMb_same, takeSlot_mb (tk := tk) (pass := pass) (by simpa using hc), mb_updMb_same, mb_updMb_same]
      obtain ⟨c, g, hm⟩ := slotMb_eq { s.mb f with
        cmd := { (s.mb f).cmd with tail := n, head := ((s.mb f).cmd.head + 1) % (s.mb f).cmd.size }, rung := (s.mb f).rung ++ [b].map (padTo 256) }
        tk pass
      exact hm ▸ ⟨rfl, rfl, rfl, rfl, rfl⟩
  · rw [exec_doorbell hf, doorbell_overrun l he hr hn hfull]
    exact ⟨_, rfl, by rw [mb_updMb_same], by rw [mb_updMb_same], rfl⟩
  · rw [exec_rspHead hf, rspHead_outside he hn hout]
  · rw [exec_rspHead hf, rspHead_taken he hn hin]
    obtain ⟨hs, hm⟩ := takeMore_idle (s := s.updMb f fun m => { m with rsp := { m.rsp with head := n } }) (f := f)
      (by simpa using hru) (by simpa using ht)
    exact ⟨_, rfl, by rw [hm, mb_updMb_same], hs⟩
  · rw [exec_evtHead hf, evtHead_outside he hn hout]
  · rw [exec_evtHead hf, evtHead_taken he hn hin]
    obtain ⟨hs, hm⟩ := pump_idle (s := s.updMb f fun m => { m with evt := { m.evt with head := n } }) (f := f)
      (by simpa using hd) (by simpa using hh) (by simpa using hlost)
    exact ⟨_, rfl, by rw [hm, mb_updMb_same], hs⟩
  · rw [exec_doorbell hf, doorbell_ignored l h]
  · rw [exec_rspHead hf, rspHead_ignored h]
  · rw [exec_evtHead hf, evtHead_ignored h]

/-- Settles O55: the sequence moves on exactly where the slot passes steps 1 to 4, and a gap is answered as it is found. -/
theorem sequenceAdvancesPastStepFour : Obligations.SequenceAdvancesPastStepFour := by
  unfold Obligations.SequenceAdvancesPastStepFour
  refine ⟨fun s f b => ?_, fun s f b hv hl hc hs => ?_⟩
  · obtain ⟨c, g, hm⟩ := slotMb_eq (s.mb f) (checkSlot f (s.mb f).cmd.seq.toNat b).1 (checkSlot f (s.mb f).cmd.seq.toNat b).2
    rw [takeSlot_mb (Prod.eta _).symm, hm]
    exact ite_congr (propext (checkSlot_pass ..)) (fun _ => rfl) fun _ => rfl
  · have hgap := checkSlot_seqGap hv hl hc hs
    obtain ⟨c, g, hm⟩ := slotMb_eq (s.mb f) (.bad (u16 b 0) (slotReq f b) .seqGap (le 4 (s.mb f).cmd.seq.toNat)) false
    rw [← takeSlot_mb hgap] at hm
    refine ⟨by rw [hm], fun hf ht => ⟨(s.takeSlot f b).updMb f fun m => { m with taken := [] }, ?_, ?_, ?_⟩⟩
    · rw [takeSlot_bad hgap]; rfl
    · rw [mb_updMb_same, hm]
    · exact settleTaken_bad (by rw [hm]; exact hf) (by rw [hm, ht]; rfl)

/-! ### Ring enables (Table 25.7, R755, R756) -/

section
variable {s : State} {f : Nat} (ho : s.sys.mode.isOpen = true)
include ho

theorem cmdEnable_on (he : (s.mb f).cmd.en = false) : s.cmdEnable f true = s.updMb f fun m => { m with
    rung := [], cmd := { m.cmd with en := true, head := 0, tail := 0, seq := 0, err := false } } := by
  simp [State.cmdEnable, State.mode, ho, he, State.updMb]

theorem cmdEnable_off (he : (s.mb f).cmd.en = true) : s.cmdEnable f false = s.updMb f fun m => { m with
    rung := [], cmd := { m.cmd with en := false } } := by
  simp [State.cmdEnable, State.mode, ho, he, State.updMb]

theorem rspEnable_on (he : (s.mb f).rsp.en = false) : s.rspEnable f true = State.takeMore (s.updMb f fun m => { m with
    rsp := { m.rsp with en := true, head := 0, tail := 0, seq := 0, err := false } }) f := by
  simp [State.rspEnable, State.mode, ho, he, State.updMb]

theorem rspEnable_off (he : (s.mb f).rsp.en = true) : s.rspEnable f false = s.updMb f fun m => { m with
    rsp := { m.rsp with en := false }, drop := m.taken.length + (if m.flight.isSome then 1 else 0) } := by
  simp [State.rspEnable, State.mode, ho, he, State.updMb]

theorem evtEnable_on (he : (s.mb f).evt.en = false) : s.evtEnable f true = State.pump (s.updMb f fun m => { m with
    evt := { m.evt with en := true, head := 0, tail := 0, seq := 0, err := false }, readyDue := m.readyRaised }) f := by
  simp [State.evtEnable, State.mode, ho, he, State.updMb]

theorem evtEnable_off (he : (s.mb f).evt.en = true) : s.evtEnable f false = s.updMb f fun m => { m with
    readyDue := false, evt := { m.evt with en := false } } := by
  simp [State.evtEnable, State.mode, ho, he, State.updMb]

end

/-- In a mode whose mailboxes are closed no ring is enabled or disabled (R731). -/
theorem enables_closed {s : State} (ho : s.sys.mode.isOpen = false) (f : Nat) (on : Bool) :
    s.cmdEnable f on = s ∧ s.rspEnable f on = s ∧ s.evtEnable f on = s := by
  simp [State.cmdEnable, State.rspEnable, State.evtEnable, State.mode, ho]

/-- A ring event of a function that exists is what its meaning makes of the state. -/
theorem ringEvent_next {f : Nat} (hf : f < 4) (s : State) : ringEvent f s = .next s := if_neg (Nat.not_le.2 hf)

/-- Settles O12: each enable and disable by its equation above. -/
theorem ringEnablesComplete : Obligations.RingEnablesComplete := by
  unfold Obligations.RingEnablesComplete
  refine fun s f hf => ⟨fun ho => ⟨fun he => ?_, fun he => ?_, fun he hru ht => ?_, fun he => ?_, fun he hra hh hl => ?_, fun he => ?_⟩,
    fun ho => ?_⟩
  · exact (ringEvent_next hf _).trans (congrArg _ (cmdEnable_on ho he))
  · exact (ringEvent_next hf _).trans (congrArg _ (cmdEnable_off ho he))
  · obtain ⟨hs, hm⟩ := takeMore_idle (s := s.updMb f fun m => { m with
      rsp := { m.rsp with en := true, head := 0, tail := 0, seq := 0, err := false } }) (f := f) (by simpa using hru) (by simpa using ht)
    exact ⟨_, (ringEvent_next hf _).trans (congrArg _ (rspEnable_on ho he)), hs, by rw [hm, mb_updMb_same]⟩
  · exact (ringEvent_next hf _).trans (congrArg _ (rspEnable_off ho he))
  · obtain ⟨hs, hm⟩ := pump_idle (s := s.updMb f fun m => { m with
      evt := { m.evt with en := true, head := 0, tail := 0, seq := 0, err := false }, readyDue := m.readyRaised }) (f := f)
      (by simpa using hra) (by simpa using hh) (by simpa using hl)
    exact ⟨_, (ringEvent_next hf _).trans (congrArg _ (evtEnable_on ho he)), hs, by rw [hm, mb_updMb_same]; simp only [hra]⟩
  · exact (ringEvent_next hf _).trans (congrArg _ (evtEnable_off ho he))
  · obtain ⟨hc1, hr1, he1⟩ := enables_closed ho f true
    obtain ⟨hc0, hr0, he0⟩ := enables_closed ho f false
    exact ⟨(ringEvent_next hf _).trans (congrArg _ hc1), (ringEvent_next hf _).trans (congrArg _ hc0),
      (ringEvent_next hf _).trans (congrArg _ hr1), (ringEvent_next hf _).trans (congrArg _ hr0),
      (ringEvent_next hf _).trans (congrArg _ he1), (ringEvent_next hf _).trans (congrArg _ he0)⟩

/-- Settles O54: the enables by their equations, the counts by the two ways a tail stands to its head. -/
theorem ringsBeginAndCount : Obligations.RingsBeginAndCount := by
  unfold Obligations.RingsBeginAndCount
  refine ⟨fun s f hf ho => ⟨fun he => ?_, fun he => ?_, fun he => ?_⟩, fun r hh ht => ⟨?_, ?_, ?_, fun hr => ?_⟩⟩
  · exact (ringEvent_next hf _).trans (congrArg _ (cmdEnable_on ho he))
  · exact (ringEvent_next hf _).trans (congrArg _ (rspEnable_on ho he))
  · exact (ringEvent_next hf _).trans (congrArg _ (evtEnable_on ho he))
  · rw [Ring.filled_eq hh ht]; split <;> omega
  · rw [Ring.free, Ring.filled_eq hh ht, succ_mod_eq ht]; split <;> split <;> omega
  · exact Nat.le_sub_one_of_lt r.filled_lt
  · exact ⟨Ring.push_filled hh ht hr, r.push_tail_lt⟩

end Sys2Proof.Machine
end

section
/-!
PROOFS. The system commands (R65, R66, R119, R715), MSI-X, and the resets of a PCIe function (R70, R691, R757).
-/

namespace Sys2Proof.Machine

/-! ### A command whose own part completes at once -/

/-- A command whose turn has come and whose own part is done is answered OK in the state its own part leaves. -/
theorem exec_answered {s s1 t : State} {op target : Nat} {len : Nat → Bool} {r : Req} {own : State → Eff} {p : Bytes}
    (h : s.turn op r = some s1) (hl : len r.payload.length = true) (ho : own s1 = .done p target t) :
    Host.Outcome.next (φ := Fault) (ρ := Refusal) (s.command op len r own) = .next (t.answered op r target p) := by
  rw [command_of_turn h hl, ho]
  rfl

/-- A target that is null passes its check (step 1 of Table 3.3). -/
theorem nullTarget_null {r : Req} (h : r.target = 0) (k : Eff) : nullTarget r k = k := by simp [nullTarget, h]

/-! ### Fields of a run of bytes -/

/-- A field past a prefix is read from what follows it. -/
theorem fld_append {a x : Bytes} {i j k : Nat} (h : a.length + j = i) : fld (a ++ x) i k = fld x j k := by
  rw [fld, fld, ← h, List.drop_append, List.drop_eq_nil_of_le (by omega), List.nil_append, show a.length + j - a.length = j by omega]

/-- The first field reads what was written there. -/
theorem fld_le (k n : Nat) (x : Bytes) : fld (le k n ++ x) 0 k = n % 256 ^ k := by
  rw [fld, List.drop_zero, List.take_left' (le_length k n), unle_le]

/-- The response of SysIdentify says JCI version 3.1 and stepping B1 in 32 bytes (Table 2.12). -/
theorem identify_fields (s : State) (f : Nat) : (s.identify f).length = 32 ∧ u16 (s.identify f) 0 = 3 ∧ u16 (s.identify f) 2 = 1 ∧
    u16 (s.identify f) 8 = 0x00B1 := by
  refine ⟨by simp [State.identify], ?_, ?_, ?_⟩ <;> simp only [State.identify, List.append_assoc, u16]
  · exact fld_le ..
  · exact (fld_append (j := 0) (by simp)).trans (fld_le ..)
  · exact (fld_append (j := 6) (by simp)).trans ((fld_append (j := 4) (by simp)).trans ((fld_append (j := 0) (by simp)).trans (fld_le ..)))

/-- Settles O10: each own part is done at once; what it answers is read off its definition. -/
theorem systemCommandsComplete : Obligations.SystemCommandsComplete := by
  unfold Obligations.SystemCommandsComplete
  refine ⟨fun r s s1 h ht => ?_, fun r s s1 h ht hp => ?_, fun r s s1 h ht hp hm => ?_, fun r s s1 m h ht hp hm hrem => ?_,
    fun r s s1 h ht hp hm hz => ?_, fun r s s1 h ht hp => ?_, fun r s s1 h ht hp hz hb => ?_⟩
  · exact exec_answered h rfl (nullTarget_null ht _)
  · exact ⟨exec_answered h (by rw [hp]; rfl) (nullTarget_null ht _), identify_fields ..⟩
  · refine exec_answered h (by rw [hp]; rfl) ((nullTarget_null ht _).trans ?_)
    rw [State.shedBack, if_neg hm]; rfl
  · refine exec_answered h (by rw [hp]; rfl) ((nullTarget_null ht _).trans ?_)
    rw [State.shedBack, if_pos hm, hrem]; rfl
  · refine exec_answered h (by rw [hp]; rfl) ((nullTarget_null ht _).trans ?_)
    rw [hm, hz]; rfl
  · exact exec_answered h (by rw [hp]; rfl) (nullTarget_null ht _)
  · refine exec_answered h (by rw [hp]; rfl) ((nullTarget_null ht _).trans ?_)
    rw [hb, hz]; rfl

/-! ### MSI-X (R757) -/

/-- The bit of a vector is set in its mask. -/
theorem vectorBit_self {v : Nat} (hv : v < 4) : (BitVec.ofNat 4 (2 ^ v)).getLsbD v = true := by
  rw [BitVec.getLsbD_ofNat, Nat.testBit_two_pow_self, decide_eq_true hv, Bool.and_self]

/-- The message of one vector sent where it is pending and no mask holds it. -/
def State.sendPending (f : Nat) (s : State) (v : Nat) : State :=
  let m := s.mb f
  if m.msixPending.getLsbD v && !m.msixFnMask && !m.msixMask.getLsbD v then
    (s.setMb f { m with msixPending := m.msixPending &&& ~~~(BitVec.ofNat 4 (2 ^ v)) }).emit (.msix f v)
  else s

theorem unmask_vector (s : State) (f v : Nat) : s.unmask f (some v) = [0, 1, 2, 3].foldl (State.sendPending f)
    (s.updMb f fun m => { m with msixMask := m.msixMask &&& ~~~(BitVec.ofNat 4 (2 ^ v)) }) := rfl

theorem sendPending_none {s : State} {f v : Nat} (h : (s.mb f).msixPending.getLsbD v = false) : s.sendPending f v = s := by
  simp [State.sendPending, h]

theorem exec_unmask {s : State} {f v : Nat} (hf : f < 4) (hv : v < 4) : exec (.msixVectorUnmask f (some v)) s = .next (s.unmask f (some v)) :=
  if_neg (by rw [Option.getD_some]; omega)

/-- With no pending bit nothing is sent. -/
theorem sendPending_all_none {s : State} {f : Nat} (h : (s.mb f).msixPending = 0) (l : List Nat) : l.foldl (State.sendPending f) s = s := by
  induction l with
  | nil => rfl
  | cons v l ih => rw [List.foldl_cons, sendPending_none (by simp [h]), ih]

/-- The message of the one vector that is pending and unmasked, its pending bit cleared. -/
theorem sendPending_one {s : State} {f v : Nat} (hv : v < 4) (hp : (s.mb f).msixPending = BitVec.ofNat 4 (2 ^ v))
    (hm : (s.mb f).msixFnMask = false) (hv' : (s.mb f).msixMask.getLsbD v = false) :
    [0, 1, 2, 3].foldl (State.sendPending f) s = (s.updMb f fun m => { m with msixPending := 0 }).emit (.msix f v) := by
  have hbit (w : Nat) (hw : w ≠ v) : (s.mb f).msixPending.getLsbD w = false := by
    rw [hp, BitVec.getLsbD_ofNat, Nat.testBit_two_pow_of_ne (Ne.symm hw), Bool.and_false]
  have hself : (s.mb f).msixPending.getLsbD v = true := hp ▸ vectorBit_self hv
  have hsend : s.sendPending f v = (s.updMb f fun m => { m with msixPending := 0 }).emit (.msix f v) := by
    simp only [State.sendPending, hself, hm, hv', Bool.not_false, Bool.and_self, if_true, State.updMb, ← hp, BitVec.and_not_self]
  have hrest (l : List Nat) := sendPending_all_none (s := (s.updMb f fun m => { m with msixPending := 0 }).emit (.msix f v)) (f := f)
    (by rw [mb_emit, mb_updMb_same]) l
  have skip (l : List Nat) (h : v ∈ l) (hn : l.Nodup) :
      l.foldl (State.sendPending f) s = (s.updMb f fun m => { m with msixPending := 0 }).emit (.msix f v) := by
    induction l with
    | nil => cases h
    | cons w l ih =>
      by_cases hw : w = v
      · rw [List.foldl_cons, hw, hsend, hrest]
      · rw [List.foldl_cons, sendPending_none (hbit w hw), ih ((List.mem_cons.1 h).resolve_left (Ne.symm hw)) hn.of_cons]
  exact skip _ (by simp; omega) (by decide)

/-! ### Resets of a PCIe function (R70, R691) -/

theorem hring_setHring_other (s : State) {f d g e : Nat} (h : HostRing) (hne : 2 * g + e ≠ 2 * f + d) :
    (s.setHring f d h).hring g e = s.hring g e := tget_tset_other _ _ _ hne

/-- The mailbox of a function after its reset (Table 25.6). -/
def hotMb (m : Mailbox) : Mailbox :=
  { m with
    cmd := Mailbox.init.cmd, rsp := Mailbox.init.rsp, evt := Mailbox.init.evt, ie := Mailbox.init.ie, heartbeat := Mailbox.init.heartbeat
    rung := [], taken := [], readyDue := false, drop := if m.flight.isSome then 1 else 0
    msixMask := Mailbox.init.msixMask, msixFnMask := false, msixPending := 0, msixTable := [] }

/-- What the reset of a function changes: its mailbox, the host rings, the fences and the CRC units. -/
theorem hotReset_frame (s : State) (f : Nat) : s.hotReset f = { s.setMb f (hotMb (s.mb f)) with
    net := (s.hotReset f).net, crc := (s.hotReset f).crc
    sys := { s.sys with marks := (s.hotReset f).sys.marks, aborts := (s.hotReset f).sys.aborts } } := rfl

theorem hotReset_mb_same (s : State) (f : Nat) : (s.hotReset f).mb f = hotMb (s.mb f) := by
  rw [hotReset_frame]; exact mb_setMb_same ..

theorem hotReset_mb_other (s : State) {f g : Nat} (h : g ≠ f) : (s.hotReset f).mb g = s.mb g := by
  rw [hotReset_frame]; exact mb_setMb_other _ _ h

/-- The host rings of the function are disabled. -/
theorem hotReset_hring (s : State) (f : Nat) : ((s.hotReset f).hring f 0).en = false ∧ ((s.hotReset f).hring f 1).en = false := by
  refine ⟨?_, congrArg HostRing.en (setHring_hring ..)⟩
  exact congrArg HostRing.en ((hring_setHring_other _ _ (by omega)).trans (setHring_hring ..))

/-- No CRC unit is the function's any more (R684). -/
theorem crcReleaseAll_owner (s : State) {c u : Nat} {x : CrcUnit} (hc : c ≠ 0) (h : tget? (s.crcReleaseAll c).crc u = some x) : x.owner ≠ c := by
  rw [State.crcReleaseAll, tget?_tmap, Option.map_eq_some_iff] at h
  obtain ⟨y, -, rfl⟩ := h
  split
  · exact Ne.symm hc
  · assumption

/-- The rings of a function are disabled and its PERST_N has not been released. -/
def State.fnDown (s : State) (f : Nat) : Prop :=
  ((s.mb f).cmd.en = false ∧ (s.mb f).rsp.en = false ∧ (s.mb f).evt.en = false) ∧ tget true s.sys.perst f = false

/-- PERST_N of one function taken low (R691). -/
def State.perstLow (s : State) (f : Nat) : State := (s.hotReset f).updSys fun x => { x with perst := tset x.perst f false }

theorem perstLow_same (s : State) (f : Nat) : (s.perstLow f).fnDown f := by
  have hm : (s.perstLow f).mb f = hotMb (s.mb f) := hotReset_mb_same s f
  exact ⟨by rw [hm]; exact ⟨rfl, rfl, rfl⟩, tget_tset_same ..⟩

theorem perstLow_keeps {s : State} {f g : Nat} (h : s.fnDown g) : (s.perstLow f).fnDown g := by
  by_cases hg : g = f
  · exact hg ▸ perstLow_same ..
  · have hm : (s.perstLow f).mb g = s.mb g := hotReset_mb_other s hg
    exact ⟨by rw [hm]; exact h.1, (tget_tset_other _ _ _ hg).trans h.2⟩

/-- PERST_N of each function of a list taken low leaves them all down. -/
theorem perstLow_all (l : List Nat) (s : State) (f : Nat) (h : f ∈ l ∨ s.fnDown f) : (l.foldl State.perstLow s).fnDown f := by
  induction l generalizing s with
  | nil => exact h.resolve_left List.not_mem_nil
  | cons g l ih =>
    refine ih _ ?_
    obtain h | h := h
    · obtain rfl | h := List.mem_cons.1 h
      · exact .inr (perstLow_same ..)
      · exact .inl h
    · exact .inr (perstLow_keeps h)

/-- Settles O16: a vector unmasked sends what is pending alone; the reset of a function by its frame, of all four by one fold. -/
theorem pcieFunctionsReset : Obligations.PcieFunctionsReset := by
  unfold Obligations.PcieFunctionsReset
  refine ⟨fun s f v hf hv hp => ?_, fun s f v hf hv hp hm => ?_, fun s f hf => ?_, fun s => ?_, fun s => rfl⟩
  · rw [exec_unmask hf hv, unmask_vector, sendPending_all_none (by rw [mb_updMb_same]; exact hp)]
  · rw [exec_unmask hf hv, unmask_vector, sendPending_one hv (by rw [mb_updMb_same]; exact hp) (by rw [mb_updMb_same]; exact hm)]
    · refine ⟨_, rfl, rfl, ?_, ?_, fun g hg => ?_⟩
      · rw [mb_emit, mb_updMb_same]
      · rw [mb_emit, mb_updMb_same, mb_updMb_same]
      · rw [mb_emit, mb_updMb_other _ _ hg, mb_updMb_other _ _ hg]
    · rw [mb_updMb_same, BitVec.getLsbD_and, BitVec.getLsbD_not, vectorBit_self hv, Bool.not_true, Bool.and_false, Bool.and_false]
  · have hm := hotReset_mb_same s f
    obtain ⟨h0, h1⟩ := hotReset_hring s f
    refine ⟨_, ringEvent_next hf _, ?_, ?_, ?_, ?_, ?_, ?_, ?_, ?_, ?_, fun g hg => hotReset_mb_other s hg, h0, h1,
      fun u x hx => crcReleaseAll_owner _ (Nat.succ_ne_zero f) hx, rfl, rfl⟩ <;> rw [hm] <;> rfl
  · have hall := perstLow_all [0, 1, 2, 3] s
    have hin (f : Nat) (hf : f < 4) : f ∈ [0, 1, 2, 3] := by simp; omega
    exact ⟨_, rfl, fun f hf => (hall f (.inl (hin f hf))).1, fun f hf => (hall f (.inl (hin f hf))).2⟩

end Sys2Proof.Machine
end

section
/-!
PROOFS. Chain frames that a device acts on, forwards or finds spoilt (R623 to R628, Tables 20.1 and 20.2).
-/

namespace Sys2Proof.Machine

/-! ### Bytes written into a frame -/

theorem poke_length {b v : Bytes} {i : Nat} (h : i + v.length ≤ b.length) : (poke b i v).length = b.length := by
  simp [poke]; omega

/-- Bytes behind those written are as they were. -/
theorem u8_poke_after {b v : Bytes} {i j : Nat} (hi : i ≤ b.length) (hj : i + v.length ≤ j) : u8 (poke b i v) j = u8 b j := by
  have hl : (b.take i ++ v).length = i + v.length := by simp [hi]
  simp only [u8, poke, List.getD_eq_getElem?_getD]
  rw [List.getElem?_append_right (by omega), hl, List.getElem?_drop, show i + v.length + (j - (i + v.length)) = j by omega]

theorem withData_same (f : Bytes) : withData f (chainData f) = f := if_pos rfl

/-- New data of the same length leave the status byte of a frame as it is. -/
theorem withData_status {f d : Bytes} (hl : f.length = 8 + chainLen f) (hd : d.length = chainLen f) :
    u8 (withData f d) (6 + chainLen f) = u8 f (6 + chainLen f) := by
  unfold withData
  split
  · rfl
  · rw [u8_poke_after (by rw [poke_length (by omega)]; omega) (by rw [List.length_singleton]; omega), u8_poke_after (by omega) (by omega)]

/-! ### A frame acted on -/

theorem chainActs_iff {s : State} {cmd : Nat} {bcast : Bool} {lenOk : Nat → Bool} {f : Bytes} (h : s.chainActs cmd bcast lenOk f = true) :
    s.sys.mode ≠ .reset ∧ u8 f 0 = 0x5A ∧ f.length = 8 + chainLen f ∧ u8 f 1 / 32 = cmd ∧
    (if bcast then u8 f 1 % 32 = 0 else u8 f 1 % 32 ≠ 0 ∧ u8 f 1 % 32 = s.nmc.addr) ∧ fcrcOk f = true ∧ lenOk (chainLen f) = true ∧
    u8 f 2 + chainLen f ≤ 256 := by
  simp only [State.chainActs, Bool.and_eq_true, bne_iff_ne, beq_iff_eq, decide_eq_true_eq] at h
  obtain ⟨⟨⟨⟨⟨⟨⟨hm, h0⟩, hl⟩, hc⟩, ha⟩, hf⟩, hn⟩, hb⟩ := h
  refine ⟨hm, h0, hl, hc, ?_, hf, hn, hb⟩
  cases bcast <;> simpa using ha

/-- A frame for the device alone: what the act gives, its status written (R625, R626). -/
theorem chainFrame_unicast {s t : State} {cmd st : Nat} {lenOk : Nat → Bool} {f d : Bytes} {act : State → Bytes → State × Bytes × Nat}
    (h : s.chainActs cmd false lenOk f = true) (ha : act s.chainCounted (chainData f) = (t, d, st)) :
    s.chainFrame cmd false lenOk f act = t.emit (.chain (withStatus (withData f d) st)) := by
  obtain ⟨hm, h0, hl, hc, ⟨hz, hadr⟩, hf, hn, hb⟩ := chainActs_iff h
  have hz' : (u8 f 1 % 32 == 0) = false := beq_false_of_ne hz
  have hact : act (s.updNmc fun x => { x with acted := x.acted + 1 }) (chainData f) = (t, d, st) := ha
  simp only [State.chainFrame, if_neg hm, h0, ← hl, hc, ← hadr, hf, hn, hz', Nat.not_lt.2 hb, hact, ne_eq, not_true_eq_false, and_false,
    or_self, if_false, Bool.not_true, Bool.false_eq_true, bne_self_eq_false, decide_false, Bool.or_self, hz, not_false_eq_true, true_or, if_true]

/-- The same where the act leaves the data as they came. -/
theorem chainFrame_unicast_same {s t : State} {cmd st : Nat} {lenOk : Nat → Bool} {f : Bytes} {act : State → Bytes → State × Bytes × Nat}
    (h : s.chainActs cmd false lenOk f = true) (ha : act s.chainCounted (chainData f) = (t, chainData f, st)) :
    s.chainFrame cmd false lenOk f act = t.emit (.chain (withStatus f st)) := by
  rw [chainFrame_unicast h ha, withData_same]

/-- A broadcast frame: what the act gives, its status written only where it fails and none is written yet (Table 20.2). -/
theorem chainFrame_bcast {s t : State} {cmd st : Nat} {lenOk : Nat → Bool} {f d : Bytes} {act : State → Bytes → State × Bytes × Nat}
    (h : s.chainActs cmd true lenOk f = true) (ha : act s.chainCounted (chainData f) = (t, d, st)) :
    s.chainFrame cmd true lenOk f act = t.emit (.chain (if st ≠ 0 ∧ u8 (withData f d) (6 + chainLen f) = 0xFF
      then withStatus (withData f d) st else withData f d)) := by
  obtain ⟨hm, h0, hl, hc, hz, hf, hn, hb⟩ := chainActs_iff h
  have hz : u8 f 1 % 32 = 0 := hz
  have hact : act (s.updNmc fun x => { x with acted := x.acted + 1 }) (chainData f) = (t, d, st) := ha
  simp only [State.chainFrame, if_neg hm, h0, ← hl, hc, hf, hn, hz, Nat.not_lt.2 hb, hact, ne_eq, not_true_eq_false, false_and,
    or_self, if_false, Bool.not_true, Bool.false_eq_true, bne_self_eq_false, decide_false, Bool.or_self, beq_self_eq_true, false_or]
  split <;> rfl

/-- A broadcast frame whose act succeeds goes on with its data and no status. -/
theorem chainFrame_bcast_ok {s t : State} {cmd : Nat} {lenOk : Nat → Bool} {f d : Bytes} {act : State → Bytes → State × Bytes × Nat}
    (h : s.chainActs cmd true lenOk f = true) (ha : act s.chainCounted (chainData f) = (t, d, 0)) :
    s.chainFrame cmd true lenOk f act = t.emit (.chain (withData f d)) := by
  rw [chainFrame_bcast h ha, if_neg (fun h => h.1 rfl)]

theorem chainFrame_bcast_same {s t : State} {cmd : Nat} {lenOk : Nat → Bool} {f : Bytes} {act : State → Bytes → State × Bytes × Nat}
    (h : s.chainActs cmd true lenOk f = true) (ha : act s.chainCounted (chainData f) = (t, chainData f, 0)) :
    s.chainFrame cmd true lenOk f act = t.emit (.chain f) := by
  rw [chainFrame_bcast_ok h ha, withData_same]

/-- A frame for another device is forwarded as it came (R623). -/
theorem chainFrame_other {s : State} {f : Bytes} (hm : s.sys.mode ≠ .reset) (hz : u8 f 1 % 32 ≠ 0) (ha : u8 f 1 % 32 ≠ s.nmc.addr)
    (cmd : Nat) (bcast : Bool) (lenOk : Nat → Bool) (act : State → Bytes → State × Bytes × Nat) :
    s.chainFrame cmd bcast lenOk f act = s.emit (.chain f) := by
  simp only [State.chainFrame, if_neg hm, hz, ha, ne_eq, not_false_eq_true, and_self, or_true, if_true]

/-- A frame for the device whose FCRC does not match is counted and answered with status 1 (R624). -/
theorem chainFrame_badFcrc {s : State} {f : Bytes} {cmd : Nat} (hm : s.sys.mode ≠ .reset) (h0 : u8 f 0 = 0x5A)
    (hl : f.length = 8 + chainLen f) (hc : u8 f 1 / 32 = cmd) (hz : u8 f 1 % 32 ≠ 0) (ha : u8 f 1 % 32 = s.nmc.addr) (hf : fcrcOk f = false)
    (bcast : Bool) (lenOk : Nat → Bool) (act : State → Bytes → State × Bytes × Nat) :
    s.chainFrame cmd bcast lenOk f act =
      State.emit (s.updNmc fun x => { x with fcrcErr := if x.fcrcErr = 0xFFFF then 0xFFFF else x.fcrcErr + 1 }) (.chain (withStatus f 1)) := by
  simp only [State.chainFrame, if_neg hm, h0, ← hl, hc, ← ha, hf, ne_eq, not_true_eq_false, and_false, or_self, if_false, Bool.not_false,
    if_true, hz, not_false_eq_true, true_or]

/-- Settles O49: a frame acted on is one of the two answers above, of what its command's act gives. -/
theorem chainFramesComplete : Obligations.ChainFramesComplete := by
  unfold Obligations.ChainFramesComplete
  refine ⟨fun f s h hlk h1 h31 => ?_, fun f s h hlk hc => ?_, fun f s h hlk h7 => ?_, fun f s h hw => ?_, fun f s h hw => ?_, fun f s h => ?_,
    fun f s h hgo hw ho => ?_, fun f s h hgo hw => ?_, fun f s h hack hw => ?_, fun f s h hack hw => ?_, fun f s h ha => ?_,
    fun f s h ha => ?_, fun f s h => ?_, fun f s hm hz ha => ?_, fun f s hm h0 hl hc hz ha hf => ?_⟩
  · refine congrArg Host.Outcome.next (chainFrame_bcast_ok h ?_)
    have hne : (u8 (chainData f) 0 != 0) = true := by simp; omega
    have hlk' : s.chainCounted.addrLocked = false := hlk
    simp only [hlk', h1, h31, and_self, if_true, Bool.false_eq_true, if_false, hne]
  · refine congrArg Host.Outcome.next (chainFrame_bcast_same h ?_)
    have hne : ¬(1 ≤ u8 (chainData f) 0 ∧ u8 (chainData f) 0 ≤ 31) := by omega
    have hlk' : s.chainCounted.addrLocked = false := hlk
    simp only [hlk', hne, Bool.false_eq_true, if_false, bne_self_eq_false]
  · obtain ⟨-, -, hl, -, -, -, hn, -⟩ := chainActs_iff h
    have hn : chainLen f = 1 := by simpa using hn
    have hlk' : s.chainCounted.addrLocked = true := hlk
    refine (congrArg Host.Outcome.next (chainFrame_bcast h (by simp only [hlk', if_true]; rfl))).trans ?_
    have hd : (if 1 ≤ u8 (chainData f) 0 ∧ u8 (chainData f) 0 ≤ 31 then le 1 (u8 (chainData f) 0 + 1) else chainData f).length = chainLen f := by
      split
      · rw [le_length, hn]
      · simp [chainData, hl]; omega
    rw [withData_status hl hd, if_pos ⟨by decide, by rw [hn]; exact h7⟩]
  · exact congrArg Host.Outcome.next (chainFrame_unicast_same h (if_pos hw))
  · exact congrArg Host.Outcome.next (chainFrame_unicast_same h (if_neg hw))
  · exact congrArg Host.Outcome.next (chainFrame_unicast h rfl)
  · have ho' : (!s.chainCounted.mode.isOpen) = false := by rw [show s.chainCounted.mode.isOpen = true from ho]; rfl
    exact (if_neg (not_not_intro hgo)).trans (congrArg Host.Outcome.next (chainFrame_unicast_same h
      ((if_neg (not_not_intro hw)).trans (if_neg (by rw [ho']; decide)))))
  · exact (if_neg (not_not_intro hgo)).trans (congrArg Host.Outcome.next (chainFrame_unicast_same h (if_pos hw)))
  · exact (if_pos hack).trans (congrArg Host.Outcome.next (chainFrame_unicast_same h (if_pos hw)))
  · have hw' : ¬(s.nmc.wstate = .response ∨ s.nmc.wstate = .event) := by obtain hw | hw := hw <;> simp [hw]
    exact (if_pos hack).trans (congrArg Host.Outcome.next (chainFrame_unicast_same h (if_neg hw')))
  · exact congrArg Host.Outcome.next (chainFrame_bcast_ok h (by rw [show s.chainCounted.nmc.attn = true from ha]; rfl))
  · refine congrArg Host.Outcome.next (chainFrame_bcast_same h ?_)
    rw [show s.chainCounted.nmc.attn = false from ha]; rfl
  · exact congrArg Host.Outcome.next (chainFrame_unicast h rfl)
  · exact ⟨congrArg Host.Outcome.next (chainFrame_other hm hz ha ..), congrArg Host.Outcome.next (chainFrame_other hm hz ha ..),
      congrArg Host.Outcome.next (chainFrame_other hm hz ha ..)⟩
  · exact congrArg Host.Outcome.next (chainFrame_badFcrc hm h0 hl hc hz ha hf ..)

end Sys2Proof.Machine
end

section
/-!
PROOFS. The media restart and the resets (R67 to R69, R77, R629, R717 to R729, R777).
-/

namespace Sys2Proof.Machine

/-! ### What aborting and answering commands changes -/

/-- Two states differ at most in their mailboxes, their window, what was put out, and the restart and the fences. -/
def State.restartOnly (s t : State) : Prop :=
  t = { s with mbx := t.mbx, nmc := t.nmc, out := t.out,
               sys := { s.sys with restart := t.sys.restart, marks := t.sys.marks, aborts := t.sys.aborts } }

theorem restartOnly_of_same {s t : State} (h : s.sameBut t) : s.restartOnly t := by
  unfold State.sameBut at h
  unfold State.restartOnly
  rw [h]

theorem restartOnly_trans {a b c : State} (h : a.restartOnly b) (k : b.restartOnly c) : a.restartOnly c := by
  unfold State.restartOnly at *
  rw [k, h]

section
variable {s t : State} (h : s.restartOnly t)
include h

theorem restartOnly_mode : t.mode = s.mode := by unfold State.restartOnly at h; rw [h]; rfl
theorem restartOnly_objs : t.objs = s.objs := by unfold State.restartOnly at h; rw [h]
theorem restartOnly_gens : t.gens = s.gens := by unfold State.restartOnly at h; rw [h]
theorem restartOnly_nvm : t.nvm = s.nvm := by unfold State.restartOnly at h; rw [h]
theorem restartOnly_retained : t.retained = s.retained := by unfold State.restartOnly at h; rw [h]
theorem restartOnly_bkp : t.bkp = s.bkp := by unfold State.restartOnly at h; rw [h]

end

theorem countAborts_only (s : State) (n : Nat) : s.restartOnly (s.countAborts n) := by
  simp only [State.countAborts]
  split
  · rfl
  · split <;> rfl

theorem countAborts_isSome (s : State) (n : Nat) : (s.countAborts n).sys.restart.isSome = s.sys.restart.isSome := by
  simp only [State.countAborts]
  split
  · next h => rw [h]; rfl
  · split <;> rfl

theorem abortAll_same (s : State) (f : Nat) : s.sameBut (s.abortAll f) := by
  simp only [State.abortAll]
  refine sameBut_trans (b := State.updMb _ f fun m => { m with taken := [] }) ?_ (foldl_same _ (fun s t => ?_) _ _)
  · refine sameBut_trans ?_ (updMb_same ..)
    split
    · exact sameBut_trans (updMb_same ..) (respond_same ..)
    · rfl
  · cases t <;> exact respond_same ..

theorem abortOf_only (s : State) (l : List Nat) : s.restartOnly (s.abortOf l) :=
  restartOnly_trans (restartOnly_of_same (foldl_same _ abortAll_same l s)) (countAborts_only ..)

theorem abortOf_isSome (s : State) (l : List Nat) : (s.abortOf l).sys.restart.isSome = s.sys.restart.isSome := by
  have h : s.sameBut (l.foldl (fun s f => s.abortAll f) s) := foldl_same _ abortAll_same l s
  unfold State.sameBut at h
  rw [State.abortOf, countAborts_isSome, h]

theorem finish_done_same (s t : State) (op target : Nat) (r : Req) (p : Bytes) : t.sameBut (s.finish op r (.done p target t)) :=
  answered_same t op r target p

theorem restartAnswer_same (s : State) (f : Nat) : s.sameBut (s.restartAnswer f) := by
  unfold State.restartAnswer
  split
  · exact sameBut_trans (updMb_same ..) (finish_done_same ..)
  · rfl

theorem readyAgain_same (s : State) (f : Nat) (n : Bytes) : s.sameBut (s.readyAgain f n) := by
  simp only [State.readyAgain]
  have hr := sameBut_trans (updMb_same s f fun m => { m with readyRaised := true, readyDue := f == 4 || (s.mb f).evt.en }) (flushReady_same _ f)
  refine sameBut_trans hr ?_
  repeat' split
  · rfl
  · exact sameBut_trans (sameBut_trans (writeEvents_same ..) (updMb_same ..)) (pump_same ..)
  · exact setMb_same ..
  · exact sameBut_trans (dropEvent_same ..) (updMb_same ..)

/-! ### A fence across the mailboxes carried out (R67) -/

theorem mb_beginFence (s : State) (f g : Nat) : (s.beginFence f).mb g = s.mb g := by
  unfold State.beginFence
  split <;> rfl

theorem beginFence_only (s : State) (f : Nat) : s.restartOnly (s.beginFence f) := by
  unfold State.beginFence
  split <;> rfl

/-- A command that waits for the others to drain, alone outstanding: nothing is left to drain. -/
theorem drained_alone {s : State} {f : Nat} (hf : (s.mb f).draining = true)
    (ho : ∀ g, g < 5 → g ≠ f → (s.mb g).flight = none ∧ (s.mb g).taken = []) : s.drained? = true := by
  rw [State.drained?, List.all_eq_true]
  intro g hg
  by_cases h : g = f
  · rw [h, hf, Bool.true_or]
  · obtain ⟨hfl, ht⟩ := ho g (by simp at hg; omega) h
    rw [hfl, ht]; simp

theorem fly_same (s : State) (op : Nat) (r : Req) (w : Wait) (p : Bytes) : s.sameBut (s.fly op r w p) := rfl

/-- The state in which a SystemReset or MediaRestart waits for what was taken before it. -/
def State.draining (s : State) (op : Nat) (r : Req) : State := (s.beginFence r.mbx).fly op r .drain []

theorem draining_flight (s : State) (op : Nat) (r : Req) :
    ((s.draining op r).mb r.mbx).flight = some { op := op, req := r, resp := [], wait := .drain } := by
  rw [State.draining, State.fly, mb_updMb_same]

theorem draining_only (s : State) (op : Nat) (r : Req) : s.restartOnly (s.draining op r) :=
  restartOnly_trans (beginFence_only s r.mbx) (restartOnly_of_same (fly_same ..))

/-- With no other command outstanding it waits for none. -/
theorem draining_drained {s s1 : State} {op : Nat} {r : Req} (h : s.turn op r = some s1)
    (ho : ∀ g, g < 5 → g ≠ r.mbx → (s.mb g).flight = none ∧ (s.mb g).taken = []) : (s1.draining op r).drained? = true := by
  refine drained_alone (f := r.mbx) ?_ fun g h5 hg => ?_
  · rw [Mailbox.draining, draining_flight]; rfl
  · rw [State.draining, State.fly, mb_updMb_other _ _ hg, mb_beginFence, turn_mb_other h hg]
    exact ho g h5 hg

theorem passFence_none {s : State} {f : Nat} (h : (s.mb f).flight = none) : s.passFence f = s := by simp [State.passFence, h]

theorem passFence_restart {s : State} {f : Nat} {x : Flight} (h : (s.mb f).flight = some x) (hw : x.wait = .drain) (hd : s.drained? = true)
    (hop : x.op = 0x0004) :
    s.passFence f = (s.updMb f fun m => { m with flight := some { x with wait := .restart } }).mediaRestart (some f) 6 := by
  simp [State.passFence, h, hw, hd, hop]

/-- What a SystemReset does before it resets: it aborts what is left on the other mailboxes, answers, and aborts what its own has taken. -/
def State.beforeReset (s : State) (f : Nat) : State := ((s.abortOf ([0, 1, 2, 3, 4].filter (· != f))).restartAnswer f).abortOf [f]

theorem beforeReset_only (s : State) (f : Nat) : s.restartOnly (s.beforeReset f) :=
  restartOnly_trans (restartOnly_trans (abortOf_only ..) (restartOnly_of_same (restartAnswer_same ..))) (abortOf_only ..)

theorem passFence_reset {s : State} {f : Nat} {x : Flight} (h : (s.mb f).flight = some x) (hw : x.wait = .drain) (hd : s.drained? = true)
    (hop : x.op = 0x0003) : s.passFence f = (s.beforeReset f).resetRequest (decide (u8 x.req.payload 0 = 1))
      (if u8 x.req.payload 0 = 1 then 4 else 9) := by
  simp [State.passFence, h, hw, hd, hop, State.beforeReset]

/-! ### The media restart (Table 24.4) -/

/-- The generation of one object that is gone moves on, but for one whose destroy had completed (R77, R79). -/
def moveGen (g : Table Nat) (e : Nat × Obj) : Table Nat := if e.2.dying then g else tset g e.1 (nextGen (tget 1 g e.1))

theorem moveGen_same (g : Table Nat) (k : Nat) (o : Obj) :
    tget 1 (moveGen g (k, o)) k = if o.dying then tget 1 g k else nextGen (tget 1 g k) := by
  rw [moveGen]
  split
  · rfl
  · exact tget_tset_same ..

theorem moveGen_other {k : Nat} {e : Nat × Obj} (h : k ≠ e.1) (g : Table Nat) : tget 1 (moveGen g e) k = tget 1 g k := by
  rw [moveGen]
  split
  · rfl
  · exact tget_tset_other _ _ _ h

theorem moveGens_other {l : Table Obj} {k : Nat} (h : k ∉ l.map (·.1)) (g : Table Nat) : tget 1 (l.foldl moveGen g) k = tget 1 g k := by
  induction l generalizing g with
  | nil => rfl
  | cons e l ih =>
    rw [List.map_cons, List.mem_cons, not_or] at h
    rw [List.foldl_cons, ih h.2, moveGen_other h.1]

/-- Every object of a table has its generation moved on once. -/
theorem moveGens_mem {l : Table Obj} (hn : (l.map (·.1)).Nodup) {k : Nat} {o : Obj} (h : (k, o) ∈ l) (g : Table Nat) :
    tget 1 (l.foldl moveGen g) k = if o.dying then tget 1 g k else nextGen (tget 1 g k) := by
  induction l generalizing g with
  | nil => cases h
  | cons e l ih =>
    rw [List.map_cons, List.nodup_cons] at hn
    rw [List.foldl_cons]
    obtain rfl | h := List.mem_cons.1 h
    · rw [moveGens_other hn.1, moveGen_same]
    · have hk : k ≠ e.1 := fun he => hn.1 (he ▸ List.mem_map_of_mem (f := (·.1)) h)
      rw [ih hn.2 h, moveGen_other hk]

/-- A media restart marked as in progress, the commands outstanding on the other mailboxes aborted. -/
def State.restartBegun (s : State) (by_ : Option Nat) (cause : Nat) : State :=
  (s.updSys fun x => { x with
    restart := some { from_ := s.mode, by_ := by_, cause := cause, aborted := s.sys.aborts, dropped := s.mediaItems, block := s.block }
    }).abortOf ([0, 1, 2, 3, 4].filter fun f => some f != by_)

theorem restartBegun_only (s : State) (by_ : Option Nat) (cause : Nat) : s.restartOnly (s.restartBegun by_ cause) :=
  restartOnly_trans (b := s.updSys fun x => { x with
    restart := some { from_ := s.mode, by_ := by_, cause := cause, aborted := s.sys.aborts, dropped := s.mediaItems, block := s.block } })
    rfl (abortOf_only ..)

/-- A media restart begun: READY without an object, a change that waits or a used budget, and the generations moved on (R69, R77, R717). -/
theorem mediaRestart_spec (s : State) (by_ : Option Nat) (cause : Nat) :
    (s.mediaRestart by_ cause).mode = .ready ∧ (s.mediaRestart by_ cause).sys.restart.isSome = true ∧
    (s.mediaRestart by_ cause).objs = [] ∧ (s.mediaRestart by_ cause).sched = [] ∧ (s.mediaRestart by_ cause).used = [] ∧
    (s.mediaRestart by_ cause).gens = s.objs.foldl moveGen s.gens := by
  have h := restartBegun_only s by_ cause
  refine ⟨rfl, abortOf_isSome _ _, rfl, rfl, rfl, ?_⟩
  show (s.restartBegun by_ cause).objs.foldl moveGen (s.restartBegun by_ cause).gens = _
  rw [restartOnly_objs h, restartOnly_gens h]

/-- MEDIA_RESTART_DONE up to its answers: what the other mailboxes took meanwhile aborted, and the MediaRestart answered (R45, R67). -/
def State.restartAnswered (s : State) (x : Restart) : State :=
  match x.by_ with
  | some f => s.beforeReset f
  | none => s.abortOf [0, 1, 2, 3, 4]

theorem restartAnswered_only (s : State) (x : Restart) : s.restartOnly (s.restartAnswered x) := by
  unfold State.restartAnswered
  split
  · exact beforeReset_only ..
  · exact abortOf_only ..

/-- The restart and the fences over. -/
def State.restartOver (s : State) : State := (s.updSys fun y => { y with restart := none }).unmark

theorem restartOver_sys (s : State) : s.restartOver.sys.restart = none ∧ s.restartOver.sys.marks = [] ∧ s.restartOver.mode = s.mode :=
  ⟨rfl, List.filter_eq_nil_iff.2 (by simp), rfl⟩

/-- Ready, the notices and ModeChanged come after that, and change no more than events do. -/
theorem restartDone_same {s : State} {x : Restart} (h : s.sys.restart = some x) : (s.restartAnswered x).restartOver.sameBut s.restartDone := by
  have hr (n : Bytes) : (s.restartAnswered x).restartOver.sameBut
      ([0, 1, 2, 3, 4].foldl (fun s f => s.readyAgain f n) (s.restartAnswered x).restartOver) :=
    foldl_same _ (fun s f => readyAgain_same s f n) _ _
  unfold State.restartDone
  rw [h]
  dsimp only
  split
  · exact hr _
  · exact sameBut_trans (hr _) (raiseAll_same ..)

/-- MEDIA_RESTART_DONE ends a restart: nothing is in progress or waits any more, and mode, objects and generations stay (R67, R69). -/
theorem restartDone_spec {s : State} {x : Restart} (h : s.sys.restart = some x) :
    s.restartDone.sys.restart = none ∧ s.restartDone.sys.marks = [] ∧ s.restartDone.mode = s.mode ∧ s.restartDone.objs = s.objs ∧
    s.restartDone.gens = s.gens := by
  have ha := restartAnswered_only s x
  obtain ⟨hr, hm, hmode⟩ := restartOver_sys (s.restartAnswered x)
  have hobj := restartOnly_objs ha
  have hgens := restartOnly_gens ha
  have hd := restartDone_same h
  unfold State.sameBut at hd
  rw [hd]
  exact ⟨hr, hm, hmode.trans (restartOnly_mode ha), hobj, hgens⟩

/-- Settles O17: the MediaRestart waits, alone, and begins the restart in the same step; its end answers and reopens. -/
theorem mediaRestartEndsObjects : Obligations.MediaRestartEndsObjects := by
  unfold Obligations.MediaRestartEndsObjects
  refine ⟨fun r s s1 h ht hp hm ho => ?_, fun s x h => ⟨_, rfl, restartDone_spec h⟩, fun s h => ?_⟩
  · have hown : effMediaRestart r s1 = .wait .drain [] (s1.beginFence r.mbx) := by
      have hok : (s1.mode == .ready || s1.inService) = true := by obtain hm | hm := hm <;> simp [hm]
      rw [effMediaRestart, State.restartOk, nullTarget_null ht, hok]; rfl
    have hcmd : s.command 0x0004 (· == 0) r (effMediaRestart r) = s1.draining 0x0004 r := by
      rw [command_of_turn h (by rw [hp]; rfl), hown]; rfl
    obtain ⟨hmode, hres, hobj, hsch, hused, hgens⟩ := mediaRestart_spec ((s1.draining 0x0004 r).updMb r.mbx fun m => { m with
      flight := some { op := 0x0004, req := r, resp := [], wait := .restart } }) (some r.mbx) 6
    refine ⟨_, congrArg Host.Outcome.next ((congrArg (State.passFence · r.mbx) hcmd).trans
      (passFence_restart (draining_flight ..) rfl (draining_drained h ho) rfl)), hmode, hres, hobj, hsch, hused, fun hn k o hko => ?_⟩
    have hfr := restartOnly_trans (restartOnly_of_same (turn_frame h)) (draining_only s1 0x0004 r)
    rw [State.gen, hgens, State.updMb_objs, State.updMb_gens, restartOnly_objs hfr, restartOnly_gens hfr, moveGens_mem hn hko]
    rfl
  · show Host.Outcome.next s.restartDone = _
    rw [State.restartDone, h]

/-! ### The core domain reset (Tables 24.4 and 25.8) -/

/-- Pins are driven by outputs alone. -/
theorem driveFctl_emits (s0 : State) (l : List Nat) (s : State) : ∃ o, l.foldl (fun s n => s.driveFctl s0 n) s = { s with out := o ++ s.out } := by
  induction l generalizing s with
  | nil => exact ⟨[], rfl⟩
  | cons n l ih =>
    obtain ⟨o, ho⟩ := ih (s.driveFctl s0 n)
    rw [List.foldl_cons, ho, State.driveFctl]
    split
    · exact ⟨o, rfl⟩
    · exact ⟨o ++ [.pin 0 n (s.fctlLevel n)], by rw [List.append_assoc]; rfl⟩

theorem pinsOff_emits (s : State) : ∃ o, s.pinsOff = { s with pins := { s.pins with applied := false }, out := o ++ s.out } := by
  obtain ⟨o, ho⟩ := driveFctl_emits s (List.range 8) { s with pins := { s.pins with applied := false } }
  rw [State.pinsOff, State.driveAll, ho]
  exact ⟨_ ++ o, by rw [List.append_assoc]; rfl⟩

/-- A reset of the core domain: RESET with no object and every generation at its first; retained memory and the backup registers stay,
and what was put out. -/
theorem coreReset_spec (s : State) (kind src : Nat) (held promoted : Bool) :
    (s.coreReset kind src held promoted).mode = .reset ∧ (s.coreReset kind src held promoted).objs = [] ∧
    (s.coreReset kind src held promoted).gens = [] ∧ (s.coreReset kind src held promoted).retained = s.retained ∧
    (s.coreReset kind src held promoted).bkp = s.bkp ∧ (s.coreReset kind src held promoted).rst.source = src ∧
    ∀ o ∈ s.out, o ∈ (s.coreReset kind src held promoted).out := by
  obtain ⟨o, ho⟩ := pinsOff_emits s
  have hmode : State.reset.sys.mode = .reset ∧ State.reset.objs = [] ∧ State.reset.gens = [] := ⟨rfl, rfl, rfl⟩
  simp only [State.coreReset, State.mode, hmode, ho, true_and]
  exact fun x hx => List.mem_append_right _ hx

/-- A reset request outside RESET with no flight-record word being written resets at once (R729). -/
theorem resetRequest_now {s : State} (hm : s.mode ≠ .reset) (hj : s.nvm.jobs = []) (cold : Bool) (src : Nat) :
    ∃ kind promoted, s.resetRequest cold src = s.coreReset kind src false promoted :=
  ⟨if cold || (!cold && !s.rst.trained) then 2 else 1, !cold && !s.rst.trained, by
    simp only [State.resetRequest, hm, hj, false_and, if_false, List.isEmpty_nil, if_true]⟩

/-- While a word pulses the first reset request is held (R729). -/
theorem resetRequest_held {s : State} (hm : s.mode ≠ .reset) (hj : s.nvm.jobs ≠ []) (hd : s.sys.resetDue = none) (cold : Bool) (src : Nat) :
    s.resetRequest cold src = s.updSys fun x => { x with resetDue := some (cold, src) } := by
  simp only [State.resetRequest, hm, hd, false_and, if_false, List.isEmpty_iff, hj]

/-- RESET_N_ASSERT after its request sequences rails again at most (R697). -/
theorem resetNAssert_spec {s u : State} (h : s.resetRequest true 2 = u) : ∃ t, exec .resetNAssert s = .next t ∧
    t = { u with rails := t.rails, out := t.out } := by
  refine ⟨_, rfl, ?_⟩
  rw [h]
  split <;> rfl

/-! ### SystemReset and the chain's Reset (R68, R629, R721) -/

/-- SystemReset once its target, length, code and reserved bytes are right: only the rights of its mailbox are left to check. -/
theorem systemReset_checked {s s1 : State} {r : Req} (h : s.turn 0x0003 r = some s1) (ht : r.target = 0) (hl : r.payload.length = 4)
    (hc : u8 r.payload 0 = 1 ∨ u8 r.payload 0 = 2) (hz : zeros r.payload 1 3 = true) :
    s.command 0x0003 (· == 4) r (effSystemReset r) =
      s1.finish 0x0003 r (need (s1.resetRights r.mbx) .denied (.wait .drain [] (s1.beginFence r.mbx))) := by
  have hc' : (u8 r.payload 0 == 1 || u8 r.payload 0 == 2) = true := by obtain hc | hc := hc <;> simp [hc]
  rw [command_of_turn h (by rw [hl]; rfl), effSystemReset, State.resetOk, nullTarget_null ht, hc', hz]
  rfl

/-- SystemReset by a mailbox with rights, alone outstanding, answers and resets. -/
theorem systemReset_resets {s s1 : State} {r : Req} (h : s.turn 0x0003 r = some s1) (ht : r.target = 0) (hl : r.payload.length = 4)
    (hc : u8 r.payload 0 = 1 ∨ u8 r.payload 0 = 2) (hz : zeros r.payload 1 3 = true) (hr : s1.resetRights r.mbx = true)
    (ho : ∀ g, g < 5 → g ≠ r.mbx → (s.mb g).flight = none ∧ (s.mb g).taken = []) :
    exec (.systemReset r) s = .next (((s1.draining 0x0003 r).beforeReset r.mbx).resetRequest (decide (u8 r.payload 0 = 1))
      (if u8 r.payload 0 = 1 then 4 else 9)) := by
  have hcmd : s.command 0x0003 (· == 4) r (effSystemReset r) = s1.draining 0x0003 r := by
    rw [systemReset_checked h ht hl hc hz, hr]; rfl
  exact congrArg Host.Outcome.next ((congrArg (State.passFence · r.mbx) hcmd).trans
    (passFence_reset (draining_flight ..) rfl (draining_drained h ho) rfl))

/-- SystemReset by a mailbox without rights is answered DENIED, and no fence stands. -/
theorem systemReset_denied {s s1 : State} {r : Req} (h : s.turn 0x0003 r = some s1) (ht : r.target = 0) (hl : r.payload.length = 4)
    (hc : u8 r.payload 0 = 1 ∨ u8 r.payload 0 = 2) (hz : zeros r.payload 1 3 = true) (hr : s1.resetRights r.mbx = false) :
    exec (.systemReset r) s = .next (s1.failed 0x0003 r .denied []) := by
  have hcmd : s.command 0x0003 (· == 4) r (effSystemReset r) = s1.failed 0x0003 r .denied [] := by
    rw [systemReset_checked h ht hl hc hz, hr]; rfl
  exact congrArg Host.Outcome.next ((congrArg (State.passFence · r.mbx) hcmd).trans
    (passFence_none ((respond_flight ..).trans (start_flight (start_of_turn h)))))

/-- A chain Reset that the device acts on: answered, and carried out with the straps' leave (R629, R721). -/
theorem chainReset_acts {s : State} {f : Bytes} {b : Bool} {code : Nat} (h : s.chainActs 6 b (· == 1) f = true)
    (hb : b = (u8 f 1 % 32 == 0)) (hc : u8 (chainData f) 0 = code) (hs : s.sys.strapNmc = true) :
    s.chainReset code f = (s.chainCounted.emit (.chain (if b then f else withStatus f 0))).resetRequest (code == 1) (if code = 1 then 3 else 8) := by
  have hgo : s.chainFrame 6 b (· == 1) f (fun s d => (s, d, if s.sys.strapNmc then 0 else 4)) =
      s.chainCounted.emit (.chain (if b then f else withStatus f 0)) := by
    have hact : (s.chainCounted, chainData f, if s.chainCounted.sys.strapNmc then 0 else 4) = (s.chainCounted, chainData f, 0) := by
      rw [show s.chainCounted.sys.strapNmc = true from hs]; rfl
    cases b with
    | true => exact chainFrame_bcast_same h hact
    | false => exact chainFrame_unicast_same h hact
  have hacted : ((s.chainCounted.emit (.chain (if b then f else withStatus f 0))).nmc.acted != s.nmc.acted) = true := by
    rw [State.emit_nmc, State.chainCounted, State.updNmc_nmc, bne_iff_ne]
    exact fun h => by bv_omega
  simp only [State.chainReset, hc, ne_eq, not_true_eq_false, if_false, ← hb, hgo, hacted, hs, Bool.and_self, if_true]

/-- Without the straps' leave a Reset to the device alone is answered with status 0x04 (R721). -/
theorem chainReset_refused {s : State} {f : Bytes} {code : Nat} (h : s.chainActs 6 false (· == 1) f = true)
    (hc : u8 (chainData f) 0 = code) (hs : s.sys.strapNmc = false) :
    s.chainReset code f = s.chainCounted.emit (.chain (withStatus f 4)) := by
  obtain ⟨-, -, -, -, ⟨hz, -⟩, -, -, -⟩ := chainActs_iff h
  have hgo : s.chainFrame 6 false (· == 1) f (fun s d => (s, d, if s.sys.strapNmc then 0 else 4)) =
      s.chainCounted.emit (.chain (withStatus f 4)) :=
    chainFrame_unicast_same h (by rw [show s.chainCounted.sys.strapNmc = false from hs]; rfl)
  simp only [State.chainReset, hc, ne_eq, not_true_eq_false, if_false, beq_false_of_ne hz, hgo, hs, Bool.and_false, Bool.false_eq_true]

/-- The reset that a chain Reset asks for, and its frame sent on before it. -/
theorem chainReset_resets {s : State} {f : Bytes} {b : Bool} {code : Nat} (h : s.chainActs 6 b (· == 1) f = true)
    (hb : b = (u8 f 1 % 32 == 0)) (hc : u8 (chainData f) 0 = code) (hs : s.sys.strapNmc = true) (hj : s.nvm.jobs = []) :
    (s.chainReset code f).mode = .reset ∧ (s.chainReset code f).objs = [] ∧ (s.chainReset code f).retained = s.retained ∧
    (s.chainReset code f).rst.source = (if code = 1 then 3 else 8) ∧ .chain (if b then f else withStatus f 0) ∈ (s.chainReset code f).out := by
  have hm : s.mode ≠ .reset := (chainActs_iff h).1
  rw [chainReset_acts h hb hc hs]
  obtain ⟨k, p, hk⟩ := resetRequest_now (s := s.chainCounted.emit (.chain (if b then f else withStatus f 0))) hm hj (code == 1)
    (if code = 1 then 3 else 8)
  rw [hk]
  obtain ⟨hmode, hobj, -, hret, -, hsrc, hout⟩ := coreReset_spec (s.chainCounted.emit (.chain (if b then f else withStatus f 0))) k
    (if code = 1 then 3 else 8) false p
  exact ⟨hmode, hobj, hret, hsrc, hout _ (.head _)⟩

/-- Settles O18: each source of a reset leads to the core reset, which is said once; the loss of VDD_AON by its definition. -/
theorem resetsComplete : Obligations.ResetsComplete := by
  unfold Obligations.ResetsComplete
  refine ⟨fun r s s1 h ht hl hc hz hr ho hj => ?_, fun r s s1 h ht hl hc hz hr => systemReset_denied h ht hl hc hz hr, fun s hm hj => ?_,
    fun s hm hj hd => ?_, fun s f b h hb hc hs hj => ?_, fun s f b h hb hc hs hj => ?_, fun s f h hs => ⟨fun hc => ?_, fun hc => ?_⟩,
    fun s => ⟨_, rfl, rfl, rfl, rfl, rfl, rfl⟩⟩
  · have hfr := restartOnly_trans (restartOnly_of_same (turn_frame h)) (restartOnly_trans (draining_only s1 0x0003 r) (beforeReset_only _ r.mbx))
    have hm : ((s1.draining 0x0003 r).beforeReset r.mbx).mode ≠ .reset := by
      have ho := start_open (start_of_turn h)
      rw [restartOnly_mode hfr, State.mode]
      exact fun he => by rw [he] at ho; cases ho
    obtain ⟨k, p, hk⟩ := resetRequest_now hm (by rw [restartOnly_nvm hfr, hj]) (decide (u8 r.payload 0 = 1)) (if u8 r.payload 0 = 1 then 4 else 9)
    rw [systemReset_resets h ht hl hc hz hr ho, hk]
    obtain ⟨hmode, hobj, hgens, hret, hbkp, hsrc, -⟩ := coreReset_spec ((s1.draining 0x0003 r).beforeReset r.mbx) k
      (if u8 r.payload 0 = 1 then 4 else 9) false p
    exact ⟨_, rfl, hmode, hobj, hgens, hret.trans (restartOnly_retained hfr), hbkp.trans (restartOnly_bkp hfr), hsrc⟩
  · obtain ⟨k, p, hk⟩ := resetRequest_now hm hj true 2
    obtain ⟨hmode, hobj, hgens, hret, hbkp, hsrc, -⟩ := coreReset_spec s k 2 false p
    obtain ⟨t, ht, hframe⟩ := resetNAssert_spec hk
    generalize s.coreReset k 2 false p = u at *
    refine ⟨t, ht, ?_⟩
    rw [hframe]
    exact ⟨hmode, hobj, hgens, hret, hbkp, hsrc⟩
  · obtain ⟨t, ht, hframe⟩ := resetNAssert_spec (resetRequest_held hm hj hd true 2)
    refine ⟨t, ht, ?_⟩
    rw [hframe]
    exact ⟨rfl, rfl, rfl⟩
  · exact ⟨_, rfl, chainReset_resets h hb hc hs hj⟩
  · exact ⟨_, rfl, chainReset_resets h hb hc hs hj⟩
  · exact congrArg Host.Outcome.next (chainReset_refused h hc hs)
  · exact congrArg Host.Outcome.next (chainReset_refused h hc hs)

end Sys2Proof.Machine
end

section
/-!
PROOFS. Block starts, the end of a mix, and the ends of a command's DMA (R50, R52, R142, R587, R588, R797, R798).
-/

namespace Sys2Proof.Machine

/-! ### The end of a mix: what follows it leaves the matrix and the objects alone -/

/-- The matrix and the objects stay. -/
def State.keepsMix (s t : State) : Prop := t.matrix = s.matrix ∧ t.objs = s.objs

theorem keepsMix_trans {a b c : State} (h : a.keepsMix b) (k : b.keepsMix c) : a.keepsMix c := ⟨k.1.trans h.1, k.2.trans h.2⟩

theorem keepsMix_of_same {s t : State} (h : s.sameBut t) : s.keepsMix t := by
  unfold State.sameBut at h
  rw [h]
  exact ⟨rfl, rfl⟩

theorem keepsMix_foldl {α : Type} {g : State → α → State} (h : ∀ s a, State.keepsMix s (g s a)) (l : List α) (s : State) :
    s.keepsMix (l.foldl g s) := by
  induction l generalizing s with
  | nil => exact ⟨rfl, rfl⟩
  | cons a l ih => exact keepsMix_trans (h s a) (ih _)

theorem raiseAll_keepsMix (s : State) (op : Nat) (p : Bytes) : s.keepsMix (s.raiseAll op p) := keepsMix_of_same (raiseAll_same ..)

theorem linkCount_keepsMix (s : State) (l d cls ph n : Nat) : s.keepsMix (s.linkCount l d cls ph n) := by
  unfold State.linkCount
  dsimp only
  split
  · exact keepsMix_trans (b := s.setLinkKey l d _) ⟨rfl, rfl⟩ (raiseAll_keepsMix ..)
  · exact ⟨rfl, rfl⟩

/-- A link key replaced, and its events, leave the mix alone. -/
theorem linkKeyUsed_keepsMix (s : State) (l d cls ph n op : Nat) (k : LinkKey) (c : Prop) [Decidable c] (ev : State → Bytes) :
    s.keepsMix (if c then ((s.setLinkKey l d k).linkCount l d cls ph n).raiseAll op (ev ((s.setLinkKey l d k).linkCount l d cls ph n))
      else (s.setLinkKey l d k).linkCount l d cls ph n) := by
  have h : s.keepsMix ((s.setLinkKey l d k).linkCount l d cls ph n) := keepsMix_trans (b := s.setLinkKey l d k) ⟨rfl, rfl⟩ (linkCount_keepsMix ..)
  split
  · exact keepsMix_trans h (raiseAll_keepsMix ..)
  · exact h

theorem sealLink_keepsMix (s : State) (l cls kind src dst hops block : Nat) (p : Bytes) :
    s.keepsMix (s.sealLink l cls kind src dst hops block p).1 := by
  unfold State.sealLink
  dsimp only
  split
  · exact ⟨rfl, rfl⟩
  · split
    · exact ⟨rfl, rfl⟩
    · exact linkKeyUsed_keepsMix (ev := fun t => linkCounterEvent l 1 cls _ t.block) ..

theorem submit_keepsMix (s : State) (src : Nat) (x : Submission) : s.keepsMix (s.submit src x) := ⟨rfl, rfl⟩

theorem setLinkQueue_keepsMix (s : State) (l cls : Nat) (out : Bool) (x : List (Job × Bytes)) :
    s.keepsMix (s.setLinkQueue l out cls x) := ⟨rfl, rfl⟩

theorem linkNote_keepsMix (s : State) (l cls high : Nat) (out : Bool) (adds : List (Nat × Nat)) :
    s.keepsMix (s.linkNote l out cls adds high) := ⟨rfl, rfl⟩

theorem serveLink_keepsMix (s : State) (l : Nat) (out : Bool) : s.keepsMix (s.serveLink l out) := by
  unfold State.serveLink
  split
  · exact ⟨rfl, rfl⟩
  split
  · exact ⟨rfl, rfl⟩
  split
  · exact ⟨rfl, rfl⟩
  · exact keepsMix_trans (keepsMix_trans (setLinkQueue_keepsMix ..) (linkNote_keepsMix ..)) (submit_keepsMix ..)

theorem drawn_keepsMix (s : State) (i n : Nat) : s.keepsMix (s.drawn i n) := by
  unfold State.drawn
  dsimp only
  split <;> exact ⟨rfl, rfl⟩

theorem linkShares_keepsMix (s : State) (c l d : Nat) : s.keepsMix (s.linkShares c l d) := by
  unfold State.linkShares State.refresh512
  have h := drawn_keepsMix s c 512
  generalize s.drawn c 512 = t at h ⊢
  exact h

/-- A BLP frame sent. -/
theorem blpSend_keepsMix (s : State) (l cls kind src dst hops block : Nat) (p : Bytes) :
    s.keepsMix (s.blpSend l cls kind src dst hops block p) := by
  unfold State.blpSend
  dsimp only
  split
  · exact ⟨rfl, rfl⟩
  · split
    · exact keepsMix_trans (keepsMix_trans (setLinkQueue_keepsMix ..) (linkNote_keepsMix ..)) (serveLink_keepsMix ..)
    next c _ =>
      have hshare := keepsMix_trans (a := s) (b := (s.linkThrough l true cls (linkSize true p)).passOnyx 1 (linkDesc l 1 cls)) ⟨rfl, rfl⟩
        (linkShares_keepsMix _ c l 1)
      have hseal := keepsMix_trans hshare (sealLink_keepsMix _ l cls kind src dst hops block p)
      split
      next t f he => rw [he] at hseal; exact hseal
      next t he => rw [he] at hseal; exact hseal

theorem trunkSend_keepsMix (s : State) : s.keepsMix s.trunkSend := by
  unfold State.trunkSend
  refine keepsMix_foldl (fun s far => keepsMix_foldl (fun s prot => ?_) _ _) _ _
  dsimp only
  split
  · exact ⟨rfl, rfl⟩
  · split
    · exact ⟨rfl, rfl⟩
    · exact keepsMix_foldl (fun s k => blpSend_keepsMix ..) _ _

theorem tapCopy_keepsMix (s : State) (kind key stream : Nat) (con : Bool) (capture stamp period : Nat) (d : Bytes) :
    s.keepsMix (s.tapCopy kind key stream con capture stamp period d) := by
  unfold State.tapCopy
  refine keepsMix_foldl (fun s e => ?_) _ _
  split
  · refine keepsMix_foldl (fun s t => ?_) _ _
    split <;> exact ⟨rfl, rfl⟩
  · exact ⟨rfl, rfl⟩

theorem tapOutputs_keepsMix (s : State) : s.keepsMix s.tapOutputs := by
  unfold State.tapOutputs
  refine keepsMix_foldl (fun s key => ?_) _ _
  repeat' split
  · exact tapCopy_keepsMix ..
  · exact ⟨rfl, rfl⟩
  · exact ⟨rfl, rfl⟩

theorem precharge_keepsMix (s : State) (k : Nat) : s.keepsMix (s.precharge k) := by
  exact ⟨rfl, rfl⟩

theorem refreshRank_keepsMix (s : State) (c r n : Nat) : s.keepsMix (s.refreshRank c r n) :=
  keepsMix_trans (b := s.emits _) ⟨rfl, rfl⟩ (keepsMix_foldl precharge_keepsMix _ _)

theorem endBursts_keepsMix (s : State) : s.keepsMix s.endBursts := by
  unfold State.endBursts
  refine keepsMix_foldl (fun s e => ?_) _ _
  split
  · exact keepsMix_trans (b := s.refreshRank _ _ _) (refreshRank_keepsMix ..) ⟨rfl, rfl⟩
  · exact ⟨rfl, rfl⟩

theorem fadesDone_keepsMix (s : State) (b : Nat) (l : List Fade) : s.keepsMix (s.fadesDone b l) := by
  unfold State.fadesDone
  refine keepsMix_foldl (fun s f => ?_) _ _
  split
  · exact keepsMix_of_same (raiseOn_same ..)
  · exact ⟨rfl, rfl⟩

/-! ### The end of a mix (R142) -/

theorem at_keepsMix (s : State) (t : Nat) : s.keepsMix (s.at t) ∧ (s.at t).audio = s.audio := by
  unfold State.at
  split <;> exact ⟨⟨rfl, rfl⟩, rfl⟩

/-- The inputs that read good (R678). -/
def State.goodInputs (s : State) : Table (List Int) := s.matrix.inRead.filter fun e => !s.matrix.poisonRead.contains e.1

/-- The mix of one block: each output of a leg, saturated (R134). -/
def State.mixed (s : State) : Table (List Int) :=
  (s.audio.legs.map fun e => (e.2.m, (mixOutput s.matrix.plane s.goodInputs e.2.m).map sat24)).foldl (fun o e => tset o e.1 e.2) []

theorem objCount_objs (s : State) (h k n : Nat) : (s.objCount h k n).objs = s.objs := by
  unfold State.objCount
  rfl

theorem objCounts_objs {α : Type} (h : State → α → Nat) (k n : Nat) (l : List α) (s : State) :
    (l.foldl (fun s e => s.objCount (h s e) k n) s).objs = s.objs := by
  induction l generalizing s with
  | nil => rfl
  | cons a l ih => exact (ih _).trans (objCount_objs ..)

theorem mixBlock_outMix (s : State) : s.mixBlock.matrix.outMix = s.mixed := by
  unfold State.mixBlock State.mixed State.goodInputs
  simp only [State.updMatrix_matrix, List.map_map, List.foldl_map, Function.comp_def]

theorem mixBlock_objs (s : State) : s.mixBlock.objs = s.objs := by
  unfold State.mixBlock
  dsimp only [State.updMatrix_objs]
  rw [objCounts_objs]

theorem applyPhase_outMix (s : State) (b : Nat) : (s.applyPhase b).matrix.outMix = s.matrix.outMix := by
  unfold State.applyPhase
  dsimp only
  rw [(fadesDone_keepsMix _ b _).1, State.updMatrix_matrix]

theorem applyPhase_objs (s : State) (b : Nat) : (s.applyPhase b).objs = s.objs := by
  unfold State.applyPhase
  dsimp only
  rw [(fadesDone_keepsMix _ b _).2, State.updMatrix_objs]

theorem mixEnd_idle {s : State} (h : s.matrix.mixing = false ∨ s.matrix.down = true) : s.mixEnd = s := by
  unfold State.mixEnd
  exact if_pos (by simpa using h)

/-- The outputs of the mix and its write application phase, and the mix over. -/
def State.mixOver (s : State) : State := (s.mixBlock.applyPhase s.block).updMatrix fun m => { m with mixing := false }

theorem mixOver_outMix (s : State) : s.mixOver.matrix.outMix = s.mixed := by
  unfold State.mixOver
  rw [State.updMatrix_matrix]
  exact (applyPhase_outMix ..).trans (mixBlock_outMix s)

theorem mixOver_objs (s : State) : s.mixOver.objs = s.objs := by
  unfold State.mixOver
  rw [State.updMatrix_objs, applyPhase_objs, mixBlock_objs]

theorem mixOver_mixing (s : State) : s.mixOver.matrix.mixing = false := by
  unfold State.mixOver
  rw [State.updMatrix_matrix]

theorem mixEnd_eq {s : State} (hm : s.matrix.mixing = true) (hd : s.matrix.down = false) :
    s.mixEnd = (s.at (s.block * blockNs + tMix s.matrix.count.length)).mixOver.trunkSend.tapOutputs.endBursts := by
  unfold State.mixEnd
  rw [if_neg (by simp [hm, hd])]
  unfold State.mixOver
  rfl

/-- The end of a running mix: the mix is over, its outputs stand, and the objects stay. -/
theorem mixEnd_running {s : State} (hm : s.matrix.mixing = true) (hd : s.matrix.down = false) :
    s.mixEnd.matrix.mixing = false ∧ s.mixEnd.matrix.outMix = s.mixed ∧ s.mixEnd.objs = s.objs := by
  rw [mixEnd_eq hm hd]
  obtain ⟨⟨hmat, hobj⟩, ha⟩ := at_keepsMix s (s.block * blockNs + tMix s.matrix.count.length)
  generalize s.at (s.block * blockNs + tMix s.matrix.count.length) = u at hmat hobj ha ⊢
  have hu : u.mixed = s.mixed := by unfold State.mixed State.goodInputs; rw [hmat, ha]
  obtain ⟨hm', ho'⟩ := keepsMix_trans (keepsMix_trans (trunkSend_keepsMix u.mixOver) (tapOutputs_keepsMix _)) (endBursts_keepsMix _)
  rw [hm', ho', mixOver_mixing, mixOver_outMix, mixOver_objs, hu, hobj]
  exact ⟨rfl, rfl, rfl⟩

/-! ### The ends of a command's DMA (R52, R797, R798) -/

theorem exec_dmaReadDone {f : Nat} (h : f < 5) (res : DmaResult) (s : State) : exec (.dmaReadDone f res) s = .next (s.readEnd f res) :=
  if_neg (Nat.not_le.mpr h)

theorem exec_dmaWriteReadbackDone {f : Nat} (h : f < 5) (res : DmaResult) (s : State) :
    exec (.dmaWriteReadbackDone f res) s = .next (s.writeEnd f res) := if_neg (Nat.not_le.mpr h)

/-- Mailbox `f` with no command in flight. -/
def State.landed (s : State) (f : Nat) : State := s.updMb f fun m => { m with flight := none }

section
variable {s : State} {f : Nat} {x : Flight} (hx : (s.mb f).flight = some x)
include hx

/-- The command in flight answered by its own part. -/
theorem endFlight_eq (own : Flight → State → Eff) :
    s.endFlight f own = ((s.landed f).finish x.op x.req (own x (s.landed f))).settleTaken f := by
  unfold State.endFlight
  rw [hx]
  rfl

theorem readEnd_failed (hw : x.wait = .read) (l : List (Nat × DmaFail)) :
    s.readEnd f (.failed l) = ((s.landed f).failed x.op x.req (dmaStatus l) []).settleTaken f := by
  unfold State.readEnd
  simp only [hx, hw, ne_eq, not_true_eq_false, if_false]
  exact endFlight_eq hx _

/-- The data a command waited for are its own part's, and the command goes on with them. -/
theorem readEnd_data (hw : x.wait = .read) (b : Bytes) {names : List Nat} {own : State → Eff}
    (ho : dmaOwn x ((padTo (dmaLen x) b).take (dmaLen x)) = some (names, own)) :
    s.readEnd f (.data b) = ((s.landed f).judge x.op
      (if x.op = 0x0301 then { x.req with payload := x.req.payload ++ (padTo (dmaLen x) b).take (dmaLen x) } else x.req)
      names own).settleTaken f := by
  unfold State.readEnd
  simp only [hx, hw, ne_eq, not_true_eq_false, if_false, ho]
  rfl

theorem writeEnd_failed (hw : x.wait = .write) (l : List (Nat × DmaFail)) :
    s.writeEnd f (.failed l) = ((s.landed f).failed x.op x.req (dmaStatus l) []).settleTaken f := by
  unfold State.writeEnd
  simp only [hx, hw, ne_eq, not_true_eq_false, if_false]
  exact endFlight_eq hx _

theorem writeEnd_data (hw : x.wait = .write) (b : Bytes) :
    s.writeEnd f (.data b) = ((s.landed f).answered x.op x.req x.req.tgt ((s.landed f).writeResp x)).settleTaken f := by
  unfold State.writeEnd
  simp only [hx, hw, ne_eq, not_true_eq_false, if_false]
  exact endFlight_eq hx _
end

theorem judge_uncritical {s : State} {names : List Nat} (h : s.critOf names = none) (op : Nat) (r : Req) (own : State → Eff) :
    s.judge op r names own = s.finish op r (own s) := by
  unfold State.judge
  rw [h]

theorem critOf_nil (s : State) : s.critOf [] = none := ite_self _

theorem critOf_landed (s : State) (f : Nat) (l : List Nat) : (s.landed f).critOf l = s.critOf l := rfl

theorem lowestFail_mem (l : List (Nat × DmaFail)) {x : Nat × DmaFail} (h : lowestFail l = some x) : x ∈ l := by
  induction l with
  | nil => cases h
  | cons e r ih =>
    rw [lowestFail] at h
    split at h
    next y hy =>
      split at h
      · cases h; exact List.mem_cons_self
      · cases h; exact List.mem_cons_of_mem _ (ih hy)
    · cases h; exact List.mem_cons_self

/-- The failing request with the lowest address, where one alone has it. -/
theorem lowestFail_unique (l r : List (Nat × DmaFail)) (a : Nat) (e : DmaFail) (hl : ∀ d ∈ l, a < d.1) (hr : ∀ d ∈ r, a < d.1) :
    lowestFail (l ++ (a, e) :: r) = some (a, e) := by
  induction l with
  | nil =>
    show (match lowestFail r with | some x => if a ≤ x.1 then some (a, e) else some x | none => some (a, e)) = _
    cases h : lowestFail r with
    | none => rfl
    | some x => exact if_pos (Nat.le_of_lt (hr x (lowestFail_mem r h)))
  | cons d l ih =>
    have hd := hl d List.mem_cons_self
    rw [List.cons_append, lowestFail, ih fun d hd => hl d (List.mem_cons_of_mem _ hd)]
    exact if_neg (Nat.not_le.mpr hd)

theorem dmaStatus_lowest (l r : List (Nat × DmaFail)) (a : Nat) (e : DmaFail) (hl : ∀ d ∈ l, a < d.1) (hr : ∀ d ∈ r, a < d.1) :
    dmaStatus (l ++ (a, e) :: r) = (match e with | .refused => .denied | _ => .timeout) := by
  unfold dmaStatus
  rw [lowestFail_unique l r a e hl hr]
  cases e <;> rfl

/-! ### The power controller with nothing metered and nothing hot (R699 to R707) -/

/-- Two states differ at most in the power controller and in the work bridge's throttle. -/
def State.powerOnly (s t : State) : Prop := t = { s with pwr := t.pwr, work := t.work }

/-- The power controller has metered nothing, throttles nothing and sheds for nothing. -/
structure Power.Quiet (p : Power) : Prop where
  cls : p.cls = p.target
  share : p.share = 0
  sum : p.sum = 0
  count : p.count = 0
  limit : p.limit = false
  seen : p.seen = false
  overTimes : p.overTimes = 0
  cold : p.hotNow = false

theorem powerBlock_quiet {s : State} (h : s.pwr.Quiet) : s.powerOnly s.powerBlock := by
  obtain ⟨hcls, hshare, hsum, hcount, hlimit, hseen, hover, hcold⟩ := h
  have hcool : ¬(s.pwr.shed ≤ s.pwr.junction ∨ ∃ x ∈ s.pwr.dram, 95 < x) := by
    have hnow := hcold
    unfold Power.hotNow at hnow
    simpa using hnow
  unfold Power.junction at hcool
  unfold State.powerOnly State.powerBlock
  simp [hcls, hshare, hsum, hcount, hlimit, hseen, Power.throttle, State.shedNow, Power.hotNow, Power.junction, hcool, State.updPwr, State.updWork]

theorem reset_quiet : State.reset.pwr.Quiet where
  cls := rfl
  share := rfl
  sum := rfl
  count := rfl
  limit := rfl
  seen := rfl
  overTimes := rfl
  cold := by
    show (decide ((if Config.gradeX then 108 else 98) ≤ (Power.init 1).junction) || _) = false
    cases Config.gradeX <;> decide

/-! ### The block start of an idle device (R587, R588) -/

theorem mailbox_number {f : Nat} (hf : f < 5) : f = 0 ∨ f = 1 ∨ f = 2 ∨ f = 3 ∨ f = 4 := by omega

/-- The device as reset leaves it, in mode `m` at time `n`. -/
def idleAt (n : Nat) (m : Mode) : State := { State.reset with now := n, sys := { State.reset.sys with mode := m } }

/-- The same device, mixing, with a power controller and a work bridge of its own. -/
def idleMixing (n : Nat) (m : Mode) (p : Power) (w : Work) : State :=
  { (idleAt n m).updMatrix fun x => { x with mixing := true } with pwr := p, work := w }

/-- The same device after one sign of life on each mailbox (R50). -/
def idleBeaten (n : Nat) (m : Mode) (p : Power) (w : Work) : State :=
  { idleMixing n m p w with mbx := [0, 1, 2, 3, 4].map fun f => (f, { Mailbox.init with heartbeat := 1 }) }

/-- An idle device as the block start finds it once its banks are swapped. -/
def idleSwapped (n : Nat) (m : Mode) : State := idleMixing n m State.reset.pwr State.reset.work

section
variable (n : Nat) (m : Mode) (p : Power) (w : Work)

/-- With nothing scheduled, no group ducking, no line, no cascade and no trio, the first part of the work moves the banks only. -/
theorem idle_blockBegin (k : Nat) (calls : List Nat) :
    ((((idleAt n m).swapBanks.runDue (dueAtBlock k)).duckBlock calls).framerBlock.cascadeBlock) = idleSwapped n m := by
  have hswap : (idleAt n m).swapBanks = idleSwapped n m := rfl
  have hdue : (idleSwapped n m).runDue (dueAtBlock k) = idleSwapped n m := rfl
  have hduck : (idleSwapped n m).duckBlock calls = idleSwapped n m := rfl
  have hframer : (idleSwapped n m).framerBlock = idleSwapped n m := rfl
  have hcascade : (idleSwapped n m).cascadeBlock = idleSwapped n m := rfl
  rw [hswap, hdue, hduck, hframer, hcascade]

variable {m} in
theorem idle_relayBlock (hm : m = .ready ∨ m = .standalone) : (idleSwapped n m).relayBlock = idleSwapped n m := by
  obtain rfl | rfl := hm
  · rfl
  · rfl

variable {m} in
/-- With no trio, no tap, no DDR5 in track and no tile to fetch, the second part changes nothing. -/
theorem idle_blockReads (hm : m = .ready ∨ m = .standalone) :
    (idleSwapped n m).trioBlock.relayBlock.recorderBlock.trackRead.tileFetch = (idleSwapped n m, []) := by
  have htrio : (idleSwapped n m).trioBlock = idleSwapped n m := rfl
  have hrecorder : (idleSwapped n m).recorderBlock = idleSwapped n m := rfl
  have htrack : (idleSwapped n m).trackRead = idleSwapped n m := rfl
  have htiles : (idleSwapped n m).tileFetch = (idleSwapped n m, []) := rfl
  rw [htrio, idle_relayBlock n hm, hrecorder, htrack, htiles]

theorem idle_powerBlock : ∃ p w, (idleSwapped n m).powerBlock = idleMixing n m p w :=
  ⟨_, _, powerBlock_quiet (s := idleSwapped n m) reset_quiet⟩

variable {m} in
theorem idle_beat (hm : m = .ready ∨ m = .standalone) : (idleMixing n m p w).beat = idleBeaten n m p w := by
  obtain rfl | rfl := hm
  · rfl
  · rfl

variable {f : Nat} (hf : f < 5)
include hf

theorem idleBeaten_mb : (idleBeaten n m p w).mb f = { Mailbox.init with heartbeat := 1 } := by
  obtain rfl | rfl | rfl | rfl | rfl := mailbox_number hf <;> rfl

theorem idleBeaten_retryRoom : (idleBeaten n m p w).retryRoom f = idleBeaten n m p w := by
  unfold State.retryRoom
  rw [idleBeaten_mb n m p w hf]
  rfl

theorem idleBeaten_noRung : ((idleBeaten n m p w).updMb f fun x => { x with rung := [] }) = idleBeaten n m p w := by
  obtain rfl | rfl | rfl | rfl | rfl := mailbox_number hf <;> rfl

theorem idleBeaten_takeMore : (idleBeaten n m p w).takeMore f = idleBeaten n m p w := by
  have hmb := idleBeaten_mb n m p w hf
  rw [takeMore_nothing (by rw [hmb]; rfl) (by rw [hmb]; rfl), idleBeaten_noRung n m p w hf]
  exact ite_self _
end

/-- With nothing taken, rung for or waiting for room, the mailboxes go on as they are. -/
theorem idle_mailboxes (n : Nat) (m : Mode) (p : Power) (w : Work) :
    [0, 1, 2, 3, 4].foldl (fun s f => (State.retryRoom s f).takeMore f) (idleBeaten n m p w) = idleBeaten n m p w := by
  have step (f : Nat) (hf : f < 5) : ((idleBeaten n m p w).retryRoom f).takeMore f = idleBeaten n m p w := by
    rw [idleBeaten_retryRoom n m p w hf, idleBeaten_takeMore n m p w hf]
  simp only [List.foldl_cons, List.foldl_nil, step 0 (by decide), step 1 (by decide), step 2 (by decide), step 3 (by decide), step 4 (by decide)]

theorem idle_tellCaptures {m : Mode} (hm : m = .ready ∨ m = .standalone) (n : Nat) (p : Power) (w : Work) :
    (idleBeaten n m p w).tellCaptures = idleBeaten n m p w := by
  obtain rfl | rfl := hm
  · rfl
  · rfl

theorem idle_blockWork {m : Mode} (hm : m = .ready ∨ m = .standalone) (n k : Nat) :
    ∃ p w, (idleAt n m).blockWork k = idleBeaten n m p w := by
  obtain ⟨p, w, hpower⟩ := idle_powerBlock n m
  have hlanes : (idleBeaten n m p w).adaptLanes = idleBeaten n m p w := rfl
  have hchains : (idleBeaten n m p w).submitChains = idleBeaten n m p w := rfl
  refine ⟨p, w, ?_⟩
  unfold State.blockWork
  dsimp only
  rw [idle_blockBegin, idle_blockReads n hm]
  dsimp only
  rw [if_pos (by rfl), hpower, idle_beat n p w hm, hlanes, idle_mailboxes, hchains, idle_tellCaptures hm]

/-! ### The block start -/

section
variable {s : State}

theorem blockStart_closed (h : s.mode = .reset ∨ s.mode = .halt) : s.blockStart = s := by
  unfold State.blockStart
  exact if_pos (by simpa using h)

variable (hr : s.mode ≠ .reset) (hh : s.mode ≠ .halt)
include hr hh

theorem blockStart_due (hd : s.quartz.due = true) : s.blockStart = State.blockWork { s.mixEnd with
    now := s.block * 2000000, nowFrac := 0, quartz := { s.mixEnd.quartz with due := false } } s.block := by
  unfold State.blockStart
  rw [if_neg (by simp [hr, hh]), if_pos hd]
  rfl

theorem blockStart_next (hd : s.quartz.due = false) :
    s.blockStart = State.blockWork { s.mixEnd with now := (s.block + 1) * 2000000, nowFrac := 0 } (s.block + 1) := by
  unfold State.blockStart
  rw [if_neg (by simp [hr, hh]), if_neg (by simp [hd])]
  rfl
end

/-- The block start of an idle device: it mixes, and each mailbox has one sign of life. -/
theorem blockStart_idle {m : Mode} (hm : m = .ready ∨ m = .standalone) (n : Nat) :
    ∃ p w, (idleAt n m).blockStart = idleBeaten ((n / 2000000 + 1) * 2000000) m p w := by
  have hr : (idleAt n m).mode ≠ .reset := by obtain rfl | rfl := hm <;> exact fun h => nomatch h
  have hh : (idleAt n m).mode ≠ .halt := by obtain rfl | rfl := hm <;> exact fun h => nomatch h
  rw [blockStart_next hr hh rfl, mixEnd_idle (s := idleAt n m) (.inl rfl)]
  exact idle_blockWork hm _ _

/-- Settles O53: by the definition of the block start, the idle device being followed through the block's work part by part; by what the
rest of the end of a mix leaves alone; and by what its own part answers to the end of a command's DMA. -/
theorem blocksAndDmaComplete : Obligations.BlocksAndDmaComplete := by
  refine ⟨fun s h => ?_, fun s hr hh hd => ?_, fun s hr hh hd => ?_, fun n m hm => ?_, fun s h => ?_, fun s hm hd => ?_,
    fun s f x l hf hx hw => ?_, fun s f x b own hf hx hw hop ho => ?_, fun s f x b hf hx hw hop hc => ?_,
    fun s f x b hf hx hw => ?_, fun s f x l hf hx hw => ?_, dmaStatus_lowest⟩
  · exact congrArg Host.Outcome.next (blockStart_closed h)
  · exact congrArg Host.Outcome.next (blockStart_due hr hh hd)
  · exact congrArg Host.Outcome.next (blockStart_next hr hh hd)
  · obtain ⟨p, w, h⟩ := blockStart_idle hm n
    refine ⟨_, congrArg Host.Outcome.next h, rfl, rfl, rfl, rfl, rfl, fun f hf => ?_⟩
    rw [idleBeaten_mb _ m p w hf]
  · exact congrArg Host.Outcome.next (mixEnd_idle h)
  · exact ⟨s.mixEnd, rfl, mixEnd_running hm hd⟩
  · rw [exec_dmaReadDone hf, readEnd_failed hx hw]
    rfl
  · rw [exec_dmaReadDone hf, readEnd_data hx hw b ho, if_neg hop, judge_uncritical (critOf_nil _)]
    rfl
  · have ho : dmaOwn x ((padTo (dmaLen x) b).take (dmaLen x)) = some (bulkNames ((padTo (dmaLen x) b).take (dmaLen x)) (u32 x.req.payload 0),
        effNodeSetBulkData x.req ((padTo (dmaLen x) b).take (dmaLen x))) := by
      unfold dmaOwn
      rw [hop]
      rfl
    rw [exec_dmaReadDone hf, readEnd_data hx hw b ho, if_pos hop, judge_uncritical ((critOf_landed ..).trans hc), hop]
    rfl
  · rw [exec_dmaWriteReadbackDone hf, writeEnd_data hx hw b]
    rfl
  · rw [exec_dmaWriteReadbackDone hf, writeEnd_failed hx hw]
    rfl

end Sys2Proof.Machine
end

section
/-!
PROOFS. The power, thermal, NVM and mode commands (R129, R699, R705, R717, R743), and which trip temperature a sample is held
against (R706).
-/

namespace Sys2Proof.Machine

/-! ### A command whose own part is accepted or waits -/

/-- A command whose turn has come and whose change waits for a boundary is answered OK in the state its own part leaves. -/
theorem exec_accepted {s s1 t : State} {op target : Nat} {len : Nat → Bool} {r : Req} {own : State → Eff} {p : Bytes}
    (h : s.turn op r = some s1) (hl : len r.payload.length = true) (ho : own s1 = .later p target t) :
    Host.Outcome.next (φ := Fault) (ρ := Refusal) (s.command op len r own) = .next (t.accepted op r target p) := by
  rw [command_of_turn h hl, ho]
  rfl

/-- A command whose turn has come and whose own part waits for an end of its DMA or of another unit is in flight. -/
theorem exec_waiting {s s1 t : State} {op : Nat} {len : Nat → Bool} {r : Req} {own : State → Eff} {w : Wait} {p : Bytes}
    (h : s.turn op r = some s1) (hl : len r.payload.length = true) (ho : own s1 = .wait w p t) :
    Host.Outcome.next (φ := Fault) (ρ := Refusal) (s.command op len r own) = .next (t.waiting op r w p) := by
  rw [command_of_turn h hl, ho]
  rfl

theorem tgt_null {r : Req} (h : r.target = 0) : r.tgt = 0 := by simp [Req.tgt, h]

/-! ### PowerClassSet and ThermalSet (R129, R699, R705) -/

section
variable {r : Req} {s : State}

/-- A class that is raised, or that the load fits, exceeds no ceiling. -/
theorem classOver_none {c : Nat} (h : s.pwr.cls < c ∨ s.classOver c = none) :
    (if c < s.pwr.cls then s.classOver c else none) = none := by
  obtain h | h := h
  · exact if_neg (Nat.lt_asymm h)
  · rw [h, ite_self]

variable (ht : r.target = 0)
include ht

section
variable (h1 : 1 ≤ u8 r.payload 0) (h3 : u8 r.payload 0 ≤ 3) (hz : zeros r.payload 1 3 = true)
include h1 h3 hz

/-- PowerClassSet of the class in force. -/
theorem effPowerClassSet_current (hc : u8 r.payload 0 = s.pwr.cls) : effPowerClassSet r s = .done [] 0 s := by
  simp only [effPowerClassSet, nullTarget_null ht, tgt_null ht, h1, h3, hz, decide_true, Bool.and_self, need_true, if_pos hc]

/-- PowerClassSet of another class that the load fits. -/
theorem effPowerClassSet_other (hc : u8 r.payload 0 ≠ s.pwr.cls)
    (hfit : s.pwr.cls < u8 r.payload 0 ∨ s.classOver (u8 r.payload 0) = none) :
    effPowerClassSet r s = .later [] 0
      ((s.updPwr fun p => { p with cls := u8 r.payload 0 }).schedule (.block s.nextBlock) (r.origin 0) .applied) := by
  simp only [effPowerClassSet, nullTarget_null ht, tgt_null ht, h1, h3, hz, decide_true, Bool.and_self, need_true, if_neg hc,
    classOver_none hfit]

end

/-- ThermalSet of rising thresholds within the limit of the grade. -/
theorem effThermalSet_rising (hz : zeros r.payload 3 1 = true)
    (hw : signed 8 (u8 r.payload 0) < signed 8 (u8 r.payload 1)) (hs : signed 8 (u8 r.payload 1) < signed 8 (u8 r.payload 2))
    (hx : signed 8 (u8 r.payload 2) ≤ (if Config.gradeX then 120 else 115)) :
    effThermalSet r s = .later [] 0 ((s.updPwr fun p => { p with
      pend := some (signed 8 (u8 r.payload 0), signed 8 (u8 r.payload 1), signed 8 (u8 r.payload 2)) }).schedule .sample
        (r.origin 0) .applied) := by
  simp only [effThermalSet, nullTarget_null ht, tgt_null ht, and_self, hw, hs, hx, hz, decide_true, Bool.and_self, need_true]

end

/-! ### The status reads (Tables 23.10 and 23.11) -/

theorem powerStatus_length (s : State) : s.powerStatus.length = 48 := by
  unfold State.powerStatus
  simp only [List.length_append, le_length]

theorem nvmStatus_length (n : Nvm) : n.status.length = 16 := by
  unfold Nvm.status
  simp only [List.length_append, le_length]

/-! ### ModeSet (Tables 24.2 and 24.14) -/

theorem toMode_mode (s : State) (m : Mode) : (s.toMode m).mode = m := by
  have h := toMode_spec s m
  unfold State.sameBut at h
  rw [h]
  rfl

theorem toMode_objs (s : State) (m : Mode) : (s.toMode m).objs = s.objs := by
  have h := toMode_spec s m
  unfold State.sameBut at h
  rw [h]

/-- A change of mode changes the mode, and with ModeChanged the mailboxes, the window and what was put out. -/
theorem toMode_frame (s : State) (m : Mode) :
    s.toMode m = { s with sys := (s.toMode m).sys, mbx := (s.toMode m).mbx, nmc := (s.toMode m).nmc, out := (s.toMode m).out } := by
  have h := toMode_spec s m
  unfold State.sameBut at h
  rw [h]

theorem leaveMaintenance_objs (s : State) : s.leaveMaintenance.objs = s.objs := by
  unfold State.leaveMaintenance State.driveAll
  split
  · obtain ⟨o, ho⟩ := driveFctl_emits s (List.range 8)
      { s with sys := { s.sys with laneTests := [] }, pins := { s.pins with force := 0, forceEn := 0 } }
    rw [ho]
  · rfl

theorem leaveMaintenance_other {s : State} (h : s.mode ≠ .maintenance) : s.leaveMaintenance = s := if_neg h

/-- ModeSet of the current mode, or of a listed transition. -/
theorem effModeSet_listed {r : Req} {s : State} {m : Mode} (ht : r.target = 0) (hm : modeNamed (u8 r.payload 0) = some m)
    (hz : zeros r.payload 1 3 = true) (h : s.mode = m ∨ s.mayMove m = true) :
    effModeSet r s = .done [] 0 (if s.mode = m then s else s.leaveMaintenance.toMode m) := by
  have hok : (s.mode == m || s.mayMove m) = true := by simpa using h
  simp only [effModeSet, nullTarget_null ht, hm, hok, hz, need_true]

/-! ### FlightRecordRead (R743, Table 24.14) -/

/-- The records a FlightRecordRead asks for. -/
def recordsAsked (r : Req) (s : State) : List (Nat × Bytes) :=
  (s.nvm.records.drop (u16 r.payload 0)).take (u16 r.payload 2)

/-- FlightRecordRead of a number of records that its buffer has the size of. -/
theorem effFlightRecordRead_sized {r : Req} {s : State} (ht : r.target = 0) (hn : u16 r.payload 2 ≤ 128)
    (hb : u32 r.payload 12 = 128 * u16 r.payload 2) (hz : zeros r.payload 16 4 = true) :
    effFlightRecordRead r s = writeThen 0 (u64 r.payload 4) ((recordsAsked r s).flatMap (·.2))
      (le 2 (recordsAsked r s).length ++ le 2 s.nvm.records.length ++ le 2 s.nvm.discarded ++ le 2 0) s := by
  simp only [effFlightRecordRead, nullTarget_null ht, hn, hb, hz, decide_true, beq_self_eq_true, Bool.and_self, need_true, recordsAsked]

theorem writeThen_some {data : Bytes} (h : data ≠ []) (target addr : Nat) (resp : Bytes) (s : State) :
    writeThen target addr data resp s = .wait .write resp (s.emit (.hostWrite addr data)) := by
  simp [writeThen, h]

/-- Settles O23: what each own part answers is said once above; the frame of a command turns it into its outcome. -/
theorem powerAndModeCommandsComplete : Obligations.PowerAndModeCommandsComplete := by
  unfold Obligations.PowerAndModeCommandsComplete
  refine ⟨fun r s s1 h ht hl h1 h3 hz => ⟨fun hc => ?_, fun hc hfit => ?_⟩, fun r s s1 h ht hl hz hw hs hx => ?_,
    fun r s s1 h ht hp => ?_, fun r s s1 h ht hp => ?_, fun r s s1 m h ht hl hz hm => ⟨fun hc => ?_, fun hc hmay => ?_⟩,
    fun r s s1 l h ht hl hn hb hz hrec hsome => ?_, fun r s s1 h ht hl hn hb hz => ?_⟩
  · exact exec_answered h (by rw [hl]; rfl) (effPowerClassSet_current ht h1 h3 hz hc)
  · exact exec_accepted h (by rw [hl]; rfl) (effPowerClassSet_other ht h1 h3 hz hc hfit)
  · exact exec_accepted h (by rw [hl]; rfl) (effThermalSet_rising ht hz hw hs hx)
  · exact ⟨_, powerStatus_length s1, exec_answered h (by rw [hp]; rfl) ((nullTarget_null ht _).trans (by rw [tgt_null ht]))⟩
  · exact ⟨_, nvmStatus_length s1.nvm, exec_answered h (by rw [hp]; rfl) ((nullTarget_null ht _).trans (by rw [tgt_null ht]))⟩
  · refine exec_answered h (by rw [hl]; rfl) ?_
    rw [effModeSet_listed ht hm hz (.inl hc), if_pos hc]
  · refine ⟨s1.leaveMaintenance.toMode m, exec_answered h (by rw [hl]; rfl) ?_, toMode_mode .., ?_, fun hmt => ?_⟩
    · rw [effModeSet_listed ht hm hz (.inr hmay), if_neg hc]
    · rw [toMode_objs, leaveMaintenance_objs]
    · rw [leaveMaintenance_other hmt]
      exact toMode_frame ..
  · subst hrec
    refine exec_waiting h (by rw [hl]; rfl) ?_
    rw [effFlightRecordRead_sized ht hn hb hz]
    exact writeThen_some hsome ..
  · refine exec_answered h (by rw [hl]; rfl) ?_
    rw [effFlightRecordRead_sized ht (by omega) (by omega) hz, recordsAsked, hn]
    rfl

/-! ### The thresholds a temperature sample is held against (R706) -/

/-- Changes brought in force: beyond what events change, they no longer wait (R47). -/
theorem inForce_same (s : State) (b : Boundary) :
    State.sameBut { s with sched := s.sched.filter fun e => e.at_ != b } (s.inForce b) := by
  unfold State.inForce
  refine foldl_same _ (fun s e => ?_) _ _
  split
  · exact applied_same ..
  · rfl

theorem inForce_mode (s : State) (b : Boundary) : (s.inForce b).mode = s.mode := by
  have h := inForce_same s b
  unfold State.sameBut at h
  rw [h]
  rfl

theorem inForce_pwr (s : State) (b : Boundary) : (s.inForce b).pwr = s.pwr := by
  have h := inForce_same s b
  unfold State.sameBut at h
  rw [h]

theorem newThresholds_mode (s : State) : s.newThresholds.mode = s.mode := inForce_mode ..

/-- A sample takes up the trip temperature that waits for it. -/
theorem newThresholds_trip {s : State} {w h t : Int} (hp : s.pwr.pend = some (w, h, t)) : s.newThresholds.pwr.trip = t := by
  unfold State.newThresholds
  rw [inForce_pwr, State.updPwr_pwr, hp]

/-- An always-on sample below the trip temperature in force once it is taken changes no mode (R706). -/
theorem aonTemperatureSample_below {s : State} {x : Int} (h : x < s.newThresholds.pwr.trip) :
    ∃ t, exec (.aonTemperatureSample x) s = .next t ∧ t.mode = s.mode :=
  ⟨_, congrArg Host.Outcome.next (if_neg (Int.not_le.mpr h)), newThresholds_mode s⟩

/-- A bridge in STANDALONE with a trip temperature of 100 °C, which a ThermalSet has raised to 115 °C as from the next sample (R705). -/
def tripRaised : State :=
  { idleAt 0 .standalone with pwr := { State.reset.pwr with warn := 80, shed := 90, trip := 100, pend := some (90, 100, 115) } }

/-- Refutes O25: a sample is held against the thresholds that it takes up (R706), not against those in force before it. On
`tripRaised` an always-on sample of 105 °C, above the old trip temperature and below the new, does not halt. -/
theorem not_powerEventsComplete : ¬ Obligations.PowerEventsComplete := by
  unfold Obligations.PowerEventsComplete
  rintro ⟨-, -, -, haon, -⟩
  obtain ⟨t, ht, -, hhalt, -⟩ := haon tripRaised 105 (by decide) (by decide)
  have hnew : (105 : Int) < tripRaised.newThresholds.pwr.trip := by
    rw [newThresholds_trip (s := tripRaised) rfl]
    decide
  obtain ⟨u, hu, hmode⟩ := aonTemperatureSample_below hnew
  obtain rfl : t = u := Host.Outcome.next.inj (ht.symm.trans hu)
  have hstay : t.mode = .halt := hhalt (by decide)
  rw [hmode] at hstay
  exact nomatch hstay

end Sys2Proof.Machine
end

section
/-!
PROOFS. The matrix commands: what a check of node entries lets through, the state in which writes or a fade are placed, and what each
command's own part answers (R140, R143, R146, R150, R155, R158, R175, R176).
-/

namespace Sys2Proof.Machine

/-! ### Admission, and a change that waits for its boundary -/

/-- A change that fits its budgets goes on with its increases reserved (R115). -/
theorem admission_admits {s : State} {c : Costs} (h : s.admits c = true) (k : State → Costs → Eff) :
    s.admission c [] k = k (s.reserve (overCost c [])) (overCost [] c) := by
  rw [State.admission, Option.isNone_iff_eq_none.mp h]

/-- A change that waits is listed, and counted on its mailbox where a command is behind it. -/
theorem schedule_frame (s : State) (b : Boundary) (o : Origin) (a : Act) :
    s.schedule b o a = { s with sched := (s.schedule b o a).sched, mbx := (s.schedule b o a).mbx } := by
  unfold State.schedule
  split <;> rfl

section
variable (s : State) (b : Boundary) (o : Origin) (a : Act)

@[simp] theorem schedule_objs : (s.schedule b o a).objs = s.objs := by rw [schedule_frame]
@[simp] theorem schedule_matrix : (s.schedule b o a).matrix = s.matrix := by rw [schedule_frame]
@[simp] theorem schedule_audio : (s.schedule b o a).audio = s.audio := by rw [schedule_frame]

/-- The change stands among those that wait. -/
theorem schedule_waits : ∃ e ∈ (s.schedule b o a).sched, e.at_ = b ∧ e.act = a ∧ e.org = o := by
  have hmem (l : List Sched) (e : Sched) : e ∈ l ++ [e] := List.mem_append_right _ (List.mem_singleton_self e)
  unfold State.schedule
  split <;> exact ⟨_, hmem .., rfl, rfl, rfl⟩

end

/-! ### Placing writes and fades (R140, R143, R146, R150) -/

/-- The state once an admitted change of the placed writes and fades to `x` stands in block `b` for mailbox `f`. -/
def State.placing (s : State) (x : Matrix) (f b : Nat) (tiles : List Nat) : State :=
  ((s.reserve (overCost (tileCost (s.tileAsk x tiles)) [])).retile x b tiles).placedAt f b

/-- A command's place moves its ring's floor and may count as rolled; nothing else changes. -/
theorem placedAt_frame (s : State) (f b : Nat) :
    s.placedAt f b = { s with matrix := { s.matrix with
      floor := (s.placedAt f b).matrix.floor, rolled := (s.placedAt f b).matrix.rolled } } := by
  unfold State.placedAt
  split <;> rfl

section
variable (s : State) (x : Matrix) (f b : Nat) (tiles : List Nat)

@[simp] theorem placing_objs : (s.placing x f b tiles).objs = s.objs := by rw [State.placing, placedAt_frame]; rfl
@[simp] theorem placing_plane : (s.placing x f b tiles).matrix.plane = x.plane := by rw [State.placing, placedAt_frame]; rfl
@[simp] theorem placing_queue : (s.placing x f b tiles).matrix.queue = x.queue := by rw [State.placing, placedAt_frame]; rfl
@[simp] theorem placing_fades : (s.placing x f b tiles).matrix.fades = x.fades := by rw [State.placing, placedAt_frame]; rfl

end

section
variable {s : State} {f b : Nat} {o : Origin} {ws : List (Node × BitVec 16 × Nat × Nat)}

/-- The state once admitted writes stand in block `b`. -/
def State.placingWrites (s : State) (f : Nat) (o : Origin) (ws : List (Node × BitVec 16 × Nat × Nat)) (b : Nat) : State :=
  s.placing (s.matrix.withWrites b o ws) f b (tilesOf (ws.map (·.1)))

@[simp] theorem placingWrites_objs : (s.placingWrites f o ws b).objs = s.objs := placing_objs ..
@[simp] theorem placingWrites_plane : (s.placingWrites f o ws b).matrix.plane = s.matrix.plane := placing_plane ..

/-- The writes stand behind those placed before them. -/
@[simp] theorem placingWrites_queue :
    (s.placingWrites f o ws b).matrix.queue = s.matrix.queue ++ [{ block := b, what := .writes ws, org := o }] := placing_queue ..

theorem writeNodes_placed (hws : ws ≠ []) (hb : s.placeBlock f ws.length = some b)
    (ha : s.admits (tileCost (s.tileAsk (s.matrix.withWrites b o ws) (tilesOf (ws.map (·.1))))) = true)
    (hold : Bytes) (k : State → Nat → Eff) : s.writeNodes f o ws hold k = k (s.placingWrites f o ws b) b := by
  have hne : ws.isEmpty = false := by simpa using hws
  simp only [State.writeNodes, hne, Bool.false_eq_true, if_false, hb, admission_admits ha]
  rfl

end

/-! ### NodeSet and NodeSetBulk (R143, R172 to R175) -/

/-- Node entries of live legs, without a set reserved field and without a break of R654, go on as writes. -/
theorem checkNodes_ok {s : State} {l : List (Nat × Nat × BitVec 16 × Nat)} {ws : List (Node × BitVec 16 × Nat × Nat)}
    (hw : s.nodeWrites 0 l = .ok ws) (hz : ∀ e ∈ l, e.2.2.2 = 0) (hc : ∀ w ∈ ws, s.breaksNode w.2.2.1 w.2.2.2 w.2.1 = false)
    (k : List (Node × BitVec 16 × Nat × Nat) → Eff) : s.checkNodes l k = k ws := by
  have hzero : (l.findIdx? fun e => e.2.2.2 != 0) = none := List.findIdx?_eq_none_iff.mpr fun e he => by simp [hz e he]
  have hcrit : (ws.findIdx? fun w => s.breaksNode w.2.2.1 w.2.2.2 w.2.1) = none := List.findIdx?_eq_none_iff.mpr hc
  simp only [State.checkNodes, hw, hzero, hcrit]

section
variable {r : Req} {s : State} {b : Nat}

theorem effNodeSet_placed {ws : List (Node × BitVec 16 × Nat × Nat)} (ht : r.target = 0)
    (hl : r.payload.length = 4 + 12 * u16 r.payload 0) (hz : zeros r.payload 2 2 = true)
    (hw : s.nodeWrites 0 (nodeEntries (r.payload.drop 4) (u16 r.payload 0)) = .ok ws) (hws : ws ≠ [])
    (hze : ∀ e ∈ nodeEntries (r.payload.drop 4) (u16 r.payload 0), e.2.2.2 = 0)
    (hc : ∀ w ∈ ws, s.breaksNode w.2.2.1 w.2.2.2 w.2.1 = false) (hb : s.placeBlock r.mbx ws.length = some b)
    (ha : s.admits (tileCost (s.tileAsk (s.matrix.withWrites b (r.origin 0) ws) (tilesOf (ws.map (·.1))))) = true) :
    effNodeSet r s = .later (le 8 b) 0
      ((s.placingWrites r.mbx (r.origin 0) ws b).schedule (.block b) (r.origin 0) .applied) := by
  simp only [effNodeSet, nullTarget_null ht, hl, beq_self_eq_true, need_true, checkNodes_ok hw hze hc, hz, State.nodeSet, tgt_null ht,
    writeNodes_placed hws hb ha]

/-- NodeSetBulk of entries to read waits for its data. -/
theorem effNodeSetBulk_reads (ht : r.target = 0) (hn : u32 r.payload 0 ≤ 65536) (hd : u32 r.payload 16 = 12 * u32 r.payload 0)
    (hpos : 0 < u32 r.payload 0) (hz : zeros r.payload 4 4 = true) (hz' : zeros r.payload 20 4 = true) :
    effNodeSetBulk r s = .wait .read [] s := by
  have hlen : 12 * u32 r.payload 0 ≠ 0 := by omega
  simp only [effNodeSetBulk, nullTarget_null ht, hn, hd, hz, hz', decide_true, beq_self_eq_true, Bool.and_self, need_true, readThen,
    if_neg hlen]

/-! ### NodeFade and NodeGet (R150 to R153, Table 5.8) -/

/-- The state once the admitted fade of a NodeFade stands from block `b` on. -/
def State.placingFade (s : State) (f : Nat) (fd : Fade) : State :=
  s.placing (s.matrix.withFade fd) f fd.start [tileOf fd.node]

section
variable {f : Nat} {fd : Fade}

@[simp] theorem placingFade_objs : (s.placingFade f fd).objs = s.objs := placing_objs ..
@[simp] theorem placingFade_plane : (s.placingFade f fd).matrix.plane = s.matrix.plane := placing_plane ..
@[simp] theorem placingFade_queue : (s.placingFade f fd).matrix.queue = s.matrix.queue := placing_queue ..

/-- A fade with steps stands among the others. -/
theorem placingFade_mem (h : fd.gains ≠ []) : fd ∈ (s.placingFade f fd).matrix.fades := by
  rw [State.placingFade, placing_fades]
  simp [Matrix.withFade, h]

end

section
variable {ka kb : Nat} (ht : r.target = 0) (hka : s.lives (u32 r.payload 0) ka 0x02) (hkb : s.lives (u32 r.payload 4) kb 0x02)
include ht hka hkb

theorem effNodeFade_placed {gains : List (BitVec 16)} {cut : Bool}
    (h1 : 1 ≤ u8 r.payload 10) (h10 : u8 r.payload 10 ≤ 10) (hz : zeros r.payload 11 1 = true)
    (hc : s.breaksNode ka kb (BitVec.ofNat 16 (u16 r.payload 8)) = false)
    (hmay : s.matrix.mayFade (node (s.legM ka) (s.legM kb)) gains.length = true)
    (hb : s.placeFade r.mbx (node (s.legM ka) (s.legM kb)) (BitVec.ofNat 16 (u16 r.payload 8)) (u8 r.payload 10) = some (b, gains, cut))
    (ha : s.admits (tileCost (s.tileAsk (s.matrix.withFade (fadeOf r s ka kb b gains cut)) [tileOf (node (s.legM ka) (s.legM kb))])) = true) :
    effNodeFade r s = .later (le 8 b) 0
      ((s.placingFade r.mbx (fadeOf r s ka kb b gains cut)).schedule (.block b) (r.origin 0) .applied) := by
  simp only [effNodeFade, nullTarget_null ht, withHandle_ok hka, withHandle_ok hkb, h1, h10, hz, hc, decide_true, Bool.not_false,
    Bool.and_self, need_true, hb, hmay, admission_admits ha, tgt_null ht]
  rfl

/-- NodeGet answers the gain in force, the gain four blocks on, and four bytes about the fade of the node. -/
theorem effNodeGet_gains : ∃ fade : Bytes, fade.length = 4 ∧
    effNodeGet r s = .done (le 2 (s.gainAfter (node (s.legM ka) (s.legM kb)) s.block).toNat ++
      le 2 (s.gainAfter (node (s.legM ka) (s.legM kb)) (s.block + 4)).toNat ++ fade) 0 s := by
  simp only [effNodeGet, nullTarget_null ht, withHandle_ok hka, withHandle_ok hkb, tgt_null ht]
  refine ⟨_, ?_, rfl⟩
  split
  · simp only [List.length_append, le_length]
  · exact le_length ..

end

/-! ### The reads of the matrix (R176, Table 5.14) -/

theorem effMatrixTileMapGet_writes (ht : r.target = 0) (hd : u32 r.payload 8 = 8192) (hz : zeros r.payload 12 4 = true) :
    effMatrixTileMapGet r s = .wait .write (le 8 s.planeBlock) (s.emit (.hostWrite (u64 r.payload 0) (tileMap s.matrix.count))) := by
  simp only [effMatrixTileMapGet, nullTarget_null ht, hd, hz, beq_self_eq_true, Bool.and_self, need_true]

/-- MatrixStatsGet answers 48 bytes, and the longest mix starts again. -/
theorem effMatrixStatsGet_answers (ht : r.target = 0) : ∃ p : Bytes, p.length = 48 ∧
    effMatrixStatsGet r s = .done p 0 (s.updMatrix fun x => { x with longest := 0 }) := by
  simp only [effMatrixStatsGet, nullTarget_null ht, tgt_null ht]
  exact ⟨_, by simp only [List.length_append, le_length], rfl⟩

/-! ### SessionMixSet (R158 to R160) -/

/-- A session's mix mode and gain recorded. -/
def State.setMix (s : State) (ses : Nat) (auto : Bool) (g : BitVec 16) : State :=
  { s with audio := { s.audio with sessions := tset s.audio.sessions ses { autoMix := auto, gain := g } } }

@[simp] theorem setMix_objs (ses : Nat) (auto : Bool) (g : BitVec 16) : (s.setMix ses auto g).objs = s.objs := rfl
@[simp] theorem setMix_matrix (ses : Nat) (auto : Bool) (g : BitVec 16) : (s.setMix ses auto g).matrix = s.matrix := rfl
@[simp] theorem setMix_session (ses : Nat) (auto : Bool) (g : BitVec 16) :
    tget? (s.setMix ses auto g).audio.sessions ses = some { autoMix := auto, gain := g } := tget?_tset_same ..

section
variable {key : Nat} (hk : s.lives r.tgt key 0x01) (hz : zeros r.payload 1 1 = true)
include hk hz

theorem effSessionMixSet_off (h0 : u8 r.payload 0 = 0) :
    effSessionMixSet r s = .done [] r.tgt (s.setMix (kidx key) false (BitVec.ofNat 16 (u16 r.payload 2))) := by
  simp only [effSessionMixSet, withHandle_ok hk, h0, hz]
  rfl

theorem effSessionMixSet_on (h1 : u8 r.payload 0 = 1) (hn : (s.members (kidx key) true).length ≤ 256)
    (hc : s.breaksSession (s.members (kidx key) false) = false) (hws : s.meshWrites (kidx key) (BitVec.ofNat 16 (u16 r.payload 2)) ≠ [])
    (hb : s.placeBlock r.mbx (s.meshWrites (kidx key) (BitVec.ofNat 16 (u16 r.payload 2))).length = some b)
    (ha : s.admits (tileCost (s.tileAsk
      (s.matrix.withWrites b (r.origin r.tgt) (s.meshWrites (kidx key) (BitVec.ofNat 16 (u16 r.payload 2))))
      (tilesOf ((s.meshWrites (kidx key) (BitVec.ofNat 16 (u16 r.payload 2))).map (·.1))))) = true) :
    effSessionMixSet r s = .later [] r.tgt
      (((s.placingWrites r.mbx (r.origin r.tgt) (s.meshWrites (kidx key) (BitVec.ofNat 16 (u16 r.payload 2))) b).setMix (kidx key) true
        (BitVec.ofNat 16 (u16 r.payload 2))).schedule (.block b) (r.origin r.tgt) .applied) := by
  have hroom : decide (256 < (s.members (kidx key) true).length) = false := decide_eq_false (by omega)
  simp only [effSessionMixSet, withHandle_ok hk, h1, hz, hroom, hc, writeNodes_placed hws hb ha]
  rfl

end

end

/-- Settles O27: each own part by its lemma above; what is placed is read through the frame of its place and of its schedule. -/
theorem matrixCommandsComplete : Obligations.MatrixCommandsComplete := by
  unfold Obligations.MatrixCommandsComplete
  refine ⟨fun r s s1 ws b h ht hl hz hw hws hze hc hb ha => ?_, fun r s s1 h ht hl hn hd hpos hz hz' => ?_,
    fun r s s1 ka kb b gains cut h ht hl hka hkb h1 h10 hz hc hmay hb ha => ?_, fun r s s1 ka kb h ht hl hka hkb => ?_,
    fun r s s1 h ht hl hd hz => ?_, fun r s s1 h ht hp => ?_, fun r s s1 key h hl hk h0 hz => ?_,
    fun r s s1 key ws b h hl hk h1 hn hz hc hmesh hws hb ha => ?_⟩
  · refine ⟨_, exec_accepted h (by rw [hl]; exact beq_self_eq_true _) (effNodeSet_placed ht hl hz hw hws hze hc hb ha), ?_, ?_, ?_,
      schedule_waits ..⟩
    · rw [schedule_objs, placingWrites_objs]
    · rw [schedule_matrix, placingWrites_plane]
    · rw [schedule_matrix, placingWrites_queue]
  · exact exec_waiting h (by rw [hl]; rfl) (effNodeSetBulk_reads ht hn hd hpos hz hz')
  · refine ⟨_, exec_accepted h (by rw [hl]; rfl) (effNodeFade_placed ht hka hkb h1 h10 hz hc hmay hb ha), ?_, ?_, ?_, fun hg =>
      ⟨fadeOf r s1 ka kb b gains cut, ?_, rfl, rfl, rfl⟩⟩
    · rw [schedule_objs, placingFade_objs]
    · rw [schedule_matrix, placingFade_plane]
    · rw [schedule_matrix, placingFade_queue]
    · rw [schedule_matrix]
      exact placingFade_mem hg
  · obtain ⟨fade, hfade, hget⟩ := effNodeGet_gains ht hka hkb
    refine ⟨_, ?_, ?_, exec_answered h (by rw [hl]; rfl) hget⟩
    · simp only [List.length_append, le_length, hfade]
    · rw [u16, List.append_assoc, fld_le]
      exact Nat.mod_eq_of_lt (BitVec.isLt _)
  · exact exec_waiting h (by rw [hl]; rfl) (effMatrixTileMapGet_writes ht hd hz)
  · obtain ⟨p, hlen, hstats⟩ := effMatrixStatsGet_answers (s := s1) ht
    exact ⟨p, hlen, exec_answered h (by rw [hp]; rfl) hstats⟩
  · exact exec_answered h (by rw [hl]; rfl) (effSessionMixSet_off hk hz h0)
  · subst hmesh
    refine ⟨_, exec_accepted h (by rw [hl]; rfl) (effSessionMixSet_on hk hz h1 hn hc hws hb ha), ?_, ?_, ?_, ?_, schedule_waits ..⟩
    · rw [schedule_objs, setMix_objs, placingWrites_objs]
    · rw [schedule_matrix, setMix_matrix, placingWrites_plane]
    · rw [schedule_audio, setMix_session]
    · rw [schedule_matrix, setMix_matrix, placingWrites_queue]

end Sys2Proof.Machine
end

section
/-!
PROOFS. What sending leaves of the state: a response, an event, a frame of a port or a link and a packet under a key change their own
units and leave the clock, the objects and the video side alone (R316, R474, R492, R638, R656).
-/

namespace Sys2Proof.Machine

/-- Two states differ at most in what sending changes: mailboxes, window, outputs, draws, and the units a frame passes. -/
def State.sentOnly (s t : State) : Prop :=
  t = { s with mbx := t.mbx, nmc := t.nmc, out := t.out, fresh := t.fresh, work := t.work, net := t.net, framer := t.framer,
               cascade := t.cascade, onyx := t.onyx }

theorem sentOnly_of_same {s t : State} (h : s.sameBut t) : s.sentOnly t := by
  unfold State.sameBut at h
  unfold State.sentOnly
  rw [h]

theorem sentOnly_trans {a b c : State} (h : a.sentOnly b) (k : b.sentOnly c) : a.sentOnly c := by
  unfold State.sentOnly at *
  rw [k, h]

theorem sentOnly_foldl {α : Type} {g : State → α → State} (h : ∀ s a, State.sentOnly s (g s a)) (l : List α) (s : State) :
    s.sentOnly (l.foldl g s) := by
  induction l generalizing s with
  | nil => rfl
  | cons a l ih => exact sentOnly_trans (h s a) (ih _)

theorem raiseAll_sent (s : State) (op : Nat) (p : Bytes) : s.sentOnly (s.raiseAll op p) := sentOnly_of_same (raiseAll_same ..)

/-! ### Frames of a port (R419, R421) -/

theorem sendFrame_sent (s : State) (port : Nat) (f : Bytes) : s.sentOnly (s.sendFrame port f) := by
  have hscr : s.sentOnly (s.scrambled port f) := by
    unfold State.scrambled
    split <;> rfl
  unfold State.sendFrame
  split
  · exact sentOnly_trans hscr rfl
  · rfl

theorem sendPaced_sent (s : State) (port q deadline : Nat) (f : Bytes) : s.sentOnly (s.sendPaced port q deadline f) := by
  unfold State.sendPaced
  split
  · rfl
  · exact sendFrame_sent ..

theorem sendUdp_sent (s : State) (r : Route) (p : Bytes) : s.sentOnly (s.sendUdp r p) := by
  unfold State.sendUdp
  split
  · exact sendPaced_sent ..
  · rfl

/-! ### Packets under a key (R474, R490, R491) -/

theorem keyEvent_sent (s : State) (i op kind dir value : Nat) : s.sentOnly (s.keyEvent i op kind dir value) :=
  sentOnly_of_same (raise_same ..)

theorem keyRefuse_sent (s : State) (i : Nat) (c : KeyCtx) (kind value : Nat) : s.sentOnly (s.keyRefuse i c kind value) := by
  unfold State.keyRefuse
  dsimp only
  split
  · rfl
  · exact sentOnly_trans (b := s.setKey i _) rfl (keyEvent_sent ..)

theorem keyWarn_sent (s : State) (i : Nat) (rtcp : Bool) (value : Nat) : s.sentOnly (s.keyWarn i rtcp value) := by
  unfold State.keyWarn
  split
  · rfl
  repeat' split
  · exact sentOnly_trans (b := s.setKey i _) rfl (keyEvent_sent ..)
  · rfl
  · exact sentOnly_trans (b := s.setKey i _) rfl (keyEvent_sent ..)
  · rfl

theorem keyDone_sent (s : State) (i : Nat) (c : KeyCtx) (rtcp : Bool) (v : Nat) : s.sentOnly (s.keyDone i c rtcp v) := by
  unfold State.keyDone
  dsimp only
  refine sentOnly_trans ?_ (keyWarn_sent ..)
  split
  · exact sentOnly_trans (b := s.setKey i _) rfl (keyEvent_sent ..)
  · rfl

theorem protectRtcp_sent (s : State) (i : Nat) (d : Bytes) : s.sentOnly (s.protectRtcp i d).1 := by
  unfold State.protectRtcp
  split
  · rfl
  dsimp only
  split
  · rfl
  split
  · exact keyRefuse_sent ..
  · exact keyDone_sent ..

/-- RTCP of a video leg. -/
theorem sendRtcp_sent (s : State) (key : Nat) (d : Bytes) : s.sentOnly (s.sendRtcp key d) := by
  unfold State.sendRtcp
  split
  · rfl
  next l _ =>
  dsimp only
  split
  · rfl
  split
  · exact sendUdp_sent ..
  have hkey := protectRtcp_sent s (u32 l.cfg 12 % 2 ^ 20) d
  split
  next t p he => rw [he] at hkey; exact sentOnly_trans hkey (sendUdp_sent ..)
  next t he => rw [he] at hkey; exact hkey

/-! ### BLP frames (R491, R492, R638) -/

theorem linkCount_sent (s : State) (l d cls ph n : Nat) : s.sentOnly (s.linkCount l d cls ph n) := by
  unfold State.linkCount
  dsimp only
  split
  · exact sentOnly_trans (b := s.setLinkKey l d _) rfl (raiseAll_sent ..)
  · rfl

theorem sealLink_sent (s : State) (l cls kind src dst hops block : Nat) (p : Bytes) :
    s.sentOnly (s.sealLink l cls kind src dst hops block p).1 := by
  have hcount (k : LinkKey) (ph n : Nat) : s.sentOnly ((s.setLinkKey l 1 k).linkCount l 1 cls ph n) :=
    sentOnly_trans (b := s.setLinkKey l 1 k) rfl (linkCount_sent ..)
  unfold State.sealLink
  dsimp only
  split
  · rfl
  split
  · rfl
  dsimp only
  split
  · exact sentOnly_trans (hcount ..) (raiseAll_sent ..)
  · exact hcount ..

theorem serveLink_sent (s : State) (l : Nat) (out : Bool) : s.sentOnly (s.serveLink l out) := by
  unfold State.serveLink
  repeat' split
  all_goals rfl

theorem linkShares_sent (s : State) (c l d : Nat) : s.sentOnly (s.linkShares c l d) := by
  have hdrawn : s.sentOnly (s.drawn c 512) := by
    unfold State.drawn
    dsimp only
    split <;> rfl
  exact sentOnly_trans hdrawn rfl

theorem blpSend_sent (s : State) (l cls kind src dst hops block : Nat) (p : Bytes) :
    s.sentOnly (s.blpSend l cls kind src dst hops block p) := by
  unfold State.blpSend
  dsimp only
  split
  · rfl
  split
  · exact sentOnly_trans (b := (s.setLinkQueue l true cls _).linkNote l true cls _ _) rfl (serveLink_sent ..)
  next c _ =>
    have hshare := sentOnly_trans (a := s) (b := (s.linkThrough l true cls (linkSize true p)).passOnyx 1 (linkDesc l 1 cls)) rfl
      (linkShares_sent _ c l 1)
    have hseal := sentOnly_trans hshare (sealLink_sent _ l cls kind src dst hops block p)
    split
    next t f he => rw [he] at hseal; exact sentOnly_trans hseal rfl
    next t he => rw [he] at hseal; exact hseal

/-- What a leader mirrors to the other devices of its trio. -/
theorem mirror_sent (s : State) (key kind block pos pic : Nat) (d : Bytes) : s.sentOnly (s.mirror key kind block pos pic d) := by
  unfold State.mirror
  split
  · rfl
  split
  · exact sentOnly_foldl (fun s _ => blpSend_sent ..) _ _
  · rfl

end Sys2Proof.Machine
end

section
/-!
PROOFS. Key-frame requests and the choice of wanted points: what they leave of the video legs, and the point chosen (R314 to R316,
R352, R365 to R370, R380).
-/

namespace Sys2Proof.Machine

/-! ### Keys of objects -/

theorem kidx_okey {ty i : Nat} (h : i < 2 ^ 20) : kidx (okey ty i) = i := by unfold kidx okey; omega

theorem ktype_okey {ty i : Nat} (h : i < 2 ^ 20) : ktype (okey ty i) = ty := by unfold ktype okey; omega

/-- A video leg is read under its index. -/
theorem vleg_okey {i : Nat} (h : i < 2 ^ 20) (s : State) : s.vleg (okey 3 i) = tget? s.video.legs i := by
  rw [State.vleg, if_pos (ktype_okey h), kidx_okey h]

/-- Of keys listed once, each entry is the one that is found. -/
theorem tget?_of_mem {α : Type} {t : Table α} {e : Nat × α} (hn : (t.map (·.1)).Nodup) (h : e ∈ t) : tget? t e.1 = some e.2 := by
  induction t with
  | nil => cases h
  | cons a r ih =>
    rw [List.map_cons, List.nodup_cons] at hn
    obtain rfl | h := List.mem_cons.1 h
    · exact if_pos rfl
    · exact (if_neg fun he => hn.1 (List.mem_map.2 ⟨e, h, he.symm⟩)).trans (ih hn.2 h)

/-! ### What changes of the video legs -/

/-- What no request and no choice changes of a video leg: its configuration, its window of accepted packets, its target. -/
def VLeg.lasting (l : VLeg) : Bytes × List (Nat × Nat × Nat × Nat) × Nat := (l.cfg, l.window, l.target)

/-- The objects, the clock and what is lasting of every video leg stay, and the wanted point of every leg but those of `W`. -/
structure State.keepsLegs (W : Nat → Prop) (s t : State) : Prop where
  objs : t.objs = s.objs
  now : t.now = s.now
  lasting : ∀ i, (tget? t.video.legs i).map VLeg.lasting = (tget? s.video.legs i).map VLeg.lasting
  wanted : ∀ i, ¬ W i → (tget? t.video.legs i).map (·.wanted) = (tget? s.video.legs i).map (·.wanted)

section
variable {W : Nat → Prop}

theorem keepsLegs_refl (s : State) : s.keepsLegs W s := ⟨rfl, rfl, fun _ => rfl, fun _ _ => rfl⟩

theorem keepsLegs_trans {a b c : State} (h : a.keepsLegs W b) (k : b.keepsLegs W c) : a.keepsLegs W c where
  objs := k.objs.trans h.objs
  now := k.now.trans h.now
  lasting i := (k.lasting i).trans (h.lasting i)
  wanted i hi := (k.wanted i hi).trans (h.wanted i hi)

theorem keepsLegs_mono {V : Nat → Prop} {s t : State} (h : s.keepsLegs V t) (hv : ∀ i, V i → W i) : s.keepsLegs W t :=
  { h with wanted := fun i hi => h.wanted i (mt (hv i) hi) }

theorem keepsLegs_foldl {α : Type} {g : State → α → State} {l : List α} (h : ∀ a ∈ l, ∀ s, State.keepsLegs W s (g s a)) (s : State) :
    s.keepsLegs W (l.foldl g s) := by
  induction l generalizing s with
  | nil => exact keepsLegs_refl s
  | cons a l ih => exact keepsLegs_trans (h a (.head _) s) (ih (fun b hb => h b (.tail _ hb)) _)

theorem keepsLegs_of_sent {s t : State} (h : s.sentOnly t) : s.keepsLegs W t := by
  unfold State.sentOnly at h
  rw [h]
  exact ⟨rfl, rfl, fun _ => rfl, fun _ _ => rfl⟩

theorem raise_keepsLegs (s : State) (k op : Nat) (p : Bytes) : s.keepsLegs W (s.raise k op p) :=
  keepsLegs_of_sent (sentOnly_of_same (raise_same ..))

/-- A field of every leg that an update of one leg keeps. -/
theorem tget?_tupd_keeps {α β : Type} {f : α → α} {g : α → β} (h : ∀ a, g (f a) = g a) (t : Table α) (k i : Nat) :
    (tget? (tupd t k f) i).map g = (tget? t i).map g := by
  by_cases hi : i = k
  · subst hi
    rw [tget?_tupd_same, Option.map_map]
    exact congrArg (Option.map · _) (funext h)
  · rw [tget?_tupd_other _ _ hi]

/-- An update of a leg that keeps what is lasting, its wanted point besides unless the leg is one of `W`. -/
theorem updVleg_keepsLegs (s : State) {key : Nat} {f : VLeg → VLeg} (hl : ∀ l, (f l).lasting = l.lasting := by exact fun _ => rfl)
    (hw : W (kidx key) ∨ ∀ l, (f l).wanted = l.wanted := by exact .inr fun _ => rfl) : s.keepsLegs W (s.updVleg key f) where
  objs := rfl
  now := rfl
  lasting i := tget?_tupd_keeps hl ..
  wanted i hi := by
    obtain hk | hw := hw
    · exact congrArg _ (tget?_tupd_other _ _ fun he => hi (he ▸ hk))
    · exact tget?_tupd_keeps hw ..

theorem updDec_keepsLegs (s : State) (key : Nat) (f : Decode → Decode) : s.keepsLegs W (s.updDec key f) :=
  updVleg_keepsLegs s

/-! ### Requests (R314 to R316, R352) -/

theorem sendRequest_keepsLegs (s : State) (key : Nat) (q : KeyReq) : s.keepsLegs W (s.sendRequest key q) := by
  unfold State.sendRequest
  split
  · exact keepsLegs_refl s
  · exact keepsLegs_trans (keepsLegs_trans (keepsLegs_of_sent (sentOnly_trans (sendRtcp_sent ..) (mirror_sent ..)))
      (updVleg_keepsLegs _)) (updDec_keepsLegs ..)

theorem request_keepsLegs (s : State) (key : Nat) (q : KeyReq) : s.keepsLegs W (s.request key q) := by
  unfold State.request
  split
  · exact keepsLegs_refl s
  split
  · exact sendRequest_keepsLegs ..
  · exact updVleg_keepsLegs s

theorem policyRequest_keepsLegs (s : State) (key : Nat) (fir : Bool) : s.keepsLegs W (s.policyRequest key fir) := by
  unfold State.policyRequest
  split
  next l d _ _ =>
    dsimp only
    split
    · exact keepsLegs_refl s
    · generalize (if u8 d.cfg 24 = 1 ∨ (u8 d.cfg 24 = 3 ∧ !fir) then 1 else 2) = m
      split
      · exact keepsLegs_trans (request_keepsLegs ..) (updDec_keepsLegs ..)
      · exact request_keepsLegs ..
  · exact keepsLegs_refl s

theorem episode_keepsLegs (s : State) (key : Nat) : s.keepsLegs W (s.episode key) := by
  unfold State.episode
  split
  · split
    · exact keepsLegs_refl s
    · exact keepsLegs_trans (updDec_keepsLegs ..) (policyRequest_keepsLegs ..)
  · exact keepsLegs_refl s

theorem streamRequest_keepsLegs (s : State) (key n : Nat) (told : Bool) : s.keepsLegs W (s.streamRequest key n told) := by
  unfold State.streamRequest
  split
  · exact keepsLegs_refl s
  · exact keepsLegs_trans (b := s.requestAt key n _ told) ⟨rfl, rfl, fun _ => rfl, fun _ _ => rfl⟩
      (keepsLegs_of_sent (mirror_sent ..))

theorem askSource_keepsLegs (s : State) (key : Nat) : s.keepsLegs W (s.askSource key) := by
  have hasked : s.keepsLegs W (s.updVleg key fun l => { l with asked := true }) := updVleg_keepsLegs s
  unfold State.askSource
  split
  · exact keepsLegs_refl s
  split
  · split
    · exact keepsLegs_refl s
    dsimp only
    split
    · exact keepsLegs_trans hasked (request_keepsLegs ..)
    · exact keepsLegs_trans hasked (streamRequest_keepsLegs ..)
  · exact keepsLegs_refl s

end

/-! ### The wanted point chosen (R366, R370) -/

/-- The point that a leg fed by `src` is to want. -/
def State.choice (s : State) (l : VLeg) (src : Nat) : Option (Nat × Nat) :=
  wantedPoint (s.points src l.maxS l.maxT) (s.pointRate src) (if l.st = 2 then l.cur else none) (min l.target (u32 l.cfg 32))
    (u8 l.cfg 19 / 4 % 2 == 1)

/-- A leg fed by a source, flowing and not unbound, wants its choice; what follows from that changes no wanted point. -/
theorem chooseWanted_sets {s : State} {key src : Nat} {l : VLeg} (hl : s.vleg key = some l) (hsrc : l.source = some src)
    (hf : s.flows key = true) (hst : l.st ≠ 0) : State.keepsLegs (fun _ => False)
      (s.updVleg key fun x => { x with wanted := s.choice l src, asked := x.asked && !(s.choice l src != l.wanted) }) (s.chooseWanted key) := by
  have hgo : (!s.flows key || l.st == 0) = false := by simp [hf, hst]
  unfold State.chooseWanted State.choice
  simp only [hl, hsrc, hgo, Bool.false_eq_true, if_false]
  generalize wantedPoint _ _ _ _ _ = w
  generalize s.updVleg key _ = u
  cases w with
  | none =>
    dsimp only
    split
    · exact keepsLegs_trans (updVleg_keepsLegs _) (raise_keepsLegs ..)
    · exact keepsLegs_refl u
  | some p =>
    dsimp only
    have hback : State.keepsLegs (fun _ => False) u (if l.st = 3 then (u.updVleg key fun l => { l with st := 1 }).forwardState key 2 else u) := by
      split
      · exact keepsLegs_trans (updVleg_keepsLegs _) (raise_keepsLegs ..)
      · exact keepsLegs_refl u
    revert hback
    generalize (if l.st = 3 then _ else u) = v
    generalize (l.st != 2 || _) = waits
    intro hback
    split
    · exact keepsLegs_trans hback (askSource_keepsLegs ..)
    · exact hback

/-- The choice of one leg changes at most the wanted point of that leg. -/
theorem chooseWanted_keepsLegs (s : State) (key : Nat) : s.keepsLegs (· = kidx key) (s.chooseWanted key) := by
  cases hl : s.vleg key with
  | none => rw [State.chooseWanted, hl]; exact keepsLegs_refl s
  | some l =>
    cases hsrc : l.source with
    | none => simp only [State.chooseWanted, hl, hsrc]; exact keepsLegs_refl s
    | some src =>
      cases hstop : !s.flows key || l.st == 0 with
      | true =>
        simp only [State.chooseWanted, hl, hsrc, hstop, if_true]
        exact keepsLegs_refl s
      | false =>
        obtain ⟨hf, hst⟩ := Bool.or_eq_false_iff.1 hstop
        exact keepsLegs_trans (updVleg_keepsLegs s (hw := .inl rfl))
          (keepsLegs_mono (chooseWanted_sets hl hsrc (by simpa only [Bool.not_eq_false'] using hf) (beq_eq_false_iff_ne.1 hst)) fun _ => False.elim)

/-- The receiving legs of a state. -/
def State.receiving (s : State) (i : Nat) : Prop := ∃ e ∈ s.video.legs, e.2.sending = false ∧ kidx (okey 3 e.1) = i

theorem chooseAll_keepsLegs (s : State) : s.keepsLegs s.receiving s.chooseAll := by
  refine keepsLegs_foldl (fun e he s' => keepsLegs_mono (chooseWanted_keepsLegs s' _) fun i hi => ?_) s
  obtain ⟨hmem, hrecv⟩ := List.mem_filter.1 he
  exact ⟨e, hmem, by simpa using hrecv, hi.symm⟩

/-- A video leg that becomes ACTIVE at its frame boundary chooses anew, or asks as a decode does. -/
theorem vlegFlow_on_keepsLegs (s : State) (key : Nat) : s.keepsLegs (· = kidx key) (s.vlegFlow key true) := by
  unfold State.vlegFlow
  split
  · exact keepsLegs_refl s
  simp only [if_true]
  split
  · split
    · split
      · exact keepsLegs_trans (keepsLegs_trans (updVleg_keepsLegs s) (updDec_keepsLegs ..)) (episode_keepsLegs ..)
      · exact updVleg_keepsLegs s
    · exact updVleg_keepsLegs s
  · exact keepsLegs_trans (updVleg_keepsLegs s) (chooseWanted_keepsLegs ..)

/-! ### LAYER_RECOMPUTE (R365) -/

/-- The state at a recompute once every window is cut to the last 1.2 s. -/
def State.windowsCut (s : State) : State := { s with video := { s.video with
  legs := tmap s.video.legs (fun _ l => { l with window := l.window.filter fun e => decide (s.now < e.1 + 1200000000) }),
  encs := tmap s.video.encs (fun _ e => { e with streams := e.streams.map fun x =>
    { x with window := x.window.filter fun w => decide (s.now < w.1 + 1200000000) } }) } }

theorem exec_layerRecompute (s : State) : exec .layerRecompute s = .next s.windowsCut.chooseAll := rfl

theorem windowsCut_leg (s : State) (i : Nat) : tget? s.windowsCut.video.legs i =
    (tget? s.video.legs i).map fun l => { l with window := l.window.filter fun e => decide (s.now < e.1 + 1200000000) } := by
  rw [State.windowsCut, tget?_tmap]

/-- Cutting the windows makes no leg a receiving one. -/
theorem windowsCut_receiving {s : State} (hn : (s.video.legs.map (·.1)).Nodup) (hb : ∀ e ∈ s.video.legs, e.1 < 8192) {i : Nat} {l : VLeg}
    (hl : tget? s.video.legs i = some l) (hs : l.sending = true) : ¬ s.windowsCut.receiving i := by
  rintro ⟨c, hc, hrecv, hi⟩
  obtain ⟨e, he, rfl⟩ := List.mem_map.1 hc
  rw [kidx_okey (Nat.lt_trans (hb e he) (by decide))] at hi
  have hfound := tget?_of_mem hn he
  rw [hi, hl] at hfound
  cases hfound
  exact Bool.noConfusion (hs.symm.trans hrecv)

/-- What a recompute leaves of a leg: its window cut, its target and configuration, and the wanted point of a sending leg. -/
theorem recomputed_leg {s : State} (hn : (s.video.legs.map (·.1)).Nodup) (hb : ∀ e ∈ s.video.legs, e.1 < 8192) {i : Nat} {l : VLeg}
    (hl : tget? s.video.legs i = some l) : ∃ m, tget? s.windowsCut.chooseAll.video.legs i = some m ∧
      m.window = l.window.filter (fun e => decide (s.now < e.1 + 1200000000)) ∧ m.target = l.target ∧ m.cfg = l.cfg ∧
      (l.sending = true → m.wanted = l.wanted) := by
  obtain ⟨-, -, hlasting, hwanted⟩ := chooseAll_keepsLegs s.windowsCut
  have hcut := (windowsCut_leg s i).trans (congrArg _ hl)
  have hkept := hlasting i
  rw [hcut] at hkept
  obtain ⟨m, hm, hkept⟩ := Option.map_eq_some_iff.1 hkept
  simp only [VLeg.lasting, Prod.mk.injEq] at hkept
  obtain ⟨hcfg, hwindow, htarget⟩ := hkept
  refine ⟨m, hm, hwindow, htarget, hcfg, fun hs => ?_⟩
  have hwant := hwanted i (windowsCut_receiving hn hb hl hs)
  rw [hcut, hm] at hwant
  exact Option.some.inj hwant

/-- With one receiving leg, what every recompute chooses is the choice of that leg. -/
theorem windowsCut_chooseAll {s : State} {i : Nat} {l : VLeg} (h : (s.video.legs.filter fun e => !e.2.sending) = [(i, l)]) :
    s.windowsCut.chooseAll = s.windowsCut.chooseWanted (okey 3 i) := by
  have hcut : (s.windowsCut.video.legs.filter fun e => !e.2.sending) =
      [(i, { l with window := l.window.filter fun e => decide (s.now < e.1 + 1200000000) })] := by
    simp only [State.windowsCut, tmap, List.filter_map]
    exact congrArg (List.map _) h
  rw [State.chooseAll, hcut]
  rfl

/-- A leg that a choice is made for wants that choice afterwards. -/
theorem chooseWanted_wanted {s : State} {i src : Nat} {l : VLeg} (hi : i < 2 ^ 20) (hl : tget? s.video.legs i = some l)
    (hsrc : l.source = some src) (hf : s.flows (okey 3 i) = true) (hst : l.st ≠ 0) :
    ∃ m, tget? (s.chooseWanted (okey 3 i)).video.legs i = some m ∧ m.wanted = s.choice l src := by
  have hkeep := (chooseWanted_sets ((vleg_okey hi s).trans hl) hsrc hf hst).wanted i id
  rw [← vleg_okey hi (s.updVleg _ _), updVleg_vleg, vleg_okey hi, hl] at hkeep
  exact Option.map_eq_some_iff.1 hkeep

/-! ### Frame boundaries of video legs (Table 3.5) -/

/-- Changes of no boundary that has come stay as they are. -/
theorem runDue_none {s : State} {p : Boundary → Bool} (h : ∀ e ∈ s.sched, p e.at_ = false) : s.runDue p = s := by
  have hnone : (s.sched.filter fun e => p e.at_ && decide (e.from_ ≤ s.now)) = [] := by
    rw [List.filter_eq_nil_iff]
    exact fun e he => by simp [h e he]
  have hall : (s.sched.filter fun e => !(p e.at_ && decide (e.from_ ≤ s.now))) = s.sched := by
    rw [List.filter_eq_self]
    exact fun e he => by simp [h e he]
  simp only [State.runDue, hnone, hall, List.foldl_nil]

/-- What `due` says is due is what is put in force. -/
theorem runDue_due {s : State} {p : Boundary → Bool} {due : Sched → Bool} (h : ∀ e, (p e.at_ && decide (e.from_ ≤ s.now)) = due e) :
    s.runDue p = (s.sched.filter due).foldl State.applySched { s with sched := s.sched.filter fun e => !due e } := by
  simp only [State.runDue, h]

/-- A change that waited for the frame boundary of leg `i` since 100 ms or more (the text after R384). -/
def State.legPassed (s : State) (i : Nat) (b : Boundary) : Bool :=
  match b with
  | .leg j since => j == i && decide (since + 100000000 ≤ s.now)
  | _ => false

theorem exec_videoLegBoundaryTimeout (i : Nat) (s : State) :
    exec (.videoLegBoundaryTimeout i) s = .next (s.runDue (s.legPassed i)) := rfl

theorem legPassed_iff (s : State) (i : Nat) (b : Boundary) :
    s.legPassed i b = true ↔ ∃ since, b = .leg i since ∧ since + 100000000 ≤ s.now := by
  unfold State.legPassed
  split
  next j since =>
    rw [Bool.and_eq_true, beq_iff_eq, decide_eq_true_iff]
    constructor
    · rintro ⟨rfl, ht⟩
      exact ⟨since, rfl, ht⟩
    · rintro ⟨x, hx, ht⟩
      cases hx
      exact ⟨rfl, ht⟩
  next hno => exact ⟨fun h => Bool.noConfusion h, fun ⟨x, hx, _⟩ => absurd hx (hno i x)⟩

/-- The one change that waits, its boundary come, is put in force. -/
theorem runDue_one {s : State} {p : Boundary → Bool} {e : Sched} (hs : s.sched = [e]) (hp : p e.at_ = true) (hf : e.from_ ≤ s.now) :
    s.runDue p = State.applySched { s with sched := [] } e := by
  simp [State.runDue, hs, hp, hf]

/-- A leg that becomes ACTIVE at its frame boundary flows. -/
theorem flowObj_on_flows {s : State} {i : Nat} (hi : i < 2 ^ 20) (ho : (s.obj (okey 3 i)).isSome = true) :
    (s.flowObj (okey 3 i) true).flows (okey 3 i) = true := by
  obtain ⟨o, ho⟩ := Option.isSome_iff_exists.1 ho
  have hflow : s.flowObj (okey 3 i) true =
      (s.updObj (okey 3 i) fun o => { o with flow := true, unborn := o.unborn && !true }).vlegFlow (okey 3 i) true := by
    simp only [State.flowObj, ktype_okey hi]
    rfl
  have hobj : tget? s.objs (okey 3 i) = some o := ho
  rw [hflow, State.flows, State.obj, (vlegFlow_on_keepsLegs ..).objs, State.updObj_objs, tget?_tupd_same, hobj]
  rfl

end Sys2Proof.Machine
end

section
/-!
PROOFS. The commands of a sending leg's decode, and the timers of video and audio legs (R195, R305, R314 to R316, R319, R320).
-/

namespace Sys2Proof.Machine

/-- A change whose increases fit its budgets goes on with them reserved (R115). -/
theorem admission_fits {s : State} {new old : Costs} (h : s.firstOver (overCost new old) = none) (k : State → Costs → Eff) :
    s.admission new old k = k (s.reserve (overCost new old)) (overCost old new) := by
  rw [State.admission, h]

@[simp] theorem schedule_video (s : State) (b : Boundary) (o : Origin) (a : Act) : (s.schedule b o a).video = s.video := by
  rw [schedule_frame]

@[simp] theorem releaseAt_video (s : State) (b : Boundary) (c : Costs) : (s.releaseAt b c).video = s.video := by
  unfold State.releaseAt
  split <;> rfl

@[simp] theorem releaseAt_now (s : State) (b : Boundary) (c : Costs) : (s.releaseAt b c).now = s.now := by
  unfold State.releaseAt
  split <;> rfl

/-- A video leg is read from the video side alone. -/
theorem vleg_of_video {s t : State} (h : t.video = s.video) (key : Nat) : t.vleg key = s.vleg key := by rw [State.vleg, State.vleg, h]

section
variable {r : Req} {s : State} {key : Nat} {l : VLeg} (hk : s.lives r.tgt key 0x03) (hl : s.vleg key = some l) (hs : l.sending = true)
include hk hl hs

/-- An admitted DecodeSet declares its decode, which waits for the leg's next picture (R319, R320). -/
theorem effDecodeSet_admitted (hd : decodeOk r.payload = true) (hroom : syntaxSize r.payload ≤ s.syntaxFree key)
    (hfit : s.firstOver (overCost (decodeCost r.payload) ((l.decl.map decodeCost).getD [])) = none) :
    ∃ t : State, effDecodeSet r s = .later [] r.tgt (t.schedule (.picture (kidx key) s.now) (r.origin r.tgt) (.decodeSet key r.payload)) ∧
      t.vleg key = some { l with decl := some r.payload } := by
  simp only [effDecodeSet, withHandle_ok hk, hl, hs, hd, decide_eq_true hroom, Bool.and_self, need_true, admission_fits hfit, releaseAt_now]
  refine ⟨_, rfl, ?_⟩
  rw [vleg_of_video (releaseAt_video ..)]
  refine (updVleg_vleg ..).trans ?_
  exact congrArg (Option.map _) hl

/-- A DecodeClear takes the declaration back; the decode goes at the leg's frame boundary (R320). -/
theorem effDecodeClear_declared {p : Bytes} (hp : l.decl = some p) :
    ∃ t : State, effDecodeClear r s = .later [] r.tgt (t.schedule (s.legBound key) (r.origin r.tgt) (.decodeClear key)) ∧
      t.vleg key = some { l with decl := none } := by
  simp only [effDecodeClear, withHandle_ok hk, hl, hs, hp, need_true, State.legBound, releaseAt_now]
  refine ⟨_, rfl, ?_⟩
  rw [vleg_of_video (releaseAt_video ..)]
  refine (updVleg_vleg ..).trans ?_
  exact congrArg (Option.map _) hl

/-- KeyFrameRequest of an ACTIVE leg makes its request, and answers 1 where one may be sent now (Table 9.8). -/
theorem effKeyFrameRequest_answers (hlease : s.following = false ∨ s.critical key = false) (ha : s.isActive key = true)
    (hm : u8 r.payload 0 = 1 ∨ u8 r.payload 0 = 2) (hz : zeros r.payload 1 3 = true) :
    ∃ p : Bytes, effKeyFrameRequest r s = .done p r.tgt (s.request key { method := u8 r.payload 0, ssrc := l.ssrcOf 0, why := 2 }) ∧
      p.length = 4 ∧ (s.mayRequest l = true → p = le 4 1) := by
  have hfree : (!(s.following && s.critical key)) = true := by
    obtain h | h := hlease <;> simp [h]
  have hmethod : (u8 r.payload 0 == 1 || u8 r.payload 0 == 2) = true := by simpa using hm
  simp only [effKeyFrameRequest, withHandle_ok hk, hl, hs, hfree, ha, hmethod, hz, Bool.and_self, need_true]
  refine ⟨_, rfl, ?_, fun hnow => if_pos hnow⟩
  split
  · rfl
  · simp only [List.length_append, le_length]

theorem effDecodeStatsGet_answers : ∃ p : Bytes, p.length = 48 ∧ effDecodeStatsGet r s = .done p r.tgt s := by
  simp only [effDecodeStatsGet, withHandle_ok hk, hl, hs, need_true]
  exact ⟨_, by simp only [List.length_append, le_length], rfl⟩

end

/-! ### Timers -/

section
variable {s : State} {i : Nat}

/-- A start timeout that has passed in WAIT_RAP forces the decode to begin (R305). -/
theorem decodeStartTimeout_forces {t0 : Nat} {d : Decode} (hd : s.dec (okey 3 i) = some d) (hb : d.began = some t0) (hst : d.st = 1)
    (hc : u8 d.cfg 25 ≠ 0) (ht : t0 + u8 d.cfg 25 * 100000000 ≤ s.now) : exec (.decodeStartTimeout i) s =
      .next (s.updDec (okey 3 i) fun d => { d with forced := some (t0 + u8 d.cfg 25 * 100000000), began := none }) := by
  show execDecodeStartTimeout i s = _
  simp only [execDecodeStartTimeout, hd, hb]
  exact if_pos ⟨hst, hc, ht⟩

theorem exec_keyFrameRequestDeferred {l : VLeg} (hl : s.vleg (okey 3 i) = some l) : exec (.keyFrameRequestDeferred i) s =
    if s.mayRequest l then .next ((State.runDeferred (okey 3 i) l.deferred.length s).repeatRequest (okey 3 i)) else .next s := by
  show execKeyFrameRequestDeferred i s = _
  simp only [execKeyFrameRequestDeferred, hl]

theorem exec_firEscalation {t0 : Nat} {d : Decode} (hd : s.dec (okey 3 i) = some d) (he : d.episode = some (t0, false)) :
    exec (.firEscalation i) s =
      if u8 d.cfg 24 = 3 ∧ t0 + 500000000 ≤ s.now then .next (s.policyRequest (okey 3 i) true) else .next s := by
  show execFirEscalation i s = _
  simp only [execFirEscalation, hd, he]

/-- A leg without a packet for its media timeout is in NO_MEDIA and says so (R195, R208). -/
theorem legTimeout_expired {key : Nat} {l : Leg} (hl : s.leg key = some l) (hn : u16 l.cfg 18 ≠ 0) (hk : l.kind = 1 ∨ l.kind = 3)
    (hf : s.flows key = true) (hrx : l.rx ≠ 4) (ht : l.lastArrival + u16 l.cfg 18 * 1000000 ≤ s.now) :
    s.legTimeout key = (s.updLeg key fun l => { l with rx := 4, comfort := false }).mediaState key 1 := by
  simp only [State.legTimeout, hl]
  exact if_pos ⟨hn, hk, hf, hrx, ht⟩

/-- MediaState changes neither the audio side nor the objects. -/
theorem mediaState_frame (s : State) (key code : Nat) : (s.mediaState key code).audio = s.audio ∧ (s.mediaState key code).objs = s.objs := by
  have h : s.sameBut (s.mediaState key code) := raise_same ..
  unfold State.sameBut at h
  rw [h]
  exact ⟨rfl, rfl⟩

theorem leg_okey (hi : i < 2 ^ 20) (s : State) : s.leg (okey 2 i) = tget? s.audio.legs i := by rw [State.leg, kidx_okey hi]

theorem exec_mediaTimeout_audio (hi : i < 2 ^ 20) : exec (.mediaTimeout (okey 2 i)) s = .next (s.legTimeout (okey 2 i)) := by
  show Host.Outcome.next (if ktype (okey 2 i) = 3 then _ else _) = _
  rw [ktype_okey hi]
  rfl

theorem mediaTimeout_noMedia {l : Leg} (hi : i < 2 ^ 20) (hl : tget? s.audio.legs i = some l) (hn : u16 l.cfg 18 ≠ 0)
    (hk : l.kind = 1 ∨ l.kind = 3) (hf : s.flows (okey 2 i) = true) (hrx : l.rx ≠ 4)
    (ht : l.lastArrival + u16 l.cfg 18 * 1000000 ≤ s.now) :
    ∃ t m, exec (.mediaTimeout (okey 2 i)) s = .next t ∧ tget? t.audio.legs i = some m ∧ m.rx = 4 ∧ t.objs = s.objs := by
  have hleg : s.leg (okey 2 i) = some l := (leg_okey hi s).trans hl
  obtain ⟨haudio, hobjs⟩ := mediaState_frame (s.updLeg (okey 2 i) fun l => { l with rx := 4, comfort := false }) (okey 2 i) 1
  rw [exec_mediaTimeout_audio hi, legTimeout_expired hleg hn hk hf hrx ht]
  refine ⟨_, { l with rx := 4, comfort := false }, rfl, ?_, rfl, hobjs⟩
  rw [haudio, ← leg_okey hi, updLeg_leg, hleg]
  rfl

theorem exec_mediaTimeout_video (hi : i < 2 ^ 20) : exec (.mediaTimeout (okey 3 i)) s = .next (s.videoTimeout (okey 3 i)) := by
  show Host.Outcome.next (if ktype (okey 3 i) = 3 then _ else _) = _
  rw [ktype_okey hi]
  rfl

end

/-- Settles O35: each command by the lemma on its own part, each timer by its definition, and the recompute and the frame boundary by
what choosing keeps of the legs. -/
theorem decodeAndKeyFramesComplete : Obligations.DecodeAndKeyFramesComplete := by
  unfold Obligations.DecodeAndKeyFramesComplete
  refine ⟨fun r s s1 key l h hlen hk hl hs hd hroom hfit => ?_, fun r s s1 key l p h hpl hk hl hs hp => ?_,
    fun r s s1 key l h hlen hk hl hs hlease ha hm hz => ?_, fun r s s1 key l h hpl hk hl hs => ?_,
    fun s i t0 d hi hd hb hst hc ht => ?_, fun s i l hi hl => ⟨fun hm => ?_, fun hm => ?_⟩,
    fun s i t0 d hi hd he => ⟨fun hp ht => ?_, fun hp => ?_⟩, fun s i l hi hl hn hkind hf hrx ht => ?_, fun s i hi => ?_,
    fun s hn hb => ?_, fun s s1 i src l hi hrecv hl hsrc hf hst hs1 => ?_, fun s i hi hnot => ?_, fun s i due hi hdue => ?_,
    fun s i since e hi hs hat ht hf => ?_, fun s i since hi ht hs ho => ?_⟩
  · obtain ⟨t, hown, hleg⟩ := effDecodeSet_admitted hk hl hs hd hroom hfit
    refine ⟨_, exec_accepted h (by rw [hlen]; rfl) hown, ⟨_, (vleg_of_video (schedule_video ..) key).trans hleg, rfl, rfl⟩, ?_⟩
    obtain ⟨e, he, hat, hact, -⟩ := schedule_waits t (.picture (kidx key) s1.now) (r.origin r.tgt) (.decodeSet key r.payload)
    exact ⟨e, he, hat, hact⟩
  · obtain ⟨t, hown, hleg⟩ := effDecodeClear_declared hk hl hs hp
    refine ⟨_, exec_accepted h (by rw [hpl]; rfl) hown, ⟨_, (vleg_of_video (schedule_video ..) key).trans hleg, rfl, rfl⟩, ?_⟩
    obtain ⟨e, he, hat, hact, -⟩ := schedule_waits t (s1.legBound key) (r.origin r.tgt) (.decodeClear key)
    exact ⟨e, he, hat, hact⟩
  · obtain ⟨p, hown, hlen', hnow⟩ := effKeyFrameRequest_answers hk hl hs hlease ha hm hz
    exact ⟨_, p, exec_answered h (by rw [hlen]; rfl) hown, hlen', rfl, hnow⟩
  · obtain ⟨p, hlen, hown⟩ := effDecodeStatsGet_answers hk hl hs
    exact ⟨p, hlen, exec_answered h (by rw [hpl]; rfl) hown⟩
  · exact decodeStartTimeout_forces hd hb hst hc ht
  · rw [exec_keyFrameRequestDeferred hl, if_pos hm]
  · rw [exec_keyFrameRequestDeferred hl, if_neg (by rw [hm]; exact Bool.false_ne_true)]
  · rw [exec_firEscalation hd he, if_pos ⟨hp, ht⟩]
  · rw [exec_firEscalation hd he, if_neg fun hc => hp hc.1]
  · exact mediaTimeout_noMedia (Nat.lt_trans hi (by decide)) hl hn hkind hf hrx ht
  · exact exec_mediaTimeout_video (Nat.lt_trans hi (by decide))
  · obtain ⟨hobjs, hnow, -, -⟩ := chooseAll_keepsLegs s.windowsCut
    exact ⟨_, exec_layerRecompute s, hobjs, hnow, fun i l hl => recomputed_leg hn hb hl⟩
  · subst hs1
    have hi' : i < 2 ^ 20 := Nat.lt_trans hi (by decide)
    have hcut : tget? s.windowsCut.video.legs i = _ := (windowsCut_leg s i).trans (congrArg _ hl)
    obtain ⟨m, hm, hw⟩ := chooseWanted_wanted hi' hcut hsrc hf hst
    exact ⟨_, m, exec_layerRecompute s, (windowsCut_chooseAll hrecv).symm ▸ hm, hw⟩
  · rw [exec_videoLegBoundaryTimeout, runDue_none fun e he => ?_]
    refine Bool.eq_false_iff.2 fun hp => ?_
    obtain ⟨since, hat, ht⟩ := (legPassed_iff ..).1 hp
    exact absurd ht (Nat.not_le.2 (hnot e he since hat))
  · rw [exec_videoLegBoundaryTimeout, runDue_due fun e => ?_]
    rw [Bool.eq_iff_iff, Bool.and_eq_true, decide_eq_true_iff, legPassed_iff, hdue e, and_comm]
  · rw [exec_videoLegBoundaryTimeout, runDue_one hs ((legPassed_iff ..).2 ⟨since, hat, ht⟩) hf]
  · refine ⟨_, (exec_videoLegBoundaryTimeout i s).trans (congrArg _ (runDue_one hs ((legPassed_iff ..).2 ⟨since, rfl, ht⟩) (Nat.zero_le _))), ?_⟩
    exact flowObj_on_flows (s := { s with sched := [] }) (Nat.lt_trans hi (by decide)) ho

end Sys2Proof.Machine
end

section
/-!
PROOFS. The Garnet kernel commands: what leaves a core or a budget at a block start, the quanta a bind places, what each command's own
part answers, and the cycles exception (R215, R239 to R241, R244, R246, R248 to R251).
-/

namespace Sys2Proof.Machine

/-! ### What waits for its block start -/

/-- A release that waits is listed, and counted as awaited. -/
theorem releaseAt_frame (s : State) (b : Boundary) (c : Costs) :
    s.releaseAt b c = { s with sched := (s.releaseAt b c).sched, awaiting := (s.releaseAt b c).awaiting } := by
  unfold State.releaseAt
  split <;> rfl

/-- Quanta that leave a core later wait for it; nothing else changes before. -/
theorem unplaceAt_frame (s : State) (key n b : Nat) : s.unplaceAt key n b = { s with sched := (s.unplaceAt key n b).sched } := by
  unfold State.unplaceAt
  split <;> rfl

section
variable (s : State)

@[simp] theorem releaseAt_audio (b : Boundary) (c : Costs) : (s.releaseAt b c).audio = s.audio := by rw [releaseAt_frame]
@[simp] theorem releaseAt_gen (b : Boundary) (c : Costs) (key : Nat) : (s.releaseAt b c).gen key = s.gen key := by rw [releaseAt_frame]; rfl
@[simp] theorem unplaceAt_audio (key n b : Nat) : (s.unplaceAt key n b).audio = s.audio := by rw [unplaceAt_frame]
@[simp] theorem schedule_gen (b : Boundary) (o : Origin) (a : Act) (key : Nat) : (s.schedule b o a).gen key = s.gen key := by
  rw [schedule_frame]; rfl

/-- The boundary and the change that stand among those that wait, whoever asked. -/
theorem schedule_waits_at (b : Boundary) (o : Origin) (a : Act) : ∃ e ∈ (s.schedule b o a).sched, e.at_ = b ∧ e.act = a := by
  obtain ⟨e, he, hat, hact, -⟩ := schedule_waits s b o a
  exact ⟨e, he, hat, hact⟩

/-- A destroy that completes moves the generation of its index on (R77). -/
@[simp] theorem dying_gen (key : Nat) : (s.dying key).gen key = nextGen (s.gen key) := tget_tset_same ..

end

/-- Of the audio side, quanta placed change the leg's own count alone. -/
theorem place_audio {s : State} {key : Nat} {l : Leg} (hl : s.leg key = some l) (n : Nat) :
    (s.place key n).audio = (s.updLeg key fun l => { l with quanta := l.quanta + n }).audio := by
  rw [State.place, hl]
  rfl

theorem needUnit_true (k : Eff) : needUnit true k = k := rfl

/-- An effect slot is slot 1 or slot 2. -/
theorem effectSlot_true {slot : Nat} (h : slot = 1 ∨ slot = 2) : (slot == 1 || slot == 2) = true := by simpa using h

/-! ### The commands' own parts -/

section
variable {r : Req} {s : State} {key : Nat}

/-- A KernelLoad with an image waits for it (R244, R251). -/
theorem effKernelLoad_reads (ht : r.target = 0) (hs : s.inService = true) (hz : zeros r.payload 12 4 = true) (hn : u32 r.payload 8 ≠ 0) :
    effKernelLoad r s = .wait .read [] s := by
  simp only [effKernelLoad, nullTarget_null ht, hs, hz, need_true, readThen, if_neg hn]

/-- A kernel that is bound nowhere is destroyed at the first block of its ring's order (R249). -/
theorem effKernelUnload_unbound (hk : s.lives r.tgt key 7) (hb : s.kernelBound (kidx key) = false) :
    effKernelUnload r s = s.destroyAt r key (.block (s.firstBlock r.mbx)) := by
  simp only [effKernelUnload, withHandle_ok hk, hb, Bool.not_false, need_true]

/-- The quanta a slot holds ahead of a bind are none, or those of the binding that the changes already scheduled leave it. -/
theorem quantaAhead_cases {slot old : Nat} (h : old = ((s.slotAhead key slot).map (·.2.1)).getD 0) :
    (s.slotAhead key slot = none ∧ old = 0) ∨ ∃ b, s.slotAhead key slot = some b ∧ old = b.2.1 := by
  cases hb : s.slotAhead key slot with
  | none => exact .inl ⟨rfl, by rw [h, hb]; rfl⟩
  | some b => exact .inr ⟨b, rfl, by rw [h, hb]; rfl⟩

/-- An admitted KernelBind places the rise of its slot's quanta at once, and the binding waits for its block (R215, R246, R250). -/
theorem effKernelBind_admitted {kk slot old : Nat} {l : Leg} {k : Kernel} (hk : s.lives r.tgt key 2) (hkk : s.lives (u32 r.payload 0) kk 7)
    (hp : u8 r.payload 4 = slot) (hslot : slot = 1 ∨ slot = 2) (hl : s.leg key = some l) (hker : s.kernel (kidx kk) = some k)
    (htrunk : l.trunk = false) (hn : u8 r.payload 5 = k.params) (hmask : k.mask / slot % 2 = 1) (hz : zeros r.payload 6 2 = true)
    (hz' : zeros r.payload (8 + u8 r.payload 5) (64 - u8 r.payload 5) = true)
    (hpool : s.poolUsed ((key, slot, kidx kk) :: (s.boundOn l.core).filter fun e => !(e.1 == key && e.2.1 == slot)) ≤ 49152)
    (hold : old = ((s.slotAhead key slot).map (·.2.1)).getD 0)
    (hfit : s.firstOver (overCost (costOf [(1, 0, ceilDiv k.w 46000)]) (costOf [(1, 0, old)])) = none)
    (hroom : ceilDiv k.w 46000 - old ≤ s.coreRoom l.core) :
    ∃ t : State, effKernelBind r s = .later [] r.tgt (t.schedule (.block (s.firstBlock r.mbx)) (r.origin r.tgt)
        (.bind key slot (kidx kk) (ceilDiv k.w 46000) ((r.payload.drop 8).take (u8 r.payload 5)))) ∧
      t.audio = (s.updLeg key fun l => { l with quanta := l.quanta + (ceilDiv k.w 46000 - old) }).audio := by
  have hfields : (!l.trunk && u8 r.payload 5 == k.params && k.mask / slot % 2 == 1 && zeros r.payload 6 2 &&
      zeros r.payload (8 + u8 r.payload 5) (64 - u8 r.payload 5)) = true := by
    simp only [htrunk, hn, hmask, hz, hn ▸ hz', beq_self_eq_true, Bool.not_false, Bool.and_self]
  obtain ⟨hb, rfl⟩ | ⟨b, hb, rfl⟩ := quantaAhead_cases hold
  all_goals
    simp only [effKernelBind, withHandle_ok hk, withHandle_ok hkk, hp, effectSlot_true hslot, needUnit_true, hl, hker, hfields, need_true,
      decide_eq_true hpool, hb, admission_fits hfit, if_neg (Nat.not_lt.2 hroom)]
    refine ⟨_, rfl, ?_⟩
    rw [State.updObj_audio, releaseAt_audio, unplaceAt_audio]
    exact place_audio (s := s.reserve _) hl _

/-- A KernelUnbind of a bound slot leaves the audio side as it is until its block. -/
theorem effKernelUnbind_bound {b : Nat × Nat × Bool} (hk : s.lives r.tgt key 2) (hslot : u8 r.payload 0 = 1 ∨ u8 r.payload 0 = 2)
    (hb : s.slotAhead key (u8 r.payload 0) = some b) (hz : zeros r.payload 1 3 = true) :
    ∃ t : State, effKernelUnbind r s = .later [] r.tgt (t.schedule (.block (s.firstBlock r.mbx)) (r.origin r.tgt)
        (.unbind key (u8 r.payload 0))) ∧ t.audio = s.audio := by
  simp only [effKernelUnbind, withHandle_ok hk, effectSlot_true hslot, needUnit_true, hb, hz, need_true]
  refine ⟨_, rfl, ?_⟩
  rw [State.updObj_audio, releaseAt_audio, unplaceAt_audio]

/-- A KernelParamSet of a slot whose binding is not suspended waits for its block (R248). -/
theorem effKernelParamSet_bound {k q : Nat} {x : Kernel} (hk : s.lives r.tgt key 2) (hslot : u8 r.payload 0 = 1 ∨ u8 r.payload 0 = 2)
    (hb : s.slotAhead key (u8 r.payload 0) = some (k, q, false)) (hx : s.kernel k = some x) (hn : u8 r.payload 1 = x.params)
    (hz : zeros r.payload 2 2 = true) (hz' : zeros r.payload (4 + u8 r.payload 1) (64 - u8 r.payload 1) = true) :
    effKernelParamSet r s = .later [] r.tgt (s.schedule (.block (s.firstBlock r.mbx)) (r.origin r.tgt)
      (.params key (u8 r.payload 0) ((r.payload.drop 4).take (u8 r.payload 1)))) := by
  simp only [effKernelParamSet, withHandle_ok hk, effectSlot_true hslot, needUnit_true, hb, hx, beq_iff_eq.2 hn, hz, hz', Bool.not_false,
    Bool.and_self, need_true]

/-- KernelStatsGet answers the fields of Table 7.13 in 32 bytes, and changes nothing. -/
theorem effKernelStatsGet_answers {k : Kernel} (hk : s.lives r.tgt key 7) (hx : s.kernel (kidx key) = some k) :
    ∃ p : Bytes, p.length = 32 ∧ effKernelStatsGet r s = .done p r.tgt s := by
  simp only [effKernelStatsGet, withHandle_ok hk, hx]
  exact ⟨_, by simp only [List.length_append, le_length], rfl⟩

end

/-! ### CYCLES_EXCEPTION (R239 to R241) -/

/-- The exception of a bound slot is that of the invocation that ran out of cycles, where there is one. -/
theorem exec_cyclesException {s : State} {leg slot : Nat} {b : Binding} (hb : (s.leg (okey 2 leg)).bind (·.binding slot) = some b) :
    exec (.cyclesException leg slot) s =
      .next (match b.overTimes with | some (bundle, blk) => s.kernelFault (okey 2 leg) slot 3 bundle blk | none => s) := by
  show execCyclesException leg slot s = _
  simp only [execCyclesException, hb]
  cases b.overTimes <;> rfl

/-- Settles O31: each command by the lemma on its own part, what waits being read through the frame of its schedule; the exception by
whether an invocation of the binding has run out of cycles. -/
theorem kernelCommandsComplete : Obligations.KernelCommandsComplete := by
  unfold Obligations.KernelCommandsComplete
  refine ⟨fun r s s1 h ht hlen hs hz hn => ?_, fun r s s1 key h hpl hk hb => ?_,
    fun r s s1 key kk l k slot old h hlen hk hkk hp hslot hl hker htrunk hn hmask hz hz' hpool hold hfit hroom => ?_,
    fun r s s1 key b h hlen hk hslot hb hz => ?_, fun r s s1 key k q x h hlen hk hslot hb hx hn hz hz' => ?_,
    fun r s s1 key k h hpl hk hx => ?_, fun s leg slot b _ hb => ⟨fun hno => ?_, fun u blk hover => ?_⟩⟩
  · exact exec_waiting h (by rw [hlen]; rfl) (effKernelLoad_reads ht hs hz hn)
  · refine ⟨_, exec_accepted h (by rw [hpl]; rfl) (effKernelUnload_unbound hk hb), ?_, schedule_waits_at ..⟩
    rw [schedule_gen, releaseAt_gen, dying_gen]
  · obtain ⟨t, hown, haudio⟩ := effKernelBind_admitted hk hkk hp hslot hl hker htrunk hn hmask hz hz' hpool hold hfit hroom
    exact ⟨_, exec_accepted h (by rw [hlen]; rfl) hown, (schedule_audio ..).trans haudio, schedule_waits_at ..⟩
  · obtain ⟨t, hown, haudio⟩ := effKernelUnbind_bound hk hslot hb hz
    exact ⟨_, exec_accepted h (by rw [hlen]; rfl) hown, (schedule_audio ..).trans haudio, schedule_waits_at ..⟩
  · exact exec_accepted h (by rw [hlen]; rfl) (effKernelParamSet_bound hk hslot hb hx hn hz hz')
  · obtain ⟨p, hlen, hown⟩ := effKernelStatsGet_answers hk hx
    exact ⟨p, hlen, exec_answered h (by rw [hpl]; rfl) hown⟩
  · rw [exec_cyclesException hb, hno]
  · rw [exec_cyclesException hb, hover]

end Sys2Proof.Machine
end

section
/-!
PROOFS. The work dispatcher: submissions that enter their list, what a dispatch starts, items that end and what their end is for, deadlines
and cancels, and what the statement WorkItemsComplete rests on (R253, R256, R257, R260 to R262, R264 to R269, R293).
-/

namespace Sys2Proof.Machine

/-! ### Submissions (R260 to R262) -/

section
variable (w : Work) (src kind : Nat) (x : Submission) (l : List Submission)

@[simp] theorem accept_items : (w.accept src x).items = w.items ++ [w.item src x] := rfl

@[simp] theorem bump_items (off n cap k : Nat) : (w.bump k off n cap).items = w.items := rfl

@[simp] theorem hold_items : (w.hold src kind l).items = w.items := rfl

@[simp] theorem hold_waiting : (w.hold src kind l).waiting src kind = l := by
  cases l with
  | nil => simp only [Work.hold, Work.waiting, List.isEmpty_nil, if_true, tget, tget?_tdel_same, Option.getD_none]
  | cons y r => exact tget_tset_same ..

variable {w src x}

theorem enter_accepted (h : w.accepts x.desc = true) : Work.enter src (x :: l) w = Work.enter src l (w.accept src x) := if_pos h

theorem enter_stalled (h : w.accepts x.desc = false) :
    Work.enter src (x :: l) w = (w.bump (dList x.desc) 36 1 0xFFFF, x :: l) := if_neg (Bool.eq_false_iff.1 h)

/-- Submissions that enter stand behind the items already there. -/
theorem enter_items (w : Work) : ∃ new, (Work.enter src l w).1.items = w.items ++ new := by
  induction l generalizing w with
  | nil => exact ⟨[], (List.append_nil _).symm⟩
  | cons x r ih =>
    cases h : w.accepts x.desc with
    | true =>
      obtain ⟨new, hnew⟩ := ih (w.accept src x)
      exact ⟨w.item src x :: new, by rw [enter_accepted r h, hnew, accept_items, List.append_assoc, List.singleton_append]⟩
    | false => exact ⟨[], by rw [enter_stalled r h, List.append_nil]; rfl⟩

end

/-- A change of the dispatcher changes it alone. -/
theorem updWork_only (s : State) (f : Work → Work) : s.updWork f = { s with work := (s.updWork f).work } := rfl

section
variable {s : State} {src kind : Nat} {d : Bytes}

/-- The submission that WORK_SUBMIT makes of a descriptor. -/
def submissionOf (d : Bytes) : Submission := { desc := d, data := d.drop 32, job := .none }

/-- A good descriptor whose source holds nothing back for its kind meets its list at once. -/
theorem exec_workSubmit (hs : src < 8) (hd : descOk d = true) (hw : s.work.waiting src (dKind d) = []) :
    exec (.workSubmit src d) s = .next (s.updWork fun w =>
      (Work.enter src [submissionOf d] w).1.hold src (dKind d) (Work.enter src [submissionOf d] w).2) := by
  show execWorkSubmit src d s = _
  simp only [execWorkSubmit, submissionOf, if_pos hs, State.submit, State.updWork, hd, hw, List.isEmpty_nil, Bool.not_true,
    Bool.false_eq_true, if_false]

theorem workSubmit_accepted (hs : src < 8) (hd : descOk d = true) (hw : s.work.waiting src (dKind d) = []) (ha : s.work.accepts d = true) :
    ∃ t i, exec (.workSubmit src d) s = .next t ∧ t.work.items = s.work.items ++ [i] ∧
      i.id = s.work.nextId (dList d) ∧ i.desc = d ∧ i.source = src ∧ i.st = .queued ∧ t = { s with work := t.work } := by
  refine ⟨_, s.work.item src (submissionOf d), exec_workSubmit hs hd hw, ?_, rfl, rfl, rfl, rfl, updWork_only ..⟩
  rw [State.updWork_work, hold_items, enter_accepted (x := submissionOf d) _ ha]
  exact accept_items ..

theorem workSubmit_held (hs : src < 8) (hd : descOk d = true) (hw : s.work.waiting src (dKind d) = []) (ha : s.work.accepts d = false) :
    ∃ t, exec (.workSubmit src d) s = .next t ∧ t.work.items = s.work.items ∧ ∃ x, t.work.waiting src (dKind d) = [x] ∧ x.desc = d := by
  refine ⟨_, exec_workSubmit hs hd hw, ?_, submissionOf d, ?_, rfl⟩
  · rw [State.updWork_work, hold_items, enter_stalled (x := submissionOf d) _ ha]
    exact bump_items ..
  · rw [State.updWork_work, hold_waiting, enter_stalled (x := submissionOf d) _ ha]

theorem exec_submissionResume {x : Submission} {rest : List Submission} (hw : s.work.waiting src kind = x :: rest)
    (ha : s.work.accepts x.desc = true) :
    exec (.submissionResume src kind) s = .next (s.updWork fun w =>
      (Work.enter src rest (w.accept src x)).1.hold src kind (Work.enter src rest (w.accept src x)).2) := by
  show execSubmissionResume src kind s = _
  simp only [execSubmissionResume, State.updWork, hw, if_pos ha]

/-- The first held submission enters, and those behind it that find room. -/
theorem submissionResume_accepted {x : Submission} {rest : List Submission} (hw : s.work.waiting src kind = x :: rest)
    (ha : s.work.accepts x.desc = true) :
    ∃ t i l, exec (.submissionResume src kind) s = .next t ∧ t.work.items = s.work.items ++ i :: l ∧ i.desc = x.desc ∧ i.st = .queued ∧
      t = { s with work := t.work } ∧ (rest = [] → l = [] ∧ t.work.waiting src kind = []) := by
  cases rest with
  | nil =>
    refine ⟨_, s.work.item src x, [], exec_submissionResume hw ha, ?_, rfl, rfl, updWork_only .., fun _ => ⟨rfl, hold_waiting ..⟩⟩
    rw [State.updWork_work, hold_items]
    exact accept_items ..
  | cons y r =>
    obtain ⟨new, hnew⟩ := enter_items (src := src) (y :: r) (s.work.accept src x)
    refine ⟨_, s.work.item src x, new, exec_submissionResume hw ha, ?_, rfl, rfl, updWork_only .., nofun⟩
    rw [State.updWork_work, hold_items, hnew, accept_items, List.append_assoc, List.singleton_append]

end

/-! ### Dispatch (R253, R256) -/

section
variable {s t : State} {kind inst : Nat} {free : Bool} {i it : Item}

theorem take_starts (h : s.take kind inst free it = (t, some i)) : i = it ∧ t = s.setItem i.id (.running (instNo kind inst)) := by
  cases free with
  | true => cases h; exact ⟨rfl, rfl⟩
  | false => cases h

theorem takeHead_starts (h : s.takeHead kind inst free = (t, some i)) :
    ∃ w, t = State.setItem { s with work := w } i.id (.running (instNo kind inst)) := by
  unfold State.takeHead at h
  split at h
  · cases h
  · exact ⟨_, (take_starts h).2⟩

/-- A dispatch that hands out an item has set it running, and changed the dispatcher alone. -/
theorem dispatch_starts (h : s.dispatch kind inst = (t, some i)) :
    ∃ w, t = State.setItem { s with work := w } i.id (.running (instNo kind inst)) := by
  simp only [State.dispatch] at h
  split at h
  · cases h
  split at h
  · split at h
    · cases h
    split at h
    · exact takeHead_starts h
    split at h
    · exact ⟨s.work, (take_starts h).2⟩
    · cases h
  · exact takeHead_starts h

/-- An item set to a place is there. -/
theorem setItem_st {id : Nat} {st : ItemState} : ∀ j ∈ (s.setItem id st).work.items, j.id = id → j.st = st := by
  intro j hj hid
  obtain ⟨x, -, rfl⟩ := List.mem_map.1 hj
  by_cases hx : x.id = id
  · rw [if_pos hx]
  · rw [if_neg hx] at hid
    exact absurd hid hx

/-- An item whose effect lies outside the model begins nothing. -/
theorem startJob_none (h : i.job = .none) : s.startJob inst i = s := by simp only [State.startJob, h]

theorem exec_workDispatch (hu : unitOk kind inst = true) (hd : s.unitDown 0x0A 0 = false) (h : s.dispatch kind inst = (t, some i)) :
    exec (.workDispatch kind inst) s = .next (t.startJob inst i) := by
  show execWorkDispatch kind inst s = _
  simp only [execWorkDispatch, hu, hd, h, Bool.not_true, Bool.false_eq_true, if_false]

theorem exec_workDispatch_down (hu : unitOk kind inst = true) (hd : s.unitDown 0x0A 0 = true) :
    exec (.workDispatch kind inst) s = .next s := by
  show execWorkDispatch kind inst s = _
  simp only [execWorkDispatch, hu, hd, Bool.not_true, Bool.false_eq_true, if_false, if_true]

end

/-! ### Items released (R264 to R268) -/

/-- An item as an end with a status leaves it. -/
def Item.endedBy (p : Item → Bool) (st res : Nat) (i : Item) : Item := if p i then { i with st := .ended st res } else i

/-- From `s` to `t` only counts changed: the statistics of the ready lists and the counters of the objects. -/
def State.countsOnly (s t : State) : Prop := t = { s with work := { s.work with stats := t.work.stats }, objCtr := t.objCtr }

theorem countsOnly_trans {a b c : State} (h : a.countsOnly b) (k : b.countsOnly c) : a.countsOnly c := by
  unfold State.countsOnly at *
  rw [k, h]

theorem countsOnly_foldl {α : Type} {g : State → α → State} (h : ∀ s a, State.countsOnly s (g s a)) (l : List α) (s : State) :
    s.countsOnly (l.foldl g s) := by
  induction l generalizing s with
  | nil => rfl
  | cons a l ih => exact countsOnly_trans (h s a) (ih _)

/-- Reports write records and leave the items. -/
theorem reports_items (l : List Item) (w : Work) : (l.foldl Work.report w).items = w.items ∧ (l.foldl Work.report w).released = w.released := by
  induction l generalizing w with
  | nil => exact ⟨rfl, rfl⟩
  | cons i l ih =>
    obtain ⟨hi, hr⟩ := ih (w.report i)
    rw [List.foldl_cons, hi, hr]
    unfold Work.report
    split <;> exact ⟨rfl, rfl⟩

theorem release_items (s : State) : s.release.work.items = (releaseItems [] s.work.items).1 := (reports_items ..).1

theorem release_released (s : State) : s.release.work.released = s.work.released ++ (releaseItems [] s.work.items).2 := (reports_items ..).2

/-- The one item there is, ended, is released. -/
theorem releaseItems_ended {i : Item} {st res : Nat} (h : i.st = .ended st res) : releaseItems [] [i] = ([], [i]) := by
  simp [releaseItems, h]

/-- An item that has not ended is kept. -/
theorem releaseItems_running {i : Item} {n : Nat} (h : i.st = .running n) : releaseItems [] [i] = ([i], []) := by
  simp [releaseItems, h]

section
variable (s : State) (p : Item → Bool) (st res : Nat)

/-- An end sets the items it names ended, counts them, and releases what is due. -/
theorem endWhere_release : ∃ t, State.countsOnly (s.updWork fun w => { w with items := w.items.map (Item.endedBy p st res) }) t ∧
    s.endWhere p st res = t.release := by
  refine ⟨_, ?_, rfl⟩
  refine countsOnly_foldl (fun s i => ?_) ..
  cases statOffset st with
  | none => dsimp only; split <;> rfl
  | some o => dsimp only; split <;> rfl

theorem endWhere_items : (s.endWhere p st res).work.items = (releaseItems [] (s.work.items.map (Item.endedBy p st res))).1 := by
  obtain ⟨t, ht, he⟩ := endWhere_release s p st res
  rw [he, release_items, ht]
  rfl

theorem endWhere_released : (s.endWhere p st res).work.released =
    s.work.released ++ (releaseItems [] (s.work.items.map (Item.endedBy p st res))).2 := by
  obtain ⟨t, ht, he⟩ := endWhere_release s p st res
  rw [he, release_released, ht]
  rfl

/-- Of the state, an end changes the dispatcher and the counters of objects. -/
theorem endWhere_frame : s.endWhere p st res = { s with work := (s.endWhere p st res).work, objCtr := (s.endWhere p st res).objCtr } := by
  obtain ⟨t, ht, he⟩ := endWhere_release s p st res
  rw [he]
  show { t with work := _ } = _
  rw [ht]
  rfl

variable {s p st res} {i : Item}

/-- The one item there is ends and is released. -/
theorem endWhere_single (hi : s.work.items = [i]) (hp : p i = true) :
    (s.endWhere p st res).work.items = [] ∧ (s.endWhere p st res).work.released = s.work.released ++ [{ i with st := .ended st res }] := by
  have hend : s.work.items.map (Item.endedBy p st res) = [{ i with st := .ended st res }] := by
    rw [hi, List.map_singleton, Item.endedBy, if_pos hp]
  rw [endWhere_items, endWhere_released, hend, releaseItems_ended rfl]
  exact ⟨rfl, rfl⟩

/-- The one item there is runs on where the end does not name it. -/
theorem endWhere_other {n : Nat} (hi : s.work.items = [i]) (hp : p i = false) (hst : i.st = .running n) :
    (s.endWhere p st res).work.items = [i] ∧ (s.endWhere p st res).work.released = s.work.released := by
  have hend : s.work.items.map (Item.endedBy p st res) = [i] := by
    rw [hi, List.map_singleton, Item.endedBy, if_neg (Bool.eq_false_iff.1 hp)]
  rw [endWhere_items, endWhere_released, hend, releaseItems_running hst, List.append_nil]
  exact ⟨rfl, rfl⟩

end

/-! ### What released items were for (R264) -/

theorem jobDone_none {i : Item} (h : i.job = .none) (s : State) (st res : Nat) : s.jobDone i st res = s := by simp only [State.jobDone, h]

/-- A released item passed on. -/
def State.passOn (s : State) (i : Item) : State :=
  match i.st with
  | .ended st res => s.jobDone i st res
  | _ => s

theorem settle_passOn (s : State) : s.settle = s.work.released.foldl State.passOn (s.updWork fun w => { w with released := [] }) := rfl

theorem passOn_none {i : Item} (h : i.job = .none) (s : State) : s.passOn i = s := by
  unfold State.passOn
  split
  · exact jobDone_none h ..
  · rfl

theorem passOn_all_none {l : List Item} (h : ∀ i ∈ l, i.job = .none) (s : State) : l.foldl State.passOn s = s := by
  induction l with
  | nil => rfl
  | cons i l ih =>
    rw [List.foldl_cons, passOn_none (h i List.mem_cons_self)]
    exact ih fun j hj => h j (List.mem_cons_of_mem _ hj)

/-- Released items whose effect lies outside the model are passed on with no effect. -/
theorem settle_none {s : State} (h : ∀ i ∈ s.work.released, i.job = .none) : s.settle = s.updWork fun w => { w with released := [] } :=
  (settle_passOn s).trans (passOn_all_none h _)

section
variable {s : State} {p : Item → Bool} {i : Item} {st res : Nat}

/-- The one item there is, of no further effect, ends: no item is left, and no time passes. -/
theorem settle_endWhere_single (hi : s.work.items = [i]) (hp : p i = true) (hj : i.job = .none) (hr : s.work.released = []) :
    (s.endWhere p st res).settle.work.items = [] ∧ (s.endWhere p st res).settle.now = s.now := by
  obtain ⟨hitems, hrel⟩ := endWhere_single (st := st) (res := res) hi hp
  rw [settle_none fun x hx => ?_]
  · exact ⟨hitems, by rw [State.updWork_now, endWhere_frame]⟩
  · rw [hrel, hr, List.nil_append, List.mem_singleton] at hx
    rw [hx, hj]

/-- The one item there is runs on where the end does not name it, and nothing is passed on. -/
theorem settle_endWhere_other {n : Nat} (hi : s.work.items = [i]) (hp : p i = false) (hst : i.st = .running n) (hr : s.work.released = []) :
    (s.endWhere p st res).settle.work.items = [i] := by
  obtain ⟨hitems, hrel⟩ := endWhere_other (st := st) (res := res) hi hp hst
  rw [settle_none (by rw [hrel, hr]; nofun)]
  exact hitems

/-- An end that waits for its flow passes nothing on. -/
theorem settle_endWhere_blocked (hr : s.work.released = []) (hb : (releaseItems [] (s.work.items.map (Item.endedBy p st res))).2 = []) :
    (s.endWhere p st res).settle.video = s.video := by
  rw [settle_none (by rw [endWhere_released, hr, hb]; nofun), State.updWork_video, endWhere_frame]

end

/-- Of the state, the end of a drain changes the instances, the mailboxes and what is put out. -/
theorem drainEnd_frame (s : State) (kind inst : Nat) : ∃ insts mbx nmc out,
    s.drainEnd kind inst = { s with work := { s.work with insts := insts }, mbx := mbx, nmc := nmc, out := out } := by
  have hdrained : ∀ t : State, ∃ insts mbx nmc out,
      t.drained kind inst = { t with work := { t.work with insts := insts }, mbx := mbx, nmc := nmc, out := out } := fun t => by
    unfold State.drained
    split
    · exact ⟨_, _, _, _, raiseOn_same ..⟩
    · exact ⟨_, _, _, _, rfl⟩
  unfold State.drainEnd
  split
  · obtain ⟨insts, mbx, nmc, out, h⟩ := hdrained (s.updInst kind inst fun i => { i with st := .disabled })
    exact ⟨insts, mbx, nmc, out, h⟩
  · exact ⟨_, _, _, _, rfl⟩

@[simp] theorem drainEnd_items (s : State) (kind inst : Nat) : (s.drainEnd kind inst).work.items = s.work.items := by
  obtain ⟨_, _, _, _, h⟩ := drainEnd_frame s kind inst
  rw [h]

@[simp] theorem drainEnd_video (s : State) (kind inst : Nat) : (s.drainEnd kind inst).video = s.video := by
  obtain ⟨_, _, _, _, h⟩ := drainEnd_frame s kind inst
  rw [h]

/-! ### ITEM_COMPLETE (Tables 8.6 and 8.7, R502) -/

/-- The status that a completion gives an item. -/
def State.endStatus (s : State) (kind inst : Nat) (i : Item) (err : Bool) : Nat :=
  if kind = 6 ∧ s.onyx.stopped.getLsbD inst = true then 5 else if i.marked then 1 else if err then 5 else 0

/-- An item that completes is given its result, what Agate has made is placed, and the item ends. -/
theorem exec_itemComplete {s : State} {id res kind inst : Nat} {err : Bool} {d : Bytes} {i : Item}
    (hf : (s.work.items.find? fun x => x.id == id) = some i) (hr : i.runsOn = some (kind, inst)) :
    exec (.itemComplete id err res d) s = .next (State.drainEnd (State.settle (State.endWhere
      (if s.endStatus kind inst i err = 0 then (if i.resultFrom then s.setItemData id d else s).agateWrote i
        else if i.resultFrom then s.setItemData id d else s)
      (fun x => x.id == id) (s.endStatus kind inst i err) (res % 2 ^ 32))) kind inst) := by
  have hst : (if kind == 6 && s.onyx.stopped.getLsbD inst then 5 else if i.marked then 1 else if err then 5 else 0) =
      s.endStatus kind inst i err := by
    simp only [State.endStatus, Bool.and_eq_true, beq_iff_eq]
  show execItemComplete id err res d s = _
  simp only [execItemComplete, hf, hr, hst]

/-- An item that does not decode a slice places nothing. -/
theorem agateWrote_none {s : State} {i : Item} (h : i.job = .none) : s.agateWrote i = s := by simp only [State.agateWrote, h]

section
variable {s : State} {id n kind inst res : Nat} {err : Bool} {d : Bytes} {i : Item}

theorem find_single (hi : s.work.items = [i]) (hid : i.id = id) : (s.work.items.find? fun x => x.id == id) = some i := by
  rw [hi, List.find?_cons_of_pos (by rw [hid, beq_self_eq_true])]

/-- The one item there is, of no further effect, completes. -/
theorem itemComplete_single (hi : s.work.items = [i]) (hid : i.id = id) (hst : i.st = .running n) (hj : i.job = .none)
    (hr : s.work.released = []) : ∃ t, exec (.itemComplete id err res d) s = .next t ∧ t.work.items = [] := by
  have hruns : i.runsOn = some (dKind i.desc, if dKind i.desc = 1 then dCore i.desc else n) := by simp only [Item.runsOn, hst]
  have hfrom : i.resultFrom = true := by simp only [Item.resultFrom, hj]
  have hdata : (s.setItemData id d).work.items = [{ i with data := d }] := by
    show s.work.items.map _ = _
    rw [hi, List.map_singleton, if_pos hid]
  refine ⟨_, exec_itemComplete (find_single hi hid) hruns, ?_⟩
  rw [hfrom, if_pos rfl, agateWrote_none hj, ite_self, drainEnd_items]
  exact (settle_endWhere_single (p := fun x => x.id == id) hdata (beq_iff_eq.2 hid) hj hr).1

end

/-! ### Deadlines and cancels (R257, R269) -/

/-- An item waits, queued or staged. -/
def Item.waits (i : Item) : Bool := match i.st with | .queued => true | .staged _ => true | _ => false

/-- An item as a cancel of those that meet a test leaves it while it runs. -/
def Item.markedBy (p : Item → Bool) (i : Item) : Item :=
  match i.st with
  | .running _ => if p i then { i with marked := true } else i
  | _ => i

theorem expireItem_ends (s : State) (id : Nat) : s.expireItem id =
    s.endWhere (fun i => i.id == id && dDeadline i.desc != 0 && decide (dDeadline i.desc ≤ s.now) && i.waits) 2 0 := rfl

/-- A cancel by ID marks the item it names where it runs, and ends it where it waits. -/
theorem workCancel_ends (s : State) (id : Nat) : exec (.workCancel false id) s = .next (State.settle
    (State.endWhere (s.updWork fun w => { w with items := w.items.map (Item.markedBy fun i => i.id == id) })
      (fun i => i.id == id && i.waits) 1 0)) := rfl

@[simp] theorem at_work (s : State) (t : Nat) : (s.at t).work = s.work := by
  unfold State.at
  split <;> rfl

theorem at_now {s : State} {t : Nat} (h : s.now ≤ t) : (s.at t).now = t := by
  unfold State.at
  split
  · rfl
  next hn => exact Nat.le_antisymm h (Nat.le_of_not_lt hn)

section
variable {s : State} {id n : Nat} {i : Item}

theorem exec_itemDeadlineExpiry (hf : (s.work.items.find? fun x => x.id == id) = some i) (hd : dDeadline i.desc ≠ 0) :
    exec (.itemDeadlineExpiry id) s = .next (State.settle ((s.at (dDeadline i.desc)).expireItem id)) := by
  show execItemDeadlineExpiry id s = _
  simp only [execItemDeadlineExpiry, hf, if_neg hd]

/-- The one item there is, queued and of no further effect, expires once its deadline has come. -/
theorem expireItem_single (hi : s.work.items = [i]) (hid : i.id = id) (hst : i.st = .queued) (hj : i.job = .none)
    (hr : s.work.released = []) (hd : dDeadline i.desc ≠ 0) (hnow : dDeadline i.desc ≤ s.now) :
    (s.expireItem id).settle.work.items = [] ∧ (s.expireItem id).settle.now = s.now := by
  have hdue : (i.id == id && dDeadline i.desc != 0 && decide (dDeadline i.desc ≤ s.now) && i.waits) = true := by
    simp [hid, hd, hnow, Item.waits, hst]
  rw [expireItem_ends]
  exact settle_endWhere_single hi hdue hj hr

theorem itemDeadlineExpiry_single (hi : s.work.items = [i]) (hid : i.id = id) (hst : i.st = .queued) (hj : i.job = .none)
    (hr : s.work.released = []) (hd : dDeadline i.desc ≠ 0) (hnow : s.now ≤ dDeadline i.desc) :
    ∃ t, exec (.itemDeadlineExpiry id) s = .next t ∧ t.now = dDeadline i.desc ∧ t.work.items = [] := by
  have hwork := at_work s (dDeadline i.desc)
  obtain ⟨hitems, ht⟩ := expireItem_single (hwork ▸ hi) hid hst hj (hwork ▸ hr) hd (Nat.le_of_eq (at_now hnow).symm)
  exact ⟨_, exec_itemDeadlineExpiry (find_single hi hid) hd, ht.trans (at_now hnow), hitems⟩

/-- The one item there is, queued and of no further effect, goes with its cancel. -/
theorem workCancel_queued (hi : s.work.items = [i]) (hid : i.id = id) (hst : i.st = .queued) (hj : i.job = .none)
    (hr : s.work.released = []) : ∃ t, exec (.workCancel false id) s = .next t ∧ t.work.items = [] := by
  have hmarked : s.work.items.map (Item.markedBy fun i => i.id == id) = [i] := by
    simp only [hi, List.map_singleton, Item.markedBy, hst]
  have hp : ((i.id == id) && i.waits) = true := by simp [hid, Item.waits, hst]
  refine ⟨_, workCancel_ends s id, ?_⟩
  exact And.left (settle_endWhere_single hmarked hp hj hr)

/-- The one item there is runs on, marked, where a cancel names it. -/
theorem workCancel_running (hi : s.work.items = [i]) (hid : i.id = id) (hst : i.st = .running n) (hr : s.work.released = []) :
    ∃ t, exec (.workCancel false id) s = .next t ∧ t.work.items = [{ i with marked := true }] := by
  have hmarked : s.work.items.map (Item.markedBy fun i => i.id == id) = [{ i with marked := true }] := by
    simp only [hi, List.map_singleton, Item.markedBy, hst, beq_iff_eq.2 hid, if_true]
  have hp : ((i.id == id) && Item.waits { i with marked := true }) = false := by simp only [Item.waits, hst, Bool.and_false]
  exact ⟨_, workCancel_ends s id, settle_endWhere_other hmarked hp hst hr⟩

end

/-! ### What Agate makes of a slice (R293)

`Config.sliceSyntax` is opaque: Lean has no value of it. -/

/-- Where Agate makes nothing of any slice, no item writes anything. -/
theorem agateWrote_noSyntax (h : ∀ (codec : Byte) (x : Bytes), Config.sliceSyntax codec.toNat x = none) (s : State) (i : Item) :
    s.agateWrote i = s := by
  have hnone (d : Decode) (e : Option (DecPic × Slice)) : (e.bind fun e => Config.sliceSyntax (u8 d.cfg 0) e.2.data) = none :=
    Option.bind_eq_none_iff.2 fun _ _ => h ..
  unfold State.agateWrote
  simp only [hnone]
  split
  · split <;> rfl
  · rfl

@[simp] theorem updDec_dec (s : State) (key : Nat) (f : Decode → Decode) : (s.updDec key f).dec key = (s.dec key).map f := by
  simp only [State.dec, State.updDec, updVleg_vleg]
  cases s.vleg key <;> rfl

/-- The end of an Agate item leaves the dispatcher as it is. -/
theorem agateWrote_work (s : State) (i : Item) : (s.agateWrote i).work = s.work := by
  unfold State.agateWrote
  repeat' split
  all_goals rfl

/-- The unit of the slice at Agate; nothing turns on its fields. -/
def agateUnit : NalUnit :=
  ⟨0, 0, 0, true, true, true, false, false, false, 0, true, true, false, false, true, false, false, 0, [], none, none⟩

/-- A picture whose one slice, of the bytes `x`, is at Agate. -/
def agatePicture (x : Bytes) : DecPic where
  pic := {
    id := 0, w := 0, h := 0, depth := 8, ts := 0, data := [], concealed := false, rows := 0, since := 0, s := 0, t := 0, order := 0,
    arrived := [] }
  slices := [(0, { unit := agateUnit, data := x, at_ := 0 })]
  next := 1
  got := [agateUnit]
  done := []
  syn := []
  closed := false
  rap := true
  lost := false
  head := none
  begun := false
  miss := []

/-- A decode of a codec that has the picture alone. -/
def agateDecode (codec : Byte) (x : Bytes) : Decode := { Decode.new [codec] with pics := [agatePicture x] }

/-- An Agate item of the picture's slice in ordered flow 1. -/
def agateItem (id : Nat) (st : ItemState) : Item where
  id := id
  list := 256
  source := 0
  desc := [3, 16, 1, 0]
  data := []
  job := .video 0 0 0 0
  st := st
  marked := false
  started := 0

/-- The slice's item runs on Agate 0, behind an item of its flow that is still queued. -/
def agateState (codec : Byte) (x : Bytes) : State :=
  { State.reset with
    video := { State.reset.video with legs := [(0, { VLeg.new [] 0 with decode := some (agateDecode codec x) })] }
    work := { State.reset.work with items := [agateItem 0 .queued, agateItem 1 (.running 0)] } }

/-- The end of that item changes the video side where Agate makes something of the slice: it takes a place in the buffer, or is noted as
having found none. -/
theorem agateWrote_changes {codec : Byte} {x syn : Bytes} (hsyn : Config.sliceSyntax codec.toNat x = some syn) :
    (State.agateWrote (agateState codec x) (agateItem 1 (.running 0))).video ≠ (agateState codec x).video := by
  intro hv
  have hd : (agateState codec x).dec (okey 3 0) = some (agateDecode codec x) := rfl
  have hs : (((agateDecode codec x).slice 0 0).bind fun e => Config.sliceSyntax (u8 (agateDecode codec x).cfg 0) e.2.data) = some syn := hsyn
  have hdec : (State.agateWrote (agateState codec x) (agateItem 1 (.running 0))).dec (okey 3 0) = (agateState codec x).dec (okey 3 0) := by
    simp only [State.dec, State.vleg, hv]
  simp only [State.agateWrote, agateItem, hd, hs, updDec_dec, Option.map_some, Option.some.injEq] at hdec
  split at hdec <;> simp [agateDecode, Decode.new, tset] at hdec

/-- Whatever has become of the video side, the item of the slice ends and waits in its flow. -/
theorem agateItem_waits {s : State} {codec : Byte} {x : Bytes} (h : s.work = (agateState codec x).work) :
    (s.endWhere (fun x => x.id == 1) 0 (0 % 2 ^ 32)).settle.video = s.video :=
  settle_endWhere_blocked (by rw [h]; rfl) (by rw [h]; rfl)

/-- What an ITEM_COMPLETE makes of the state, as WorkItemsComplete puts it, leaves `agateWrote` out: where Agate makes something of a
slice, the statement fails. -/
theorem noSyntax_of_workItemsComplete (h : Obligations.WorkItemsComplete) (codec : Byte) (x : Bytes) :
    Config.sliceSyntax codec.toNat x = none := by
  obtain ⟨-, -, -, -, hcomplete, -⟩ := h
  cases hsyn : Config.sliceSyntax codec.toNat x with
  | none => rfl
  | some syn =>
    have hmodel := exec_itemComplete (s := agateState codec x) (id := 1) (res := 0) (kind := 3) (inst := 0) (err := false) (d := [])
      (i := agateItem 1 (.running 0)) rfl rfl
    have hstated := hcomplete (agateState codec x) 1 0 3 0 false [] (agateItem 1 (.running 0)) rfl rfl
    have hdone : (agateState codec x).endStatus 3 0 (agateItem 1 (.running 0)) false = 0 := rfl
    have hfrom : (agateItem 1 (.running 0)).resultFrom = false := rfl
    rw [hdone, if_pos rfl, hfrom, if_neg Bool.false_ne_true] at hmodel
    rw [← State.endStatus, hdone, hfrom, if_neg Bool.false_ne_true] at hstated
    have hvideo := congrArg State.video (Host.Outcome.next.inj (hmodel.symm.trans hstated))
    rw [drainEnd_video, drainEnd_video, agateItem_waits (agateWrote_work ..), agateItem_waits rfl] at hvideo
    exact absurd hvideo (agateWrote_changes hsyn)

/-- WorkItemsComplete holds exactly where `Config.sliceSyntax` makes nothing of any slice. That constant is opaque, so neither the
statement nor its negation can be proved. Of its clauses that of ITEM_COMPLETE alone turns on it. -/
theorem workItemsComplete_iff_noSyntax : Obligations.WorkItemsComplete ↔
    ∀ (codec : Byte) (x : Bytes), Config.sliceSyntax codec.toNat x = none := by
  refine ⟨noSyntax_of_workItemsComplete, fun hsyn => ?_⟩
  unfold Obligations.WorkItemsComplete
  refine ⟨fun s src d hs hd hw => ⟨workSubmit_accepted hs hd hw, workSubmit_held hs hd hw⟩,
    fun s src kind x rest hs hw ha => submissionResume_accepted hw ha,
    fun s t kind inst i hu hd h => ?_, fun s kind inst hu hd => exec_workDispatch_down hu hd, fun s id res kind inst err d i hf hr => ?_,
    fun s id res err d i n hi hid hst hj hr => itemComplete_single hi hid hst hj hr,
    fun s id i hf hd => exec_itemDeadlineExpiry hf hd, fun s byHandle x => rfl,
    fun s id i hi hid hst hj hr hd hnow => itemDeadlineExpiry_single hi hid hst hj hr hd hnow,
    fun s id i hi hid hj hr => ⟨fun hst => workCancel_queued hi hid hst hj hr, fun n hst => workCancel_running hi hid hst hr⟩⟩
  · obtain ⟨w, rfl⟩ := dispatch_starts h
    exact ⟨exec_workDispatch hu hd h, rfl, startJob_none, setItem_st⟩
  · rw [exec_itemComplete hf hr, agateWrote_noSyntax hsyn, ite_self]
    rfl

end Sys2Proof.Machine
end

section
/-!
PROOFS. The composition commands, frame boundaries and slice starts: bytes that are zero, an object made at a free index, what each
command's own part answers, and what a frame boundary and the start of a slice leave of a composition (R387, R389, R390, R398, R405 to
R412, Tables 12.2, 12.3, 12.7 and 12.9).
-/

namespace Sys2Proof.Machine

/-! ### Bytes that are zero -/

theorem unle_eq_zero {l : Bytes} : unle l = 0 ↔ l.all (· == 0) = true := by
  induction l with
  | nil => exact ⟨fun _ => rfl, fun _ => rfl⟩
  | cons b l ih =>
    have hb : b.toNat = 0 ↔ b = 0 := (BitVec.toNat_inj (y := 0#8))
    have h256 : 256 * unle l = 0 ↔ unle l = 0 := by omega
    rw [unle, Nat.add_eq_zero_iff, h256, hb, ih, List.all_cons, Bool.and_eq_true, beq_iff_eq]

/-- A field is zero exactly where its bytes are. -/
theorem fld_eq_zero {p : Bytes} {i k : Nat} : fld p i k = 0 ↔ zeros p i k = true := unle_eq_zero

/-- Bytes among bytes that are zero. -/
theorem zeros_within {p : Bytes} {i k j n : Nat} (h : zeros p i k = true) (hi : i ≤ j) (hk : j + n ≤ i + k) : zeros p j n = true := by
  obtain ⟨d, rfl⟩ := Nat.exists_eq_add_of_le hi
  obtain ⟨m, hm⟩ := Nat.exists_eq_add_of_le (show n ≤ k - d by omega)
  have hsub : (p.drop (i + d)).take n = (((p.drop i).take k).drop d).take n := by
    rw [List.drop_take, List.drop_drop, List.take_take, hm, Nat.min_eq_left (Nat.le_add_right ..)]
  rw [zeros, hsub, List.all_eq_true]
  exact fun x hx => List.all_eq_true.1 h x (List.mem_of_mem_drop (List.mem_of_mem_take hx))

theorem u8_eq_zero {p : Bytes} {i : Nat} (h : zeros p i 1 = true) : u8 p i = 0 := by
  unfold zeros at h
  rw [u8, List.getD_eq_getElem?_getD, ← List.head?_drop]
  cases hp : p.drop i with
  | nil => rfl
  | cons b l =>
    rw [hp, List.take_succ_cons, List.take_zero, List.all_cons, List.all_nil, Bool.and_true] at h
    rw [List.head?_cons, eq_of_beq h]
    rfl

/-! ### An object made at the lowest free index (R74) -/

/-- The lowest free index is free. -/
theorem lowestFree_free {s : State} {ty i : Nat} : ∀ {lo n : Nat}, s.lowestFree ty lo n = some i → s.obj (okey ty i) = none
  | _, 0, h => by cases h
  | lo, n + 1, h => by
    rw [State.lowestFree] at h
    split at h
    · exact lowestFree_free h
    next hno => cases h; exact Option.not_isSome_iff_eq_none.1 hno

/-- An object entered at a free index is named by the handle that the index had (R76). -/
theorem addObj_handle {s : State} {key : Nat} (h : s.obj key = none) (owner cls : Nat) (active : Bool) (cost : Costs) :
    (s.addObj key owner active cls cost).handle key = s.handle key := by
  obtain ⟨o, hnew, hdying⟩ : ∃ o, (s.addObj key owner active cls cost).obj key = some o ∧ o.dying = false := ⟨_, tget?_tset_same .., rfl⟩
  simp only [State.handle, State.ownGen, hnew, h, hdying, Bool.false_eq_true, if_false]
  rfl

/-! ### Objects enabled, held and destroyed at a boundary (R77, R83) -/

theorem enableAt_held {s : State} {key : Nat} {o : Obj} (ho : s.obj key = some o) (ha : o.active = false) (hm : s.mode ≠ .shed) (r : Req)
    (b : Boundary) : s.enableAt r key b = .later [] r.tgt
      ((s.updObj key fun o => { o with active := true, shed := false }).schedule b (r.origin r.tgt) (.live key true)) := by
  have hmode : (s.mode == .shed) = false := beq_eq_false_iff_ne.2 hm
  simp only [State.enableAt, ho, ha, hmode, Bool.and_false, Bool.not_false, Bool.and_self, need_true]

theorem holdAt_active {s : State} {key : Nat} {o : Obj} (ho : s.obj key = some o) (ha : o.active = true) (r : Req) (b : Boundary) :
    s.holdAt r key b = .later [] r.tgt
      ((s.updObj key fun o => { o with active := false }).schedule b (r.origin r.tgt) (.live key false)) := by
  simp only [State.holdAt, ho, ha, need_true]

/-- A destroy moves the generation of its object on at once, and its end waits for the boundary. -/
theorem destroyAt_waits (s : State) (r : Req) (key : Nat) (b : Boundary) : ∃ t : State, s.destroyAt r key b = .later [] r.tgt t ∧
    t.gen key = nextGen (s.gen key) ∧ ∃ e ∈ t.sched, e.at_ = b ∧ e.act = .free key :=
  ⟨_, rfl, by rw [schedule_gen, releaseAt_gen, dying_gen], schedule_waits_at ..⟩

/-! ### A composition read -/

theorem comp_of_video {s t : State} (h : t.video = s.video) (key : Nat) : t.comp key = s.comp key := by rw [State.comp, State.comp, h]

/-- The streams that a composition feeds are read from the encodings alone. -/
theorem fedBy_of_encs {s t : State} (h : t.video.encs = s.video.encs) (key : Nat) : t.fedBy key = s.fedBy key := by
  rw [State.fedBy, State.fedBy, h]

theorem flows_of_objs {s t : State} (h : t.objs = s.objs) (key : Nat) : t.flows key = s.flows key := by
  rw [State.flows, State.flows, State.obj, State.obj, h]

@[simp] theorem updMb_comp (s : State) (f : Nat) (g : Mailbox → Mailbox) (key : Nat) : (s.updMb f g).comp key = s.comp key := rfl
@[simp] theorem updObj_comp (s : State) (k : Nat) (f : Obj → Obj) (key : Nat) : (s.updObj k f).comp key = s.comp key := rfl
@[simp] theorem schedFrom_comp (s : State) (b : Boundary) (o : Origin) (a : Act) (t key : Nat) :
    (s.schedFrom b o a t).comp key = s.comp key := rfl

/-- The change stands among those that wait, for a boundary from its time on. -/
theorem schedFrom_waits (s : State) (b : Boundary) (o : Origin) (a : Act) (t : Nat) :
    ∃ e ∈ (s.schedFrom b o a t).sched, e.at_ = b ∧ e.act = a ∧ e.from_ = t :=
  ⟨_, List.mem_append_right _ (List.mem_singleton_self _), rfl, rfl, rfl⟩

/-! ### The planes that PlaneSet takes (R390, Table 12.2) -/

/-- A plane that is allowed has a number up to 7, and is off with all its other bytes zero, a picture, or a fill without a source. -/
theorem planeOk_cases {c : Comp} {p : Bytes} (h : c.planeOk p = true) : u8 p 0 ≤ 7 ∧
    (zeros p 1 31 = true ∨ (fetches p = true ∧ u8 p 1 = 1) ∨ (u8 p 1 = 0 ∧ u32 p 4 = 0)) := by
  unfold Comp.planeOk at h
  obtain ⟨h7, hrest⟩ := Bool.and_eq_true_iff.1 h
  refine ⟨of_decide_eq_true h7, ?_⟩
  cases hon : plOn p with
  | false => simp only [hon, Bool.not_false, if_true, Bool.and_eq_true] at hrest; exact .inl hrest.2
  | true =>
    simp only [hon, Bool.not_true, Bool.false_eq_true, if_false, Bool.and_eq_true, decide_eq_true_eq] at hrest
    cases hpic : plPic p with
    | true =>
      have h1 : u8 p 1 = 1 := by simpa [plPic] using hpic
      have hsize : (u16 p 12 != 0 && u16 p 14 != 0) = true := hon
      refine .inr (.inl ⟨?_, h1⟩)
      rw [fetches, h1, Bool.and_assoc, hsize]
      rfl
    | false =>
      have h1 : u8 p 1 ≠ 1 := by simpa [plPic] using hpic
      simp only [hpic, Bool.false_eq_true, if_false, Bool.and_eq_true, beq_iff_eq] at hrest
      obtain ⟨⟨⟨hbefore, -⟩, hsrc, -⟩, -⟩ := hrest
      exact .inr (.inr ⟨by omega, hsrc⟩)

/-! ### The commands' own parts -/

section
variable {r : Req} {s : State} {key : Nat}

/-- The state in which an admitted CompositionCreate has entered its object and its composition under a key. -/
def State.composed (s : State) (r : Req) (key : Nat) : State :=
  let cost := compCost r.payload (Comp.new r.payload s.now).planes
  ((s.reserve (overCost cost [])).addObj key r.mbx (u8 r.payload 17 == 1) (u8 r.payload 18) cost).updVideo fun v =>
    { v with comps := tset v.comps (kidx key) (Comp.new r.payload s.now) }

theorem composed_obj (s : State) (r : Req) (key : Nat) : ∃ o, tget? (s.composed r key).objs key = some o ∧ o.owner = r.mbx ∧
    o.dying = false ∧ o.shedClass = u8 r.payload 18 ∧ o.active = (u8 r.payload 17 == 1) := ⟨_, tget?_tset_same .., rfl, rfl, rfl, rfl⟩

theorem composed_comp (s : State) (r : Req) (key : Nat) :
    tget? (s.composed r key).video.comps (kidx key) = some (Comp.new r.payload s.now) := tget?_tset_same ..

theorem composed_handle (h : s.obj key = none) (r : Req) : (s.composed r key).handle key = s.handle key :=
  addObj_handle (s := s.reserve _) h ..

/-- An admitted CompositionCreate takes the lowest free index (R387, R388). -/
theorem effCompositionCreate_admitted {i : Nat} (ht : r.target = 0) (hs : s.inService = true) (hok : compOk r.payload = true)
    (hi : s.lowestFree 4 0 512 = some i) (hroom : s.admits (compCost r.payload (Comp.new r.payload s.now).planes) = true) :
    ∃ t : State, effCompositionCreate r s =
        .done (le 2 (Comp.new r.payload s.now).slices ++ le 2 0 ++ le 4 (Comp.new r.payload s.now).period) (s.handle (okey 4 i)) t ∧
      t.objs = (s.composed r (okey 4 i)).objs ∧ t.video = (s.composed r (okey 4 i)).video := by
  rw [← composed_handle (lowestFree_free hi) r]
  simp only [effCompositionCreate, nullTarget_null ht, hs, hok, need_true, State.create, hi, admission_admits hroom]
  split
  · exact ⟨_, rfl, rfl, rfl⟩
  · exact ⟨_, rfl, rfl, rfl⟩

variable (hk : s.lives r.tgt key 0x04)
include hk

theorem effCompositionDestroy_unfed (hfed : s.fedBy key = []) :
    effCompositionDestroy r s = s.destroyAt r key (.frame (kidx key)) := by
  simp only [effCompositionDestroy, withHandle_ok hk, hfed, List.isEmpty_nil, need_true]

theorem effCompositionEnable_unshed (hm : s.mode ≠ .shed) : effCompositionEnable r s = s.enableAt r key (.frame (kidx key)) := by
  have hmode : (s.mode != .shed) = true := bne_iff_ne.2 hm
  simp only [effCompositionEnable, withHandle_ok hk, hmode, need_true]

theorem effCompositionHold_live : effCompositionHold r s = s.holdAt r key (.frame (kidx key)) := by
  simp only [effCompositionHold, withHandle_ok hk]

variable {c : Comp} (hc : s.comp key = some c)
include hc

/-- A plane without a source, a fill or one that is off, goes into the shadow set (R390). -/
theorem effPlaneSet_fill (hsrc : u32 r.payload 4 = 0) (hok : c.planeOk r.payload = true) (hno : fetches r.payload = false) :
    effPlaneSet r s = .done [] r.tgt (s.updComp key fun c => { c with shadow := c.shadow.set (u8 r.payload 0) r.payload }) := by
  obtain ⟨h7, hcases⟩ := planeOk_cases hok
  have hkind : u8 r.payload 1 = 0 := by
    obtain hz | ⟨hf, -⟩ | ⟨h0, -⟩ := hcases
    · exact u8_eq_zero (zeros_within hz (Nat.le_refl _) (by decide))
    · exact absurd (hno.symm.trans hf) Bool.false_ne_true
    · exact h0
  have hz : zeros r.payload 4 4 = true := fld_eq_zero.1 hsrc
  simp only [effPlaneSet, withHandle_ok hk, decide_eq_true h7, needUnit_true, State.planeSource, hkind, Nat.zero_ne_one, if_false, if_true, hz,
    need_true, hc, hok, hno, Bool.not_false, Bool.true_or, Bool.and_self]

/-- A plane with a live source, a critical one where the composition is critical, goes into the shadow set (R390, R654). -/
theorem effPlaneSet_picture {src : Nat} (hsrc : u32 r.payload 4 ≠ 0) (hhandle : s.checkHandle (u32 r.payload 4) [0x03, 0x04] = .ok src)
    (hok : c.planeOk r.payload = true) (hlive : s.srcLive src = true) (hcrit : s.critical key = true → s.critical src = true) :
    effPlaneSet r s = .done [] r.tgt (s.updComp key fun c => { c with shadow := c.shadow.set (u8 r.payload 0) r.payload }) := by
  obtain ⟨h7, hcases⟩ := planeOk_cases hok
  have hpic : fetches r.payload = true ∧ u8 r.payload 1 = 1 := by
    obtain hz | hpic | ⟨-, h0⟩ := hcases
    · exact absurd (fld_eq_zero.2 (zeros_within hz (by decide) (by decide))) hsrc
    · exact hpic
    · exact absurd h0 hsrc
  have hset : (!s.critical key || s.critical src) = true := by
    cases hkey : s.critical key with
    | false => rfl
    | true => exact hcrit hkey
  simp only [effPlaneSet, withHandle_ok hk, decide_eq_true h7, needUnit_true, State.planeSource, hpic, if_true, withHandle_ok hhandle, hc, hok,
    hlive, hset, Bool.and_self, Bool.or_true, need_true]

/-- A commit whose checks fail is counted (Tables 12.3 and 12.7). -/
theorem effCompositionCommit_refused {st : Status} {p : Bytes} (hbad : s.commitCheck key c = some (st, p)) :
    effCompositionCommit r s = .refuse st p (s.updComp key fun c => c.bump 12 1) := by
  simp only [effCompositionCommit, withHandle_ok hk, hc, hbad]

/-- A commit whose checks pass and whose cost fits waits for the first frame at least 250 µs later (R405 to R407). -/
theorem effCompositionCommit_passed {n : Nat} (hn : n = c.frameFrom (max (s.now + 250000) (s.trio.effectAt.getD 0)))
    (hgood : s.commitCheck key c = none) (hfit : s.firstOver (overCost (compCost c.cfg c.shadow) (s.objCost key)) = none) :
    ∃ t : State, effCompositionCommit r s = .later (le 8 n ++ le 8 (c.boundary n / 6 / blockNs)) r.tgt t ∧
      t.comp key = some { c with commits := c.commits ++ [(n, c.shadow)] } ∧
      ∃ e ∈ t.sched, e.at_ = .frame (kidx key) ∧ e.act = .applied ∧ e.from_ = c.boundary n / 6 := by
  subst hn
  simp only [effCompositionCommit, withHandle_ok hk, hc, hgood, admission_fits hfit]
  refine ⟨_, rfl, ?_, ?_⟩
  · rw [updMb_comp, schedFrom_comp]
    split
    all_goals
      simp only [schedFrom_comp, updObj_comp, updComp_comp]
      exact congrArg (Option.map _) hc
  · rw [State.updMb_sched]
    exact schedFrom_waits ..

theorem effPlaneGet_answers (h7 : u8 r.payload 0 ≤ 7) (h1 : u8 r.payload 1 ≤ 1) (hz : zeros r.payload 2 2 = true) : effPlaneGet r s =
    .done ((if u8 r.payload 1 = 0 then c.shadow else c.planes).getD (u8 r.payload 0) []) r.tgt s := by
  simp only [effPlaneGet, withHandle_ok hk, hc, decide_eq_true h7, decide_eq_true h1, needUnit_true, hz, Bool.and_self, need_true]

/-- CompositionStatsGet answers 40 bytes, the pictures composed first (Table 12.7). -/
theorem effCompositionStatsGet_answers : ∃ p : Bytes, effCompositionStatsGet r s = .done p r.tgt s ∧ p.length = 40 ∧
    p.take 8 = le 8 (tget 0 c.stats 0) := by
  simp only [effCompositionStatsGet, withHandle_ok hk, hc]
  refine ⟨_, rfl, ?_, ?_⟩
  · simp only [List.length_append, List.length_flatMap, le_length]
    rfl
  · rw [List.append_assoc, List.append_assoc]
    exact List.take_left' (le_length ..)

end

/-! ### The scaler tables (Table 12.9) -/

theorem length_of_coefOk {n : Nat} {l : List Int} (h : coefOk n l = true) : l.length = n := by
  unfold coefOk at h
  exact beq_iff_eq.1 (Bool.and_eq_true_iff.1 (Bool.and_eq_true_iff.1 h).1).1

theorem identityRow_length (n m : Nat) : (identityRow n m).length = n := by simp [identityRow]

theorem coefH_length (set ph : Nat) : (coefH set ph).length = 8 := by
  unfold coefH
  split
  next h => exact length_of_coefOk (Bool.and_eq_true_iff.1 h).2
  next => exact identityRow_length ..

theorem coefV_length (set ph : Nat) : (coefV set ph).length = 6 := by
  unfold coefV
  split
  next h => exact length_of_coefOk (Bool.and_eq_true_iff.1 h).2
  next => exact identityRow_length ..

theorem length_flatMap_const {α β : Type} {f : α → List β} {n : Nat} (h : ∀ a, (f a).length = n) (l : List α) :
    (l.flatMap f).length = l.length * n := by
  induction l with
  | nil => rw [List.flatMap_nil, List.length_nil, List.length_nil, Nat.zero_mul]
  | cons a l ih => rw [List.flatMap_cons, List.length_append, h, ih, List.length_cons, Nat.succ_mul, Nat.add_comm]

/-- 256 rows of 8 and 256 rows of 6 coefficients, each of 2 bytes. -/
theorem scalerTable_length : scalerTable.length = 7168 := by
  have hrow (l : List Int) : (l.flatMap fun x => le 2 (unsigned 16 x)).length = l.length * 2 := length_flatMap_const (fun _ => le_length ..) l
  rw [scalerTable, List.length_append, length_flatMap_const fun i => (hrow _).trans (congrArg (· * 2) (coefH_length ..)),
    length_flatMap_const fun i => (hrow _).trans (congrArg (· * 2) (coefV_length ..)), List.length_range]

theorem effOpalScalerTableGet_writes {r : Req} {s : State} (ht : r.target = 0) (hn : u32 r.payload 8 = 7168)
    (hz : zeros r.payload 12 4 = true) :
    effOpalScalerTableGet r s = .wait .write [] (s.emit (.hostWrite (u64 r.payload 0) scalerTable)) := by
  simp only [effOpalScalerTableGet, nullTarget_null ht, hn, hz, beq_self_eq_true, Bool.and_self, need_true]

/-! ### Frame boundaries (R389, R406, R409, R412) -/

/-- What the start of an output picture, its slices and the states of its planes leave of a composition: the frame to come, the
shadow set, the commits that wait, and the planes in force and parked. -/
def Comp.lasting (c : Comp) : Nat × List Bytes × List (Nat × List Bytes) × List Bytes × Option (List Bytes) :=
  (c.next, c.shadow, c.commits, c.planes, c.parked)

/-- The planes of the last commit due by frame `n`; where none is, those that a commit has left for the next Enable. -/
def Comp.coming (c : Comp) (n : Nat) : Option (List Bytes) :=
  (((c.commits.filter fun e => decide (e.1 ≤ n)).getLast?).map (·.2)).or c.parked

/-- What lasts of a composition once frame boundary `n` has passed; its new planes are in force where it flows, and parked where
it does not. -/
def Comp.passed (c : Comp) (n : Nat) (on : Bool) : Nat × List Bytes × List (Nat × List Bytes) × List Bytes × Option (List Bytes) :=
  (n + 1, c.shadow, c.commits.filter fun e => decide (n < e.1), if on then (c.coming n).getD c.planes else c.planes,
    if on then none else c.coming n)

/-- The objects, the encodings and what lasts of a composition stay. -/
structure State.keepsComp (key : Nat) (s t : State) : Prop where
  objs : t.objs = s.objs
  encs : t.video.encs = s.video.encs
  lasting : (t.comp key).map Comp.lasting = (s.comp key).map Comp.lasting

section
variable {key : Nat} {s t u : State}

theorem keepsComp_trans (h : State.keepsComp key s t) (k : State.keepsComp key t u) : State.keepsComp key s u where
  objs := k.objs.trans h.objs
  encs := k.encs.trans h.encs
  lasting := k.lasting.trans h.lasting

theorem keepsComp_of_same (h : s.sameBut t) : State.keepsComp key s t := by
  unfold State.sameBut at h
  rw [h]
  exact ⟨rfl, rfl, rfl⟩

theorem updComp_keepsComp {f : Comp → Comp} (h : ∀ c, (f c).lasting = c.lasting := by exact fun _ => rfl) :
    State.keepsComp key s (s.updComp key f) where
  objs := rfl
  encs := rfl
  lasting := by
    rw [updComp_comp, Option.map_map]
    exact congrArg (Option.map · _) (funext h)

theorem keepsComp_comp {c : Comp} (h : State.keepsComp key s t) (hc : s.comp key = some c) :
    ∃ d, t.comp key = some d ∧ d.lasting = c.lasting := by
  have hl := h.lasting
  rw [hc] at hl
  exact Option.map_eq_some_iff.1 hl

/-- The states of the planes, their counters and their events. -/
theorem planeStates_keepsComp (n : Nat) : State.keepsComp key s (s.planeStates key n) := by
  unfold State.planeStates
  split
  · exact ⟨rfl, rfl, rfl⟩
  next c _ =>
    dsimp only
    refine keepsComp_trans (keepsComp_trans updComp_keepsComp updComp_keepsComp) (keepsComp_of_same (foldl_same _ (fun s e => ?_) _ _))
    split
    · exact raise_same ..
    · rfl

variable {c : Comp} (hc : s.comp key = some c) (n : Nat)
include hc

/-- A composition that does not flow passes its frame boundary: no picture is begun, and nothing but the compositions changes. -/
theorem compFrame_held (hf : s.flows key = false) : ∃ t d, s.compFrame key n = t ∧ t.comp key = some d ∧ d.lasting = c.passed n false ∧
    d.cur = none ∧ t = { s with video := { s.video with comps := t.video.comps } } := by
  simp only [State.compFrame, hc, hf, Bool.false_eq_true, if_false]
  generalize hu : State.updComp (State.updComp s key _) key _ = u
  have hflow : u.flows key = false := (flows_of_objs (by rw [← hu]; rfl) key).trans hf
  obtain ⟨d, hd, hpassed, hcur⟩ : ∃ d, u.comp key = some d ∧ d.lasting = c.passed n false ∧ d.cur = none := by
    rw [← hu, updComp_comp, updComp_comp, hc]
    exact ⟨_, rfl, rfl, rfl⟩
  exact ⟨u, d, if_pos (by rw [hflow]; rfl), hd, hpassed, hcur, by rw [← hu]; rfl⟩

/-- A composition that flows passes its frame boundary: its new planes are in force, and the picture of the frame is begun. -/
theorem compFrame_flowing (hf : s.flows key = true) : ∃ t d, s.compFrame key n = t ∧ t.comp key = some d ∧ d.lasting = c.passed n true ∧
    t.objs = s.objs ∧ t.video.encs = s.video.encs ∧ ∃ x, d.cur = some x ∧ x.frame = n ∧ x.left = [] ∧ x.done = 0 := by
  simp only [State.compFrame, hc, hf, if_true]
  generalize hu : State.updComp (State.updComp s key _) key _ = u
  have hobjs : u.objs = s.objs := by rw [← hu]; rfl
  have hencs : u.video.encs = s.video.encs := by rw [← hu]; rfl
  obtain ⟨b, hb, hpassed⟩ : ∃ b, u.comp key = some b ∧ b.lasting = c.passed n true := by
    rw [← hu, updComp_comp, updComp_comp, hc]
    exact ⟨_, rfl, rfl⟩
  clear hu
  have hkeep := planeStates_keepsComp (s := u) (key := key) n
  obtain ⟨d, hd, hlast⟩ := keepsComp_comp hkeep hb
  simp only [flows_of_objs hobjs key, hf, hd, Bool.not_true, Bool.false_eq_true, if_false]
  refine ⟨_, _, rfl, (updComp_comp ..).trans (congrArg (Option.map _) hd), hlast.trans hpassed, hkeep.objs.trans hobjs,
    hkeep.encs.trans hencs, _, rfl, rfl, rfl, rfl⟩

end

/-- Where nothing waits for a frame boundary, none of them puts anything in force. -/
theorem runDue_frameless {s : State} {p : Boundary → Bool} (h : ∀ e ∈ s.sched, ∀ i, e.at_ ≠ .frame i)
    (hp : ∀ b, (∀ i, b ≠ .frame i) → p b = false) : s.runDue p = s :=
  runDue_none fun e he => hp _ (h e he)

@[simp] theorem at_objs (s : State) (t : Nat) : (s.at t).objs = s.objs := (at_keepsMix s t).1.2

@[simp] theorem at_sched (s : State) (t : Nat) : (s.at t).sched = s.sched := by
  unfold State.at
  split <;> rfl

@[simp] theorem at_mbx (s : State) (t : Nat) : (s.at t).mbx = s.mbx := by
  unfold State.at
  split <;> rfl

@[simp] theorem at_out (s : State) (t : Nat) : (s.at t).out = s.out := by
  unfold State.at
  split <;> rfl

@[simp] theorem at_video (s : State) (t : Nat) : (s.at t).video = s.video := by
  unfold State.at
  split <;> rfl

/-- A frame boundary that nothing waits for, of a composition that feeds no encoding, is the composition's own part of it. -/
theorem frameBoundary_alone {s t : State} {i : Nat} {c : Comp} (hc : s.comp (okey 4 i) = some c)
    (hnone : ∀ e ∈ s.sched, ∀ j, e.at_ ≠ .frame j) (hfed : s.fedBy (okey 4 i) = [])
    (ht : (s.at (ceilDiv (c.boundary c.next) 6)).compFrame (okey 4 i) c.next = t) (hencs : t.video.encs = s.video.encs) :
    s.frameBoundary i = t := by
  subst ht
  have hat : ∀ e ∈ (s.at (ceilDiv (c.boundary c.next) 6)).sched, ∀ j, e.at_ ≠ .frame j := by rw [at_sched]; exact hnone
  have hgone (p : Sched → Bool) : ((s.at (ceilDiv (c.boundary c.next) 6)).sched.any fun e => e.at_ == Boundary.frame i && p e) = false := by
    rw [List.any_eq_false]
    exact fun e he => by simp [hat e he i]
  simp only [State.frameBoundary, hc, Bool.and_assoc, hgone, Bool.false_eq_true, if_false]
  rw [runDue_frameless hat fun b hb => ?_, fedBy_of_encs hencs, hfed]
  · split <;> rfl
  · split
    next j => exact absurd rfl (hb j)
    next => rfl

theorem exec_frameBoundary {i : Nat} (hi : i < 512) (s : State) : exec (.frameBoundary i) s = .next (s.frameBoundary i) :=
  if_neg (Nat.not_le.2 hi)

/-- What the parts of `Comp.passed` say of a composition that has them. -/
theorem lasting_passed {c d : Comp} {n : Nat} {on : Bool} (h : d.lasting = c.passed n on) : d.next = n + 1 ∧ d.shadow = c.shadow ∧
    d.commits = (c.commits.filter fun e => decide (n < e.1)) ∧ d.planes = (if on then (c.coming n).getD c.planes else c.planes) ∧
    d.parked = if on then none else c.coming n := by
  simpa only [Comp.lasting, Comp.passed, Prod.mk.injEq] using h

/-! ### The start of a slice (R398, R399, R402) -/

theorem flattenSlice_planes (c : Comp) (k : Nat) (now : List Bytes) : (c.flattenSlice k now).planes = c.planes := by
  unfold Comp.flattenSlice
  split
  · rfl
  · dsimp only
    repeat' split
    all_goals rfl

/-- The items of a slice go to the work bridge alone. -/
theorem opalItems_only (key frame k : Nat) (c : Comp) (l : List Nat) (s : State) :
    l.foldl (fun s b => s.opalItem key c frame k b) s = { s with work := (l.foldl (fun s b => s.opalItem key c frame k b) s).work } := by
  induction l generalizing s with
  | nil => rfl
  | cons b l ih =>
    rw [List.foldl_cons, ih]
    rfl

section
variable {i k : Nat} {s : State} {c : Comp} {u : CompRun} (hi : i < 512) (hc : s.comp (okey 4 i) = some c) (hu : c.cur = some u)
include hi hc hu

/-- A slice that the picture has not, or that has been started, is not started. -/
theorem compositeSliceStart_idle (h : c.slices ≤ k ∨ thas u.left k = true) : exec (.compositeSliceStart i k) s = .next s := by
  show execCompositeSliceStart i k s = _
  simp only [execCompositeSliceStart, if_neg (Nat.not_le.2 hi), hc, hu, if_pos h]

/-- A slice started awaits the items of its bands, and what the picture notes of it is when its sources arrived. -/
theorem compositeSliceStart_begins (hk : k < c.slices) (hleft : thas u.left k = false) :
    ∃ t : State, exec (.compositeSliceStart i k) s = .next t ∧ t.objs = s.objs ∧ t.sched = s.sched ∧ t.mbx = s.mbx ∧
      ∃ d v, t.comp (okey 4 i) = some d ∧ d.cur = some v ∧ tget 0 v.left k = c.bands ∧ v.frame = u.frame ∧
        v.pic = { u.pic with arrived := v.pic.arrived } ∧ d.planes = c.planes := by
  have hgo : ¬(c.slices ≤ k ∨ thas u.left k = true) := by simp [hleft, Nat.not_le.2 hk]
  show ∃ t : State, execCompositeSliceStart i k s = .next t ∧ _
  simp only [execCompositeSliceStart, if_neg (Nat.not_le.2 hi), hc, hu, if_neg hgo]
  rw [opalItems_only]
  generalize State.work _ = w
  refine ⟨_, rfl, at_objs .., at_sched .., at_mbx .., _, _,
    (updComp_comp ..).trans (congrArg (Option.map _) ((comp_of_video (at_video ..) _).trans hc)), rfl, tget_tset_same .., rfl, ?_,
    flattenSlice_planes ..⟩
  dsimp only
  split <;> rfl

end

/-! ### The frame boundary of a composition that feeds nothing -/

section
variable {s : State} {i : Nat} {c : Comp} (hi : i < 512) (hc : s.comp (okey 4 i) = some c)
  (hnone : ∀ e ∈ s.sched, ∀ j, e.at_ ≠ .frame j) (hfed : s.fedBy (okey 4 i) = [])
include hi hc hnone hfed

theorem exec_frameBoundary_held (hf : s.flows (okey 4 i) = false) : ∃ t d, exec (.frameBoundary i) s = .next t ∧ t.objs = s.objs ∧
    t.comp (okey 4 i) = some d ∧ d.lasting = c.passed c.next false ∧ d.cur = none ∧ t.mbx = s.mbx ∧ t.out = s.out := by
  obtain ⟨t, d, ht, hd, hlast, hcur, hframe⟩ := compFrame_held (s := s.at (ceilDiv (c.boundary c.next) 6))
    ((comp_of_video (at_video ..) _).trans hc) c.next ((flows_of_objs (at_objs ..) _).trans hf)
  have hencs : t.video.encs = s.video.encs := by rw [hframe, at_video]
  refine ⟨t, d, ?_, ?_, hd, hlast, hcur, ?_, ?_⟩
  · rw [exec_frameBoundary hi, frameBoundary_alone hc hnone hfed ht hencs]
  · rw [hframe, at_objs]
  · rw [hframe, at_mbx]
  · rw [hframe, at_out]

theorem exec_frameBoundary_flowing (hf : s.flows (okey 4 i) = true) : ∃ t d, exec (.frameBoundary i) s = .next t ∧ t.objs = s.objs ∧
    t.comp (okey 4 i) = some d ∧ d.lasting = c.passed c.next true ∧
      ∃ u, d.cur = some u ∧ u.frame = c.next ∧ u.left = [] ∧ u.done = 0 := by
  obtain ⟨t, d, ht, hd, hlast, hobjs, hencs, hrun⟩ := compFrame_flowing (s := s.at (ceilDiv (c.boundary c.next) 6))
    ((comp_of_video (at_video ..) _).trans hc) c.next ((flows_of_objs (at_objs ..) _).trans hf)
  rw [at_video] at hencs
  refine ⟨t, d, ?_, hobjs.trans (at_objs ..), hd, hlast, hrun⟩
  rw [exec_frameBoundary hi, frameBoundary_alone hc hnone hfed ht hencs]

end

/-- Settles O37: each command by the lemma on its own part, a frame boundary by what the composition's own part of it leaves, flowing or
not, and the start of a slice by what its items leave. -/
theorem compositionsComplete : Obligations.CompositionsComplete := by
  unfold Obligations.CompositionsComplete
  refine ⟨fun r s s1 i h ht hlen hs hok hi hroom => ?_, fun r s s1 key h hpl hk hfed => ?_, fun r s s1 key o h hpl hk hm ho ha => ?_,
    fun r s s1 key o h hpl hk ho ha => ?_, fun r s s1 key c h hlen hk hc hsrc hok hno => ?_,
    fun r s s1 key c src h hlen hk hc hsrc hhandle hok hlive hcrit => ?_, fun r s s1 key c h hpl hk hc hgood hfit => ?_,
    fun r s s1 key c st p h hpl hk hc hbad => ?_, fun r s s1 key c h hlen hk hc h7 h1 hz => ?_, fun r s s1 key c h hpl hk hc => ?_,
    fun r s s1 h ht hlen hn hz => ?_, fun i s hi => exec_frameBoundary hi s, fun i s c hi hc hnone hfed => ?_,
    fun i k s c u hi hc hu hno => compositeSliceStart_idle hi hc hu hno,
    fun i k s c u hi hc hu hk hleft => compositeSliceStart_begins hi hc hu hk hleft⟩
  · obtain ⟨t, hown, hobjs, hvideo⟩ := effCompositionCreate_admitted ht hs hok hi hroom
    exact ⟨t, exec_answered h (by rw [hlen]; rfl) hown, hobjs ▸ composed_obj .., hvideo ▸ composed_comp ..⟩
  · obtain ⟨t, hown, hgen, hwait⟩ := destroyAt_waits s1 r key (.frame (kidx key))
    exact ⟨t, exec_accepted h (by rw [hpl]; rfl) ((effCompositionDestroy_unfed hk hfed).trans hown), hgen, hwait⟩
  · exact exec_accepted h (by rw [hpl]; rfl) ((effCompositionEnable_unshed hk hm).trans (enableAt_held ho ha hm ..))
  · exact exec_accepted h (by rw [hpl]; rfl) ((effCompositionHold_live hk).trans (holdAt_active ho ha ..))
  · exact exec_answered h (by rw [hlen]; rfl) (effPlaneSet_fill hk hc hsrc hok hno)
  · exact exec_answered h (by rw [hlen]; rfl) (effPlaneSet_picture hk hc hsrc hhandle hok hlive hcrit)
  · obtain ⟨t, hown, hcomp, hwait⟩ := effCompositionCommit_passed hk hc rfl hgood hfit
    exact ⟨t, _, exec_accepted h (by rw [hpl]; rfl) hown, rfl, ⟨_, hcomp, rfl, rfl⟩, hwait⟩
  · refine congrArg Host.Outcome.next ((command_of_turn h (by rw [hpl]; rfl)).trans ?_)
    rw [effCompositionCommit_refused hk hc hbad]
    rfl
  · exact exec_answered h (by rw [hlen]; rfl) (effPlaneGet_answers hk hc h7 h1 hz)
  · obtain ⟨p, hown, hlen, hfirst⟩ := effCompositionStatsGet_answers hk hc
    exact ⟨p, exec_answered h (by rw [hpl]; rfl) hown, hlen, hfirst⟩
  · exact ⟨exec_waiting h (by rw [hlen]; rfl) (effOpalScalerTableGet_writes ht hn hz), scalerTable_length⟩
  · cases hf : s.flows (okey 4 i) with
    | false =>
      obtain ⟨t, d, hexec, hobjs, hd, hlast, hcur, hmbx, hout⟩ := exec_frameBoundary_held hi hc hnone hfed hf
      obtain ⟨hnext, hshadow, hcommits, hplanes, hparked⟩ := lasting_passed hlast
      exact ⟨t, d, hexec, hobjs, hd, hnext, hshadow, hcommits, fun _ => ⟨hplanes, hparked, hcur, hmbx, hout⟩, nofun⟩
    | true =>
      obtain ⟨t, d, hexec, hobjs, hd, hlast, hrun⟩ := exec_frameBoundary_flowing hi hc hnone hfed hf
      obtain ⟨hnext, hshadow, hcommits, hplanes, hparked⟩ := lasting_passed hlast
      exact ⟨t, d, hexec, hobjs, hd, hnext, hshadow, hcommits, nofun, fun _ => ⟨hplanes, hparked, hrun⟩⟩

end Sys2Proof.Machine
end

section
/-!
PROOFS. Shapers: how they admit and pay, the three that a packet passes, what a look at a queue keeps, and the packet that a port
selects (R455, R457, R459).
-/

namespace Sys2Proof.Machine

/-! ### One shaper (R455, R457) -/

theorem admits_iff (x : Shaper) (L : Nat) : x.admits L = true ↔
    x.rate = unlimited ∨ (x.rate ≠ 0 ∧ ((min L x.burst : Nat) : Int) * 65536 ≤ x.tokens) := by
  simp only [Shaper.admits, Bool.or_eq_true, Bool.and_eq_true, beq_iff_eq, bne_iff_ne, decide_eq_true_iff]

theorem open_admits (cls L : Nat) : (Shaper.open cls).admits L = true := (admits_iff ..).2 (.inl rfl)

/-! ### A leg, class or port shaper read after a change (Tables 14.1 and 14.2) -/

section
variable {s : State} {q : Nat}

/-- The shaper of a queue that is not one of host-sent frames is the one listed, open where none is. -/
theorem egShaper_listed (h : isHostQueue q = false) :
    s.egShaper q = tget (Shaper.open (if 0xF020 ≤ q then 7 else 0)) s.egress.legs q := by
  rw [State.egShaper, h, if_neg Bool.false_ne_true]
  split <;> rfl

theorem setEgShaper_listed (h : isHostQueue q = false) (x : Shaper) : s.setEgShaper q x = s.setLegShaper q x := by
  rw [State.setEgShaper, h, Bool.false_and, if_neg Bool.false_ne_true]

theorem egShaper_setEgShaper (h : isHostQueue q = false) (x : Shaper) : (s.setEgShaper q x).egShaper q = x := by
  rw [egShaper_listed h, setEgShaper_listed h]
  exact tget_tset_same ..

/-- Of a leg shaper, a change of others than the leg shapers leaves what is read. -/
theorem egShaper_of_legs {t : State} (h : isHostQueue q = false) (hl : t.egress.legs = s.egress.legs) : t.egShaper q = s.egShaper q := by
  rw [egShaper_listed h, egShaper_listed h, hl]

theorem classShaper_of_classes {t : State} (h : t.egress.classes = s.egress.classes) (n : Nat) : t.classShaper n = s.classShaper n := by
  rw [State.classShaper, State.classShaper, h]

theorem setClassShaper_other {n m : Nat} (x : Shaper) (h : m ≠ n) : (s.setClassShaper n x).classShaper m = s.classShaper m :=
  tget_tset_other _ _ _ h

theorem notHost_of_lt (h : q < 0xF000) : isHostQueue q = false := by
  rw [isHostQueue, decide_eq_false (Nat.not_le.2 h), Bool.false_and]

theorem notHost_of_quartz (h : 0xF020 ≤ q) : isHostQueue q = false := by
  rw [isHostQueue, decide_eq_false (Nat.not_lt.2 h), Bool.and_false]

theorem portNo_ne_classNo {port c : Nat} (h : c < 8) : portNo port ≠ classNo port c := by unfold portNo classNo; omega

end

/-! ### The three shapers of a packet (R457) -/

theorem admitsAll_iff (s : State) (port c q L : Nat) : s.admitsAll port c q L = true ↔ (s.egShaper q).admits L = true ∧
    (s.classShaper (classNo port c)).admits L = true ∧ (s.classShaper (portNo port)).admits L = true := by
  rw [State.admitsAll, Bool.and_eq_true, Bool.and_eq_true, and_assoc]

section
variable (s : State) {port c q : Nat} (L : Nat)

/-- Paying changes the shapers alone. -/
theorem debitAll_only (port c q : Nat) : s.debitAll port c q L = { s with egress := (s.debitAll port c q L).egress } := rfl

theorem debitAll_egShaper (h : isHostQueue q = false) : (s.debitAll port c q L).egShaper q = (s.egShaper q).debit L :=
  (egShaper_of_legs h rfl).trans (egShaper_setEgShaper h _)

theorem debitAll_portShaper (h : c < 8) :
    (s.debitAll port c q L).classShaper (portNo port) = (s.classShaper (portNo port)).debit L := by
  rw [State.debitAll, setClassShaper_classShaper, setClassShaper_other _ (portNo_ne_classNo h),
    classShaper_of_classes (s := s) (t := s.setEgShaper q _) rfl]

theorem debitAll_classShaper (h : c < 8) :
    (s.debitAll port c q L).classShaper (classNo port c) = (s.classShaper (classNo port c)).debit L := by
  rw [State.debitAll, setClassShaper_other _ (portNo_ne_classNo h).symm, setClassShaper_classShaper,
    classShaper_of_classes (s := s) (t := s.setEgShaper q _) rfl]

theorem debitAll_otherShaper {n : Nat} (hc : n ≠ classNo port c) (hp : n ≠ portNo port) :
    (s.debitAll port c q L).classShaper n = s.classShaper n := by
  rw [State.debitAll, setClassShaper_other _ hp, setClassShaper_other _ hc, classShaper_of_classes (s := s) (t := s.setEgShaper q _) rfl]

end

/-! ### Selection (R459) -/

/-- The order of a head among those of its class: its deadline, none last. -/
def Rec.urgency (r : Rec) : Nat := if r.deadline = 0 then 2 ^ 64 - 1 else r.deadline

/-- A first head is kept exactly where its priority is not paused, its three shapers admit it and the cipher is free for it. -/
theorem lookAt_first (s t : State) (port c q : Nat) (x : Nat × Nat × Rec) : State.lookAt port c (s, none) q = (t, some x) ↔
    t = s.expireHead port q ∧ ∃ r, t.front q = some r ∧ x = (r.urgency, q, r) ∧ t.paused port (t.frameOf q r).2 = false ∧
      t.admitsAll port c q (t.headLen port q r) = true ∧ t.cipherHeld q = false := by
  simp only [State.lookAt]
  generalize s.expireHead port q = u
  constructor
  · intro h
    split at h
    · cases h
    next r hr =>
    split at h
    · cases h
    next hp =>
    split at h
    · cases h
    next ha =>
    cases h
    rw [Bool.or_eq_true, not_or, Bool.not_eq_true', Bool.not_eq_false, Bool.not_eq_true] at ha
    exact ⟨rfl, r, hr, rfl, Bool.eq_false_iff.2 hp, ha.1, ha.2⟩
  · rintro ⟨rfl, r, hr, rfl, hp, ha, hc⟩
    simp only [hr, hp, ha, hc, Bool.not_true, Bool.or_self, Bool.false_eq_true, if_false, Rec.urgency]

/-- The head of a queue taken and sent on its way. -/
def State.sendHead (s : State) (port q : Nat) : State :=
  match s.readQueue q with
  | (u, some x) => u.depart port q x
  | (u, none) => u

/-- A port that can begin a frame pays for the head it has chosen, and sends it. -/
theorem exec_egressSelect_chosen {s u : State} {port t c q : Nat} {r : Rec} (hok : s.portOk port = true)
    (hup : ((s.at t).port port).up = true) (hen : ((s.at t).port port).en = true) (hopen : (s.at t).mode.isOpen = true)
    (hunit : (s.at t).unitDown 9 0 = false) (hc : State.choose port [7, 6, 5, 4, 3, 2, 1, 0] (s.at t) = (u, some (c, q, r))) :
    exec (.egressSelect port t) s = .next ((u.debitAll port c q (u.headLen port q r)).sendHead port q) := by
  show execEgressSelect port t s = _
  rw [execEgressSelect, if_pos hok, State.select]
  simp only [hup, hen, hopen, hunit, hc, Bool.not_true, Bool.or_self, Bool.false_eq_true, if_false]
  rfl

@[simp] theorem at_sys (s : State) (t : Nat) : (s.at t).sys = s.sys := by
  unfold State.at
  split <;> rfl

/-- Settles O56: a first head is kept where its three shapers admit it; the port pays with all three, of which the class shaper's number
is never the port shaper's. -/
theorem shapersAdmitAndPay : Obligations.ShapersAdmitAndPay := by
  unfold Obligations.ShapersAdmitAndPay
  refine ⟨admits_iff, fun s t port c q q2 k r h => ?_, fun s u port t c q r hok hup hen hopen hunit hc => ?_,
    fun s port c q L hc _ _ hq => ?_⟩
  · obtain ⟨-, x, -, hx, -, hadmit, -⟩ := (lookAt_first ..).1 h
    cases hx
    exact ⟨rfl, (admitsAll_iff ..).1 hadmit⟩
  · exact exec_egressSelect_chosen hok hup hen (by rw [State.mode, at_sys]; exact hopen) hunit hc
  · rw [debitAll_egShaper _ _ (notHost_of_lt (by omega)), debitAll_classShaper _ _ hc, debitAll_portShaper _ _ hc]
    exact ⟨rfl, rfl, rfl, fun n => debitAll_otherShaper s L⟩

end Sys2Proof.Machine
end

section
/-!
PROOFS. What reading a queue leaves of the state, and what is read of a queue that neither spills nor gives notice (R429 to R431, R438
to R441).
-/

namespace Sys2Proof.Machine

/-! ### What reading a queue leaves of the state -/

/-- Two states differ at most in what sending changes, the memory system and the objects' counts. -/
def State.readsOnly (s t : State) : Prop :=
  t = { s with mbx := t.mbx, nmc := t.nmc, out := t.out, fresh := t.fresh, work := t.work, net := t.net, framer := t.framer,
               cascade := t.cascade, onyx := t.onyx, mem := t.mem, objCtr := t.objCtr }

theorem readsOnly_of_sent {s t : State} (h : s.sentOnly t) : s.readsOnly t := by
  unfold State.sentOnly at h
  unfold State.readsOnly
  rw [h]

theorem readsOnly_of_same {s t : State} (h : s.sameBut t) : s.readsOnly t := readsOnly_of_sent (sentOnly_of_same h)

/-- An access to memory changes no more. -/
theorem readsOnly_of_readOnly {s t : State} (h : s.readOnly t = t) : s.readsOnly t := by
  unfold State.readsOnly
  rw [← h]
  rfl

theorem readsOnly_of_memOnly {s t : State} (h : s.memOnly t = t) : s.readsOnly t := by
  unfold State.readsOnly
  rw [← h]
  rfl

theorem readsOnly_trans {a b c : State} (h : a.readsOnly b) (k : b.readsOnly c) : a.readsOnly c := by
  unfold State.readsOnly at *
  rw [k, h]

theorem readsOnly_foldl {α : Type} {g : State → α → State} (h : ∀ s a, State.readsOnly s (g s a)) (l : List α) (s : State) :
    s.readsOnly (l.foldl g s) := by
  induction l generalizing s with
  | nil => rfl
  | cons a l ih => exact readsOnly_trans (h s a) (ih _)

section
variable {s t : State} (h : s.readsOnly t)
include h

theorem readsOnly_objs : t.objs = s.objs := by unfold State.readsOnly at h; rw [h]
theorem readsOnly_sched : t.sched = s.sched := by unfold State.readsOnly at h; rw [h]
theorem readsOnly_egress : t.egress = s.egress := by unfold State.readsOnly at h; rw [h]

end

/-- A run of bytes read from memory. -/
theorem memRead_reads (s : State) (a n : Nat) : s.readsOnly (s.memRead a n).1 := by
  have hfold {g : State × List Nat → Piece → State × List Nat} (hg : ∀ (x : State × List Nat) p, x.1.readsOnly (g x p).1)
      (l : List Piece) : ∀ x : State × List Nat, x.1.readsOnly (l.foldl g x).1 := by
    induction l with
    | nil => exact fun _ => rfl
    | cons p l ih => exact fun x => readsOnly_trans (hg x p) (ih _)
  exact hfold (fun x p => readsOnly_trans (readsOnly_of_memOnly (touch_only x.1 p.chan p.at_))
    (readsOnly_of_readOnly (readOnly_foldl _ (fun s l => readOne_only s p.chan 2 l) _ _))) _ (s, [])

theorem noticeOut_reads (s s0 : State) (port prio pin : Nat) : s.readsOnly (s.noticeOut s0 port prio pin) := by
  have hdrive : s.readsOnly (s.driveFctl s0 pin) := by
    unfold State.driveFctl
    split <;> rfl
  have hpfc (u : State) (time : Nat) : u.readsOnly (u.sendPfc port prio time) := by
    unfold State.sendPfc
    split
    · exact readsOnly_trans (readsOnly_of_sent (sendFrame_sent ..)) rfl
    · rfl
  unfold State.noticeOut
  dsimp only
  repeat' split
  · exact readsOnly_trans hdrive (hpfc ..)
  · exact readsOnly_trans hdrive (hpfc ..)
  · exact hdrive

theorem evalNotice_reads (s : State) (id : Nat) : s.readsOnly (s.evalNotice id) := by
  unfold State.evalNotice
  split
  · rfl
  next q _ =>
  split
  · rfl
  extract_lets on q' t
  split
  · rfl
  have hout : s.readsOnly t := readsOnly_trans (b := s.setQueue id (if on then q'.bump 60 1 else q')) rfl (noticeOut_reads ..)
  split
  · refine readsOnly_trans hout ?_
    unfold State.queueEvent
    split
    · exact readsOnly_of_same (raiseOn_same ..)
    · rfl
  · exact hout

theorem flushQueue_reads (s : State) (id words : Nat) : s.readsOnly (s.flushQueue id words) := by
  unfold State.flushQueue
  split
  · rfl
  next q _ =>
  have hcount : s.readsOnly (q.recs.foldl (fun s r => s.objCount r.obj 7 1) s) := readsOnly_foldl (fun _ _ => by rfl) _ _
  have hempty (x : Queue) (u : State) : u.readsOnly ((u.setQueue id x).evalNotice id) :=
    readsOnly_trans (b := u.setQueue id x) rfl (evalNotice_reads ..)
  dsimp only
  split
  · exact readsOnly_trans (readsOnly_trans hcount (hempty ..)) (readsOnly_of_same (raiseOn_same ..))
  · exact readsOnly_trans hcount (hempty ..)

theorem spillTail_reads (s : State) (id done : Nat) : s.readsOnly (s.spillTail id done) := by
  have hwrite (u : State) (a n : Nat) : u.readsOnly (u.memWrite a n) := readsOnly_of_memOnly (memWrite_only ..)
  unfold State.spillTail
  split
  · rfl
  · exact readsOnly_trans (readsOnly_trans (by rfl) (hwrite ..)) (hwrite ..)

theorem refill_reads (s : State) (id done : Nat) : s.readsOnly (s.refill id done) := by
  have hmark (c : Nat) : s.readsOnly
      (if id < 0xA000 then (s.mem.pieces (cellAddr id c) 256).foldl (fun s p => s.markBurst p.chan 0) s else s) := by
    split
    · exact readsOnly_foldl (fun _ _ => by rfl) _ _
    · rfl
  unfold State.refill
  split
  · rfl
  split
  · split <;> rfl
  next c _ _ =>
  dsimp only
  have hmark := hmark c
  generalize (if id < 0xA000 then (s.mem.pieces (cellAddr id c) 256).foldl (fun s p => s.markBurst p.chan 0) s else s) = u at hmark ⊢
  have htag := readsOnly_trans hmark (memRead_reads u (u.mem.tagAddr id c) 8)
  generalize u.memRead (u.mem.tagAddr id c) 8 = x at htag ⊢
  split
  · exact readsOnly_trans htag (flushQueue_reads ..)
  · have hcell := readsOnly_trans htag (memRead_reads x.1 (cellAddr id c) 256)
    generalize x.1.memRead (cellAddr id c) 256 = y at hcell ⊢
    have hqueue (f : Net → Net) (q : Queue) : s.readsOnly ((y.1.updNet f).setQueue id q) := readsOnly_trans hcell rfl
    split
    · exact readsOnly_trans (hqueue ..) (spillTail_reads ..)
    · exact hqueue ..

theorem pullBytes_reads (id f n done : Nat) (s : State) : s.readsOnly (State.pullBytes id f n done s) := by
  induction f generalizing n done s with
  | zero => rfl
  | succ f ih =>
    simp only [State.pullBytes]
    split
    · rfl
    next q _ =>
    have hone : s.readsOnly (if q.head ≤ n then State.refill (s.setQueue id { q with head := q.head - min n q.head }) id (done + min n q.head)
        else s.setQueue id { q with head := q.head - min n q.head }) := by
      split
      · exact readsOnly_trans (b := s.setQueue id _) rfl (refill_reads ..)
      · rfl
    split
    · exact hone
    · exact readsOnly_trans hone (ih ..)

theorem readQueue_reads (s : State) (id : Nat) : s.readsOnly (s.readQueue id).1 := by
  unfold State.readQueue
  split
  · rfl
  next r _ =>
  have hpull := pullBytes_reads id (r.size / 256 + 2) r.size 0 s
  dsimp only
  split
  · exact hpull
  split
  · exact hpull
  split
  · exact readsOnly_trans hpull (flushQueue_reads ..)
  · exact readsOnly_trans hpull (readsOnly_trans (b := State.setQueue _ id _) rfl (evalNotice_reads ..))

/-! ### A queue that does not spill and gives no notice -/

/-- A state with its queues replaced. -/
def State.withQueues (s : State) (l : Table Queue) : State := { s with net := { s.net with queues := l } }

/-- The head of a queue without cells is refilled from its tail. -/
theorem refill_unspilled {s : State} {id : Nat} {q : Queue} (hq : s.queue? id = some q) (hc : q.cells = []) (done : Nat) :
    ∃ l h t, s.refill id done = s.withQueues l ∧ tget? l id = some { q with head := h, tail := t } := by
  simp only [State.refill, hq]
  split
  · split
    · exact ⟨s.net.queues, q.head, q.tail, rfl, hq⟩
    · exact ⟨_, _, _, rfl, tget?_tset_same ..⟩
  next heq => rw [hc] at heq; cases heq

/-- Bytes read from a queue without cells move bytes between its buffers alone. -/
theorem pullBytes_unspilled {id : Nat} (f : Nat) : ∀ {s : State} {q : Queue} (n done : Nat), s.queue? id = some q → q.cells = [] →
    ∃ l h t, State.pullBytes id f n done s = s.withQueues l ∧ tget? l id = some { q with head := h, tail := t } := by
  induction f with
  | zero => exact fun {s q} n done hq _ => ⟨s.net.queues, q.head, q.tail, rfl, hq⟩
  | succ f ih =>
    intro s q n done hq hc
    have hone : ∃ l h t, (if q.head ≤ n then State.refill (s.setQueue id { q with head := q.head - min n q.head }) id (done + min n q.head)
        else s.setQueue id { q with head := q.head - min n q.head }) = s.withQueues l ∧ tget? l id = some { q with head := h, tail := t } := by
      split
      · exact refill_unspilled (q := { q with head := q.head - min n q.head }) (setQueue_queue ..) hc _
      · exact ⟨_, _, q.tail, rfl, tget?_tset_same ..⟩
    obtain ⟨l, h, t, hs, hl⟩ := hone
    simp only [State.pullBytes, hq, hs]
    split
    · exact ⟨l, h, t, rfl, hl⟩
    · exact ih (s := s.withQueues l) (q := { q with head := h, tail := t }) _ _ hl hc

/-- The first record of a queue that is not in stale-tail mode is offered. -/
theorem front_unstaled {s : State} {id : Nat} {q : Queue} {r : Rec} {rest : List Rec} (hq : s.queue? id = some q)
    (hr : q.recs = r :: rest) (hm : q.mode = 0) : s.front id = some r := by
  have hoffered : q.mode ≠ 2 ∨ r.size ≤ q.offered := .inl (by omega)
  simp only [State.front, hq, hr, Option.bind_some, if_pos hoffered]

/-- The head of a queue that neither spills nor gives notice is read as it stands, and the queues alone change. -/
theorem readQueue_unspilled {s : State} {id : Nat} {q : Queue} {r : Rec} {rest : List Rec} (hq : s.queue? id = some q)
    (hr : q.recs = r :: rest) (hm : q.mode = 0) (hc : q.cells = []) (hbad : r.bad = []) :
    ∃ l, s.readQueue id = (s.withQueues l, some { r with marks := [], par := [] }) := by
  have hfront : s.front id = some r := front_unstaled hq hr hm
  obtain ⟨l, h, t, hs, hl⟩ := pullBytes_unspilled (r.size / 256 + 2) r.size 0 hq hc
  have hquiet (u : State) (x : Queue) (hx : x.mode = 0) : (u.setQueue id x).evalNotice id = u.setQueue id x := by
    simp only [State.evalNotice, setQueue_queue, if_pos (show x.mode ≠ 1 by omega)]
  have hl' : (s.withQueues l).queue? id = some { q with head := h, tail := t } := hl
  simp only [State.readQueue, hfront, hs, hl', hr, hbad, List.any_nil, Bool.false_eq_true, if_false]
  rw [hquiet _ _ (by exact hm)]
  exact ⟨_, rfl⟩

end Sys2Proof.Machine
end

section
/-!
PROOFS. The scheduling commands, the refills of shapers, and a Quartz frame that is the only one of its port (R452, R453, R456, R459,
R462, R463, R466 to R469, Tables 14.3 to 14.7).
-/

namespace Sys2Proof.Machine

/-! ### The commands' own parts (Table 14.3) -/

section
variable {r : Req} {s : State} (ht : r.target = 0)
include ht

theorem effShaperSet_pends (hq : (s.queuePort (u16 r.payload 0)).isSome = true ∨ (s.hostLeg (u16 r.payload 0)).isSome = true)
    (hid : u16 r.payload 0 < 0xF020) (hcls : u8 r.payload 2 ≤ 6) (hz : zeros r.payload 3 1 = true)
    (hrate : u32 r.payload 4 ≤ s.declaredRate (u16 r.payload 0)) (hlo : 1 ≤ u32 r.payload 8) (hhi : u32 r.payload 8 ≤ 16777215)
    (hz' : zeros r.payload 12 4 = true) : effShaperSet r s = .later [] 0 ((s.setEgShaper (u16 r.payload 0)
      { s.egShaper (u16 r.payload 0) with pend := some (u32 r.payload 4, u32 r.payload 8, u8 r.payload 2) }).schedule
        (.refill (u16 r.payload 0)) (r.origin 0) .applied) := by
  rw [← Bool.or_eq_true] at hq
  simp only [effShaperSet, nullTarget_null ht, hq, hid, hcls, hz, hrate, hlo, hhi, hz', decide_true, Bool.and_self, need_true]

theorem effClassShaperSet_writes (hn : s.shaperOk (u8 r.payload 0) = true) (hf : u8 r.payload 1 ≤ 1) (hz : zeros r.payload 2 2 = true)
    (hrate : u32 r.payload 4 ≤ 400000000 ∨ u32 r.payload 4 = unlimited) (hlo : 1 ≤ u32 r.payload 8) (hhi : u32 r.payload 8 ≤ 16777215)
    (hz' : zeros r.payload 12 4 = true)
    (hroom : u32 r.payload 4 = 0 ∨ u32 r.payload 4 = unlimited ∨ s.governed (u8 r.payload 0) ≤ u32 r.payload 4) :
    effClassShaperSet r s = .done [] 0 (s.setClassShaper (u8 r.payload 0) { s.classShaper (u8 r.payload 0) with
      rate := u32 r.payload 4, burst := u32 r.payload 8, tokens := if u8 r.payload 1 = 1 then (u32 r.payload 8 : Int) * 65536 else 0 }) := by
  have hfits : ¬ (u32 r.payload 4 ≠ 0 ∧ u32 r.payload 4 ≠ unlimited ∧ u32 r.payload 4 < s.governed (u8 r.payload 0)) :=
    fun ⟨h0, hu, hg⟩ => hroom.elim h0 fun h => h.elim hu (Nat.not_le.2 hg)
  have hrate' : (decide (u32 r.payload 4 ≤ 400000000) || u32 r.payload 4 == unlimited) = true := by
    rwa [Bool.or_eq_true, decide_eq_true_iff, beq_iff_eq]
  simp only [effClassShaperSet, nullTarget_null ht, hn, hf, hz, hrate', hlo, hhi, hz', decide_true, Bool.and_self, need_true, if_neg hfits]

theorem effEgressPortSet_sets (hp : s.portOk (u8 r.payload 0) = true)
    (hover : signed 8 (u8 r.payload 1) = (s.port (u8 r.payload 0)).overhead ∨ s.carried (u8 r.payload 0) = [])
    (hlo : -32 ≤ signed 8 (u8 r.payload 1)) (hcls : u8 r.payload 2 ≤ 6) (hz : zeros r.payload 3 1 = true) :
    effEgressPortSet r s = .done [] 0 ((s.setEgShaper (hostQueue (u8 r.payload 0))
      { s.egShaper (hostQueue (u8 r.payload 0)) with cls := u8 r.payload 2 }).updPort (u8 r.payload 0) fun x => { x with
        overhead := signed 8 (u8 r.payload 1), hostClass := u8 r.payload 2 }) := by
  rw [← beq_iff_eq, ← List.isEmpty_iff, ← Bool.or_eq_true] at hover
  simp only [effEgressPortSet, nullTarget_null ht, hp, hover, hlo, hcls, hz, decide_true, Bool.and_self, need_true]

theorem effShaperGet_leg (hk : u8 r.payload 0 = 1)
    (hq : (s.queuePort (u16 r.payload 2)).isSome = true ∨ (s.hostLeg (u16 r.payload 2)).isSome = true) (hz : zeros r.payload 1 1 = true) :
    effShaperGet r s = .done ((s.egShaper (u16 r.payload 2)).report true) 0 s := by
  rw [← Bool.or_eq_true] at hq
  simp only [effShaperGet, nullTarget_null ht, hk, hq, hz, beq_self_eq_true, Bool.and_self, Bool.true_or, need_true, if_true]

theorem effShaperGet_class (hk : u8 r.payload 0 = 2) (hn : s.shaperOk (u16 r.payload 2) = true) (hz : zeros r.payload 1 1 = true) :
    effShaperGet r s = .done ((s.classShaper (u16 r.payload 2)).report false) 0 s := by
  have h21 : ((2 : Nat) == 1) = false := rfl
  simp only [effShaperGet, nullTarget_null ht, hk, hn, hz, h21, beq_self_eq_true, Bool.and_self, Bool.or_true, need_true,
    if_neg (show ¬ (2 : Nat) = 1 by omega)]

end

theorem report_length (x : Shaper) (leg : Bool) : (x.report leg).length = 40 := by
  simp only [Shaper.report, List.length_append, le_length]

/-! ### Refills (R456, R462) -/

/-- A refill puts a rewrite that waits in force. -/
theorem refill_pending {x : Shaper} {rate burst cls : Nat} (h : x.pend = some (rate, burst, cls)) (cyc : Nat) :
    ∃ n, x.refill cyc = { x with rate := rate, burst := burst, cls := cls, pend := none, tokens := n } := by
  simp only [Shaper.refill, h]
  split
  · exact ⟨x.tokens, rfl⟩
  · exact ⟨_, rfl⟩

/-- A limited shaper without a rewrite gains what its rate gives over the cycles, up to its burst. -/
theorem refill_tokens {x : Shaper} (hp : x.pend = none) (h0 : x.rate ≠ 0) (hu : x.rate ≠ unlimited) (cyc : Nat) :
    (x.refill cyc).tokens = min ((x.burst : Int) * 65536) (x.tokens + (x.rate * 1000 * cyc * 65536 / 9600000000 : Nat)) := by
  simp only [Shaper.refill, hp, h0, hu, or_self, if_false]

theorem exec_classShaperRefill {n : Nat} (h : n < 256 ∧ n % 16 ≤ 8) (s : State) :
    exec (.classShaperRefill n) s = .next (s.setClassShaper n ((s.classShaper n).refill 256)) := if_pos h

/-! ### What the refill of a leg shaper leaves (R460, R462) -/

/-- What a rewrite of a leg shaper sets, and the rewrite that waits. -/
def Shaper.terms (x : Shaper) : Nat × Nat × Nat × Option (Nat × Nat × Nat) := (x.rate, x.burst, x.cls, x.pend)

/-- The objects, the changes that wait and the terms of the shaper of queue `q` stay. -/
structure State.keepsTerms (q : Nat) (s t : State) : Prop where
  objs : t.objs = s.objs
  sched : t.sched = s.sched
  terms : (t.egShaper q).terms = (s.egShaper q).terms

section
variable {q : Nat} {s t u : State}

theorem keepsTerms_refl (q : Nat) (s : State) : s.keepsTerms q s := ⟨rfl, rfl, rfl⟩

theorem keepsTerms_trans (h : State.keepsTerms q s t) (k : State.keepsTerms q t u) : State.keepsTerms q s u where
  objs := k.objs.trans h.objs
  sched := k.sched.trans h.sched
  terms := k.terms.trans h.terms

variable (hq : isHostQueue q = false)
include hq

theorem keepsTerms_of_reads (h : s.readsOnly t) : State.keepsTerms q s t where
  objs := readsOnly_objs h
  sched := readsOnly_sched h
  terms := by rw [egShaper_of_legs hq (congrArg Egress.legs (readsOnly_egress h))]

/-- An expired packet is counted by its shaper and its leg, and changes nothing else. -/
theorem countExpired_keepsTerms (s : State) : s.keepsTerms q (s.countExpired q) := by
  have hcount : s.keepsTerms q (s.setEgShaper q { s.egShaper q with expired := (s.egShaper q).expired + 1 }) :=
    ⟨rfl, rfl, by rw [egShaper_setEgShaper hq]; rfl⟩
  unfold State.countExpired
  dsimp only
  repeat' split
  · exact ⟨rfl, rfl, (congrArg Shaper.terms (egShaper_of_legs hq rfl)).trans hcount.terms⟩
  · exact ⟨rfl, rfl, (congrArg Shaper.terms (egShaper_of_legs hq rfl)).trans hcount.terms⟩
  · exact hcount

theorem expireHead_keepsTerms (s : State) (port : Nat) : s.keepsTerms q (s.expireHead port q) := by
  have hdrop (n : Nat) : ∀ s : State, s.keepsTerms q (State.dropExpired port q n s) := by
    induction n with
    | zero => exact keepsTerms_refl q
    | succ n ih =>
      intro s
      unfold State.dropExpired
      split
      · exact keepsTerms_refl q s
      split
      · exact keepsTerms_trans (keepsTerms_trans (keepsTerms_of_reads hq (readQueue_reads ..)) (countExpired_keepsTerms hq _)) (ih _)
      · exact keepsTerms_refl q s
  exact hdrop ..

end

/-- A queue that is not there has no head to expire. -/
theorem expireHead_absent {s : State} {q : Nat} (h : s.queue? q = none) (port : Nat) : s.expireHead port q = s := by
  rw [State.expireHead, h]
  rfl

/-- Where only `Applied` waits for a boundary, what is put in force there is told, and leaves the objects, the queues and the
shapers as they are. -/
theorem runDue_applied {s : State} {p : Boundary → Bool} (h : ∀ e ∈ s.sched, p e.at_ = true → e.act = .applied) :
    (s.runDue p).objs = s.objs ∧ (s.runDue p).net = s.net ∧ (s.runDue p).egress = s.egress := by
  have htold : ∀ (l : List Sched) (u : State), (∀ e ∈ l, e.act = .applied) → u.sameBut (l.foldl State.applySched u) := by
    intro l
    induction l with
    | nil => exact fun _ _ => rfl
    | cons e l ih =>
      intro u hl
      have hone : u.sameBut (u.applySched e) := by
        simp only [State.applySched, State.applyAct, hl e (.head _)]
        split
        · exact applied_same ..
        · rfl
      exact sameBut_trans hone (ih _ fun d hd => hl d (.tail _ hd))
  have hdue := htold (s.sched.filter fun e => p e.at_ && decide (e.from_ ≤ s.now))
    { s with sched := s.sched.filter fun e => !(p e.at_ && decide (e.from_ ≤ s.now)) } fun e he => by
      obtain ⟨hmem, hat⟩ := List.mem_filter.1 he
      rw [Bool.and_eq_true] at hat
      exact h e hmem hat.1
  unfold State.sameBut at hdue
  rw [State.runDue, hdue]
  exact ⟨rfl, rfl, rfl⟩

theorem refillLeg_egress {s : State} {q p : Nat} (h : s.queuePort q = some p) :
    s.refillLeg q = (s.setEgShaper q ((s.egShaper q).refill 65536)).expireHead p q := by
  simp only [State.refillLeg, h]

/-- At the refill of a leg shaper a rewrite that waits is in force, and so are the changes that wait for it. -/
theorem exec_legShaperRefill_pending {s : State} {q p rate burst cls : Nat} (hp : s.queuePort q = some p) (hq : q < 0xF000)
    (hpend : (s.egShaper q).pend = some (rate, burst, cls)) (hwait : ∀ e ∈ s.sched, e.at_ = .refill q → e.act = .applied) :
    ∃ t : State, exec (.legShaperRefill q) s = .next t ∧ (s.queue? q = none → t.net = s.net) ∧ t.objs = s.objs ∧
      (t.egShaper q).terms = (rate, burst, cls, none) := by
  have hhost := notHost_of_lt hq
  obtain ⟨n, hrefill⟩ := refill_pending hpend 65536
  have hkeep := expireHead_keepsTerms hhost (s.setEgShaper q ((s.egShaper q).refill 65536)) p
  rw [← refillLeg_egress hp] at hkeep
  have hnet (hnone : s.queue? q = none) : (s.refillLeg q).net = s.net := by
    rw [refillLeg_egress hp]
    exact (congrArg State.net (expireHead_absent (s := s.setEgShaper q _) hnone p) :)
  obtain ⟨hobjs, hqueues, hegress⟩ := runDue_applied (s := s.refillLeg q) (p := (· == .refill q)) fun e he hat =>
    hwait e (hkeep.sched ▸ he) (eq_of_beq hat)
  refine ⟨_, rfl, fun hnone => hqueues.trans (hnet hnone), hobjs.trans hkeep.objs, ?_⟩
  rw [egShaper_of_legs hhost (congrArg Egress.legs hegress), hkeep.terms, egShaper_setEgShaper hhost, hrefill]
  rfl

/-! ### The only frame of a port is one of Quartz (R452, R453, R459) -/

@[simp] theorem at_net (s : State) (t : Nat) : (s.at t).net = s.net := by
  unfold State.at
  split <;> rfl

@[simp] theorem at_egress (s : State) (t : Nat) : (s.at t).egress = s.egress := by
  unfold State.at
  split <;> rfl

@[simp] theorem at_framer (s : State) (t : Nat) : (s.at t).framer = s.framer := by
  unfold State.at
  split <;> rfl

theorem port_of_net {s t : State} (h : t.net = s.net) (port : Nat) : t.port port = s.port port := by rw [State.port, State.port, h]

theorem unitDown_of_work {s t : State} (h : t.work = s.work) (kind inst : Nat) : t.unitDown kind inst = s.unitDown kind inst := by
  rw [State.unitDown, State.unitDown, State.inst, State.inst, h]

theorem portOk_of_units {s t : State} (hn : t.net = s.net) (hf : t.framer = s.framer) (port : Nat) : t.portOk port = s.portOk port := by
  rw [State.portOk, State.portOk, State.laneEth, State.laneEth, State.homeGroups, State.homeGroups, hn, hf]

theorem portOk_lt {s : State} {port : Nat} (h : s.portOk port = true) : port < 32 := by
  have hconf (n : Nat) : (netConfig n).1 ≤ 8 := by
    unfold netConfig
    split <;> decide
  have := hconf s.net.config
  simp only [State.portOk, Bool.or_eq_true, Bool.and_eq_true, decide_eq_true_iff] at h
  omega

/-- What leaves a port depends on the framer and the objects alone. -/
theorem onWire_of_units {s t : State} (hf : t.framer = s.framer) (ho : t.objs = s.objs) (port : Nat) (f : Bytes) :
    t.onWire port f = s.onWire port f := by
  have hflows : t.flows = s.flows := funext fun k => flows_of_objs ho k
  rw [State.onWire, State.onWire, State.carrier, State.carrier, State.homeGroups, State.homeGroups, hf, hflows]

/-- A frame sent on a port whose link is up is put out as its lane carries it. -/
theorem sendFrame_out {s : State} {port : Nat} (h : (s.port port).up = true) (f : Bytes) :
    (s.sendFrame port f).out = .frame port (s.onWire port f) :: s.out := by
  have hscr : (s.scrambled port f).out = s.out := by
    unfold State.scrambled
    split <;> rfl
  rw [State.sendFrame, if_pos h]
  exact congrArg _ hscr

/-- A whole frame that is not poisoned goes as it is. -/
theorem depart_frame {r : Rec} {q : Nat} (hr : r.poisoned = false) (hq : ¬ q < 0xA000) (hk : r.kind ≠ 5) (s : State) (port : Nat) :
    s.depart port q r = s.sendFrame port r.data := by
  simp only [State.depart, hr, Bool.false_eq_true, if_false, if_neg hq, hk, false_and]

/-- Port `port` holds one frame, of Quartz, in a queue that neither spills nor gives notice; no shaper was ever set, no priority is
paused. -/
structure State.QuartzOnly (s : State) (port : Nat) (q : Queue) (r : Rec) : Prop where
  ok : s.portOk port = true
  queues : s.net.queues = [(0xF020 + port, q)]
  recs : q.recs = [r]
  mode : q.mode = 0
  cells : q.cells = []
  deadline : r.deadline = 0
  flags : r.flags = 0
  bad : r.bad = []
  kind : r.kind = 1
  legs : s.egress.legs = []
  classes : s.egress.classes = []
  paused : (s.port port).paused = []

section
variable {s : State} {port : Nat} {q : Queue} {r : Rec} (h : s.QuartzOnly port q r)
include h

theorem quartz_queue : s.queue? (0xF020 + port) = some q := by
  rw [State.queue?, h.queues]
  exact if_pos rfl

theorem quartz_front : s.front (0xF020 + port) = some r := front_unstaled (quartz_queue h) h.recs h.mode

theorem quartz_egShaper : s.egShaper (0xF020 + port) = Shaper.open 7 := by
  rw [egShaper_listed (notHost_of_quartz (by omega)), h.legs, if_pos (by omega)]
  rfl

theorem quartz_classShaper (n : Nat) : s.classShaper n = Shaper.open 0 := by
  rw [State.classShaper, h.classes]
  rfl

theorem quartz_admits (L : Nat) : s.admitsAll port 7 (0xF020 + port) L = true := by
  rw [admitsAll_iff, quartz_egShaper h, quartz_classShaper h, quartz_classShaper h]
  exact ⟨open_admits .., open_admits .., open_admits ..⟩

theorem quartz_queuePort : s.queuePort (0xF020 + port) = some port := by
  have := portOk_lt h.ok
  rw [State.queuePort, if_neg (by omega), if_neg (by omega), if_neg (by omega), if_neg (by omega), if_neg (by omega), if_pos (by omega),
    Nat.add_sub_cancel_left, if_pos h.ok]

theorem quartz_classQueues : s.classQueues port 7 = [0xF020 + port] := by
  have hcls : (s.egShaper (0xF020 + port)).cls = 7 := by rw [quartz_egShaper h]; rfl
  simp only [State.classQueues, h.queues, List.filter_cons, List.filter_nil, h.recs, List.isEmpty_cons, quartz_queuePort h, hcls,
    beq_self_eq_true, Bool.not_false, Bool.and_self, if_true, List.map_cons, List.map_nil]

/-- A head without a deadline does not expire. -/
theorem quartz_expireHead : s.expireHead port (0xF020 + port) = s := by
  have hlate : s.tooLate port (0xF020 + port) r = false := by
    rw [State.tooLate, h.deadline, bne_self_eq_false, Bool.false_and]
  rw [State.expireHead, quartz_queue h, Option.map_some, Option.getD_some, h.recs]
  simp only [List.length_singleton, State.dropExpired, quartz_front h, hlate, Bool.false_eq_true, if_false]

theorem quartz_lookAt : State.lookAt port 7 (s, none) (0xF020 + port) = (s, some (r.urgency, 0xF020 + port, r)) :=
  (lookAt_first ..).2 ⟨(quartz_expireHead h).symm, r, quartz_front h, rfl, by rw [State.paused, h.paused]; rfl, quartz_admits h _,
    by rw [State.cipherHeld, decide_eq_false (by omega), Bool.false_and, Bool.false_and]⟩

theorem quartz_choose : State.choose port [7, 6, 5, 4, 3, 2, 1, 0] s = (s, some (7, 0xF020 + port, r)) := by
  simp only [State.choose, quartz_classQueues h, List.foldl_cons, List.foldl_nil, quartz_lookAt h]

/-- The head read from the queue goes out in a state that differs from the one before in the shapers and the queues. -/
theorem quartz_sendHead (L : Nat) : ∃ e l, (s.debitAll port 7 (0xF020 + port) L).sendHead port (0xF020 + port) =
    State.sendFrame { s with egress := e, net := { s.net with queues := l } } port r.data := by
  obtain ⟨l, hread⟩ := readQueue_unspilled (s := s.debitAll port 7 (0xF020 + port) L) (quartz_queue h :) h.recs h.mode h.cells h.bad
  have hgood : Rec.poisoned { r with marks := [], par := [] } = false := by
    rw [Rec.poisoned, h.flags]
    rfl
  refine ⟨(s.debitAll port 7 (0xF020 + port) L).egress, l, ?_⟩
  rw [State.sendHead, hread]
  dsimp only
  rw [depart_frame hgood (by omega) (by rw [h.kind]; omega), debitAll_only, State.withQueues]

end

/-- A frame sent leaves the clock and the objects, and is put out as its lane carried it before the shapers and the queues changed. -/
theorem sendFrame_after {s : State} {port : Nat} (hup : (s.port port).up = true) (e : Egress) (l : Table Queue) (f : Bytes) {t : State}
    (ht : t = State.sendFrame { s with egress := e, net := { s.net with queues := l } } port f) :
    t.now = s.now ∧ t.objs = s.objs ∧ t.out = .frame port (s.onWire port f) :: s.out := by
  obtain ⟨u, hu⟩ : ∃ u, u = { s with egress := e, net := { s.net with queues := l } } := ⟨_, rfl⟩
  have hsent : u.sentOnly t := by rw [ht, ← hu]; exact sendFrame_sent ..
  have hout : t.out = .frame port (u.onWire port f) :: u.out := by
    rw [ht, ← hu]
    exact sendFrame_out (by rw [hu]; exact hup) f
  unfold State.sentOnly at hsent
  refine ⟨by rw [hsent, hu], by rw [hsent, hu], ?_⟩
  rw [hout, onWire_of_units (s := s) (by rw [hu]) (by rw [hu]), hu]

theorem quartzOnly_at {s : State} {port : Nat} {q : Queue} {r : Rec} (h : s.QuartzOnly port q r) (t : Nat) : (s.at t).QuartzOnly port q r :=
  { h with
    ok := (portOk_of_units (at_net ..) (at_framer ..) _).trans h.ok
    queues := (congrArg Net.queues (at_net ..)).trans h.queues
    legs := (congrArg Egress.legs (at_egress ..)).trans h.legs
    classes := (congrArg Egress.classes (at_egress ..)).trans h.classes
    paused := (congrArg Port.paused (port_of_net (at_net ..) _)).trans h.paused }

/-- A port whose link is up sends the only frame it has, one of Quartz. -/
theorem exec_egressSelect_quartz {s : State} {port time : Nat} {q : Queue} {r : Rec} (h : s.QuartzOnly port q r)
    (hup : (s.port port).up = true) (hen : (s.port port).en = true) (hopen : s.mode.isOpen = true) (hunit : s.unitDown 9 0 = false)
    (hnow : s.now ≤ time) : ∃ t : State, exec (.egressSelect port time) s = .next t ∧ t.now = time ∧ t.objs = s.objs ∧
      t.out = .frame port (s.onWire port r.data) :: s.out := by
  have hport : (s.at time).port port = s.port port := port_of_net (at_net ..) _
  have hat := quartzOnly_at h time
  have hup' : ((s.at time).port port).up = true := by rw [hport]; exact hup
  obtain ⟨e, l, hsend⟩ := quartz_sendHead hat ((s.at time).headLen port (0xF020 + port) r)
  obtain ⟨htime, hobjs, hout⟩ := sendFrame_after hup' e l r.data rfl
  refine ⟨_, ?_, htime.trans (at_now hnow), hobjs.trans (at_objs ..), ?_⟩
  · rw [exec_egressSelect_chosen h.ok hup' (by rw [hport]; exact hen) (by rw [State.mode, at_sys]; exact hopen)
      (by rw [unitDown_of_work (at_work ..)]; exact hunit) (quartz_choose hat), hsend]
  · rw [hout, onWire_of_units (at_framer ..) (at_objs ..), at_out]

/-- Settles O40: each command by the lemma on its own part; a refill by what a rewrite and the expiry test leave of its shaper; the only
frame of a port by following the selection and the read of its queue. -/
theorem shapingComplete : Obligations.ShapingComplete := by
  unfold Obligations.ShapingComplete
  refine ⟨fun r s s1 h ht hlen hq hid hcls hz hrate hlo hhi hz' => ?_, fun r s s1 h ht hlen hn hf hz hrate hlo hhi hz' hroom => ?_,
    fun r s s1 h ht hlen hp hover hlo hcls hz => ?_, fun r s s1 h ht hlen hk hq hz => ?_, fun r s s1 h ht hlen hk hn hz => ?_,
    fun _ _ => rfl, fun q s p rate burst cls hp hq hpend hwait => ?_, fun n s hn hused => exec_classShaperRefill ⟨hn, hused⟩ s,
    fun n s hn hused hp h0 hu => ?_,
    fun port time s q r hok hup hen hopen hunit hqs hrecs hmode hdl hfl hbad hcells hkind hlegs hclasses hpaused hnow => ?_⟩
  · exact exec_accepted h (by rw [hlen]; rfl) (effShaperSet_pends ht hq hid hcls hz hrate hlo hhi hz')
  · exact exec_answered h (by rw [hlen]; rfl) (effClassShaperSet_writes ht hn hf hz hrate hlo hhi hz' hroom)
  · refine ⟨_, exec_answered h (by rw [hlen]; rfl) (effEgressPortSet_sets ht hp hover hlo hcls hz), ?_, ?_, rfl, rfl⟩ <;> rw [updPort_port]
  · exact ⟨exec_answered h (by rw [hlen]; rfl) (effShaperGet_leg ht hk hq hz), report_length ..⟩
  · exact exec_answered h (by rw [hlen]; rfl) (effShaperGet_class ht hk hn hz)
  · obtain ⟨t, hexec, hnet, hobjs, hterms⟩ := exec_legShaperRefill_pending hp hq hpend hwait
    simp only [Shaper.terms, Prod.mk.injEq] at hterms
    exact ⟨t, hexec, hnet, hobjs, hterms⟩
  · refine ⟨_, exec_classShaperRefill ⟨hn, hused⟩ s, rfl, rfl, ?_, fun m hm => setClassShaper_other _ hm⟩
    rw [setClassShaper_classShaper, refill_tokens hp h0 hu]
  · exact exec_egressSelect_quartz ⟨hok, hqs, hrecs, hmode, hcells, hdl, hfl, hbad, hkind, hlegs, hclasses, hpaused⟩ hup hen hopen hunit hnow

end Sys2Proof.Machine
end

section
/-!
PROOFS. The key commands and the entropy events: the checks on the unwrapping key and on an SRTP context, what each command's own part
answers with and without an unwrapped key, a link key with a phase loaded, and what EntropyAlarm leaves (R479 to R481, R486 to R489, R493,
R494, R499 to R502, Tables 15.4, 15.5, 15.9, 15.11 and 15.13).
-/

namespace Sys2Proof.Machine

/-! ### A command that unwraps a key (R481) -/

section
variable {s s1 : State} {op : Nat} {len : Nat → Bool} {r : Req} {own : State → Eff}

/-- A command whose turn has come and whose own part fails is answered with the status of the check that failed. -/
theorem exec_failed {st : Status} {p : Bytes} (h : s.turn op r = some s1) (hl : len r.payload.length = true) (ho : own s1 = .fail st p) :
    Host.Outcome.next (φ := Fault) (ρ := Refusal) (s.command op len r own) = .next (s1.failed op r st p) := by
  rw [command_of_turn h hl, ho]
  rfl

variable {key? : Option Bytes}

variable {key? : Option Bytes} {k : Bytes → Eff} (h : s.turn op r = some s1) (hl : len r.payload.length = true)
  (ho : own s1 = key?.elim (.fail .denied []) k)
include h hl ho

/-- A command whose blob does not unwrap is denied. -/
theorem exec_denied (hno : key? = none) :
    Host.Outcome.next (φ := Fault) (ρ := Refusal) (s.command op len r own) = .next (s1.failed op r .denied []) :=
  exec_failed h hl (by rw [ho, hno]; rfl)

/-- A command whose blob unwraps is answered as it goes on with the key. -/
theorem exec_unwrapped {t : State} {target : Nat} {p key : Bytes} (hkey : key? = some key) (hk : k key = .done p target t) :
    Host.Outcome.next (φ := Fault) (ρ := Refusal) (s.command op len r own) = .next (t.answered op r target p) :=
  exec_answered h hl (by rw [ho, hkey]; exact hk)

end

/-! ### The handles that key commands name (R479, Table 3.3) -/

section
variable {s : State}

/-- A field that names an unwrapping key: it is null, or a live wrapping-key context. -/
theorem withKek_ok {h : Nat} (hk : h = 0 ∨ ∃ w, s.lives h w 0x08 ∧ 32768 ≤ kidx w) (k : Eff) : s.withKek h k = k := by
  unfold State.withKek State.withHandle0
  split
  · rfl
  next hne =>
    obtain h0 | ⟨w, hlive, hidx⟩ := hk
    · exact absurd h0 hne
    · rw [withHandle_ok hlive]
      exact congrArg (need · .invalidArg k) (decide_eq_true hidx)

/-- A target that names a live SRTP context. -/
theorem withSrtp_ok {h key : Nat} {c : KeyCtx} (hk : s.lives h key 8) (hi : kidx key < 32768) (hc : s.keyCtx (kidx key) = some c)
    (k : Nat → KeyCtx → Eff) : s.withSrtp h k = k (kidx key) c := by
  simp only [State.withSrtp, withHandle_ok hk, if_neg (Nat.not_le.2 hi), hc]

/-! ### A link key with a phase loaded (R493, R494) -/

/-- A key stored as phase `ph`, the frame counters and warnings of that phase begun again; it becomes the active phase where `act` is set. -/
def LinkKey.load (k : LinkKey) (ph : Nat) (key : Bytes) (act : Bool) : LinkKey := { k with
  phase0 := if ph = 0 then some key else k.phase0
  phase1 := if ph = 1 then some key else k.phase1
  counter := k.counter.filter fun e => e.1 % 2 != ph
  warned := k.warned.filter fun e => e.1 % 2 != ph
  active := if act then ph else k.active }

section
variable (k : LinkKey) {ph : Nat} (key : Bytes) (act : Bool)

theorem load_phase (h : ph ≤ 1) : (k.load ph key act).phase ph = some key := by
  obtain rfl | rfl := Nat.le_one_iff_eq_zero_or_eq_one.1 h <;> rfl

theorem load_counter : ∀ e ∈ (k.load ph key act).counter, e.1 % 2 ≠ ph :=
  fun _ he => bne_iff_ne.1 (List.mem_filter.1 he).2

theorem load_active (h : act = true) : (k.load ph key act).active = ph := if_pos h

end

/-! ### The commands' own parts (Table 15.9) -/

variable {r : Req}

/-- KeyLoad of a well-formed SRTP blob makes the context at the lowest free index where the blob unwraps (R479 to R481). -/
theorem effKeyLoad_srtp {i : Nat} (ht : r.target = 0) (hkek : u32 r.payload 4 = 0 ∨ ∃ w, s.lives (u32 r.payload 4) w 0x08 ∧ 32768 ≤ kidx w)
    (hs : s.inService = true) (hotp : s.onyx.otp.isSome = true) (hkind : u8 r.payload 0 = 1) (hprof : blobLen (u8 r.payload 1) ≠ 0)
    (hdir : (u8 r.payload 2 = 1 ∧ u32 r.payload 12 = 0) ∨ (u8 r.payload 2 = 2 ∧ u32 r.payload 12 ≤ 2 ^ 31 - 2))
    (hlen : u8 r.payload 3 = blobLen (u8 r.payload 1))
    (hz : zeros r.payload (16 + blobLen (u8 r.payload 1)) (56 - blobLen (u8 r.payload 1)) = true) (hi : s.lowestFree 8 0 32768 = some i) :
    effKeyLoad r s =
      (s.unwrapKey (u32 r.payload 4) ((r.payload.drop 16).take (blobLen (u8 r.payload 1))) (padLen (u8 r.payload 1))).elim
        (.fail .denied []) fun key => .done [] (s.handle (okey 8 i)) ((s.addObj (okey 8 i) r.mbx true 0 []).setKey i
          (KeyCtx.new (u8 r.payload 1) (u8 r.payload 2) (u32 r.payload 8) (u32 r.payload 12) key)) := by
  have hdirOk : ((u8 r.payload 2 == 1 || u8 r.payload 2 == 2) &&
      (if u8 r.payload 2 = 2 then decide (u32 r.payload 12 ≤ 2 ^ 31 - 2) else u32 r.payload 12 == 0)) = true := by
    obtain ⟨hd, hrtcp⟩ | ⟨hd, hrtcp⟩ := hdir
    · rw [hd, hrtcp]; rfl
    · rw [hd, if_pos rfl, decide_eq_true hrtcp]; rfl
  have h12 : ((1 : Nat) == 2) = false := rfl
  rw [← addObj_handle (lowestFree_free hi) r.mbx 0 true []]
  simp only [effKeyLoad, nullTarget_null ht, withKek_ok hkek, hs, hotp, hkind, h12, bne_iff_ne.2 hprof, Bool.and_assoc, hdirOk, hlen, hz, hi,
    beq_self_eq_true, Bool.true_or, Bool.and_self, Bool.false_eq_true, if_false, need_true]
  cases s.unwrapKey (u32 r.payload 4) ((r.payload.drop 16).take (blobLen (u8 r.payload 1))) (padLen (u8 r.payload 1)) <;> rfl

/-- KeyLoad of a wrapping key makes a wrap context, which has no profile, direction or counters, where the OTP key unwraps it (R479). -/
theorem effKeyLoad_wrap {i : Nat} (ht : r.target = 0) (hs : s.inService = true) (hotp : s.onyx.otp.isSome = true) (hkind : u8 r.payload 0 = 2)
    (hz : zeros r.payload 1 2 = true) (hlen : u8 r.payload 3 = 40) (hz' : zeros r.payload 4 12 = true) (hz'' : zeros r.payload 56 16 = true)
    (hi : s.lowestFree 8 32768 16 = some i) :
    effKeyLoad r s = (s.unwrapKey 0 ((r.payload.drop 16).take 40) 0).elim (.fail .denied []) fun key =>
      .done [] (s.handle (okey 8 i)) ((s.addObj (okey 8 i) r.mbx true 0 []).setKey i (KeyCtx.new 0 0 0 0 key)) := by
  have hprof : u8 r.payload 1 = 0 := u8_eq_zero (zeros_within hz (by decide) (by decide))
  have hdir : u8 r.payload 2 = 0 := u8_eq_zero (zeros_within hz (by decide) (by decide))
  have hkek : u32 r.payload 4 = 0 := fld_eq_zero.2 (zeros_within hz' (by decide) (by decide))
  have hroc : u32 r.payload 8 = 0 := fld_eq_zero.2 (zeros_within hz' (by decide) (by decide))
  have hrtcp : u32 r.payload 12 = 0 := fld_eq_zero.2 (zeros_within hz' (by decide) (by decide))
  rw [← addObj_handle (lowestFree_free hi) r.mbx 0 true []]
  simp only [effKeyLoad, nullTarget_null ht, hkek, withKek_ok (.inl rfl), hs, hotp, hkind, hprof, hdir, hroc, hrtcp, hlen, hz'', hi,
    beq_self_eq_true, Bool.or_true, Bool.and_self, if_true, need_true]
  cases s.unwrapKey 0 ((r.payload.drop 16).take 40) 0 <;> rfl

/-- The state in which a key context's object and material are gone (R478, Table 15.5). -/
def State.keyErased (s : State) (key : Nat) : State :=
  ((s.bumpGen key).dropObj key).updOnyx fun o => { o with keys := tdel o.keys (kidx key) }

theorem keyErased_gen (s : State) (key : Nat) : (s.keyErased key).gen key = nextGen (s.gen key) := tget_tset_same ..

theorem keyErased_objs (s : State) (key : Nat) : thas (s.keyErased key).objs key = false :=
  congrArg Option.isSome (tget?_tdel_same s.objs key)

theorem keyErased_keyCtx (s : State) (key : Nat) : (s.keyErased key).keyCtx (kidx key) = none := tget?_tdel_same ..

/-- KeyDestroy of a context that is not in use erases it. -/
theorem effKeyDestroy_unused {key : Nat} {c : KeyCtx} (hk : s.lives r.tgt key 8) (hc : s.keyCtx (kidx key) = some c)
    (hst : c.st = .loaded ∨ c.st = .spent) : effKeyDestroy r s = .done [] r.tgt (s.keyErased key) := by
  have hst' : (c.st == .loaded || c.st == .spent) = true := by simpa using hst
  simp only [effKeyDestroy, withHandle_ok hk, hc, hst', need_true, State.keyErased]

/-- The switch index of a pending key: that asked for, of a send context no lower than the next index to send (R486, R487). -/
def KeyCtx.switchAt (c : KeyCtx) (asked next : Nat) : Nat := if c.dir = 2 then max asked next else asked

/-- KeyUpdate of a context that is LOADED or BOUND stores the new key as pending where the blob unwraps (R486, R487, R489). -/
theorem effKeyUpdate_live {key : Nat} {c : KeyCtx} (hk : s.lives r.tgt key 8) (hidx : kidx key < 32768) (hc : s.keyCtx (kidx key) = some c)
    (hkek : u32 r.payload 12 = 0 ∨ ∃ w, s.lives (u32 r.payload 12) w 0x08 ∧ 32768 ≤ kidx w) (hst : c.st = .loaded ∨ c.st = .bound)
    (hotp : s.onyx.otp.isSome = true ∨ u32 r.payload 12 ≠ 0) (hn : u64 r.payload 0 ≤ 2 ^ 48 - 2) (hm : u32 r.payload 8 ≤ 2 ^ 31 - 2)
    (hlen : u8 r.payload 16 = blobLen c.profile) (hz : zeros r.payload 17 7 = true)
    (hz' : zeros r.payload (24 + blobLen c.profile) (56 - blobLen c.profile) = true) :
    effKeyUpdate r s =
      (s.unwrapKey (u32 r.payload 12) ((r.payload.drop 24).take (blobLen c.profile)) (padLen c.profile)).elim (.fail .denied []) fun key' =>
        .done (le 8 (c.switchAt (u64 r.payload 0) c.next) ++ le 4 (c.switchAt (u32 r.payload 8) c.rtcp) ++ le 4 0) r.tgt
          (s.setKey (kidx key) { c with keyB := key', role := 1, n := c.switchAt (u64 r.payload 0) c.next,
                                        m := c.switchAt (u32 r.payload 8) c.rtcp }) := by
  obtain ⟨hspent, hfull⟩ : (c.st != .spent) = true ∧ (c.st != .exhausted) = true := by
    obtain h | h := hst <;> rw [h] <;> exact ⟨rfl, rfl⟩
  rw [← bne_iff_ne, ← Bool.or_eq_true] at hotp
  simp only [effKeyUpdate, withSrtp_ok hk hidx hc, withKek_ok hkek, hspent, hfull, hotp, hn, hm, hlen, hz, hz', decide_true,
    beq_self_eq_true, Bool.and_self, need_true]
  cases s.unwrapKey (u32 r.payload 12) ((r.payload.drop 24).take (blobLen c.profile)) (padLen c.profile) <;> rfl

/-- KeyStatsGet answers 40 bytes, the packets first (Table 15.11). -/
theorem effKeyStatsGet_answers {key : Nat} {c : KeyCtx} (hk : s.lives r.tgt key 8) (hidx : kidx key < 32768)
    (hc : s.keyCtx (kidx key) = some c) :
    ∃ p : Bytes, effKeyStatsGet r s = .done p r.tgt s ∧ p.length = 40 ∧ p.take 8 = le 8 c.packets := by
  rw [effKeyStatsGet, withSrtp_ok hk hidx hc]
  refine ⟨_, rfl, by simp only [List.length_append, le_length], ?_⟩
  simp only [List.append_assoc]
  exact List.take_left' (le_length ..)

/-- LinkKeyLoad of a phase that the sender does not use loads it where the blob unwraps (R493, R494). -/
theorem effLinkKeyLoad_idle {d : Nat} (ht : r.target = 0) (hl : u8 r.payload 0 < 4)
    (hkek : u32 r.payload 4 = 0 ∨ ∃ w, s.lives (u32 r.payload 4) w 0x08 ∧ 32768 ≤ kidx w)
    (hotp : s.onyx.otp.isSome = true ∨ u32 r.payload 4 ≠ 0) (hdir : u8 r.payload 1 = d + 1) (hd : d ≤ 1) (hph : u8 r.payload 2 ≤ 1)
    (hact : u8 r.payload 3 ≤ d)
    (hidle : d = 0 ∨ u8 r.payload 2 ≠ (s.linkKey (u8 r.payload 0) d).active ∨ (s.linkKey (u8 r.payload 0) d).phase (u8 r.payload 2) = none) :
    effLinkKeyLoad r s = (s.unwrapKey (u32 r.payload 4) ((r.payload.drop 8).take 48) 5).elim (.fail .denied []) fun key =>
      .done [] 0 (s.setLinkKey (u8 r.payload 0) d
        ((s.linkKey (u8 r.payload 0) d).load (u8 r.payload 2) key (d = 1 && u8 r.payload 3 = 1))) := by
  have hdir' : (d + 1 == 1 || d + 1 == 2) = true := by simp only [Bool.or_eq_true, beq_iff_eq]; omega
  have hunused : (!(d == 1 && u8 r.payload 2 == (s.linkKey (u8 r.payload 0) d).active &&
      ((s.linkKey (u8 r.payload 0) d).phase (u8 r.payload 2)).isSome)) = true := by
    obtain rfl | hne | hnone := hidle
    · rfl
    · rw [beq_eq_false_iff_ne.2 hne, Bool.and_false]; rfl
    · rw [hnone, Option.isSome_none, Bool.and_false]; rfl
  rw [← bne_iff_ne, ← Bool.or_eq_true] at hotp
  simp only [effLinkKeyLoad, nullTarget_null ht, hdir, Nat.add_sub_cancel, hl, withKek_ok hkek, hotp, hdir', hph, hunused, hact, decide_true,
    Bool.and_self, need_true]
  cases s.unwrapKey (u32 r.payload 4) ((r.payload.drop 8).take 48) 5 <;> rfl

/-- KeySystemGet begins with the check value of the OTP key and whether there is one; without one they are zero (Table 15.13). -/
theorem effKeySystemGet_answers (ht : r.target = 0) :
    ∃ p : Bytes, effKeySystemGet r s = .done p 0 s ∧ (s.onyx.otp = none → p.take 5 = [0, 0, 0, 0, 0]) := by
  rw [effKeySystemGet, nullTarget_null ht]
  refine ⟨_, rfl, fun hnone => ?_⟩
  rw [hnone]
  rfl

end

/-! ### Entropy (R499 to R502) -/

theorem entropyAlarm_same (s : State) (st test inst : Nat) : s.sameBut (s.entropyAlarm st test inst) := raiseAll_same ..

theorem entropyAlarm_objs (s : State) (st test inst : Nat) : (s.entropyAlarm st test inst).objs = s.objs := by rw [entropyAlarm_same]

theorem entropyAlarm_onyx (s : State) (st test inst : Nat) : (s.entropyAlarm st test inst).onyx = s.onyx := by rw [entropyAlarm_same]

/-- A DRBG that stops is marked among those that have stopped (R502). -/
theorem stopped_getLsbD {inst : Nat} (h : inst < 9) (x : BitVec 9) : (x ||| BitVec.ofNat 9 (2 ^ inst)).getLsbD inst = true := by
  rw [BitVec.getLsbD_or, BitVec.getLsbD_ofNat, Nat.testBit_two_pow_self, decide_eq_true h, Bool.and_self, Bool.or_true]

/-- Settles O41: each command by the lemma on its own part, a blob that does not unwrap being denied; the entropy events by what
EntropyAlarm leaves. -/
theorem keysComplete : Obligations.KeysComplete := by
  unfold Obligations.KeysComplete
  refine ⟨fun r s s1 i h ht hlen hkek hs hotp hkind hprof hdir hrtcp hblob hz hi => ?_,
    fun r s s1 i h ht hlen hkek hs hotp hkind hprof hdir hrtcp hblob hz hi => ?_,
    fun r s s1 i h ht hlen _ hs hotp hkind hz hblob hz' hz'' hi => ?_, fun r s s1 k c h hpl hk hc hst => ?_,
    fun r s s1 k c h hlen hk hidx hc hkek hst hotp hn hm hblob hz hz' => ?_, fun r s s1 k c h hpl hk hidx hc => ?_,
    fun r s s1 d h ht hlen hl hkek hotp hdir hd hph hact hidle => ?_, fun r s s1 h ht hpl => ?_, fun test s hlo hhi => ?_, fun s => ?_,
    fun inst s hinst => ?_⟩
  · have hown := effKeyLoad_srtp ht hkek hs hotp hkind hprof (.inl ⟨hdir, hrtcp⟩) hblob hz hi
    rw [hdir, hrtcp] at hown
    split
    next hno => exact exec_denied h (by rw [hlen]; rfl) hown hno
    next key hkey => exact exec_unwrapped h (by rw [hlen]; rfl) hown hkey rfl
  · have hown := effKeyLoad_srtp ht hkek hs hotp hkind hprof (.inr ⟨hdir, hrtcp⟩) hblob hz hi
    rw [hdir] at hown
    split
    next hno => exact exec_denied h (by rw [hlen]; rfl) hown hno
    next key hkey => exact exec_unwrapped h (by rw [hlen]; rfl) hown hkey rfl
  · have hown := effKeyLoad_wrap ht hs hotp hkind hz hblob hz' hz'' hi
    split
    next hno => exact exec_denied h (by rw [hlen]; rfl) hown hno
    next key hkey => exact exec_unwrapped h (by rw [hlen]; rfl) hown hkey rfl
  · exact ⟨_, exec_answered h (by rw [hpl]; rfl) (effKeyDestroy_unused hk hc hst), keyErased_gen .., keyErased_objs .., keyErased_keyCtx ..⟩
  · have hown := effKeyUpdate_live hk hidx hc hkek hst hotp hn hm hblob hz hz'
    split
    next hno => exact exec_denied h (by rw [hlen]; rfl) hown hno
    next key hkey => exact ⟨_, _, exec_unwrapped h (by rw [hlen]; rfl) hown hkey rfl, rfl, rfl⟩
  · obtain ⟨p, hown, hlen, hfirst⟩ := effKeyStatsGet_answers hk hidx hc
    exact ⟨p, exec_answered h (by rw [hpl]; rfl) hown, hlen, hfirst⟩
  · have hown := effLinkKeyLoad_idle ht hl hkek hotp hdir hd hph hact hidle
    split
    next hno => exact exec_denied h (by rw [hlen]; rfl) hown hno
    next key hkey =>
      refine ⟨_, exec_unwrapped h (by rw [hlen]; rfl) hown hkey rfl, rfl, rfl, ?_⟩
      rw [setLinkKey_linkKey]
      exact ⟨load_phase _ _ _ hph, load_counter _ _ _, fun hsend hset => load_active _ _ _ (by rw [hsend, hset]; rfl)⟩
  · obtain ⟨p, hown, hblank⟩ := effKeySystemGet_answers ht
    exact ⟨p, exec_answered h (by rw [hpl]; rfl) hown, hblank⟩
  · exact ⟨_, if_pos ⟨hlo, hhi⟩, entropyAlarm_objs .., entropyAlarm_onyx ..⟩
  · exact ⟨_, rfl, entropyAlarm_objs .., entropyAlarm_onyx ..⟩
  · refine ⟨_, if_pos hinst, entropyAlarm_objs .., ?_⟩
    rw [entropyAlarm_onyx]
    exact ⟨rfl, rfl, stopped_getLsbD hinst _⟩

end Sys2Proof.Machine
end

section
/-!
PROOFS. Steps, PMBus reads and the CRC units (R683 to R688, R697, R710; log entry 1).
-/

namespace Sys2Proof.Machine

/-! ### A step (log entry 1) -/

/-- Settles O1: `step` is defined by the front of the queue, which `withCommand` sets. -/
theorem stepRunsFront : Obligations.StepRunsFront := by
  unfold Obligations.StepRunsFront
  refine ⟨fun c s => rfl, fun s h => ?_⟩
  rw [step, h]

/-! ### PMBus (R710) -/

/-- Settles O22: each read is an output of its register, and the writes change the status bits alone. -/
theorem pmbusAnswers : Obligations.PmbusAnswers := by
  unfold Obligations.PmbusAnswers
  refine fun s => ⟨rfl, rfl, rfl, rfl, rfl, rfl, rfl, ⟨_, le_length 2 _, rfl⟩, rfl, fun c _ hc => ?_⟩
  have hno : [0x03, 0x20, 0x79, 0x8B, 0x8C, 0x8D, 0x8E, 0x96, 0xD0].contains c = false := by simpa using hc
  show execPmbusUnsupportedCommand c s = _
  rw [execPmbusUnsupportedCommand, hno]
  rfl

/-! ### The CRC units (R683 to R688) -/

@[simp] theorem updCrc_crcUnit (s : State) (u : Nat) (f : CrcUnit → CrcUnit) : (s.updCrc u f).crcUnit u = f (s.crcUnit u) := tget_tset_same ..

theorem updCrc_crcUnit_other (s : State) {u v : Nat} (f : CrcUnit → CrcUnit) (h : v ≠ u) : (s.updCrc u f).crcUnit v = s.crcUnit v :=
  tget_tset_other _ _ _ h

theorem updCrc_congr {s : State} {u : Nat} {f g : CrcUnit → CrcUnit} (h : f (s.crcUnit u) = g (s.crcUnit u)) :
    s.updCrc u f = s.updCrc u g := by
  rw [State.updCrc, h]
  rfl

theorem crcEvent_next {f c u : Nat} (hc : ownerCode f = some c) (hu : u < 4) (s : State) : crcEvent f u s = .next s := by
  simp [crcEvent, hc, Nat.not_le.2 hu]

/-- A write to a unit: the owner's reaches an idle unit, and any other is only marked (R683, R686). -/
theorem crcOwned_idle {s : State} {f c u : Nat} (hc : ownerCode f = some c) (g : CrcUnit → CrcUnit) :
    s.crcOwned f u (CrcUnit.idle g) = s.updCrc u fun x => if x.owner = c ∧ x.busy = false then g x else { x with ignored := true } := by
  rw [State.crcOwned, hc]
  split
  next ho =>
    apply updCrc_congr
    have ho := Option.some.inj ho
    cases hb : (s.crcUnit u).busy <;> simp [CrcUnit.idle, ho, hb]
  next ho => exact updCrc_congr (if_neg fun h => ho (congrArg some h.1)).symm

theorem crcDmaEnd_idle {s : State} {u : Nat} (h : (s.crcUnit u).busy = false) (res : DmaResult) : s.crcDmaEnd u res = s := by
  unfold State.crcDmaEnd
  rw [h]
  rfl

/-- The data of a run are fed in order, and the run is over (R687). -/
theorem crcDmaEnd_data {s : State} {u : Nat} {d : Bytes} (h : (s.crcUnit u).busy = true) (hd : d.length = (s.crcUnit u).dmaLen.toNat) :
    s.crcDmaEnd u (.data d) = s.updCrc u fun x => { x.feedAll d with busy := false, done := true } := by
  unfold State.crcDmaEnd
  simp only [h, Bool.not_true, Bool.false_eq_true, if_false]
  refine updCrc_congr ?_
  rw [List.take_of_length_le (Nat.le_of_eq hd)]

/-- A requester's owner code (Table 22.4). -/
theorem ownerCode_requester {f c : Nat} (h : (f < 4 ∧ c = f + 1) ∨ (f = 7 ∧ c = 8)) : ownerCode f = some c := by
  obtain ⟨hf, rfl⟩ | ⟨rfl, rfl⟩ := h
  · exact if_pos hf
  · rfl

/-- Settles O15: who asks is one owner code; claim and release look at the owner, every other write goes by `crcOwned_idle`, and the end of
a run by its data. -/
theorem crcUnitsComplete : Obligations.CrcUnitsComplete := by
  unfold Obligations.CrcUnitsComplete
  intro s f c u hf hu
  have hc := ownerCode_requester hf
  have hfirm : c ≠ 8 ↔ f ≠ 7 := by omega
  have hwrite (g : CrcUnit → CrcUnit) : crcEvent f u (s.crcOwned f u (CrcUnit.idle g)) = _ :=
    (crcEvent_next hc hu _).trans (congrArg Host.Outcome.next (crcOwned_idle hc g))
  refine ⟨?_, ?_, hwrite _, fun d _ hd => ?_, hwrite _, fun res hb => ?_, fun hb => ⟨fun d hd => ?_, fun l => ?_⟩⟩
  · show crcEvent f u (s.crcClaim f u) = _
    rw [crcEvent_next hc hu, State.crcClaim, hc]
    simp only [hfirm]
  · show crcEvent f u (s.crcRelease f u) = _
    rw [crcEvent_next hc hu, State.crcRelease, hc]
    simp only [Option.some.injEq]
    rfl
  · show crcEvent f u (s.crcOwned f u (CrcUnit.idle fun x => x.feedAll (d.take 4))) = _
    rw [List.take_of_length_le hd]
    exact hwrite _
  · show execCrcDmaDone u res s = _
    rw [execCrcDmaDone, if_neg (Nat.not_le.2 hu), crcDmaEnd_idle hb]
  · show execCrcDmaDone u (.data d) s = _
    rw [execCrcDmaDone, if_neg (Nat.not_le.2 hu), crcDmaEnd_data hb hd]
    rfl
  · refine ⟨(s.draw.2).updCrc u fun x => { x with busy := false, dmaErr := true, r := s.draw.1 &&& lowMask x.width }, ?_,
      by rw [updCrc_crcUnit], by rw [updCrc_crcUnit], by rw [updCrc_crcUnit]; rfl, fun v hv => ?_, rfl⟩
    · show execCrcDmaDone u (.failed l) s = _
      rw [execCrcDmaDone, if_neg (Nat.not_le.2 hu), State.crcDmaEnd.eq_def, hb]
      rfl
    · exact updCrc_crcUnit_other _ _ hv

end Sys2Proof.Machine
end

section
/-!
PROOFS. The registers as the host reaches them: what no mode lets through, retained memory and the backup registers byte by byte, the RC
registers and the forced pins (R742, R746, R749, R763, R766 to R768).
-/

namespace Sys2Proof.Machine

/-! ### Offsets that no write and no read reaches -/

theorem exec_registerWrite {s : State} {fn off : Nat} (hf : fn < 4) (hd : (inDbg off && s.sys.unlocked && s.mode != .halt) = false)
    (data : List (Option Byte)) : exec (.registerWrite fn off data) s = .next (s.regWrite fn off data) := by
  show execRegisterWrite fn off data s = _
  rw [execRegisterWrite, if_neg (Nat.not_le.2 hf), hd]
  rfl

theorem exec_rcRegisterRead {s : State} {fn off : Nat} (hf : fn < 4) (hd : (inDbg off && s.sys.unlocked && s.mode != .halt) = false) :
    exec (.rcRegisterRead fn off) s = .next ((s.rcClear off).emit (.read (le 4 (s.regRead fn off)))) := by
  show execRcRegisterRead fn off s = _
  rw [execRcRegisterRead, if_neg (Nat.not_le.2 hf), hd]
  rfl

/-- A register that the mode does not let be read reads 0, and its read clears nothing (R746). -/
theorem read_unreadable {s : State} {off : Nat} (h : s.regReadable off = false) (fn : Nat) :
    (s.rcClear off).emit (.read (le 4 (s.regRead fn off))) = s.emit (.read [0, 0, 0, 0]) := by
  have hno : (!s.regReadable off) = true := by rw [h]; rfl
  rw [State.rcClear, State.regRead, if_pos hno, if_pos (.inl hno)]
  rfl

theorem regWrite32_unwritable {s : State} {off : Nat} (h : s.regWritable off = false) (fn : Nat) (v : BitVec 32) : s.regWrite32 fn off v = s := by
  rw [State.regWrite32, h]
  rfl

/-- The bytes that a write enables lie from its offset on. -/
theorem enabled_range {off : Nat} {data : List (Option Byte)} {e : Nat × Byte} (h : e ∈ enabled off data) : off ≤ e.1 ∧ e.1 < off + 8 := by
  obtain ⟨x, hx, he⟩ := List.mem_filterMap.1 h
  obtain ⟨b, -, rfl⟩ := Option.map_eq_some_iff.1 he
  have hlt := (List.mem_zipIdx' hx).1
  rw [List.length_take] at hlt
  exact ⟨Nat.le_add_right .., by simp only; omega⟩

/-- Where the mode lets no byte from an offset on be written, a write changes nothing (R746). -/
theorem regWrite_unwritable {s : State} {off : Nat} (h : ∀ a, off ≤ a → s.regWritable a = false) (fn : Nat) (data : List (Option Byte)) :
    s.regWrite fn off data = s := by
  rw [State.regWrite]
  split
  · rfl
  next a b rest hl =>
    have ha : off ≤ a := (enabled_range (hl ▸ List.mem_cons_self : (a, b) ∈ enabled off data)).1
    simp only [h a ha, regWrite32_unwritable (h a ha), regWrite32_unwritable (h (a + 4) (by omega)), Bool.false_eq_true, if_false, false_and, ite_self]
    split
    · rfl
    · split <;> rfl

theorem readable_booted {s : State} {off : Nat} (h : s.mode.booted = false) : s.regReadable off = false := by
  have ho : s.mode.isOpen = false := by
    revert h
    cases s.mode <;> decide
  simp only [State.regReadable, h, ho, Bool.false_and, ite_self]

theorem writable_booted {s : State} {off : Nat} (h : s.mode.booted = false) : s.regWritable off = false := by
  have ho : s.mode.isOpen = false := by
    revert h
    cases s.mode <;> decide
  simp only [State.regWritable, h, ho, Bool.false_and, ite_self]

theorem readable_dbg (s : State) {off : Nat} (h : 0x20000 ≤ off) : s.regReadable off = false := by
  unfold State.regReadable
  repeat rw [if_neg (by omega)]

theorem writable_dbg (s : State) {off : Nat} (h : 0x20000 ≤ off) : s.regWritable off = false := by
  unfold State.regWritable
  repeat rw [if_neg (by omega)]

/-- Settles O57: no mode lets an offset above retained memory be read or written; once unlocked the model stops by name. -/
theorem debugRegionIsClosed : Obligations.DebugRegionIsClosed := by
  unfold Obligations.DebugRegionIsClosed
  refine ⟨fun s fn off data hf hlo hhi hu => ?_, fun s fn off data hf hlo hhi hu hm => ?_⟩
  · have hd : (inDbg off && s.sys.unlocked && s.mode != .halt) = false := by rw [hu, Bool.and_false, Bool.false_and]
    rw [exec_registerWrite hf hd, exec_rcRegisterRead hf hd, regWrite_unwritable fun a ha => writable_dbg s (by omega),
      read_unreadable (readable_dbg s (by omega))]
    exact ⟨rfl, rfl⟩
  · have hd : (inDbg off && s.sys.unlocked && s.mode != .halt) = true := by
      rw [hu, inDbg, decide_eq_true ⟨hlo, hhi⟩]
      exact bne_iff_ne.2 hm
    constructor
    · show execRegisterWrite fn off data s = _
      rw [execRegisterWrite, if_neg (Nat.not_le.2 hf), hd]
      rfl
    · show execRcRegisterRead fn off s = _
      rw [execRcRegisterRead, if_neg (Nat.not_le.2 hf), hd]
      rfl

/-! ### Retained memory and the backup registers (R742, R766, R767) -/

theorem cellAt_below {l : List Host.Cell} {n j : Nat} (h : cellsFrom n l = true) (hj : j < n) : cellAt l j = 0 := by
  induction l generalizing n with
  | nil => rfl
  | cons e l ih =>
    obtain ⟨a, b⟩ := e
    simp only [cellsFrom, Bool.and_eq_true, decide_eq_true_eq] at h
    obtain ⟨⟨⟨hn, -⟩, -⟩, hr⟩ := h
    rw [cellAt, if_neg (by omega)]
    exact ih hr (by omega)

/-- A read of a byte other than the written one. -/
theorem cellAt_cellSet_other (m : List Host.Cell) {i j : Nat} (v : Byte) (h : j ≠ i) : cellAt (cellSet m i v) j = cellAt m j := by
  induction m with
  | nil =>
    rw [cellSet]
    split
    · rfl
    · simp [cellAt, Ne.symm h]
  | cons e r ih =>
    obtain ⟨a, b⟩ := e
    simp only [cellSet]
    split
    next ha =>
      subst ha
      split <;> simp [cellAt, Ne.symm h]
    · split
      · split <;> simp [cellAt, Ne.symm h]
      · simp [cellAt, ih]

/-- A run of written bytes: retained memory keeps its form, and a byte reads what the last write to it left, or as before. -/
theorem hostBytes_only (l : List (Nat × Byte)) (s : State) (h : ∀ e ∈ l, 0x10000 ≤ e.1) :
    l.foldl (fun s e => s.hostByte e.1 e.2) s = { s with retained := (l.foldl (fun s e => State.hostByte s e.1 e.2) s).retained } := by
  induction l generalizing s with
  | nil => rfl
  | cons e l ih =>
    have he := h e List.mem_cons_self
    have h1 : s.hostByte e.1 e.2 = { s with retained := (s.hostByte e.1 e.2).retained } := by
      unfold State.hostByte
      split
      · rfl
      · rw [if_neg (by omega)]
    rw [List.foldl_cons, ih _ fun x hx => h x (List.mem_cons_of_mem _ hx)]
    rw [h1]

theorem hostBytes_form (l : List (Nat × Byte)) (s : State) (h : Memory.wf s.retained = true) :
    Memory.wf (l.foldl (fun s e => s.hostByte e.1 e.2) s).retained = true := by
  induction l generalizing s with
  | nil => exact h
  | cons e l ih => exact ih _ (hostByte_keeps_retained s e.1 e.2 h)

theorem hostByte_retainedByte {s : State} (h : Memory.wf s.retained = true) (off : Nat) (b : Byte) {i : Nat} (hi : i < 0x10000) :
    (s.hostByte off b).retainedByte i = if 0x8000 ≤ i ∧ off = 0x10000 + i then b else s.retainedByte i := by
  unfold State.hostByte
  split
  next ho =>
    by_cases he : off = 0x10000 + i
    · subst he
      rw [if_pos ⟨by omega, rfl⟩, State.retainedByte, Nat.add_sub_cancel_left]
      exact cellAt_cellSet_same _ 0 _ _ h
    · rw [if_neg fun hc => he hc.2]
      exact cellAt_cellSet_other _ _ (by omega)
  next ho =>
    rw [if_neg fun hc : 0x8000 ≤ i ∧ off = 0x10000 + i => ho (by omega)]
    split <;> rfl

/-- The bytes of a write, at offsets that differ: a byte of the host half reads the one written to it, every other as before (R766). -/
theorem hostBytes_retainedByte {l : List (Nat × Byte)} (hn : (l.map (·.1)).Nodup) {s : State} (h : Memory.wf s.retained = true) {i : Nat}
    (hi : i < 0x10000) : (l.foldl (fun s e => s.hostByte e.1 e.2) s).retainedByte i =
      if 0x8000 ≤ i then ((l.find? fun e => e.1 == 0x10000 + i).map (·.2)).getD (s.retainedByte i) else s.retainedByte i := by
  induction l generalizing s with
  | nil => simp
  | cons e l ih =>
    rw [List.map_cons, List.nodup_cons] at hn
    rw [List.foldl_cons, ih hn.2 (hostByte_keeps_retained s e.1 e.2 h), hostByte_retainedByte h _ _ hi]
    by_cases hlo : 0x8000 ≤ i
    · by_cases he : e.1 = 0x10000 + i
      · have hno : (l.find? fun x => x.1 == 0x10000 + i) = none := by
          rw [List.find?_eq_none]
          intro x hx hxi
          exact hn.1 (List.mem_map.2 ⟨x, hx, (eq_of_beq hxi).trans he.symm⟩)
        simp [hlo, he, hno]
      · simp [hlo, he]
    · simp [hlo]

theorem enabled_nodup (off : Nat) (data : List (Option Byte)) : ((enabled off data).map (·.1)).Nodup := by
  have hlt : (data.take 8).zipIdx.Pairwise fun x y => x.2 < y.2 :=
    List.pairwise_map.1 (List.zipIdx_map_snd 0 (data.take 8) ▸ List.pairwise_lt_range' ..)
  refine List.pairwise_map.2 (hlt.filterMap _ fun x y hxy a ha b hb => ?_)
  obtain ⟨_, -, rfl⟩ := Option.map_eq_some_iff.1 ha
  obtain ⟨_, -, rfl⟩ := Option.map_eq_some_iff.1 hb
  exact Nat.ne_of_lt (Nat.add_lt_add_left hxy off)

theorem backup_offset {n k : Nat} (hk : k < 4) : (0x8000 + 4 * n + k - 0x8000) / 4 = n ∧ (0x8000 + 4 * n + k) % 4 = k := by
  omega

/-- A write that begins in the retained-memory window or at a backup register goes byte by byte (R766). -/
theorem regWrite_bytes {s : State} {off a : Nat} {data : List (Option Byte)} {b : Byte} {rest : List (Nat × Byte)}
    (hl : enabled off data = (a, b) :: rest) (ha : (0x8000 ≤ a ∧ a < 0x8040) ∨ (0x10000 ≤ a ∧ a < 0x20000)) (hb : s.mode.booted = true) (fn : Nat) :
    s.regWrite fn off data = (enabled off data).foldl (fun s e => s.hostByte e.1 e.2) s := by
  have hw : s.regWritable a = true := by
    unfold State.regWritable
    obtain ha | ha := ha
    · rw [if_neg (by omega), if_neg (by omega), if_neg (by omega), if_pos ha, hb]
    · rw [if_neg (by omega), if_neg (by omega), if_neg (by omega), if_neg (by omega), if_pos ha, hb]
  rw [State.regWrite, hl]
  simp only [if_pos ha, hw, if_true]

theorem not_inDbg {off : Nat} (h : off < 0x100000) (s : State) : (inDbg off && s.sys.unlocked && s.mode != .halt) = false := by
  rw [inDbg, decide_eq_false (by omega)]
  rfl

/-- Reads of the backup registers and of retained memory reach them once BOOT has ended (Table 25.1). -/
theorem readable_kept {s : State} {off : Nat} (hb : s.mode.booted = true) (h : (0x8000 ≤ off ∧ off < 0x8040) ∨ (0x10000 ≤ off ∧ off < 0x20000)) :
    s.regReadable off = true := by
  unfold State.regReadable
  rw [if_neg (by omega), if_neg (by omega), if_neg (by omega), if_neg (by omega)]
  split
  · exact hb
  · rw [if_pos (by omega)]
    exact hb

section
variable {s : State} (hb : s.mode.booted = true) (fn : Nat)
include hb

theorem regRead_backup {n : Nat} (hn : n < 16) :
    s.regRead fn (0x8000 + 4 * n) = (s.backup n).toNat ∧ s.rcClear (0x8000 + 4 * n) = s := by
  have hr : s.regReadable (0x8000 + 4 * n) = true := readable_kept hb (.inl (by omega))
  unfold State.regRead State.rcClear
  simp only [hr, Bool.not_true, Bool.false_eq_true, false_or, if_false]
  constructor
  · repeat rw [if_neg (by omega)]
    rw [if_pos (by omega), show (0x8000 + 4 * n - 0x8000) / 4 = n by omega]
  · repeat rw [if_neg (by omega)]

theorem regRead_hostHalf {i : Nat} (hlo : 0x8000 ≤ i) (hhi : i < 0x10000) (hi : i % 4 = 0) :
    s.regRead fn (0x10000 + i) = unle [s.retainedByte i, s.retainedByte (i + 1), s.retainedByte (i + 2), s.retainedByte (i + 3)] ∧
    s.rcClear (0x10000 + i) = s := by
  have hr : s.regReadable (0x10000 + i) = true := readable_kept hb (.inr (by omega))
  unfold State.regRead State.rcClear
  simp only [hr, Bool.not_true, Bool.false_eq_true, false_or, if_false]
  constructor
  · repeat rw [if_neg (by omega)]
    rw [Nat.add_sub_cancel_left]
    rfl
  · repeat rw [if_neg (by omega)]

/-- Of firmware's half a read draws a free value (R767; log entry 6). -/
theorem regRead_firmwareHalf {i : Nat} (hhi : i < 0x8000) (hi : i % 4 = 0) :
    s.regRead fn (0x10000 + i) = s.draw.1.toNat % 2 ^ 32 ∧ s.rcClear (0x10000 + i) = s.draw.2 := by
  have hr : s.regReadable (0x10000 + i) = true := readable_kept hb (.inr (by omega))
  unfold State.regRead State.rcClear
  simp only [hr, Bool.not_true, Bool.false_eq_true, false_or, if_false]
  constructor
  · repeat rw [if_neg (by omega)]
    rw [if_pos (by omega)]
  · repeat rw [if_neg (by omega)]
    rw [if_pos (by omega)]

theorem regRead_restarts : s.rcClear 0x2010 = s.updSys fun x => { x with restarts := 0 } := by
  have hr : s.regReadable 0x2010 = true := hb
  rw [State.rcClear, hr]
  rfl

end

/-- A word read is the bytes it is made of. -/
theorem le_unle (l : Bytes) : le l.length (unle l) = l := by
  induction l with
  | nil => rfl
  | cons b l ih =>
    have hlow : BitVec.ofNat 8 (b.toNat + 256 * unle l) = b := by bv_omega
    have hhigh : (b.toNat + 256 * unle l) / 256 = unle l := by omega
    rw [List.length_cons, unle, le, hlow, hhigh, ih]

/-- Settles O13: a write goes byte by byte, and each byte reads what it was last written; a read takes the word that its offset names. -/
theorem retainedMemoryByHost : Obligations.RetainedMemoryByHost := by
  unfold Obligations.RetainedMemoryByHost
  refine ⟨fun s fn off data b rest hf hb hwf hlo hhi hl => ?_, fun s fn n k b hf hb hn hk => ?_, fun s fn n hf hb hn => ?_,
    fun s fn i hf hb hlo hhi hi => ?_, fun s fn i hf hb hhi hi => ⟨s.draw.1.toNat % 2 ^ 32, ?_⟩⟩
  · rw [exec_registerWrite hf (not_inDbg (by omega) s), regWrite_bytes hl (.inr ⟨hlo, hhi⟩) hb]
    exact ⟨_, rfl, hostBytes_only _ s fun e he => Nat.le_trans hlo (enabled_range he).1, hostBytes_form _ s hwf,
      fun i hi => hostBytes_retainedByte (enabled_nodup off data) hwf hi⟩
  · have hl : enabled (0x8000 + 4 * n + k) [some b] = [(0x8000 + 4 * n + k, b)] := rfl
    obtain ⟨hdiv, hmod⟩ := backup_offset (n := n) hk
    rw [exec_registerWrite hf (not_inDbg (by omega) s), regWrite_bytes hl (.inl (by omega)) hb, hl, List.foldl_cons, List.foldl_nil,
      State.hostByte, if_neg (by omega), if_pos (by omega), hdiv, hmod]
  · obtain ⟨hread, hclear⟩ := regRead_backup hb fn hn
    rw [exec_rcRegisterRead hf (not_inDbg (by omega) s), hread, hclear]
  · obtain ⟨hread, hclear⟩ := regRead_hostHalf hb fn hlo hhi hi
    rw [exec_rcRegisterRead hf (not_inDbg (by omega) s), hread, hclear]
    exact congrArg (fun b => Host.Outcome.next (s.emit (.read b))) (le_unle [_, _, _, _])
  · obtain ⟨hread, hclear⟩ := regRead_firmwareHalf hb fn hhi hi
    rw [exec_rcRegisterRead hf (not_inDbg (by omega) s), hread, hclear]

/-! ### Registers by mode (R746, R749, R763) -/

/-- The levels of pins change nothing but what is put out. -/
theorem drivePps_pins (s : State) (n : Nat) : (s.drivePps n).pins = s.pins := by
  unfold State.drivePps
  split <;> rfl

theorem driveAll_pins (s s0 : State) : (s.driveAll s0).pins = s.pins := by
  obtain ⟨o, ho⟩ := driveFctl_emits s0 (List.range 8) s
  rw [State.driveAll, ho]

theorem drivePins_pins (s s0 : State) : (s.drivePins s0).pins = s.pins := by
  rw [State.drivePins]
  generalize List.range 4 = l
  rw [← driveAll_pins s s0]
  generalize s.driveAll s0 = u
  induction l generalizing u with
  | nil => rfl
  | cons n l ih =>
    rw [List.foldl_cons, ih]
    split
    · exact drivePps_pins ..
    · split <;> rfl

/-- A write of the whole of PIN_FCTL_FORCE reaches it where mailboxes are open. -/
theorem regWrite_force (s : State) (fn : Nat) (a b c d : Byte) :
    s.regWrite fn 0x6008 [some a, some b, some c, some d] =
      if s.mode.isOpen then s.writePins 8 ((BitVec.ofNat 64 (unle [a, b, c, d])).setWidth 32) else s := by
  have hl : enabled 0x6008 [some a, some b, some c, some d] = [(0x6008, a), (0x6009, b), (0x600A, c), (0x600B, d)] := rfl
  have hw : s.regWritable 0x6008 = s.mode.isOpen := rfl
  have hreg (v : BitVec 32) : s.regWrite32 fn 0x6008 v = if s.mode.isOpen then s.writePins 8 v else s := by
    rw [State.regWrite32, hw]
    cases s.mode.isOpen <;> rfl
  rw [← hreg, State.regWrite, hl]
  rfl

theorem writePins_force (s : State) (v : BitVec 32) : (s.writePins 8 v).pins =
    if s.mode = .maintenance then { s.pins with force := v.setWidth 8, forceEn := (v >>> 8).setWidth 8 } else s.pins := by
  rw [State.writePins, drivePins_pins]
  rfl

theorem force_bytes (a b : Byte) : ((BitVec.ofNat 64 (unle [a, b, 0, 0])).setWidth 32).setWidth 8 = a ∧
    (((BitVec.ofNat 64 (unle [a, b, 0, 0])).setWidth 32) >>> 8).setWidth 8 = b := by
  have hv : unle [a, b, 0, 0] = a.toNat + 256 * b.toNat := rfl
  rw [hv]
  constructor <;> bv_omega

/-- Settles O14: before BOOT has ended no offset is readable or writable; the count of restarts and the forced pins by their registers. -/
theorem registerAccessByMode : Obligations.RegisterAccessByMode := by
  unfold Obligations.RegisterAccessByMode
  refine ⟨fun s fn off hf hd hb => ?_, fun s fn off data hf hd hb => ?_, fun s fn hf hb => ?_, fun s fn a b c d hf hm => ?_,
    fun s fn a b hf hm => ?_⟩
  · rw [exec_rcRegisterRead hf (by rw [hd]; rfl), read_unreadable (readable_booted hb)]
  · rw [exec_registerWrite hf (by rw [hd]; rfl), regWrite_unwritable fun a _ => writable_booted hb]
  · rw [exec_rcRegisterRead hf (not_inDbg (by decide) s), regRead_restarts hb]
  · rw [exec_registerWrite hf (not_inDbg (by decide) s), regWrite_force]
    refine ⟨_, rfl, ?_⟩
    split
    · rw [writePins_force, if_neg hm]
    · rfl
  · have hopen : s.mode.isOpen = true := by rw [hm]; rfl
    obtain ⟨hforce, hen⟩ := force_bytes a b
    refine ⟨_, (exec_registerWrite hf (not_inDbg (by decide) s) _).trans (congrArg Host.Outcome.next (regWrite_force ..)), ?_⟩
    rw [if_pos hopen, writePins_force, if_pos hm, hforce, hen]

end Sys2Proof.Machine
end

section
/-!
PROOFS. Flight records, fatal conditions and watchdogs (R727, R733, R739 to R743).
-/

namespace Sys2Proof.Machine

/-! ### A flight record requested (R743) -/

theorem beginRecord_frame (s : State) : ∃ i w, s.beginRecord = s.updNvm fun n => { n with sector := i, word := w } := by
  unfold State.beginRecord
  split
  · exact ⟨_, _, rfl⟩
  · exact ⟨s.nvm.sector, s.nvm.word, rfl⟩

/-- A record requested joins those being written, and only the place of the writing may change. -/
theorem flight_frame (s : State) (c : Nat) (d : Bytes) :
    ∃ i w, s.flight c d = s.updNvm fun n => { n with jobs := n.jobs ++ [s.flightBytes c d], sector := i, word := w } := by
  unfold State.flight
  dsimp only
  split
  · obtain ⟨i, w, h⟩ := beginRecord_frame (s.updNvm fun n => { n with jobs := n.jobs ++ [s.flightBytes c d] })
    exact ⟨i, w, h⟩
  · exact ⟨s.nvm.sector, s.nvm.word, rfl⟩

theorem flight_jobs (s : State) (c : Nat) (d : Bytes) : (s.flight c d).nvm.jobs = s.nvm.jobs ++ [s.flightBytes c d] := by
  obtain ⟨i, w, h⟩ := flight_frame s c d
  rw [h]
  rfl

theorem flight_nvmOnly (s : State) (c : Nat) (d : Bytes) : s.flight c d = { s with nvm := (s.flight c d).nvm } := by
  obtain ⟨i, w, h⟩ := flight_frame s c d
  rw [h]
  rfl

/-! ### HALT (R733) -/

/-- The HALTs that count with a new one of cause `c`: it and those of the last 60 s. -/
def State.haltsWith (s : State) (c : Nat) : List (Nat × Nat) :=
  (c, s.aonNow) :: s.rst.halts.filter fun e => decide (s.aonNow < e.2 + 60000000000)

theorem haltsWith_count (s : State) (c : Nat) : ((s.haltsWith c).filter fun e => e.1 == c).length =
    1 + (s.rst.halts.filter fun e => decide (s.aonNow < e.2 + 60000000000) && e.1 == c).length := by
  have hf : (s.rst.halts.filter fun e => decide (s.aonNow < e.2 + 60000000000)).filter (fun e => e.1 == c) =
      s.rst.halts.filter fun e => decide (s.aonNow < e.2 + 60000000000) && e.1 == c := by
    rw [List.filter_filter]
    exact List.filter_congr fun e _ => Bool.and_comm _ _
  rw [State.haltsWith, List.filter_cons_of_pos (by simp), List.length_cons, hf, Nat.add_comm]

/-- What a device in HALT after a fatal condition of cause `c` shows. -/
def State.haltedBy (s t : State) (c : Nat) (d : Bytes) : Prop :=
  t.mode = .halt ∧ t.sys.halted = some c ∧ t.rst.halts.head? = some (c, s.aonNow) ∧
  t.rst.haltCount = min 3 (1 + (s.rst.halts.filter fun e => decide (s.aonNow < e.2 + 60000000000) && e.1 == c).length) ∧ t.objs = s.objs ∧
  t.nvm.jobs = s.nvm.jobs ++ [s.flightBytes c d]

theorem toMode_halt (s : State) : s.toMode .halt = { s with sys := { s.sys with mode := .halt } } := by
  unfold State.toMode
  split
  next h => rw [← h]
  next => rw [if_neg (by simp [Mode.isOpen])]

/-- Outputs quiesced: pins, mailboxes, window, ports, links and outputs alone change. -/
theorem quiesce_frame (s : State) : s.quiesce =
    { s with pins := s.quiesce.pins, mbx := s.quiesce.mbx, nmc := s.quiesce.nmc, net := s.quiesce.net, cascade := s.quiesce.cascade,
             out := s.quiesce.out } := by
  obtain ⟨o, ho⟩ := pinsOff_emits s
  unfold State.quiesce
  rw [ho]

/-- A state whose HALT of cause `c` is counted, at the point where its outputs are quiesced. -/
def State.haltCounted (s : State) (c : Nat) : State :=
  (s.updRst fun x => { x with halts := s.haltsWith c, haltCount := min 3 ((s.haltsWith c).filter fun e => e.1 == c).length }).updSys fun x =>
    { x with halted := some c, remembered := none, restart := none }

theorem fatal_halts {s : State} (hr : s.mode ≠ .reset) (hh : s.mode ≠ .halt) (c : Nat) (d : Bytes) :
    s.haltedBy (s.fatal c d) c d ∧ (s.fatal c d).rails = s.rails ∧ (s.fatal c d).retained = s.retained ∧ (s.fatal c d).bkp = s.bkp := by
  have hf := flight_nvmOnly s c d
  have he : s.fatal c d = (((s.flight c d).haltCounted c).quiesce).toMode .halt := by
    unfold State.fatal
    rw [if_neg (not_or.2 ⟨hr, hh⟩)]
    rfl
  have hj := flight_jobs s c d
  rw [he, toMode_halt, quiesce_frame, hf]
  refine ⟨⟨rfl, rfl, rfl, congrArg (min 3) (haltsWith_count s c), rfl, hj⟩, rfl, rfl, rfl⟩

/-! ### The record of a HALT committed (R733) -/

/-- A cold reset follows the record of a HALT that does not stay. -/
theorem recordCommitted_resets {s : State} {c : Nat} (hj : s.nvm.jobs = []) (ha : s.sys.after = none) (hm : s.mode = .halt)
    (hc : s.sys.halted = some c) (hb : c ≠ 0x0A) (hn : s.rst.haltCount < 3) :
    s.recordCommitted.mode = .reset ∧ s.recordCommitted.objs = [] ∧ s.recordCommitted.retained = s.retained := by
  have hs : ((c == 0x0A || decide (3 ≤ s.rst.haltCount)) = false) := by simp [hb, hn]
  unfold State.recordCommitted
  simp only [hj, ha, hm, hc, hs, List.isEmpty_nil, Bool.not_true, Bool.false_eq_true, if_false]
  split
  · obtain ⟨h1, h2, -, h4, -⟩ := coreReset_spec (s.updRails fun x => { x with
      down := decide (0 < x.on), waiting := false, gap := false, hot := (c == 1 || c == 2) && !false,
      retry := c == 5 && !false && decide (x.fails < 3) }) 2 (if c == 1 || c == 2 then 5 else 7) false false
    exact ⟨h1, h2, h4⟩
  · obtain ⟨h1, h2, -, h4, -⟩ := coreReset_spec s 2 (if c == 1 || c == 2 then 5 else 7) false false
    exact ⟨h1, h2, h4⟩

/-- The HALT of a boot failure, or the third of one cause, stays; of a fault of the rails it powers them down. -/
theorem recordCommitted_stays {s : State} {c : Nat} (hj : s.nvm.jobs = []) (ha : s.sys.after = none) (hm : s.mode = .halt)
    (hc : s.sys.halted = some c) (hs : c = 0x0A ∨ 3 ≤ s.rst.haltCount) :
    s.recordCommitted = if c = 1 ∨ c = 2 ∨ c = 5 then s.updRails fun x => { x with
      down := decide (0 < x.on), waiting := false, gap := false, hot := false, retry := false } else s := by
  have hs : ((c == 0x0A || decide (3 ≤ s.rst.haltCount)) = true) := by simpa using hs
  unfold State.recordCommitted
  simp only [hj, ha, hm, hc, hs, List.isEmpty_nil, Bool.not_true, Bool.false_eq_true, if_false, if_true, Bool.and_false, Bool.false_and]
  simp only [Bool.or_eq_true, beq_iff_eq, or_assoc]

theorem recordCommitted_after {s : State} {c : Nat} (hj : s.nvm.jobs = []) (ha : s.sys.after = some c) :
    s.recordCommitted = s.coreReset 2 c false false := by
  unfold State.recordCommitted
  simp only [hj, ha, List.isEmpty_nil, Bool.not_true, Bool.false_eq_true, if_false]

/-! ### Watchdogs (R727, R739) -/

theorem secondLevel_spec {s : State} (hr : s.mode ≠ .reset) (hh : s.mode ≠ .halt) :
    s.secondLevel.sys = { s.sys with after := some 6 } ∧ s.secondLevel.objs = s.objs ∧ s.secondLevel.nvm.jobs = s.nvm.jobs ++ [s.flightBytes 9 []] := by
  have hj := flight_jobs s 9 []
  unfold State.secondLevel
  rw [if_neg (not_or.2 ⟨hr, hh⟩), flight_nvmOnly]
  exact ⟨rfl, rfl, hj⟩

theorem mediaRestart_nvm (s : State) (by_ : Option Nat) (cause : Nat) : (s.mediaRestart by_ cause).nvm = s.nvm := by
  show (s.restartBegun by_ cause).nvm = _
  exact restartOnly_nvm (restartBegun_only s by_ cause)

/-- Of a record before it, a record tells the count alone. -/
theorem flight_flightBytes (s : State) (c : Nat) (d : Bytes) (c' : Nat) (d' : Bytes) : (s.flight c d).flightBytes c' d' =
    (s.updNvm fun n => { n with jobs := n.jobs ++ [s.flightBytes c d] }).flightBytes c' d' := by
  obtain ⟨i, w, h⟩ := flight_frame s c d
  rw [h]
  rfl

theorem firstLevel_restarts {s : State} (hr : s.sys.restart = none) (hm : s.mode = .ready ∨ s.inService = true) (c : Nat) :
    (s.firstLevel c).mode = .ready ∧ (s.firstLevel c).sys.restart.isSome = true ∧ (s.firstLevel c).objs = [] ∧
    ((s.firstLevel c).nvm.jobs = s.nvm.jobs ++ [s.flightBytes 8 (le 1 c)] ∨ (s.firstLevel c).nvm.jobs =
      s.nvm.jobs ++ [s.flightBytes 0x0D (le 1 c), (s.flight 0x0D (le 1 c)).flightBytes 8 (le 1 c)]) := by
  have hrun (t : State) : (t.mediaRestart none 5).mode = .ready ∧ (t.mediaRestart none 5).sys.restart.isSome = true ∧
      (t.mediaRestart none 5).objs = [] :=
    have ⟨h1, h2, h3, _⟩ := mediaRestart_spec t none 5
    ⟨h1, h2, h3⟩
  have hd : s.draw.2 = { s with fresh := s.fresh + 1 } := rfl
  unfold State.firstLevel
  simp only [hr, Option.isSome_none, Bool.false_eq_true, if_false, hm, if_true, mediaRestart_nvm, flight_jobs, hrun, true_and]
  split
  · exact .inl rfl
  · right
    rw [flight_jobs, flight_flightBytes, flight_flightBytes, List.append_assoc]
    rfl

/-- Settles O20: the condition's record, its count and HALT (`fatal_halts`), the commit of the record, and the two watchdogs. -/
theorem fatalConditionsHalt : Obligations.FatalConditionsHalt := by
  unfold Obligations.FatalConditionsHalt
  refine ⟨fun s ph da hr hh hp => ?_, fun s n hr hh h1 h9 hon hd => ?_, fun s hr hh => ?_, fun s hr hh => ?_, fun s c hj ha hm hc => ⟨?_, ?_⟩,
    fun s hr hh => ⟨_, rfl, secondLevel_spec hr hh⟩, fun s c hj ha => ?_, fun s c hr hm => ⟨_, rfl, firstLevel_restarts hr hm c⟩,
    fun s hr hh hb => ?_, fun s hp => ?_, fun s f hf ho => ?_⟩
  · obtain ⟨h, hrails, -⟩ := fatal_halts (s := s.updRails fun x => { x with pmIout := true }) hr hh 2 (le 1 ph ++ le 2 da)
    refine ⟨_, if_neg (by omega), h, ?_⟩
    rw [hrails]
    rfl
  · obtain ⟨h, hrails, -⟩ := fatal_halts (s := s.updRails fun x => { x with
      failStep := n, fails := min 3 (s.rails.fails + 1), pmMfr := true, pmVout := x.pmVout || n == 2 }) hr hh 5 (le 1 n)
    refine ⟨_, ?_, h, ?_⟩
    · show execPowerGoodFall n s = _
      unfold execPowerGoodFall
      rw [if_neg (by omega), if_neg (by simpa [hd] using hon), if_neg hr]
    · rw [hrails]
      rfl
  · exact ⟨_, rfl, (fatal_halts hr hh 3 []).1, rfl, rfl⟩
  · exact ⟨_, rfl, (fatal_halts hr hh 4 []).1, rfl⟩
  · exact fun hb hn => ⟨_, rfl, recordCommitted_resets hj ha hm hc hb hn⟩
  · exact fun hs => congrArg Host.Outcome.next (recordCommitted_stays hj ha hm hc hs)
  · obtain ⟨h1, -, -, -, -, h6, -⟩ := coreReset_spec s 2 c false false
    refine ⟨_, congrArg Host.Outcome.next (recordCommitted_after hj ha), h1, h6⟩
  · have hj := flight_jobs s 7 []
    refine ⟨_, if_neg (by simp [hr, hh, hb]), ?_⟩
    rw [flight_nvmOnly]
    exact ⟨rfl, rfl, hj, rfl⟩
  · show ∃ t, execPwrFailNRelease s = _ ∧ _
    unfold execPwrFailNRelease
    rw [if_neg (by simp [hp])]
    dsimp only
    split
    · refine ⟨_, rfl, ?_⟩
      rw [raiseAll_same]
      exact ⟨rfl, rfl, rfl⟩
    · exact ⟨_, rfl, rfl, rfl, rfl⟩
  · show execRstClrHaltCount f s = _
    unfold execRstClrHaltCount
    rw [if_neg (by omega), if_pos ho]

end Sys2Proof.Machine
end

section
/-!
PROOFS. The flight-record NVM: word pulses, sectors and erases (R711 to R713, R729).
-/

namespace Sys2Proof.Machine

/-! ### Sectors -/

@[simp] theorem sec_setSec_same (n : Nvm) (i : Nat) (st : SectorState) (c : Nat) : (n.setSec i st c).sec i = (st, c) := by
  unfold Nvm.sec Nvm.setSec
  exact tget_tset_same ..

theorem nvmWear_same (s : State) : s.sameBut s.nvmWear := raiseAll_same ..

/-- Two states differ at most in what the life's alarms change: which were told, and what an event changes. -/
def State.lifeTold (s t : State) : Prop :=
  t = { s with nvm := { s.nvm with low10 := t.nvm.low10, low1 := t.nvm.low1 }, mbx := t.mbx, nmc := t.nmc, out := t.out }

theorem lifeTold_trans {a b c : State} (h : a.lifeTold b) (k : b.lifeTold c) : a.lifeTold c := by
  unfold State.lifeTold at *
  rw [k, h]

theorem lifeTold_of_same {s t : State} (h : s.sameBut t) : s.lifeTold t := by
  unfold State.sameBut at h
  unfold State.lifeTold
  rw [h]

theorem lifeTold_if {s : State} {p : Prop} [Decidable p] {f : Nvm → Nvm} (hf : s.lifeTold (s.updNvm f)) :
    s.lifeTold (if p then (s.updNvm f).nvmWear else s) := by
  split
  · exact lifeTold_trans hf (lifeTold_of_same (nvmWear_same _))
  · rfl

theorem checkLife_told (s : State) : s.lifeTold s.checkLife := by
  unfold State.checkLife
  exact lifeTold_trans (lifeTold_if (p := s.nvm.life < 100 ∧ !s.nvm.low10) (f := fun n => { n with low10 := true }) rfl) (lifeTold_if rfl)

/-- A retired sector stays retired, and the records stay. -/
theorem retireSector_spec (s : State) (i : Nat) :
    ((s.retireSector i).nvm.sec i).1 = .retired ∧ (s.retireSector i).nvm.jobs = s.nvm.jobs ∧ (s.retireSector i).objs = s.objs ∧
      (s.retireSector i).sys = s.sys := by
  have h : (s.updNvm fun n => n.setSec i .retired (n.sec i).2).lifeTold (s.retireSector i) :=
    lifeTold_trans (lifeTold_of_same (nvmWear_same _)) (checkLife_told _)
  rw [h]
  exact ⟨congrArg (·.1) (sec_setSec_same s.nvm i .retired (s.nvm.sec i).2), rfl, rfl, rfl⟩

/-- Where an erase is begun, the sectors, what is being written and the newest of two records or more stay. -/
theorem keepErased_spec (s : State) : ∃ e l, s.keepErased = s.updNvm (fun n => { n with erase := e, records := l }) ∧
    (l = s.nvm.records ∨ s.nvm.jobs = [] ∧ l = s.nvm.records.dropLast) := by
  unfold State.keepErased
  dsimp only
  split
  · exact ⟨s.nvm.erase, s.nvm.records, rfl, .inl rfl⟩
  next hidle =>
    have hj : s.nvm.jobs = [] := by
      cases h : s.nvm.jobs
      · rfl
      · simp [h] at hidle
    split
    · exact ⟨_, s.nvm.records, rfl, .inl rfl⟩
    · split
      · exact ⟨s.nvm.erase, s.nvm.records, rfl, .inl rfl⟩
      · split
        · exact ⟨_, _, rfl, .inr ⟨hj, rfl⟩⟩
        · exact ⟨s.nvm.erase, s.nvm.records, rfl, .inl rfl⟩

/-! ### The end of a record and of an erase -/

theorem thin_usable {n : Nvm} (h : 4 ≤ n.usable) : n.thin = n := if_pos h

/-- A record complete where four sectors stay usable: numbered, and kept as the newest. -/
theorem recordDone_kept {s : State} {r : Bytes} {l : List Bytes} (hj : s.nvm.jobs = r :: l)
    (hu : 4 ≤ (s.nvm.setSec s.nvm.sector .record (s.nvm.sec s.nvm.sector).2).usable) :
    (s.recordDone r).nvm.jobs = l ∧ (s.recordDone r).nvm.seq = s.nvm.seq + 1 ∧ (s.recordDone r).rst.last = u8 r 5 ∧
    (s.recordDone r).sys = s.sys ∧ (s.nvm.records ≠ [] ∨ l ≠ [] → (s.nvm.sector, r) ∈ (s.recordDone r).nvm.records) := by
  let n : Nvm := { s.nvm.setSec s.nvm.sector .record (s.nvm.sec s.nvm.sector).2 with
    records := (s.nvm.sector, r) :: s.nvm.records, jobs := l, seq := s.nvm.seq + 1, word := 0 }
  have hdone : s.recordDone r = ({ s with nvm := n, rst := { s.rst with last := u8 r 5 } } : State).beginRecord.keepErased := by
    unfold State.recordDone
    have ht : (s.updNvm fun n => { n.setSec s.nvm.sector .record (n.sec s.nvm.sector).2 with
        records := (s.nvm.sector, r) :: n.records, jobs := n.jobs.tail, seq := n.seq + 1, word := 0 }) = { s with nvm := n } := by
      show { s with nvm := { s.nvm.setSec s.nvm.sector .record (s.nvm.sec s.nvm.sector).2 with
        records := (s.nvm.sector, r) :: s.nvm.records, jobs := s.nvm.jobs.tail, seq := s.nvm.seq + 1, word := 0 } } = { s with nvm := n }
      rw [hj]
      rfl
    dsimp only
    rw [ht]
    show ({ s with nvm := n.thin, rst := { s.rst with last := u8 r 5 } } : State).beginRecord.keepErased = _
    rw [thin_usable (show 4 ≤ n.usable from hu)]
  obtain ⟨i, w, hb⟩ := beginRecord_frame { s with nvm := n, rst := { s.rst with last := u8 r 5 } }
  rw [hdone, hb]
  obtain ⟨e, k, hk, hl⟩ := keepErased_spec (({ s with nvm := n, rst := { s.rst with last := u8 r 5 } } : State).updNvm fun n => { n with
    sector := i, word := w })
  rw [hk]
  refine ⟨rfl, rfl, rfl, rfl, fun hne => ?_⟩
  show (s.nvm.sector, r) ∈ k
  obtain rfl | ⟨hjobs, rfl⟩ := hl
  · exact List.mem_cons_self
  · have hne : s.nvm.records ≠ [] := hne.resolve_right fun h => h hjobs
    show (s.nvm.sector, r) ∈ ((s.nvm.sector, r) :: s.nvm.records).dropLast
    rw [List.dropLast_cons_of_ne_nil hne]
    exact List.mem_cons_self

/-- The end of a pulse with no reset held is the end of its word; with one held the reset follows. -/
theorem pulseEnd_unheld {s : State} (h : s.wordDone.sys.resetDue = none) : s.pulseEnd = s.wordDone := by
  unfold State.pulseEnd
  dsimp only
  rw [h]

/-- A word that fails to verify: its sector retires and the record begins anew. -/
theorem wordDone_fails {s : State} {r : Bytes} {l : List Bytes} (hj : s.nvm.jobs = r :: l)
    (h : Config.wordFails s.nvm.sector (s.nvm.sec s.nvm.sector).2 s.nvm.word = true) :
    (s.wordDone.nvm.sec s.nvm.sector).1 = .retired ∧ s.wordDone.nvm.jobs = s.nvm.jobs ∧ s.wordDone.sys = s.sys := by
  have hd : s.wordDone = (s.retireSector s.nvm.sector).beginRecord := by
    unfold State.wordDone
    rw [hj]
    exact if_pos h
  obtain ⟨h1, h2, -, h4⟩ := retireSector_spec s s.nvm.sector
  obtain ⟨i, w, hb⟩ := beginRecord_frame (s.retireSector s.nvm.sector)
  rw [hd, hb]
  exact ⟨h1, h2, h4⟩

theorem wordDone_verifies {s : State} {r : Bytes} {l : List Bytes} (hj : s.nvm.jobs = r :: l)
    (h : ¬ Config.wordFails s.nvm.sector (s.nvm.sec s.nvm.sector).2 s.nvm.word = true) :
    s.wordDone = if s.nvm.word + 1 < 16 then s.updNvm fun n => { n with word := n.word + 1 } else s.recordDone r := by
  unfold State.wordDone
  rw [hj]
  exact if_neg h

/-- The end of a pulse with a reset held: the reset proceeds. -/
theorem pulseEnd_held {s : State} {cold : Bool} {c : Nat} (h : s.wordDone.sys.resetDue = some (cold, c)) :
    s.pulseEnd.mode = .reset ∧ s.pulseEnd.rst.held = true ∧ s.pulseEnd.rst.source = c := by
  have hp : s.pulseEnd = s.wordDone.coreReset (if cold || (!cold && !s.wordDone.rst.trained) then 2 else 1) c true
      (!cold && !s.wordDone.rst.trained) := by
    unfold State.pulseEnd
    dsimp only
    rw [h]
  rw [hp]
  obtain ⟨h1, -, -, -, -, h6, -⟩ := coreReset_spec s.wordDone (if cold || (!cold && !s.wordDone.rst.trained) then 2 else 1) c true
    (!cold && !s.wordDone.rst.trained)
  exact ⟨h1, rfl, h6⟩

theorem beginRecord_sys (s : State) : s.beginRecord.sys = s.sys := by
  obtain ⟨i, w, h⟩ := beginRecord_frame s
  rw [h]
  rfl

theorem keepErased_sys (s : State) : s.keepErased.sys = s.sys := by
  obtain ⟨e, l, h, -⟩ := keepErased_spec s
  rw [h]
  rfl

theorem recordDone_sys (s : State) (r : Bytes) : (s.recordDone r).sys = s.sys := by
  unfold State.recordDone
  dsimp only
  rw [keepErased_sys, beginRecord_sys]
  rfl

/-- A word's end changes no reset that waits. -/
theorem wordDone_sys (s : State) : s.wordDone.sys = s.sys := by
  cases hj : s.nvm.jobs with
  | nil =>
    unfold State.wordDone
    rw [hj]
  | cons r l =>
    by_cases h : Config.wordFails s.nvm.sector (s.nvm.sec s.nvm.sector).2 s.nvm.word = true
    · exact (wordDone_fails hj h).2.2
    · rw [wordDone_verifies hj h]
      split
      · rfl
      · exact recordDone_sys s r

/-- An erase ended below the endurance: a cycle counted and the sector erased. -/
theorem eraseDone_spec {s : State} {i : Nat} (he : s.nvm.erase = some i) (hc : (s.nvm.sec i).2 + 1 < 950000) :
    s.eraseDone.nvm.sec i = (.erased, (s.nvm.sec i).2 + 1) ∧ s.eraseDone.objs = s.objs ∧ s.eraseDone.sys = s.sys := by
  have hd : s.eraseDone = (s.updNvm fun n => { n.setSec i .erased ((s.nvm.sec i).2 + 1) with erase := none }).checkLife.keepErased := by
    unfold State.eraseDone
    rw [he]
    dsimp only
    rw [if_neg (by omega)]
  obtain ⟨e, l, hk, -⟩ := keepErased_spec (s.updNvm fun n => { n.setSec i .erased ((s.nvm.sec i).2 + 1) with erase := none }).checkLife
  rw [hd, hk, checkLife_told]
  exact ⟨sec_setSec_same s.nvm i .erased ((s.nvm.sec i).2 + 1), rfl, rfl⟩

/-- Settles O21: a pulse ends its word (`wordDone_fails`, `wordDone_verifies`, `recordDone_kept`), a held reset proceeds, and an erase counts. -/
theorem nvmWritesComplete : Obligations.NvmWritesComplete := by
  unfold Obligations.NvmWritesComplete
  refine ⟨fun s r l hj hr hw => ⟨_, rfl, ?_⟩, fun s r l hj hr hw hu => ⟨_, rfl, ?_⟩, fun s cold c hr => ⟨_, rfl, ?_⟩,
    fun s i he hc => ⟨_, rfl, eraseDone_spec he hc⟩⟩
  · rw [pulseEnd_unheld ((wordDone_sys s).symm ▸ hr)]
    by_cases h : Config.wordFails s.nvm.sector (s.nvm.sec s.nvm.sector).2 s.nvm.word = true
    · obtain ⟨h1, h2, -⟩ := wordDone_fails hj h
      exact ⟨h2, by rw [if_pos h]; exact h1⟩
    · rw [wordDone_verifies hj h, if_pos hw, if_neg h]
      exact ⟨rfl, rfl⟩
  · rw [pulseEnd_unheld ((wordDone_sys s).symm ▸ hr)]
    by_cases h : Config.wordFails s.nvm.sector (s.nvm.sec s.nvm.sector).2 s.nvm.word = true
    · obtain ⟨h1, h2, -⟩ := wordDone_fails hj h
      rw [if_pos (hw ▸ h)]
      exact ⟨h1, h2⟩
    · rw [wordDone_verifies hj h, if_neg (show ¬ s.nvm.word + 1 < 16 by omega), if_neg (hw ▸ h)]
      obtain ⟨h1, h2, h3, -, h5⟩ := recordDone_kept hj hu
      exact ⟨h1, h2, h3, h5⟩
  · exact pulseEnd_held (by rw [wordDone_sys, hr])

end Sys2Proof.Machine
end

section
/-!
PROOFS. What a BLP frame sent leaves of the state: mailboxes, outputs, draws, the dispatcher, Onyx and the link queues of the cascade
change, and nothing else (R492, R638).
-/

namespace Sys2Proof.Machine

/-- Two states differ at most in what a BLP frame sent changes. -/
def State.linkSent (s t : State) : Prop :=
  t = { s with mbx := t.mbx, nmc := t.nmc, out := t.out, fresh := t.fresh, work := t.work, onyx := t.onyx,
               cascade := { s.cascade with queues := t.cascade.queues, linkStats := t.cascade.linkStats } }

theorem linkSent_of_same {s t : State} (h : s.sameBut t) : s.linkSent t := by
  unfold State.sameBut at h
  unfold State.linkSent
  rw [h]

theorem linkSent_trans {a b c : State} (h : a.linkSent b) (k : b.linkSent c) : a.linkSent c := by
  unfold State.linkSent at *
  rw [k, h]

theorem linkSent_foldl {α : Type} {g : State → α → State} (h : ∀ s a, State.linkSent s (g s a)) (l : List α) (s : State) :
    s.linkSent (l.foldl g s) := by
  induction l generalizing s with
  | nil => rfl
  | cons a l ih => exact linkSent_trans (h s a) (ih _)

theorem raiseAll_linkSent (s : State) (op : Nat) (p : Bytes) : s.linkSent (s.raiseAll op p) := linkSent_of_same (raiseAll_same ..)

theorem linkCount_linkSent (s : State) (l d cls ph n : Nat) : s.linkSent (s.linkCount l d cls ph n) := by
  unfold State.linkCount
  dsimp only
  split
  · exact linkSent_trans (b := s.setLinkKey l d _) rfl (raiseAll_linkSent ..)
  · rfl

theorem sealLink_linkSent (s : State) (l cls kind src dst hops block : Nat) (p : Bytes) :
    s.linkSent (s.sealLink l cls kind src dst hops block p).1 := by
  have hcount (k : LinkKey) (ph n : Nat) : s.linkSent ((s.setLinkKey l 1 k).linkCount l 1 cls ph n) :=
    linkSent_trans (b := s.setLinkKey l 1 k) rfl (linkCount_linkSent ..)
  unfold State.sealLink
  dsimp only
  split
  · rfl
  split
  · rfl
  dsimp only
  split
  · exact linkSent_trans (hcount ..) (raiseAll_linkSent ..)
  · exact hcount ..

theorem serveLink_linkSent (s : State) (l : Nat) (out : Bool) : s.linkSent (s.serveLink l out) := by
  unfold State.serveLink
  repeat' split
  all_goals rfl

theorem queueLink_linkSent (s : State) (l : Nat) (out : Bool) (cls : Nat) (j : Job) (d : Bytes) : s.linkSent (s.queueLink l out cls j d) :=
  linkSent_trans (b := (s.setLinkQueue l out cls _).linkNote l out cls _ _) rfl (serveLink_linkSent ..)

theorem linkShares_linkSent (s : State) (c l d : Nat) : s.linkSent (s.linkShares c l d) := by
  have hdrawn : s.linkSent (s.drawn c 512) := by
    unfold State.drawn
    dsimp only
    split <;> rfl
  exact linkSent_trans hdrawn rfl

theorem blpSend_linkSent (s : State) (l cls kind src dst hops block : Nat) (p : Bytes) :
    s.linkSent (s.blpSend l cls kind src dst hops block p) := by
  unfold State.blpSend
  dsimp only
  split
  · rfl
  split
  · exact queueLink_linkSent ..
  next c _ =>
    have hshare := linkSent_trans (a := s) (b := (s.linkThrough l true cls (linkSize true p)).passOnyx 1 (linkDesc l 1 cls)) rfl
      (linkShares_linkSent _ c l 1)
    have hseal := linkSent_trans hshare (sealLink_linkSent _ l cls kind src dst hops block p)
    split
    next t f he => rw [he] at hseal; exact linkSent_trans hseal rfl
    next t he => rw [he] at hseal; exact hseal

theorem sendTo_linkSent (s : State) (a cls kind block : Nat) (p : Bytes) : s.linkSent (s.sendTo a cls kind block p) := by
  unfold State.sendTo
  split
  · rfl
  · dsimp only
    split
    · rfl
    · exact blpSend_linkSent ..

theorem tell_linkSent (s : State) (a : Nat) (c : Control) : s.linkSent (s.tell a c) := sendTo_linkSent ..

end Sys2Proof.Machine
end

section
/-!
PROOFS. A link that goes DOWN: the other links and every port keep their state (R640, R641, R691).
-/

namespace Sys2Proof.Machine

/-- Two states have the same links of the cascade, and their ports are up alike. -/
def State.sameWires (s t : State) : Prop := t.cascade.links = s.cascade.links ∧ ∀ p, (t.port p).up = (s.port p).up

theorem sameWires_refl (s : State) : s.sameWires s := ⟨rfl, fun _ => rfl⟩

theorem sameWires_trans {a b c : State} (h : a.sameWires b) (k : b.sameWires c) : a.sameWires c :=
  ⟨k.1.trans h.1, fun p => (k.2 p).trans (h.2 p)⟩

theorem sameWires_of_linkSent {s t : State} (h : s.linkSent t) : s.sameWires t := by
  unfold State.linkSent at h
  rw [h]
  exact ⟨rfl, fun _ => rfl⟩

theorem sameWires_of_same {s t : State} (h : s.sameBut t) : s.sameWires t := sameWires_of_linkSent (linkSent_of_same h)

theorem sameWires_foldl {α : Type} {g : State → α → State} (h : ∀ s a, State.sameWires s (g s a)) (l : List α) (s : State) :
    s.sameWires (l.foldl g s) := by
  induction l generalizing s with
  | nil => exact sameWires_refl s
  | cons a l ih => exact sameWires_trans (h s a) (ih _)

theorem sameWires_ite {s t : State} {p : Prop} [Decidable p] (h : s.sameWires t) : s.sameWires (if p then s else t) := by
  split
  · exact sameWires_refl s
  · exact h

theorem updNet_wires (s : State) (f : Net → Net) (h : (f s.net).ports = s.net.ports) : s.sameWires (s.updNet f) :=
  ⟨rfl, fun p => congrArg (fun t => (tget Port.init t p).up) h⟩

theorem updCas_wires (s : State) (f : Cascade → Cascade) (h : (f s.cascade).links = s.cascade.links) : s.sameWires (s.updCas f) :=
  ⟨h, fun _ => rfl⟩

theorem updMatrix_wires (s : State) (f : Matrix → Matrix) : s.sameWires (s.updMatrix f) := ⟨rfl, fun _ => rfl⟩

theorem updWork_wires (s : State) (f : Work → Work) : s.sameWires (s.updWork f) := ⟨rfl, fun _ => rfl⟩

theorem dropObj_wires (s : State) (k : Nat) : s.sameWires (s.dropObj k) := ⟨rfl, fun _ => rfl⟩

theorem spendKeys_wires (s : State) (k : Nat) : s.sameWires (s.spendKeys k) := ⟨rfl, fun _ => rfl⟩

theorem setLinkQueue_wires (s : State) (l : Nat) (out : Bool) (c : Nat) (x : List (Job × Bytes)) : s.sameWires (s.setLinkQueue l out c x) :=
  ⟨rfl, fun _ => rfl⟩

theorem setAudio_wires (s : State) (e : Egress) (a : Audio) : s.sameWires { s with egress := e, audio := a } := ⟨rfl, fun _ => rfl⟩

theorem setSched_wires (s : State) (l : List Sched) : s.sameWires { s with sched := l } := ⟨rfl, fun _ => rfl⟩

theorem endWhere_wires (s : State) (p : Item → Bool) (st res : Nat) : s.sameWires (s.endWhere p st res) := by
  rw [endWhere_frame]
  exact ⟨rfl, fun _ => rfl⟩

/-! ### Queues dropped -/

theorem updPort_up (s : State) (p : Nat) (f : Port → Port) (hf : ∀ x, (f x).up = x.up) (q : Nat) :
    ((s.updPort p f).port q).up = (s.port q).up := by
  by_cases h : q = p
  · subst h
    rw [updPort_port, hf]
  · exact congrArg Port.up (tget_tset_other _ _ _ h)

theorem portBump_wires (s : State) (p off n : Nat) : s.sameWires (s.portBump p off n) := ⟨rfl, updPort_up s p _ fun _ => rfl⟩

theorem sendFrame_wires (s : State) (port : Nat) (f : Bytes) : s.sameWires (s.sendFrame port f) := by
  have hscr : s.sameWires (s.scrambled port f) := by
    unfold State.scrambled
    split <;> exact ⟨rfl, fun _ => rfl⟩
  unfold State.sendFrame
  split
  · exact sameWires_trans (sameWires_trans hscr (b := s.scrambled port f) (c := ((s.scrambled port f).emit _).portBump port 8 1)
      (portBump_wires ((s.scrambled port f).emit _) port 8 1)) (portBump_wires ..)
  · exact sameWires_refl s

theorem sendPfc_wires (s : State) (port prio time : Nat) : s.sameWires (s.sendPfc port prio time) := by
  unfold State.sendPfc
  split
  · exact sameWires_trans (sendFrame_wires ..) (portBump_wires ..)
  · exact sameWires_refl s

theorem noticeOut_wires (s s0 : State) (port prio pin : Nat) : s.sameWires (s.noticeOut s0 port prio pin) := by
  have hdrive : s.sameWires (s.driveFctl s0 pin) := by
    unfold State.driveFctl
    repeat' split
    all_goals exact ⟨rfl, fun _ => rfl⟩
  unfold State.noticeOut
  dsimp only
  repeat' split
  · exact sameWires_trans hdrive (sendPfc_wires ..)
  · exact sameWires_trans hdrive (sendPfc_wires ..)
  · exact hdrive

theorem dropQueue_wires (s : State) (i : Nat) : s.sameWires (s.dropQueue i) := by
  unfold State.dropQueue
  split
  · exact sameWires_refl s
  next q _ =>
    have hset : s.sameWires (s.setQueue i { q with recs := [], asserted := false }) := ⟨rfl, fun _ => rfl⟩
    dsimp only
    split
    · exact sameWires_trans (sameWires_trans hset (noticeOut_wires ..)) ⟨rfl, fun _ => rfl⟩
    · exact ⟨rfl, fun _ => rfl⟩

/-! ### Objects ended -/

theorem unplace_wires (s : State) (key n : Nat) : s.sameWires (s.unplace key n) := by
  unfold State.unplace
  split
  · exact sameWires_refl s
  · exact ⟨rfl, fun _ => rfl⟩

theorem subGone_wires (s : State) (i : Nat) : s.sameWires
    (if s.objLive (okey 0x0C i) then (s.bumpGen (okey 0x0C i)).dropObj (okey 0x0C i) else s.dropObj (okey 0x0C i)) := by
  split <;> exact ⟨rfl, fun _ => rfl⟩

theorem legFree_wires (s : State) (key : Nat) : s.sameWires (s.legFree key) := by
  unfold State.legFree
  split
  · exact sameWires_refl s
  · dsimp only
    refine sameWires_trans ?_ (dropObj_wires ..)
    refine sameWires_trans ?_ (updNet_wires _ _ rfl)
    refine sameWires_trans ?_ (setAudio_wires ..)
    refine sameWires_trans ?_ (unplace_wires ..)
    refine sameWires_trans ?_ (updMatrix_wires ..)
    refine sameWires_trans ?_ (sameWires_foldl subGone_wires ..)
    exact sameWires_trans (sameWires_trans (dropQueue_wires ..) (dropQueue_wires ..)) (spendKeys_wires ..)

/-! ### Links down (R640, R641) -/

theorem trunkUndo_wires (s : State) (id : Nat) : s.sameWires (s.trunkUndo id) := by
  unfold State.trunkUndo
  dsimp only
  refine sameWires_trans ?_ (updCas_wires _ _ rfl)
  refine sameWires_trans ?_ (setSched_wires ..)
  exact sameWires_foldl (fun s k => sameWires_trans (b := s.releaseNow (s.objCost k)) ⟨rfl, fun _ => rfl⟩ (legFree_wires ..)) _ _

theorem answer_fail_same (s : State) (f : Nat) (st : Status) (p : Bytes) : s.sameBut (s.answer f fun _ _ => .fail st p) := by
  unfold State.answer
  split
  · split
    · exact sameBut_trans (updMb_same ..) (respond_same ..)
    · rfl
  · rfl

theorem failTrunk_wires (s : State) (id : Nat) (st : Status) (p : Bytes) : s.sameWires (s.failTrunk id st p) := by
  unfold State.failTrunk
  split
  · exact sameWires_refl s
  dsimp only
  refine sameWires_ite ?_
  refine sameWires_trans ?_ (sameWires_of_same (answer_fail_same ..))
  refine sameWires_trans ?_ (updCas_wires _ _ rfl)
  refine sameWires_trans ?_ (trunkUndo_wires ..)
  exact sameWires_of_linkSent (linkSent_foldl (fun s a => tell_linkSent ..) _ _)

theorem dropLink_wires (s : State) (l : Nat) : s.sameWires (s.dropLink l) := by
  unfold State.dropLink
  dsimp only
  refine sameWires_trans ?_ (updWork_wires ..)
  refine sameWires_trans ?_ (endWhere_wires ..)
  refine sameWires_trans ?_ (updWork_wires ..)
  exact sameWires_foldl (fun s c => setLinkQueue_wires s l true c []) _ _

/-- A link that goes DOWN: it alone changes, and no port. -/
theorem linkDown_wires (s : State) (l : Nat) : (s.updBlp l fun x => { x with st := 0, heard := false }).sameWires (s.linkDown l) := by
  have hfail (k : List Nat) (s : State) : s.sameWires (k.foldl (fun s id => s.failTrunk id .timeout []) s) :=
    sameWires_foldl (fun s id => failTrunk_wires ..) k s
  have htell (k : List Nat) (s : State) : s.sameWires (k.foldl (fun s id => s.tell s.cascade.master (.trunkNo id Status.timeout.code [])) s) :=
    sameWires_of_linkSent (linkSent_foldl (fun s a => tell_linkSent ..) k s)
  unfold State.linkDown
  generalize (s.updBlp l fun x => { x with st := 0, heard := false }) = s
  dsimp only
  split
  · refine sameWires_trans ?_ (hfail ..)
    exact sameWires_trans (dropLink_wires ..) (sameWires_of_same (raiseAll_same ..))
  · refine sameWires_trans ?_ (htell ..)
    refine sameWires_trans ?_ (hfail ..)
    exact sameWires_trans (dropLink_wires ..) (sameWires_of_same (raiseAll_same ..))

end Sys2Proof.Machine
end

section
/-!
PROOFS. Rails (R695 to R697, R709) and the loss of the SerDes reference (R691).
-/

namespace Sys2Proof.Machine

/-! ### What the pins of the rails put out -/

theorem driveEn_frame (s : State) (step level : Nat) : s.driveEn step level = { s with out := (s.driveEn step level).out } := by
  unfold State.driveEn
  split <;> rfl

theorem driveEn_late (s : State) {step : Nat} (level : Nat) (h : 3 ≤ step) : s.driveEn step level = s.emit (.pin 2 (step - 2) level) := by
  have he : enPin step = some (step - 2) := by
    unfold enPin
    rw [if_neg (by omega), if_neg (by omega)]
  unfold State.driveEn
  rw [he]

theorem pwmOut_frame (s s0 : State) : s.pwmOut s0 = { s with out := (s.pwmOut s0).out } := rfl

/-- The PWM outputs stand while VDD_CORE is up before and after. -/
theorem pwmOut_still {s s0 : State} (h : 2 ≤ s.rails.on) (h0 : 2 ≤ s0.rails.on) (hp : s.pwr = s0.pwr) : s.pwmOut s0 = s := by
  have hpwm (n : Nat) : s.pwm n = s0.pwm n := by
    unfold State.pwm Rails.core
    rw [decide_eq_true h, decide_eq_true h0, hp]
    rfl
  have hnone : ((List.range 12).filter fun n => s.pwm n != s0.pwm n) = [] :=
    List.filter_eq_nil_iff.2 fun n _ => by simp [hpwm n]
  unfold State.pwmOut
  rw [hnone]
  rfl

theorem sequence_spec (s : State) : s.sequence.out = .pin 2 0 1 :: s.out ∧
    s.sequence.rails = { s.rails with waiting := true, gap := false, down := false, on := 0, retry := false, hot := false } := ⟨rfl, rfl⟩

/-! ### Ports down -/

theorem setLink_down (s : State) (p q : Nat) : ((s.setLink p false).port q).up = if q = p then false else (s.port q).up := by
  have h : (s.updPort p fun x => { x with up := false, linkBlock := s.block }).sameWires (s.setLink p false) :=
    sameWires_of_same (raiseAll_same ..)
  rw [h.2 q]
  split
  next he =>
    subst he
    rw [updPort_port]
  next hne => exact congrArg Port.up (tget_tset_other _ _ _ hne)

/-- Of ports taken down one after the other, one that is still up was up before and not among them. -/
theorem setLinks_up (l : List Nat) (s : State) (q : Nat) (h : ((l.foldl (fun s p => s.setLink p false) s).port q).up = true) :
    (s.port q).up = true ∧ q ∉ l := by
  induction l generalizing s with
  | nil => exact ⟨h, List.not_mem_nil⟩
  | cons p l ih =>
    obtain ⟨hup, hl⟩ := ih (s.setLink p false) h
    rw [setLink_down] at hup
    split at hup
    · cases hup
    next hne => exact ⟨hup, fun hm => (List.mem_cons.1 hm).elim hne hl⟩

theorem mem_of_tget? {α : Type} {t : Table α} {k : Nat} {v : α} (h : tget? t k = some v) : (k, v) ∈ t := by
  induction t with
  | nil => cases h
  | cons e r ih =>
    rw [tget?] at h
    split at h
    next hk =>
      cases h
      exact hk ▸ List.mem_cons_self
    · exact List.mem_cons_of_mem _ (ih h)

/-- A port that is up is listed as such. -/
theorem port_up_listed {s : State} {q : Nat} (h : (s.port q).up = true) : q ∈ (s.net.ports.filter fun e => e.2.up).map (·.1) := by
  cases hg : tget? s.net.ports q with
  | none =>
    unfold State.port tget at h
    rw [hg] at h
    cases h
  | some x =>
    unfold State.port tget at h
    rw [hg] at h
    exact List.mem_map.2 ⟨(q, x), List.mem_filter.2 ⟨mem_of_tget? hg, h⟩, rfl⟩

/-- Each port that is up and each link that is UP taken down in turn. -/
def State.portsDown (s : State) : State := ((s.net.ports.filter fun e => e.2.up).map (·.1)).foldl (fun s p => s.setLink p false) s
def State.linksDown (s : State) : State := (s.cascade.links.filter fun e => e.2.st == 2).foldl (fun s e => s.linkDown e.1) s

theorem serdesRefclkLoss_eq (s : State) : exec .serdesRefclkLoss s =
    .next (s.portsDown.linksDown.updCas fun c => { c with links := tmap c.links fun _ x => { x with st := 0 } }) := rfl

theorem portsDown_down (s : State) (p : Nat) : (s.portsDown.port p).up = false := by
  cases hup : (s.portsDown.port p).up with
  | false => rfl
  | true =>
    unfold State.portsDown at hup
    obtain ⟨hs, hn⟩ := setLinks_up _ s p hup
    exact absurd (port_up_listed hs) hn

theorem linksDown_up (s : State) (p : Nat) : (s.linksDown.port p).up = (s.port p).up := by
  unfold State.linksDown
  generalize s.cascade.links.filter (fun e => e.2.st == 2) = l
  induction l generalizing s with
  | nil => rfl
  | cons e l ih =>
    rw [List.foldl_cons, ih]
    exact (linkDown_wires s e.1).2 p

/-- The SerDes reference lost: every port and every link is down. -/
theorem serdesRefclkLoss_downs (s : State) : ∃ t, exec .serdesRefclkLoss s = .next t ∧
    (∀ p x, tget? t.net.ports p = some x → x.up = false) ∧ ∀ e ∈ t.cascade.links, e.2.st = 0 := by
  refine ⟨_, serdesRefclkLoss_eq s, fun p x hx => ?_, fun e he => ?_⟩
  · have hp : s.portsDown.linksDown.port p = x := by
      unfold State.port tget
      rw [show tget? s.portsDown.linksDown.net.ports p = some x from hx]
      rfl
    rw [← hp, linksDown_up, portsDown_down]
  · obtain ⟨d, -, rfl⟩ := List.mem_map.1 he
    rfl

/-- Settles O26: the timeout's record after its rails, the sequence begun anew, a step down, and every wire down without its reference. -/
theorem railFailuresComplete : Obligations.RailFailuresComplete := by
  unfold Obligations.RailFailuresComplete
  refine ⟨fun s hw => ?_, fun s hr => ?_, fun s hh ht => ?_, fun s hd => ?_, fun s _ => serdesRefclkLoss_downs s⟩
  · refine ⟨_, if_neg (by simp [hw]), ?_⟩
    rw [flight_jobs, flight_nvmOnly]
    rw [pwmOut_frame, driveEn_frame]
    refine ⟨rfl, rfl, rfl, rfl, ?_, ?_, rfl⟩
    · show decide (min 3 (s.rails.fails + 1) < 3) = decide (s.rails.fails + 1 < 3)
      exact decide_eq_decide.2 (by omega)
    · exact List.length_append
  · exact ⟨_, congrArg Host.Outcome.next (if_pos hr), sequence_spec s⟩
  · exact ⟨_, congrArg Host.Outcome.next (if_pos (by simp [hh, ht])), sequence_spec s⟩
  · refine ⟨_, if_neg (by simp [hd]), ?_, fun h3 => ?_⟩
    · rw [pwmOut_frame, driveEn_frame]
      rfl
    · rw [driveEn_late _ _ h3, pwmOut_still]
      · rfl
      · show 2 ≤ s.rails.on - 1
        omega
      · omega
      · rfl

end Sys2Proof.Machine
end

section
/-!
PROOFS. What events and responses leave of a mailbox: the command in flight and whether Ready was raised (R33, R54, R96).
-/

namespace Sys2Proof.Machine

/-- Two states have the same commands in flight, and Ready was raised on the same mailboxes. -/
def State.sameFlights (s t : State) : Prop :=
  (∀ g, (t.mb g).flight = (s.mb g).flight) ∧ ∀ g, (t.mb g).readyRaised = (s.mb g).readyRaised

theorem sameFlights_refl (s : State) : s.sameFlights s := ⟨fun _ => rfl, fun _ => rfl⟩

theorem sameFlights_trans {a b c : State} (h : a.sameFlights b) (k : b.sameFlights c) : a.sameFlights c :=
  ⟨fun g => (k.1 g).trans (h.1 g), fun g => (k.2 g).trans (h.2 g)⟩

theorem sameFlights_foldl {α : Type} {g : State → α → State} (h : ∀ s a, State.sameFlights s (g s a)) (l : List α) (s : State) :
    s.sameFlights (l.foldl g s) := by
  induction l generalizing s with
  | nil => exact sameFlights_refl s
  | cons a l ih => exact sameFlights_trans (h s a) (ih _)

theorem sameFlights_of_mbx {s t : State} (h : t.mbx = s.mbx) : s.sameFlights t := by
  unfold State.sameFlights State.mb
  rw [h]
  exact ⟨fun _ => rfl, fun _ => rfl⟩

theorem setMb_flights (s : State) (f : Nat) (m : Mailbox) (hf : m.flight = (s.mb f).flight) (hr : m.readyRaised = (s.mb f).readyRaised) :
    s.sameFlights (s.setMb f m) := by
  have h (g : Nat) : ((s.setMb f m).mb g).flight = (s.mb g).flight ∧ ((s.setMb f m).mb g).readyRaised = (s.mb g).readyRaised := by
    by_cases h : g = f
    · subst h
      rw [mb_setMb_same]
      exact ⟨hf, hr⟩
    · rw [mb_setMb_other _ _ h]
      exact ⟨rfl, rfl⟩
  exact ⟨fun g => (h g).1, fun g => (h g).2⟩

theorem updMb_flights (s : State) (f : Nat) (u : Mailbox → Mailbox) (hf : ∀ m, (u m).flight = m.flight)
    (hr : ∀ m, (u m).readyRaised = m.readyRaised) : s.sameFlights (s.updMb f u) := setMb_flights s f _ (hf _) (hr _)

theorem emit_flights (s : State) (o : Out) : s.sameFlights (s.emit o) := sameFlights_of_mbx rfl

theorem setNmc_flights (s : State) (n : Nmc) : s.sameFlights { s with nmc := n } := sameFlights_of_mbx rfl

theorem msix_flights (s : State) (f v : Nat) : s.sameFlights (s.msix f v) := by
  unfold State.msix
  dsimp only
  repeat' split
  · exact setMb_flights s f _ rfl rfl
  · exact emit_flights ..
  · exact sameFlights_refl s

theorem placeEvent_flights (s : State) : s.sameFlights s.placeEvent := by
  unfold State.placeEvent
  split
  · refine sameFlights_trans ?_ (setNmc_flights ..)
    exact setMb_flights s 4 _ rfl rfl
  · exact sameFlights_refl s

theorem pushEvent_flights (s : State) (f : Nat) (e : Slot) : s.sameFlights (s.pushEvent f e) := by
  refine sameFlights_trans ?_ (msix_flights ..)
  refine sameFlights_trans ?_ (emit_flights ..)
  exact setMb_flights s f _ rfl rfl

theorem writeEvents_flights (s : State) (f : Nat) (l : List Slot) : s.sameFlights (s.writeEvents f l) := by
  unfold State.writeEvents
  split
  · exact sameFlights_foldl (fun s e => pushEvent_flights s f e) l s
  · exact sameFlights_trans (setNmc_flights ..) (placeEvent_flights _)

theorem dropEvent_flights (s : State) (f op : Nat) : s.sameFlights (s.dropEvent f op) := by
  unfold State.dropEvent
  dsimp only
  split
  · exact setMb_flights s f _ rfl rfl
  · refine sameFlights_trans ?_ (setNmc_flights ..)
    exact setMb_flights s f _ rfl rfl

theorem raiseOn_flights (s : State) (f op target tag : Nat) (p : Bytes) : s.sameFlights (s.raiseOn f op target tag p) := by
  unfold State.raiseOn
  dsimp only
  repeat' split
  · exact sameFlights_refl s
  · exact writeEvents_flights ..
  · exact dropEvent_flights ..

theorem flushHeld_flights (f : Nat) (l : List Bytes) (s : State) : s.sameFlights (State.flushHeld f l s) := by
  induction l generalizing s with
  | nil => exact updMb_flights s f _ (fun _ => rfl) fun _ => rfl
  | cons p r ih =>
    unfold State.flushHeld
    dsimp only
    split
    · refine sameFlights_trans ?_ (ih _)
      exact sameFlights_trans (writeEvents_flights ..) (updMb_flights _ f _ (fun _ => rfl) fun _ => rfl)
    · exact updMb_flights s f _ (fun _ => rfl) fun _ => rfl

theorem flushReady_flights (s : State) (f : Nat) : s.sameFlights (s.flushReady f) := by
  unfold State.flushReady
  split
  · exact sameFlights_trans (writeEvents_flights ..) (updMb_flights _ f _ (fun _ => rfl) fun _ => rfl)
  · exact sameFlights_refl s

theorem flushLost_flights (s : State) (f : Nat) : s.sameFlights (s.flushLost f) := by
  unfold State.flushLost
  dsimp only
  split
  · exact sameFlights_trans (writeEvents_flights ..) (updMb_flights _ f _ (fun _ => rfl) fun _ => rfl)
  · exact sameFlights_refl s

theorem pump_flights (s : State) (f : Nat) : s.sameFlights (s.pump f) := by
  unfold State.pump
  dsimp only
  split
  · exact flushReady_flights ..
  · exact sameFlights_trans (sameFlights_trans (flushReady_flights ..) (flushHeld_flights ..)) (flushLost_flights ..)

theorem respond_flights (s : State) (f op : Nat) (r : Req) (st : Status) (target : Nat) (p : Bytes) :
    s.sameFlights (s.respond f op r st target p) := by
  unfold State.respond
  dsimp only
  repeat' split
  · exact setMb_flights s f _ rfl rfl
  · refine sameFlights_trans ?_ (msix_flights ..)
    refine sameFlights_trans ?_ (emit_flights ..)
    exact setMb_flights s f _ rfl rfl
  · exact sameFlights_refl s
  · refine sameFlights_trans ?_ (setNmc_flights ..)
    exact setMb_flights s f _ rfl rfl

theorem flushBad_flights (f : Nat) (l : List Taken) (s : State) : s.sameFlights (State.flushBad f l s) := by
  induction l generalizing s with
  | nil => exact sameFlights_refl s
  | cons a l ih =>
    cases a with
    | run op r => exact sameFlights_refl s
    | bad op r st p =>
      refine sameFlights_trans ?_ (ih _)
      refine sameFlights_trans ?_ (respond_flights ..)
      exact updMb_flights s f _ (fun _ => rfl) fun _ => rfl

theorem settleTaken_flights (s : State) (f : Nat) : s.sameFlights (s.settleTaken f) := by
  unfold State.settleTaken
  split
  · exact flushBad_flights ..
  · exact sameFlights_refl s

theorem answered_flights (s : State) (op : Nat) (r : Req) (target : Nat) (p : Bytes) : s.sameFlights (s.answered op r target p) := by
  unfold State.answered State.finish
  dsimp only
  split
  · exact sameFlights_trans (respond_flights ..) (raiseOn_flights ..)
  · exact respond_flights ..

end Sys2Proof.Machine
end

section
/-!
PROOFS. Firmware slots, OTP, the unlocking and lane tests (R734 to R737, R768, Table 24.14).
-/

namespace Sys2Proof.Machine

/-- Of a mailbox whose command waits for a slot's programming the command is completed; another mailbox is left alone. -/
def State.programmed (s : State) (f : Nat) : State :=
  match (s.mb f).flight with
  | some x => if x.wait = .flash then s.endFlight f effFirmwareSlotWriteDone else s
  | none => s

theorem programmed_idle {s : State} {f : Nat} (h : (s.mb f).flight.all (fun x => x.wait != .flash) = true) : s.programmed f = s := by
  unfold State.programmed
  split
  next x hx =>
    rw [hx] at h
    exact if_neg (by simpa using h)
  · rfl

theorem programmeds_idle {l : List Nat} {s : State} (h : ∀ f ∈ l, (s.mb f).flight.all (fun x => x.wait != .flash) = true) :
    l.foldl State.programmed s = s := by
  induction l with
  | nil => rfl
  | cons f l ih =>
    rw [List.foldl_cons, programmed_idle (h f List.mem_cons_self)]
    exact ih fun g hg => h g (List.mem_cons_of_mem _ hg)

/-- One command waits for the programming: only its mailbox is served. -/
theorem programmeds_one {s : State} {f : Nat} (hf : f < 5) (hflash : ∀ g, g < 5 → g ≠ f → (s.mb g).flight.all (fun x => x.wait != .flash) = true)
    (hkeep : ∀ g, g ≠ f → ((s.programmed f).mb g).flight = (s.mb g).flight) :
    [0, 1, 2, 3, 4].foldl State.programmed s = s.programmed f := by
  have hmem : f ∈ [0, 1, 2, 3, 4] := by
    simp only [List.mem_cons, List.not_mem_nil]
    omega
  have hlt : ∀ g ∈ [0, 1, 2, 3, 4], g < 5 := by decide
  obtain ⟨a, b, hl⟩ := List.append_of_mem hmem
  have hn : (a ++ f :: b).Nodup := hl ▸ (by decide : [0, 1, 2, 3, 4].Nodup)
  have hne (g : Nat) (hg : g ∈ a ∨ g ∈ b) : g ≠ f := by
    rintro rfl
    rw [List.nodup_append] at hn
    obtain ⟨-, hb, hd⟩ := hn
    obtain hg | hg := hg
    · exact hd g hg g List.mem_cons_self rfl
    · exact (List.nodup_cons.1 hb).1 hg
  have hin (g : Nat) (hg : g ∈ a ∨ g ∈ b) : g < 5 := hlt g (by
    rw [hl]
    obtain hg | hg := hg
    · exact List.mem_append_left _ hg
    · exact List.mem_append_right _ (List.mem_cons_of_mem _ hg))
  rw [hl, List.foldl_append, List.foldl_cons, programmeds_idle fun g hg => hflash g (hin g (.inl hg)) (hne g (.inl hg)),
    programmeds_idle fun g hg => ?_]
  rw [hkeep g (hne g (.inr hg))]
  exact hflash g (hin g (.inr hg)) (hne g (.inr hg))

/-- The end of a programming: OK with the slot written where it verifies, INVALID_ARG with the slot erased where it does not. -/
def State.slotAnswered (u : State) (x : Flight) : State :=
  if verifySlot u.sys.otpCounter x.resp = 0 then State.answered { u with flash := tset u.flash (u8 x.req.payload 0) x.resp } x.op x.req 0 []
  else State.failed { u with flash := tset u.flash (u8 x.req.payload 0) [] } x.op x.req .invalidArg []

theorem slotAnswered_flights (u : State) (x : Flight) : u.sameFlights (u.slotAnswered x) := by
  unfold State.slotAnswered
  split
  · refine sameFlights_trans (b := { u with flash := tset u.flash (u8 x.req.payload 0) x.resp }) (sameFlights_of_mbx rfl) (answered_flights ..)
  · exact sameFlights_trans (b := { u with flash := tset u.flash (u8 x.req.payload 0) [] }) (sameFlights_of_mbx rfl) (respond_flights ..)

theorem programmed_eq {s : State} {f : Nat} {x : Flight} (hx : (s.mb f).flight = some x) (hw : x.wait = .flash) :
    s.programmed f = ((s.landed f).slotAnswered x).settleTaken f := by
  have he : s.programmed f = s.endFlight f effFirmwareSlotWriteDone := by
    unfold State.programmed
    rw [hx]
    exact if_pos hw
  rw [he, endFlight_eq hx]
  unfold effFirmwareSlotWriteDone State.slotAnswered
  dsimp only
  split <;> rfl

theorem slotWriteDone_serves {s : State} {f : Nat} {x : Flight} (hf : f < 5) (hx : (s.mb f).flight = some x) (hw : x.wait = .flash)
    (hflash : ∀ g, g < 5 → g ≠ f → (s.mb g).flight.all (fun y => y.wait != .flash) = true) :
    exec .firmwareSlotWriteDone s = .next (((s.landed f).slotAnswered x).settleTaken f) := by
  have hrun : exec .firmwareSlotWriteDone s = .next ([0, 1, 2, 3, 4].foldl State.programmed s) := rfl
  rw [hrun, programmeds_one hf hflash fun g hg => ?_, programmed_eq hx hw]
  rw [programmed_eq hx hw, ((sameFlights_trans (slotAnswered_flights ..) (settleTaken_flights ..)).1 g)]
  unfold State.landed
  rw [mb_updMb_other _ _ hg]

/-! ### The commands -/

theorem effFirmwareSlotWrite_fits {r : Req} {s : State} (ht : r.target = 0) (hk : u8 r.payload 0 < 2) (hs : u8 r.payload 0 ≠ s.sys.slot)
    (hz : zeros r.payload 1 3 = true) (hl : u32 r.payload 12 ≤ slotSize) (hz' : zeros r.payload 16 4 = true) :
    effFirmwareSlotWrite r s = readThen (u32 r.payload 12) (fun s => .wait .flash [] s) s := by
  unfold effFirmwareSlotWrite
  simp [nullTarget_null ht, hk, bne_iff_ne.2 hs, hz, hl, hz']

theorem effDebugUnlock_answers {r : Req} {s : State} {c : Bytes} (ht : r.target = 0) (hc : s.sys.challenge = some c) : effDebugUnlock r s =
    if verify384 Config.debugKey (le 8 Config.serial.toNat ++ c) r.payload then
      .done [] 0 (((s.updSys fun x => { x with challenge := none }).updSys fun x => { x with unlocked := true }).flight 0x0C (le 1 r.mbx))
    else .refuse .denied [] (s.updSys fun x => { x with challenge := none }) := by
  unfold effDebugUnlock
  rw [nullTarget_null ht, hc]

/-- DebugUnlock spends the challenge, and a good signature unlocks (R768). -/
theorem debugUnlock_spends {r : Req} {s s1 : State} {c : Bytes} (h : s.turn 0x0F16 r = some s1) (ht : r.target = 0) (hl : r.payload.length = 96)
    (hc : s1.sys.challenge = some c) : ∃ t, exec (.debugUnlock r) s = .next t ∧ t.sys.challenge = none ∧ t.objs = s1.objs ∧
      (if verify384 Config.debugKey (le 8 Config.serial.toNat ++ c) r.payload then
        t.sys.unlocked = true ∧ t.nvm.jobs = s1.nvm.jobs ++ [s1.flightBytes 0x0C (le 1 r.mbx)]
      else t = (s1.updSys fun x => { x with challenge := none }).failed 0x0F16 r .denied []) := by
  have ho := effDebugUnlock_answers ht hc
  by_cases hv : verify384 Config.debugKey (le 8 Config.serial.toNat ++ c) r.payload = true
  · rw [if_pos hv] at ho
    refine ⟨_, exec_answered h (by rw [hl]; rfl) ho, ?_⟩
    rw [if_pos hv, answered_same, flight_nvmOnly]
    exact ⟨rfl, rfl, rfl, flight_jobs ..⟩
  · rw [if_neg hv] at ho
    refine ⟨(s1.updSys fun x => { x with challenge := none }).failed 0x0F16 r .denied [], ?_, ?_⟩
    · show Host.Outcome.next (s.command 0x0F16 (· == 96) r (effDebugUnlock r)) = _
      rw [command_of_turn h (by rw [hl]; rfl), ho]
      rfl
    · rw [if_neg hv]
      have hs : (s1.updSys fun x => { x with challenge := none }).sameBut
          ((s1.updSys fun x => { x with challenge := none }).failed 0x0F16 r .denied []) := respond_same ..
      rw [hs]
      exact ⟨rfl, rfl, rfl⟩

/-- The 16 bytes of two draws that DebugChallengeGet answers. -/
def State.challengeDrawn (s : State) : Bytes := le 8 s.draw.1.toNat ++ le 8 s.draw.2.draw.1.toNat

theorem effDebugChallengeGet_draws {r : Req} (s : State) (ht : r.target = 0) : effDebugChallengeGet r s =
    .done s.challengeDrawn 0 { s with fresh := s.fresh + 2, sys := { s.sys with challenge := some s.challengeDrawn } } := by
  unfold effDebugChallengeGet
  exact nullTarget_null ht _

/-- What LaneTestGet answers of lane `l`: its test, and two draws. -/
def State.laneTestBytes (s : State) (l : Nat) : Bytes :=
  le 1 (tget 0 s.sys.laneTests l) ++ le 1 (s.draw.1.toNat / 2 ^ 32 % 2) ++ le 2 0 ++ le 4 s.draw.1.toNat ++ le 8 s.draw.2.draw.1.toNat

theorem effLaneTestGet_draws {r : Req} (s : State) (ht : r.target = 0) (hl : u8 r.payload 0 < 32) (hz : zeros r.payload 1 3 = true) :
    effLaneTestGet r s = .done (s.laneTestBytes (u8 r.payload 0)) 0 { s with fresh := s.fresh + 2 } := by
  unfold effLaneTestGet
  simp only [nullTarget_null ht, hl, hz, decide_true, need_true]
  rfl

/-- Settles O24: each command by what its own part answers, and the end of a programming by `slotWriteDone_serves`. -/
theorem firmwareAndDebugCommandsComplete : Obligations.FirmwareAndDebugCommandsComplete := by
  unfold Obligations.FirmwareAndDebugCommandsComplete
  refine ⟨fun r s s1 h ht hlen hk hs hz hl hz' => ⟨fun h0 => ?_, fun h0 => ?_⟩, fun s u f x hf hx hw hflash hu => ?_,
    fun r s s1 h ht hlen hm ho hk => ?_, fun r s s1 h ht hlen hc hv => ?_, fun r s s1 h ht hlen => ?_,
    fun r s s1 c h ht hlen hc => debugUnlock_spends h ht hlen hc, fun r s s1 h ht hlen hl hk hz hm hlive => ?_,
    fun r s s1 h ht hlen hl hz => ?_⟩
  · exact exec_waiting h (by rw [hlen]; rfl) ((effFirmwareSlotWrite_fits ht hk hs hz hl hz').trans (if_pos h0))
  · exact exec_waiting h (by rw [hlen]; rfl) ((effFirmwareSlotWrite_fits ht hk hs hz hl hz').trans (if_neg h0))
  · rw [slotWriteDone_serves hf hx hw hflash, hu]
    rfl
  · refine exec_answered h (by rw [hlen]; rfl) ?_
    simp only [effOtpKekWrite, nullTarget_null ht, hm, ho, hk, beq_self_eq_true, Option.isNone_none, need_true]
  · refine exec_answered h (by rw [hlen]; rfl) ?_
    simp [effFirmwareCommit, nullTarget_null ht, hc, hv]
  · refine ⟨s1.challengeDrawn, ?_, exec_answered h (by rw [hlen]; rfl) (effDebugChallengeGet_draws s1 ht)⟩
    simp only [State.challengeDrawn, List.length_append, le_length]
  · refine exec_answered h (by rw [hlen]; rfl) ?_
    simp [effLaneTestSet, nullTarget_null ht, hm, hlive, hl, hk, hz]
  · refine ⟨s1.laneTestBytes (u8 r.payload 0), ?_, rfl, exec_answered h (by rw [hlen]; rfl) (effLaneTestGet_draws s1 ht hl hz)⟩
    simp only [State.laneTestBytes, List.length_append, le_length]

end Sys2Proof.Machine
end

section
/-!
PROOFS. Bring-up: power-on, the boot ROM and calibration (R556, R695, R722, R731, Tables 24.7 and 24.8).
-/

namespace Sys2Proof.Machine

/-! ### Ready raised (Table 2.8) -/

/-- Ready raised on a mailbox, and what waits for room there written. -/
def State.readyOn (s : State) (f : Nat) : State :=
  (s.updMb f fun m => { m with readyRaised := true, readyDue := f == 4 || m.evt.en }).pump f

theorem readyOn_same (s : State) (f : Nat) : s.sameBut (s.readyOn f) := sameBut_trans (updMb_same ..) (pump_same ..)

theorem readyOn_raised (s : State) (f g : Nat) : ((s.readyOn f).mb g).readyRaised = if g = f then true else (s.mb g).readyRaised := by
  have h := (pump_flights (s.updMb f fun m => { m with readyRaised := true, readyDue := f == 4 || m.evt.en }) f).2 g
  unfold State.readyOn
  rw [h]
  split
  next he =>
    subst he
    rw [mb_updMb_same]
  next hne => rw [mb_updMb_other _ _ hne]

theorem readyOns_raised (l : List Nat) (s : State) (g : Nat) (h : g ∈ l ∨ (s.mb g).readyRaised = true) :
    ((l.foldl State.readyOn s).mb g).readyRaised = true := by
  induction l generalizing s with
  | nil => exact h.resolve_left List.not_mem_nil
  | cons f l ih =>
    refine ih _ ?_
    rw [readyOn_raised]
    obtain h | h := h
    · obtain rfl | h := List.mem_cons.1 h
      · exact .inr (if_pos rfl)
      · exact .inl h
    · right
      split
      · rfl
      · exact h

theorem raiseReady_eq (s : State) : s.raiseReady = [0, 1, 2, 3, 4].foldl State.readyOn s := rfl

theorem raiseReady_same (s : State) : s.sameBut s.raiseReady := foldl_same _ readyOn_same _ s

theorem raiseReady_raised (s : State) {f : Nat} (hf : f < 5) : (s.raiseReady.mb f).readyRaised = true := by
  rw [raiseReady_eq]
  refine readyOns_raised _ s f (.inl ?_)
  simp only [List.mem_cons, List.not_mem_nil]
  omega

/-! ### Calibration (Table 24.8) -/

/-- Two states differ at most in the NVM. -/
def State.nvmOnly (s t : State) : Prop := t = { s with nvm := t.nvm }

theorem nvmOnly_flight (s : State) (c : Nat) (d : Bytes) : s.nvmOnly (s.flight c d) := flight_nvmOnly s c d

theorem nvmOnly_keepErased (s : State) : s.nvmOnly s.keepErased := by
  obtain ⟨e, l, h, -⟩ := keepErased_spec s
  rw [h]
  rfl

theorem nvmOnly_trans {a b c : State} (h : a.nvmOnly b) (k : b.nvmOnly c) : a.nvmOnly c := by
  unfold State.nvmOnly at *
  rw [k, h]

/-- The memory trained, and the pins set: calibration up to its flight records. -/
def State.trained (s : State) : State :=
  let bad := trainingFault s.rst.trainings
  let s := s.memOnly (s.trainDdr s.rst.trainings)
  { s with
    mem := { s.mem with ddr := bad.isNone, hbm := fusesGood, hbmDelays := if fusesGood then (Config.fuseTable.drop 16).take 512 else s.mem.hbmDelays, failed := match bad with | some b => some b | none => s.mem.failed }
    rst := { s.rst with trainings := s.rst.trainings + 1, trained := s.rst.trained || bad.isNone }
    pins := { s.pins with applied := true, lanes := calibratedLanes (s.slotBytes s.sys.slot) s.block } }

/-- The flight records of what calibration found bad. -/
def State.calibrationRecords (s : State) (bad : Option (Nat × Nat × Nat)) : State :=
  let s := match bad with
    | some (c, step, lane) => s.flight 0x0B (le 1 1 ++ le 1 c ++ le 1 step ++ le 1 lane)
    | none => s
  if fusesGood then s else s.flight 0x0B (le 1 2 ++ le 3 0)

theorem nvmOnly_calibrationRecords (s : State) (bad : Option (Nat × Nat × Nat)) : s.nvmOnly (s.calibrationRecords bad) := by
  unfold State.calibrationRecords
  dsimp only
  split <;> split
  · exact nvmOnly_flight ..
  · rfl
  · exact nvmOnly_trans (nvmOnly_flight ..) (nvmOnly_flight ..)
  · exact nvmOnly_flight ..

/-- Calibration up to Ready. -/
def State.calibrated (s : State) : State :=
  ((s.trained.calibrationRecords (trainingFault s.rst.trainings)).crcReleaseAll 8).updSys fun x => { x with
    mode := if (trainingFault s.rst.trainings).isNone && fusesGood then .ready else .maintenance }

theorem calibrate_eq (s : State) : s.calibrate = s.calibrated.raiseReady.keepErased := rfl

theorem calibrated_spec (s : State) :
    s.calibrated.mode = (if (trainingFault s.rst.trainings).isNone && fusesGood then .ready else .maintenance) ∧
    s.calibrated.mem.ddr = (trainingFault s.rst.trainings).isNone ∧ s.calibrated.mem.hbm = fusesGood ∧ s.calibrated.pins.applied = true ∧
    s.calibrated.objs = s.objs := by
  unfold State.calibrated
  rw [nvmOnly_calibrationRecords]
  exact ⟨rfl, rfl, rfl, rfl, rfl⟩

/-- READY where memory trained and the fuse table is good, else MAINTENANCE, with Ready raised on every mailbox. -/
theorem calibrate_spec (s : State) :
    s.calibrate.mode = (if (trainingFault s.rst.trainings).isNone && fusesGood then .ready else .maintenance) ∧
    s.calibrate.mem.ddr = (trainingFault s.rst.trainings).isNone ∧ s.calibrate.mem.hbm = fusesGood ∧ s.calibrate.pins.applied = true ∧
    s.calibrate.objs = s.objs ∧ ∀ f, f < 5 → (s.calibrate.mb f).readyRaised = true := by
  obtain ⟨h1, h2, h3, h4, h5⟩ := calibrated_spec s
  have hk (u : State) : u.keepErased.sys = u.sys ∧ u.keepErased.mem = u.mem ∧ u.keepErased.pins = u.pins ∧ u.keepErased.objs = u.objs ∧
      u.keepErased.mbx = u.mbx := by
    rw [nvmOnly_keepErased u]
    exact ⟨rfl, rfl, rfl, rfl, rfl⟩
  have hr (u : State) : u.raiseReady.sys = u.sys ∧ u.raiseReady.mem = u.mem ∧ u.raiseReady.pins = u.pins ∧ u.raiseReady.objs = u.objs := by
    rw [raiseReady_same u]
    exact ⟨rfl, rfl, rfl, rfl⟩
  obtain ⟨ksys, kmem, kpins, kobjs, kmbx⟩ := hk s.calibrated.raiseReady
  obtain ⟨rsys, rmem, rpins, robjs⟩ := hr s.calibrated
  rw [calibrate_eq]
  refine ⟨?_, ?_, ?_, ?_, ?_, fun f hf => ?_⟩
  · rw [State.mode, ksys, rsys]
    exact h1
  · rw [kmem, rmem, h2]
  · rw [kmem, rmem, h3]
  · rw [kpins, rpins, h4]
  · rw [kobjs, robjs, h5]
  · rw [State.mb, kmbx]
    exact raiseReady_raised _ hf

/-! ### The boot ROM (Table 24.7) -/

/-- An image started from slot `n`; the mode is CALIBRATE. -/
def State.started (s : State) (n : Nat) (back : Bool) : State :=
  { s with
    sys := { s.sys with mode := .calibrate, slot := n, fallback := back, fwBuild := u32 (s.slotBytes n) 12, secVersion := u32 (s.slotBytes n) 8 }
    nvm := { s.nvm with discarded := s.nvm.partials, partials := 0 } }

/-- Retained memory and the backup registers filled with zeros where that is due. -/
def State.filled (s : State) : State :=
  if s.sys.fill then { s with retained := [], bkp := [], sys := { s.sys with fill := false } } else s

theorem bootRun_eq (s : State) : s.bootRun =
    (let s := s.filled
     let k := firstSlot (s.slotBytes 0) (s.slotBytes 1)
     if verifySlot s.sys.otpCounter (s.slotBytes k) = 0 then s.started k false
     else if verifySlot s.sys.otpCounter (s.slotBytes (1 - k)) = 0 then s.started (1 - k) true
     else s.fatal 0x0A (le 1 (verifySlot s.sys.otpCounter (s.slotBytes 0)) ++ le 1 (verifySlot s.sys.otpCounter (s.slotBytes 1)))) := rfl

theorem fatal_sys {s : State} (c : Nat) (d : Bytes) : (s.fatal c d).sys.fill = s.sys.fill := by
  unfold State.fatal
  split
  · rfl
  · rw [toMode_halt, quiesce_frame, flight_nvmOnly]
    rfl

/-- The boot ROM keeps the state's retained memory after the filling, and fills once. -/
theorem bootRun_keeps {s : State} (hm : s.mode = .boot) :
    s.bootRun.retained = s.filled.retained ∧ s.bootRun.bkp = s.filled.bkp ∧ s.bootRun.sys.fill = s.filled.sys.fill := by
  have hb : s.filled.mode = .boot := by
    unfold State.filled
    split <;> exact hm
  rw [bootRun_eq]
  generalize s.filled = t at hb ⊢
  dsimp only
  split
  · exact ⟨rfl, rfl, rfl⟩
  · split
    · exact ⟨rfl, rfl, rfl⟩
    · obtain ⟨-, -, hr, hk⟩ := fatal_halts (s := t) (by rw [hb]; decide) (by rw [hb]; decide) 0x0A
        (le 1 (verifySlot t.sys.otpCounter (t.slotBytes 0)) ++ le 1 (verifySlot t.sys.otpCounter (t.slotBytes 1)))
      exact ⟨hr, hk, fatal_sys ..⟩

/-- Settles O19: the rails in order, then the boot ROM (`bootRun_eq`, `bootRun_keeps`) and calibration (`calibrate_spec`). -/
theorem bringUpCompletes : Obligations.BringUpCompletes := by
  unfold Obligations.BringUpCompletes
  refine ⟨fun s c a hc ha => ?_, fun s n h1 h9 hw hn => ?_, fun s hg => ?_, fun s hon hr => if_pos ⟨hon, hr⟩, fun s => rfl,
    fun s hm hon hp hr hh hd => ?_, fun s hm hf => ?_, fun s hm hf => ?_, fun s hm => ?_⟩
  · exact ⟨_, if_neg (by omega), rfl, rfl, rfl, rfl, rfl, rfl, rfl, rfl⟩
  · show execRailPowerGood n s = _
    unfold execRailPowerGood
    rw [if_neg (by omega), if_pos ⟨hw, hn⟩]
  · refine ⟨_, if_pos hg, ?_, fun h2 => ?_⟩
    · rw [pwmOut_frame, driveEn_frame]
      rfl
    · rw [driveEn_late _ _ (by omega), pwmOut_still]
      · rfl
      · exact h2
      · exact h2
      · rfl
  · refine ⟨_, if_pos (by simp [hm, hon, hp, hr, hh, hd]), rfl, rfl⟩
  · have hkeep := bootRun_keeps hm
    have hfill : s.filled = s := by
      unfold State.filled
      rw [hf]
      rfl
    refine ⟨s.bootRun, congrArg Host.Outcome.next (if_pos hm), ?_⟩
    rw [hfill] at hkeep
    refine ⟨hkeep.1, hkeep.2.1, ?_⟩
    rw [bootRun_eq, hfill]
    dsimp only
    split
    · exact ⟨rfl, rfl, rfl, rfl⟩
    · split
      · exact ⟨rfl, rfl, rfl, rfl⟩
      · obtain ⟨⟨h1, h2, -⟩, -⟩ := fatal_halts (s := s) (by rw [hm]; decide) (by rw [hm]; decide) 0x0A
          (le 1 (verifySlot s.sys.otpCounter (s.slotBytes 0)) ++ le 1 (verifySlot s.sys.otpCounter (s.slotBytes 1)))
        exact ⟨h1, h2⟩
  · obtain ⟨h1, h2, h3⟩ := bootRun_keeps hm
    refine ⟨s.bootRun, congrArg Host.Outcome.next (if_pos hm), ?_⟩
    rw [h1, h2, h3]
    unfold State.filled
    rw [if_pos hf]
    exact ⟨rfl, rfl, rfl⟩
  · exact ⟨s.calibrate, congrArg Host.Outcome.next (if_pos hm), calibrate_spec s⟩

end Sys2Proof.Machine
end

section
/-!
PROOFS. Critical objects on a follower (R655): a command whose payload names no unit is answered INVALID_ARG there.
-/

namespace Sys2Proof.Machine

/-- A follower of a trio with one leg, which is entry 0 of its critical set. -/
def criticalFollower : State :=
  { State.reset with
    sys := { State.reset.sys with mode := .trioFollower }
    objs := [(okey 2 0, { owner := 0, active := true, flow := true, dying := false, unborn := false, shedClass := 1, shed := false, cost := [] })]
    trio := { State.reset.trio with id := 77, leader := 6, entries := [(0, { key := okey 2 0, active := true, configs := [] })] } }

/-- A KernelUnbind of slot 0 of that leg, which is no slot (R799), in the NMC window. -/
def unbindNoSlot : Req := { mbx := 4, flags := 0, target := BitVec.ofNat 32 (2 * 2 ^ 27 + 2 ^ 20), tag := 0, payload := [0, 0, 0, 0] }

/-- The follower as the command runs. -/
def criticalFollowerRuns : State :=
  { criticalFollower.countTaken 4 with nmc := { (criticalFollower.countTaken 4).nmc with wstate := .busy } }

theorem criticalFollower_starts : criticalFollower.start 0x0D03 unbindNoSlot = some criticalFollowerRuns := by rfl

theorem unbindNoSlot_noUnit : effKernelUnbind unbindNoSlot criticalFollowerRuns = .noUnit := by rfl

/-- The command is answered with the unit's status, not with LEASE_HELD. -/
theorem unbindNoSlot_answer : criticalFollower.command 0x0D03 (· == 4) unbindNoSlot (effKernelUnbind unbindNoSlot) =
    criticalFollowerRuns.failed 0x0D03 unbindNoSlot .invalidArg [] := by
  rfl

/-- Refutes O60: a command on a follower that names a critical object and, in its payload, no unit of that object is answered INVALID_ARG,
since the units are checked with the handles (R799). A KernelUnbind of slot 0 of a critical leg passes every handle check. -/
theorem not_followersHoldNoLease : ¬ Obligations.FollowersHoldNoLease := by
  unfold Obligations.FollowersHoldNoLease
  rintro ⟨hall, -⟩
  have hheld := hall criticalFollower criticalFollowerRuns 0x0D03 0 (· == 4) unbindNoSlot (effKernelUnbind unbindNoSlot) criticalFollower_starts
    (by decide) (.inl (by decide)) (by decide) (by decide) (by decide) (by decide) (fun p h => nomatch unbindNoSlot_noUnit.symm.trans h)
    (fun p h => nomatch unbindNoSlot_noUnit.symm.trans h) (fun p h => nomatch unbindNoSlot_noUnit.symm.trans h)
  have hwindow := congrArg (fun t : State => t.nmc.window) (unbindNoSlot_answer.symm.trans hheld)
  exact absurd hwindow (by decide)

end Sys2Proof.Machine
end

section
/-!
PROOFS. The recorder's commands (chapter 16): a TapSet that removes a tap checks an object handle that is given (R81).
-/

namespace Sys2Proof.Machine

/-- A bridge with one partition of one tap. -/
def oneTap : State :=
  let s := idleAt 0 .standalone
  { s with
    objs := [(okey 6 0, { owner := 4, active := true, flow := true, dying := false, unborn := false, shedClass := 1, shed := false, cost := [] })]
    recorder := { s.recorder with parts := [(0, { Part.new 0 1 with
      taps := [(0, { kind := 2, obj := okey 2 0, stream := 0, on := true, dying := false, lost := 0, cost := [] })] })] } }

/-- A TapSet that removes tap 0 and gives a handle of no object type, in the NMC window. -/
def removeWithObject : Req :=
  { mbx := 4, flags := 0, target := BitVec.ofNat 32 (6 * 2 ^ 27 + 2 ^ 20), tag := 0,
    payload := [2, 0, 0, 0, 0, 0, 0, 0xF8, 0, 0, 0, 0] }

/-- The bridge as the command runs. -/
def oneTapRuns : State := { oneTap.countTaken 4 with nmc := { (oneTap.countTaken 4).nmc with wstate := .busy } }

theorem oneTap_turn : oneTap.turn 0x0704 removeWithObject = some oneTapRuns := by rfl

theorem removeWithObject_fails : exec (.tapSet removeWithObject) oneTap =
    .next (oneTapRuns.failed 0x0704 removeWithObject .noSuchObject []) := by rfl

/-- Refutes O42: the clause that removes a tap asks nothing of the object's handle, and one that is given is checked (R81). On `oneTap`
a removal that gives a handle of type 31 is answered NO_SUCH_OBJECT, and nothing waits for a block. -/
theorem not_recorderCommandsComplete : ¬ Obligations.RecorderCommandsComplete := by
  unfold Obligations.RecorderCommandsComplete
  rintro ⟨-, -, -, -, -, hremove, -⟩
  obtain ⟨t, ht, e, he, -⟩ := hremove removeWithObject oneTap oneTapRuns (okey 6 0) _
    { kind := 2, obj := okey 2 0, stream := 0, on := true, dying := false, lost := 0, cost := [] } oneTap_turn (by decide) (by rfl) (by rfl)
    (by decide) (by decide) (by rfl) (by decide) (by decide)
  have hsame := Host.Outcome.next.inj (removeWithObject_fails.symm.trans ht)
  have hsched : oneTapRuns.sched = t.sched := by
    have h := congrArg State.sched hsame
    rw [failed_same, accepted_same] at h
    exact h
  rw [← hsched] at he
  exact List.not_mem_nil he

end Sys2Proof.Machine
end

section
/-!
PROOFS. The recorder's own triggers (chapter 16): a datagram without a neighbour moves on every entry that a table lists for its partition.
-/

namespace Sys2Proof.Machine

/-- A partition that exports datagrams, with a filler of 64 bytes at offset 0 and `n` bytes exported. -/
def datagramPart (n : Nat) : Part :=
  { Part.new 0 1 with
    cfg := 2 :: List.replicate 95 0
    exported := n
    recs := [{ off := 0, len := 64, capture := 0, done := 0, filler := true, bytes := [] }] }

/-- A bridge whose table lists partition 0 twice; the first entry is the one that counts. -/
def twiceListed : State :=
  { idleAt 0 .standalone with recorder := { State.reset.recorder with parts := [(0, datagramPart 0), (0, datagramPart 1000)] } }

/-- The position that an entry has exported up to. -/
def State.exportedOf (s : State) : List Nat := s.recorder.parts.map fun e => e.2.exported

theorem twiceListed_exports : ∃ t, exec (.exportWrite 0) twiceListed = .next t ∧ t.exportedOf = [64, 64] := ⟨_, rfl, by decide⟩

/-- Refutes O43: the datagram that goes nowhere is discarded with every entry of the partition brought to the position after it, and the
clause moves each entry on from its own position. On `twiceListed` the second entry goes to 64, and the clause has 1,064. -/
theorem not_recorderEventsComplete : ¬ Obligations.RecorderEventsComplete := by
  unfold Obligations.RecorderEventsComplete
  rintro ⟨-, -, -, -, -, -, -, hdatagram⟩
  have hlost := (hdatagram 0 twiceListed (datagramPart 0) { off := 0, len := 64, capture := 0, done := 0, filler := true, bytes := [] } 64 _
    (by decide) (by rfl) (by decide) (by decide) (by decide) (by decide) (by decide) rfl).1 (by decide)
  obtain ⟨t, ht, hexp⟩ := twiceListed_exports
  have hsame := congrArg State.exportedOf (Host.Outcome.next.inj (ht.symm.trans hlost))
  rw [hexp] at hsame
  exact absurd hsame (by decide)

end Sys2Proof.Machine
end

section
/-!
PROOFS. The memory system (chapter 17): refresh, idle pages, calibration windows, scrubbing and the memory commands.
-/

namespace Sys2Proof.Machine

/-! ### What an access to rows leaves (R542, R548) -/

/-- Two states differ at most in what an access changes: the rows and what goes with them, the draws and the outputs. -/
def State.accessOnly (s t : State) : Prop :=
  t = { s with mem := { s.mem with rows := t.mem.rows, neigh := t.mem.neigh, neighDone := t.mem.neighDone, touched := t.mem.touched },
               fresh := t.fresh, onyx := t.onyx, out := t.out }

theorem accessOnly_trans {a b c : State} (h : a.accessOnly b) (k : b.accessOnly c) : a.accessOnly c := by
  unfold State.accessOnly at *
  rw [k, h]

theorem accessOnly_foldl {α : Type} {g : State → α → State} (h : ∀ s a, State.accessOnly s (g s a)) (l : List α) (s : State) :
    s.accessOnly (l.foldl g s) := by
  induction l generalizing s with
  | nil => rfl
  | cons a l ih => exact accessOnly_trans (h s a) (ih _)

theorem precharge_access (s : State) (k : Nat) : s.accessOnly (s.precharge k) := rfl

theorem refreshRank_access (s : State) (c r n : Nat) : s.accessOnly (s.refreshRank c r n) :=
  accessOnly_trans (b := s.emits _) rfl (accessOnly_foldl precharge_access _ _)

theorem drawn_access (s : State) (i n : Nat) : s.accessOnly (s.drawn i n) := by
  unfold State.drawn
  dsimp only
  split <;> rfl

theorem openRow_access (s : State) (c k row : Nat) : s.accessOnly (s.openRow c k row) :=
  accessOnly_trans (accessOnly_trans (b := s.draw.2) rfl (drawn_access s.draw.2 8 (if c < 8 then s.mem.k5 else s.mem.k3))) rfl

theorem memOnly_access {s t : State} (h : s.accessOnly t) : s.accessOnly (s.memOnly t) := by
  unfold State.accessOnly at *
  rw [h]
  rfl

theorem touch_access (s : State) (c l : Nat) : s.accessOnly (s.touch c l) := by
  have hopen (k row : Nat) : s.accessOnly (if tget? s.mem.rows k = some row then s else (s.precharge k).openRow c k row) := by
    split
    · rfl
    · exact accessOnly_trans (precharge_access ..) (openRow_access ..)
  have hclose (t : State) (k n : Nat) : t.accessOnly (if t.mem.idle c = 0 then t.precharge k else t.updMem fun m => { m with
      touched := tset m.touched k n }) := by
    split
    · exact precharge_access ..
    · rfl
  unfold State.touch
  exact memOnly_access (accessOnly_trans (hopen ..) (hclose ..))

section
variable {s t : State} (h : s.accessOnly t)
include h

theorem accessOnly_objs : t.objs = s.objs := by unfold State.accessOnly at h; rw [h]
theorem accessOnly_mbx : t.mbx = s.mbx := by unfold State.accessOnly at h; rw [h]
theorem accessOnly_now : t.now = s.now := by unfold State.accessOnly at h; rw [h]
theorem accessOnly_ranks : t.mem.ranks = s.mem.ranks := by unfold State.accessOnly at h; rw [h]
theorem accessOnly_chans : t.mem.chans = s.mem.chans := by unfold State.accessOnly at h; rw [h]
theorem accessOnly_fixes : t.mem.fixes = s.mem.fixes := by unfold State.accessOnly at h; rw [h]
theorem accessOnly_rank (c r : Nat) : t.mem.rank c r = s.mem.rank c r := by rw [Mem.rank, accessOnly_ranks h]; rfl
theorem accessOnly_chan (c : Nat) : t.mem.chan c = s.mem.chan c := by rw [Mem.chan, accessOnly_chans h]; rfl
theorem accessOnly_found (c l : Nat) : t.mem.found c l = s.mem.found c l := by unfold State.accessOnly at h; rw [h]; rfl

end

/-! ### Refreshes (R544 to R547) -/

theorem updChan_other (s : State) {c d : Nat} (f : MemChan → MemChan) (h : d ≠ c) : (s.updChan c f).mem.chan d = s.mem.chan d :=
  tget_tset_other _ _ _ h

theorem updRank_other (s : State) {c r d q : Nat} (f : RankRun → RankRun) (h : d * 4 + q ≠ c * 4 + r) :
    (s.updRank c r f).mem.rank d q = s.mem.rank d q := tget_tset_other _ _ _ h

theorem precharges_out (l : List Nat) (s : State) {o : Out} (h : o ∈ s.out) : o ∈ (l.foldl State.precharge s).out := by
  induction l generalizing s with
  | nil => exact h
  | cons k l ih => exact ih _ (List.mem_append_right _ h)

theorem refreshRank_out (s : State) (c r : Nat) {n : Nat} (h : n ≠ 0) : .refresh c r ∈ (s.refreshRank c r n).out := by
  refine precharges_out _ _ (List.mem_append_left _ ?_)
  rw [List.mem_reverse]
  exact List.mem_replicate.2 ⟨h, rfl⟩

/-- The refreshes of a rank issued: none is owed any more. -/
theorem refreshedRank_spec (s : State) (c r n : Nat) (f : RankRun → RankRun) :
    ((s.refreshRank c r n).updRank c r f).objs = s.objs ∧ ((s.refreshRank c r n).updRank c r f).mbx = s.mbx ∧
    ((s.refreshRank c r n).updRank c r f).mem.rank c r = f (s.mem.rank c r) ∧
    ((s.refreshRank c r n).updRank c r f).mem.chans = s.mem.chans := by
  have h := refreshRank_access s c r n
  have hr : ((s.refreshRank c r n).updRank c r f).mem.rank c r = f (s.mem.rank c r) := by rw [updRank_rank, accessOnly_rank h]
  exact ⟨(accessOnly_objs h : (s.refreshRank c r n).objs = _), (accessOnly_mbx h : (s.refreshRank c r n).mbx = _), hr,
    (accessOnly_chans h : (s.refreshRank c r n).mem.chans = _)⟩

/-! ### Scrubbing (R561 to R566) -/

theorem memError_same (s : State) (c kind count l : Nat) : s.sameBut (s.memError c kind count l) := raiseAll_same ..

/-- MemError, where it is due, leaves the memory and the objects. -/
theorem told_spec (s : State) (p : Prop) [Decidable p] (c kind count l : Nat) :
    (if p then s.memError c kind count l else s).objs = s.objs ∧ (if p then s.memError c kind count l else s).mem = s.mem := by
  split
  · rw [memError_same]
    exact ⟨rfl, rfl⟩
  · exact ⟨rfl, rfl⟩

theorem corrected_spec (s : State) (c l : Nat) : (s.corrected c l).objs = s.objs ∧ (s.corrected c l).mem.fixes = s.mem.fixes ∧
    ((s.corrected c l).mem.chan c).corrected = (s.mem.chan c).corrected + 1 ∧
    ((s.corrected c l).mem.chan c).uncorrected = (s.mem.chan c).uncorrected := by
  unfold State.corrected
  dsimp only
  rw [(told_spec ..).1, (told_spec ..).2, updChan_chan]
  exact ⟨rfl, rfl, rfl, rfl⟩

theorem uncorrected_spec (s : State) (c kind l : Nat) :
    (s.uncorrected c kind l).objs = s.objs ∧ (s.uncorrected c kind l).mem.fixes = s.mem.fixes ∧
    ((s.uncorrected c kind l).mem.chan c).corrected = (s.mem.chan c).corrected ∧
    ((s.uncorrected c kind l).mem.chan c).uncorrected = (s.mem.chan c).uncorrected + 1 := by
  unfold State.uncorrected
  dsimp only
  rw [(told_spec ..).1, (told_spec ..).2]
  refine ⟨rfl, rfl, ?_, ?_⟩
  · exact (congrArg MemChan.corrected (updChan_chan s c fun x => { x with uncorrected := x.uncorrected + 1 }) : _)
  · exact (congrArg MemChan.uncorrected (updChan_chan s c fun x => { x with uncorrected := x.uncorrected + 1 }) : _)

theorem readOne_good {s : State} {c l : Nat} (h : s.mem.found c l = (0, false)) (kind : Nat) : s.readOne c kind l = s := by
  unfold State.readOne
  rw [h]
  rfl

theorem readOne_corrects {s : State} {c l : Nat} (h : s.mem.found c l = (0, true)) (kind : Nat) :
    s.readOne c kind l = (s.updMem fun m => { m with fixes := m.fixes ++ [(c, l)] }).corrected c l := by
  unfold State.readOne
  rw [h]
  rfl

theorem readOne_poisons {s : State} {c l w : Nat} (h : s.mem.found c l = (w, false)) (hw : w ≠ 0) (kind : Nat) :
    s.readOne c kind l = s.uncorrected c kind l := by
  unfold State.readOne
  rw [h]
  exact if_neg hw

/-- The location after the one just read, and a pass counted at the channel's end. -/
def MemChan.scrubbed (x : MemChan) (last : Nat) : MemChan :=
  if x.scrub + 1 < last then { x with scrub := x.scrub + 1 } else { x with scrub := 0, passes := x.passes + 1 }

/-- Bits that have come to read wrong in a location. -/
def Mem.withErrs (m : Mem) (c l : Nat) (errs : List Nat) : Mem :=
  if errs = [] then m else { m with errs := tset m.errs (locKey c l) (tget [] m.errs (locKey c l) ++ errs).eraseDups }

/-- The state in which the scrubber reads its location: the next one is due, and the errors stand there. -/
def State.scrubMoved (s : State) (c : Nat) (errs : List Nat) : State :=
  (s.updChan c fun x => x.scrubbed (locations c)).updMem fun m => m.withErrs c (s.mem.chan c).scrub errs
def State.scrubAt (s : State) (c : Nat) (errs : List Nat) : State := (s.scrubMoved c errs).touch c ((s.mem.chan c).scrub * locBytes c)

theorem scrubStep_eq {s : State} {c : Nat} (hc : c < 40) (hup : if c < 8 then s.mem.ddr = true else s.mem.hbm = true) (errs : List Nat) :
    exec (.scrubStep c errs) s = .next ((s.scrubAt c errs).readOne c 3 (s.mem.chan c).scrub) := by
  have hup : (if c < 8 then s.mem.ddr else s.mem.hbm) = true := by
    split at hup <;> simp_all
  have hrun : exec (.scrubStep c errs) s = execScrubStep c errs s := rfl
  rw [hrun, execScrubStep, if_neg (by omega), if_neg (by simp [hup])]
  unfold State.scrubAt State.scrubMoved Mem.withErrs MemChan.scrubbed
  dsimp only
  split <;> rfl

theorem withErrs_frame (m : Mem) (c l : Nat) (errs : List Nat) : m.withErrs c l errs = { m with errs := (m.withErrs c l errs).errs } := by
  unfold Mem.withErrs
  split <;> rfl

theorem scrubMoved_spec (s : State) (c : Nat) (errs : List Nat) :
    (s.scrubMoved c errs).objs = s.objs ∧ (s.scrubMoved c errs).mbx = s.mbx ∧ (s.scrubMoved c errs).mem.fixes = s.mem.fixes ∧
    (s.scrubMoved c errs).mem.chan c = (s.mem.chan c).scrubbed (locations c) := by
  have hm : (s.scrubMoved c errs).mem = { (s.updChan c fun x => x.scrubbed (locations c)).mem with errs := (s.scrubMoved c errs).mem.errs } :=
    withErrs_frame (s.updChan c fun x => x.scrubbed (locations c)).mem c (s.mem.chan c).scrub errs
  refine ⟨rfl, rfl, (congrArg Mem.fixes hm).trans rfl, ?_⟩
  rw [Mem.chan, congrArg Mem.chans hm]
  exact updChan_chan s c fun x => x.scrubbed (locations c)

theorem scrubAt_spec (s : State) (c : Nat) (errs : List Nat) :
    (s.scrubAt c errs).objs = s.objs ∧ (s.scrubAt c errs).mbx = s.mbx ∧ (s.scrubAt c errs).mem.fixes = s.mem.fixes ∧
    (s.scrubAt c errs).mem.chan c = (s.mem.chan c).scrubbed (locations c) := by
  have h : (s.scrubMoved c errs).accessOnly (s.scrubAt c errs) := touch_access ..
  obtain ⟨hobjs, hmbx, hfixes, hchan⟩ := scrubMoved_spec s c errs
  exact ⟨(accessOnly_objs h).trans hobjs, (accessOnly_mbx h).trans hmbx, (accessOnly_fixes h).trans hfixes, (accessOnly_chan h c).trans hchan⟩

/-- What the scrubber finds where no new error stands, and where errors stand in a location so far good. -/
theorem scrubAt_found_old (s : State) (c l : Nat) : (s.scrubAt c []).mem.found c l = s.mem.found c l :=
  accessOnly_found (touch_access ..) c l

theorem tget_absent {α : Type} {t : Table α} {k : Nat} (d : α) (h : tget? t k = none) : tget d t k = d := by
  rw [tget, h]
  rfl

theorem scrubAt_found_new {s : State} {c : Nat} {errs : List Nat} (hne : errs ≠ [])
    (he : tget? s.mem.errs (locKey c (s.mem.chan c).scrub) = none) (hd : tget? s.mem.dead (locKey c (s.mem.chan c).scrub) = none) :
    (s.scrubAt c errs).mem.found c (s.mem.chan c).scrub = readLoc c errs.eraseDups 0 := by
  unfold State.scrubAt
  rw [accessOnly_found (touch_access ..)]
  show Mem.found (Mem.withErrs _ c (s.mem.chan c).scrub errs) c (s.mem.chan c).scrub = _
  unfold Mem.withErrs Mem.found
  rw [if_neg hne]
  dsimp only
  rw [tget_tset_same]
  show readLoc c (tget [] s.mem.errs _ ++ errs).eraseDups (tget 0 s.mem.dead _) = _
  rw [tget_absent [] he, tget_absent 0 hd, List.nil_append]

/-! ### The check codes (R561, R562) -/

theorem eraseDups_one (x : Nat) : [x].eraseDups = [x] := rfl

theorem eraseDups_two {x y : Nat} (h : x ≠ y) : [x, y].eraseDups = [x, y] := by
  rw [List.eraseDups_cons, List.filter_cons_of_pos (by simpa using Ne.symm h)]
  rfl

theorem readLoc_one {c b : Nat} (hb : b < if c < 8 then 640 else 288) : readLoc c [b] 0 = (0, true) := by
  unfold readLoc wrongUnits codeOutcome
  by_cases hc : c < 8
  · simp [hc, eraseDups_one]
  · rw [if_neg hc] at hb ⊢
    have hw : b / 72 = 0 ∨ b / 72 = 1 ∨ b / 72 = 2 ∨ b / 72 = 3 := by omega
    rcases hw with h | h | h | h <;> simp [h, List.range_succ, hc, eraseDups_one]

theorem readLoc_two {c b d : Nat} (h : if c < 8 then b % 40 / 4 ≠ d % 40 / 4 else b < 288 ∧ b ≠ d ∧ b / 72 = d / 72) :
    ∃ w, readLoc c [b, d] 0 = (w, false) ∧ w ≠ 0 := by
  unfold readLoc wrongUnits codeOutcome
  by_cases hc : c < 8
  · rw [if_pos hc] at h
    exact ⟨255, by simp [hc, eraseDups_two h], by decide⟩
  · rw [if_neg hc] at h ⊢
    obtain ⟨hb, hne, hw⟩ := h
    have hcase : d / 72 = 0 ∨ d / 72 = 1 ∨ d / 72 = 2 ∨ d / 72 = 3 := by omega
    rcases hcase with h | h | h | h <;> rw [h] at hw <;> simp [h, hw, List.range_succ, hc, eraseDups_two hne]

/-! ### Calibration windows (R550, R551) -/

/-- Two states differ in no object, nor in time, mailboxes or what a channel's windows are. -/
def State.sameWindows (s t : State) : Prop :=
  t.objs = s.objs ∧ t.now = s.now ∧ (∀ d, (t.mem.chan d).window = (s.mem.chan d).window ∧ (t.mem.chan d).last = (s.mem.chan d).last) ∧
  ∀ d q, (s.mem.rank d q).owed = 0 → (t.mem.rank d q).owed = 0

theorem sameWindows_refl (s : State) : s.sameWindows s := ⟨rfl, rfl, fun _ => ⟨rfl, rfl⟩, fun _ _ h => h⟩

theorem sameWindows_trans {a b c : State} (h : a.sameWindows b) (k : b.sameWindows c) : a.sameWindows c := by
  obtain ⟨ho, hn, hw, hr⟩ := h
  obtain ⟨ko, kn, kw, kr⟩ := k
  exact ⟨ko.trans ho, kn.trans hn, fun d => ⟨(kw d).1.trans (hw d).1, (kw d).2.trans (hw d).2⟩, fun d q z => kr d q (hr d q z)⟩

theorem sameWindows_foldl {α : Type} {g : State → α → State} (h : ∀ s a, State.sameWindows s (g s a)) (l : List α) (s : State) :
    s.sameWindows (l.foldl g s) := by
  induction l generalizing s with
  | nil => exact sameWindows_refl s
  | cons a l ih => exact sameWindows_trans (h s a) (ih _)

theorem sameWindows_of_same {s t : State} (h : s.sameBut t) : s.sameWindows t := by
  unfold State.sameBut at h
  rw [h]
  exact sameWindows_refl s

/-- A rank's owed refreshes issued in a window. -/
def State.rankServed (s : State) (c r : Nat) : State :=
  if thas s.mem.ranks (c * 4 + r) then (s.refreshRank c r (s.mem.rank c r).owed).updRank c r fun x => { x with owed := 0 } else s

theorem rankServed_mbx (s : State) (c r : Nat) : (s.rankServed c r).mbx = s.mbx := by
  unfold State.rankServed
  split
  · exact (refreshedRank_spec s c r _ _).2.1
  · rfl

theorem rankServed_owed (s : State) (c r : Nat) : ((s.rankServed c r).mem.rank c r).owed = 0 := by
  unfold State.rankServed
  split
  · rw [(refreshedRank_spec s c r _ _).2.2.1]
  next h =>
    have hnone : tget? s.mem.ranks (c * 4 + r) = none := by
      unfold thas at h
      simpa using h
    rw [Mem.rank, tget_absent _ hnone]

theorem rankServed_windows (s : State) (c r : Nat) : s.sameWindows (s.rankServed c r) := by
  have hz := rankServed_owed s c r
  unfold State.rankServed at *
  split at hz
  · have ha := refreshRank_access s c r (s.mem.rank c r).owed
    obtain ⟨hobjs, -, -, hchans⟩ := refreshedRank_spec s c r (s.mem.rank c r).owed fun x => { x with owed := 0 }
    rw [if_pos ‹_›]
    refine ⟨hobjs, (accessOnly_now ha : (s.refreshRank c r (s.mem.rank c r).owed).now = s.now), fun d => ?_, fun d q h => ?_⟩
    · rw [Mem.chan, hchans]
      exact ⟨rfl, rfl⟩
    · by_cases hk : d * 4 + q = c * 4 + r
      · unfold Mem.rank at hz ⊢
        rw [hk]
        exact hz
      · rw [updRank_other _ _ hk, accessOnly_rank ha]
        exact h
  · rw [if_neg ‹_›]
    exact sameWindows_refl s

theorem ranksServed_owed (c : Nat) (l : List Nat) (s : State) {r : Nat} (h : r ∈ l) :
    ((l.foldl (fun s r => s.rankServed c r) s).mem.rank c r).owed = 0 := by
  induction l generalizing s with
  | nil => cases h
  | cons a l ih =>
    obtain rfl | h := List.mem_cons.1 h
    · exact (sameWindows_foldl (fun s r => rankServed_windows s c r) l (s.rankServed c r)).2.2.2 c r (rankServed_owed ..)
    · exact ih _ h

/-- A channel's window opened: its ranks are served, and one has its ZQ calibration. -/
def State.windowOpened (s : State) (c : Nat) : State :=
  (List.range 4).foldl (fun s r => s.rankServed c r)
    (s.updChan c fun x => { x with window := true, last := s.block, zq := if c < 8 then (x.zq + 1) % (fitDimms * fitRanks) else 0 })

/-- A channel's window is open, from the running block on, and its ranks owe nothing. -/
def State.windowOpen (s : State) (c : Nat) : Prop :=
  (s.mem.chan c).window = true ∧ (s.mem.chan c).last = s.block ∧ ∀ r, r < 4 → (s.mem.rank c r).owed = 0

theorem windowOpen_of_same {s t : State} (h : s.sameWindows t) {c : Nat} (hc : s.windowOpen c) : t.windowOpen c := by
  obtain ⟨-, hn, hw, hr⟩ := h
  obtain ⟨h1, h2, h3⟩ := hc
  refine ⟨(hw c).1.trans h1, (hw c).2.trans (h2.trans ?_), fun r hr4 => hr c r (h3 r hr4)⟩
  unfold State.block
  rw [hn]

theorem windowOpened_spec (s : State) (c : Nat) : (s.windowOpened c).objs = s.objs ∧ (s.windowOpened c).mbx = s.mbx ∧
    (s.windowOpened c).windowOpen c ∧ ∀ d, d ≠ c → s.windowOpen d → (s.windowOpened c).windowOpen d := by
  let t := s.updChan c fun x => { x with window := true, last := s.block, zq := if c < 8 then (x.zq + 1) % (fitDimms * fitRanks) else 0 }
  have h : t.sameWindows (s.windowOpened c) := sameWindows_foldl (fun s r => rankServed_windows s c r) _ _
  have hmbx (l : List Nat) (u : State) : (l.foldl (fun s r => s.rankServed c r) u).mbx = u.mbx := by
    induction l generalizing u with
    | nil => rfl
    | cons r l ih => exact (ih _).trans (rankServed_mbx ..)
  obtain ⟨hobjs, hnow, hwin, hrank⟩ := h
  have hblock : (s.windowOpened c).block = s.block := congrArg (· / blockNs) hnow
  have hc : t.mem.chan c = { s.mem.chan c with
      window := true, last := s.block, zq := if c < 8 then ((s.mem.chan c).zq + 1) % (fitDimms * fitRanks) else 0 } := updChan_chan ..
  refine ⟨hobjs, hmbx .., ⟨(hwin c).1.trans (by rw [hc]), (hwin c).2.trans (by rw [hc, hblock]), fun r hr =>
    ranksServed_owed c _ _ (List.mem_range.2 hr)⟩, fun d hd ⟨h1, h2, h3⟩ => ?_⟩
  have hother : t.mem.chan d = s.mem.chan d := updChan_other s _ hd
  exact ⟨(hwin d).1.trans (hother ▸ h1), (hwin d).2.trans (by rw [hother, h2, hblock]), fun r hr => hrank d r (h3 r hr)⟩

theorem sameWindows_block {s t : State} (h : s.sameWindows t) : t.block = s.block := congrArg (· / blockNs) h.2.1

theorem windowOpened_block (s : State) (c : Nat) : (s.windowOpened c).block = s.block :=
  sameWindows_block (s := s.updChan c _) (sameWindows_foldl (fun s r => rankServed_windows s c r) _ _)

/-- The windows of two channels opened one after the other. -/
theorem pairOpened_spec (s : State) (c : Nat) : ((s.windowOpened c).windowOpened (c + 1)).objs = s.objs ∧
    ((s.windowOpened c).windowOpened (c + 1)).mbx = s.mbx ∧
    ∀ e ∈ [c, c + 1], ((s.windowOpened c).windowOpened (c + 1)).windowOpen e := by
  obtain ⟨hobjs, hmbx, hopen, -⟩ := windowOpened_spec s c
  obtain ⟨kobjs, kmbx, kopen, kkeep⟩ := windowOpened_spec (s.windowOpened c) (c + 1)
  refine ⟨kobjs.trans hobjs, kmbx.trans hmbx, fun e he => ?_⟩
  obtain he | he := List.mem_cons.1 he
  · rw [he]
    exact kkeep c (by omega) hopen
  · rw [List.mem_singleton.1 he]
    exact kopen

theorem updChan_windows (s : State) (c : Nat) (f : MemChan → MemChan) (h : ∀ x, (f x).window = x.window ∧ (f x).last = x.last) :
    s.sameWindows (s.updChan c f) := by
  refine ⟨rfl, rfl, fun d => ?_, fun _ _ h => h⟩
  by_cases hd : d = c
  · subst hd
    rw [updChan_chan]
    exact h _
  · rw [updChan_other _ _ hd]
    exact ⟨rfl, rfl⟩

theorem sameWindows_if {s t : State} (p : Prop) [Decidable p] (h : s.sameWindows t) : s.sameWindows (if p then t else s) := by
  split
  · exact h
  · exact sameWindows_refl s

theorem margin_windows (s : State) (c lane st : Nat) : s.sameWindows (s.margin c lane st) := sameWindows_of_same (raiseAll_same ..)

theorem warned_windows (s : State) (c lane : Nat) :
    s.sameWindows ((s.updChan c fun x => { x with warned := x.warned + 1 }).margin c lane 1) :=
  sameWindows_trans (updChan_windows s c (fun x => { x with warned := x.warned + 1 }) fun _ => ⟨rfl, rfl⟩)
    (margin_windows (s.updChan c fun x => { x with warned := x.warned + 1 }) c lane 1)

theorem setLanes_windows (s : State) (f : Mem → Table MemLane) : s.sameWindows (s.updMem fun m => { m with lanes := f m }) :=
  ⟨rfl, rfl, fun _ => ⟨rfl, rfl⟩, fun _ _ h => h⟩

theorem trackLane_windows (s : State) (time chan i : Nat) : s.sameWindows (s.trackLane time chan i) := by
  unfold State.trackLane
  extract_lets key lane x
  split
  extract_lets move narrow past moved y0 back y s1 s2 s3 s4
  have h1 : s.sameWindows s1 := setLanes_windows s _
  have h2 : s1.sameWindows s2 := sameWindows_if _ (updChan_windows s1 chan _ fun _ => ⟨rfl, rfl⟩)
  have h3 : s2.sameWindows s3 := sameWindows_if _ (warned_windows s2 chan lane)
  have h4 : s3.sameWindows s4 := sameWindows_if _ (margin_windows s3 chan lane 2)
  exact sameWindows_trans h1 (sameWindows_trans h2 (sameWindows_trans h3 (sameWindows_trans h4 (sameWindows_if _ (margin_windows s4 chan lane 3)))))

theorem tracked_windows (s : State) (c : Nat) (l : List Nat) :
    s.sameWindows (l.foldl (fun t i => t.trackLane t.now c (16 + i)) s) :=
  sameWindows_foldl (fun t i => trackLane_windows t t.now c (16 + i)) l s

/-- A DDR5 channel's window open, its write delays tracked. -/
def State.windowTracked (s : State) (c : Nat) : State :=
  (List.range 10).foldl (fun t i => t.trackLane t.now c (16 + i)) (s.windowOpened c)

theorem windowTracked_spec (s : State) (c : Nat) : (s.windowTracked c).objs = s.objs ∧ ((s.windowTracked c).mem.chan c).window = true ∧
    ((s.windowTracked c).mem.chan c).last = s.block ∧ ∀ r, r < 4 → ((s.windowTracked c).mem.rank c r).owed = 0 := by
  have h : (s.windowOpened c).sameWindows (s.windowTracked c) := tracked_windows (s.windowOpened c) c (List.range 10)
  have hblock : (s.windowTracked c).block = s.block := (sameWindows_block h).trans (windowOpened_block s c)
  obtain ⟨hobjs, -, hopen, -⟩ := windowOpened_spec s c
  obtain ⟨hwin, hlast, howed⟩ := windowOpen_of_same h hopen
  obtain ⟨kobjs, -, -, -⟩ := h
  exact ⟨kobjs.trans hobjs, hwin, hlast.trans hblock, howed⟩

/-- A DDR5 channel's window: it is opened, and its write delays are tracked. -/
theorem windowStart_ddr {s : State} {c : Nat} (hc : c < 8) (hd : s.mem.ddr = true) : exec (.calibrationWindowStart c) s =
    .next (s.windowTracked c) := by
  have hrun : exec (.calibrationWindowStart c) s = execCalibrationWindowStart c s := rfl
  have hw : windowChans c = [c] := if_pos hc
  rw [hrun, execCalibrationWindowStart, if_neg (by omega), if_neg (by simp [hc, hd]), hw]
  dsimp only [List.foldl_cons, List.foldl_nil]
  rw [if_pos hc]
  rfl

/-- The windows of two pseudo-channels of HBM3. -/
theorem windowStart_hbm {s : State} {c : Nat} (h8 : 8 ≤ c) (hc : c < 40) (hd : s.mem.hbm = true) : exec (.calibrationWindowStart c) s =
    .next ((s.windowOpened (8 + (c - 8) / 2 * 2)).windowOpened (8 + (c - 8) / 2 * 2 + 1)) := by
  have hrun : exec (.calibrationWindowStart c) s = execCalibrationWindowStart c s := rfl
  have hw : windowChans c = [8 + (c - 8) / 2 * 2, 8 + (c - 8) / 2 * 2 + 1] := if_neg (by omega)
  rw [hrun, execCalibrationWindowStart, if_neg (by omega), if_neg (by simp [Nat.not_lt.2 h8, hd]), hw]
  dsimp only [List.foldl_cons, List.foldl_nil]
  rw [if_neg (Nat.not_lt.2 h8)]
  rfl

theorem windowsClosed_spec (l : List Nat) (s : State) {c : Nat} (h : c ∈ l ∨ (s.mem.chan c).window = false) :
    ((l.foldl (fun s c => s.updChan c fun x => { x with window := false }) s).mem.chan c).window = false := by
  induction l generalizing s with
  | nil => exact h.resolve_left List.not_mem_nil
  | cons a l ih =>
    refine ih _ ?_
    by_cases hca : c = a
    · subst hca
      right
      rw [updChan_chan]
    · rw [updChan_other _ _ hca]
      exact h.imp_left fun h => (List.mem_cons.1 h).resolve_left hca

theorem windowsClosed_frame (l : List Nat) (s : State) :
    (l.foldl (fun s c => s.updChan c fun x => { x with window := false }) s).objs = s.objs ∧
    (l.foldl (fun s c => s.updChan c fun x => { x with window := false }) s).mbx = s.mbx ∧
    (l.foldl (fun s c => s.updChan c fun x => { x with window := false }) s).mem.ranks = s.mem.ranks := by
  induction l generalizing s with
  | nil => exact ⟨rfl, rfl, rfl⟩
  | cons a l ih => exact ih _

/-! ### The memory commands (R568 to R570) -/

theorem effMemLayoutSet_sets {r : Req} {s : State} (ht : r.target = 0) (hm : s.mode = .ready ∨ s.mode = .maintenance) (ho : s.objs = [])
    (hs : u8 r.payload 3 % 2 = 1 ∨ s.recorder.survivors = []) (h0 : 8 ≤ u8 r.payload 0) (h0' : u8 r.payload 0 ≤ 16) (h1 : 8 ≤ u8 r.payload 1)
    (h1' : u8 r.payload 1 ≤ 13) (h2 : u8 r.payload 2 ≤ 16) (h3 : u8 r.payload 3 ≤ 1) (hz : zeros r.payload 4 12 = true) :
    effMemLayoutSet r s = .done [] 0 { s with
      mem := { s.mem with g5 := u8 r.payload 0, g3 := u8 r.payload 1, spill := u8 r.payload 2 }
      recorder := { s.recorder with survivors := [] } } := by
  have hmode : (s.mode == .ready || s.mode == .maintenance) = true := by
    rcases hm with h | h <;> simp [h]
  have hsurv : (u8 r.payload 3 % 2 == 1 || s.recorder.survivors.isEmpty) = true := by
    rcases hs with h | h <;> simp [h]
  simp only [effMemLayoutSet, nullTarget_null ht, hmode, ho, List.isEmpty_nil, Bool.and_self, need_true, decide_eq_true h3, Bool.or_true, hsurv,
    decide_eq_true h0, decide_eq_true h0', decide_eq_true h1, decide_eq_true h1', decide_eq_true h2, hz]

theorem effMemPolicySet_waits {r : Req} {s : State} (ht : r.target = 0) (h1 : 8 ≤ u8 r.payload 1) (h1' : u8 r.payload 1 ≤ 16)
    (h2 : u16 r.payload 2 ≤ 1023) (h5 : 1 ≤ u8 r.payload 5) (hz : zeros r.payload 6 10 = true)
    (hk : (u8 r.payload 0 = 1 ∧ 2 ≤ u8 r.payload 4 ∧ u8 r.payload 4 ≤ 16 ∧ u8 r.payload 5 ≤ 168) ∨
      (u8 r.payload 0 = 2 ∧ u8 r.payload 4 = 0 ∧ u8 r.payload 5 ≤ 24)) :
    effMemPolicySet r s = .later [] 0 (s.schedule (.block (s.firstBlock r.mbx)) (r.origin 0) (.memPolicy r.payload)) := by
  unfold effMemPolicySet
  rw [nullTarget_null ht]
  rcases hk with ⟨h0, h4, h4', h5'⟩ | ⟨h0, h4, h5'⟩
  · simp [h0, h1, h1', h2, h4, h4', h5, h5', hz]
  · simp [h0, h1, h1', h2, h4, h5, h5', hz]

theorem effMemStatusGet_answers {r : Req} {s : State} (ht : r.target = 0) (hz : zeros r.payload 2 2 = true)
    (hk : (u8 r.payload 0 = 1 ∧ u8 r.payload 1 < 8) ∨ (u8 r.payload 0 = 2 ∧ u8 r.payload 1 < 16)) :
    ∃ p : Bytes, effMemStatusGet r s = .done p 0 s ∧ p.length = 64 ∧ p.take 2 = le 1 (u8 r.payload 0) ++ le 1 (u8 r.payload 1) := by
  have hunit : ((u8 r.payload 0 == 1 || u8 r.payload 0 == 2) && decide (u8 r.payload 1 < (if u8 r.payload 0 == 1 then 8 else 16))) = true := by
    rcases hk with ⟨h0, h1⟩ | ⟨h0, h1⟩ <;> simp [h0, h1]
  unfold effMemStatusGet
  simp only [nullTarget_null ht, hunit, hz, need_true]
  refine ⟨_, rfl, ?_, ?_⟩
  · simp only [List.length_append, le_length]
  · simp only [List.append_assoc]
    rw [← List.append_assoc (le 1 (u8 r.payload 0))]
    exact List.take_left' (by simp only [List.length_append, le_length])

/-! ### Idle pages and written-back locations (R542, R564) -/

theorem tget?_tdel_other {α : Type} (t : Table α) {j k : Nat} (h : j ≠ k) : tget? (tdel t k) j = tget? t j := by
  induction t with
  | nil => rfl
  | cons e t ih =>
    obtain ⟨i, v⟩ := e
    by_cases hi : i = k
    · subst hi
      simp_all [tdel, tget?, Ne.symm h]
    · simp_all [tdel, tget?]

theorem precharge_closes (s : State) (k : Nat) : thas (s.precharge k).mem.rows k = false ∧
    ∀ j, j ≠ k → tget? (s.precharge k).mem.rows j = tget? s.mem.rows j := by
  refine ⟨?_, fun j hj => tget?_tdel_other _ hj⟩
  rw [thas]
  show (tget? (tdel s.mem.rows k) k).isSome = false
  rw [tget?_tdel_same]
  rfl

theorem pageIdle_run {c b : Nat} (s : State) (h : c < 8 ∧ b < 256 ∨ 8 ≤ c ∧ c < 40 ∧ b < 16) :
    exec (.pageIdleTimeout c b) s = .next (if s.idleOver c b then s.precharge (c * 1024 + b) else s) := by
  have hrun : exec (.pageIdleTimeout c b) s = execPageIdleTimeout c b s := rfl
  rw [hrun, execPageIdleTimeout, if_pos h]

theorem writeBack_run {c l : Nat} (s : State) (hc : c < 40) : exec (.correctedWriteBack c l) s =
    .next (if s.mem.fixes.contains (c, l) then (s.touch c (l * locBytes c)).updMem fun m => m.fixLoc c l else s) := by
  have hrun : exec (.correctedWriteBack c l) s = execCorrectedWriteBack c l s := rfl
  rw [hrun, execCorrectedWriteBack, if_neg (by omega)]
  split <;> rfl

theorem scrubbed_counts (x : MemChan) (n : Nat) : (x.scrubbed n).corrected = x.corrected ∧ (x.scrubbed n).uncorrected = x.uncorrected := by
  unfold MemChan.scrubbed
  split <;> exact ⟨rfl, rfl⟩

/-! ### A refresh that falls due (R546, R551) -/

theorem refreshDue_held {s : State} {c r : Nat} (hok : rankOk c r = true) (hb : (s.mem.rank c r).burst = true) (hw : (s.mem.chan c).window = false) :
    exec (.refreshDue c r) s = if (s.mem.rank c r).owed < 4 then
      .next ((s.updRank c r fun x => { x with owed := x.owed + 1 }).updChan c fun x =>
        { x with mostOwed := max x.mostOwed ((s.mem.rank c r).owed + 1) })
    else .next ((s.refreshRank c r 1).updChan c fun x => { x with forced := x.forced + 1 }) := by
  have hrun : exec (.refreshDue c r) s = execRefreshDue c r s := rfl
  rw [hrun, execRefreshDue, if_neg (by simp [hok])]
  exact if_pos (by simp [hb, hw])

theorem refreshDue_issued {s : State} {c r : Nat} (hok : rankOk c r = true)
    (h : (s.mem.rank c r).burst = false ∨ (s.mem.chan c).window = true) :
    exec (.refreshDue c r) s = .next ((s.refreshRank c r ((s.mem.rank c r).owed + 1)).updRank c r fun x => { x with owed := 0 }) := by
  have hrun : exec (.refreshDue c r) s = execRefreshDue c r s := rfl
  rw [hrun, execRefreshDue, if_neg (by simp [hok])]
  refine if_neg ?_
  rcases h with h | h <;> simp [h]

/-! ### The scrubber's step over what it finds (R561, R562, R564) -/

theorem scrub_good {s : State} {c : Nat} (hc : c < 40) (hup : if c < 8 then s.mem.ddr = true else s.mem.hbm = true)
    (hf : s.mem.found c (s.mem.chan c).scrub = (0, false)) :
    ∃ t : State, exec (.scrubStep c []) s = .next t ∧ t.objs = s.objs ∧ t.mbx = s.mbx ∧ t.mem.fixes = s.mem.fixes ∧
      (t.mem.chan c).corrected = (s.mem.chan c).corrected ∧ (t.mem.chan c).uncorrected = (s.mem.chan c).uncorrected ∧
      (if (s.mem.chan c).scrub + 1 < locations c then (t.mem.chan c).scrub = (s.mem.chan c).scrub + 1
       else (t.mem.chan c).scrub = 0 ∧ (t.mem.chan c).passes = (s.mem.chan c).passes + 1) := by
  obtain ⟨hobjs, hmbx, hfixes, hchan⟩ := scrubAt_spec s c []
  obtain ⟨hcor, hunc⟩ := scrubbed_counts (s.mem.chan c) (locations c)
  refine ⟨_, by rw [scrubStep_eq hc hup, readOne_good ((scrubAt_found_old s c _).trans hf)], hobjs, hmbx, hfixes, ?_, ?_, ?_⟩
  · rw [hchan, hcor]
  · rw [hchan, hunc]
  · rw [hchan]
    unfold MemChan.scrubbed
    split <;> simp

theorem scrub_corrects {s : State} {c b : Nat} (hc : c < 40) (hup : if c < 8 then s.mem.ddr = true else s.mem.hbm = true)
    (he : tget? s.mem.errs (locKey c (s.mem.chan c).scrub) = none) (hd : tget? s.mem.dead (locKey c (s.mem.chan c).scrub) = none)
    (hb : b < if c < 8 then 640 else 288) :
    ∃ t : State, exec (.scrubStep c [b]) s = .next t ∧ t.objs = s.objs ∧ t.mem.fixes = s.mem.fixes ++ [(c, (s.mem.chan c).scrub)] ∧
      (t.mem.chan c).corrected = (s.mem.chan c).corrected + 1 ∧ (t.mem.chan c).uncorrected = (s.mem.chan c).uncorrected := by
  obtain ⟨hobjs, -, hfixes, hchan⟩ := scrubAt_spec s c [b]
  obtain ⟨hcor, hunc⟩ := scrubbed_counts (s.mem.chan c) (locations c)
  have hfound := (scrubAt_found_new (List.cons_ne_nil b []) he hd).trans (readLoc_one hb)
  obtain ⟨kobjs, kfixes, kcor, kunc⟩ := corrected_spec
    ((s.scrubAt c [b]).updMem fun m => { m with fixes := m.fixes ++ [(c, (s.mem.chan c).scrub)] }) c (s.mem.chan c).scrub
  refine ⟨_, by rw [scrubStep_eq hc hup, readOne_corrects hfound], kobjs.trans hobjs, ?_, ?_, ?_⟩
  · exact kfixes.trans (congrArg (· ++ [(c, (s.mem.chan c).scrub)]) hfixes)
  · exact kcor.trans (congrArg (· + 1) ((congrArg MemChan.corrected hchan).trans hcor))
  · exact kunc.trans ((congrArg MemChan.uncorrected hchan).trans hunc)

theorem scrub_poisons {s : State} {c b d : Nat} (hc : c < 40) (hup : if c < 8 then s.mem.ddr = true else s.mem.hbm = true)
    (he : tget? s.mem.errs (locKey c (s.mem.chan c).scrub) = none) (hd : tget? s.mem.dead (locKey c (s.mem.chan c).scrub) = none)
    (hb : if c < 8 then b % 40 / 4 ≠ d % 40 / 4 else b < 288 ∧ b ≠ d ∧ b / 72 = d / 72) :
    ∃ t : State, exec (.scrubStep c [b, d]) s = .next t ∧ t.objs = s.objs ∧ t.mem.fixes = s.mem.fixes ∧
      (t.mem.chan c).corrected = (s.mem.chan c).corrected ∧ (t.mem.chan c).uncorrected = (s.mem.chan c).uncorrected + 1 := by
  obtain ⟨hobjs, -, hfixes, hchan⟩ := scrubAt_spec s c [b, d]
  obtain ⟨hcor, hunc⟩ := scrubbed_counts (s.mem.chan c) (locations c)
  obtain ⟨w, hread, hw⟩ := readLoc_two hb
  have hfound := scrubAt_found_new (errs := [b, d]) (List.cons_ne_nil b [d]) he hd
  have hne : b ≠ d := by
    split at hb
    · exact fun h => hb (by rw [h])
    · exact hb.2.1
  rw [eraseDups_two hne, hread] at hfound
  obtain ⟨kobjs, kfixes, kcor, kunc⟩ := uncorrected_spec (s.scrubAt c [b, d]) c 3 (s.mem.chan c).scrub
  refine ⟨_, by rw [scrubStep_eq hc hup, readOne_poisons hfound hw], kobjs.trans hobjs, kfixes.trans hfixes, ?_, ?_⟩
  · exact kcor.trans ((congrArg MemChan.corrected hchan).trans hcor)
  · exact kunc.trans (congrArg (· + 1) ((congrArg MemChan.uncorrected hchan).trans hunc))

theorem writeBack_done {s : State} {c l : Nat} (hc : c < 40) (hm : (c, l) ∈ s.mem.fixes) :
    ∃ t : State, exec (.correctedWriteBack c l) s = .next t ∧ t.objs = s.objs ∧ t.mbx = s.mbx ∧ (c, l) ∉ t.mem.fixes ∧
      ∀ e ∈ s.mem.fixes, e ≠ (c, l) → e ∈ t.mem.fixes := by
  have ha := touch_access s c (l * locBytes c)
  have hfixes : ((s.touch c (l * locBytes c)).mem.fixLoc c l).fixes = s.mem.fixes.filter fun e => e != (c, l) :=
    congrArg (List.filter fun e => e != (c, l)) (accessOnly_fixes ha)
  refine ⟨_, (writeBack_run s hc).trans (congrArg Host.Outcome.next (if_pos (by simpa using hm))),
    (accessOnly_objs ha : (s.touch c (l * locBytes c)).objs = _),
    (accessOnly_mbx ha : (s.touch c (l * locBytes c)).mbx = _), fun h => ?_, fun e he hne => ?_⟩
  · exact absurd (hfixes ▸ h : (c, l) ∈ s.mem.fixes.filter fun e => e != (c, l)) (by simp)
  · exact hfixes ▸ List.mem_filter.2 ⟨he, by simpa using hne⟩

/-- Settles O44: a refresh owed, forced or issued (`refreshedRank_spec`), the windows (`windowOpened_spec`), the check codes over what the
scrubber finds (`readLoc_one`, `readLoc_two`), and each memory command by what its own part answers. -/
theorem memoryComplete : Obligations.MemoryComplete := by
  unfold Obligations.MemoryComplete
  refine ⟨fun r s s1 h ht hl hm ho hs h0 h0' h1 h1' h2 h3 hz => ?_, fun r s s1 h ht hl h1 h1' h2 h5 hz hk => ?_, fun r s s1 h ht hl hz hk => ?_,
    fun c r s hok hb hw ho => ?_, fun c r s hok hb hw ho => ?_, fun c r s hok hb => ?_, fun c r s hok hb hg => ?_, fun c r s hok hb hg => ?_,
    fun c b s hcb => ⟨fun hi => ?_, fun hi => ?_⟩, fun c s hc hup hf => ?_, fun c b s hc hup he hd hb => ?_, fun c b d s hc hup he hd hb => ?_,
    fun c l s hc hn => ?_, fun c l s hc hm => ?_, fun c s hc hd => ?_, fun c s h8 hc hd => ?_, fun c s hc => ?_⟩
  · exact exec_answered h (by rw [hl]; rfl) (effMemLayoutSet_sets ht hm ho hs h0 h0' h1 h1' h2 h3 hz)
  · exact exec_accepted h (by rw [hl]; rfl) (effMemPolicySet_waits ht h1 h1' h2 h5 hz hk)
  · obtain ⟨p, hp, hlen, htake⟩ := effMemStatusGet_answers (s := s1) ht hz hk
    exact ⟨p, exec_answered h (by rw [hl]; rfl) hp, hlen, htake⟩
  · have hrank := updRank_rank s c r fun x => { x with owed := x.owed + 1 }
    have hchan : (((s.updRank c r fun x => { x with owed := x.owed + 1 }).updChan c fun x =>
        { x with mostOwed := max x.mostOwed ((s.mem.rank c r).owed + 1) }).mem.chan c).forced = (s.mem.chan c).forced :=
      (congrArg MemChan.forced (updChan_chan _ c _)).trans rfl
    exact ⟨_, (refreshDue_held hok hb hw).trans (if_pos ho), rfl, rfl, congrArg RankRun.owed hrank, (congrArg RankRun.burst hrank).trans hb,
      hchan⟩
  · exact (refreshDue_held hok hb hw).trans (if_neg (Nat.not_lt.2 ho))
  · obtain ⟨hobjs, hmbx, hrank, -⟩ := refreshedRank_spec s c r ((s.mem.rank c r).owed + 1) fun x => { x with owed := 0 }
    exact ⟨_, refreshDue_issued hok hb, hobjs, hmbx, refreshRank_out s c r (Nat.succ_ne_zero _), hrank⟩
  · obtain ⟨hobjs, hmbx, hrank, -⟩ := refreshedRank_spec s c r (s.mem.rank c r).owed fun _ => { owed := 0, burst := false }
    have hrun : exec (.realtimeBurstEnd c r) s = execRealtimeBurstEnd c r s := rfl
    exact ⟨_, by rw [hrun, execRealtimeBurstEnd, hok, hb, hg]; rfl, hobjs, hmbx, hrank⟩
  · have hrun : exec (.realtimeBurstEnd c r) s = execRealtimeBurstEnd c r s := rfl
    rw [hrun, execRealtimeBurstEnd, hok, hb, hg]
    rfl
  · obtain ⟨hclosed, hothers⟩ := precharge_closes s (c * 1024 + b)
    exact ⟨_, (pageIdle_run s hcb).trans (congrArg Host.Outcome.next (if_pos hi)), rfl, rfl, hclosed, hothers⟩
  · rw [pageIdle_run s hcb, hi]
    rfl
  · exact scrub_good hc hup hf
  · exact scrub_corrects hc hup he hd hb
  · exact scrub_poisons hc hup he hd hb
  · rw [writeBack_run s hc, if_neg (by simpa using hn)]
  · exact writeBack_done hc hm
  · obtain ⟨hobjs, h1, h2, h3⟩ := windowTracked_spec s c
    exact ⟨_, windowStart_ddr hc hd, hobjs, h1, h2, h3⟩
  · obtain ⟨hobjs, hmbx, hopen⟩ := pairOpened_spec s (8 + (c - 8) / 2 * 2)
    refine ⟨_, windowStart_hbm h8 hc hd, hobjs, hmbx, fun e he => ?_⟩
    rw [windowChans, if_neg (by omega)] at he
    obtain ⟨hwin, -, howed⟩ := hopen e he
    exact ⟨hwin, howed 0 (by omega)⟩
  · have hrun : exec (.calibrationWindowEnd c) s = execCalibrationWindowEnd c s := rfl
    obtain ⟨hobjs, hmbx, hranks⟩ := windowsClosed_frame (windowChans c) s
    exact ⟨_, by rw [hrun, execCalibrationWindowEnd, if_neg (by omega)], hobjs, hmbx, hranks, fun e he => windowsClosed_spec _ s (.inl he)⟩

end Sys2Proof.Machine
end

section
/-!
PROOFS. The time unit (chapter 18): its commands, pulses and captures.
-/

namespace Sys2Proof.Machine

/-! ### The active domain's loss -/

theorem timeAlarm_spec (s : State) (kind dom : Nat) : (s.timeAlarm kind dom).objs = s.objs ∧ (s.timeAlarm kind dom).now = s.now ∧
    (s.timeAlarm kind dom).quartz.doms = s.quartz.doms := by
  unfold State.timeAlarm
  extract_lets k due
  split
  · rw [raiseAll_same]
    exact ⟨rfl, rfl, rfl⟩
  · exact ⟨rfl, rfl, rfl⟩

theorem setServo_same (s : State) (st : Nat) (tell : Bool) :
    (s.updQuartz fun q => { q with servo := st, below := 0, above := 0 }).sameBut (s.setServo st tell) := by
  unfold State.setServo
  dsimp only
  split
  · exact raiseAll_same ..
  · rfl

theorem timeCheck_spec (s : State) : s.timeCheck.objs = s.objs ∧ s.timeCheck.now = s.now ∧ s.timeCheck.quartz.doms = s.quartz.doms := by
  unfold State.timeCheck
  split
  · exact ⟨rfl, rfl, rfl⟩
  · dsimp only
    split
    · exact ⟨rfl, rfl, rfl⟩
    · split
      · exact ⟨rfl, rfl, rfl⟩
      · split
        · rw [(timeAlarm_spec ..).1, (timeAlarm_spec ..).2.1, (timeAlarm_spec ..).2.2, setServo_same]
          exact ⟨rfl, rfl, rfl⟩
        · exact ⟨rfl, rfl, rfl⟩

theorem updDom_other (s : State) {d e : Nat} (f : TimeDomain → TimeDomain) (h : e ≠ d) : (s.updDom d f).dom e = s.dom e :=
  tget_tset_other _ _ _ h

/-! ### The time commands -/

theorem length_padTo (n : Nat) (b : Bytes) : (padTo n b).length = n := by
  simp only [padTo, List.length_take, List.length_append, List.length_replicate]
  omega

theorem status_length (x : TimeDomain) : x.status.length = 24 := by
  simp only [TimeDomain.status, List.length_append, le_length, length_padTo]

theorem timeStatus_length (s : State) : s.timeStatus.length = 64 := by
  simp only [State.timeStatus, List.length_append, le_length, status_length]

theorem effTimeDomainSet_sets {r : Req} {s : State} (ht : r.target = 0) (hd : u8 r.payload 0 ≤ 1) (hok : s.domainSetOk r.payload = true) :
    effTimeDomainSet r s = .done [] 0 (s.updDom (u8 r.payload 0) fun x => { TimeDomain.init with
      cfg := r.payload, st := u8 r.payload 1 % 2, reqSeq := x.reqSeq }).timeCheck := by
  simp only [effTimeDomainSet, nullTarget_null ht, tgt_null ht, decide_eq_true hd, hok, need_true]

theorem effTimeServoSet_waits {r : Req} (s : State) (ht : r.target = 0) (h0 : 1 ≤ u16 r.payload 0) (h0' : u16 r.payload 0 ≤ 255)
    (h2 : u16 r.payload 2 ≤ 255) (hz : zeros r.payload 4 4 = true) :
    effTimeServoSet r s = .later [] 0 ((s.updQuartz fun q => { q with pendK := some (u16 r.payload 0, u16 r.payload 2) }).schedule
      (.update 3) (r.origin 0) .applied) := by
  simp only [effTimeServoSet, nullTarget_null ht, tgt_null ht, decide_eq_true h0, decide_eq_true h0', decide_eq_true h2, hz, Bool.and_self, need_true]

theorem effTimeSelect_waits {r : Req} {s : State} (ht : r.target = 0) (hd : u8 r.payload 0 ≤ 1)
    (hrole : s.role ≠ .cascadeMember ∨ s.quartz.active ≠ some 2) (htr : s.tracking (u8 r.payload 0) = true) (h1 : u8 r.payload 1 ≤ 1)
    (hz : zeros r.payload 2 2 = true) :
    effTimeSelect r s = .later [] 0 ((s.updQuartz fun q => { q with sel := some (u8 r.payload 0, u8 r.payload 1 == 1) }).schedule
      (.update (u8 r.payload 0)) (r.origin 0) .applied) := by
  have hfree : (!(s.role == .cascadeMember && s.quartz.active == some 2)) = true := by
    rcases hrole with h | h <;> simp [h]
  simp only [effTimeSelect, nullTarget_null ht, tgt_null ht, decide_eq_true hd, hfree, htr, decide_eq_true h1, hz, Bool.and_self, need_true]

theorem effTimeStep_steps {r : Req} {s : State} (ht : r.target = 0) (hm : s.mode = .ready ∨ s.mode = .maintenance)
    (h8 : u32 r.payload 8 < 1000000000) (hz : zeros r.payload 12 4 = true) :
    effTimeStep r s = .done [] 0 ((s.stepTime (fld r.payload 0 6 * 1000000000 + u32 r.payload 8) (u16 r.payload 6)).setServo
      (if s.quartz.active.isSome then 1 else 0) false) := by
  have hmode : (s.mode == .ready || s.mode == .maintenance) = true := by
    rcases hm with h | h <;> simp [h]
  simp only [effTimeStep, nullTarget_null ht, tgt_null ht, hmode, decide_eq_true h8, hz, Bool.and_self, need_true]
  rfl

theorem stepped_spec (s : State) (ns frac st : Nat) :
    ((s.stepTime ns frac).setServo st false).now = ns ∧ ((s.stepTime ns frac).setServo st false).nowFrac = frac ∧
    ((s.stepTime ns frac).setServo st false).objs = s.objs ∧ ((s.stepTime ns frac).setServo st false).quartz.servo = st ∧
    ((s.stepTime ns frac).setServo st false).quartz.due = (ns % 2000000 == 0 && frac == 0) := ⟨rfl, rfl, rfl, rfl, rfl⟩

theorem effTimeCaptureSet_selects {r : Req} (s : State) (ht : r.target = 0) (h0 : u8 r.payload 0 ≤ 3) (h1 : u8 r.payload 1 ≤ 3)
    (hz : zeros r.payload 2 2 = true) :
    effTimeCaptureSet r s = .done [] 0 (s.updQuartz fun q => { q with edges := tset q.edges (u8 r.payload 0) (u8 r.payload 1) }) := by
  simp only [effTimeCaptureSet, nullTarget_null ht, tgt_null ht, decide_eq_true h0, decide_eq_true h1, hz, Bool.and_self, need_true]

/-! ### Pulses (R589 to R591) -/

theorem drivePps_out (s : State) (n : Nat) : s.drivePps n = { s with out := (s.drivePps n).out } := by
  unfold State.drivePps
  split <;> rfl

/-- The pulse's pin driven, where it was asked for, changes outputs only. -/
theorem driven_spec (s : State) (b : Bool) (n : Nat) : (if b then s.drivePps n else s).objs = s.objs ∧
    (if b then s.drivePps n else s).pulse n = s.pulse n ∧ (b = false → (if b then s.drivePps n else s).out = s.out) := by
  cases b
  · exact ⟨rfl, rfl, fun _ => rfl⟩
  · rw [if_pos rfl, drivePps_out]
    exact ⟨rfl, rfl, fun h => by cases h⟩

/-- The states in which a program can be armed, and those in which its next edge comes. -/
theorem armPulse_ready {s : State} {n : Nat} (hr : s.mode ≠ .reset) (hh : s.mode ≠ .halt) (ha : (s.pulse n).armed = false)
    (hok : (s.pulse n).ok = true) : ((s.pulse n).armed || !(s.pulse n).ok || s.mode == .reset || s.mode == .halt) = false := by
  simp [ha, hok, hr, hh]

theorem pulseEdge_ready {s : State} {n : Nat} (hr : s.mode ≠ .reset) (hh : s.mode ≠ .halt) (ha : (s.pulse n).armed = true) :
    (!(s.pulse n).armed || s.mode == .reset || s.mode == .halt) = false := by
  simp [ha, hr, hh]

/-- The next edge of a pulse that is not open. -/
def State.pulseOpens (s : State) (n : Nat) : State :=
  (s.at ((s.pulse n).rise (s.pulse n).k)).updPulse n fun x => { x with opened := true, done := (x.done + 1) % 2 ^ 32 }

/-- The next edge of an open pulse. -/
def State.pulseCloses (s : State) (n : Nat) : State :=
  (s.at ((s.pulse n).fall (s.pulse n).k)).updPulse n fun x => { x with
    opened := false
    armed := !((s.pulse n).period == 0 || ((s.pulse n).count != 0 && decide ((s.pulse n).count ≤ (s.pulse n).done)))
    k := x.k + 1 }

theorem pulseEdge_opens {s : State} {n : Nat} (hn : n < 4) (hr : s.mode ≠ .reset) (hh : s.mode ≠ .halt) (ha : (s.pulse n).armed = true)
    (ho : (s.pulse n).opened = false) : exec (.pulseEdge n) s = .next ((s.pulseOpens n).drivePps n) := by
  have hrun : exec (.pulseEdge n) s = execPulseEdge n s := rfl
  rw [hrun, execPulseEdge, if_neg (by omega), State.pulseEdge, if_neg (by simp [pulseEdge_ready hr hh ha]), if_neg (by simp [ho])]
  rfl

theorem pulseEdge_closes {s : State} {n : Nat} (hn : n < 4) (hr : s.mode ≠ .reset) (hh : s.mode ≠ .halt) (ha : (s.pulse n).armed = true)
    (ho : (s.pulse n).opened = true) : exec (.pulseEdge n) s = .next ((s.pulseCloses n).drivePps n) := by
  have hrun : exec (.pulseEdge n) s = execPulseEdge n s := rfl
  rw [hrun, execPulseEdge, if_neg (by omega), State.pulseEdge, if_neg (by simp [pulseEdge_ready hr hh ha]), if_pos ho]
  rfl

theorem at_quartz (s : State) (t : Nat) : (s.at t).quartz = s.quartz := by
  unfold State.at
  split <;> rfl

theorem at_pins (s : State) (t : Nat) : (s.at t).pins = s.pins := by
  unfold State.at
  split <;> rfl

theorem at_pulse (s : State) (t n : Nat) : (s.at t).pulse n = s.pulse n := by
  rw [State.pulse, at_quartz, State.pulse]

theorem at_max (s : State) (t : Nat) : (s.at t).now = max s.now t := by
  unfold State.at
  split
  · exact (Nat.max_eq_right (Nat.le_of_lt ‹_›)).symm
  · exact (Nat.max_eq_left (Nat.le_of_not_lt ‹_›)).symm

/-- What an edge at `t` leaves of the state, and its pulse. -/
theorem edge_spec {s : State} {t : Nat} (h : s.now ≤ t) (n : Nat) (f : Pulse → Pulse) :
    (((s.at t).updPulse n f).drivePps n).objs = s.objs ∧ (((s.at t).updPulse n f).drivePps n).now = t ∧
    (((s.at t).updPulse n f).drivePps n).pulse n = f (s.pulse n) := by
  have hpulse : ((s.at t).updPulse n f).pulse n = f (s.pulse n) := by rw [updPulse_pulse, at_pulse]
  rw [drivePps_out]
  exact ⟨at_objs s t, at_now h, hpulse⟩

theorem edge_out {s : State} {n : Nat} (happ : s.pins.applied = true) (hoe : s.pins.ppsOe.getLsbD n = true) (t : Nat) (f : Pulse → Pulse) :
    (((s.at t).updPulse n f).drivePps n).out = .pin 1 n (f (s.pulse n)).level :: s.out := by
  have hpins : ((s.at t).updPulse n f).pins = s.pins := at_pins s t
  have hout : ((s.at t).updPulse n f).out = s.out := at_out s t
  rw [State.drivePps, if_pos (by simp [hpins, happ, hoe]), updPulse_pulse, at_pulse]
  exact congrArg (Out.pin 1 n (f (s.pulse n)).level :: ·) hout

/-! ### Captures (R592) -/

/-- A pin selects an edge. -/
def State.selects (s : State) (pin : Nat) (rising : Bool) : Prop :=
  if rising then tget 0 s.quartz.edges pin % 2 = 1 else tget 0 s.quartz.edges pin / 2 % 2 = 1

/-- An edge put among the captures that wait, in the order of their times and pins. -/
def State.captured (s : State) (pin t : Nat) (rising : Bool) : State :=
  s.updQuartz fun q => { q with
    caps := (q.caps.takeWhile fun c => decide (c.2.2.1 < t ∨ c.2.2.1 = t ∧ c.1 ≤ pin)) ++ (pin, (if rising then 1 else 2), t, s.nowFrac) ::
      q.caps.drop (q.caps.takeWhile fun c => decide (c.2.2.1 < t ∨ c.2.2.1 = t ∧ c.1 ≤ pin)).length }

theorem captured_mem (s : State) (pin t : Nat) (rising : Bool) : (pin, (if rising then 1 else 2), t, s.nowFrac) ∈ (s.captured pin t rising).quartz.caps :=
  List.mem_append_right _ (List.mem_cons_self ..)

theorem capture_selected {s : State} {pin : Nat} {rising : Bool} (h : s.selects pin rising)
    (hroom : (s.quartz.caps.filter fun c => c.1 == pin).length < 64) (t : Nat) : s.capture pin t rising = (s.captured pin t rising).tellCaptures := by
  unfold State.selects at h
  unfold State.capture
  dsimp only
  rw [if_neg (by cases rising <;> simp_all), if_neg (by omega)]
  rfl

theorem capture_full {s : State} {pin : Nat} {rising : Bool} (h : s.selects pin rising)
    (hfull : 64 ≤ (s.quartz.caps.filter fun c => c.1 == pin).length) (t : Nat) : s.capture pin t rising =
    s.updQuartz fun q => { q with dropped := tset q.dropped pin (tget 0 q.dropped pin + 1) } := by
  unfold State.selects at h
  unfold State.capture
  dsimp only
  rw [if_neg (by cases rising <;> simp_all), if_pos hfull]

theorem tsInEdge_run {pin : Nat} (hp : pin < 4) (time : Nat) (rising : Bool) (s : State) :
    exec (.tsInEdge pin time rising) s = .next ((s.at time).capture pin (time / 2 * 2) rising) := by
  have hrun : exec (.tsInEdge pin time rising) s = execTsInEdge pin time rising s := rfl
  rw [hrun, execTsInEdge, if_neg (by omega)]

/-- One capture written as TimeCapture. -/
def State.captureTold (s : State) (c : Nat × Nat × Nat × Nat) : State :=
  (s.updQuartz fun q => { q with dropped := tset q.dropped c.1 0 }).raiseAll 0xF802
    (le 1 c.1 ++ le 1 c.2.1 ++ le 2 (min (tget 0 s.quartz.dropped c.1) 0xFFFF) ++ le 8 0 ++ timeValue c.2.2.1 c.2.2.2)

theorem capturesTold_spec (l : List (Nat × Nat × Nat × Nat)) (s : State) : (l.foldl State.captureTold s).objs = s.objs ∧
    (l.foldl State.captureTold s).now = s.now ∧ (l.foldl State.captureTold s).quartz.caps = s.quartz.caps := by
  induction l generalizing s with
  | nil => exact ⟨rfl, rfl, rfl⟩
  | cons c l ih =>
    obtain ⟨ho, hn, hc⟩ := ih (s.captureTold c)
    rw [List.foldl_cons, ho, hn, hc, State.captureTold, raiseAll_same]
    exact ⟨rfl, rfl, rfl⟩

theorem tellCaptures_closed {s : State} (h : s.serving = false) : s.tellCaptures = s := by
  unfold State.tellCaptures
  rw [h]
  rfl

theorem tellCaptures_spec (s : State) : s.tellCaptures.objs = s.objs ∧ s.tellCaptures.now = s.now ∧
    (s.serving = true → s.tellCaptures.quartz.caps = []) := by
  by_cases h : s.serving = true
  · have heq : s.tellCaptures = s.quartz.caps.foldl State.captureTold (s.updQuartz fun q => { q with caps := [] }) := by
      unfold State.tellCaptures
      rw [h]
      rfl
    rw [heq]
    obtain ⟨ho, hn, hc⟩ := capturesTold_spec s.quartz.caps (s.updQuartz fun q => { q with caps := [] })
    exact ⟨ho, hn, fun _ => hc⟩
  · rw [tellCaptures_closed (by simpa using h)]
    exact ⟨rfl, rfl, fun h' => absurd h' h⟩

theorem at_serving (s : State) (t : Nat) : (s.at t).serving = s.serving := by rw [State.serving, at_sys, State.serving]

theorem at_selects {s : State} {pin : Nat} {rising : Bool} (h : s.selects pin rising) (t : Nat) : (s.at t).selects pin rising := by
  unfold State.selects at *
  rw [at_quartz]
  exact h

/-- Settles O45: each command by what its own part answers; pulses by their next edge (`pulseEdge_opens`, `pulseEdge_closes`), and captures
by where an edge of a selected pin goes (`capture_selected`, `tellCaptures_spec`). -/
theorem timeCommandsComplete : Obligations.TimeCommandsComplete := by
  unfold Obligations.TimeCommandsComplete
  refine ⟨fun r s s1 h ht hl hd hok => ?_, fun r s s1 h ht hl h0 h0' h2 hz => ?_, fun r s s1 h ht hl hd hrole htr h1 hz => ?_,
    fun r s s1 h ht hl hm h8 hz => ?_, fun r s s1 h ht hl => ⟨?_, timeStatus_length s1⟩, fun r s s1 h ht hl h0 h1 hz => ?_, fun s => rfl,
    fun n s hn hr hh ha hok hp hlate => ?_, fun n s hn hr hh ha hok hp => ?_, fun n s hn ha => ?_, fun n s hn => ?_,
    fun n s hn hr hh ha ho hnow => ?_, fun n s hn hr hh ha ho hnow => ?_, fun pin time rising s hp hserv hnow hcaps hsel => ?_,
    fun pin time rising s hp hsel hroom => ?_, fun pin time rising s hp hsel hfull => ?_, fun pin time rising s hp hnow hsel => ?_⟩
  · obtain ⟨hobjs, hnow, hdoms⟩ := timeCheck_spec (s1.updDom (u8 r.payload 0) fun x => { TimeDomain.init with
      cfg := r.payload, st := u8 r.payload 1 % 2, reqSeq := x.reqSeq })
    refine ⟨_, exec_answered h (by rw [hl]; rfl) (effTimeDomainSet_sets ht hd hok), hobjs, hnow, ?_, fun e he => ?_⟩
    · rw [State.dom, hdoms]
      exact updDom_dom ..
    · rw [State.dom, hdoms]
      exact updDom_other s1 _ he
  · exact exec_accepted h (by rw [hl]; rfl) (effTimeServoSet_waits s1 ht h0 h0' h2 hz)
  · exact exec_accepted h (by rw [hl]; rfl) (effTimeSelect_waits ht hd hrole htr h1 hz)
  · exact ⟨_, exec_answered h (by rw [hl]; rfl) (effTimeStep_steps ht hm h8 hz), stepped_spec ..⟩
  · exact exec_answered h (by rw [hl]; rfl) (by rw [effTimeStatusGet, nullTarget_null ht, tgt_null ht])
  · exact exec_answered h (by rw [hl]; rfl) (effTimeCaptureSet_selects s1 ht h0 h1 hz)
  · have hrun : exec (.timePulseArm n) s = execTimePulseArm n s := rfl
    rw [hrun, execTimePulseArm, if_neg (by omega), State.armPulse, if_neg (by simp [armPulse_ready hr hh ha hok]), if_pos ⟨hp, hlate⟩]
  · have hrun : exec (.timePulseArm n) s = execTimePulseArm n s := rfl
    obtain ⟨hobjs, hpulse, hout⟩ := driven_spec (s.updPulse n fun x => { x with armed := true, opened := false, done := 0, k := x.after s.now })
      (s.pulse n).opened n
    rw [hrun, execTimePulseArm, if_neg (by omega), State.armPulse, if_neg (by simp [armPulse_ready hr hh ha hok]), if_neg (by omega)]
    refine ⟨_, rfl, hobjs, hout, ?_⟩
    rw [hpulse, updPulse_pulse]
    exact ⟨rfl, rfl, rfl⟩
  · have hrun : exec (.timePulseArm n) s = execTimePulseArm n s := rfl
    rw [hrun, execTimePulseArm, if_neg (by omega), State.armPulse, if_pos (by rcases ha with h | h <;> simp [h])]
  · have hrun : exec (.timePulseStop n) s = execTimePulseStop n s := rfl
    obtain ⟨hobjs, hpulse, hout⟩ := driven_spec (s.updPulse n fun x => { x with armed := false, opened := false }) (s.pulse n).opened n
    rw [hrun, execTimePulseStop, if_neg (by omega), State.stopPulse]
    refine ⟨_, rfl, hobjs, ?_, ?_, hout⟩
    · rw [hpulse, updPulse_pulse]
    · rw [hpulse, updPulse_pulse]
  · obtain ⟨hobjs, htime, hpulse⟩ := edge_spec hnow n fun x => { x with opened := true, done := (x.done + 1) % 2 ^ 32 }
    refine ⟨_, pulseEdge_opens hn hr hh ha ho, hobjs, htime, congrArg Pulse.opened hpulse, congrArg Pulse.done hpulse, fun happ hoe => ?_⟩
    refine (edge_out happ hoe _ _).trans (congrArg (fun l => Out.pin 1 n l :: s.out) ?_)
    rw [Pulse.level]
    cases (s.pulse n).pol <;> rfl
  · obtain ⟨hobjs, htime, hpulse⟩ := edge_spec hnow n fun x => { x with
      opened := false
      armed := !((s.pulse n).period == 0 || ((s.pulse n).count != 0 && decide ((s.pulse n).count ≤ (s.pulse n).done)))
      k := x.k + 1 }
    exact ⟨_, pulseEdge_closes hn hr hh ha ho, hobjs, htime, congrArg Pulse.opened hpulse, congrArg Pulse.k hpulse,
      fun hp => (congrArg Pulse.armed hpulse).trans (by simp [hp])⟩
  · have hcaps' : (s.at time).quartz.caps = [] := by rw [at_quartz, hcaps]
    have hclosed : ((s.at time).captured pin (time / 2 * 2) rising).serving = false := (at_serving ..).trans hserv
    have hrun : (s.at time).capture pin (time / 2 * 2) rising = (s.at time).captured pin (time / 2 * 2) rising :=
      (capture_selected (at_selects hsel time) (by simp [hcaps']) _).trans (tellCaptures_closed hclosed)
    refine ⟨_, (tsInEdge_run hp ..).trans (congrArg Host.Outcome.next hrun), at_objs .., (s.at time).nowFrac, ?_⟩
    show List.takeWhile _ (s.at time).quartz.caps ++ _ :: List.drop _ (s.at time).quartz.caps = _
    rw [hcaps']
    rfl
  · have hroom' : ((s.at time).quartz.caps.filter fun c => c.1 == pin).length < 64 := by rwa [at_quartz]
    obtain ⟨hobjs, hnow, htold⟩ := tellCaptures_spec ((s.at time).captured pin (time / 2 * 2) rising)
    have hserves : ((s.at time).captured pin (time / 2 * 2) rising).serving = s.serving := at_serving ..
    refine ⟨_, by rw [tsInEdge_run hp, capture_selected (at_selects hsel time) hroom'], hobjs.trans (at_objs ..), hnow.trans (at_max ..), ?_⟩
    by_cases hs : s.serving = true
    · rw [if_pos hs]
      exact htold (hserves.trans hs)
    · rw [if_neg hs, tellCaptures_closed (hserves.trans (by simpa using hs))]
      exact ⟨at_mbx .., captured_mem ..⟩
  · rw [tsInEdge_run hp, capture_full (at_selects hsel time) (by rwa [at_quartz])]
  · rw [tsInEdge_run hp]
    unfold State.capture
    dsimp only
    rw [at_quartz, if_pos (by cases rising <;> simpa using hsel)]

end Sys2Proof.Machine
end

section
/-!
PROOFS. PTP messages and the loss of a domain (chapter 18).
-/

namespace Sys2Proof.Machine

/-! ### What the servo leaves (R580 to R586) -/

/-- Two states have the same objects and the same PTP domains. -/
def State.keepsDoms (s t : State) : Prop := t.objs = s.objs ∧ t.quartz.doms = s.quartz.doms

theorem keepsDoms_refl (s : State) : s.keepsDoms s := ⟨rfl, rfl⟩

theorem keepsDoms_trans {a b c : State} (h : a.keepsDoms b) (k : b.keepsDoms c) : a.keepsDoms c := ⟨k.1.trans h.1, k.2.trans h.2⟩

theorem keepsDoms_of_same {s t : State} (h : s.sameBut t) : s.keepsDoms t := by
  unfold State.sameBut at h
  rw [h]
  exact ⟨rfl, rfl⟩

theorem keepsDoms_if {s t : State} (p : Prop) [Decidable p] (h : s.keepsDoms t) : s.keepsDoms (if p then t else s) := by
  split
  · exact h
  · exact keepsDoms_refl s

theorem updQuartz_doms (s : State) (f : Quartz → Quartz) (h : (f s.quartz).doms = s.quartz.doms) : s.keepsDoms (s.updQuartz f) := ⟨rfl, h⟩

theorem keepsDoms_dom {s t : State} (h : s.keepsDoms t) (d : Nat) : t.dom d = s.dom d := by rw [State.dom, h.2, State.dom]

theorem timeAlarm_doms (s : State) (kind d : Nat) : s.keepsDoms (s.timeAlarm kind d) := ⟨(timeAlarm_spec ..).1, (timeAlarm_spec ..).2.2⟩

theorem activate_doms (s : State) (d cause : Nat) : s.keepsDoms (s.activate d cause) := by
  unfold State.activate
  dsimp only
  split
  · exact keepsDoms_refl s
  · exact keepsDoms_trans (updQuartz_doms s _ rfl) (keepsDoms_of_same (raiseAll_same ..))

theorem setServo_doms (s : State) (st : Nat) (tell : Bool) : s.keepsDoms (s.setServo st tell) :=
  keepsDoms_trans (updQuartz_doms s _ rfl) (keepsDoms_of_same (setServo_same s st tell))

theorem servoState_doms (s : State) (theta : Int) : s.keepsDoms (s.servoState theta) := by
  unfold State.servoState
  extract_lets low high s1 s2
  have h1 : s.keepsDoms s1 := keepsDoms_if _ (setServo_doms ..)
  have h2 : s.keepsDoms s2 := keepsDoms_trans h1 (updQuartz_doms s1 _ rfl)
  split
  · exact keepsDoms_trans h2 (setServo_doms ..)
  · exact keepsDoms_trans h2 (keepsDoms_if _ (setServo_doms ..))

theorem inForce_doms (s : State) (b : Boundary) : s.keepsDoms (s.inForce b) :=
  keepsDoms_trans (b := { s with sched := s.sched.filter fun e => e.at_ != b }) (keepsDoms_refl s) (keepsDoms_of_same (inForce_same s b))

theorem stepTime_doms (s : State) (ns frac : Nat) : s.keepsDoms (s.stepTime ns frac) := ⟨rfl, rfl⟩

theorem servoUpdate_doms (s : State) (d : Nat) (theta : Int) (tau : Nat) : s.keepsDoms (s.servoUpdate d theta tau) := by
  unfold State.servoUpdate
  extract_lets s1 far t s2 q y s3 s4
  have h1 : s.keepsDoms s1 := by
    refine keepsDoms_trans (updQuartz_doms s _ ?_) (inForce_doms _ (.update 3))
    split <;> rfl
  split
  · exact keepsDoms_trans h1 (keepsDoms_trans (stepTime_doms s1 ..) (keepsDoms_trans (updQuartz_doms _ _ rfl) (servoState_doms ..)))
  · have h2 : s1.keepsDoms s2 := keepsDoms_if _ (timeAlarm_doms ..)
    have h3 : s2.keepsDoms s3 := updQuartz_doms s2 _ rfl
    have h4 : s3.keepsDoms s4 := keepsDoms_if _ (timeAlarm_doms ..)
    exact keepsDoms_trans h1 (keepsDoms_trans h2 (keepsDoms_trans h3 (keepsDoms_trans h4 (servoState_doms ..))))

theorem timeUpdate_doms (s : State) (d : Nat) (theta : Int) (tau : Nat) : s.keepsDoms (s.timeUpdate d theta tau) := by
  have hsel (u : State) : u.keepsDoms (match u.quartz.sel with
      | some (x, auto) => if x = d then (u.updQuartz fun q => { q with auto := auto, sel := none }).activate d 1 else u
      | none => u) := by
    split
    · exact keepsDoms_if _ (keepsDoms_trans (updQuartz_doms u _ rfl) (activate_doms ..))
    · exact keepsDoms_refl u
  unfold State.timeUpdate
  extract_lets free s1 s2 s3
  have h1 : s.keepsDoms s1 := keepsDoms_if _ (activate_doms ..)
  have h2 : s1.keepsDoms s2 := hsel s1
  have h3 : s2.keepsDoms s3 := inForce_doms ..
  exact keepsDoms_trans h1 (keepsDoms_trans h2 (keepsDoms_trans h3 (keepsDoms_if _ (servoUpdate_doms ..))))

/-! ### Messages of a domain (R575 to R579) -/

theorem at_dom (s : State) (t d : Nat) : (s.at t).dom d = s.dom d := by rw [State.dom, at_quartz, State.dom]

theorem at_mode (s : State) (t : Nat) : (s.at t).mode = s.mode := congrArg Sys.mode (at_sys s t)

theorem at_stamp {s : State} {t : Nat} (h : s.now < t) : (s.at t).stamp t = (t : Int) * 65536 := by
  rw [State.at, if_pos h]
  unfold State.stamp fine
  rw [Nat.add_zero]
  exact Nat.cast_mul ..

theorem ofDomain_takes {s : State} {d : Nat} {m : Bytes} (hr : s.mode ≠ .reset) (hh : s.mode ≠ .halt) (he : (s.dom d).enabled = true)
    (hm : u8 m 4 = u8 (s.dom d).cfg 5) (t : Nat) (k : State → State) : (s.at t).ofDomain d m k = k (s.at t) := by
  rw [State.ofDomain, at_mode, at_dom, if_neg (by simp [hr, hh]), if_pos (by simp [he, hm])]

theorem ofDomain_discards {s : State} {d : Nat} {m : Bytes} (hr : s.mode ≠ .reset) (hh : s.mode ≠ .halt)
    (h : (s.dom d).enabled = false ∨ u8 m 4 ≠ u8 (s.dom d).cfg 5) (t : Nat) (k : State → State) :
    (s.at t).ofDomain d m k = (s.at t).updQuartz fun q => { q with discarded := q.discarded + 1 } := by
  rw [State.ofDomain, at_mode, at_dom, if_neg (by simp [hr, hh]), if_neg (by rcases h with h | h <;> simp [h])]

theorem ptpAnnounceReceive_run {d : Nat} (hd : d < 2) (t : Nat) (m : Bytes) (s : State) : exec (.ptpAnnounceReceive d t m) s =
    .next ((s.at t).ofDomain d m fun s => if ptpType m = 11 then s.announce d m else s) := by
  have hrun : exec (.ptpAnnounceReceive d t m) s = execPtpAnnounceReceive d t m s := rfl
  rw [hrun, execPtpAnnounceReceive, if_neg (by omega)]

theorem ptpSyncReceive_run {d : Nat} (hd : d < 2) (t : Nat) (m : Bytes) (s : State) : exec (.ptpSyncReceive d t m) s =
    .next ((s.at t).ofDomain d m fun s => s.ptpSync d t m) := by
  have hrun : exec (.ptpSyncReceive d t m) s = execPtpSyncReceive d t m s := rfl
  rw [hrun, execPtpSyncReceive, if_neg (by omega)]

theorem ptpDelayResponseReceive_run {d : Nat} (hd : d < 2) (t : Nat) (m : Bytes) (s : State) : exec (.ptpDelayResponseReceive d t m) s =
    .next ((s.at t).ofDomain d m fun s => s.delayResponse d t m) := by
  have hrun : exec (.ptpDelayResponseReceive d t m) s = execPtpDelayResponseReceive d t m s := rfl
  rw [hrun, execPtpDelayResponseReceive, if_neg (by omega)]

/-- The domain that a Pdelay_Req on a port is for. -/
def State.askedDomain (s : State) (p : Nat) (m : Bytes) : Option Nat :=
  [0, 1].find? fun d => (s.dom d).enabled && (s.dom d).port == p && u8 m 4 == u8 (s.dom d).cfg 5

theorem at_askedDomain (s : State) (t p : Nat) (m : Bytes) : (s.at t).askedDomain p m = s.askedDomain p m := by
  simp only [State.askedDomain, at_dom]

section
variable {s : State} {p : Nat} {m : Bytes} (hp : s.portOk p = true) (hr : s.mode ≠ .reset) (hh : s.mode ≠ .halt)
include hp hr hh

theorem ptpPdelayReqReceive_unheard (h : s.askedDomain p m = none) (t : Nat) : exec (.ptpPdelayReqReceive p t m) s =
    .next ((s.at t).updQuartz fun q => { q with discarded := q.discarded + 1 }) := by
  have hrun : exec (.ptpPdelayReqReceive p t m) s = execPtpPdelayReqReceive p t m s := rfl
  rw [← at_askedDomain s t, State.askedDomain] at h
  rw [hrun, execPtpPdelayReqReceive, if_neg (by simp [hp])]
  dsimp only
  rw [at_mode, if_neg (by simp [hr, hh]), h]

theorem ptpPdelayReqReceive_heard {d : Nat} (h : s.askedDomain p m = some d) (hp2p : (s.dom d).p2p = true) (hty : ptpType m = 2) (t : Nat) :
    exec (.ptpPdelayReqReceive p t m) s = .next ((s.at t).pdelayAnswer d t m) := by
  have hrun : exec (.ptpPdelayReqReceive p t m) s = execPtpPdelayReqReceive p t m s := rfl
  rw [← at_askedDomain s t, State.askedDomain] at h
  rw [hrun, execPtpPdelayReqReceive, if_neg (by simp [hp])]
  dsimp only
  rw [at_mode, if_neg (by simp [hr, hh]), h]
  dsimp only
  rw [at_dom, if_pos ⟨hp2p, hty⟩]

end

/-- The master an Announce tells of. -/
def announced (m : Bytes) : PtpMaster where
  source := ptpSource m
  priority1 := u8 m 47
  cls := u8 m 48
  accuracy := u8 m 49
  variance := bfld m 50 2
  priority2 := u8 m 52
  identity := (m.drop 53).take 8
  steps := bfld m 61 2
  utc := bfld m 44 2

theorem announce_heard {s : State} {d : Nat} {m : Bytes} (hc : u8 m 48 ≤ u8 (s.dom d).cfg 11) (hs : bfld m 61 2 ≠ 255) :
    s.announce d m = s.updDom d fun x => { x with masters := ((s.dom d).masters.filter fun o => o.source != ptpSource m) ++ [announced m] } := by
  unfold State.announce
  dsimp only
  rw [if_neg (by omega), if_neg (by omega)]
  rfl

theorem delays_mpd {x : TimeDomain} (h : x.delays = []) : x.mpd = none := by
  rw [TimeDomain.mpd, h]
  rfl

theorem domainTheta_waits {s : State} {d : Nat} (h : (s.dom d).delays = []) (t1 t2 corr : Int) (tau : Nat) : s.domainTheta d t1 t2 corr tau =
    s.updDom d fun x => { x with t12 := some (t1, t2), tau := tau, sync := none } := by
  have hmpd : ((s.updDom d fun x => { x with t12 := some (t1, t2), tau := tau, sync := none }).dom d).mpd = none := by
    rw [updDom_dom]
    exact delays_mpd h
  unfold State.domainTheta
  dsimp only
  rw [hmpd]

theorem domainTheta_tracks {s : State} {d : Nat} {delay : Int} (h : (s.dom d).mpd = some delay) (t1 t2 corr : Int) (tau : Nat) :
    (s.domainTheta d t1 t2 corr tau).objs = s.objs ∧ ((s.domainTheta d t1 t2 corr tau).dom d).st = 2 ∧
    ((s.domainTheta d t1 t2 corr tau).dom d).theta = some (t2 - t1 - delay - corr - (s.dom d).asym) := by
  have hmpd : ((s.updDom d fun x => { x with t12 := some (t1, t2), tau := tau, sync := none }).dom d).mpd = some delay := by
    rw [updDom_dom]
    exact h
  unfold State.domainTheta
  dsimp only
  rw [hmpd]
  dsimp only
  obtain ⟨hobjs, hdoms⟩ := timeUpdate_doms (((s.updDom d fun x => { x with t12 := some (t1, t2), tau := tau, sync := none }).updDom d fun x =>
    { x with theta := some (t2 - t1 - delay - corr - ((s.updDom d fun x => { x with t12 := some (t1, t2), tau := tau, sync := none }).dom d).asym),
             st := 2 })) d (t2 - t1 - delay - corr - ((s.updDom d fun x => { x with t12 := some (t1, t2), tau := tau, sync := none }).dom d).asym) tau
  refine ⟨hobjs, ?_, ?_⟩
  · rw [keepsDoms_dom ⟨hobjs, hdoms⟩, updDom_dom]
  · rw [keepsDoms_dom ⟨hobjs, hdoms⟩, updDom_dom, updDom_dom]
    rfl

/-- A Sync of the selected master, its interval within 1 to 128 per second. -/
theorem ptpSync_sync {s : State} {d : Nat} {m : Bytes} {x : PtpMaster} (hx : (s.dom d).master = some x) (hs : x.source = ptpSource m)
    (hty : ptpType m = 0) (hlo : -7 ≤ signed 8 (u8 m 33)) (hhi : signed 8 (u8 m 33) ≤ 0) (t : Nat) : s.ptpSync d t m =
    if u8 m 6 / 2 % 2 = 1 then
      s.updDom d fun x => { x with sync := some (ptpSeq m, s.stamp t, ptpCorr m, 1000000000 / 2 ^ (-(signed 8 (u8 m 33))).toNat) }
    else s.domainTheta d (ptpTime m 34) (s.stamp t) (ptpCorr m) (1000000000 / 2 ^ (-(signed 8 (u8 m 33))).toNat) := by
  unfold State.ptpSync
  dsimp only
  rw [if_neg (by simp [hx, hs]), if_pos hty, if_neg (by omega)]

theorem ptpSync_followUp {s : State} {d : Nat} {m : Bytes} {x : PtpMaster} (hx : (s.dom d).master = some x) (hs : x.source = ptpSource m)
    (hty : ptpType m = 8) {t2 c : Int} {tau : Nat} (hsync : (s.dom d).sync = some (ptpSeq m, t2, c, tau)) (t : Nat) : s.ptpSync d t m =
    s.domainTheta d (ptpTime m 34) t2 (c + ptpCorr m) tau := by
  unfold State.ptpSync
  dsimp only
  rw [if_neg (by simp [hx, hs]), if_neg (by omega), if_pos hty, hsync]
  exact if_pos rfl

theorem addDelay_spec (s : State) (d : Nat) (v : Int) : ((s.addDelay d v).dom d).req = none ∧
    ((s.addDelay d v).dom d).delays = (v :: (s.dom d).delays).take 16 := by
  rw [State.addDelay, updDom_dom]
  exact ⟨rfl, rfl⟩

theorem delayResponse_e2e {s : State} {d : Nat} {m : Bytes} {x : PtpMaster} (hp : (s.dom d).p2p = false) (hx : (s.dom d).master = some x)
    (hs : x.source = ptpSource m) (hty : ptpType m = 9) {seq : Nat} {sent t1 t2 : Int} (hreq : (s.dom d).req = some (seq, sent))
    (hseq : ptpSeq m = seq) (hid : (m.drop 44).take 10 = ownIdentity (s.dom d).port) (h12 : (s.dom d).t12 = some (t1, t2)) (t : Nat) :
    s.delayResponse d t m = s.addDelay d ((t2 - t1) + (ptpTime m 34 - sent)) := by
  unfold State.delayResponse
  dsimp only
  rw [hreq]
  dsimp only
  rw [if_neg (by simp [hseq, hid]), if_pos (by simp [hty, hp]), h12]
  exact if_pos (by rw [hx, Option.map_some, hs])

theorem delayResponse_p2p {s : State} {d : Nat} {m : Bytes} (hp : (s.dom d).p2p = true) (hty : ptpType m = 3) (hone : u8 m 6 / 2 % 2 = 0)
    {seq : Nat} {sent : Int} (hreq : (s.dom d).req = some (seq, sent)) (hseq : ptpSeq m = seq)
    (hid : (m.drop 44).take 10 = ownIdentity (s.dom d).port) (t : Nat) :
    s.delayResponse d t m = s.addDelay d ((s.stamp t - sent) - ptpCorr m) := by
  unfold State.delayResponse
  dsimp only
  rw [hreq]
  dsimp only
  rw [if_neg (by simp [hseq, hid]), if_neg (by simp [hty]), if_pos ⟨hty, hp⟩, if_neg (by omega)]

/-! ### Records put in a firmware queue (R430, R577) -/

theorem pushBytes_reads (id f n : Nat) (s : State) : s.readsOnly (State.pushBytes id f n s) := by
  induction f generalizing n s with
  | zero => rfl
  | succ f ih =>
    unfold State.pushBytes
    split
    · rfl
    next q _ =>
    split
    · rfl
    extract_lets n' q'
    split
    · exact readsOnly_trans (b := s.setQueue id { q' with head := q'.tail, tail := 0 }) rfl (ih ..)
    · split
      · exact readsOnly_trans (readsOnly_trans (b := s.setQueue id q') rfl (spillTail_reads ..)) (ih ..)
      · exact readsOnly_trans (b := s.setQueue id q') rfl (ih ..)

theorem writeQueue_reads (s : State) (id : Nat) (r : Rec) : s.readsOnly (s.writeQueue id r false) := by
  unfold State.writeQueue
  split
  · rfl
  next q _ =>
  split
  · exact readsOnly_trans (readsOnly_trans (b := s.setQueue id (q.put r)) rfl (pushBytes_reads ..)) (evalNotice_reads ..)
  · rfl

theorem firmwareQueue_reads (s : State) (q : Nat) : s.readsOnly (s.firmwareQueue q) := by
  unfold State.firmwareQueue
  split <;> rfl

theorem ptpSend_reads (s : State) (x : TimeDomain) (peer event : Bool) (m : Bytes) : s.readsOnly (s.ptpSend x peer event m) :=
  readsOnly_trans (firmwareQueue_reads ..) (writeQueue_reads ..)

theorem readsOnly_quartz {s t : State} (h : s.readsOnly t) : t.quartz = s.quartz := by
  unfold State.readsOnly at h
  rw [h]

theorem readsOnly_dom {s t : State} (h : s.readsOnly t) (d : Nat) : t.dom d = s.dom d := by rw [State.dom, readsOnly_quartz h, State.dom]

/-- A record of less than one cell put at the end of a queue whose tail is empty: the queue has it last, and the rest of the state is
as it was. -/
theorem writeQueue_small {s : State} {id : Nat} {q : Queue} {r : Rec} (hq : s.queue? id = some q) (hheld : q.held = none) (hwait : q.waiting = [])
    (hn : u8 q.notice 0 = 0) (htail : q.tail = 0) (hfit : q.fill + r.size ≤ q.cap) (hr : r.size < 256) :
    ∃ q', s.writeQueue id r false = (s.setQueue id (q.put r)).setQueue id q' ∧ q'.recs = q.recs ++ [r.stored] ∧ q'.held = none ∧
      q'.waiting = [] ∧ u8 q'.notice 0 = 0 ∧ q'.spill = q.spill ∧ (q.head = 0 → q.cells = [] → q'.tail = 0) := by
  have hfree : (q.held.isNone && q.waiting.isEmpty && decide (q.fill + r.size ≤ q.cap)) = true := by simp [hheld, hwait, hfit]
  have hpos : r.size ≠ 0 := by
    unfold Rec.size
    omega
  have hfits : (if (q.put r).tail < 256 then min r.size (256 - (q.put r).tail) else r.size) = r.size := by
    rw [show (q.put r).tail = 0 from htail, if_pos (by omega)]
    omega
  have hdone (u : State) (x : Queue) : State.pushBytes id 1 0 (u.setQueue id x) = u.setQueue id x := by
    unfold State.pushBytes
    rw [setQueue_queue]
    exact if_pos rfl
  have hstill (u : State) (x : Queue) (hx : u8 x.notice 0 = 0) : (u.setQueue id x).evalNotice id = u.setQueue id x := by
    simp only [State.evalNotice, setQueue_queue, if_pos (show x.mode ≠ 1 by rw [Queue.mode]; omega)]
  have htail' : (q.put r).tail = 0 := htail
  have hput : State.pushBytes id 2 r.size (s.setQueue id (q.put r)) =
      if (q.put r).head = 0 ∧ (q.put r).cells = [] then (s.setQueue id (q.put r)).setQueue id { q.put r with head := r.size, tail := 0 }
      else (s.setQueue id (q.put r)).setQueue id { q.put r with tail := r.size } := by
    rw [State.pushBytes, setQueue_queue]
    dsimp only
    rw [if_neg hpos, hfits, htail', Nat.zero_add, Nat.sub_self, hdone]
    split
    next h =>
      rw [if_pos ⟨h.1, h.2.1⟩]
    next h =>
      have hsmall : ¬ (r.size = 256 ∧ (q.put r).cells.length < 4 * (q.put r).spill) := fun k => by omega
      have hmode : u8 (q.put r).notice 0 ≠ 2 := fun k => by
        rw [show (q.put r).notice = q.notice from rfl, hn] at k
        cases k
      rw [if_neg hsmall, hdone]
      exact (if_neg fun k => h ⟨k.1, k.2, by omega, .inl hmode⟩).symm
  have hfuel : r.size / 256 + 2 = 2 := by omega
  unfold State.writeQueue
  rw [hq]
  dsimp only
  rw [if_pos hfree, State.enqueue, hfuel, hput]
  split
  · exact ⟨_, hstill _ _ hn, rfl, hheld, hwait, hn, rfl, fun _ _ => rfl⟩
  next h => exact ⟨_, hstill _ _ hn, rfl, hheld, hwait, hn, rfl, fun h1 h2 => absurd ⟨h1, h2⟩ h⟩

/-! ### The frames of PTP messages (Table 18.2) -/

theorem withFcs_length (b : Bytes) : (withFcs b).length ≤ max 60 b.length + 4 := by
  simp only [withFcs, List.length_append, List.length_replicate, le_length]
  omega

theorem addrBytes_length (f : Nat) (a : Bytes) : (addrBytes f a).length ≤ 16 := by
  unfold addrBytes
  split
  · rw [length_padTo]
    omega
  · rw [length_padTo]

theorem udp_length (r : Route) (p : Bytes) : (udp r p).length = p.length + 8 := by
  simp only [udp, List.length_append, be_length]
  omega

theorem ipPacket_length (r : Route) (p : Bytes) : (ipPacket r p).length ≤ p.length + 52 := by
  have hsrc := addrBytes_length 4 r.src
  have hdst := addrBytes_length 4 r.dst
  have hsrc' := addrBytes_length 6 r.src
  have hdst' := addrBytes_length 6 r.dst
  unfold ipPacket
  split
  · simp only [List.length_append, be_length, le_length, List.length_cons, List.length_nil]
    omega
  · simp only [List.length_append, be_length, List.length_cons, List.length_nil]
    omega

theorem udpFrame_length (r : Route) (dst src p : Bytes) : (udpFrame r dst src p).length ≤ p.length + 84 := by
  have hip := ipPacket_length r (udp r p)
  rw [udp_length] at hip
  refine (withFcs_length _).trans ?_
  simp only [List.length_append, length_padTo, be_length]
  split
  · simp only [List.length_append, be_length]
    omega
  · simp only [List.length_nil]
    omega

theorem ptpFrame_length (s : State) (x : TimeDomain) (peer event : Bool) (m : Bytes) : (s.ptpFrame x peer event m).length ≤ m.length + 84 := by
  unfold State.ptpFrame
  extract_lets tag mac
  clear_value tag
  split
  · refine (withFcs_length _).trans ?_
    have hdst : (if peer then [0x01, 0x80, 0xC2, 0x00, 0x00, 0x0E] else [0x01, 0x1B, 0x19, 0x00, 0x00, 0x00] : Bytes).length = 6 := by
      cases peer <;> rfl
    cases tag
    · simp only [List.length_append, hdst, length_padTo, be_length, List.length_nil]
      omega
    · simp only [List.length_append, hdst, length_padTo, be_length]
      omega
  · exact udpFrame_length ..

/-- The record of a PTP message. -/
def State.ptpRec (s : State) (x : TimeDomain) (peer event : Bool) (m : Bytes) : Rec :=
  { kind := 1, flags := 0, obj := 0, arrival := 0, deadline := 0, start := 0, data := s.ptpFrame x peer event m }

theorem ptpRec_size (s : State) (x : TimeDomain) (peer event : Bool) {m : Bytes} (h : m.length ≤ 54) : (s.ptpRec x peer event m).size ≤ 168 := by
  have hlen := ptpFrame_length s x peer event m
  show 24 + ((s.ptpFrame x peer event m).length + 7) / 8 * 8 ≤ 168
  omega

/-- A firmware queue that is open to a message: it gives no notice, and its bytes are in its head. -/
def Queue.open_ (q : Queue) : Prop :=
  q.held = none ∧ q.waiting = [] ∧ u8 q.notice 0 = 0 ∧ q.tail = 0 ∧ q.fill ≤ 1000 ∧ q.spill = 1024

theorem ptpSend_puts {s : State} {x : TimeDomain} {m : Bytes} {q : Queue} (hq : (s.firmwareQueue (0xF020 + x.port)).queue? (0xF020 + x.port) = some q)
    (hopen : q.open_) (hm : m.length ≤ 54) (peer event : Bool) :
    ∃ l q', s.ptpSend x peer event m = s.withQueues l ∧ tget? l (0xF020 + x.port) = some q' ∧
      q'.recs = q.recs ++ [(s.ptpRec x peer event m).stored] ∧ (q.head = 0 → q.cells = [] → q.recs = [] → q'.open_) := by
  obtain ⟨hheld, hwait, hn, htail, hfill, hspill⟩ := hopen
  have hsize := ptpRec_size s x peer event hm
  have hcap : q.cap = 512 + 1024 * 1024 := by rw [Queue.cap, hspill]
  obtain ⟨q', hwrite, hrecs, kheld, kwait, kn, kspill, ktail⟩ := writeQueue_small hq hheld hwait hn htail (by omega) (Nat.lt_of_le_of_lt hsize (by omega))
  have hplace : ∃ l, s.firmwareQueue (0xF020 + x.port) = s.withQueues l := by
    unfold State.firmwareQueue
    split
    · exact ⟨s.net.queues, rfl⟩
    · exact ⟨_, rfl⟩
  obtain ⟨l, hl⟩ := hplace
  refine ⟨_, q', hwrite.trans (by rw [hl]; rfl), tget?_tset_same .., hrecs, fun hhead hcells hnone =>
    ⟨kheld, kwait, kn, ktail hhead hcells, ?_, kspill.trans hspill⟩⟩
  rw [Queue.fill, hrecs, hnone]
  show (s.ptpRec x peer event m).size + 0 ≤ 1000
  omega

theorem ptpHead_length (ty len dom flags : Nat) (corr : Int) (port seq control : Nat) : (ptpHead ty len dom flags corr port seq control).length = 34 := by
  simp only [ptpHead, ownIdentity, List.length_append, be_length, le_length, List.length_cons, List.length_nil]

theorem ptpStamp_length (t : Int) : (ptpStamp t).length = 10 := by
  simp only [ptpStamp, List.length_append, be_length]

theorem ptpSource_length (m : Bytes) : (ptpSource m).length ≤ 10 := by
  simp only [ptpSource, List.length_take]
  omega

/-- The answer to a Pdelay_Req put in a queue that is made for it: its frame is the first there. -/
theorem pdelayAnswer_first {s : State} {d t : Nat} (m : Bytes) (h : s.queue? (0xF020 + (s.dom d).port) = none) :
    ∃ f l fresh q, s.pdelayAnswer d t m = { s with fresh := fresh, net := { s.net with queues := l } } ∧
      tget? l (0xF020 + (s.dom d).port) = some q ∧ q.recs.head?.map Rec.data = some (s.ptpFrame (s.dom d) true true f) := by
  have hnew : (s.draw.2.firmwareQueue (0xF020 + (s.dom d).port)).queue? (0xF020 + (s.dom d).port) = some (Queue.init 1024 s.now) := by
    have hnone : s.draw.2.queue? (0xF020 + (s.dom d).port) = none := h
    rw [State.firmwareQueue, hnone]
    exact setQueue_queue ..
  have hopen : (Queue.init 1024 s.now).open_ := ⟨rfl, rfl, rfl, rfl, Nat.zero_le 1000, rfl⟩
  have hbody (ty dom flags : Nat) (corr : Int) (port seq control : Nat) (stamp : Int) :
      (ptpHead ty 54 dom flags corr port seq control ++ ptpStamp stamp ++ ptpSource m).length ≤ 54 := by
    have hs := ptpSource_length m
    simp only [List.length_append, ptpHead_length, ptpStamp_length]
    omega
  unfold State.pdelayAnswer
  dsimp only
  split
  · obtain ⟨l, q, hsend, hq, hrecs, -⟩ := ptpSend_puts hnew hopen (hbody ..) true true
    exact ⟨_, l, _, q, hsend, hq, by rw [hrecs]; rfl⟩
  · obtain ⟨l, q, hsend, hq, hrecs, hnext⟩ := ptpSend_puts hnew hopen (hbody ..) true true
    have hthere : ((s.draw.2.withQueues l).firmwareQueue (0xF020 + (s.dom d).port)).queue? (0xF020 + (s.dom d).port) = some q := by
      have hsome : (s.draw.2.withQueues l).queue? (0xF020 + (s.dom d).port) = some q := hq
      rw [State.firmwareQueue, hsome]
      exact hsome
    obtain ⟨l2, q2, hsend2, hq2, hrecs2, -⟩ := ptpSend_puts (s := s.draw.2.withQueues l) hthere (hnext rfl rfl rfl) (hbody ..) true false
    rw [hsend, hsend2]
    exact ⟨_, l2, _, q2, rfl, hq2, by rw [hrecs2, hrecs]; rfl⟩

/-! ### Delay requests and losses (R577, R584) -/

theorem delayRequest_spec {s : State} {d t : Nat} {m : PtpMaster} (hr : s.mode ≠ .reset) (hh : s.mode ≠ .halt) (he : (s.dom d).enabled = true)
    (hm : (s.dom d).master = some m) : (s.delayRequest d t).objs = s.objs ∧
    ((s.delayRequest d t).dom d).req = some (((s.dom d).reqSeq + 1) % 65536, s.stamp t) ∧
    ((s.delayRequest d t).dom d).reqSeq = ((s.dom d).reqSeq + 1) % 65536 := by
  have hsend : State.readsOnly (s.updDom d fun x => { x with
      reqSeq := ((s.dom d).reqSeq + 1) % 65536, req := some (((s.dom d).reqSeq + 1) % 65536, s.stamp t), presp := none }) (s.delayRequest d t) := by
    unfold State.delayRequest
    dsimp only
    rw [if_neg (by simp [he, hm, hr, hh])]
    split <;> exact ptpSend_reads ..
  have hobjs := readsOnly_objs hsend
  rw [readsOnly_dom hsend, updDom_dom]
  exact ⟨hobjs, rfl, rfl⟩

theorem domainLost_spec (s : State) (d : Nat) : (s.domainLost d).objs = s.objs ∧ (s.domainLost d).now = s.now ∧
    (s.domainLost d).dom d = { s.dom d with st := 3, theta := none, sync := none, masters := [] } := by
  unfold State.domainLost
  rw [(timeCheck_spec ..).1, (timeCheck_spec ..).2.1, State.dom, (timeCheck_spec ..).2.2, (timeAlarm_spec ..).1, (timeAlarm_spec ..).2.1,
    (timeAlarm_spec ..).2.2]
  exact ⟨rfl, rfl, updDom_dom ..⟩

/-- Settles O46: each message of the domain by what the unit makes of it (`ptpSync_sync`, `domainTheta_tracks`, `delayResponse_e2e` and the
rest), the answer to a Pdelay_Req by the queue it is put in (`pdelayAnswer_first`). -/
theorem ptpComplete : Obligations.PtpComplete := by
  unfold Obligations.PtpComplete
  refine ⟨fun d t m s hd hr hh hno => ?_, fun d t m s hd hr hh he hm hty hc hs => ?_, fun d t m s x hd hr hh he hm hx hs hty hlo hhi htwo hnow => ?_,
    fun d t m s x hd hr hh he hm hx hs hty hlo hhi hone hnow hdel => ?_, fun d t m s x delay hd hr hh he hm hx hs hty hlo hhi hone hnow hmpd => ?_,
    fun d t m s x t2 c tau hd hr hh he hm hx hs hty hsync hdel => ?_,
    fun d t m s x seq sent t1 t2 hd hr hh he hm hp hx hs hty hreq hseq hid h12 => ?_,
    fun d t m s seq sent hd hr hh he hm hp hty hone hnow hreq hseq hid => ?_, fun p t m s hp hr hh hnone => ?_,
    fun p t m s d hp hr hh hd hp2p hty hq => ?_, fun d t s x hd hr hh he hx hnow => ?_, fun d s hd hst => ?_, fun d s hd hst => ?_⟩
  · rw [ptpAnnounceReceive_run hd, ptpSyncReceive_run hd, ptpDelayResponseReceive_run hd, ofDomain_discards hr hh hno, ofDomain_discards hr hh hno,
      ofDomain_discards hr hh hno]
    exact ⟨rfl, rfl, rfl⟩
  · rw [ptpAnnounceReceive_run hd, ofDomain_takes hr hh he hm, if_pos hty, announce_heard (by rwa [at_dom]) hs]
    refine ⟨_, rfl, at_objs .., at_mbx .., ⟨announced m, ?_, rfl, rfl, rfl, rfl, rfl, rfl, rfl⟩, fun o ho hne => ?_⟩
    · rw [updDom_dom]
      exact List.mem_append_right _ (List.mem_singleton.2 rfl)
    · rw [updDom_dom, at_dom]
      exact List.mem_append_left _ (List.mem_filter.2 ⟨ho, by simpa using hne⟩)
  · rw [ptpSyncReceive_run hd, ofDomain_takes hr hh he hm, ptpSync_sync (by rwa [at_dom]) hs hty hlo hhi, if_pos htwo, at_stamp hnow]
    refine ⟨_, rfl, at_objs .., at_mbx .., ?_⟩
    rw [updDom_dom]
  · rw [ptpSyncReceive_run hd, ofDomain_takes hr hh he hm, ptpSync_sync (by rwa [at_dom]) hs hty hlo hhi, if_neg (by omega), at_stamp hnow,
      domainTheta_waits (by rwa [at_dom])]
    refine ⟨_, rfl, at_objs .., at_mbx .., ?_⟩
    rw [updDom_dom, at_dom]
    exact ⟨rfl, rfl, rfl⟩
  · rw [ptpSyncReceive_run hd, ofDomain_takes hr hh he hm, ptpSync_sync (by rwa [at_dom]) hs hty hlo hhi, if_neg (by omega), at_stamp hnow]
    obtain ⟨hobjs, hst, htheta⟩ := domainTheta_tracks (s := s.at t) (by rwa [at_dom]) (ptpTime m 34) ((t : Int) * 65536) (ptpCorr m)
      (1000000000 / 2 ^ (-(signed 8 (u8 m 33))).toNat)
    rw [at_dom] at htheta
    exact ⟨_, rfl, hobjs.trans (at_objs ..), hst, htheta⟩
  · rw [ptpSyncReceive_run hd, ofDomain_takes hr hh he hm, ptpSync_followUp (by rwa [at_dom]) hs hty (by rwa [at_dom]),
      domainTheta_waits (by rwa [at_dom])]
    refine ⟨_, rfl, at_objs .., at_mbx .., ?_⟩
    rw [updDom_dom]
    exact ⟨rfl, rfl, rfl⟩
  · rw [ptpDelayResponseReceive_run hd, ofDomain_takes hr hh he hm, delayResponse_e2e (by rwa [at_dom]) (by rwa [at_dom]) hs hty (by rwa [at_dom]) hseq
      (by rwa [at_dom]) (by rwa [at_dom])]
    obtain ⟨hnone, hdel⟩ := addDelay_spec (s.at t) d ((t2 - t1) + (ptpTime m 34 - sent))
    rw [at_dom] at hdel
    exact ⟨_, rfl, at_objs .., at_mbx .., hnone, hdel⟩
  · rw [ptpDelayResponseReceive_run hd, ofDomain_takes hr hh he hm, delayResponse_p2p (by rwa [at_dom]) hty hone (by rwa [at_dom]) hseq
      (by rwa [at_dom]), at_stamp hnow]
    obtain ⟨hnone, hdel⟩ := addDelay_spec (s.at t) d (((t : Int) * 65536 - sent) - ptpCorr m)
    rw [at_dom] at hdel
    exact ⟨_, rfl, at_objs .., at_mbx .., hnone, hdel⟩
  · exact ptpPdelayReqReceive_unheard hp hr hh hnone t
  · have hport : (s.dom d).port = p := by
      have h := List.find?_some hd
      simp only [Bool.and_eq_true, beq_iff_eq] at h
      exact h.1.2
    have hnone : (s.at t).queue? (0xF020 + ((s.at t).dom d).port) = none := by
      rw [State.queue?, at_net, at_dom, hport]
      exact hq
    obtain ⟨f, l, fresh, q, hans, hl, hdata⟩ := pdelayAnswer_first (d := d) (t := t) m hnone
    rw [at_dom] at hl hdata
    rw [ptpPdelayReqReceive_heard hp hr hh hd hp2p hty, hans]
    obtain ⟨rec, hrec, hframe⟩ := Option.map_eq_some_iff.1 hdata
    exact ⟨_, f, rfl, at_objs .., at_quartz .., q, rec, hport ▸ hl, hrec, hframe⟩
  · have hrun : exec (.ptpDelayReqSend d t) s = execPtpDelayReqSend d t s := rfl
    obtain ⟨hobjs, hreq, hseq⟩ := delayRequest_spec (s := s.at t) (d := d) (t := t) (by rwa [at_mode]) (by rwa [at_mode]) (by rwa [at_dom])
      (by rwa [at_dom])
    rw [at_dom] at hreq hseq
    rw [at_stamp hnow] at hreq
    rw [hrun, execPtpDelayReqSend, if_neg (by omega)]
    exact ⟨_, rfl, hobjs.trans (at_objs ..), hreq, hseq⟩
  · have hrun : exec (.domainLossTimeout d) s = execDomainLossTimeout d s := rfl
    obtain ⟨hobjs, hnow, hdom⟩ := domainLost_spec s d
    rw [hrun, execDomainLossTimeout, if_neg (by omega), if_pos hst]
    refine ⟨_, rfl, hobjs, hnow, ?_⟩
    rw [hdom]
    exact ⟨rfl, rfl, rfl⟩
  · have hrun : exec (.domainLossTimeout d) s = execDomainLossTimeout d s := rfl
    rw [hrun, execDomainLossTimeout, if_neg (by omega), if_neg hst]

end Sys2Proof.Machine
end

section
/-!
PROOFS. The framer's commands (chapter 19).
-/

namespace Sys2Proof.Machine

/-- A check that holds. -/
theorem need_of {c : Bool} (h : c = true) {st : Status} {k : Eff} : need c st k = k := by rw [h, need_true]

/-! ### Framer paths made (Tables 19.7 to 19.9) -/

/-- A path has its object, created by `r`. -/
def State.pathMade (t : State) (key : Nat) (r : Req) (on : Bool) : Prop :=
  ∃ o, tget? t.objs key = some o ∧ o.owner = r.mbx ∧ o.active = on

theorem addObj_made (s : State) (key : Nat) (r : Req) (on : Bool) (cls : Nat) (cost : Costs) : (s.addObj key r.mbx on cls cost).pathMade key r on :=
  ⟨_, tget?_tset_same .., rfl, rfl⟩

theorem schedule_objs' (s : State) (b : Boundary) (o : Origin) (a : Act) : (s.schedule b o a).objs = s.objs ∧
    (s.schedule b o a).framer = s.framer := by
  rw [schedule_frame]
  exact ⟨rfl, rfl⟩

/-- A path that starts ACTIVE begins at the next line frame; another is answered at once. -/
theorem pathMade_command {op : Nat} {len : Nat → Bool} {r : Req} {s s1 t : State} {own : State → Eff} {h key : Nat} {p : State → Prop}
    (hturn : s.turn op r = some s1) (hlen : len r.payload.length = true) (on : Bool)
    (hown : own s1 = if on then .later [] h (t.schedule .line (r.origin h) (.live key true)) else .done [] h t)
    (hframer : ∀ u : State, u.framer = t.framer → u.objs = t.objs → p u) :
    ∃ u : State, (if on then Host.Outcome.next (φ := Fault) (ρ := Refusal) (s.command op len r own) = .next (u.accepted op r h [])
      else Host.Outcome.next (φ := Fault) (ρ := Refusal) (s.command op len r own) = .next (u.answered op r h [])) ∧ p u := by
  cases on
  · exact ⟨t, exec_answered hturn hlen hown, hframer t rfl rfl⟩
  · obtain ⟨hobjs, hfr⟩ := schedule_objs' t .line (r.origin h) (.live key true)
    exact ⟨_, exec_accepted hturn hlen hown, hframer _ hfr hobjs⟩

/-- The lane that LineCreate makes. -/
def lineOf (p : Bytes) : Lane where
  mode := u8 p 1
  loop := u8 p 2 == 2
  sf := u8 p 4
  sd := u8 p 5
  inFrame := false
  cands := []
  pos := 0
  badA := 0
  aisRow := 0
  au := []
  rei := 0
  auRei := []
  msp := none
  defects := 0
  stats := []

def State.lineMade (s : State) (r : Req) : State :=
  (s.addObj (laneKey (u8 r.payload 0)) r.mbx (u8 r.payload 3 == 1) 0 []).updFramer fun f =>
    { f with lanes := tset f.lanes (u8 r.payload 0) (lineOf r.payload) }

theorem effLineCreate_makes {r : Req} {s : State} (ht : r.target = 0) (hlo : 24 ≤ u8 r.payload 0) (hhi : u8 r.payload 0 < 32)
    (hm : s.inService = true ∨ s.mode = .maintenance) (hfree : thas s.objs (laneKey (u8 r.payload 0)) = false) (h3 : u8 r.payload 3 ≤ 1)
    (hz : zeros r.payload 6 2 = true)
    (heth : u8 r.payload 1 = 5 ∨ u8 r.payload 1 = 6 → u8 r.payload 2 = 0 ∧ u8 r.payload 4 = 0 ∧ u8 r.payload 5 = 0)
    (hsdh : 1 ≤ u8 r.payload 1 → u8 r.payload 1 ≤ 4 → (u8 r.payload 2 = 1 ∨ u8 r.payload 2 = 2) ∧ 3 ≤ u8 r.payload 4 ∧ u8 r.payload 4 ≤ 5 ∧
      (u8 r.payload 5 = 0 ∨ (5 ≤ u8 r.payload 5 ∧ u8 r.payload 5 ≤ 9))) (h1 : 1 ≤ u8 r.payload 1) (h6 : u8 r.payload 1 ≤ 6) :
    effLineCreate r s = if u8 r.payload 3 == 1 then
      .later [] (s.handle (laneKey (u8 r.payload 0))) ((s.lineMade r).schedule .line (r.origin (s.handle (laneKey (u8 r.payload 0))))
        (.live (laneKey (u8 r.payload 0)) true))
    else .done [] (s.handle (laneKey (u8 r.payload 0))) (s.lineMade r) := by
  have hmode : ((s.inService || s.mode == .maintenance) && !thas s.objs (laneKey (u8 r.payload 0))) = true := by
    rcases hm with h | h <;> simp [h, hfree]
  have hfields : (decide (1 ≤ u8 r.payload 1) && decide (u8 r.payload 1 ≤ 6) && decide (u8 r.payload 3 ≤ 1) && zeros r.payload 6 2 &&
      (if modeAus (u8 r.payload 1) != 0 then (u8 r.payload 2 == 1 || u8 r.payload 2 == 2) && decide (3 ≤ u8 r.payload 4) && decide (u8 r.payload 4 ≤ 5) &&
        (u8 r.payload 5 == 0 || (decide (5 ≤ u8 r.payload 5) && decide (u8 r.payload 5 ≤ 9)))
      else u8 r.payload 2 == 0 && u8 r.payload 4 == 0 && u8 r.payload 5 == 0)) = true := by
    have hmodes : u8 r.payload 1 = 1 ∨ u8 r.payload 1 = 2 ∨ u8 r.payload 1 = 3 ∨ u8 r.payload 1 = 4 ∨ u8 r.payload 1 = 5 ∨ u8 r.payload 1 = 6 := by
      omega
    rcases hmodes with h | h | h | h | h | h
    all_goals
      have heth := heth
      have hsdh := hsdh
      rw [h] at heth hsdh ⊢
      simp_all [modeAus]
  have hnone : s.obj (laneKey (u8 r.payload 0)) = none := by simpa [thas, State.obj] using hfree
  have hhandle : (s.lineMade r).handle (laneKey (u8 r.payload 0)) = s.handle (laneKey (u8 r.payload 0)) := addObj_handle hnone ..
  rw [← hhandle]
  simp only [effLineCreate, nullTarget_null ht, decide_eq_true hlo, decide_eq_true hhi, Bool.and_self, hmode, hfields, need_true, beq_iff_eq]
  rfl

/-- The path that E1PathCreate makes on a line. -/
def e1Of (p : Bytes) (lane : Nat) : E1 where
  lane := lane
  a := u8 p 4
  k := u8 p 5
  l := u8 p 6
  m := u8 p 7
  crcMode := u8 p 8
  ts16 := u8 p 9
  idle := u8 p 10
  ptr := PtrState.init
  rx := E1Rx.init
  slip := []
  lastRead := []
  rxNow := []
  rxDone := []
  tx := []
  casTx := []
  txFrame := 0
  txCrc := 0
  txCrcLast := 0
  rei := 0
  defects := 0
  stats := []

def State.e1Made (s : State) (r : Req) (key lane : Nat) : State :=
  (s.addObj key r.mbx (u8 r.payload 11 == 1) 0 []).updFramer fun f => { f with e1 := tset f.e1 (kidx key) (e1Of r.payload lane) }

/-- The AU-4s of a lane's structure. -/
def State.ausOf (s : State) (l : Nat) : Nat := match tget? s.framer.lanes l with | some x => modeAus x.mode | none => 0

theorem effE1PathCreate_makes {r : Req} {s : State} {lk i : Nat} (ht : r.target = 0) (hk : s.lives (u32 r.payload 0) lk 9) (hlk : 568 ≤ kidx lk)
    (hserv : s.inService = true) (hline : s.sdhWorking (kidx lk - 544) = true)
    (hloc : locOk 1 (s.ausOf (kidx lk - 544)) (u8 r.payload 4) (u8 r.payload 5) (u8 r.payload 6) (u8 r.payload 7) = true)
    (h8 : u8 r.payload 8 ≤ 2) (h9 : u8 r.payload 9 ≤ 1) (h11 : u8 r.payload 11 ≤ 1)
    (hterm : s.terminated (kidx lk - 544) (u8 r.payload 4) (u8 r.payload 5) (u8 r.payload 6 * 16 + u8 r.payload 7) = false)
    (hi : s.lowestFree 9 0 504 = some i) :
    effE1PathCreate r s = if u8 r.payload 11 == 1 then
      .later [] (s.handle (okey 9 i)) ((s.e1Made r (okey 9 i) (kidx lk - 544)).schedule .line (r.origin (s.handle (okey 9 i))) (.live (okey 9 i) true))
    else .done [] (s.handle (okey 9 i)) (s.e1Made r (okey 9 i) (kidx lk - 544)) := by
  have hhandle : (s.e1Made r (okey 9 i) (kidx lk - 544)).handle (okey 9 i) = s.handle (okey 9 i) := addObj_handle (lowestFree_free hi) ..
  rw [← hhandle]
  unfold effE1PathCreate
  dsimp only
  rw [nullTarget_null ht, withHandle_ok hk, hserv, need_true, hline, hterm]
  refine (need_of ?_).trans ?_
  · simp only [decide_eq_true hlk, decide_eq_true h8, decide_eq_true h9, decide_eq_true h11, Bool.true_and, Bool.and_true]
    exact hloc
  · simp only [Bool.not_false, need_true, State.create, hi, beq_iff_eq]
    rfl

/-- The group that VcatGroupCreate makes. -/
def vcatOf (p : Bytes) : Vcat where
  ty := u8 p 0
  members := vcatMembers p
  maxDelay := u8 p 2
  home := u8 p 3
  pfcs := u8 p 4 == 1
  gfp := 0
  scrTx := 0
  scrRx := 0
  defects := 0
  stats := []

/-- A group's cost reserved, and the overhead of its home port where it is the port's first (R619). -/
def State.groupRoom (s : State) (p : Bytes) : State :=
  let s1 := s.reserve (overCost (vcatCost (u8 p 0) (u8 p 1) (u8 p 2)) [])
  if (s.homeGroups (u8 p 3)).isEmpty then s1.updPort (u8 p 3) fun q => { q with overhead := if u8 p 4 == 1 then 12 else 8 } else s1

theorem groupRoom_objs (s : State) (p : Bytes) : (s.groupRoom p).objs = s.objs ∧ (s.groupRoom p).gens = s.gens := by
  unfold State.groupRoom
  dsimp only
  split <;> exact ⟨rfl, rfl⟩

/-- The group with its object and its queue. -/
def State.groupMade (s : State) (r : Req) (key : Nat) : State :=
  ((((s.groupRoom r.payload).addObj key r.mbx (u8 r.payload 5 == 1) 0 (vcatCost (u8 r.payload 0) (u8 r.payload 1) (u8 r.payload 2))).updFramer fun f =>
    { f with groups := tset f.groups (kidx key - 504) (vcatOf r.payload) }).addQueue (0xB100 + (kidx key - 504))
      (tget 0 (vcatCost (u8 r.payload 0) (u8 r.payload 1) (u8 r.payload 2)) (bkey 0x000D 0)))

theorem groupMade_framer (s : State) (r : Req) (key : Nat) :
    tget? (s.groupMade r key).framer.groups (kidx key - 504) = some (vcatOf r.payload) := tget?_tset_same ..

theorem groupMade_obj (s : State) (r : Req) (key : Nat) : (s.groupMade r key).pathMade key r (u8 r.payload 5 == 1) :=
  addObj_made (s.groupRoom r.payload) key r (u8 r.payload 5 == 1) 0 (vcatCost (u8 r.payload 0) (u8 r.payload 1) (u8 r.payload 2))

theorem groupMade_handle {s : State} {key : Nat} (h : s.obj key = none) (r : Req) : (s.groupMade r key).handle key = s.handle key := by
  obtain ⟨hobjs, hgens⟩ := groupRoom_objs s r.payload
  have hfree : (s.groupRoom r.payload).obj key = none := by rw [State.obj, hobjs]; exact h
  refine (addObj_handle hfree r.mbx 0 (u8 r.payload 5 == 1) (vcatCost (u8 r.payload 0) (u8 r.payload 1) (u8 r.payload 2))).trans ?_
  unfold State.handle State.ownGen State.obj State.gen
  rw [hobjs, hgens]

theorem effVcatGroupCreate_makes {r : Req} {s : State} {i : Nat} (ht : r.target = 0) (hlo : 24 ≤ u8 r.payload 3) (hhi : u8 r.payload 3 < 32)
    (hserv : s.inService = true) (h0 : 1 ≤ u8 r.payload 0) (h0' : u8 r.payload 0 ≤ 3) (h1 : 1 ≤ u8 r.payload 1)
    (h1' : u8 r.payload 1 ≤ if u8 r.payload 0 = 3 then 16 else 48) (h2 : u8 r.payload 2 ≤ 64) (h4 : u8 r.payload 4 ≤ 1)
    (hz : zeros r.payload 6 10 = true)
    (hon : u8 r.payload 5 = 0 ∨ (u8 r.payload 5 = 1 ∧ ((s.homeGroups (u8 r.payload 3)).any fun e => s.isActive (groupKey e.1)) = false ∧
      tget 0 s.used (bkey 0x000B (u8 r.payload 3)) ≤ (vcatOf r.payload).ceiling))
    (hms : ∀ m ∈ vcatMembers r.payload, 24 ≤ m.lane ∧ m.lane < 32 ∧ s.sdhWorking m.lane = true ∧
      locOk (u8 r.payload 0) (s.ausOf m.lane) m.a m.k (m.lm / 16) (m.lm % 16) = true ∧ s.terminated m.lane m.a m.k m.lm = false)
    (hapart : membersApart (vcatMembers r.payload) = true) (hi : s.lowestFree 9 504 64 = some i)
    (hroom : s.admits (vcatCost (u8 r.payload 0) (u8 r.payload 1) (u8 r.payload 2)) = true) :
    effVcatGroupCreate r s = if u8 r.payload 5 == 1 then
      .later [] (s.handle (okey 9 i)) ((s.groupMade r (okey 9 i)).schedule .line (r.origin (s.handle (okey 9 i))) (.live (okey 9 i) true))
    else .done [] (s.handle (okey 9 i)) (s.groupMade r (okey 9 i)) := by
  have hlanes : (vcatMembers r.payload).all (fun m => decide (24 ≤ m.lane) && decide (m.lane < 32)) = true :=
    List.all_eq_true.2 fun m hm => by simp [(hms m hm).1, (hms m hm).2.1]
  have hlocs : (vcatMembers r.payload).all (fun m => s.sdhWorking m.lane &&
      locOk (u8 r.payload 0) (s.ausOf m.lane) m.a m.k (m.lm / 16) (m.lm % 16)) = true :=
    List.all_eq_true.2 fun m hm => by simp [(hms m hm).2.2.1, (hms m hm).2.2.2.1]
  have hfree : (vcatMembers r.payload).all (fun m => !s.terminated m.lane m.a m.k m.lm) = true :=
    List.all_eq_true.2 fun m hm => by simp [(hms m hm).2.2.2.2]
  have h5 : u8 r.payload 5 ≤ 1 := by rcases hon with h | ⟨h, -⟩ <;> omega
  have hactive : (!(u8 r.payload 5 == 1 && (s.homeGroups (u8 r.payload 3)).any fun e => s.isActive (groupKey e.1))) = true := by
    rcases hon with h | ⟨-, h, -⟩ <;> simp [h]
  have hrate : ¬ (u8 r.payload 5 == 1 && decide ((vcatOf r.payload).ceiling < tget 0 s.used (bkey 0x000B (u8 r.payload 3)))) = true := by
    rcases hon with h | ⟨-, -, h⟩
    · simp [h]
    · simp [h]
  rw [← groupMade_handle (lowestFree_free hi) r]
  unfold effVcatGroupCreate
  dsimp only
  rw [nullTarget_null ht, hlanes, hserv, hapart, hfree, hactive, decide_eq_true hlo, decide_eq_true hhi]
  simp only [Bool.and_self, need_true]
  refine (need_of ?_).trans ?_
  · simp only [decide_eq_true h0, decide_eq_true h0', decide_eq_true h1, decide_eq_true h1', decide_eq_true h2, decide_eq_true h4, decide_eq_true h5, hz,
      Bool.true_and]
    exact hlocs
  · simp only [State.create, hi, admission_admits hroom]
    exact if_neg hrate

/-! ### Pairs, channels and status (R607, R611, R614, Table 19.10) -/

theorem updLane_lane (s : State) (w : Nat) (f : Lane → Lane) : tget? (s.updLane w f).framer.lanes w = (tget? s.framer.lanes w).map f :=
  tget?_tupd_same ..

theorem effMspSet_pairs {r : Req} {s : State} {wk pk : Nat} {lw lq : Lane} (hw : s.lives r.tgt wk 9) (h0 : u32 r.payload 0 ≠ 0)
    (hp : s.lives (u32 r.payload 0) pk 9) (hwk : 568 ≤ kidx wk) (hpk : 568 ≤ kidx pk) (hne : kidx pk ≠ kidx wk)
    (hlw : tget? s.framer.lanes (kidx wk - 544) = some lw) (hlq : tget? s.framer.lanes (kidx pk - 544) = some lq) (hsdh : modeAus lw.mode ≠ 0)
    (hmode : lq.mode = lw.mode) (hfree : lq.msp = none) (hnot : s.protects (kidx wk - 544) = none)
    (hown : ∀ e, s.protects (kidx pk - 544) = some e → e.1 = kidx wk - 544) (hbw : s.pathBusy (laneKey (kidx wk - 544)) = false)
    (hbp : s.pathBusy (laneKey (kidx pk - 544)) = false) (h4 : u8 r.payload 4 ≤ 3)
    (h5 : if u8 r.payload 4 / 2 = 1 then 1 ≤ u8 r.payload 5 ∧ u8 r.payload 5 ≤ 12 else u8 r.payload 5 = 0) (hz : zeros r.payload 6 2 = true) :
    effMspSet r s = .done [] r.tgt (s.updLane (kidx wk - 544) fun l => { l with
      msp := some (Msp.new (kidx pk - 544) (u8 r.payload 4) (u8 r.payload 5)) }) := by
  have hapart : (kidx pk - 544 != kidx wk - 544) = true := bne_iff_ne.2 (by omega)
  have htime : (if u8 r.payload 4 / 2 = 1 then decide (1 ≤ u8 r.payload 5) && decide (u8 r.payload 5 ≤ 12) else u8 r.payload 5 == 0) = true := by
    split at h5
    · rw [if_pos ‹_›]
      simpa using h5
    · rw [if_neg ‹_›]
      simpa using h5
  unfold effMspSet
  dsimp only
  rw [withHandle_ok hw, State.withHandle0, if_neg h0, withHandle_ok hp]
  refine (need_of ?_).trans ((need_of ?_).trans ((need_of ?_).trans (need_of ?_)))
  · simp [hlw, hwk, hsdh]
  · simp [hpk, hapart]
  · simp only [hlw, hlq, hbw, hbp, hmode, hnot, hfree, Bool.not_false, Bool.and_self, beq_self_eq_true, Option.isNone_none, Bool.true_and, Bool.and_true]
    split
    · exact beq_iff_eq.2 (hown _ ‹_›)
    · rfl
  · simp [h4, htime, hz]

theorem effMspSet_dissolves {r : Req} {s : State} {wk : Nat} {lw : Lane} {m : Msp} (hw : s.lives r.tgt wk 9) (h0 : u32 r.payload 0 = 0)
    (h4 : u8 r.payload 4 = 0) (h5 : u8 r.payload 5 = 0) (hz : zeros r.payload 6 2 = true) (hwk : 568 ≤ kidx wk)
    (hlw : tget? s.framer.lanes (kidx wk - 544) = some lw) (hsdh : modeAus lw.mode ≠ 0) (hm : lw.msp = some m)
    (hbw : s.pathBusy (laneKey (kidx wk - 544)) = false) :
    effMspSet r s = .done [] r.tgt (s.updLane (kidx wk - 544) fun l => { l with msp := none }) := by
  unfold effMspSet
  dsimp only
  rw [withHandle_ok hw, State.withHandle0, if_pos h0]
  refine (need_of ?_).trans ((need_of ?_).trans (need_of ?_))
  · simp [hlw, hwk, hsdh]
  · simp [hlw, hm, hbw]
  · simp [h4, h5, hz]

theorem effCasSet_waits {r : Req} {s : State} {key : Nat} {e : E1} (hk : s.lives r.tgt key 9) (hkey : kidx key < 504)
    (he : tget? s.framer.e1 (kidx key) = some e) (hts : e.ts16 = 1) (h0 : 1 ≤ u8 r.payload 0) (h0' : u8 r.payload 0 ≤ 30) (h1 : 1 ≤ u8 r.payload 1)
    (h1' : u8 r.payload 1 ≤ 15) (hz : zeros r.payload 2 2 = true) :
    effCasSet r s = .later [] r.tgt (s.schedule (.cas (kidx key)) (r.origin r.tgt) (.cas (kidx key) (u8 r.payload 0) (u8 r.payload 1))) := by
  unfold effCasSet
  dsimp only
  rw [withHandle_ok hk, if_pos hkey, he]
  refine (need_of ?_).trans ((need_of ?_).trans (need_of ?_))
  · simp [h0, h0']
  · simp [hts]
  · simp [h1, h1', hz]

/-! ### Defects and the evaluation of a pair (R611, R614, R615) -/

/-- Two states have the same objects, and what `g` reads of each lane. -/
def State.keepsLanes {β : Type} (g : Lane → β) (s t : State) : Prop :=
  t.objs = s.objs ∧ ∀ w, (tget? t.framer.lanes w).map g = (tget? s.framer.lanes w).map g

section
variable {β : Type} {g : Lane → β}

theorem keepsLanes_refl (s : State) : s.keepsLanes g s := ⟨rfl, fun _ => rfl⟩

theorem keepsLanes_trans {a b c : State} (h : a.keepsLanes g b) (k : b.keepsLanes g c) : a.keepsLanes g c :=
  ⟨k.1.trans h.1, fun w => (k.2 w).trans (h.2 w)⟩

theorem keepsLanes_foldl {α : Type} {f : State → α → State} (h : ∀ s a, State.keepsLanes g s (f s a)) (l : List α) (s : State) :
    s.keepsLanes g (l.foldl f s) := by
  induction l generalizing s with
  | nil => exact keepsLanes_refl s
  | cons a l ih => exact keepsLanes_trans (h s a) (ih _)

theorem keepsLanes_of_same {s t : State} (h : s.sameBut t) : s.keepsLanes g t := by
  unfold State.sameBut at h
  rw [h]
  exact keepsLanes_refl s

theorem keepsLanes_some {s t : State} (h : s.keepsLanes g t) {w : Nat} {l : Lane} (hl : tget? s.framer.lanes w = some l) :
    ∃ x, tget? t.framer.lanes w = some x ∧ g x = g l := by
  have hw := h.2 w
  rw [hl, Option.map_some] at hw
  exact Option.map_eq_some_iff.1 hw

theorem updLane_keeps (s : State) (w : Nat) (f : Lane → Lane) (h : ∀ l, g (f l) = g l) : s.keepsLanes g (s.updLane w f) :=
  ⟨rfl, fun _ => tget?_tupd_keeps h ..⟩

theorem updE1_keeps (s : State) (i : Nat) (f : E1 → E1) : s.keepsLanes g (s.updE1 i f) := keepsLanes_refl s

end

/-- A defect word with a bit declared or cleared. -/
def setBit (d : BitVec 32) (c : Nat) (on : Bool) : BitVec 32 :=
  if on then d ||| BitVec.ofNat 32 (2 ^ c) else d &&& ~~~(BitVec.ofNat 32 (2 ^ c))

theorem setBit_bit (d : BitVec 32) (c : Nat) (on : Bool) {b : Nat} (hb : b < 32) :
    (setBit d c on).getLsbD b = if b = c then on else d.getLsbD b := by
  have hbit : (BitVec.ofNat 32 (2 ^ c)).getLsbD b = decide (c = b) := by
    rw [BitVec.getLsbD_ofNat, Nat.testBit_two_pow, decide_eq_true hb, Bool.true_and]
  unfold setBit
  cases on
  · rw [if_neg Bool.false_ne_true, BitVec.getLsbD_and, BitVec.getLsbD_not, hbit, decide_eq_true hb, Bool.true_and]
    by_cases h : b = c
    · simp [h]
    · simp [h, Ne.symm h]
  · rw [if_pos rfl, BitVec.getLsbD_or, hbit]
    by_cases h : b = c
    · simp [h]
    · simp [h, Ne.symm h]

/-- The defect of a path changed, before the alarm for it. -/
def State.defectSet (s : State) (key c : Nat) (on : Bool) : State :=
  if kidx key < 504 then s.updE1 (kidx key) fun e => { e with defects := setBit e.defects c on }
  else if kidx key < 568 then s.updGroup (kidx key - 504) fun g => { g with defects := setBit g.defects c on }
  else s.updLane (kidx key - 544) fun l => { l with defects := setBit l.defects c on }

theorem setDefect_set {s : State} {key c : Nat} {on : Bool} (h : (s.defects key).getLsbD c ≠ on) :
    (s.defectSet key c on).sameBut (s.setDefect key c on) := by
  unfold State.setDefect
  rw [if_neg h]
  extract_lets f i s'
  have hset : s.defectSet key c on = s' := rfl
  rw [hset]
  split
  · rfl
  · exact raise_same s' ..

theorem setDefect_still {s : State} {key c : Nat} {on : Bool} (h : (s.defects key).getLsbD c = on) : s.setDefect key c on = s := by
  unfold State.setDefect
  exact if_pos h

theorem setDefect_keeps {β : Type} {g : Lane → β} (s : State) (key c : Nat) (on : Bool)
    (hg : ∀ l : Lane, g { l with defects := setBit l.defects c on } = g l) : s.keepsLanes g (s.setDefect key c on) := by
  by_cases h : (s.defects key).getLsbD c = on
  · rw [setDefect_still h]
    exact keepsLanes_refl s
  · refine keepsLanes_trans ?_ (keepsLanes_of_same (setDefect_set h))
    unfold State.defectSet
    split
    · exact updE1_keeps ..
    · split
      · exact keepsLanes_refl s
      · exact updLane_keeps s _ _ hg

theorem pathBump_keeps {β : Type} {g : Lane → β} (hg : ∀ (l : Lane) st, g { l with stats := st } = g l) (s : State) (key off n : Nat) :
    s.keepsLanes g (s.pathBump key off n) := by
  unfold State.pathBump
  extract_lets i f
  split
  · exact updE1_keeps ..
  · split
    · exact keepsLanes_refl s
    · exact updLane_keeps s _ _ fun l => hg l _

section
variable {β : Type} {g : Lane → β} (hg : ∀ (l : Lane) st, g { l with stats := st } = g l)
  (hg' : ∀ l : Lane, g { l with defects := setBit l.defects 8 true } = g l)
include hg hg'

theorem e1Search_keeps (s : State) (i : Nat) : s.keepsLanes g (s.e1Search i) := by
  unfold State.e1Search
  split
  · exact keepsLanes_refl s
  next e _ =>
  have hsearch : s.keepsLanes g (s.updE1 i fun e => { e with rx := e.rx.search }) := updE1_keeps ..
  dsimp only
  split
  · exact keepsLanes_trans hsearch (keepsLanes_trans (pathBump_keeps hg ..) (setDefect_keeps _ _ 8 true hg'))
  · exact hsearch

theorem realign_keeps (s : State) (w : Nat) : s.keepsLanes g (s.realign w) :=
  keepsLanes_trans (b := (s.tribsOf w).foldl State.e1Search s) (keepsLanes_foldl (e1Search_keeps hg hg') _ _) ⟨rfl, fun _ => rfl⟩

end

/-- The pair after its evaluation. -/
def State.pairAfter (s : State) (w : Nat) (p : Msp) : Msp :=
  let loc := s.localReq w { p with waiting := false, dnr := false }
  let base := maxReq loc (s.remoteReq w p)
  let p1 := { p with
    waiting := p.revertive && (p.waiting || (p.sel && p.failed != 0)) && decide (base.1 ≤ 6)
    dnr := !p.revertive && (p.dnr || (p.sel && base.1 == 0)) && decide (base.1 ≤ 1)
    failed := if loc.2 = 1 ∧ (loc.1 = 13 ∨ loc.1 = 11) then loc.1 else 0 }
  let req := maxReq (s.localReq w p1) (s.remoteReq w p1)
  { p1 with sel := req.2 == 1 && req.1 != 15 && req.1 != 0 }

theorem pairAfter_given (s : State) (w : Nat) (p : Msp) : (s.pairAfter w p).cmd = p.cmd ∧ (s.pairAfter w p).prot = p.prot := ⟨rfl, rfl⟩

def State.pairStored (s : State) (w : Nat) (p : Msp) : State := s.updLane w fun l => { l with msp := some (s.pairAfter w p) }

/-- The evaluation of a pair stores its running state; where the selector moves the lower paths realign and the switch is told. -/
theorem mspEval_eq {s : State} {w : Nat} {l : Lane} {p : Msp} (hl : tget? s.framer.lanes w = some l) (hp : l.msp = some p) :
    s.mspEval w = if (s.pairAfter w p).sel = p.sel then s.pairStored w p
      else ((s.pairStored w p).realign w).raise (laneKey w) 0xFE01
        (le 1 (if (s.pairAfter w p).sel then 1 else 0) ++ le 1 p.k1 ++ le 1 p.k2 ++ le 5 0 ++ le 8 (s.pairStored w p).block) := by
  unfold State.mspEval
  rw [hl]
  dsimp -zeta only
  rw [hp]
  rfl

theorem mspEval_stored {β : Type} {g : Lane → β} (hg : ∀ (l : Lane) st, g { l with stats := st } = g l)
    (hg' : ∀ l : Lane, g { l with defects := setBit l.defects 8 true } = g l) {s : State} {w : Nat} {l : Lane} {p : Msp}
    (hl : tget? s.framer.lanes w = some l) (hp : l.msp = some p) : (s.pairStored w p).keepsLanes g (s.mspEval w) := by
  rw [mspEval_eq hl hp]
  split
  · exact keepsLanes_refl _
  · exact keepsLanes_trans (realign_keeps hg hg' ..) (keepsLanes_of_same (raise_same ..))

theorem mspEval_pair {s : State} {w : Nat} {l : Lane} {m : Msp} (hl : tget? s.framer.lanes w = some l) (hm : l.msp = some m) :
    (s.mspEval w).objs = s.objs ∧ ∃ x p, tget? (s.mspEval w).framer.lanes w = some x ∧ x.msp = some p ∧ p.cmd = m.cmd ∧ p.prot = m.prot := by
  have hkeep : State.keepsLanes Lane.msp (s.pairStored w m) (s.mspEval w) := mspEval_stored (fun _ _ => rfl) (fun _ => rfl) hl hm
  have hset : tget? (s.pairStored w m).framer.lanes w = some { l with msp := some (s.pairAfter w m) } := by
    rw [State.pairStored, updLane_lane, hl, Option.map_some]
  obtain ⟨x, hx, hp⟩ := keepsLanes_some hkeep hset
  exact ⟨hkeep.1, x, _, hx, hp, pairAfter_given s w m⟩

theorem mspEval_keeps {β : Type} {g : Lane → β} (hg : ∀ (l : Lane) st, g { l with stats := st } = g l)
    (hg' : ∀ l : Lane, g { l with defects := setBit l.defects 8 true } = g l) (hm : ∀ (l : Lane) m, g { l with msp := m } = g l) (s : State) (w : Nat) :
    s.keepsLanes g (s.mspEval w) := by
  cases hl : tget? s.framer.lanes w with
  | none =>
    unfold State.mspEval
    rw [hl]
    exact keepsLanes_refl s
  | some l =>
    cases hmsp : l.msp with
    | none =>
      unfold State.mspEval
      rw [hl]
      dsimp only
      rw [hmsp]
      exact keepsLanes_refl s
    | some m =>
      exact keepsLanes_trans (updLane_keeps s w _ fun l => hm l _) (mspEval_stored hg hg' hl hmsp)

/-! ### The commands of a pair and of a channel, and the status -/

theorem effMspCommand_evaluates {r : Req} {s : State} {wk : Nat} {lw : Lane} {m : Msp} (hw : s.lives r.tgt wk 9) (hwk : 568 ≤ kidx wk)
    (hlw : tget? s.framer.lanes (kidx wk - 544) = some lw) (hm : lw.msp = some m) (h0 : u8 r.payload 0 ≤ 5) (hz : zeros r.payload 1 3 = true) :
    effMspCommand r s = .done [] r.tgt ((s.updLane (kidx wk - 544) fun l => { l with
      msp := some { m with cmd := u8 r.payload 0, waiting := m.waiting && u8 r.payload 0 != 0 } }).mspEval (kidx wk - 544)) := by
  unfold effMspCommand
  dsimp only
  rw [withHandle_ok hw, hlw, Option.bind_some, hm]
  refine (need_of (decide_eq_true hwk)).trans (need_of ?_)
  simp [h0, hz]

theorem effFramerStatusGet_answers {r : Req} {s : State} {key : Nat} (hk : s.lives r.tgt key 9) :
    ∃ p : Bytes, effFramerStatusGet r s = .done p r.tgt s ∧ p.length = 48 ∧ p.take 4 = le 4 (s.defects key).toNat := by
  unfold effFramerStatusGet
  rw [withHandle_ok hk]
  dsimp only
  refine ⟨_, rfl, ?_, ?_⟩
  · simp only [List.length_append, le_length, List.length_flatten, List.map_map]
    have hsum (t : Table Nat) : (List.map (List.length ∘ fun n => le 4 (tget 0 t (4 + 4 * n))) (List.range 9)).sum = 36 := by
      simp [Function.comp_def]
    rw [hsum]
    generalize (if 568 ≤ kidx key then (tget? s.framer.lanes (kidx key - 544)).bind (·.msp) else none) = m
    cases m
    · rw [le_length]
    · simp only [List.length_append, le_length]
  · simp only [List.append_assoc]
    exact List.take_left' (le_length ..)

theorem effPathDestroy_waits {r : Req} {s : State} {key : Nat} (hk : s.lives r.tgt key 9) (hb : s.pathBusy key = false) :
    effPathDestroy r s = s.destroyAt r key .line := by
  simp only [effPathDestroy, withHandle_ok hk, hb, Bool.not_false, need_true]

theorem effPathEnable_path {r : Req} {s : State} {key : Nat} (hk : s.lives r.tgt key 9) (ha : s.isActive key = false)
    (hp : kidx key < 504 ∨ 568 ≤ kidx key) : effPathEnable r s = .later [] r.tgt
      ((s.updObj key fun o => { o with active := true }).schedule .line (r.origin r.tgt) (.live key true)) := by
  have hno : ¬ (decide (504 ≤ kidx key) && decide (kidx key < 568)) = true := by
    simp only [Bool.and_eq_true, decide_eq_true_eq]
    omega
  unfold effPathEnable
  rw [withHandle_ok hk]
  dsimp only
  rw [if_neg hno, ha]
  rfl

theorem effPathEnable_group {r : Req} {s : State} {key : Nat} {g : Vcat} (hk : s.lives r.tgt key 9) (ha : s.isActive key = false)
    (h1 : 504 ≤ kidx key) (h2 : kidx key < 568) (hg : tget? s.framer.groups (kidx key - 504) = some g)
    (hfree : ((s.homeGroups g.home).any fun e => s.isActive (groupKey e.1)) = false) (hroom : tget 0 s.used (bkey 0x000B g.home) ≤ g.ceiling) :
    effPathEnable r s = .later [] r.tgt
      ((s.updObj key fun o => { o with active := true }).schedule .line (r.origin r.tgt) (.live key true)) := by
  unfold effPathEnable
  rw [withHandle_ok hk]
  dsimp only
  rw [if_pos (by simp [h1, h2]), hg, ha]
  dsimp only
  rw [hfree]
  exact if_neg (Nat.not_lt.2 hroom)

theorem effPathHold_waits {r : Req} {s : State} {key : Nat} (hk : s.lives r.tgt key 9) (ha : s.isActive key = true) :
    effPathHold r s = .later [] r.tgt
      ((s.updObj key fun o => { o with active := false }).schedule .line (r.origin r.tgt) (.live key false)) := by
  simp only [effPathHold, withHandle_ok hk, ha, need_true]

/-- Settles O47: each command by what its own part answers, with the objects and paths it makes (`pathMade_command`), and the evaluation of a
pair by what it leaves of the lanes (`mspEval_pair`). -/
theorem framerCommandsComplete : Obligations.FramerCommandsComplete := by
  unfold Obligations.FramerCommandsComplete
  refine ⟨fun r s s1 l h ht hl hlane hlo hhi hm hfree h3 hz heth hsdh h1 h6 => ?_,
    fun r s s1 lk lane i h ht hl hk hlane hlk hserv hline hloc h8 h9 h11 hterm hi => ?_,
    fun r s s1 i h ht hl hlo hhi hserv h0 h0' h1 h1' h2 h4 hz hon hms hapart hi hroom => ?_, fun r s s1 key h hl hk hb => ?_,
    fun r s s1 key h hl hk ha hp => ?_, fun r s s1 key g h hl hk ha h1 h2 hg hfree hroom => ?_, fun r s s1 key h hl hk ha => ?_,
    fun r s s1 wk pk lw lq h hl hw h0 hp hwk hpk hne hlw hlq hsdh hmode hfree hnot hown hbw hbp h4 h5 hz => ?_,
    fun r s s1 wk lw m h hl hw hz0 h0 h4 h5 hz hwk hlw hsdh hm hbw => ?_, fun r s s1 wk lw m h hl hw hwk hlw hm h0 hz => ?_,
    fun r s s1 key e h hl hk hkey he hts h0 h0' h1 h1' hz => ?_, fun r s s1 key h hl hk => ?_⟩
  · subst hlane
    have hown := effLineCreate_makes (r := r) (s := s1) ht hlo hhi hm hfree h3 hz heth hsdh h1 h6
    obtain ⟨t, hrun, hlanes, hobj⟩ := pathMade_command (p := fun u => tget? u.framer.lanes (u8 r.payload 0) = some (lineOf r.payload) ∧
      u.pathMade (laneKey (u8 r.payload 0)) r (u8 r.payload 3 == 1)) h (len := (· == 8)) (by rw [hl]; rfl) (u8 r.payload 3 == 1) hown
      (fun u hf ho => ⟨by rw [hf]; exact tget?_tset_same .., by unfold State.pathMade; rw [ho]; exact addObj_made s1 ..⟩)
    simp only [beq_iff_eq] at hrun
    exact ⟨t, hrun, ⟨_, hlanes, rfl, rfl, rfl, rfl⟩, hobj⟩
  · rw [hlane] at hline hloc hterm ⊢
    have hown := effE1PathCreate_makes ht hk hlk hserv hline hloc h8 h9 h11 hterm hi
    obtain ⟨t, hrun, hpath, hobj⟩ := pathMade_command (p := fun u => tget? u.framer.e1 (kidx (okey 9 i)) = some (e1Of r.payload (kidx lk - 544)) ∧
      u.pathMade (okey 9 i) r (u8 r.payload 11 == 1)) h (len := (· == 12)) (by rw [hl]; rfl) (u8 r.payload 11 == 1) hown
      (fun u hf ho => ⟨by rw [hf]; exact tget?_tset_same .., by unfold State.pathMade; rw [ho]; exact addObj_made s1 ..⟩)
    simp only [beq_iff_eq] at hrun
    exact ⟨t, hrun, ⟨_, hpath, rfl, rfl, rfl, rfl, rfl, rfl, rfl, rfl⟩, hobj⟩
  · have hcap : u8 r.payload 5 = 0 ∨ (u8 r.payload 5 = 1 ∧ ((s1.homeGroups (u8 r.payload 3)).any fun e => s1.isActive (groupKey e.1)) = false ∧
        tget 0 s1.used (bkey 0x000B (u8 r.payload 3)) ≤ (vcatOf r.payload).ceiling) :=
      hon.imp_right fun ⟨h5, hact, hceil⟩ => ⟨h5, hact, hceil (vcatOf r.payload) rfl rfl⟩
    have hown := effVcatGroupCreate_makes ht hlo hhi hserv h0 h0' h1 h1' h2 h4 hz hcap hms hapart hi hroom
    obtain ⟨t, hrun, hgroup, hobj⟩ := pathMade_command (p := fun u => tget? u.framer.groups (kidx (okey 9 i) - 504) = some (vcatOf r.payload) ∧
      u.pathMade (okey 9 i) r (u8 r.payload 5 == 1)) h (len := (· == 16 + 4 * u8 r.payload 1)) (by rw [hl]; exact beq_self_eq_true _)
      (u8 r.payload 5 == 1) hown
      (fun u hf ho => ⟨by rw [hf]; exact groupMade_framer .., by unfold State.pathMade; rw [ho]; exact groupMade_obj ..⟩)
    simp only [beq_iff_eq] at hrun
    exact ⟨t, hrun, ⟨_, hgroup, rfl, rfl, rfl, rfl⟩, hobj⟩
  · obtain ⟨t, ht, hgen, hsched⟩ := destroyAt_waits s1 r key .line
    exact ⟨t, exec_accepted h (by rw [hl]; rfl) ((effPathDestroy_waits hk hb).trans ht), hgen, hsched⟩
  · exact exec_accepted h (by rw [hl]; rfl) (effPathEnable_path hk ha hp)
  · exact exec_accepted h (by rw [hl]; rfl) (effPathEnable_group hk ha h1 h2 hg hfree hroom)
  · exact exec_accepted h (by rw [hl]; rfl) (effPathHold_waits hk ha)
  · exact exec_answered h (by rw [hl]; rfl) (effMspSet_pairs hw h0 hp hwk hpk hne hlw hlq hsdh hmode hfree hnot hown hbw hbp h4 h5 hz)
  · exact exec_answered h (by rw [hl]; rfl) (effMspSet_dissolves hw h0 h4 h5 hz hwk hlw hsdh hm hbw)
  · have hset : tget? (s1.updLane (kidx wk - 544) fun l => { l with
        msp := some { m with cmd := u8 r.payload 0, waiting := m.waiting && u8 r.payload 0 != 0 } }).framer.lanes (kidx wk - 544) =
        some { lw with msp := some { m with cmd := u8 r.payload 0, waiting := m.waiting && u8 r.payload 0 != 0 } } := by
      rw [updLane_lane, hlw, Option.map_some]
    obtain ⟨hobjs, x, p, hx, hp, hcmd, hprot⟩ := mspEval_pair hset rfl
    exact ⟨_, exec_answered h (by rw [hl]; rfl) (effMspCommand_evaluates hw hwk hlw hm h0 hz), hobjs, x, p, hx, hp, hcmd, hprot⟩
  · exact exec_accepted h (by rw [hl]; rfl) (effCasSet_waits hk hkey he hts h0 h0' h1 h1' hz)
  · obtain ⟨p, hp, hlen, htake⟩ := effFramerStatusGet_answers hk
    exact ⟨p, exec_answered h (by rw [hl]; rfl) hp, hlen, htake⟩

end Sys2Proof.Machine
end

section
/-!
PROOFS. Line frames, defects and the timers of protection (chapter 19).
-/

namespace Sys2Proof.Machine

/-! ### One defect of a lane or an E1 path (R611) -/

theorem laneKey_idx {w : Nat} (h : w < 32) : kidx (laneKey w) = 544 + w := kidx_okey (by omega)

theorem e1Key_idx {i : Nat} (h : i < 504) : kidx (e1Key i) = i := kidx_okey (by omega)

theorem lane_defects {s : State} {w : Nat} {l : Lane} (hlo : 24 ≤ w) (hhi : w < 32) (hl : tget? s.framer.lanes w = some l) :
    s.defects (laneKey w) = l.defects := by
  unfold State.defects
  dsimp only
  rw [laneKey_idx hhi, if_neg (by omega), if_neg (by omega), Nat.add_sub_cancel_left, hl]

theorem e1_defects {s : State} {i : Nat} {e : E1} (hi : i < 504) (he : tget? s.framer.e1 i = some e) : s.defects (e1Key i) = e.defects := by
  unfold State.defects
  dsimp only
  rw [e1Key_idx hi, if_pos hi, he]

/-- A defect word has one bit set as asked, and its others as they were. -/
def bitSet (d e : BitVec 32) (c : Nat) (on : Bool) : Prop := e.getLsbD c = on ∧ ∀ b, b < 32 → b ≠ c → e.getLsbD b = d.getLsbD b

theorem bitSet_setBit (d : BitVec 32) {c : Nat} (hc : c < 32) (on : Bool) : bitSet d (setBit d c on) c on :=
  ⟨by rw [setBit_bit d c on hc, if_pos rfl], fun b hb hne => by rw [setBit_bit d c on hb, if_neg hne]⟩

theorem sameBut_framer {s t : State} (h : s.sameBut t) : t.framer = s.framer ∧ t.objs = s.objs := by
  unfold State.sameBut at h
  rw [h]
  exact ⟨rfl, rfl⟩

theorem setDefect_lane {s : State} {w : Nat} {l : Lane} (hlo : 24 ≤ w) (hhi : w < 32) (hl : tget? s.framer.lanes w = some l) {c : Nat} (hc : c < 32)
    (on : Bool) : (s.setDefect (laneKey w) c on).objs = s.objs ∧
    ∃ d, tget? (s.setDefect (laneKey w) c on).framer.lanes w = some { l with defects := d } ∧ bitSet l.defects d c on := by
  by_cases h : (s.defects (laneKey w)).getLsbD c = on
  · rw [setDefect_still h]
    rw [lane_defects hlo hhi hl] at h
    exact ⟨rfl, l.defects, hl, h, fun _ _ _ => rfl⟩
  · obtain ⟨hfr, hobjs⟩ := sameBut_framer (setDefect_set h)
    have hset : s.defectSet (laneKey w) c on = s.updLane w fun l => { l with defects := setBit l.defects c on } := by
      rw [State.defectSet, laneKey_idx hhi, if_neg (by omega), if_neg (by omega), Nat.add_sub_cancel_left]
    rw [hset] at hfr hobjs
    exact ⟨hobjs, _, by rw [hfr, updLane_lane, hl, Option.map_some], bitSet_setBit l.defects hc on⟩

theorem updE1_e1 (s : State) (i : Nat) (f : E1 → E1) : tget? (s.updE1 i f).framer.e1 i = (tget? s.framer.e1 i).map f := tget?_tupd_same ..

theorem setDefect_e1 {s : State} {i : Nat} {e : E1} (hi : i < 504) (he : tget? s.framer.e1 i = some e) {c : Nat} (hc : c < 32) (on : Bool) :
    (s.setDefect (e1Key i) c on).objs = s.objs ∧
    ∃ d, tget? (s.setDefect (e1Key i) c on).framer.e1 i = some { e with defects := d } ∧ bitSet e.defects d c on := by
  by_cases h : (s.defects (e1Key i)).getLsbD c = on
  · rw [setDefect_still h]
    rw [e1_defects hi he] at h
    exact ⟨rfl, e.defects, he, h, fun _ _ _ => rfl⟩
  · obtain ⟨hfr, hobjs⟩ := sameBut_framer (setDefect_set h)
    have hset : s.defectSet (e1Key i) c on = s.updE1 i fun e => { e with defects := setBit e.defects c on } := by
      rw [State.defectSet, e1Key_idx hi, if_pos hi]
    rw [hset] at hfr hobjs
    refine ⟨hobjs, _, ?_, bitSet_setBit e.defects hc on⟩
    rw [hfr, updE1_e1, he, Option.map_some]

theorem pathBump_e1 {s : State} {i : Nat} {e : E1} (hi : i < 504) (he : tget? s.framer.e1 i = some e) (off n : Nat) :
    (s.pathBump (e1Key i) off n).objs = s.objs ∧ ∃ st, tget? (s.pathBump (e1Key i) off n).framer.e1 i = some { e with stats := st } := by
  unfold State.pathBump
  dsimp only
  rw [e1Key_idx hi, if_pos hi]
  refine ⟨rfl, if n = 0 then e.stats else tset e.stats off (tget 0 e.stats off + n), ?_⟩
  rw [updE1_e1, he, Option.map_some]

/-! ### What the signs of a lane are, and what the evaluation of a pair leaves of them -/

/-- What the alarms of chapter 19 say of a lane: its structure, its alignment, and the defects LOS, LOF and FOP. -/
def Lane.signs (l : Lane) : Nat × Bool × Bool × Bool × Bool :=
  (l.mode, l.inFrame, l.defects.getLsbD 1, l.defects.getLsbD 2, l.defects.getLsbD 14)

theorem signs_eight (l : Lane) : Lane.signs { l with defects := setBit l.defects 8 true } = l.signs := by
  have h (b : Nat) (hb : b < 32) (hne : b ≠ 8) : (setBit l.defects 8 true).getLsbD b = l.defects.getLsbD b := by
    rw [setBit_bit _ _ _ hb, if_neg hne]
  unfold Lane.signs
  rw [h 1 (by omega) (by omega), h 2 (by omega) (by omega), h 14 (by omega) (by omega)]

theorem mspEval_signs {s : State} {w : Nat} {l : Lane} (hl : tget? s.framer.lanes w = some l) (v : Nat) :
    (s.mspEval v).objs = s.objs ∧ ∃ x, tget? (s.mspEval v).framer.lanes w = some x ∧ x.signs = l.signs := by
  have h : s.keepsLanes Lane.signs (s.mspEval v) := mspEval_keeps (fun _ _ => rfl) signs_eight (fun _ _ => rfl) s v
  exact ⟨h.1, keepsLanes_some h hl⟩

theorem signs_fields {x : Lane} {m : Nat} {i a b c : Bool} (h : x.signs = (m, i, a, b, c)) :
    x.mode = m ∧ x.inFrame = i ∧ x.defects.getLsbD 1 = a ∧ x.defects.getLsbD 2 = b ∧ x.defects.getLsbD 14 = c := by
  simpa [Lane.signs] using h

/-- A defect of a lane declared or cleared, and the pairs evaluated. -/
theorem alarmed_spec {s : State} {w : Nat} {l : Lane} (hlo : 24 ≤ w) (hhi : w < 32) (hl : tget? s.framer.lanes w = some l) {c : Nat} (hc : c < 32)
    (on : Bool) (v : Nat) : ((s.setDefect (laneKey w) c on).mspEval v).objs = s.objs ∧
    ∃ x d, tget? ((s.setDefect (laneKey w) c on).mspEval v).framer.lanes w = some x ∧ bitSet l.defects d c on ∧ x.mode = l.mode ∧
      x.inFrame = l.inFrame ∧ x.defects.getLsbD 1 = d.getLsbD 1 ∧ x.defects.getLsbD 2 = d.getLsbD 2 ∧ x.defects.getLsbD 14 = d.getLsbD 14 := by
  obtain ⟨hobjs, d, hd, hbits⟩ := setDefect_lane hlo hhi hl hc on
  obtain ⟨kobjs, x, hx, hsigns⟩ := mspEval_signs hd v
  exact ⟨kobjs.trans hobjs, x, d, hx, hbits, signs_fields hsigns⟩

/-! ### The timers of alignment and of protection (R599, R602, R613, R615) -/

theorem losDeclare_clears {s : State} {w : Nat} {l : Lane} (hlo : 24 ≤ w) (hhi : w < 32) (hl : tget? s.framer.lanes w = some l)
    (hm : modeAus l.mode ≠ 0) : ∃ t : State, exec (.losDeclare w) s = .next t ∧ t.objs = s.objs ∧
      ∃ x, tget? t.framer.lanes w = some x ∧ x.inFrame = false ∧ x.defects.getLsbD 1 = true ∧ x.mode = l.mode := by
  have hrun : exec (.losDeclare w) s = execLosDeclare w s := rfl
  have hcount : s.keepsLanes (fun l => (l.mode, l.defects)) (if l.inFrame then s.pathBump (laneKey w) 28 1 else s) := by
    split
    · exact pathBump_keeps (fun _ _ => rfl) ..
    · exact keepsLanes_refl s
  obtain ⟨y, hy, hkept⟩ := keepsLanes_some hcount hl
  obtain ⟨hmode, -⟩ := Prod.mk.inj hkept
  have hsearch : tget? ((if l.inFrame then s.pathBump (laneKey w) 28 1 else s).updLane w fun l =>
      { l with inFrame := false, cands := [] }).framer.lanes w = some { y with inFrame := false, cands := [] } := by
    rw [updLane_lane, hy, Option.map_some]
  rw [hrun, execLosDeclare, if_neg (by omega), hl]
  dsimp only
  rw [if_neg hm]
  obtain ⟨hobjs, x, d, hx, hbits, kmode, kframe, k1, -, -⟩ := alarmed_spec hlo hhi hsearch (c := 1) (by omega) true _
  exact ⟨_, rfl, hobjs.trans hcount.1, x, hx, kframe, k1.trans hbits.1, kmode.trans hmode⟩

theorem lofDeclare_declares {s : State} {w : Nat} {l : Lane} (hlo : 24 ≤ w) (hhi : w < 32) (hl : tget? s.framer.lanes w = some l)
    (hm : modeAus l.mode ≠ 0) (hf : l.inFrame = false) : ∃ t : State, exec (.lofDeclare w) s = .next t ∧ t.objs = s.objs ∧
      ∃ x, tget? t.framer.lanes w = some x ∧ x.inFrame = false ∧ x.defects.getLsbD 2 = true := by
  have hrun : exec (.lofDeclare w) s = execLofDeclare w s := rfl
  rw [hrun, execLofDeclare, hl]
  dsimp only
  rw [if_neg (by simp [hf, hm])]
  obtain ⟨hobjs, x, d, hx, hbits, -, kframe, -, k2, -⟩ := alarmed_spec hlo hhi hl (c := 2) (by omega) true _
  exact ⟨_, rfl, hobjs, x, hx, kframe.trans hf, k2.trans hbits.1⟩

theorem lofClear_clears {s : State} {w : Nat} {l : Lane} (hlo : 24 ≤ w) (hhi : w < 32) (hl : tget? s.framer.lanes w = some l)
    (hf : l.inFrame = true) : ∃ t : State, exec (.lofClear w) s = .next t ∧ t.objs = s.objs ∧
      ∃ x, tget? t.framer.lanes w = some x ∧ x.inFrame = true ∧ x.defects.getLsbD 2 = false := by
  have hrun : exec (.lofClear w) s = execLofClear w s := rfl
  rw [hrun, execLofClear, hl]
  dsimp only
  rw [if_neg (by simp [hf])]
  obtain ⟨hobjs, x, d, hx, hbits, -, kframe, -, k2, -⟩ := alarmed_spec hlo hhi hl (c := 2) (by omega) false _
  exact ⟨_, rfl, hobjs, x, hx, kframe.trans hf, k2.trans hbits.1⟩

theorem crc4MultiframeTimeout_searches {s : State} {i : Nat} {e : E1} (hi : i < 504) (he : tget? s.framer.e1 i = some e) (hf : e.rx.inFrame = true)
    (hon : e.rx.crcOn = false) (hm : e.crcMode ≠ 0) (hoff : e.rx.crcOff = false) :
    ∃ t : State, exec (.crc4MultiframeTimeout i) s = .next t ∧ t.objs = s.objs ∧
      ∃ x, tget? t.framer.e1 i = some x ∧ x.rx.inFrame = false ∧ x.defects.getLsbD 10 = true ∧ x.crcMode = e.crcMode := by
  have hrun : exec (.crc4MultiframeTimeout i) s = execCrc4MultiframeTimeout i s := rfl
  have hsearch : tget? (s.updE1 i fun e => { e with rx := e.rx.search }).framer.e1 i = some { e with rx := e.rx.search } := by
    rw [updE1_e1, he, Option.map_some]
  obtain ⟨hobjs, st, h1⟩ := pathBump_e1 hi hsearch 28 1
  obtain ⟨kobjs, d, h2, -⟩ := setDefect_e1 hi h1 (c := 8) (by omega) true
  obtain ⟨jobjs, d', h3, hbit, -⟩ := setDefect_e1 hi h2 (c := 10) (by omega) true
  rw [hrun, execCrc4MultiframeTimeout, he]
  dsimp only
  rw [if_pos (by simp [hf, hon, hm, hoff])]
  exact ⟨_, rfl, jobjs.trans (kobjs.trans hobjs), _, h3, rfl, hbit, rfl⟩

theorem crc4AutoFallback_goesOn {s : State} {i : Nat} {e : E1} (hi : i < 504) (he : tget? s.framer.e1 i = some e) (hm : e.crcMode = 2)
    (hon : e.rx.crcOn = false) (hoff : e.rx.crcOff = false) :
    ∃ t : State, exec (.crc4AutoFallback i) s = .next t ∧ t.objs = s.objs ∧
      ∃ x, tget? t.framer.e1 i = some x ∧ x.rx.crcOff = true ∧ x.defects.getLsbD 12 = true ∧ x.defects.getLsbD 10 = false := by
  have hrun : exec (.crc4AutoFallback i) s = execCrc4AutoFallback i s := rfl
  have hset : tget? (s.updE1 i fun e => { e with rx := { e.rx with crcOff := true } }).framer.e1 i =
      some { e with rx := { e.rx with crcOff := true } } := by rw [updE1_e1, he, Option.map_some]
  obtain ⟨hobjs, d, h1, h10, -⟩ := setDefect_e1 hi hset (c := 10) (by omega) false
  obtain ⟨kobjs, d', h2, h12, hrest⟩ := setDefect_e1 hi h1 (c := 12) (by omega) true
  rw [hrun, execCrc4AutoFallback, he]
  dsimp only
  rw [if_pos ⟨hm, hon, hoff⟩]
  exact ⟨_, rfl, kobjs.trans hobjs, _, h2, rfl, h12, (hrest 10 (by omega) (by omega)).trans h10⟩

theorem fopDeclare_run {s : State} {w : Nat} {l : Lane} {p : Msp} (hl : tget? s.framer.lanes w = some l) (hp : l.msp = some p) :
    exec (.fopDeclare w) s = .next (if 12 ≤ p.stale then (s.setDefect (laneKey w) 14 true).mspEval w else s) := by
  have hrun : exec (.fopDeclare w) s = execFopDeclare w s := rfl
  rw [hrun, execFopDeclare, hl]
  dsimp only
  rw [hp]
  dsimp only
  split <;> rfl

theorem waitToRestoreExpiry_reverts {s : State} {w : Nat} {l : Lane} {p : Msp} (hl : tget? s.framer.lanes w = some l) (hp : l.msp = some p)
    (hw : p.waiting = true) (hreq : (maxReq (s.localReq w { p with waiting := false }) (s.remoteReq w p)).1 = 0) :
    ∃ t : State, exec (.waitToRestoreExpiry w) s = .next t ∧ t.objs = s.objs ∧
      ∃ x q, tget? t.framer.lanes w = some x ∧ x.msp = some q ∧ q.waiting = false ∧ q.sel = false ∧ q.prot = p.prot := by
  have hrun : exec (.waitToRestoreExpiry w) s = execWaitToRestoreExpiry w s := rfl
  have hset : tget? (s.updLane w fun l => { l with msp := some { p with waiting := false, sel := false } }).framer.lanes w =
      some { l with msp := some { p with waiting := false, sel := false } } := by rw [updLane_lane, hl, Option.map_some]
  have hkeep : State.keepsLanes Lane.msp (s.updLane w fun l => { l with msp := some { p with waiting := false, sel := false } })
      ((((s.updLane w fun l => { l with msp := some { p with waiting := false, sel := false } }).realign w).raise (laneKey w) 0xFE01
        (le 1 0 ++ le 1 p.k1 ++ le 1 p.k2 ++ le 5 0 ++ le 8 s.block))) :=
    keepsLanes_trans (realign_keeps (fun _ _ => rfl) (fun _ => rfl) ..) (keepsLanes_of_same (raise_same ..))
  obtain ⟨x, hx, hmsp⟩ := keepsLanes_some hkeep hset
  rw [hrun, execWaitToRestoreExpiry, hl]
  dsimp only
  rw [hp]
  dsimp only
  rw [if_pos (by simp [hw, hreq])]
  exact ⟨_, rfl, hkeep.1, x, _, hx, hmsp, rfl, rfl, rfl⟩

/-! ### The frame of a lane that is the framer's only path (R598, R599) -/

/-- A state whose framer has one lane and no lower path. -/
def State.sole (s : State) (w : Nat) (l : Lane) : State := { s with framer := { lanes := [(w, l)], e1 := [], groups := [] } }

theorem sole_of {s : State} {w : Nat} {l : Lane} (hl : s.framer.lanes = [(w, l)]) (he : s.framer.e1 = []) (hg : s.framer.groups = []) :
    s = s.sole w l := by
  have h : s.framer = { lanes := [(w, l)], e1 := [], groups := [] } := by rw [← hl, ← he, ← hg]
  unfold State.sole
  rw [← h]

/-- A count of a lane raised. -/
def Lane.bumped (l : Lane) (off n : Nat) : Lane := { l with stats := if n = 0 then l.stats else tset l.stats off (tget 0 l.stats off + n) }

theorem bumped_count (l : Lane) (off n : Nat) : tget 0 (l.bumped off n).stats off = tget 0 l.stats off + n := by
  unfold Lane.bumped
  dsimp only
  split
  · omega
  · exact tget_tset_same ..

theorem bumped_other (l : Lane) {off o : Nat} (n : Nat) (h : o ≠ off) : tget 0 (l.bumped off n).stats o = tget 0 l.stats o := by
  unfold Lane.bumped
  dsimp only
  split
  · rfl
  · exact tget_tset_other _ _ _ h

section
variable (s : State) {w : Nat} (l : Lane)

theorem sole_lane : tget? (s.sole w l).framer.lanes w = some l := by simp [State.sole, tget?]

theorem sole_updLane (f : Lane → Lane) : (s.sole w l).updLane w f = s.sole w (f l) := by
  simp [State.sole, State.updLane, State.updFramer, tupd]

theorem sole_bump (hlo : 24 ≤ w) (hhi : w < 32) (off n : Nat) : (s.sole w l).pathBump (laneKey w) off n = s.sole w (l.bumped off n) := by
  unfold State.pathBump
  dsimp only
  rw [laneKey_idx hhi, if_neg (by omega), if_neg (by omega), Nat.add_sub_cancel_left, sole_updLane]
  rfl

theorem sole_clear (hlo : 24 ≤ w) (hhi : w < 32) (hd : l.defects = 0) (c : Nat) : (s.sole w l).setDefect (laneKey w) c false = s.sole w l :=
  setDefect_still (by rw [lane_defects hlo hhi (sole_lane s l), hd]; simp)

theorem sole_align (hf : l.inFrame = true) : (s.sole w l).laneAlign w [l.pos] = s.sole w { l with badA := 0 } := by
  unfold State.laneAlign
  rw [sole_lane]
  dsimp only
  rw [if_pos hf, if_pos (by simp), sole_updLane]

/-- A lane after the overhead of a frame whose K2 asks for nothing. -/
def Lane.heard (l : Lane) (rx : LineRx) : Lane :=
  { ((l.bumped 4 rx.b1).bumped 8 rx.b2).bumped 12 rx.m1 with aisRow := 0, rei := l.rei + rx.b2 }

theorem sole_overhead (hlo : 24 ≤ w) (hhi : w < 32) (hd : l.defects = 0) {rx : LineRx} (hk : rx.k2 = 0) (hb : rx.ber = 0) :
    (s.sole w l).laneOverhead w rx = s.sole w (l.heard rx) := by
  have hrow : ¬ rx.k2.toNat % 8 = 7 := by rw [hk]; decide
  unfold State.laneOverhead
  rw [sole_lane]
  dsimp only
  rw [sole_bump s _ hlo hhi, sole_bump s _ hlo hhi, sole_bump s _ hlo hhi, sole_updLane, if_neg hrow, hb]
  simp only [Nat.not_lt_zero, decide_false, Bool.and_false, show decide (3 ≤ 0) = false from rfl]
  have hclear (c : Nat) : (s.sole w (l.heard rx)).setDefect (laneKey w) c false = s.sole w (l.heard rx) := sole_clear s (l.heard rx) hlo hhi hd c
  show (((s.sole w (l.heard rx)).setDefect (laneKey w) 3 false).setDefect (laneKey w) 4 false).setDefect (laneKey w) 5 false = s.sole w (l.heard rx)
  rw [hclear, hclear, hclear]

theorem sole_au (hlo : 24 ≤ w) (hhi : w < 32) (hd : l.defects = 0) (ha : l.au = []) :
    (s.sole w l).auRx w [] = s.sole w { l with au := [], auRei := [] } := by
  unfold State.auRx
  rw [sole_lane]
  dsimp only
  rw [ha, sole_updLane]
  simp only [List.filter_nil, List.length_nil, List.foldl_nil, List.any_nil, List.map_nil]
  rw [sole_bump s _ hlo hhi, sole_clear s _ hlo hhi (by exact hd)]
  rfl

theorem sole_lower (hlo : 24 ≤ w) (hhi : w < 32) (hd : l.defects = 0) (ha : l.au = []) (hf : l.inFrame = true) {rx : LineRx} (hrx : rx.au = []) :
    (s.sole w l).lowerPaths w w rx = (s.sole w { l with au := [], auRei := [] }, []) := by
  have hmembers (u : State) (hu : u.framer.groups = []) (ms : List MemberIn) : ms.foldl (State.memberRx w) u = u := by
    induction ms with
    | nil => rfl
    | cons m ms ih =>
      have hone : u.memberRx w m = u := by
        unfold State.memberRx
        rw [hu]
        rfl
      rw [List.foldl_cons, hone, ih]
  have hgood : ((s.sole w l).defects (laneKey w) &&& 0xE#32 != 0 || !l.inFrame) = false := by
    rw [lane_defects hlo hhi (sole_lane s l), hd, hf]
    rfl
  unfold State.lowerPaths
  rw [sole_lane]
  dsimp only
  rw [hgood, hrx]
  simp only [Bool.false_eq_true, if_false]
  have htribs : (s.sole w { l with au := [], auRei := [] }).tribsOf w = [] := rfl
  rw [sole_au s l hlo hhi hd ha, htribs]
  dsimp only [List.foldl_nil]
  rw [hmembers _ rfl, htribs]
  rfl

/-- What a lane sends that nothing is multiplexed into: its error counts returned in M1. -/
def State.soleTx (s : State) (w : Nat) (l : Lane) : LineTx where
  loop := l.loop && !l.defects.getLsbD 1
  k1 := 0
  k2 := 0
  m1 := l.rei
  s1 := 0x0F
  trace := if s.now / 125000 % 16 = 0 then 1 else 0
  au := (s.sole w l).auTx w l
  trib := []
  members := []

/-- A lane whose errors have been returned. -/
def Lane.sent (l : Lane) : Lane := { l with rei := 0 }

theorem sole_send (hlo : 24 ≤ w) (hhi : w < 32) (hd : l.defects = 0) :
    (s.sole w l).lineSend w w 0 0 [] = (s.emit (.line w (s.soleTx w l))).sole w l.sent := by
  have hgood : ((s.sole w l).defects (laneKey w) &&& 0xE#32 != 0) = false := by
    rw [lane_defects hlo hhi (sole_lane s l), hd]
    rfl
  have hmembers : (s.sole w l).membersTx w = [] := rfl
  unfold State.lineSend
  rw [sole_lane]
  dsimp only
  rw [hgood, hmembers]
  simp only [Bool.false_eq_true, if_false, ite_self]
  exact sole_updLane (s.emit (.line w (s.soleTx w l))) l fun x => { x with rei := 0 }

/-- The lane with its pattern found, and with the frame's overhead and its AU-4s taken. -/
def Lane.aligned (l : Lane) : Lane := { l with badA := 0 }
def Lane.received (l : Lane) (rx : LineRx) : Lane := { l.aligned.heard rx with au := [], auRei := [] }

theorem sole_frame (hlo : 24 ≤ w) (hhi : w < 32) (hm : modeAus l.mode ≠ 0) (hp : l.msp = none) (hd : l.defects = 0) (hf : l.inFrame = true)
    {rx : LineRx} (hpat : rx.patterns = [l.pos]) (hrx : rx.au = []) (ha : l.au = []) (hk : rx.k2 = 0) (hb : rx.ber = 0) :
    (s.sole w l).lineFrame w rx =
      (s.emit (.line w (s.soleTx w (l.received rx)))).sole w (l.received rx).sent := by
  have halign : (s.sole w l).laneAlign w [l.pos] = s.sole w l.aligned := sole_align s l hf
  have hclear : (s.sole w l.aligned).setDefect (laneKey w) 1 false = s.sole w l.aligned := sole_clear s l.aligned hlo hhi hd 1
  have hover : (s.sole w l.aligned).laneOverhead w rx = s.sole w (l.aligned.heard rx) := sole_overhead s l.aligned hlo hhi hd hk hb
  have hlower : (s.sole w (l.aligned.heard rx)).lowerPaths w w rx = (s.sole w (l.received rx), []) :=
    sole_lower s (l.aligned.heard rx) hlo hhi hd ha hf hrx
  have hsend := sole_send s (l.received rx) hlo hhi hd
  have hmsp : (l.aligned.heard rx).msp = none := hp
  have hmsp' : (l.received rx).msp = none := by
    unfold Lane.received
    exact hmsp
  have hprot : (s.sole w (l.aligned.heard rx)).protects w = none := by simp [State.protects, State.sole, hmsp]
  have heval : (s.sole w (l.aligned.heard rx)).mspEval w = s.sole w (l.aligned.heard rx) := by
    unfold State.mspEval
    rw [sole_lane]
    dsimp only
    rw [hmsp]
  have hserves : (s.sole w (l.aligned.heard rx)).serving? w = w := by
    unfold State.serving?
    rw [sole_lane]
    dsimp only
    rw [hmsp]
  unfold State.lineFrame
  rw [sole_lane]
  dsimp -zeta only
  rw [if_neg hm]
  extract_lets s1 inFrame s2 s3 prot s4 v
  have e1 : s1 = s.sole w l.aligned := by
    unfold s1
    rw [hpat, halign]
  have ein : inFrame = true := by
    unfold inFrame
    rw [e1, sole_lane]
    exact hf
  have e2 : s2 = s.sole w l.aligned := by
    unfold s2
    rw [hpat, e1]
    exact hclear
  have e3 : s3 = s.sole w (l.aligned.heard rx) := by
    unfold s3
    rw [if_pos ein, e2, hover]
  have eprot : prot = none := by
    unfold prot
    rw [e3, hprot]
  have e4 : s4 = s.sole w (l.aligned.heard rx) := by
    unfold s4
    rw [eprot, e3]
    exact heval
  have ev : v = w := by
    unfold v
    rw [eprot]
  clear_value s4 v
  subst e4 ev
  rw [if_neg (by rw [hserves]; simp), hlower]
  dsimp only
  rw [sole_lane, Option.bind_some, hmsp']
  exact hsend

theorem sent_fields (rx : LineRx) : (l.received rx).sent.inFrame = l.inFrame ∧ (l.received rx).sent.pos = l.pos ∧ (l.received rx).sent.badA = 0 ∧
    (l.received rx).sent.defects = l.defects := by
  unfold Lane.sent Lane.received Lane.heard Lane.bumped Lane.aligned
  exact ⟨rfl, rfl, rfl, rfl⟩

theorem sent_counts (rx : LineRx) : tget 0 (l.received rx).sent.stats 4 = tget 0 l.stats 4 + rx.b1 ∧
    tget 0 (l.received rx).sent.stats 8 = tget 0 l.stats 8 + rx.b2 := by
  have hstats : (l.received rx).sent.stats = (((l.aligned.bumped 4 rx.b1).bumped 8 rx.b2).bumped 12 rx.m1).stats := rfl
  have hbase : l.aligned.stats = l.stats := rfl
  rw [hstats, ← hbase]
  constructor
  · rw [bumped_other _ _ (by decide), bumped_other _ _ (by decide), bumped_count]
  · rw [bumped_other _ _ (by decide), bumped_count, bumped_other _ _ (by decide)]

end

/-! ### A line frame (R595) -/

theorem lineFrame_plain {s : State} {w : Nat} (hlo : 24 ≤ w) (hhi : w < 32) (hu : s.unitDown 0x0B 0 = false) (hs : s.sched = [])
    (ha : s.audio.legs = []) (t : Nat) (rx : LineRx) : exec (.lineFrame w t rx) s = .next ((s.at t).lineFrame w rx) := by
  have hrun : exec (.lineFrame w t rx) s = execLineFrame w t rx s := rfl
  have hdue (p : Boundary → Bool) : (s.at t).runDue p = s.at t := runDue_none fun e he => by
    rw [at_sched, hs] at he
    cases he
  have hlegs : (s.at t).audio.legs = [] := by rw [(at_keepsMix s t).2, ha]
  have hmute : (s.at t).muteTdm = s.at t := by
    unfold State.muteTdm
    rw [hlegs]
    rfl
  rw [hrun, execLineFrame, if_neg (by omega), if_neg (by simp [hu])]
  dsimp only
  rw [hdue, hmute]

/-- Settles O48: a frame of a lane alone is traced through its steps (`sole_frame`); alarms and the timers of protection by what the
evaluation of a pair leaves of the lanes (`alarmed_spec`). -/
theorem framerEventsComplete : Obligations.FramerEventsComplete := by
  unfold Obligations.FramerEventsComplete
  refine ⟨fun w t rx s hlo hhi hu => ?_, fun w t rx s hlo hhi hu hs ha hl => ?_,
    fun w t rx s l hlo hhi hu hs ha hl he hg hm hp hd hf hpat hrx hau hrow hk hb => ?_, fun w s l hlo hhi hl hm => losDeclare_clears hlo hhi hl hm,
    fun w s l hl hlo hhi hm hf => lofDeclare_declares hlo hhi hl hm hf, fun w s l hl hlo hhi hf => lofClear_clears hlo hhi hl hf,
    fun i s e hi he hf hon hm hoff => crc4MultiframeTimeout_searches hi he hf hon hm hoff,
    fun i s e hi he hm hon hoff => crc4AutoFallback_goesOn hi he hm hon hoff, fun w s l p hlo hhi hl hp h12 => ?_, fun w s l p hl hp h12 => ?_,
    fun w s l p hlo hhi hl hp hw hreq => waitToRestoreExpiry_reverts hl hp hw hreq⟩
  · have hrun : exec (.lineFrame w t rx) s = execLineFrame w t rx s := rfl
    rw [hrun, execLineFrame, if_neg (by omega)]
    exact if_neg (by simp [hu])
  · rw [lineFrame_plain hlo hhi hu hs ha, State.lineFrame, at_framer, hl]
  · have hsole : s.at t = (s.at t).sole w l := sole_of (by rw [at_framer, hl]) (by rw [at_framer, he]) (by rw [at_framer, hg])
    obtain ⟨hin, hpos, hbad, hdef⟩ := sent_fields l rx
    obtain ⟨hb1, hb2⟩ := sent_counts l rx
    have hframe : (s.at t).lineFrame w rx = ((s.at t).emit (.line w ((s.at t).soleTx w (l.received rx)))).sole w (l.received rx).sent :=
      (congrArg (fun u => State.lineFrame u w rx) hsole).trans (sole_frame (s.at t) l hlo hhi hm hp hd hf hpat hrx hau hk hb)
    have hout : Out.line w ((s.at t).soleTx w (l.received rx)) :: (s.at t).out = Out.line w ((s.at t).soleTx w (l.received rx)) :: s.out :=
      congrArg _ (at_out s t)
    exact ⟨_, (lineFrame_plain hlo hhi hu hs ha t rx).trans (congrArg Host.Outcome.next hframe), at_objs s t, rfl,
      ⟨(s.at t).soleTx w (l.received rx), hout, rfl, rfl, rfl, rfl, rfl⟩, (l.received rx).sent, sole_lane _ _, hin.trans hf, hpos, hbad, hdef.trans hd,
      hb1, hb2⟩
  · obtain ⟨hobjs, x, d, hx, hbits, -, -, -, -, h14⟩ := alarmed_spec hlo hhi hl (c := 14) (by omega) true w
    rw [fopDeclare_run hl hp, if_pos h12]
    exact ⟨_, rfl, hobjs, x, hx, h14.trans hbits.1⟩
  · rw [fopDeclare_run hl hp, if_neg (by omega)]

end Sys2Proof.Machine
end

section
/-!
PROOFS. The cascade's timers (chapter 20): the leg of a rolled-back trunk end takes the meter subscriptions on it along, and their
generations move on.
-/

namespace Sys2Proof.Machine

/-- A bridge that has lost its master three blocks ago, with an uncommitted trunk end at index 10 * 2^20, whose key is that of meter
subscription 0, its leg, and a live subscription 0 of one point on that leg. -/
def meteredEnd : State :=
  let s := idleAt 6000000 .cascadeMember
  { s with
    objs := [(okey 0x0C 0, { owner := 4, active := true, flow := true, dying := false, unborn := false, shedClass := 1, shed := false, cost := [] })]
    audio := { s.audio with legs := [(0, Leg.new (trunkCfg 1 0 0) 0 0 0 0x4000 0 0)] }
    matrix := { s.matrix with
      subs := [(0, {
        period := 50, hold := 0, decay := 0, blocks := 0
        points := [{ leg := okey 2 10485760, output := false, held := 0, age := 0, peak := 0, msSum := 0, clipped := false }] })] }
    cascade := { s.cascade with
      st := 3
      ends := [(10485760, {
        trunk := 1, far := 2, send := some 2, recv := some 3, prot := false, arrived := false, gap := false
        onProt := false, told := 0, prepared := some 0 })] } }

theorem meteredEnd_rollback :
    ∃ t, exec .spanningCommandRollback meteredEnd = .next t ∧ t.gen (okey 2 10485760) = 2 := ⟨_, rfl, by decide⟩

/-- Refutes O50: the rollback of a trunk end is said to keep the generation of the end's key. On `meteredEnd` that key is also the key of a
meter subscription on the leg, which goes with the leg, its generation moved from 1 to 2. -/
theorem not_cascadeComplete : ¬ Obligations.CascadeComplete := by
  unfold Obligations.CascadeComplete
  rintro ⟨-, -, -, -, -, -, -, -, -, -, -, -, -, -, -, -, -, -, -, -, -, -, hrollback, -⟩
  obtain ⟨t, ht, -, hgen, -⟩ := hrollback meteredEnd 10485760 _ 0 (by decide) rfl rfl (by decide)
  obtain ⟨u, hu, hmoved⟩ := meteredEnd_rollback
  rw [Host.Outcome.next.inj (ht.symm.trans hu), hmoved] at hgen
  exact absurd hgen (by decide)

end Sys2Proof.Machine
end

section
/-!
PROOFS. The trio's commands, its vote and its lease (chapter 21).
-/

namespace Sys2Proof.Machine

/-! ### The commands (Tables 21.3 to 21.5, R652, R653, R669, R672, R673) -/

section
variable {r : Req} {s : State}

theorem effTrioJoin_begins (ht : r.target = 0) (hno : s.trio.id = 0) (hmay : s.mayForm (u8 r.payload 1) = true) (hlo : 1 ≤ u8 r.payload 0)
    (hhi : u8 r.payload 0 ≤ 31) (hne : u8 r.payload 0 ≠ s.nmc.addr) (htopo : u8 r.payload 1 = 1 ∨ u8 r.payload 1 = 2)
    (hz : zeros r.payload 2 2 = true) :
    effTrioJoin r s = .done [] 0 ((s.beginForming r.mbx (Forming.new true (u8 r.payload 1) [] [] s.now)).updCas fun c =>
      { c with master := u8 r.payload 0 }) := by
  unfold effTrioJoin
  exact (nullTarget_null ht _).trans ((need_of (by simp [htopo])).trans ((need_of (by simp [hno, hmay])).trans
    (need_of (by simp [hlo, hhi, hne, hz]))))

theorem effTrioForm_begins (ht : r.target = 0) (hno : s.trio.id = 0) (hmay : s.mayForm (u8 r.payload 0) = true)
    (htopo : u8 r.payload 0 = 1 ∨ u8 r.payload 0 = 2) (hz : zeros r.payload 1 3 = true)
    (hok : s.formOk (u8 r.payload 0) 3 r.payload = true) (hz' : zeros r.payload 64 4 = true) :
    effTrioForm r s = .wait .formation [] ((s.beginForming r.mbx (Forming.new true (u8 r.payload 0) (formAddrs r.payload 3)
      (formReserves r.payload 3) s.now)).updCas fun c => { c with master := s.nmc.addr }) := by
  unfold effTrioForm
  exact (nullTarget_null ht _).trans ((need_of (by simp [htopo])).trans ((need_of (by simp [hno, hmay])).trans
    (need_of (by simp [hz, hok, hz']))))

/-- What a message to every other device of the trio leaves of the state. -/
theorem tellTrio_linkSent (s : State) (c : Control) :
    s.linkSent (s.trio.addrs.foldl (fun s a => if a = s.nmc.addr then s else s.tell a c) s) :=
  linkSent_foldl (fun u a => by
    split
    · exact linkSent_of_same rfl
    · exact tell_linkSent ..) ..

/-- A follower that leaves: the group dies and the leave waits for its block. -/
theorem effTrioLeave_waits {key : Nat} (hk : s.lives r.tgt key 0x0B) (hlead : s.trio.leader ≠ s.nmc.addr) (hstay : s.trio.leaving = none) :
    ∃ t : State, effTrioLeave r s = .later [] r.tgt t ∧ t.trio.leaving = some (s.firstBlock r.mbx) ∧ t.objs = (s.dying (okey 0x0B 0)).objs ∧
      t.gen (okey 0x0B 0) = nextGen (s.gen (okey 0x0B 0)) ∧
      ∃ e ∈ t.sched, e.at_ = .block (s.firstBlock r.mbx) ∧ e.act = .applied ∧ e.org = r.origin r.tgt := by
  have htold := tellTrio_linkSent s .trioLeft
  refine ⟨_, (withHandle_ok hk _).trans ((need_of (bne_iff_ne.2 hlead)).trans (need_of (by simp [hstay]))), ?_, ?_, ?_, schedule_waits ..⟩
  · rw [schedule_frame]
    rfl
  · rw [schedule_frame]
    unfold State.linkSent at htold
    rw [htold]
    rfl
  · rw [schedule_gen]
    unfold State.linkSent at htold
    rw [htold]
    exact dying_gen ..

theorem effTrioHandover_names (ht : r.target = 0) (hid : s.trio.id ≠ 0) (hof : s.trio.addrs.contains (u8 r.payload 0) = true)
    (hne : u8 r.payload 0 ≠ s.nmc.addr) (hlead : s.following = false) (hturn : s.trio.turn = none)
    (hthere : s.trio.present.contains (u8 r.payload 0) = true) (hz : zeros r.payload 1 3 = true) :
    ∃ t : State, effTrioHandover r s = .done (le 8 (s.block + 2)) 0 t ∧ t.objs = s.objs ∧
      t.trio = { s.trio with turn := some (s.block + 2, u8 r.payload 0, 4) } := by
  have htold := tellTrio_linkSent s (.trioTurn (s.block + 2) (u8 r.payload 0))
  refine ⟨_, (nullTarget_null ht _).trans ((need_of (by simp [List.contains_iff_mem.1 hof, hne])).trans ((need_of (by simp [hlead])).trans
    ((need_of (by simp [hid, hturn, List.contains_iff_mem.1 hthere])).trans (need_of hz)))), ?_, ?_⟩
  · unfold State.linkSent at htold
    rw [htold]
    rfl
  · unfold State.linkSent at htold
    rw [htold]
    rfl

theorem effTrioRevertSet_stores (ht : r.target = 0) (hlead : s.following = false) (hn : u16 r.payload 0 = 0 ∨ 50 ≤ u16 r.payload 0)
    (hz : zeros r.payload 2 2 = true) :
    ∃ t : State, effTrioRevertSet r s = .done [] 0 t ∧ t.objs = s.objs ∧ t.trio = { s.trio with revert := u16 r.payload 0 } := by
  have htold := tellTrio_linkSent s (.trioRevert (u16 r.payload 0))
  refine ⟨_, (nullTarget_null ht _).trans ((need_of (by simp [hlead])).trans (need_of (by simp [hn, hz]))), ?_, ?_⟩
  · unfold State.linkSent at htold
    rw [htold]
    rfl
  · unfold State.linkSent at htold
    rw [htold]
    rfl

theorem effTrioRejoin_waits (ht : r.target = 0) (hid : s.trio.id ≠ 0) (hof : s.trio.addrs.contains (u8 r.payload 0) = true)
    (hlead : s.following = false) (haway : s.trio.present.contains (u8 r.payload 0) = false) (hno : s.trio.rejoin = none)
    (hform : s.cascade.forming = none) (hz : zeros r.payload 1 3 = true) :
    effTrioRejoin r s = .wait .formation [] ((s.updTrio fun t => { t with rejoin := some (u8 r.payload 0, s.now) }).updCas fun c =>
      { c with mbx := r.mbx }) := by
  unfold effTrioRejoin
  exact (nullTarget_null ht _).trans ((need_of (by simp [List.contains_iff_mem.1 hof])).trans ((need_of (by simp [hlead])).trans
    ((need_of (by simpa [hid, hno, hform] using haway)).trans (need_of hz))))

/-- The status of a trio is the 48 bytes of Table 21.5, its ID the first eight. -/
theorem effTrioStatusGet_answers (ht : r.target = 0) :
    ∃ p : Bytes, effTrioStatusGet r s = .done p 0 s ∧ p.length = 48 ∧ p.take 8 = le 8 s.trio.id := by
  refine ⟨_, nullTarget_null ht _, by simp only [List.length_append, le_length], ?_⟩
  simp only [List.append_assoc]
  exact List.take_left' (le_length ..)

end

section
variable {r : Req} {s : State} {key : Nat}

theorem effTrioCriticalSet_enters (ht : r.target = 0) (hk : s.checkHandle (u32 r.payload 0) [2, 3, 4, 5] = .ok key)
    (hmay : s.mayBeCritical key = true) (hn : u16 r.payload 4 < (if ktype key = 2 then 1024 else 64)) (hlead : s.following = false)
    (hset : u8 r.payload 6 = 1) (hz : zeros r.payload 7 1 = true) (hkeeps : s.breaksCritical key = false) (hnew : s.critical key = false)
    (hfree : tget? s.trio.entries (if ktype key = 2 then u16 r.payload 4 else 1024 + u16 r.payload 4) = none) :
    effTrioCriticalSet r s = .done [] 0 (s.updTrio fun t => { t with
      entries := tset t.entries (if ktype key = 2 then u16 r.payload 4 else 1024 + u16 r.payload 4)
        { key := key, active := false, configs := [] } }) := by
  unfold effTrioCriticalSet
  refine (nullTarget_null ht _).trans ((withHandle_ok hk _).trans ((need_of (by simp [hmay, hn])).trans ((need_of (by simp [hlead])).trans
    ((need_of (by simp [hset, hz])).trans ((if_neg (by omega)).trans ((need_of (by simp [hkeeps])).trans (need_of ?_)))))))
  simp [hfree, hnew]

theorem effTrioCriticalSet_clears {e : CritEntry} (ht : r.target = 0) (hk : s.checkHandle (u32 r.payload 0) [2, 3, 4, 5] = .ok key)
    (hmay : s.mayBeCritical key = true) (hn : u16 r.payload 4 < (if ktype key = 2 then 1024 else 64)) (hlead : s.following = false)
    (hclear : u8 r.payload 6 = 2) (hz : zeros r.payload 7 1 = true)
    (hheld : tget? s.trio.entries (if ktype key = 2 then u16 r.payload 4 else 1024 + u16 r.payload 4) = some e) (hmine : e.key = key)
    (hapart : s.clearBreaks (if ktype key = 2 then u16 r.payload 4 else 1024 + u16 r.payload 4) = false) :
    effTrioCriticalSet r s = .done [] 0 (s.updTrio fun t => { t with
      entries := tdel t.entries (if ktype key = 2 then u16 r.payload 4 else 1024 + u16 r.payload 4) }) := by
  unfold effTrioCriticalSet
  refine (nullTarget_null ht _).trans ((withHandle_ok hk _).trans ((need_of (by simp [hmay, hn])).trans ((need_of (by simp [hlead])).trans
    ((need_of (by simp [hclear, hz])).trans ((if_pos hclear).trans (need_of ?_))))))
  simp [hheld, hmine, hapart]

end

/-! ### The vote and the lease (R660 to R668) -/

theorem vote_skipped {s : State} (h : s.trio.id = 0 ∨ s.trio.stopped = true) : exec .vote s = .next s := by
  have hrun : exec .vote s = execVote s := rfl
  rw [hrun, execVote, if_pos (by simpa using h)]

theorem vote_held {s : State} (hid : s.trio.id ≠ 0) (hgoes : s.trio.stopped = false) : exec .vote s = .next s.vote := by
  have hrun : exec .vote s = execVote s := rfl
  rw [hrun, execVote, if_neg (by simp [hid, hgoes])]

/-- A leader with nothing to vote on and nobody to hand over to counts a clean block. -/
theorem vote_clean {s : State} (hnone : s.trio.entries = []) (hlead : s.trio.leader = s.nmc.addr) (hturn : s.trio.turn = none)
    (hrevert : s.trio.revert = 0) : s.vote = { s with trio := { s.trio with clean := s.trio.clean + 1 } } := by
  unfold State.vote
  simp [hnone, State.updTrio, State.endorseAtV, hturn, hlead, hrevert]

theorem leaseExpiry_idle {s : State} (h : s.trio.id = 0 ∨ s.trio.leader ≠ s.nmc.addr ∨ s.trio.stopped = true) :
    exec .leaseExpiry s = .next s := by
  have hrun : exec .leaseExpiry s = execLeaseExpiry s := rfl
  rw [hrun, execLeaseExpiry]
  rcases h with h | h | h <;> simp [h]

theorem leaseExpiry_held {s : State} {b : Nat} (hlease : s.trio.lease = some b) (hb : s.block ≤ b) : exec .leaseExpiry s = .next s := by
  have hrun : exec .leaseExpiry s = execLeaseExpiry s := rfl
  rw [hrun, execLeaseExpiry]
  simp [hlease, Nat.not_lt.2 hb]

theorem leaseExpiry_never {s : State} (hid : s.trio.id ≠ 0) (hlead : s.trio.leader = s.nmc.addr) (hgoes : s.trio.stopped = false)
    (hlease : s.trio.lease = none) : exec .leaseExpiry s = .next s.trioOut := by
  have hrun : exec .leaseExpiry s = execLeaseExpiry s := rfl
  rw [hrun, execLeaseExpiry]
  simp [hid, hlead, hgoes, hlease]

theorem leaseExpiry_over {s : State} {b : Nat} (hid : s.trio.id ≠ 0) (hlead : s.trio.leader = s.nmc.addr) (hgoes : s.trio.stopped = false)
    (hlease : s.trio.lease = some b) (hb : b < s.block) : exec .leaseExpiry s = .next s.trioOut := by
  have hrun : exec .leaseExpiry s = execLeaseExpiry s := rfl
  rw [hrun, execLeaseExpiry]
  simp [hid, hlead, hgoes, hlease, hb]

/-- Settles O51: each command by what its own part answers, the vote with no entry (`vote_clean`) and the lease by the block it runs to. -/
theorem trioComplete : Obligations.TrioComplete := by
  unfold Obligations.TrioComplete
  refine ⟨fun r s s1 h ht hl hno hmay hlo hhi hne htopo hz => ?_, fun r s s1 h ht hl hno hmay htopo hz hok hz' => ?_,
    fun r s s1 key h hl hk hlead hstay => ?_, fun r s s1 key h ht hl _ hk hmay hn hlead hset hz hkeeps hnew hfree => ?_,
    fun r s s1 key e h ht hl _ hk hmay hn hlead hclear hz hheld hmine hapart => ?_,
    fun r s s1 h ht hl hid hof hne hlead hturn hthere hz => ?_, fun r s s1 h ht hl hlead hn hz => ?_,
    fun r s s1 h ht hl hid hof hlead haway hno hform hz => ?_, fun r s s1 h ht hl => ?_, fun s => vote_skipped,
    fun s => vote_held, fun s hid hgoes hnone hlead hturn hrevert => ?_, fun s hid hlead hgoes hover => ?_, fun s => leaseExpiry_idle,
    fun s b => leaseExpiry_held⟩
  · exact exec_answered h (by rw [hl]; rfl) (effTrioJoin_begins ht hno hmay hlo hhi hne htopo hz)
  · exact exec_waiting h (by rw [hl]; rfl) (effTrioForm_begins ht hno hmay htopo hz hok hz')
  · obtain ⟨t, hown, hleaving, hobjs, hgen, hsched⟩ := effTrioLeave_waits hk hlead hstay
    exact ⟨t, exec_accepted h (by rw [hl]; rfl) hown, hleaving, hobjs, hgen, hsched⟩
  · exact exec_answered h (by rw [hl]; rfl) (effTrioCriticalSet_enters ht hk hmay hn hlead hset hz hkeeps hnew hfree)
  · exact exec_answered h (by rw [hl]; rfl) (effTrioCriticalSet_clears ht hk hmay hn hlead hclear hz hheld hmine hapart)
  · obtain ⟨t, hown, hobjs, htrio⟩ := effTrioHandover_names ht hid hof hne hlead hturn hthere hz
    exact ⟨t, exec_answered h (by rw [hl]; rfl) hown, hobjs, htrio⟩
  · obtain ⟨t, hown, hobjs, htrio⟩ := effTrioRevertSet_stores ht hlead hn hz
    exact ⟨t, exec_answered h (by rw [hl]; rfl) hown, hobjs, htrio⟩
  · exact exec_waiting h (by rw [hl]; rfl) (effTrioRejoin_waits ht hid hof hlead haway hno hform hz)
  · obtain ⟨p, hown, hlen, hid⟩ := effTrioStatusGet_answers (r := r) (s := s1) ht
    exact ⟨p, exec_answered h (by rw [hl]; rfl) hown, hlen, hid⟩
  · rw [vote_held hid hgoes, vote_clean hnone hlead hturn hrevert]
  · cases hlease : s.trio.lease with
    | none => exact leaseExpiry_never hid hlead hgoes hlease
    | some b => exact leaseExpiry_over hid hlead hgoes hlease (by simpa [hlease] using hover)

end Sys2Proof.Machine
end

section
/-!
PROOFS. BLP frames (chapters 20 and 21): a frame of a link opened at once, one that waits for Onyx, and one that is not taken (R638, R639).
-/

namespace Sys2Proof.Machine

section
variable {link kind : Nat} {d p : Bytes} {s s1 : State} {src b : Nat}

/-- A frame that a core opens and that is for this device is handed to its type. -/
theorem blpIn_heard (h : s.blpHeard link kind d = some (s1, src, b, p)) (k : State → Nat → Nat → Bytes → State) :
    s.blpIn link kind d k = k s1 src b p := by
  unfold State.blpHeard at h
  split at h
  · exact absurd h (by simp)
  next hform =>
    obtain ⟨hkind, hup, hmark, hver⟩ : u8 d 3 = kind ∧ s.unitDown 0x0C link = false ∧ bfld d 0 2 = 0xB17A ∧ u8 d 2 / 16 = 1 := by
      simpa using hform
    have hmine : ¬ ((u8 d 3 ≠ kind && frameTypes.contains (u8 d 3) || s.unitDown 0x0C link) = true) := by simp [hkind, hup]
    have hwell : ¬ (u8 d 3 ≠ kind ∨ bfld d 0 2 ≠ 0xB17A ∨ u8 d 2 / 16 ≠ 1) := by simp [hkind, hmark, hver]
    unfold State.blpIn
    dsimp only
    rw [if_neg hmine, if_neg hwell]
    cases hcore : s.linkCore link false (u8 d 2 % 8) with
    | none => rw [hcore] at h; exact absurd h (by simp)
    | some c =>
      rw [hcore] at h
      dsimp only at h ⊢
      cases hopen : ((((s.linkThrough link false (u8 d 2 % 8) (linkSize false d)).passOnyx 1 (linkDesc link 0 (u8 d 2 % 8))).linkShares
          c link 0).openLink link d) with
      | mk t q =>
        rw [hopen] at h
        cases q with
        | none => exact absurd h (by simp)
        | some q =>
          dsimp only at h ⊢
          split at h
          · exact absurd h (by simp)
          next hdst =>
            have hto : u8 d 5 = 0 ∨ u8 d 5 = t.nmc.addr := by
              by_contra hnot
              exact hdst (not_or.1 hnot)
            injection h with h
            injection h with ht h
            injection h with hsrc h
            injection h with hb hp
            rw [State.blpRoute, if_pos hto, ht, hsrc, hb, hp]

/-- A frame that no core can take waits in the queue of its link. -/
theorem blpIn_waits (h : s.blpWaits link kind d = true) (k : State → Nat → Nat → Bytes → State) :
    s.blpIn link kind d k = s.queueLink link false (u8 d 2 % 8) (.linkIn link kind s.now) d := by
  unfold State.blpWaits at h
  simp only [Bool.and_eq_true, beq_iff_eq, Bool.not_eq_true', Option.isNone_iff_eq_none] at h
  obtain ⟨⟨⟨⟨hkind, hup⟩, hmark⟩, hver⟩, hcore⟩ := h
  unfold State.blpIn
  dsimp only
  rw [if_neg (by simp [hkind, hup]), if_neg (by simp [hkind, hmark, hver]), hcore]

/-- A frame of this row's type or of a reserved one that is not well formed is discarded and counted. -/
theorem blpIn_discards (hup : s.unitDown 0x0C link = false) (hnot : u8 d 3 ≠ kind → u8 d 3 ∉ frameTypes)
    (hbad : u8 d 3 ≠ kind ∨ bfld d 0 2 ≠ 0xB17A) (k : State → Nat → Nat → Bytes → State) :
    s.blpIn link kind d k = s.blpDiscard link := by
  unfold State.blpIn
  dsimp only
  rw [if_neg (by simpa [hup] using hnot), if_pos (hbad.imp_right Or.inl)]

/-- A frame of another listed type, or on a unit that is down, changes nothing here. -/
theorem blpIn_passes (h : u8 d 3 ≠ kind ∧ u8 d 3 ∈ frameTypes ∨ s.unitDown 0x0C link = true) (k : State → Nat → Nat → Bytes → State) :
    s.blpIn link kind d k = s := by
  unfold State.blpIn
  dsimp only
  rw [if_pos (by simpa using h)]

/-- The row of a link that there is. -/
theorem onLink {t u : State} (hl : link < 4) (h : t = u) :
    (if 4 ≤ link then .fault .noSuchUnit else .next t : Host.Outcome State Fault Refusal) = .next u := by
  rw [if_neg (Nat.not_le.2 hl), h]

end

section
variable {link time : Nat} {data p : Bytes} {s s1 : State} {src b : Nat}

theorem hello_heard (hl : link < 4) (h : s.blpHeard link 1 data = some (s1, src, b, p)) :
    exec (.hello link data) s = .next (State.takeHello link s1 src b p) := onLink hl (blpIn_heard h _)

theorem heartbeat_heard (hl : link < 4) (h : s.blpHeard link 2 data = some (s1, src, b, p)) :
    exec (.heartbeat link data) s = .next (State.takeHeartbeat link s1 src b p) := onLink hl (blpIn_heard h _)

theorem time_heard (hl : link < 4) (h : (s.at time).blpHeard link 3 data = some (s1, src, b, p)) :
    exec (.time link time data) s = .next (State.takeTime link time s1 src b p) := onLink hl (blpIn_heard h _)

theorem control_heard (hl : link < 4) (h : s.blpHeard link 4 data = some (s1, src, b, p)) :
    exec (.control link data) s = .next (State.takeControl link s1 src b p) := onLink hl (blpIn_heard h _)

theorem trunk_heard (hl : link < 4) (h : s.blpHeard link 5 data = some (s1, src, b, p)) :
    exec (.trunk link data) s = .next (State.takeTrunk link s1 src b p) := onLink hl (blpIn_heard h _)

theorem mirror_heard (hl : link < 4) (h : s.blpHeard link 8 data = some (s1, src, b, p)) :
    exec (.mirror link data) s = .next (State.takeMirror link s1 src b p) := onLink hl (blpIn_heard h _)

theorem delta_heard (hl : link < 4) (h : s.blpHeard link 9 data = some (s1, src, b, p)) :
    exec (.delta link data) s = .next (State.takeDeltaFrame link s1 src b p) := onLink hl (blpIn_heard h _)

theorem digest_heard (hl : link < 4) (h : s.blpHeard link 10 data = some (s1, src, b, p)) :
    exec (.digest link data) s = .next (State.takeDigest s1 src b p) := onLink hl (blpIn_heard h _)

theorem endorse_heard (hl : link < 4) (h : s.blpHeard link 11 data = some (s1, src, b, p)) :
    exec (.endorse link data) s = .next (State.takeEndorse s1 src b p) := onLink hl (blpIn_heard h _)

theorem snapshot_heard (hl : link < 4) (h : s.blpHeard link 12 data = some (s1, src, b, p)) :
    exec (.snapshot link data) s = .next (State.takeSnapshot s1 src b p) := onLink hl (blpIn_heard h _)

end

end Sys2Proof.Machine
end

section
/-!
PROOFS. What each type of BLP frame does (chapters 20 and 21).
-/

namespace Sys2Proof.Machine

/-! ### HELLO and HEARTBEAT (R633, R640, R648) -/

section
variable {link : Nat} {p : Bytes} {s : State} {src b : Nat}

theorem takeHello_expected (hbook : s.cascade.book ≠ []) (hid : s.helloOk (bfld p 4 8) = true) (hfrom : u8 p 0 = s.expected link)
    (hsrc : u8 p 0 = src) (hpos : u8 p 1 = (peerOf s.cascade.shape s.cascade.book.length s.myPos link).1)
    (hlink : u8 p 2 = (peerOf s.cascade.shape s.cascade.book.length s.myPos link).2) (hlocked : (s.blp link).st = 1) :
    State.takeHello link s src b p = ((s.updBlp link fun x => { x with st := 2 }).linkState link true src).formCheck := by
  unfold State.takeHello
  dsimp only
  rw [if_neg (by simpa using hbook), if_neg (by simp [hid]), if_pos ⟨hfrom, hpos, hlink, hsrc⟩, if_pos hlocked]

theorem takeHello_stranger (hbook : s.cascade.book ≠ []) (hid : s.helloOk (bfld p 4 8) = false) :
    State.takeHello link s src b p = s.blpDiscard link := by
  unfold State.takeHello
  rw [if_neg (by simpa using hbook), if_pos (by simp [hid])]

theorem takeHeartbeat_again (hid : bfld p 1 8 = s.cascade.id) (hin : s.cascade.id ≠ 0) (hst : s.cascade.st = 2) (hbeat : s.cascade.beat = s.block) :
    State.takeHeartbeat link s src b p = s.updCas fun c => { c with
      heardFrom := tset c.heardFrom (u8 p 0) s.block, lost := c.lost.filter (· != u8 p 0) } := by
  unfold State.takeHeartbeat
  extract_lets heard kept
  have hkept : kept = heard := if_neg (by rw [show heard.cascade.st = 2 from hst]; decide)
  rw [if_neg (by simp [hid, hin]), hkept, if_pos (show heard.cascade.beat = heard.block from hbeat)]

theorem takeHeartbeat_stranger (h : bfld p 1 8 ≠ s.cascade.id ∨ s.cascade.id = 0) : State.takeHeartbeat link s src b p = s.blpDiscard link := by
  unfold State.takeHeartbeat
  rw [if_pos h]

end

/-! ### TIME (R645) -/

theorem raiseAll_fresh (s : State) (op : Nat) (p : Bytes) : (s.raiseAll op p).fresh = s.fresh := by rw [raiseAll_same]

theorem linkCount_fresh (s : State) (l d cls ph n : Nat) : (s.linkCount l d cls ph n).fresh = s.fresh := by
  unfold State.linkCount
  dsimp only
  split
  · exact raiseAll_fresh ..
  · rfl

theorem sealLink_fresh (s : State) (l cls kind src dst hops block : Nat) (p : Bytes) :
    (s.sealLink l cls kind src dst hops block p).1.fresh = s.fresh := by
  unfold State.sealLink
  dsimp only
  split
  · rfl
  split
  · rfl
  dsimp only
  split
  · exact (raiseAll_fresh ..).trans (linkCount_fresh ..)
  · exact linkCount_fresh ..

theorem serveLink_fresh (s : State) (l : Nat) (out : Bool) : (s.serveLink l out).fresh = s.fresh := by
  unfold State.serveLink
  repeat' split
  all_goals rfl

theorem queueLink_fresh (s : State) (l : Nat) (out : Bool) (cls : Nat) (j : Job) (d : Bytes) : (s.queueLink l out cls j d).fresh = s.fresh :=
  serveLink_fresh ((s.setLinkQueue l out cls _).linkNote l out cls _ _) l out

theorem linkShares_fresh (s : State) (c l d : Nat) : (s.linkShares c l d).fresh = s.fresh + 8 := rfl

/-- A BLP frame sent never lowers the count of the free values drawn. -/
theorem blpSend_fresh (s : State) (l cls kind src dst hops block : Nat) (p : Bytes) :
    s.fresh ≤ (s.blpSend l cls kind src dst hops block p).fresh := by
  unfold State.blpSend
  dsimp only
  split
  · exact le_refl _
  split
  · exact (queueLink_fresh ..).ge
  next c _ =>
    have hseal := sealLink_fresh (((s.linkThrough l true cls (linkSize true p)).passOnyx 1 (linkDesc l 1 cls)).linkShares c l 1)
      l cls kind src dst hops block p
    have hgrown : s.fresh ≤ s.fresh + 8 := Nat.le_add_right ..
    split
    next t f he =>
      rw [he] at hseal
      have hout : (t.emitLink l kind f).fresh = t.fresh + 2 := rfl
      rw [hout]
      exact hgrown.trans (hseal.ge.trans (Nat.le_add_right ..))
    next t he => rw [he] at hseal; exact hgrown.trans hseal.ge

theorem sendTo_fresh (s : State) (a cls kind block : Nat) (p : Bytes) : s.fresh ≤ (s.sendTo a cls kind block p).fresh := by
  unfold State.sendTo
  split
  · exact le_refl _
  · dsimp only
    split
    · exact le_refl _
    · exact blpSend_fresh ..

theorem linkSent_objs {s t : State} (h : s.linkSent t) : t.objs = s.objs := by
  unfold State.linkSent at h
  rw [h]

theorem linkSent_quartz {s t : State} (h : s.linkSent t) : t.quartz = s.quartz := by
  unfold State.linkSent at h
  rw [h]

/-- A TIME request is answered with a free value for the time of the answer. -/
theorem takeTime_request {link time src b : Nat} {p : Bytes} (s : State) (h : u8 p 2 = 1) :
    s.fresh < (State.takeTime link time s src b p).fresh ∧ (State.takeTime link time s src b p).objs = s.objs ∧
      (State.takeTime link time s src b p).quartz = s.quartz := by
  unfold State.takeTime State.relayAnswer
  rw [if_pos h]
  dsimp only
  have hsent := sendTo_linkSent s.draw.2 src 7 3 s.draw.2.block
    (p.take 2 ++ le 1 2 ++ le 5 0 ++ timeValueBe time s.draw.2.nowFrac ++ timeValueBe (time + s.draw.1.toNat % 2 ^ 20) s.draw.2.nowFrac)
  exact ⟨Nat.lt_of_lt_of_le (Nat.lt_succ_self s.fresh) (sendTo_fresh s.draw.2 ..), linkSent_objs hsent, linkSent_quartz hsent⟩

/-- Two states have the same objects, the same cascade and the same word on the relay as a source. -/
def State.keepsRelay (s t : State) : Prop := t.objs = s.objs ∧ t.cascade = s.cascade ∧ t.quartz.relay = s.quartz.relay

theorem keepsRelay_refl (s : State) : s.keepsRelay s := ⟨rfl, rfl, rfl⟩

theorem keepsRelay_trans {a b c : State} (h : a.keepsRelay b) (k : b.keepsRelay c) : a.keepsRelay c :=
  ⟨k.1.trans h.1, k.2.1.trans h.2.1, k.2.2.trans h.2.2⟩

theorem keepsRelay_of_same {s t : State} (h : s.sameBut t) : s.keepsRelay t := by
  unfold State.sameBut at h
  rw [h]
  exact ⟨rfl, rfl, rfl⟩

theorem keepsRelay_if {s t : State} (p : Prop) [Decidable p] (h : s.keepsRelay t) : s.keepsRelay (if p then t else s) := by
  split
  · exact h
  · exact keepsRelay_refl s

theorem updQuartz_relay (s : State) (f : Quartz → Quartz) (h : (f s.quartz).relay = s.quartz.relay) : s.keepsRelay (s.updQuartz f) :=
  ⟨rfl, rfl, h⟩

theorem timeAlarm_relay (s : State) (kind d : Nat) : s.keepsRelay (s.timeAlarm kind d) := by
  unfold State.timeAlarm
  extract_lets k due
  exact keepsRelay_if _ (keepsRelay_trans (updQuartz_relay s _ rfl) (keepsRelay_of_same (raiseAll_same ..)))

theorem activate_relay (s : State) (d cause : Nat) : s.keepsRelay (s.activate d cause) := by
  unfold State.activate
  dsimp only
  split
  · exact keepsRelay_refl s
  · exact keepsRelay_trans (updQuartz_relay s _ rfl) (keepsRelay_of_same (raiseAll_same ..))

theorem setServo_relay (s : State) (st : Nat) (tell : Bool) : s.keepsRelay (s.setServo st tell) :=
  keepsRelay_trans (updQuartz_relay s _ rfl) (keepsRelay_of_same (setServo_same s st tell))

theorem servoState_relay (s : State) (theta : Int) : s.keepsRelay (s.servoState theta) := by
  unfold State.servoState
  extract_lets low high s1 s2
  have h1 : s.keepsRelay s1 := keepsRelay_if _ (setServo_relay ..)
  have h2 : s.keepsRelay s2 := keepsRelay_trans h1 (updQuartz_relay s1 _ rfl)
  split
  · exact keepsRelay_trans h2 (setServo_relay ..)
  · exact keepsRelay_trans h2 (keepsRelay_if _ (setServo_relay ..))

theorem inForce_relay (s : State) (b : Boundary) : s.keepsRelay (s.inForce b) :=
  keepsRelay_trans (b := { s with sched := s.sched.filter fun e => e.at_ != b }) (keepsRelay_refl s) (keepsRelay_of_same (inForce_same s b))

theorem stepTime_relay (s : State) (ns frac : Nat) : s.keepsRelay (s.stepTime ns frac) := ⟨rfl, rfl, rfl⟩

theorem servoUpdate_relay (s : State) (d : Nat) (theta : Int) (tau : Nat) : s.keepsRelay (s.servoUpdate d theta tau) := by
  unfold State.servoUpdate
  extract_lets s1 far t s2 q y s3 s4
  have h1 : s.keepsRelay s1 := by
    refine keepsRelay_trans (updQuartz_relay s _ ?_) (inForce_relay _ (.update 3))
    split <;> rfl
  split
  · exact keepsRelay_trans h1 (keepsRelay_trans (stepTime_relay s1 ..) (keepsRelay_trans (updQuartz_relay _ _ rfl) (servoState_relay ..)))
  · have h2 : s1.keepsRelay s2 := keepsRelay_if _ (timeAlarm_relay ..)
    have h3 : s2.keepsRelay s3 := updQuartz_relay s2 _ rfl
    have h4 : s3.keepsRelay s4 := keepsRelay_if _ (timeAlarm_relay ..)
    exact keepsRelay_trans h1 (keepsRelay_trans h2 (keepsRelay_trans h3 (keepsRelay_trans h4 (servoState_relay ..))))

/-- An awaited TIME answer makes the relay a source, and no answer is missed. -/
theorem relayTheta_answered {s : State} {time : Nat} {p : Bytes} (hwait : s.cascade.waiting = true) (hseq : bfld p 0 2 = s.cascade.seq) :
    (s.relayTheta time p).objs = s.objs ∧ (s.relayTheta time p).quartz.relay = true ∧ (s.relayTheta time p).cascade.waiting = false ∧
      (s.relayTheta time p).cascade.missed = 0 := by
  unfold State.relayTheta
  extract_lets theta heard free source chosen
  have h1 : source.keepsRelay chosen := keepsRelay_if _ (activate_relay ..)
  have h2 : source.keepsRelay (if chosen.quartz.active = some 2 then chosen.servoUpdate 2 theta 32000000 else chosen) :=
    keepsRelay_trans h1 (keepsRelay_if _ (servoUpdate_relay ..))
  obtain ⟨hobjs, hcas, hrelay⟩ := h2
  rw [if_neg (by simp [hwait, hseq]), hcas]
  exact ⟨hobjs, hrelay, rfl, rfl⟩

theorem takeTime_answer {link time src b : Nat} {p : Bytes} {s : State} (h : u8 p 2 = 2) (hrole : s.role = .cascadeMember) :
    State.takeTime link time s src b p = s.relayTheta time p := by
  unfold State.takeTime
  rw [if_neg (by omega), if_pos ⟨h, hrole⟩]

/-! ### TRUNK (R22, R642 to R644) -/

theorem chainItem_work (s : State) (k b : Nat) : ∃ w, s.chainItem k b = { s with work := w } := by
  unfold State.chainItem
  split
  · exact ⟨s.work, rfl⟩
  · exact ⟨_, rfl⟩

theorem trunkState_keeps (s : State) (i st : Nat) :
    (s.trunkState i st).now = s.now ∧ (s.trunkState i st).cascade.trunkIn = s.cascade.trunkIn := by
  unfold State.trunkState
  split
  · exact ⟨rfl, rfl⟩
  · split
    · exact ⟨rfl, rfl⟩
    · rw [raiseAll_same]
      exact ⟨rfl, rfl⟩

/-- The first copy of the running block's signal goes to the input of its leg. -/
theorem trunkEntry_arrives {link b i : Nat} {p : Bytes} {s : State} {e : TrunkEnd}
    (hfind : (s.cascade.ends.find? fun e => e.2.recv == some (bfld p 0 2)) = some (i, e)) (hfirst : e.arrived = false)
    (hblock : b + 1 = s.block) (htime : s.now ≤ s.block * 2000000 + 1750000) (hflows : s.flows (okey 2 i) = true) :
    (s.trunkEntry link b p).now = s.now ∧ tget? (s.trunkEntry link b p).cascade.trunkIn i = some (trunkSamples (p.drop 4)) := by
  unfold State.trunkEntry
  rw [hfind]
  dsimp -zeta only
  rw [if_neg (by simp [hfirst, hblock, hflows, blockNs, Nat.not_lt.2 htime])]
  extract_lets prot taken told
  have htold : told.now = s.now ∧ told.cascade.trunkIn = tset s.cascade.trunkIn i (trunkSamples (p.drop 4)) := by
    unfold told
    split
    · exact trunkState_keeps ..
    · split
      · exact trunkState_keeps ..
      · exact ⟨rfl, rfl⟩
  obtain ⟨w, hwork⟩ := chainItem_work told (okey 2 i) told.block
  rw [hwork]
  refine ⟨htold.1, ?_⟩
  show tget? told.cascade.trunkIn i = _
  rw [htold.2, tget?_tset_same]

theorem takeTrunk_single {link src b : Nat} {p : Bytes} (s : State) (h : p.length = 292) :
    State.takeTrunk link s src b p = s.trunkEntry link b p := by
  unfold State.takeTrunk
  rw [h, show List.range (292 / 292) = [0] from rfl, List.foldl_cons, List.foldl_nil, Nat.mul_zero, List.drop_zero, List.take_of_length_le h.le]

/-! ### CONTROL (Table 20.7) -/

section
variable {link : Nat} {p : Bytes} {s : State} {src b : Nat}

theorem takeControl_unreadable (h : Config.readControl p = none) : State.takeControl link s src b p = s.blpDiscard link := by
  rw [State.takeControl, h]

theorem takeControl_room {q k : Nat} (h : Config.readControl p = some (.room q k)) :
    State.takeControl link s src b p = s.updCas fun c => { c with rooms := tset c.rooms src (q, k) } := by
  rw [State.takeControl, h]
  rfl

theorem takeControl_trioLeft (h : Config.readControl p = some .trioLeft) :
    State.takeControl link s src b p = s.updTrio fun t => { t with present := t.present.filter (· != src) } := by
  rw [State.takeControl, h]
  rfl

/-! ### MIRROR and DELTA (R655, R656) -/

theorem takeMirror_packet {e : CritEntry} (he : tget? s.trio.entries (bfld p 0 2) = some e) (hfollows : s.following = true)
    (hsrc : src = s.trio.leader) (hop : u8 p 2 = 1) (hleg : ktype e.key = 2) (hblock : s.block ≤ bfld p 4 8) :
    State.takeMirror link s src b p = s.legAccept e.key s.now (some (96 * bfld p 4 8 + bfld p 12 4)) (p.drop 20) := by
  unfold State.takeMirror
  rw [he]
  dsimp only
  rw [if_neg (by simp [hfollows, hsrc]), if_neg (by omega), if_pos hleg, if_neg (Nat.not_lt.2 hblock)]

theorem takeMirror_unlisted (he : tget? s.trio.entries (bfld p 0 2) = none) : State.takeMirror link s src b p = s := by
  rw [State.takeMirror, he]

theorem takeDeltaFrame_digest {e : CritEntry} (he : tget? s.trio.entries (bfld p 8 2) = some e) (hop : bfld p 10 2 = 0) :
    State.takeDeltaFrame link s src b p = s.noteConfig (bfld p 8 2) src (BitVec.ofNat 64 (bfld p 12 8)) := by
  unfold State.takeDeltaFrame
  dsimp only
  rw [he]
  exact if_pos hop

theorem takeDeltaFrame_change {e : CritEntry} (he : tget? s.trio.entries (bfld p 8 2) = some e) (hop : bfld p 10 2 ≠ 0)
    (hfollows : s.following = true) (hsrc : src = s.trio.leader) :
    State.takeDeltaFrame link s src b p = s.takeDelta e.key (bfld p 10 2) (bfld p 0 8) (p.drop 12) := by
  unfold State.takeDeltaFrame
  dsimp only
  rw [he]
  exact (if_neg hop).trans (if_neg (by simp [hfollows, hsrc]))

/-! ### DIGEST and ENDORSE (R660 to R668) -/

theorem takeDigest_notes (hid : s.trio.id ≠ 0) (hthere : s.trio.present.contains src = true) :
    ((State.takeDigest s src b p).objs = s.objs ∧ (State.takeDigest s src b p).mbx = s.mbx ∧
      tget? (State.takeDigest s src b p).trio.came src = some (bfld p 0 8)) ∧
    (0 < bfld p 8 2 → bfld p 18 2 % 2 = 0 →
      (bfld p 0 8, src, bfld p 16 2, BitVec.ofNat 64 (bfld p 24 8)) ∈ (State.takeDigest s src b p).trio.digests) := by
  unfold State.takeDigest
  rw [if_neg (by simp [hid, List.contains_iff_mem.1 hthere])]
  refine ⟨⟨rfl, rfl, tget?_tset_same ..⟩, fun hn hpresent => ?_⟩
  refine List.mem_append_right _ (List.mem_filterMap.2 ⟨0, List.mem_range.2 (by omega), ?_⟩)
  exact if_neg (by simp [hpresent])

theorem takeEndorse_another (hid : s.trio.id ≠ 0) (hgoes : s.trio.stopped = false) (hthere : s.trio.present.contains src = true)
    (hblock : bfld p 8 8 = s.block) (hlead : bfld p 0 1 = s.trio.leader) (hnot : bfld p 0 1 ≠ s.nmc.addr) :
    State.takeEndorse s src b p = s.updTrio fun t => { t with endorsed := s.block } := by
  unfold State.takeEndorse
  extract_lets a n heard
  have hheard : heard = s.updTrio fun t => { t with endorsed := n } := if_pos hlead
  have hnotMe : a ≠ heard.nmc.addr := by
    rw [hheard]
    exact hnot
  rw [if_neg (by simp [hid, hgoes, List.contains_iff_mem.1 hthere, n, hblock]), if_pos hnotMe, hheard]
  exact congrArg (fun m => s.updTrio fun t => { t with endorsed := m }) hblock

/-- The packets a new lease lets go leave the objects, the lease and the endorsement. -/
theorem sendHeld_keeps (s : State) :
    s.sendHeld.objs = s.objs ∧ s.sendHeld.trio.lease = s.trio.lease ∧ s.sendHeld.trio.endorsed = s.trio.endorsed := by
  unfold State.sendHeld
  split
  · exact ⟨rfl, rfl, rfl⟩
  · extract_lets l
    have hsent : s.sentOnly (l.foldl (fun s e => s.sendPaced e.2.1 0 e.1 e.2.2) s) := sentOnly_foldl (fun u e => sendPaced_sent ..) ..
    unfold State.sentOnly at hsent
    rw [hsent]
    exact ⟨rfl, rfl, rfl⟩

theorem takeEndorse_leader (hid : s.trio.id ≠ 0) (hgoes : s.trio.stopped = false) (hthere : s.trio.present.contains src = true)
    (hblock : bfld p 8 8 = s.block) (hme : bfld p 0 1 = s.nmc.addr) (hlead : s.trio.leader = s.nmc.addr) :
    (State.takeEndorse s src b p).trio.lease = some (s.block + 2) ∧ (State.takeEndorse s src b p).trio.endorsed = s.block ∧
      (State.takeEndorse s src b p).objs = s.objs := by
  unfold State.takeEndorse
  extract_lets a n heard leased
  have hheard : heard = s.updTrio fun t => { t with endorsed := n } := if_pos (hme.trans hlead.symm)
  have hleader : leased.trio.leader = a := by
    show heard.trio.leader = a
    rw [hheard]
    exact hlead.trans hme.symm
  have hmine : ¬ a ≠ heard.nmc.addr := by
    rw [hheard]
    exact not_not.2 hme
  rw [if_neg (by simp [hid, hgoes, List.contains_iff_mem.1 hthere, n, hblock]), if_neg hmine, if_pos hleader]
  obtain ⟨hobjs, hlease, hendorsed⟩ := sendHeld_keeps leased
  refine ⟨hlease.trans (congrArg (fun m => some (m + 2)) hblock), hendorsed.trans ?_, hobjs.trans ?_⟩
  · show heard.trio.endorsed = s.block
    rw [hheard]
    exact hblock
  · show heard.objs = s.objs
    rw [hheard]
    rfl

/-! ### SNAPSHOT (R672) -/

theorem takeSnapshot_loads {e : CritEntry} {dec enc voice : Bytes} {nums : List Nat} (he : tget? s.trio.entries (bfld p 0 2) = some e)
    (hmute : s.trio.mute = true) (hsrc : src = s.trio.leader) (hsync : s.trio.sync = some (bfld p 8 8))
    (hread : Config.readChain (p.drop 16) = some (dec, enc, voice, nums)) :
    State.takeSnapshot s src b p = s.updLeg e.key fun l => { l with
      decSt := dec, encSt := enc, voiceSt := voice, txSeq := nums.getD 0 l.txSeq, txTs := nums.getD 1 l.txTs,
      tsBlock := nums.getD 2 l.tsBlock, lastTs := nums.getD 3 l.lastTs, agc := nums.getD 4 l.agc } := by
  unfold State.takeSnapshot
  rw [he, hread]
  exact if_pos ⟨hmute, hsrc, hsync⟩

theorem takeSnapshot_unreadable (hread : Config.readChain (p.drop 16) = none) : State.takeSnapshot s src b p = s := by
  unfold State.takeSnapshot
  rw [hread]
  split
  · contradiction
  · rfl

end

/-- Settles O52: a frame is opened at once (`blpIn_heard`), waits (`blpIn_waits`), is discarded or passed over, and each type does what its
own lemma says. -/
theorem blpFramesComplete : Obligations.BlpFramesComplete := by
  unfold Obligations.BlpFramesComplete
  refine ⟨fun link data p s s1 src b hl => ⟨hello_heard hl, heartbeat_heard hl, control_heard hl, trunk_heard hl, mirror_heard hl, delta_heard hl,
      digest_heard hl, endorse_heard hl, snapshot_heard hl⟩, fun link time data p s s1 src b hl => time_heard hl,
    fun link data s hl => ⟨fun h => onLink hl (blpIn_waits h _), fun h => onLink hl (blpIn_waits h _), fun h => onLink hl (blpIn_waits h _),
      fun h => onLink hl (blpIn_waits h _), fun h => onLink hl (blpIn_waits h _), fun h => onLink hl (blpIn_waits h _),
      fun h => onLink hl (blpIn_waits h _), fun h => onLink hl (blpIn_waits h _), fun h => onLink hl (blpIn_waits h _)⟩,
    fun link time data s hl h => onLink hl (blpIn_waits h _),
    fun link data p s s1 src b hl h hbook hid hfrom hsrc hpos hlink hlocked => ?_, fun link data p s s1 src b hl h hbook hid => ?_,
    fun link data p s s1 src b hl h hid hin hst hbeat => ?_, fun link data p s s1 src b hl h hid => ?_,
    fun link time data p s s1 src b hl h hop => ?_, fun link time data p s s1 src b hl h hop hrole hwait hseq => ?_,
    fun link data p s s1 src b hl h => ?_, fun link data p s s1 src b i e hl h hlen hfind hfirst hblock htime hflows => ?_,
    fun link data p s s1 src b e hl h he hfollows hsrc hop hleg hblock => ?_, fun link data p s s1 src b hl h he => ?_,
    fun link data p s s1 src b e hl h he hop => ?_, fun link data p s s1 src b e hl h he hop hfollows hsrc => ?_,
    fun link data p s s1 src b hl h hid hthere => ?_, fun link data p s s1 src b hl h hid hgoes hthere hblock hlead hnot => ?_,
    fun link data p s s1 src b hl h hid hgoes hthere hblock hme hlead => ?_, fun link data p s s1 src b e hl h he hmute hsrc hsync => ?_,
    fun link data s hl hmark hkind hup => onLink hl (blpIn_discards hup (fun hne => absurd hkind hne) (.inr hmark) _),
    fun link data s hl hkind hup => onLink hl (blpIn_discards hup (fun _ => hkind) (.inl fun h1 => hkind (by rw [h1]; decide)) _),
    fun link data s hl h => onLink hl (blpIn_passes h _)⟩
  · rw [hello_heard hl h, takeHello_expected hbook hid hfrom hsrc hpos hlink hlocked]
  · rw [hello_heard hl h, takeHello_stranger hbook hid]
  · rw [heartbeat_heard hl h, takeHeartbeat_again hid hin hst hbeat]
  · rw [heartbeat_heard hl h, takeHeartbeat_stranger hid]
  · exact ⟨_, time_heard hl h, takeTime_request s1 hop⟩
  · refine ⟨_, time_heard hl h, ?_⟩
    rw [takeTime_answer hop hrole]
    exact relayTheta_answered hwait hseq
  · rw [control_heard hl h]
    split
    next hread => rw [takeControl_unreadable hread]
    next q k hread => rw [takeControl_room hread]
    next hread => rw [takeControl_trioLeft hread]
    next => exact ⟨_, rfl⟩
  · refine ⟨_, trunk_heard hl h, ?_⟩
    rw [takeTrunk_single s1 hlen]
    exact trunkEntry_arrives hfind hfirst hblock htime hflows
  · rw [mirror_heard hl h, takeMirror_packet he hfollows hsrc hop hleg hblock]
  · rw [mirror_heard hl h, takeMirror_unlisted he]
  · rw [delta_heard hl h, takeDeltaFrame_digest he hop]
  · rw [delta_heard hl h, takeDeltaFrame_change he hop hfollows hsrc]
  · obtain ⟨⟨hobjs, hmbx, hcame⟩, hdigests⟩ := takeDigest_notes (b := b) (p := p) hid hthere
    exact ⟨_, digest_heard hl h, hobjs, hmbx, hcame, hdigests⟩
  · rw [endorse_heard hl h, takeEndorse_another hid hgoes hthere hblock hlead hnot]
  · exact ⟨_, endorse_heard hl h, takeEndorse_leader hid hgoes hthere hblock hme hlead⟩
  · rw [snapshot_heard hl h]
    split
    next dec enc voice nums hread => rw [takeSnapshot_loads he hmute hsrc hsync hread]
    next hread => rw [takeSnapshot_unreadable hread]

end Sys2Proof.Machine
end

section
/-!
PROOFS. What keeps the queue of commands: the shapes in which the model composes its steps.
-/

namespace Sys2Proof.Machine

/-- A choice keeps the queue where both its sides do. -/
@[simp] theorem ite_pending (c : Prop) [Decidable c] (s t : State) :
    (if c then s else t).pending = if c then s.pending else t.pending := apply_ite State.pending c s t

/-- A fold keeps the queue where each of its steps does. -/
@[simp] theorem foldl_pending {α : Type} {g : State → α → State} (h : ∀ s a, (g s a).pending = s.pending) (l : List α) (s : State) :
    (l.foldl g s).pending = s.pending := by
  induction l generalizing s with
  | nil => rfl
  | cons a l ih => exact (ih _).trans (h s a)

/-- A fold that carries something beside the state keeps the queue where each of its steps does. -/
@[simp] theorem foldl_fst_pending {α β : Type} {g : State × β → α → State × β} (h : ∀ x a, (g x a).1.pending = x.1.pending) (l : List α)
    (x : State × β) : (l.foldl g x).1.pending = x.1.pending := by
  induction l generalizing x with
  | nil => rfl
  | cons a l ih => exact (ih _).trans (h x a)

/-- What a command's own part answers leaves the queue `q`. -/
def Eff.leaves (e : Eff) (q : List Instr) : Prop :=
  match e with
  | .done _ _ t | .later _ _ t | .refuse _ _ t | .wait _ _ t => t.pending = q
  | .fail _ _ | .noUnit => True

section
variable (q : List Instr)

@[simp] theorem done_leaves (p : Bytes) (n : Nat) (t : State) : (Eff.done p n t).leaves q ↔ t.pending = q := Iff.rfl
@[simp] theorem later_leaves (p : Bytes) (n : Nat) (t : State) : (Eff.later p n t).leaves q ↔ t.pending = q := Iff.rfl
@[simp] theorem refuse_leaves (st : Status) (p : Bytes) (t : State) : (Eff.refuse st p t).leaves q ↔ t.pending = q := Iff.rfl
@[simp] theorem wait_leaves (w : Wait) (p : Bytes) (t : State) : (Eff.wait w p t).leaves q ↔ t.pending = q := Iff.rfl
@[simp] theorem fail_leaves (st : Status) (p : Bytes) : (Eff.fail st p).leaves q := trivial
@[simp] theorem noUnit_leaves : Eff.noUnit.leaves q := trivial

end

/-- A row's next state, where it has one, has the queue `q`. -/
def nextHas (o : Host.Outcome State Fault Refusal) (q : List Instr) : Prop := ∀ t, o = .next t → t.pending = q

section
variable (q : List Instr)

@[simp] theorem next_has (t : State) : nextHas (.next t) q ↔ t.pending = q := by simp [nextHas]
@[simp] theorem fault_has (f : Fault) : nextHas (.fault f) q := fun _ h => nomatch h
@[simp] theorem refused_has (r : Refusal) : nextHas (.refused r) q := fun _ h => nomatch h

end

end Sys2Proof.Machine
end

section
/-!
PROOFS. Every operation of the model leaves the queue of commands, each by the operations it is made of, in the order of the model's files.
-/

namespace Sys2Proof.Machine

/-! ### Ready.lean -/

@[simp] theorem submit_pending (s : State) (src : Nat) (x : Submission) : (s.submit src x).pending = s.pending := by simp [State.submit]
@[simp] theorem updInst_pending (s : State) (kind inst : Nat) (f : Inst → Inst) : (s.updInst kind inst f).pending = s.pending := rfl
@[simp] theorem drawn_pending (s : State) (inst n : Nat) : (s.drawn inst n).pending = s.pending := by simp [State.drawn]
@[simp] theorem refresh512_pending (s : State) (core : Nat) (f : Nat → Onyx → Onyx) : (s.refresh512 core f).pending = s.pending := by simp [State.refresh512]
@[simp] theorem passOnyx_pending (s : State) (src : Nat) (d : Bytes) : (s.passOnyx src d).pending = s.pending := rfl

/-! ### Ops.lean -/

@[simp] theorem objCount_pending (s : State) (handle k n : Nat) : (s.objCount handle k n).pending = s.pending := rfl
@[simp] theorem at_pending (s : State) (t : Nat) : (s.at t).pending = s.pending := by simp [State.at]
@[simp] theorem draw_pending (s : State) : s.draw.2.pending = s.pending := rfl
@[simp] theorem msix_pending (s : State) (f v : Nat) : (s.msix f v).pending = s.pending := by simp [State.msix]

@[simp] theorem placeEvent_pending (s : State) : s.placeEvent.pending = s.pending := by
  unfold State.placeEvent
  split <;> simp

@[simp] theorem pushEvent_pending (s : State) (f : Nat) (e : Slot) : (s.pushEvent f e).pending = s.pending := by simp [State.pushEvent]

@[simp] theorem writeEvents_pending (s : State) (f : Nat) (l : List Slot) : (s.writeEvents f l).pending = s.pending := by
  unfold State.writeEvents
  split <;> simp

@[simp] theorem dropEvent_pending (s : State) (f op : Nat) : (s.dropEvent f op).pending = s.pending := by simp [State.dropEvent]
@[simp] theorem raiseOn_pending (s : State) (f op target tag : Nat) (p : Bytes) : (s.raiseOn f op target tag p).pending = s.pending := by simp [State.raiseOn]

@[simp] theorem flushHeld_pending (f : Nat) (l : List Bytes) (s : State) : (State.flushHeld f l s).pending = s.pending := by
  induction l generalizing s with
  | nil => rfl
  | cons p r ih =>
    unfold State.flushHeld
    dsimp only
    split
    · rw [ih]
      simp
    · rfl

@[simp] theorem flushReady_pending (s : State) (f : Nat) : (s.flushReady f).pending = s.pending := by simp [State.flushReady]
@[simp] theorem flushLost_pending (s : State) (f : Nat) : (s.flushLost f).pending = s.pending := by simp [State.flushLost]
@[simp] theorem pump_pending (s : State) (f : Nat) : (s.pump f).pending = s.pending := by simp [State.pump]
@[simp] theorem notice_pending (s : State) (f : Nat) (p : Bytes) : (s.notice f p).pending = s.pending := by simp [State.notice]
@[simp] theorem raiseAll_pending (s : State) (op : Nat) (p : Bytes) : (s.raiseAll op p).pending = s.pending := by simp [State.raiseAll]

@[simp] theorem respond_pending (s : State) (f op : Nat) (r : Req) (st : Status) (target : Nat) (p : Bytes) :
    (s.respond f op r st target p).pending = s.pending := by simp [State.respond]

@[simp] theorem addSched_pending (s : State) (b : Boundary) (o : Origin) (a : Act) : (s.addSched b o a).pending = s.pending := rfl
@[simp] theorem schedule_pending (s : State) (b : Boundary) (o : Origin) (a : Act) : (s.schedule b o a).pending = s.pending := by simp [State.schedule]
@[simp] theorem applied_pending (s : State) (o : Origin) : (s.applied o).pending = s.pending := by simp [State.applied]
@[simp] theorem inForce_pending (s : State) (b : Boundary) : (s.inForce b).pending = s.pending := by simp [State.inForce]

@[simp] theorem raise_pending (s : State) (k op : Nat) (p : Bytes) : (s.raise k op p).pending = s.pending := by
  unfold State.raise
  split <;> simp

@[simp] theorem toMode_pending (s : State) (m : Mode) : (s.toMode m).pending = s.pending := by simp [State.toMode]
@[simp] theorem toRole_pending (s : State) (m : Mode) : (s.toRole m).pending = s.pending := by simp [State.toRole]
@[simp] theorem setLinkKey_pending (s : State) (l d : Nat) (k : LinkKey) : (s.setLinkKey l d k).pending = s.pending := rfl
@[simp] theorem linkCount_pending (s : State) (l d cls ph n : Nat) : (s.linkCount l d cls ph n).pending = s.pending := by simp [State.linkCount]
@[simp] theorem linkShares_pending (s : State) (core l d : Nat) : (s.linkShares core l d).pending = s.pending := by simp [State.linkShares]

@[simp] theorem sealLink_pending (s : State) (l cls kind src dst hops block : Nat) (payload : Bytes) :
    (s.sealLink l cls kind src dst hops block payload).1.pending = s.pending := by
  unfold State.sealLink
  dsimp only
  repeat' split
  all_goals simp

@[simp] theorem emitLink_pending (s : State) (l kind : Nat) (f : Bytes) : (s.emitLink l kind f).pending = s.pending := rfl

@[simp] theorem setLinkQueue_pending (s : State) (l : Nat) (out : Bool) (cls : Nat) (x : List (Job × Bytes)) :
    (s.setLinkQueue l out cls x).pending = s.pending := by simp [State.setLinkQueue]

@[simp] theorem linkNote_pending (s : State) (l : Nat) (out : Bool) (cls : Nat) (adds : List (Nat × Nat)) (high : Nat) :
    (s.linkNote l out cls adds high).pending = s.pending := by simp [State.linkNote]

@[simp] theorem linkThrough_pending (s : State) (l : Nat) (out : Bool) (cls n : Nat) : (s.linkThrough l out cls n).pending = s.pending := rfl

@[simp] theorem serveLink_pending (s : State) (l : Nat) (out : Bool) : (s.serveLink l out).pending = s.pending := by
  unfold State.serveLink
  repeat' split
  all_goals simp

@[simp] theorem queueLink_pending (s : State) (l : Nat) (out : Bool) (cls : Nat) (j : Job) (d : Bytes) :
    (s.queueLink l out cls j d).pending = s.pending := by simp [State.queueLink]

@[simp] theorem blpSend_pending (s : State) (l cls kind src dst hops block : Nat) (payload : Bytes) :
    (s.blpSend l cls kind src dst hops block payload).pending = s.pending := by
  unfold State.blpSend
  dsimp only
  split
  · rfl
  split
  · exact queueLink_pending ..
  next c _ =>
    have hseal := sealLink_pending (((s.linkThrough l true cls (linkSize true payload)).passOnyx 1 (linkDesc l 1 cls)).linkShares c l 1)
      l cls kind src dst hops block payload
    split
    next t f he => rw [he] at hseal; simpa using hseal
    next t he => rw [he] at hseal; simpa using hseal

@[simp] theorem need_leaves (c : Bool) (st : Status) (k : Eff) (q : List Instr) : (need c st k).leaves q ↔ (c = true → k.leaves q) := by
  unfold need
  split <;> simp [*]

@[simp] theorem needUnit_leaves (c : Bool) (k : Eff) (q : List Instr) : (needUnit c k).leaves q ↔ (c = true → k.leaves q) := by
  unfold needUnit
  split <;> simp [*]

@[simp] theorem withHandle_leaves (s : State) (h : Nat) (tys : List Nat) (k : Nat → Eff) (q : List Instr) :
    (s.withHandle h tys k).leaves q ↔ ∀ key, s.checkHandle h tys = .ok key → (k key).leaves q := by
  unfold State.withHandle
  split <;> simp [*]

@[simp] theorem withHandle0_leaves (s : State) (h : Nat) (tys : List Nat) (k : Option Nat → Eff) (q : List Instr) :
    (s.withHandle0 h tys k).leaves q ↔
      (h = 0 → (k none).leaves q) ∧ (h ≠ 0 → ∀ key, s.checkHandle h tys = .ok key → (k (some key)).leaves q) := by
  unfold State.withHandle0
  split <;> simp [*]

@[simp] theorem nullTarget_leaves (r : Req) (k : Eff) (q : List Instr) : (nullTarget r k).leaves q ↔ (r.target = 0 → k.leaves q) := by
  simp [nullTarget]

@[simp] theorem writeThen_leaves (target addr : Nat) (data resp : Bytes) (s : State) (q : List Instr) :
    (writeThen target addr data resp s).leaves q ↔ s.pending = q := by
  unfold writeThen
  split <;> simp

@[simp] theorem readThen_leaves (len : Nat) (own : State → Eff) (s : State) (q : List Instr) :
    (readThen len own s).leaves q ↔ (len = 0 → (own s).leaves q) ∧ (len ≠ 0 → s.pending = q) := by
  unfold readThen
  split <;> simp [*]

@[simp] theorem countTaken_pending (s : State) (f : Nat) : (s.countTaken f).pending = s.pending := rfl
@[simp] theorem keepFences_pending (s : State) (p : Fence → Bool) : (s.keepFences p).pending = s.pending := by simp [State.keepFences]

@[simp] theorem flushBad_pending (f : Nat) (l : List Taken) (s : State) : (State.flushBad f l s).pending = s.pending := by
  induction l generalizing s with
  | nil => rfl
  | cons c rest ih =>
    cases c with
    | bad op r st p => exact (ih _).trans (by simp)
    | run => rfl

@[simp] theorem settleTaken_pending (s : State) (f : Nat) : (s.settleTaken f).pending = s.pending := by simp [State.settleTaken]

theorem start_pending {s t : State} {op : Nat} {r : Req} (h : s.start op r = some t) : t.pending = s.pending := by
  rw [start_frame h]

@[simp] theorem fly_pending (s : State) (op : Nat) (r : Req) (w : Wait) (resp : Bytes) : (s.fly op r w resp).pending = s.pending := rfl

theorem finish_pending {e : Eff} {s : State} (h : e.leaves s.pending) (op : Nat) (r : Req) : (s.finish op r e).pending = s.pending := by
  cases e with
  | done p n t =>
    unfold State.finish
    dsimp only
    split
    · exact (raiseOn_pending ..).trans ((respond_pending ..).trans h)
    · exact (respond_pending ..).trans h
  | later p n t => exact (respond_pending ..).trans h
  | fail st p => exact respond_pending ..
  | noUnit => exact respond_pending ..
  | refuse st p t => exact (respond_pending ..).trans h
  | wait w p t => exact (fly_pending ..).trans h

@[simp] theorem toOthers_pending (s : State) (cls kind : Nat) (p : Bytes) : (s.toOthers cls kind p).pending = s.pending := by
  unfold State.toOthers
  exact foldl_pending (fun s a => by simp) ..

@[simp] theorem sendDelta_pending (s : State) (entry op block : Nat) (p : Bytes) : (s.sendDelta entry op block p).pending = s.pending := by simp [State.sendDelta]

@[simp] theorem mirror_pending (s : State) (key kind block pos pic : Nat) (d : Bytes) :
    (s.mirror key kind block pos pic d).pending = s.pending := by
  unfold State.mirror
  split <;> simp

@[simp] theorem clearEffect_pending (s : State) : s.clearEffect.pending = s.pending := rfl

@[simp] theorem raiseFloor_pending (s : State) (f before : Nat) : (s.raiseFloor f before).pending = s.pending := by
  unfold State.raiseFloor
  split <;> simp

theorem judge_pending {own : State → Eff} (h : ∀ s, (own s).leaves s.pending) (s : State) (op : Nat) (r : Req) (names : List Nat) :
    (s.judge op r names own).pending = s.pending := by
  have hfail (st : Status) (p : Bytes) : (s.finish op r (.fail st p)).pending = s.pending := finish_pending (fail_leaves ..) ..
  have hunit : (s.finish op r .noUnit).pending = s.pending := finish_pending (noUnit_leaves _) ..
  unfold State.judge
  split
  · exact finish_pending (h s) ..
  next entry _ =>
    split
    · split
      · exact hfail ..
      · exact hfail ..
      · exact hfail ..
      · exact hunit
      · exact hfail ..
    · extract_lets trio s1 send
      have hsend (t : State) : (send t).pending = t.pending := by simp [send]
      have hown := h s1
      split
      next p n t he => rw [he] at hown; exact finish_pending (s := s) ((done_leaves ..).2 ((hsend t).trans hown)) ..
      next p n t he => rw [he] at hown; exact finish_pending (s := s) ((later_leaves ..).2 ((hsend t).trans hown)) ..
      next w p t he => rw [he] at hown; exact finish_pending (s := s) ((wait_leaves (t := t.clearEffect) ..).2 hown) ..
      next => exact hfail ..
      next => exact hunit
      next st p t he => rw [he] at hown; exact finish_pending (s := s) ((refuse_leaves (t := t.clearEffect) ..).2 hown) ..

@[simp] theorem countAborts_pending (s : State) (n : Nat) : (s.countAborts n).pending = s.pending := by simp [State.countAborts]

/-- A command leaves the queue where its own part does. -/
theorem command_pending {own : State → Eff} (h : ∀ s, (own s).leaves s.pending) (s : State) (op : Nat) (len : Nat → Bool) (r : Req) :
    (s.command op len r own).pending = s.pending := by
  unfold State.command
  split
  · rfl
  next t ht =>
    have hstart : t.pending = s.pending := start_pending ht
    split
    · exact (finish_pending (fail_leaves ..) ..).trans hstart
    split
    · exact hstart
    split
    · exact (finish_pending (fail_leaves ..) ..).trans hstart
    · refine (judge_pending (fun u => ?_) ..).trans hstart
      unfold need
      split
      · exact h u
      · exact fail_leaves ..

/-! ### Budget.lean -/

@[simp] theorem reserve_pending (s : State) (c : Costs) : (s.reserve c).pending = s.pending := rfl
@[simp] theorem releaseAt_pending (s : State) (b : Boundary) (c : Costs) : (s.releaseAt b c).pending = s.pending := by simp [State.releaseAt]
@[simp] theorem releaseNow_pending (s : State) (c : Costs) : (s.releaseNow c).pending = s.pending := rfl
@[simp] theorem releaseDue_pending (s : State) (c : Costs) : (s.releaseDue c).pending = s.pending := rfl

@[simp] theorem admission_leaves (s : State) (new old : Costs) (k : State → Costs → Eff) (q : List Instr) :
    (s.admission new old k).leaves q ↔
      (s.firstOver (overCost new old) = none → (k (s.reserve (overCost new old)) (overCost old new)).leaves q) := by
  unfold State.admission
  split <;> simp [*]

/-! ### Matrix.lean -/

@[simp] theorem updLeg_pending (s : State) (key : Nat) (f : Leg → Leg) : (s.updLeg key f).pending = s.pending := rfl
@[simp] theorem placedAt_pending (s : State) (f b : Nat) : (s.placedAt f b).pending = s.pending := by simp [State.placedAt]
@[simp] theorem retile_pending (s : State) (x : Matrix) (b : Nat) (tiles : List Nat) : (s.retile x b tiles).pending = s.pending := by simp [State.retile]

theorem writeNodes_leaves {s : State} {k : State → Nat → Eff} {q : List Instr} (hq : s.pending = q)
    (hk : ∀ t b, t.pending = q → (k t b).leaves q) (f : Nat) (o : Origin) (l : List (Node × BitVec 16 × Nat × Nat)) (hold : Bytes) :
    (s.writeNodes f o l hold k).leaves q := by
  unfold State.writeNodes
  dsimp only
  split
  · exact hk _ _ (by simpa using hq)
  split
  · simp [hq]
  · simp [hk, hq]

@[simp] theorem fadesDone_pending (s : State) (b : Nat) (l : List Fade) : (s.fadesDone b l).pending = s.pending := by simp [State.fadesDone]
@[simp] theorem applyPhase_pending (s : State) (b : Nat) : (s.applyPhase b).pending = s.pending := by simp [State.applyPhase]

@[simp] theorem mixBlock_pending (s : State) : s.mixBlock.pending = s.pending := by
  unfold State.mixBlock
  exact foldl_pending (fun s a => by simp) ..

theorem checkNodes_leaves {k : List (Node × BitVec 16 × Nat × Nat) → Eff} {q : List Instr} (hk : ∀ l, (k l).leaves q) (s : State)
    (l : List (Nat × Nat × BitVec 16 × Nat)) : (s.checkNodes l k).leaves q := by
  unfold State.checkNodes
  split
  · exact fail_leaves ..
  split
  · exact fail_leaves ..
  split
  · exact fail_leaves ..
  · exact hk _

@[simp] theorem nodeSet_leaves (s : State) (r : Req) (ws : List (Node × BitVec 16 × Nat × Nat)) (hold : Bytes) :
    (s.nodeSet r ws hold).leaves s.pending := by
  unfold State.nodeSet
  exact writeNodes_leaves rfl (fun t b ht => by simpa using ht) ..

@[simp] theorem effNodeSet_leaves (r : Req) (s : State) : (effNodeSet r s).leaves s.pending := by
  unfold effNodeSet
  simp only [nullTarget_leaves, need_leaves]
  intro _ _
  exact checkNodes_leaves (fun ws => by simp) ..

@[simp] theorem effNodeSetBulkData_leaves (r : Req) (d : Bytes) (s : State) : (effNodeSetBulkData r d s).leaves s.pending := checkNodes_leaves (fun _ => nodeSet_leaves ..) ..
@[simp] theorem effNodeSetBulk_leaves (r : Req) (s : State) : (effNodeSetBulk r s).leaves s.pending := by simp [effNodeSetBulk]

@[simp] theorem effNodeFade_leaves (r : Req) (s : State) : (effNodeFade r s).leaves s.pending := by
  unfold effNodeFade
  simp only [nullTarget_leaves, need_leaves, withHandle_leaves]
  intros
  repeat' split
  all_goals simp

@[simp] theorem effNodeGet_leaves (r : Req) (s : State) : (effNodeGet r s).leaves s.pending := by simp [effNodeGet]
@[simp] theorem effMatrixTileMapGet_leaves (r : Req) (s : State) : (effMatrixTileMapGet r s).leaves s.pending := by simp [effMatrixTileMapGet]
@[simp] theorem effMatrixStatsGet_leaves (r : Req) (s : State) : (effMatrixStatsGet r s).leaves s.pending := by simp [effMatrixStatsGet]

@[simp] theorem create_leaves (s : State) (ty lo n : Nat) (k : Nat → Eff) (q : List Instr) :
    (s.create ty lo n k).leaves q ↔ ∀ i, s.lowestFree ty lo n = some i → (k (okey ty i)).leaves q := by
  unfold State.create
  split <;> simp [*]

@[simp] theorem addObj_pending (s : State) (key owner : Nat) (active : Bool) (cls : Nat) (cost : Costs) :
    (s.addObj key owner active cls cost).pending = s.pending := rfl

@[simp] theorem dying_pending (s : State) (key : Nat) : (s.dying key).pending = s.pending := rfl
@[simp] theorem dropObj_pending (s : State) (key : Nat) : (s.dropObj key).pending = s.pending := rfl
@[simp] theorem destroyAt_leaves (s : State) (r : Req) (key : Nat) (b : Boundary) : (s.destroyAt r key b).leaves s.pending := by simp [State.destroyAt]

@[simp] theorem effMeterSubscribe_leaves (r : Req) (s : State) : (effMeterSubscribe r s).leaves s.pending := by
  unfold effMeterSubscribe
  simp only [nullTarget_leaves]
  intros
  repeat' split
  all_goals simp

@[simp] theorem effMeterUnsubscribe_leaves (r : Req) (s : State) : (effMeterUnsubscribe r s).leaves s.pending := by simp [effMeterUnsubscribe]

@[simp] theorem execMeterReport_has (sub : Nat) (s : State) : nextHas (execMeterReport sub s) s.pending := by
  unfold execMeterReport
  repeat' split
  all_goals simp

@[simp] theorem effDuckGroupCreate_leaves (r : Req) (s : State) : (effDuckGroupCreate r s).leaves s.pending := by simp [effDuckGroupCreate]
@[simp] theorem effDuckGroupDestroy_leaves (r : Req) (s : State) : (effDuckGroupDestroy r s).leaves s.pending := by simp [effDuckGroupDestroy]

@[simp] theorem effDuckMemberSet_leaves (r : Req) (s : State) : (effDuckMemberSet r s).leaves s.pending := by
  unfold effDuckMemberSet
  simp only [withHandle_leaves]
  intros
  repeat' split
  all_goals simp

@[simp] theorem effDuckForce_leaves (r : Req) (s : State) : (effDuckForce r s).leaves s.pending := by simp [effDuckForce]
@[simp] theorem duckEvent_pending (s : State) (g : Nat) (on : Bool) : (s.duckEvent g on).pending = s.pending := by simp [State.duckEvent]
@[simp] theorem duckBlock_pending (calls : List Nat) (s : State) : (s.duckBlock calls).pending = s.pending := by simp [State.duckBlock]

@[simp] theorem effSessionMixSet_leaves (r : Req) (s : State) : (effSessionMixSet r s).leaves s.pending := by
  unfold effSessionMixSet
  dsimp only
  simp only [withHandle_leaves, need_leaves]
  intro key _ _ _
  split
  · rfl
  · exact writeNodes_leaves rfl (fun t b ht => by simpa using ht) ..

/-! ### Work.lean -/

@[simp] theorem execWorkSubmit_has (source : Nat) (desc : Bytes) (s : State) : nextHas (execWorkSubmit source desc s) s.pending := by
  unfold execWorkSubmit
  split <;> simp

@[simp] theorem release_pending (s : State) : s.release.pending = s.pending := by simp [State.release]

@[simp] theorem endWhere_pending (s : State) (p : Item → Bool) (st res : Nat) : (s.endWhere p st res).pending = s.pending := by
  unfold State.endWhere
  dsimp only
  split <;> simp

@[simp] theorem expireItem_pending (s : State) (id : Nat) : (s.expireItem id).pending = s.pending := by simp [State.expireItem]
@[simp] theorem cancelWhere_pending (s : State) (p : Item → Bool) : (s.cancelWhere p).pending = s.pending := by simp [State.cancelWhere]
@[simp] theorem setItem_pending (s : State) (id : Nat) (st : ItemState) : (s.setItem id st).pending = s.pending := by simp [State.setItem]

@[simp] theorem take_pending (s : State) (kind inst : Nat) (free : Bool) (it : Item) : (s.take kind inst free it).1.pending = s.pending := by
  unfold State.take
  split <;> simp

@[simp] theorem takeHead_pending (s : State) (kind inst : Nat) (free : Bool) : (s.takeHead kind inst free).1.pending = s.pending := by
  unfold State.takeHead
  split <;> simp

@[simp] theorem dispatch_pending (s : State) (kind inst : Nat) : (s.dispatch kind inst).1.pending = s.pending := by
  unfold State.dispatch
  dsimp only
  repeat' split
  all_goals simp

@[simp] theorem drained_pending (s : State) (kind inst : Nat) : (s.drained kind inst).pending = s.pending := by
  unfold State.drained
  split <;> simp

@[simp] theorem effDispatchEnable_leaves (r : Req) (s : State) : (effDispatchEnable r s).leaves s.pending := by simp [effDispatchEnable]
@[simp] theorem effDispatchStatsGet_leaves (r : Req) (s : State) : (effDispatchStatsGet r s).leaves s.pending := by simp [effDispatchStatsGet]

/-! ### Dram.lean -/

@[simp] theorem updChan_pending (s : State) (c : Nat) (f : MemChan → MemChan) : (s.updChan c f).pending = s.pending := rfl
@[simp] theorem updRank_pending (s : State) (c r : Nat) (f : RankRun → RankRun) : (s.updRank c r f).pending = s.pending := rfl
@[simp] theorem memError_pending (s : State) (c kind count l : Nat) : (s.memError c kind count l).pending = s.pending := by simp [State.memError]
@[simp] theorem corrected_pending (s : State) (c l : Nat) : (s.corrected c l).pending = s.pending := by simp [State.corrected]
@[simp] theorem uncorrected_pending (s : State) (c kind l : Nat) : (s.uncorrected c kind l).pending = s.pending := by simp [State.uncorrected]
@[simp] theorem precharge_pending (s : State) (k : Nat) : (s.precharge k).pending = s.pending := by simp [State.precharge]

@[simp] theorem refreshRank_pending (s : State) (c r n : Nat) : (s.refreshRank c r n).pending = s.pending := by
  unfold State.refreshRank
  exact foldl_pending (fun s a => by simp) ..

@[simp] theorem openRow_pending (s : State) (c k row : Nat) : (s.openRow c k row).pending = s.pending := by simp [State.openRow]
@[simp] theorem memOnly_pending (s t : State) : (s.memOnly t).pending = s.pending := rfl
@[simp] theorem touch_pending (s : State) (c l : Nat) : (s.touch c l).pending = s.pending := by simp [State.touch]
@[simp] theorem readOne_pending (s : State) (c kind l : Nat) : (s.readOne c kind l).pending = s.pending := by simp [State.readOne]

@[simp] theorem memRead_pending (s : State) (a n : Nat) : (s.memRead a n).1.pending = s.pending := by
  simp [State.memRead]

@[simp] theorem memWrite_pending (s : State) (a n : Nat) : (s.memWrite a n).pending = s.pending := by
  unfold State.memWrite
  exact foldl_pending (fun s a => by simp) ..

@[simp] theorem markBurst_pending (s : State) (c r : Nat) : (s.markBurst c r).pending = s.pending := rfl

/-! ### Pins.lean -/

@[simp] theorem driveFctl_pending (s s0 : State) (n : Nat) : (s.driveFctl s0 n).pending = s.pending := by
  unfold State.driveFctl
  split <;> rfl

@[simp] theorem driveAll_pending (s s0 : State) : (s.driveAll s0).pending = s.pending := foldl_pending (fun u n => driveFctl_pending u s0 n) ..
@[simp] theorem pinsOff_pending (s : State) : s.pinsOff.pending = s.pending := by simp [State.pinsOff]

/-! ### Packet.lean -/

@[simp] theorem updPort_pending (s : State) (p : Nat) (f : Port → Port) : (s.updPort p f).pending = s.pending := rfl
@[simp] theorem portBump_pending (s : State) (p off n : Nat) : (s.portBump p off n).pending = s.pending := rfl
@[simp] theorem setQueue_pending (s : State) (id : Nat) (q : Queue) : (s.setQueue id q).pending = s.pending := rfl
@[simp] theorem addQueue_pending (s : State) (id spill : Nat) : (s.addQueue id spill).pending = s.pending := rfl

@[simp] theorem queueEvent_pending (s : State) (id kind fill : Nat) : (s.queueEvent id kind fill).pending = s.pending := by
  unfold State.queueEvent
  split <;> simp

@[simp] theorem scrambled_pending (s : State) (port : Nat) (f : Bytes) : (s.scrambled port f).pending = s.pending := by
  unfold State.scrambled
  split <;> simp

@[simp] theorem sendFrame_pending (s : State) (port : Nat) (f : Bytes) : (s.sendFrame port f).pending = s.pending := by simp [State.sendFrame]
@[simp] theorem sendPaced_pending (s : State) (port q deadline : Nat) (f : Bytes) : (s.sendPaced port q deadline f).pending = s.pending := by simp [State.sendPaced]
@[simp] theorem sendPfc_pending (s : State) (port prio time : Nat) : (s.sendPfc port prio time).pending = s.pending := by simp [State.sendPfc]

@[simp] theorem noticeOut_pending (s s0 : State) (port prio pin : Nat) : (s.noticeOut s0 port prio pin).pending = s.pending := by
  unfold State.noticeOut
  simp

@[simp] theorem evalNotice_pending (s : State) (id : Nat) : (s.evalNotice id).pending = s.pending := by
  unfold State.evalNotice
  split <;> simp

@[simp] theorem freeCell_pending (s : State) (id : Nat) : (s.freeCell id).2.pending = s.pending := rfl

@[simp] theorem spillTail_pending (s : State) (id done : Nat) : (s.spillTail id done).pending = s.pending := by
  unfold State.spillTail
  split <;> simp

@[simp] theorem pushBytes_pending (id f n : Nat) (s : State) : (State.pushBytes id f n s).pending = s.pending := by
  induction f generalizing n s with
  | zero => rfl
  | succ f ih =>
    unfold State.pushBytes
    split
    · rfl
    · simp [ih]

@[simp] theorem enqueue_pending (s : State) (id : Nat) (q : Queue) (r : Rec) : (s.enqueue id q r).pending = s.pending := by simp [State.enqueue]

@[simp] theorem writeQueue_pending (s : State) (id : Nat) (r : Rec) (lineFed : Bool) : (s.writeQueue id r lineFed).pending = s.pending := by
  unfold State.writeQueue
  split <;> simp

@[simp] theorem lateRefused_pending (s : State) (handle : Nat) : (s.lateRefused handle).pending = s.pending := by simp [State.lateRefused]

@[simp] theorem resumeQueue_pending (s : State) (id : Nat) : (s.resumeQueue id).pending = s.pending := by
  unfold State.resumeQueue
  repeat' split
  all_goals simp

@[simp] theorem flushQueue_pending (s : State) (id words : Nat) : (s.flushQueue id words).pending = s.pending := by
  unfold State.flushQueue
  split
  · rfl
  next q _ =>
    extract_lets s1 s2
    have hdrop : s2.pending = s.pending :=
      (evalNotice_pending ..).trans ((setQueue_pending ..).trans (foldl_pending (fun u r => objCount_pending ..) ..))
    split
    · exact (raiseOn_pending ..).trans hdrop
    · exact hdrop

@[simp] theorem queueRefill_pending (s : State) (id done : Nat) : (s.refill id done).pending = s.pending := by
  unfold State.refill
  split
  · rfl
  split
  · simp
  next c cs _ =>
    extract_lets a s1
    have h1 : s1.pending = s.pending := by
      unfold s1
      split
      · exact foldl_pending (fun u p => markBurst_pending ..) ..
      · rfl
    dsimp only
    simp [h1]

@[simp] theorem pullBytes_pending (id f n done : Nat) (s : State) : (State.pullBytes id f n done s).pending = s.pending := by
  induction f generalizing n done s with
  | zero => rfl
  | succ f ih =>
    unfold State.pullBytes
    split
    · rfl
    · simp [ih]

@[simp] theorem readQueue_pending (s : State) (id : Nat) : (s.readQueue id).1.pending = s.pending := by
  unfold State.readQueue
  dsimp only
  repeat' split
  all_goals simp

@[simp] theorem dropQueue_pending (s : State) (id : Nat) : (s.dropQueue id).pending = s.pending := by
  unfold State.dropQueue
  split <;> simp

@[simp] theorem setLink_pending (s : State) (port : Nat) (up : Bool) : (s.setLink port up).pending = s.pending := by
  unfold State.setLink
  split <;> simp

@[simp] theorem execLinkStateChange_has (port : Nat) (up : Bool) (s : State) : nextHas (execLinkStateChange port up s) s.pending := by
  unfold execLinkStateChange
  split <;> simp

@[simp] theorem setHring_pending (s : State) (f d : Nat) (h : HostRing) : (s.setHring f d h).pending = s.pending := rfl

@[simp] theorem passQueue_pending (s : State) (id : Nat) (r : Rec) : (s.passQueue id r).pending = s.pending := by
  unfold State.passQueue
  split <;> simp

theorem hostSlot_pending {s t : State} {f : Nat} {r : Rec} (h : s.hostSlot f r = some t) : t.pending = s.pending := by
  unfold State.hostSlot at h
  dsimp only at h
  split at h
  · obtain rfl := Option.some.inj h
    simp
  · contradiction

@[simp] theorem hostDrain_pending (f n : Nat) (s : State) : (State.hostDrain f n s).pending = s.pending := by
  induction n generalizing s with
  | zero => rfl
  | succ n ih =>
    have hread := readQueue_pending s (hostRxQueue f)
    unfold State.hostDrain
    split
    next t he => rw [he] at hread; exact hread
    next t r he =>
      rw [he] at hread
      rw [ih]
      cases hslot : t.hostSlot f r with
      | none => exact (portBump_pending ..).trans hread
      | some u => exact (hostSlot_pending hslot).trans hread

theorem hostPut_pending {s t : State} {f : Nat} {r : Rec} (h : s.hostPut f r = some t) : t.pending = s.pending := by
  unfold State.hostPut at h
  dsimp only at h
  split at h
  · obtain rfl := Option.some.inj h
    simp
  · exact (hostSlot_pending h).trans (passQueue_pending ..)

theorem hostBound_pending {s t : State} {n : Nat} (h : s.hostBound n = some t) : t.pending = s.pending := by
  unfold State.hostBound at h
  dsimp only at h
  split at h
  · obtain rfl := Option.some.inj h
    rfl
  · contradiction

/-- A frame put into a host's ring under its bounds. -/
theorem boundPut_pending {s t : State} {n f : Nat} {r : State → Rec} (h : ((s.hostBound n).bind fun u => u.hostPut f (r u)) = some t) :
    t.pending = s.pending := by
  obtain ⟨u, hu, ht⟩ := Option.bind_eq_some_iff.1 h
  exact (hostPut_pending ht).trans (hostBound_pending hu)

@[simp] theorem toHost_pending (s : State) (f obj port kind arrival n : Nat) (d : Bytes) :
    (s.toHost f obj port kind arrival n d).pending = s.pending := by
  unfold State.toHost
  dsimp only
  split
  next t ht => exact (portBump_pending ..).trans (boundPut_pending ht)
  next => exact portBump_pending ..

@[simp] theorem execStaleTailTimeout_has (queue : Nat) (s : State) : nextHas (execStaleTailTimeout queue s) s.pending := by
  unfold execStaleTailTimeout
  repeat' split
  all_goals simp

@[simp] theorem hprHead_pending (s : State) (fn head : Nat) : (s.hprHead fn head).pending = s.pending := by simp [State.hprHead]

@[simp] theorem execHostReceiveHeadWrite_has (fn head : Nat) (s : State) : nextHas (execHostReceiveHeadWrite fn head s) s.pending := by
  unfold execHostReceiveHeadWrite
  split <;> simp

@[simp] theorem effHostRingSet_leaves (r : Req) (s : State) : (effHostRingSet r s).leaves s.pending := by
  unfold effHostRingSet
  dsimp only
  simp only [nullTarget_leaves, need_leaves, admission_leaves]
  intros
  repeat' split
  all_goals simp

@[simp] theorem clearNotice_pending (s : State) (id : Nat) : (s.clearNotice id).pending = s.pending := by
  unfold State.clearNotice
  split <;> simp

@[simp] theorem effNetGroupSet_leaves (r : Req) (s : State) : (effNetGroupSet r s).leaves s.pending := by
  unfold effNetGroupSet
  simp only [nullTarget_leaves, need_leaves]
  intros
  repeat' split
  all_goals simp

@[simp] theorem effPortSet_leaves (r : Req) (s : State) : (effPortSet r s).leaves s.pending := by simp [effPortSet]

@[simp] theorem effNeighbourSet_leaves (r : Req) (s : State) : (effNeighbourSet r s).leaves s.pending := by
  unfold effNeighbourSet
  simp only [nullTarget_leaves, need_leaves]
  intros
  repeat' split
  all_goals simp

@[simp] theorem effQueueNoticeSet_leaves (r : Req) (s : State) : (effQueueNoticeSet r s).leaves s.pending := by simp [effQueueNoticeSet]
@[simp] theorem effQueueStatsGet_leaves (r : Req) (s : State) : (effQueueStatsGet r s).leaves s.pending := by simp [effQueueStatsGet]
@[simp] theorem effPortStatsGet_leaves (r : Req) (s : State) : (effPortStatsGet r s).leaves s.pending := by simp [effPortStatsGet]

/-! ### Framer.lean -/

@[simp] theorem updLane_pending (s : State) (l : Nat) (f : Lane → Lane) : (s.updLane l f).pending = s.pending := rfl
@[simp] theorem updE1_pending (s : State) (i : Nat) (f : E1 → E1) : (s.updE1 i f).pending = s.pending := rfl
@[simp] theorem updGroup_pending (s : State) (g : Nat) (f : Vcat → Vcat) : (s.updGroup g f).pending = s.pending := rfl
@[simp] theorem setDefect_pending (s : State) (key c : Nat) (on : Bool) : (s.setDefect key c on).pending = s.pending := by simp [State.setDefect]
@[simp] theorem pathBump_pending (s : State) (key off n : Nat) : (s.pathBump key off n).pending = s.pending := by simp [State.pathBump]

@[simp] theorem e1Search_pending (s : State) (i : Nat) : (s.e1Search i).pending = s.pending := by
  unfold State.e1Search
  split <;> simp

@[simp] theorem realign_pending (s : State) (w : Nat) : (s.realign w).pending = s.pending := by
  unfold State.realign
  exact foldl_pending (fun s a => by simp) ..

@[simp] theorem mspEval_pending (s : State) (w : Nat) : (s.mspEval w).pending = s.pending := by
  unfold State.mspEval
  repeat' split
  all_goals simp

@[simp] theorem mspReceive_pending (s : State) (w : Nat) (p : Msp) (k1 k2 : Nat) : (s.mspReceive w p k1 k2).pending = s.pending := by simp [State.mspReceive]

@[simp] theorem execFopDeclare_has (pair : Nat) (s : State) : nextHas (execFopDeclare pair s) s.pending := by
  unfold execFopDeclare
  repeat' split
  all_goals simp

@[simp] theorem execWaitToRestoreExpiry_has (pair : Nat) (s : State) : nextHas (execWaitToRestoreExpiry pair s) s.pending := by
  unfold execWaitToRestoreExpiry
  repeat' split
  all_goals simp

@[simp] theorem laneAlign_pending (s : State) (l : Nat) (pats : List Nat) : (s.laneAlign l pats).pending = s.pending := by
  unfold State.laneAlign
  dsimp only
  repeat' split
  all_goals simp

@[simp] theorem laneOverhead_pending (s : State) (l : Nat) (rx : LineRx) : (s.laneOverhead l rx).pending = s.pending := by
  unfold State.laneOverhead
  split <;> simp

@[simp] theorem auRx_pending (s : State) (w : Nat) (l : List AuIn) : (s.auRx w l).pending = s.pending := by
  unfold State.auRx
  dsimp only
  split <;> simp

@[simp] theorem tribRx_pending (s : State) (i : Nat) (t : TribIn) : (s.tribRx i t).pending = s.pending := by
  unfold State.tribRx
  dsimp only
  split <;> simp

@[simp] theorem memberRx_pending (w : Nat) (s : State) (m : MemberIn) : (s.memberRx w m).pending = s.pending := by
  unfold State.memberRx
  split <;> simp

@[simp] theorem groupEval_pending (s : State) (gi : Nat) : (s.groupEval gi).pending = s.pending := by
  unfold State.groupEval
  split <;> simp

@[simp] theorem justify_pending (s : State) (i : Nat) : (s.justify i).1.pending = s.pending := by
  unfold State.justify
  dsimp only
  repeat' split
  all_goals simp

@[simp] theorem tribTx_pending (a : State × List TribTx) (i : Nat) : (State.tribTx a i).1.pending = a.1.pending := by
  unfold State.tribTx
  split
  · rfl
  · simp

@[simp] theorem lowerPaths_pending (s : State) (w x : Nat) (rx : LineRx) : (s.lowerPaths w x rx).1.pending = s.pending := by
  unfold State.lowerPaths
  extract_lets bad s1 s2 s3
  have h1 : s1.pending = s.pending := by simp [s1]
  have h2 : s2.pending = s1.pending := by
    refine foldl_pending (fun u i => ?_) ..
    split
    · rfl
    next e _ =>
      have hin : (match rx.trib.find? fun (t : TribIn) => t.a == e.a && t.k == e.k && t.l == e.l && t.m == e.m with
          | some t => if (bad || u.auDown w e.a) = true then u else u.tribRx i t
          | none => u).pending = u.pending := by
        split
        · simp
        · rfl
      dsimp only
      split
      · exact hin
      · exact (pathBump_pending ..).trans hin
  have h3 : s3.pending = s2.pending := by simp [s3]
  exact (foldl_pending (fun u g => groupEval_pending ..) ..).trans ((foldl_fst_pending (fun x i => tribTx_pending x i) ..).trans
    (h3.trans (h2.trans h1)))

@[simp] theorem lineSend_pending (s : State) (w y k1 k2 : Nat) (fs : List TribTx) : (s.lineSend w y k1 k2 fs).pending = s.pending := by
  unfold State.lineSend
  split <;> simp

@[simp] theorem lineFrame_pending (s : State) (x : Nat) (rx : LineRx) : (s.lineFrame x rx).pending = s.pending := by
  unfold State.lineFrame
  dsimp only
  repeat' split
  all_goals simp

@[simp] theorem execLosDeclare_has (lane : Nat) (s : State) : nextHas (execLosDeclare lane s) s.pending := by
  unfold execLosDeclare
  repeat' split
  all_goals simp

@[simp] theorem execLofDeclare_has (lane : Nat) (s : State) : nextHas (execLofDeclare lane s) s.pending := by
  unfold execLofDeclare
  repeat' split
  all_goals simp

@[simp] theorem execLofClear_has (lane : Nat) (s : State) : nextHas (execLofClear lane s) s.pending := by
  unfold execLofClear
  repeat' split
  all_goals simp

@[simp] theorem execCrc4MultiframeTimeout_has (path : Nat) (s : State) : nextHas (execCrc4MultiframeTimeout path s) s.pending := by
  unfold execCrc4MultiframeTimeout
  repeat' split
  all_goals simp

@[simp] theorem execCrc4AutoFallback_has (path : Nat) (s : State) : nextHas (execCrc4AutoFallback path s) s.pending := by
  unfold execCrc4AutoFallback
  repeat' split
  all_goals simp

@[simp] theorem tdmSend_pending (s : State) (path ts : Nat) (b : Bytes) : (s.tdmSend path ts b).pending = s.pending := rfl

@[simp] theorem framerBlock_pending (s : State) : s.framerBlock.pending = s.pending := by
  unfold State.framerBlock
  exact foldl_pending (fun s a => by split <;> simp) ..

@[simp] theorem effLineCreate_leaves (r : Req) (s : State) : (effLineCreate r s).leaves s.pending := by
  unfold effLineCreate
  simp only [nullTarget_leaves, need_leaves]
  intros
  repeat' split
  all_goals simp

@[simp] theorem effE1PathCreate_leaves (r : Req) (s : State) : (effE1PathCreate r s).leaves s.pending := by
  unfold effE1PathCreate
  simp only [nullTarget_leaves, need_leaves, withHandle_leaves]
  intros
  repeat' split
  all_goals simp

@[simp] theorem effVcatGroupCreate_leaves (r : Req) (s : State) : (effVcatGroupCreate r s).leaves s.pending := by
  unfold effVcatGroupCreate
  simp only [nullTarget_leaves, need_leaves]
  intros
  repeat' split
  all_goals simp

@[simp] theorem effPathDestroy_leaves (r : Req) (s : State) : (effPathDestroy r s).leaves s.pending := by simp [effPathDestroy]
@[simp] theorem dropPath_pending (s : State) (key : Nat) : (s.dropPath key).pending = s.pending := by simp [State.dropPath]

@[simp] theorem pathFlow_pending (s : State) (key : Nat) (on : Bool) : (s.pathFlow key on).pending = s.pending := by
  unfold State.pathFlow
  dsimp only
  repeat' split
  all_goals simp

@[simp] theorem effPathEnable_leaves (r : Req) (s : State) : (effPathEnable r s).leaves s.pending := by
  unfold effPathEnable
  simp only [need_leaves, withHandle_leaves]
  intros
  repeat' split
  all_goals simp

@[simp] theorem effPathHold_leaves (r : Req) (s : State) : (effPathHold r s).leaves s.pending := by simp [effPathHold]
@[simp] theorem effMspSet_leaves (r : Req) (s : State) : (effMspSet r s).leaves s.pending := by simp [effMspSet]

@[simp] theorem effMspCommand_leaves (r : Req) (s : State) : (effMspCommand r s).leaves s.pending := by
  unfold effMspCommand
  simp only [need_leaves, withHandle_leaves]
  intros
  repeat' split
  all_goals simp

@[simp] theorem setCas_pending (s : State) (path ch v : Nat) : (s.setCas path ch v).pending = s.pending := rfl

@[simp] theorem effCasSet_leaves (r : Req) (s : State) : (effCasSet r s).leaves s.pending := by
  unfold effCasSet
  simp only [withHandle_leaves]
  intros
  repeat' split
  all_goals simp

@[simp] theorem effFramerStatusGet_leaves (r : Req) (s : State) : (effFramerStatusGet r s).leaves s.pending := by simp [effFramerStatusGet]

/-! ### Garnet.lean -/

@[simp] theorem updKernel_pending (s : State) (i : Nat) (f : Kernel → Kernel) : (s.updKernel i f).pending = s.pending := rfl

@[simp] theorem kernelFault_pending (s : State) (leg slot cause bundle blk : Nat) :
    (s.kernelFault leg slot cause bundle blk).pending = s.pending := by
  unfold State.kernelFault
  repeat' split
  all_goals simp

@[simp] theorem runSlot_pending (s : State) (leg slot blk : Nat) (x : List Int) : (s.runSlot leg slot blk x).1.pending = s.pending := by
  unfold State.runSlot
  dsimp only
  repeat' split
  all_goals simp

@[simp] theorem execCyclesException_has (leg slot : Nat) (s : State) : nextHas (execCyclesException leg slot s) s.pending := by
  unfold execCyclesException
  repeat' split
  all_goals simp

@[simp] theorem place_pending (s : State) (key n : Nat) : (s.place key n).pending = s.pending := by
  unfold State.place
  split <;> simp

@[simp] theorem unplace_pending (s : State) (key n : Nat) : (s.unplace key n).pending = s.pending := by
  unfold State.unplace
  split <;> simp

@[simp] theorem unplaceAt_pending (s : State) (key n b : Nat) : (s.unplaceAt key n b).pending = s.pending := by simp [State.unplaceAt]

@[simp] theorem effKernelLoadData_leaves (r : Req) (d : Bytes) (s : State) : (effKernelLoadData r d s).leaves s.pending := by
  unfold effKernelLoadData
  split <;> simp

@[simp] theorem effKernelLoad_leaves (r : Req) (s : State) : (effKernelLoad r s).leaves s.pending := by simp [effKernelLoad]
@[simp] theorem effKernelUnload_leaves (r : Req) (s : State) : (effKernelUnload r s).leaves s.pending := by simp [effKernelUnload]

@[simp] theorem effKernelBind_leaves (r : Req) (s : State) : (effKernelBind r s).leaves s.pending := by
  unfold effKernelBind
  simp only [withHandle_leaves]
  intros
  repeat' split
  all_goals simp

@[simp] theorem effKernelUnbind_leaves (r : Req) (s : State) : (effKernelUnbind r s).leaves s.pending := by
  unfold effKernelUnbind
  simp only [withHandle_leaves]
  intros
  repeat' split
  all_goals simp

@[simp] theorem effKernelParamSet_leaves (r : Req) (s : State) : (effKernelParamSet r s).leaves s.pending := by
  unfold effKernelParamSet
  simp only [withHandle_leaves]
  intros
  repeat' split
  all_goals simp

@[simp] theorem effKernelStatsGet_leaves (r : Req) (s : State) : (effKernelStatsGet r s).leaves s.pending := by
  unfold effKernelStatsGet
  simp only [withHandle_leaves]
  intros
  repeat' split
  all_goals simp

@[simp] theorem applyBind_pending (s : State) (leg slot kernel quanta : Nat) (params : Bytes) :
    (s.applyBind leg slot kernel quanta params).pending = s.pending := by simp [State.applyBind]

@[simp] theorem applyParams_pending (s : State) (leg slot : Nat) (params : Bytes) : (s.applyParams leg slot params).pending = s.pending := rfl

/-! ### Onyx.lean -/

@[simp] theorem setKey_pending (s : State) (i : Nat) (c : KeyCtx) : (s.setKey i c).pending = s.pending := rfl
@[simp] theorem keyEvent_pending (s : State) (i op : Nat) (kind dir value : Nat) : (s.keyEvent i op kind dir value).pending = s.pending := by simp [State.keyEvent]
@[simp] theorem keyAuthFail_pending (s : State) (i : Nat) (c : KeyCtx) : (s.keyAuthFail i c).pending = s.pending := by simp [State.keyAuthFail]

@[simp] theorem keyRefuse_pending (s : State) (i : Nat) (c : KeyCtx) (kind value : Nat) :
    (s.keyRefuse i c kind value).pending = s.pending := by simp [State.keyRefuse]

@[simp] theorem keyWarn_pending (s : State) (i : Nat) (rtcp : Bool) (value : Nat) : (s.keyWarn i rtcp value).pending = s.pending := by
  unfold State.keyWarn
  split <;> simp

@[simp] theorem keyDone_pending (s : State) (i : Nat) (c : KeyCtx) (rtcp : Bool) (v : Nat) : (s.keyDone i c rtcp v).pending = s.pending := by simp [State.keyDone]

@[simp] theorem openRtp_pending (s : State) (i : Nat) (d : Bytes) : (s.openRtp i d).1.pending = s.pending := by
  unfold State.openRtp
  dsimp only
  repeat' split
  all_goals simp

@[simp] theorem openRtcp_pending (s : State) (i : Nat) (d : Bytes) : (s.openRtcp i d).1.pending = s.pending := by
  unfold State.openRtcp
  dsimp only
  repeat' split
  all_goals simp

@[simp] theorem protectRtp_pending (s : State) (i : Nat) (d : Bytes) : (s.protectRtp i d).1.pending = s.pending := by
  unfold State.protectRtp
  dsimp only
  repeat' split
  all_goals simp

@[simp] theorem protectRtcp_pending (s : State) (i : Nat) (d : Bytes) : (s.protectRtcp i d).1.pending = s.pending := by
  unfold State.protectRtcp
  dsimp only
  repeat' split
  all_goals simp

@[simp] theorem bindKey_pending (s : State) (h : Nat) (leg seq : Nat) : (s.bindKey h leg seq).pending = s.pending := by
  unfold State.bindKey
  repeat' split
  all_goals simp

@[simp] theorem spendKeys_pending (s : State) (leg : Nat) : (s.spendKeys leg).pending = s.pending := by simp [State.spendKeys]
@[simp] theorem refreshShares_pending (s : State) (core ctx : Nat) : (s.refreshShares core ctx).pending = s.pending := by simp [State.refreshShares]

@[simp] theorem withKek_leaves {k : Eff} {q : List Instr} (hk : k.leaves q) (s : State) (h : Nat) : (s.withKek h k).leaves q := by
  simp [State.withKek, hk]

@[simp] theorem effKeyLoad_leaves (r : Req) (s : State) : (effKeyLoad r s).leaves s.pending := by
  unfold effKeyLoad
  simp only [nullTarget_leaves]
  intros
  repeat' split
  all_goals simp

@[simp] theorem effKeyDestroy_leaves (r : Req) (s : State) : (effKeyDestroy r s).leaves s.pending := by
  unfold effKeyDestroy
  simp only [withHandle_leaves]
  intros
  repeat' split
  all_goals simp

theorem withSrtp_leaves {k : Nat → KeyCtx → Eff} {q : List Instr} (hk : ∀ i c, (k i c).leaves q) (s : State) (h : Nat) :
    (s.withSrtp h k).leaves q := by
  unfold State.withSrtp
  rw [withHandle_leaves]
  intro key _
  split
  · exact fail_leaves ..
  split
  · exact fail_leaves ..
  · exact hk ..

@[simp] theorem effKeyUpdate_leaves (r : Req) (s : State) : (effKeyUpdate r s).leaves s.pending := by
  unfold effKeyUpdate
  refine withSrtp_leaves (fun i c => withKek_leaves ?_ ..) ..
  simp only [need_leaves]
  intro _ _ _ _
  split
  · exact fail_leaves ..
  · simp

@[simp] theorem effKeyStatsGet_leaves (r : Req) (s : State) : (effKeyStatsGet r s).leaves s.pending := withSrtp_leaves (fun _ _ => (done_leaves ..).2 rfl) ..

@[simp] theorem effLinkKeyLoad_leaves (r : Req) (s : State) : (effLinkKeyLoad r s).leaves s.pending := by
  unfold effLinkKeyLoad
  simp only [nullTarget_leaves, need_leaves]
  intros
  repeat' split
  all_goals simp

@[simp] theorem effKeySystemGet_leaves (r : Req) (s : State) : (effKeySystemGet r s).leaves s.pending := by simp [effKeySystemGet]
@[simp] theorem entropyAlarm_pending (s : State) (st test inst : Nat) : (s.entropyAlarm st test inst).pending = s.pending := by simp [State.entropyAlarm]

@[simp] theorem execEntropyHealthFail_has (test : Nat) (s : State) : nextHas (execEntropyHealthFail test s) s.pending := by
  unfold execEntropyHealthFail
  split <;> simp

@[simp] theorem execDrbgExhausted_has (inst : Nat) (s : State) : nextHas (execDrbgExhausted inst s) s.pending := by
  unfold execDrbgExhausted
  split <;> simp

/-! ### Shape.lean -/

@[simp] theorem setLegShaper_pending (s : State) (q : Nat) (x : Shaper) : (s.setLegShaper q x).pending = s.pending := rfl
@[simp] theorem setClassShaper_pending (s : State) (n : Nat) (x : Shaper) : (s.setClassShaper n x).pending = s.pending := rfl
@[simp] theorem addShaper_pending (s : State) (q rate burst cls : Nat) : (s.addShaper q rate burst cls).pending = s.pending := rfl
@[simp] theorem pendShaper_pending (s : State) (q rate burst cls : Nat) : (s.pendShaper q rate burst cls).pending = s.pending := rfl

/-! ### Mem.lean -/

@[simp] theorem endBurst_pending (s : State) (c r : Nat) : (s.endBurst c r).pending = s.pending := by simp [State.endBurst]

@[simp] theorem tileFetch_pending (s : State) : s.tileFetch.1.pending = s.pending := by
  unfold State.tileFetch
  refine foldl_fst_pending (fun x a => ?_) ..
  exact (memRead_pending ..).trans (foldl_pending (fun u p => markBurst_pending ..) ..)

@[simp] theorem execRefreshDue_has (chan rank : Nat) (s : State) : nextHas (execRefreshDue chan rank s) s.pending := by
  unfold execRefreshDue
  dsimp only
  repeat' split
  all_goals simp

@[simp] theorem execRealtimeBurstEnd_has (chan rank : Nat) (s : State) : nextHas (execRealtimeBurstEnd chan rank s) s.pending := by
  unfold execRealtimeBurstEnd
  repeat' split
  all_goals simp

@[simp] theorem endBursts_pending (s : State) : s.endBursts.pending = s.pending := by
  unfold State.endBursts
  exact foldl_pending (fun s a => by simp) ..

@[simp] theorem execPageIdleTimeout_has (chan bank : Nat) (s : State) : nextHas (execPageIdleTimeout chan bank s) s.pending := by
  unfold execPageIdleTimeout
  split <;> simp

@[simp] theorem margin_pending (s : State) (chan lane st : Nat) : (s.margin chan lane st).pending = s.pending := by simp [State.margin]

@[simp] theorem trackLane_pending (s : State) (time chan i : Nat) : (s.trackLane time chan i).pending = s.pending := by
  simp [State.trackLane]

@[simp] theorem trackRead_pending (s : State) : s.trackRead.pending = s.pending := by
  unfold State.trackRead
  split <;> simp

@[simp] theorem execCalibrationWindowStart_has (chan : Nat) (s : State) : nextHas (execCalibrationWindowStart chan s) s.pending := by
  unfold execCalibrationWindowStart
  repeat' split
  all_goals simp

@[simp] theorem execCalibrationWindowEnd_has (chan : Nat) (s : State) : nextHas (execCalibrationWindowEnd chan s) s.pending := by
  unfold execCalibrationWindowEnd
  split
  · exact fault_has _ _
  · exact (next_has ..).2 (foldl_pending (fun u c => updChan_pending ..) ..)

@[simp] theorem execScrubStep_has (chan : Nat) (errs : List Nat) (s : State) : nextHas (execScrubStep chan errs s) s.pending := by
  unfold execScrubStep
  repeat' split
  all_goals simp

@[simp] theorem execCorrectedWriteBack_has (chan loc : Nat) (s : State) : nextHas (execCorrectedWriteBack chan loc s) s.pending := by
  unfold execCorrectedWriteBack
  repeat' split
  all_goals simp

@[simp] theorem setMct_pending (s : State) (c off : Nat) (v : BitVec 32) : (s.setMct c off v).pending = s.pending := by simp [State.setMct]

@[simp] theorem mctRead_pending (s : State) (c off : Nat) : (s.mctRead c off).2.pending = s.pending := by
  unfold State.mctRead
  simp

@[simp] theorem mctRun_pending (s : State) (n c step : Nat) : (s.mctRun n c step).pending = s.pending := by
  simp [State.mctRun]

@[simp] theorem mctWrite_pending (s : State) (n c step off : Nat) (v : BitVec 32) : (s.mctWrite n c step off v).pending = s.pending := by simp [State.mctWrite]

@[simp] theorem trainChannel_pending (s : State) (n c : Nat) : (s.trainChannel n c).pending = s.pending := by
  unfold State.trainChannel
  dsimp only
  simp

@[simp] theorem trainDdr_pending (s : State) (n : Nat) : (s.trainDdr n).pending = s.pending := by simp [State.trainDdr]
@[simp] theorem effMemLayoutSet_leaves (r : Req) (s : State) : (effMemLayoutSet r s).leaves s.pending := by simp [effMemLayoutSet]
@[simp] theorem effMemPolicySet_leaves (r : Req) (s : State) : (effMemPolicySet r s).leaves s.pending := by simp [effMemPolicySet]
@[simp] theorem effMemStatusGet_leaves (r : Req) (s : State) : (effMemStatusGet r s).leaves s.pending := by simp [effMemStatusGet]

/-! ### Tap.lean -/

@[simp] theorem updPart_pending (s : State) (key : Nat) (f : Part → Part) : (s.updPart key f).pending = s.pending := rfl

@[simp] theorem tapCopy_pending (s : State) (kind key stream : Nat) (concealed : Bool) (capture stamp period : Nat) (d : Bytes) :
    (s.tapCopy kind key stream concealed capture stamp period d).pending = s.pending := by simp [State.tapCopy]

@[simp] theorem tapPoisoned_pending (s : State) (kind key stream capture : Nat) :
    (s.tapPoisoned kind key stream capture).pending = s.pending := by
  unfold State.tapPoisoned
  exact foldl_pending (fun s a => by simp) ..

/-! ### Leg.lean -/

@[simp] theorem chargeMirror_pending (s : State) : s.chargeMirror.pending = s.pending := by simp [State.chargeMirror]

@[simp] theorem putLeg_pending (s : State) (owner key : Nat) (c : Bytes) (m core : Nat) (cost : Costs) :
    (s.putLeg owner key c m core cost).pending = s.pending := by simp [State.putLeg]

@[simp] theorem createLeg_leaves (s : State) (r : Req) (c : Bytes) : (s.createLeg r c).leaves s.pending := by
  unfold State.createLeg
  dsimp only
  split
  · rw [admission_leaves]
    intro _
    split
    · exact fail_leaves ..
    split
    · rfl
    · refine writeNodes_leaves (by simp) (fun t b ht => ?_) ..
      simpa using ht
  · exact fail_leaves ..

theorem legHandles_leaves {k : Option Nat → Option Nat → Eff} {q : List Instr} (hk : ∀ a b, (k a b).leaves q) (s : State) (p : Bytes) :
    (s.legHandles p k).leaves q := by
  unfold State.legHandles
  split <;> simp [hk]

@[simp] theorem effLegCreate_leaves (r : Req) (s : State) : (effLegCreate r s).leaves s.pending := by
  unfold effLegCreate
  simp only [nullTarget_leaves, withHandle_leaves]
  intro _ ses _
  refine legHandles_leaves (fun a b => ?_) ..
  simp

@[simp] theorem execLegCreate_has (r : Req) (s : State) : nextHas (execLegCreate r s) s.pending := by
  unfold execLegCreate
  exact (next_has ..).2 (command_pending (fun u => by simp) ..)

@[simp] theorem effSessionCreate_leaves (r : Req) (s : State) : (effSessionCreate r s).leaves s.pending := by simp [effSessionCreate]
@[simp] theorem effSessionDestroy_leaves (r : Req) (s : State) : (effSessionDestroy r s).leaves s.pending := by simp [effSessionDestroy]
@[simp] theorem placeDestroy_pending (s : State) (f : Nat) (o : Origin) (key b : Nat) : (s.placeDestroy f o key b).pending = s.pending := by simp [State.placeDestroy]

@[simp] theorem effLegDestroy_leaves (r : Req) (s : State) : (effLegDestroy r s).leaves s.pending := by
  unfold effLegDestroy
  simp only [withHandle_leaves]
  intros
  repeat' split
  all_goals simp

@[simp] theorem enableAt_leaves (s : State) (r : Req) (key : Nat) (b : Boundary) : (s.enableAt r key b).leaves s.pending := by
  unfold State.enableAt
  split <;> simp

@[simp] theorem holdAt_leaves (s : State) (r : Req) (key : Nat) (b : Boundary) : (s.holdAt r key b).leaves s.pending := by
  unfold State.holdAt
  split <;> simp

@[simp] theorem effLegEnable_leaves (r : Req) (s : State) : (effLegEnable r s).leaves s.pending := by simp [effLegEnable]
@[simp] theorem effLegHold_leaves (r : Req) (s : State) : (effLegHold r s).leaves s.pending := by simp [effLegHold]

@[simp] theorem effLegChainSet_leaves (r : Req) (s : State) : (effLegChainSet r s).leaves s.pending := by
  unfold effLegChainSet
  simp only [withHandle_leaves]
  intros
  repeat' split
  all_goals simp

@[simp] theorem effLegCodecSet_leaves (r : Req) (s : State) : (effLegCodecSet r s).leaves s.pending := by
  unfold effLegCodecSet
  simp only [withHandle_leaves]
  intros
  repeat' split
  all_goals simp

@[simp] theorem effLegToneStart_leaves (r : Req) (s : State) : (effLegToneStart r s).leaves s.pending := by
  unfold effLegToneStart
  simp only [withHandle_leaves]
  intros
  repeat' split
  all_goals simp

@[simp] theorem effLegToneStop_leaves (r : Req) (s : State) : (effLegToneStop r s).leaves s.pending := by simp [effLegToneStop]

@[simp] theorem effLegPlay_leaves (r : Req) (s : State) : (effLegPlay r s).leaves s.pending := by
  unfold effLegPlay
  simp only [withHandle_leaves]
  intros
  repeat' split
  all_goals simp

@[simp] theorem effClipLoadData_leaves (r : Req) (d : Bytes) (s : State) : (effClipLoadData r d s).leaves s.pending := by simp [effClipLoadData]
@[simp] theorem effClipLoad_leaves (r : Req) (s : State) : (effClipLoad r s).leaves s.pending := by simp [effClipLoad]
@[simp] theorem effClipFree_leaves (r : Req) (s : State) : (effClipFree r s).leaves s.pending := by simp [effClipFree]

@[simp] theorem effLegStatsGet_leaves (r : Req) (s : State) : (effLegStatsGet r s).leaves s.pending := by
  unfold effLegStatsGet
  simp only [withHandle_leaves]
  intros
  repeat' split
  all_goals simp

@[simp] theorem playOver_pending (s : State) (key : Nat) (c : Bool) : (s.playOver key c).pending = s.pending := by
  unfold State.playOver
  split <;> simp

@[simp] theorem playEvent_pending (s : State) (key : Nat) (c : Bool) (reason : Nat) : (s.playEvent key c reason).pending = s.pending := by simp [State.playEvent]

@[simp] theorem endPlay_pending (s : State) (key : Nat) (c : Bool) (reason stop : Nat) :
    (s.endPlay key c reason stop).pending = s.pending := by
  unfold State.endPlay
  split <;> simp

@[simp] theorem startPlay_pending (s : State) (key : Nat) (c : Bool) (p : Bytes) : (s.startPlay key c p).pending = s.pending := by simp [State.startPlay]
@[simp] theorem stopPlays_pending (s : State) (key reason : Nat) : (s.stopPlays key reason).pending = s.pending := by simp [State.stopPlays]

@[simp] theorem execPlayDone_has (leg : Nat) (s : State) : nextHas (execPlayDone leg s) s.pending := by
  unfold execPlayDone
  dsimp only
  repeat' split
  all_goals simp

@[simp] theorem mediaState_pending (s : State) (key code : Nat) : (s.mediaState key code).pending = s.pending := by simp [State.mediaState]

@[simp] theorem telEvent_pending (s : State) (key ev : Nat) (fin : Bool) (vol ms : Nat) :
    (s.telEvent key ev fin vol ms).pending = s.pending := by simp [State.telEvent]

@[simp] theorem telEnd_pending (s : State) (key : Nat) : (s.telEnd key).pending = s.pending := by
  unfold State.telEnd
  repeat' split
  all_goals simp

@[simp] theorem telPacket_pending (s : State) (key : Nat) (d : Bytes) : (s.telPacket key d).pending = s.pending := by
  unfold State.telPacket
  split <;> simp

@[simp] theorem legAccept_pending (s : State) (key t : Nat) (at? : Option Nat) (d : Bytes) :
    (s.legAccept key t at? d).pending = s.pending := by
  unfold State.legAccept
  split <;> simp

@[simp] theorem legMedia_pending (s : State) (key t n : Nat) (d : Bytes) : (s.legMedia key t n d).pending = s.pending := by
  unfold State.legMedia
  dsimp only
  repeat' split
  all_goals simp

@[simp] theorem takeDue_pending (s : State) (q k : Nat) : (s.takeDue q k).1.pending = s.pending := by
  unfold State.takeDue
  split
  · rfl
  next x _ =>
    extract_lets isDue due s1
    split
    · rfl
    · have hread := foldl_fst_pending (g := fun (a : State × List Rec) (_ : Rec) => ((a.1.readQueue q).1, a.2 ++ (a.1.readQueue q).2.toList))
        (fun a r => readQueue_pending ..) due (s1, [])
      refine (foldl_pending (fun u r => objCount_pending ..) ..).trans ((resumeQueue_pending ..).trans ?_)
      exact hread

@[simp] theorem playRec_pending (s : State) (key : Nat) (r : Rec) : (s.playRec key r).pending = s.pending := by
  unfold State.playRec
  split <;> simp

@[simp] theorem voiceEvent_pending (s : State) (key : Nat) (l : Leg) (on : Bool) : (s.voiceEvent key l on).pending = s.pending := by simp [State.voiceEvent]

@[simp] theorem legSource_pending (s : State) (key k : Nat) (bad : Bool) : (s.legSource key k bad).1.pending = s.pending := by
  unfold State.legSource
  split
  · rfl
  split
  · rfl
  split
  · rfl
  split
  · rfl
  next l _ _ _ _ =>
    dsimp -zeta only
    extract_lets s1
    have h1 : s1.pending = s.pending := (foldl_pending (fun u r => playRec_pending ..) ..).trans (takeDue_pending ..)
    split
    · exact h1
    · exact (updLeg_pending ..).trans h1

@[simp] theorem legVoice_pending (s : State) (key k : Nat) (x : List Int) : (s.legVoice key k x).1.pending = s.pending := by
  unfold State.legVoice
  split <;> simp

@[simp] theorem legInput_pending (s : State) (key k : Nat) (res : Nat) : (s.legInput key k res).pending = s.pending := by
  unfold State.legInput
  dsimp only
  split
  · exact legSource_pending ..
  · split
    · exact legSource_pending ..
    · exact (runSlot_pending ..).trans ((legVoice_pending ..).trans (legSource_pending ..))

@[simp] theorem hostLegDrain_pending (key n : Nat) (s : State) : (State.hostLegDrain key n s).pending = s.pending := by
  induction n generalizing s with
  | zero => rfl
  | succ n ih =>
    unfold State.hostLegDrain
    split
    · split
      · rfl
      next l o _ _ r _ =>
        extract_lets x
        split
        · exact (ih _).trans ((updLeg_pending ..).trans ((setLegShaper_pending ..).trans (readQueue_pending ..)))
        split
        · rfl
        · dsimp -zeta only
          extract_lets u
          have hread : u.pending = s.pending := (setLegShaper_pending ..).trans (readQueue_pending ..)
          refine (ih _).trans ?_
          split
          · split
            · split
              next v hv => exact (boundPut_pending hv).trans hread
              next => exact (portBump_pending ..).trans hread
            · exact hread
          · exact hread
    · rfl

@[simp] theorem legEmit_pending (s : State) (key c : Nat) (ts : Nat) (d : Bytes) (audio : Bool) :
    (s.legEmit key c ts d audio).pending = s.pending := by
  unfold State.legEmit
  split <;> simp

@[simp] theorem telEmit_pending (s : State) (key : Nat) (cfg : Bytes) (t : TelSend) (marker fin : Bool) :
    (s.telEmit key cfg t marker fin).pending = s.pending := by
  unfold State.telEmit
  split <;> simp

@[simp] theorem telStop_pending (s : State) (key : Nat) (cfg : Bytes) : (s.telStop key cfg).pending = s.pending := by
  unfold State.telStop
  repeat' split
  all_goals simp

@[simp] theorem telRun_pending (s : State) (key : Nat) (cfg : Bytes) (e : Nat × Bytes) : (s.telRun key cfg e).pending = s.pending := by
  unfold State.telRun
  repeat' split
  all_goals simp

@[simp] theorem sendTel_pending (s : State) (key first n : Nat) (cfg : Bytes) : (s.sendTel key first n cfg).pending = s.pending := by
  unfold State.sendTel
  dsimp only
  split <;> simp

@[simp] theorem packetise_pending (s : State) (key c : Nat) (x : List Int) : (s.packetise key c x).pending = s.pending := by
  unfold State.packetise
  split <;> simp

@[simp] theorem legSend_pending (s : State) (key c : Nat) (x : List Int) : (s.legSend key c x).pending = s.pending := by
  unfold State.legSend
  split <;> simp

@[simp] theorem legGap_pending (s : State) (key c : Nat) : (s.legGap key c).pending = s.pending := by
  unfold State.legGap
  split <;> simp

@[simp] theorem legOutput_pending (s : State) (key c : Nat) (bad : Bool) : (s.legOutput key c bad).pending = s.pending := by
  unfold State.legOutput
  dsimp only
  repeat' split
  all_goals simp

@[simp] theorem legChain_pending (s : State) (key k res : Nat) : (s.legChain key k res).pending = s.pending := by
  unfold State.legChain
  dsimp only
  split <;> simp

@[simp] theorem chainItem_pending (s : State) (key block : Nat) : (s.chainItem key block).pending = s.pending := by
  unfold State.chainItem
  split <;> simp

@[simp] theorem execVadHangExpiry_has (leg : Nat) (s : State) : nextHas (execVadHangExpiry leg s) s.pending := by
  unfold execVadHangExpiry
  dsimp only
  repeat' split
  all_goals simp

@[simp] theorem execConcealmentEnd_has (leg : Nat) (s : State) : nextHas (execConcealmentEnd leg s) s.pending := by
  unfold execConcealmentEnd
  dsimp only
  repeat' split
  all_goals simp

@[simp] theorem legTimeout_pending (s : State) (key : Nat) : (s.legTimeout key).pending = s.pending := by
  unfold State.legTimeout
  split <;> simp

@[simp] theorem emptyQueue_pending (s : State) (q : Nat) : (s.emptyQueue q).pending = s.pending := by
  unfold State.emptyQueue
  split <;> simp

@[simp] theorem legUnanchor_pending (s : State) (key : Nat) : (s.legUnanchor key).pending = s.pending := by
  unfold State.legUnanchor
  split <;> simp

@[simp] theorem legFlow_pending (s : State) (key : Nat) (on : Bool) : (s.legFlow key on).pending = s.pending := by
  unfold State.legFlow
  dsimp only
  repeat' split
  all_goals simp

@[simp] theorem applyCodec_pending (s : State) (key : Nat) (p : Bytes) : (s.applyCodec key p).pending = s.pending := by
  unfold State.applyCodec
  dsimp only
  repeat' split
  all_goals simp

@[simp] theorem legFree_pending (s : State) (key : Nat) : (s.legFree key).pending = s.pending := by
  unfold State.legFree
  dsimp only
  split <;> simp

/-! ### Wire.lean -/

@[simp] theorem sendUdp_pending (s : State) (r : Route) (p : Bytes) : (s.sendUdp r p).pending = s.pending := by
  unfold State.sendUdp
  split <;> simp

/-! ### Video.lean -/

@[simp] theorem updVleg_pending (s : State) (key : Nat) (f : VLeg → VLeg) : (s.updVleg key f).pending = s.pending := rfl
@[simp] theorem updComp_pending (s : State) (key : Nat) (f : Comp → Comp) : (s.updComp key f).pending = s.pending := rfl
@[simp] theorem updEnc_pending (s : State) (key : Nat) (f : Encoding → Encoding) : (s.updEnc key f).pending = s.pending := rfl
@[simp] theorem updDec_pending (s : State) (key : Nat) (f : Decode → Decode) : (s.updDec key f).pending = s.pending := rfl
@[simp] theorem updStream_pending (s : State) (key n : Nat) (f : Stream → Stream) : (s.updStream key n f).pending = s.pending := by simp [State.updStream]

@[simp] theorem sendRtcp_pending (s : State) (key : Nat) (d : Bytes) : (s.sendRtcp key d).pending = s.pending := by
  unfold State.sendRtcp
  split
  · rfl
  next l _ =>
    dsimp only
    split
    · rfl
    split
    · exact sendUdp_pending ..
    · have hprot := protectRtcp_pending s (u32 l.cfg 12 % 2 ^ 20) d
      split
      next t c he => rw [he] at hprot; exact (sendUdp_pending ..).trans hprot
      next t he => rw [he] at hprot; exact hprot

@[simp] theorem sendRequest_pending (s : State) (key : Nat) (q : KeyReq) : (s.sendRequest key q).pending = s.pending := by
  unfold State.sendRequest
  split <;> simp

@[simp] theorem request_pending (s : State) (key : Nat) (q : KeyReq) : (s.request key q).pending = s.pending := by
  unfold State.request
  split <;> simp

@[simp] theorem policyRequest_pending (s : State) (key : Nat) (fir : Bool) : (s.policyRequest key fir).pending = s.pending := by
  unfold State.policyRequest
  split <;> simp

@[simp] theorem repeatRequest_pending (s : State) (key : Nat) : (s.repeatRequest key).pending = s.pending := by
  unfold State.repeatRequest
  split <;> simp

@[simp] theorem episode_pending (s : State) (key : Nat) : (s.episode key).pending = s.pending := by
  unfold State.episode
  split <;> simp

@[simp] theorem runDeferred_pending (key n : Nat) (s : State) : (State.runDeferred key n s).pending = s.pending := by
  induction n generalizing s with
  | zero => rfl
  | succ n ih =>
    unfold State.runDeferred
    split
    · rfl
    split
    · rfl
    · simp [ih]

@[simp] theorem execKeyFrameRequestDeferred_has (leg : Nat) (s : State) : nextHas (execKeyFrameRequestDeferred leg s) s.pending := by
  unfold execKeyFrameRequestDeferred
  dsimp only
  repeat' split
  all_goals simp

@[simp] theorem execFirEscalation_has (leg : Nat) (s : State) : nextHas (execFirEscalation leg s) s.pending := by
  unfold execFirEscalation
  dsimp only
  repeat' split
  all_goals simp

@[simp] theorem effKeyFrameRequest_leaves (r : Req) (s : State) : (effKeyFrameRequest r s).leaves s.pending := by
  unfold effKeyFrameRequest
  simp only [withHandle_leaves]
  intros
  repeat' split
  all_goals simp

@[simp] theorem effVideoLegCreate_leaves (r : Req) (s : State) : (effVideoLegCreate r s).leaves s.pending := by simp [effVideoLegCreate]
@[simp] theorem effVideoLegDestroy_leaves (r : Req) (s : State) : (effVideoLegDestroy r s).leaves s.pending := by simp [effVideoLegDestroy]
@[simp] theorem effVideoLegEnable_leaves (r : Req) (s : State) : (effVideoLegEnable r s).leaves s.pending := by simp [effVideoLegEnable]
@[simp] theorem effVideoLegHold_leaves (r : Req) (s : State) : (effVideoLegHold r s).leaves s.pending := by simp [effVideoLegHold]

@[simp] theorem effVideoLegStatsGet_leaves (r : Req) (s : State) : (effVideoLegStatsGet r s).leaves s.pending := by
  unfold effVideoLegStatsGet
  simp only [withHandle_leaves]
  intros
  repeat' split
  all_goals simp

/-! ### Agate.lean -/

@[simp] theorem decodeError_pending (s : State) (key cause ts : Nat) : (s.decodeError key cause ts).pending = s.pending := by simp [State.decodeError]
@[simp] theorem refMissing_pending (s : State) (key sub dep ts : Nat) : (s.refMissing key sub dep ts).pending = s.pending := by simp [State.refMissing]
@[simp] theorem decodeRecovered_pending (s : State) (key n ts : Nat) : (s.decodeRecovered key n ts).pending = s.pending := by simp [State.decodeRecovered]

@[simp] theorem limitedError_pending (s : State) (key cause ts : Nat) : (s.limitedError key cause ts).pending = s.pending := by
  unfold State.limitedError
  split <;> simp

@[simp] theorem damage_pending (s : State) (key cause ts : Nat) : (s.damage key cause ts).pending = s.pending := by
  unfold State.damage
  split <;> simp

@[simp] theorem loseSlice_pending (s : State) (key cause ts : Nat) : (s.loseSlice key cause ts).pending = s.pending := by simp [State.loseSlice]
@[simp] theorem badParams_pending (s : State) (key cause ts : Nat) : (s.badParams key cause ts).pending = s.pending := by simp [State.badParams]

@[simp] theorem decodeItem_pending (s : State) (key stage p n : Nat) (data : Bytes) :
    (s.decodeItem key stage p n data).pending = s.pending := by
  unfold State.decodeItem
  split <;> simp

@[simp] theorem updLast_pending (s : State) (key : Nat) (f : DecPic → DecPic) : (s.updLast key f).pending = s.pending := by simp [State.updLast]
@[simp] theorem updPic_pending (s : State) (key p : Nat) (f : DecPic → DecPic) : (s.updPic key p f).pending = s.pending := by simp [State.updPic]

@[simp] theorem putSlice_pending (s : State) (key : Nat) (x : Slice) (ts : Nat) : (s.putSlice key x ts).pending = s.pending := by
  unfold State.putSlice
  repeat' split
  all_goals simp

@[simp] theorem openPicture_pending (s : State) (key ts : Nat) (u : NalUnit) : (s.openPicture key ts u).pending = s.pending := rfl

@[simp] theorem reachTarget_pending (s : State) (key : Nat) (u : NalUnit) : (s.reachTarget key u).pending = s.pending := by
  unfold State.reachTarget
  dsimp only
  split <;> simp

@[simp] theorem outputPicture_pending (s : State) (key : Nat) (p : Picture) (u : Option NalUnit) (ref : Bool) :
    (s.outputPicture key p u ref).pending = s.pending := by
  unfold State.outputPicture
  repeat' split
  all_goals simp

@[simp] theorem missRefs_pending (s : State) (key p : Nat) (names : List Int) : (s.missRefs key p names).pending = s.pending := by
  unfold State.missRefs
  repeat' split
  all_goals simp

@[simp] theorem placePicture_pending (s : State) (key p : Nat) : (s.placePicture key p).pending = s.pending := by
  unfold State.placePicture
  repeat' split
  all_goals simp

@[simp] theorem finishPicture_pending (s : State) (key : Nat) (p : DecPic) : (s.finishPicture key p).pending = s.pending := by
  unfold State.finishPicture
  extract_lets placed
  have hplaced : placed.pending = s.pending := placePicture_pending ..
  split
  · exact hplaced
  next d p' _ =>
    extract_lets q whole prev u q' s1 s2 ref s3
    have h1 : s1.pending = placed.pending := updDec_pending ..
    have h2 : s2.pending = s1.pending := by
      unfold s2
      split
      · exact (decodeRecovered_pending ..).trans (updDec_pending ..)
      · rfl
    have h3 : s3.pending = s2.pending := by
      unfold s3
      split
      · exact updDec_pending ..
      · rfl
    exact (updDec_pending ..).trans ((outputPicture_pending ..).trans (h3.trans (h2.trans (h1.trans hplaced))))

@[simp] theorem finishPictures_pending (key n : Nat) (s : State) : (State.finishPictures key n s).pending = s.pending := by
  induction n generalizing s with
  | zero => rfl
  | succ n ih =>
    unfold State.finishPictures
    split
    · rfl
    · simp [ih]

@[simp] theorem freeSyntax_pending (s : State) (key p n : Nat) : (s.freeSyntax key p n).pending = s.pending := rfl
@[simp] theorem dropSlice_pending (s : State) (key p n : Nat) : (s.dropSlice key p n).pending = s.pending := rfl

@[simp] theorem agateWrote_pending (s : State) (i : Item) : (s.agateWrote i).pending = s.pending := by
  unfold State.agateWrote
  repeat' split
  all_goals simp

@[simp] theorem agateEnd_pending (s : State) (key p n st res : Nat) : (s.agateEnd key p n st res).pending = s.pending := by
  unfold State.agateEnd
  repeat' split
  all_goals simp

@[simp] theorem sliceDone_pending (s : State) (key p n layer : Nat) (syn : Bytes) (f : DecPic → DecPic) :
    (s.sliceDone key p n layer syn f).pending = s.pending := rfl

@[simp] theorem jasperEnd_pending (s : State) (key p n st res : Nat) (syn : Bytes) :
    (s.jasperEnd key p n st res syn).pending = s.pending := by
  unfold State.jasperEnd
  dsimp only
  repeat' split
  all_goals simp

@[simp] theorem wholeSlice_pending (s : State) (key : Nat) (x : Slice) : (s.wholeSlice key x).pending = s.pending := by
  unfold State.wholeSlice
  split <;> simp

@[simp] theorem loseOpen_pending (s : State) (key : Nat) (rest : Bool) : (s.loseOpen key rest).pending = s.pending := by
  unfold State.loseOpen
  split <;> simp

@[simp] theorem endSlice_pending (s : State) (key : Nat) : (s.endSlice key).pending = s.pending := by
  unfold State.endSlice
  split <;> simp

@[simp] theorem missed_pending (s : State) (key k : Nat) : (s.missed key k).pending = s.pending := by
  unfold State.missed
  repeat' split
  all_goals simp

@[simp] theorem closePicture_pending (s : State) (key : Nat) : (s.closePicture key).pending = s.pending := by
  unfold State.closePicture
  extract_lets s0
  have h0 : s0.pending = s.pending := endSlice_pending ..
  split
  · exact h0
  next d _ =>
    extract_lets ts s1 here lost s2 rap s3
    have h1 : s1.pending = s0.pending := by
      unfold s1
      split
      · exact (updDec_pending ..).trans ((updLast_pending ..).trans ((foldl_pending (fun u x => putSlice_pending ..) ..).trans (by simp)))
      · rfl
    have h2 : s2.pending = s0.pending := by
      unfold s2
      generalize here = q
      cases q <;> simp
    split
    · exact (updDec_pending ..).trans (h1.trans h0)
    · exact (finishPictures_pending ..).trans ((updDec_pending ..).trans (h2.trans h0))

@[simp] theorem beginPicture_pending (s : State) (key ts t : Nat) : (s.beginPicture key ts t).pending = s.pending := by
  unfold State.beginPicture
  dsimp only
  repeat' split
  all_goals simp

@[simp] theorem feedSet_pending (s : State) (key : Nat) (u : NalUnit) (q : StreamParams) : (s.feedSet key u q).pending = s.pending := by
  unfold State.feedSet
  split <;> simp

@[simp] theorem feedPicSet_pending (s : State) (key : Nat) (u : NalUnit) (q : PicParams) : (s.feedPicSet key u q).pending = s.pending := by
  unfold State.feedPicSet
  split <;> simp

@[simp] theorem enterPicture_pending (s : State) (key : Nat) (u : NalUnit) : (s.enterPicture key u).pending = s.pending := by
  unfold State.enterPicture
  split <;> simp

@[simp] theorem feedSlice_pending (s : State) (key t : Nat) (u : NalUnit) (b : Bytes) : (s.feedSlice key t u b).pending = s.pending := by
  unfold State.feedSlice
  dsimp only
  repeat' split
  all_goals simp

@[simp] theorem feedUnit_pending (s : State) (key t : Nat) (u : NalUnit) (b : Bytes) : (s.feedUnit key t u b).pending = s.pending := by
  unfold State.feedUnit
  dsimp only
  repeat' split
  all_goals simp

@[simp] theorem feedPacket_pending (s : State) (key ts t : Nat) (marker gap : Bool) (b : Bytes) :
    (s.feedPacket key ts t marker gap b).pending = s.pending := by
  unfold State.feedPacket
  dsimp only
  split <;> simp

@[simp] theorem feedReady_pending (key n : Nat) (gap : Bool) (s : State) : (State.feedReady key n gap s).pending = s.pending := by
  induction n generalizing gap s with
  | zero => rfl
  | succ n ih =>
    unfold State.feedReady
    split
    · rfl
    · dsimp only
      split
      · rw [ih]
        simp
      · split
        · rw [ih]
          simp
        · rfl

@[simp] theorem decodeFeed_pending (s : State) (key seq ts t : Nat) (marker : Bool) (b : Bytes) :
    (s.decodeFeed key seq ts t marker b).pending = s.pending := by
  unfold State.decodeFeed
  split <;> simp

@[simp] theorem execDecodeStartTimeout_has (leg : Nat) (s : State) : nextHas (execDecodeStartTimeout leg s) s.pending := by
  unfold execDecodeStartTimeout
  dsimp only
  repeat' split
  all_goals simp

@[simp] theorem effDecodeSet_leaves (r : Req) (s : State) : (effDecodeSet r s).leaves s.pending := by
  unfold effDecodeSet
  simp only [withHandle_leaves]
  intros
  repeat' split
  all_goals simp

@[simp] theorem effDecodeClear_leaves (r : Req) (s : State) : (effDecodeClear r s).leaves s.pending := by
  unfold effDecodeClear
  simp only [withHandle_leaves]
  intros
  repeat' split
  all_goals simp

@[simp] theorem effDecodeStatsGet_leaves (r : Req) (s : State) : (effDecodeStatsGet r s).leaves s.pending := by
  unfold effDecodeStatsGet
  simp only [withHandle_leaves]
  intros
  repeat' split
  all_goals simp

@[simp] theorem applyDecode_pending (s : State) (key : Nat) (p : Bytes) : (s.applyDecode key p).pending = s.pending := by
  unfold State.applyDecode
  repeat' split
  all_goals simp

@[simp] theorem clearDecode_pending (s : State) (key : Nat) : (s.clearDecode key).pending = s.pending := rfl

/-! ### Crc.lean -/

@[simp] theorem crcOwned_pending (s : State) (fn u : Nat) (f : CrcUnit → CrcUnit) : (s.crcOwned fn u f).pending = s.pending := by simp [State.crcOwned]

theorem crcEvent_has {s t : State} (h : t.pending = s.pending) (fn u : Nat) : nextHas (crcEvent fn u t) s.pending := by
  unfold crcEvent
  split <;> simp [h]

@[simp] theorem crcClaim_pending (s : State) (fn u : Nat) : (s.crcClaim fn u).pending = s.pending := by
  unfold State.crcClaim
  split <;> simp

@[simp] theorem execCrcClaim_has (fn u : Nat) (s : State) : nextHas (execCrcClaim fn u s) s.pending := crcEvent_has (crcClaim_pending ..) _ _
@[simp] theorem crcRelease_pending (s : State) (fn u : Nat) : (s.crcRelease fn u).pending = s.pending := by simp [State.crcRelease]
@[simp] theorem execCrcRelease_has (fn u : Nat) (s : State) : nextHas (execCrcRelease fn u s) s.pending := crcEvent_has (crcRelease_pending ..) _ _
@[simp] theorem crcReleaseAll_pending (s : State) (owner : Nat) : (s.crcReleaseAll owner).pending = s.pending := by simp [State.crcReleaseAll]
@[simp] theorem execCrcStart_has (fn u : Nat) (s : State) : nextHas (execCrcStart fn u s) s.pending := crcEvent_has (crcOwned_pending ..) _ _
@[simp] theorem execCrcData_has (fn u : Nat) (data : Bytes) (s : State) : nextHas (execCrcData fn u data s) s.pending := crcEvent_has (crcOwned_pending ..) _ _
@[simp] theorem execCrcDmaGo_has (fn u : Nat) (s : State) : nextHas (execCrcDmaGo fn u s) s.pending := crcEvent_has (crcOwned_pending ..) _ _

@[simp] theorem crcDmaEnd_pending (s : State) (u : Nat) (res : DmaResult) : (s.crcDmaEnd u res).pending = s.pending := by
  unfold State.crcDmaEnd
  dsimp only
  repeat' split
  all_goals simp

@[simp] theorem execCrcDmaDone_has (u : Nat) (res : DmaResult) (s : State) : nextHas (execCrcDmaDone u res s) s.pending := by
  unfold execCrcDmaDone
  split <;> simp

/-! ### Chain.lean -/

theorem chainFrame_pending {act : State → Bytes → State × Bytes × Nat} (h : ∀ s b, (act s b).1.pending = s.pending) (s : State) (cmd : Nat)
    (bcast : Bool) (lenOk : Nat → Bool) (f : Bytes) : (s.chainFrame cmd bcast lenOk f act).pending = s.pending := by
  unfold State.chainFrame
  extract_lets n a answer
  have hans (t : State) (d : Bytes) (st : Nat) : (answer t d st).pending = t.pending := by simp [answer]
  split
  · rfl
  split
  · rfl
  split
  · exact hans ..
  split
  · exact hans ..
  · exact (hans ..).trans (h ..)

@[simp] theorem execEnumerate_has (frame : Bytes) (s : State) : nextHas (execEnumerate frame s) s.pending := by
  unfold execEnumerate
  refine (next_has ..).2 (chainFrame_pending (fun u b => ?_) ..)
  dsimp only
  split <;> rfl

@[simp] theorem execWindowWrite_has (frame : Bytes) (s : State) : nextHas (execWindowWrite frame s) s.pending := by
  unfold execWindowWrite
  refine (next_has ..).2 (chainFrame_pending (fun u b => ?_) ..)
  split <;> rfl

@[simp] theorem execWindowRead_has (frame : Bytes) (s : State) : nextHas (execWindowRead frame s) s.pending := (next_has ..).2 (chainFrame_pending (fun _ _ => rfl) ..)
@[simp] theorem windowAck_pending (s : State) : s.windowAck.pending = s.pending := by simp [State.windowAck]

@[simp] theorem execDoorbellAck_has (frame : Bytes) (s : State) : nextHas (execDoorbellAck frame s) s.pending := by
  unfold execDoorbellAck
  split
  · refine (next_has ..).2 (chainFrame_pending (fun u b => ?_) ..)
    split
    · exact windowAck_pending ..
    · rfl
  split
  · exact (next_has ..).2 rfl
  · exact (next_has ..).2 (chainFrame_pending (fun _ _ => rfl) ..)

@[simp] theorem execPoll_has (frame : Bytes) (s : State) : nextHas (execPoll frame s) s.pending := (next_has ..).2 (chainFrame_pending (fun _ _ => rfl) ..)
@[simp] theorem execStatusRead_has (frame : Bytes) (s : State) : nextHas (execStatusRead frame s) s.pending := (next_has ..).2 (chainFrame_pending (fun _ _ => rfl) ..)

/-! ### Cascade.lean -/

@[simp] theorem updBlp_pending (s : State) (l : Nat) (f : BlpLink → BlpLink) : (s.updBlp l f).pending = s.pending := rfl
@[simp] theorem blpDiscard_pending (s : State) (l : Nat) : (s.blpDiscard l).pending = s.pending := rfl

@[simp] theorem sendTo_pending (s : State) (a cls kind block : Nat) (p : Bytes) : (s.sendTo a cls kind block p).pending = s.pending := by
  unfold State.sendTo
  split <;> simp

@[simp] theorem tell_pending (s : State) (a : Nat) (c : Control) : (s.tell a c).pending = s.pending := by simp [State.tell]
@[simp] theorem hear_pending (s : State) (src : Nat) : (s.hear src).pending = s.pending := by simp [State.hear]

@[simp] theorem openLink_pending (s : State) (l : Nat) (d : Bytes) : (s.openLink l d).1.pending = s.pending := by
  unfold State.openLink
  dsimp only
  repeat' split
  all_goals simp

theorem blpRoute_pending {k : State → Nat → Nat → Bytes → State} (h : ∀ s a b p, (k s a b p).pending = s.pending) (s : State) (l kind : Nat)
    (d p : Bytes) : (s.blpRoute l kind d p k).pending = s.pending := by
  unfold State.blpRoute
  dsimp only
  split
  · exact h ..
  split
  · rfl
  split
  · rfl
  · simp

theorem blpIn_pending {k : State → Nat → Nat → Bytes → State} (h : ∀ s a b p, (k s a b p).pending = s.pending) (s : State) (l kind : Nat)
    (d : Bytes) : (s.blpIn l kind d k).pending = s.pending := by
  unfold State.blpIn
  dsimp only
  split
  · rfl
  split
  · rfl
  split
  · exact queueLink_pending ..
  next c _ =>
    have hopen := openLink_pending (((s.linkThrough l false (u8 d 2 % 8) (linkSize false d)).passOnyx 1 (linkDesc l 0 (u8 d 2 % 8))).linkShares
      c l 0) l d
    split
    next t p he => rw [he] at hopen; exact (blpRoute_pending h ..).trans (by simpa using hopen)
    next t he => rw [he] at hopen; simpa using hopen

@[simp] theorem linkState_pending (s : State) (l : Nat) (up : Bool) (peer : Nat) : (s.linkState l up peer).pending = s.pending := by simp [State.linkState]
@[simp] theorem casState_pending (s : State) (st : Nat) : (s.casState st).pending = s.pending := by simp [State.casState]

theorem answer_pending {g : State → Req → Eff} (h : ∀ s r, (g s r).leaves s.pending) (s : State) (f : Nat) :
    (s.answer f g).pending = s.pending := by
  unfold State.answer
  split
  · split
    · exact finish_pending (h ..) ..
    · rfl
  · rfl

@[simp] theorem beginForming_pending (s : State) (mbx : Nat) (f : Forming) : (s.beginForming mbx f).pending = s.pending := by simp [State.beginForming]
@[simp] theorem endForming_pending (s : State) : s.endForming.pending = s.pending := by simp [State.endForming]

@[simp] theorem failForming_pending (s : State) (st : Status) (p : Bytes) : (s.failForming st p).pending = s.pending := by
  unfold State.failForming
  split
  · rfl
  · exact (answer_pending (fun t r => fail_leaves ..) ..).trans ((endForming_pending ..).trans (foldl_pending (fun u a => tell_pending ..) ..))

@[simp] theorem formCheck_pending (s : State) : s.formCheck.pending = s.pending := by
  unfold State.formCheck
  dsimp only
  repeat' split
  all_goals simp

@[simp] theorem effCascadeJoin_leaves (r : Req) (s : State) : (effCascadeJoin r s).leaves s.pending := by simp [effCascadeJoin]
@[simp] theorem effCascadeForm_leaves (r : Req) (s : State) : (effCascadeForm r s).leaves s.pending := by simp [effCascadeForm]

@[simp] theorem execFormationTimeout_has (s : State) : nextHas (execFormationTimeout s) s.pending := by
  unfold execFormationTimeout
  split
  · split
    · exact (next_has ..).2 (failForming_pending ..)
    · exact (next_has ..).2 rfl
  · split
    · exact (next_has ..).2 (answer_pending (fun t r => fail_leaves ..) ..)
    · exact (next_has ..).2 rfl
  · exact (next_has ..).2 rfl

@[simp] theorem execLinkLock_has (link : Nat) (s : State) : nextHas (execLinkLock link s) s.pending := by
  unfold execLinkLock
  repeat' split
  all_goals simp

@[simp] theorem takeHello_pending (link : Nat) (s : State) (src a : Nat) (p : Bytes) : (s.takeHello link src a p).pending = s.pending := by simp [State.takeHello]

@[simp] theorem execHello_has (link : Nat) (data : Bytes) (s : State) : nextHas (execHello link data s) s.pending := by
  unfold execHello
  split
  · exact fault_has _ _
  · exact (next_has ..).2 (blpIn_pending (fun u a b p => by simp) ..)

@[simp] theorem trunkUndo_pending (s : State) (id : Nat) : (s.trunkUndo id).pending = s.pending := by simp [State.trunkUndo]

@[simp] theorem failTrunk_pending (s : State) (id : Nat) (st : Status) (p : Bytes) : (s.failTrunk id st p).pending = s.pending := by
  unfold State.failTrunk
  split
  · rfl
  split_ifs
  · rfl
  · exact (answer_pending (fun t r => fail_leaves ..) ..).trans ((State.updCas_pending ..).trans ((trunkUndo_pending ..).trans
      (foldl_pending (fun u a => tell_pending ..) ..)))

@[simp] theorem dropLink_pending (s : State) (l : Nat) : (s.dropLink l).pending = s.pending := by
  simp [State.dropLink]

@[simp] theorem linkDown_pending (s : State) (l : Nat) : (s.linkDown l).pending = s.pending := by
  unfold State.linkDown
  dsimp only
  split <;> simp

@[simp] theorem execLinkSilenceTimeout_has (link : Nat) (s : State) : nextHas (execLinkSilenceTimeout link s) s.pending := by
  unfold execLinkSilenceTimeout
  repeat' split
  all_goals simp

@[simp] theorem takeHeartbeat_pending (link : Nat) (s : State) (a b : Nat) (p : Bytes) :
    (s.takeHeartbeat link a b p).pending = s.pending := by
  unfold State.takeHeartbeat
  split
  · rfl
  · extract_lets s1 s2 s3
    have h2 : s2.pending = s.pending := by
      unfold s2
      split
      · exact casState_pending ..
      · rfl
    split
    · exact h2
    · exact (foldl_pending (fun u l => blpSend_pending ..) ..).trans h2

@[simp] theorem execHeartbeat_has (link : Nat) (data : Bytes) (s : State) : nextHas (execHeartbeat link data s) s.pending := by
  unfold execHeartbeat
  split
  · exact fault_has _ _
  · exact (next_has ..).2 (blpIn_pending (fun u a b p => by simp) ..)

@[simp] theorem execMasterLost_has (peer : Nat) (s : State) : nextHas (execMasterLost peer s) s.pending := by
  unfold execMasterLost
  dsimp only
  repeat' split
  all_goals simp

theorem trunkEnd_pending {s : State} {id dirs flags cls session far : Nat} {isA : Bool} {x : State × Nat × Nat}
    (h : s.trunkEnd id isA dirs flags cls session far = .ok x) : x.1.pending = s.pending := by
  unfold State.trunkEnd at h
  split at h
  · contradiction
  extract_lets sends recvs at h
  split at h
  · contradiction
  split at h
  · contradiction
  split at h
  · dsimp only at h
    split at h
    · contradiction
    · contradiction
    · obtain rfl := Except.ok.inj h
      simp
  · contradiction

@[simp] theorem trunkJoin_pending (s : State) (key : Nat) : (s.trunkJoin key).pending = s.pending := by
  unfold State.trunkJoin
  split <;> simp

@[simp] theorem trunkCommit_pending (s : State) (id b : Nat) (charges : List (Nat × Nat)) :
    (s.trunkCommit id b charges).pending = s.pending := by
  unfold State.trunkCommit
  exact foldl_pending (fun s a => by simp) ..

@[simp] theorem trunkDrop_pending (s : State) (id b : Nat) : (s.trunkDrop id b).pending = s.pending := by
  unfold State.trunkDrop
  dsimp only
  simp

@[simp] theorem trunkCheck_pending (s : State) (id : Nat) : (s.trunkCheck id).pending = s.pending := by
  unfold State.trunkCheck
  split
  · rfl
  split
  · rfl
  split
  · exact failTrunk_pending ..
  · dsimp -zeta only
    extract_lets b mine s1 s2
    have h1 : s1.pending = s.pending := foldl_pending (fun u a => by simp) ..
    exact (addSched_pending ..).trans ((trunkCommit_pending ..).trans h1)

@[simp] theorem trunkAnswer_pending (s : State) (id a st : Nat) (p : Bytes) (handle m : Nat) :
    (s.trunkAnswer id a st p handle m).pending = s.pending := by
  unfold State.trunkAnswer
  split <;> simp

@[simp] theorem trunkUp_pending (s : State) (id : Nat) : (s.trunkUp id).pending = s.pending := by
  unfold State.trunkUp
  split
  · rfl
  · exact answer_pending (fun t r => (done_leaves ..).2 rfl) ..

@[simp] theorem asMaster_leaves {k : Eff} {q : List Instr} (hk : k.leaves q) (s : State) : (s.asMaster k).leaves q := by
  unfold State.asMaster
  split
  · exact hk
  · exact fail_leaves ..
  · exact fail_leaves ..

@[simp] theorem askEnd_pending (s : State) (id a : Nat) (isA : Bool) (dirs flags cls session far : Nat) :
    (s.askEnd id a isA dirs flags cls session far).pending = s.pending := by
  unfold State.askEnd
  split
  · split
    · exact trunkAnswer_pending ..
    next t h m he => exact (trunkAnswer_pending ..).trans (trunkEnd_pending he)
  · exact tell_pending ..

@[simp] theorem effTrunkCreate_leaves (r : Req) (s : State) : (effTrunkCreate r s).leaves s.pending := by
  unfold effTrunkCreate
  simp only [nullTarget_leaves]
  intros
  repeat' split
  all_goals simp

@[simp] theorem execTrunkCreate_has (r : Req) (s : State) : nextHas (execTrunkCreate r s) s.pending := by
  unfold execTrunkCreate
  extract_lets p s1
  have h1 : s1.pending = s.pending := command_pending (effTrunkCreate_leaves r) ..
  split
  · split
    · exact (next_has ..).2 ((askEnd_pending ..).trans ((askEnd_pending ..).trans h1))
    · exact (next_has ..).2 h1
  · exact (next_has ..).2 h1

@[simp] theorem effTrunkDestroy_leaves (r : Req) (s : State) : (effTrunkDestroy r s).leaves s.pending := by
  unfold effTrunkDestroy
  simp only [nullTarget_leaves]
  intros
  repeat' split
  all_goals simp

@[simp] theorem trunkState_pending (s : State) (i : Nat) (st : Nat) : (s.trunkState i st).pending = s.pending := by
  unfold State.trunkState
  split <;> simp

@[simp] theorem trunkEntry_pending (s : State) (link k : Nat) (p : Bytes) : (s.trunkEntry link k p).pending = s.pending := by
  unfold State.trunkEntry
  split <;> simp

@[simp] theorem takeTrunk_pending (link : Nat) (s : State) (a k : Nat) (p : Bytes) : (s.takeTrunk link a k p).pending = s.pending := by
  unfold State.takeTrunk
  exact foldl_pending (fun s a => by simp) ..

@[simp] theorem execTrunk_has (link : Nat) (data : Bytes) (s : State) : nextHas (execTrunk link data s) s.pending := by
  unfold execTrunk
  split
  · exact fault_has _ _
  · exact (next_has ..).2 (blpIn_pending (fun u a b p => by simp) ..)

@[simp] theorem execTrunkArrivalDeadline_has (trunk : Nat) (s : State) : nextHas (execTrunkArrivalDeadline trunk s) s.pending := by
  unfold execTrunkArrivalDeadline
  split <;> simp

@[simp] theorem trunkSend_pending (s : State) : s.trunkSend.pending = s.pending := by
  unfold State.trunkSend
  extract_lets c n entry
  refine foldl_pending (fun u far => foldl_pending (fun v prot => ?_) ..) ..
  extract_lets es
  split
  · rfl
  split
  · rfl
  · exact foldl_pending (fun w k => blpSend_pending ..) ..

@[simp] theorem control_pending (s : State) (src : Nat) (c : Control) : (s.control src c).pending = s.pending := by
  unfold State.control
  cases c with
  | form trio topo addrs reserves =>
    dsimp only
    split
    · simp
    · rfl
  | ready q t =>
    dsimp only
    split
    · exact formCheck_pending ..
    · rfl
  | noRoom n v =>
    dsimp only
    split
    · exact formCheck_pending ..
    · rfl
  | wrongWiring p l a x => exact failForming_pending ..
  | commit b =>
    dsimp only
    split
    · split
      · exact (State.updCas_pending ..).trans (foldl_pending (fun u i => trunkDrop_pending ..) ..)
      · rfl
    · rfl
  | abandon => simp
  | room q t => rfl
  | trunkAsk id isA dirs flags cls session far =>
    dsimp only
    split
    · exact tell_pending ..
    next t h m he => exact (tell_pending ..).trans (trunkEnd_pending he)
  | trunkYes id h m => exact trunkAnswer_pending ..
  | trunkNo id st p => simp
  | trunkCommit id b ch => simp
  | trunkAbandon id => exact trunkUndo_pending ..
  | trunkDrop id b => exact trunkDrop_pending ..
  | trio => rfl
  | trioLeft => rfl
  | trioTurn => rfl
  | trioRevert => rfl

@[simp] theorem effSessionPlace_leaves (r : Req) (s : State) : (effSessionPlace r s).leaves s.pending := by
  unfold effSessionPlace
  simp only [nullTarget_leaves]
  intros
  repeat' split
  all_goals simp

@[simp] theorem effSessionUnplace_leaves (r : Req) (s : State) : (effSessionUnplace r s).leaves s.pending := by simp [effSessionUnplace]
@[simp] theorem effCascadeStatusGet_leaves (r : Req) (s : State) : (effCascadeStatusGet r s).leaves s.pending := by simp [effCascadeStatusGet]
@[simp] theorem effDirectoryGet_leaves (r : Req) (s : State) : (effDirectoryGet r s).leaves s.pending := by simp [effDirectoryGet]

@[simp] theorem effCascadeLeave_leaves (r : Req) (s : State) : (effCascadeLeave r s).leaves s.pending := by
  unfold effCascadeLeave
  simp only [nullTarget_leaves, need_leaves]
  intro _ _
  split
  · rfl
  next b _ =>
    have hdrop (l : List Nat) (u : State) : (l.foldl (fun s i => s.trunkDrop i b) u).pending = u.pending :=
      foldl_pending (fun u i => trunkDrop_pending ..) ..
    have hdie (l : List Nat) (n : Nat) (u : State) : (l.foldl (fun s k => (s.dying k).addSched (.block n) noOrigin (.free k)) u).pending = u.pending :=
      foldl_pending (fun u k => by simp) ..
    simp [hdrop, hdie]

@[simp] theorem commitForming_pending (s : State) (f : Forming) : (s.commitForming f).pending = s.pending := by
  unfold State.commitForming
  extract_lets p mine old s1 s2 s3 s4 trio s5 s6
  have h1 : s1.pending = s.pending := foldl_pending (g := fun s k => (s.bumpGen k).dropObj k) (fun u k => rfl) ..
  have h2 : s2.pending = s1.pending := by simp [s2]
  have h3 : s3.pending = s2.pending := by simp [s3]
  have h5 : s5.pending = s3.pending := foldl_pending (fun u i => addObj_pending ..) ..
  have h6 : s6.pending = s3.pending := by
    unfold s6
    split
    · exact (toMode_pending ..).trans (addObj_pending s3 (okey 0x0B 0) s3.cascade.mbx true 0 [])
    · exact (casState_pending ..).trans ((toMode_pending ..).trans h5)
  have hall : s6.pending = s.pending := h6.trans (h3.trans (h2.trans h1))
  split
  · exact (answer_pending (fun t r => (done_leaves ..).2 rfl) ..).trans hall
  · exact hall

@[simp] theorem cascadeBlock_pending (s : State) : s.cascadeBlock.pending = s.pending := by
  unfold State.cascadeBlock
  dsimp only
  split <;> simp

/-! ### Forward.lean -/

@[simp] theorem forwardState_pending (s : State) (key st : Nat) : (s.forwardState key st).pending = s.pending := by simp [State.forwardState]
@[simp] theorem requestAt_pending (s : State) (key n from_ : Nat) (told : Bool) : (s.requestAt key n from_ told).pending = s.pending := by simp [State.requestAt]
@[simp] theorem streamRequest_pending (s : State) (key n : Nat) (told : Bool) : (s.streamRequest key n told).pending = s.pending := by simp [State.streamRequest]

@[simp] theorem askSource_pending (s : State) (key : Nat) : (s.askSource key).pending = s.pending := by
  unfold State.askSource
  dsimp only
  repeat' split
  all_goals simp

@[simp] theorem chooseWanted_pending (s : State) (key : Nat) : (s.chooseWanted key).pending = s.pending := by
  unfold State.chooseWanted
  dsimp only
  repeat' split
  all_goals simp

@[simp] theorem chooseAll_pending (s : State) : s.chooseAll.pending = s.pending := by
  unfold State.chooseAll
  exact foldl_pending (fun s a => by simp) ..

@[simp] theorem sendForwarded_pending (s : State) (key : Nat) (p : Passing) : (s.sendForwarded key p).pending = s.pending := by
  unfold State.sendForwarded
  split <;> simp

@[simp] theorem layerSwitched_pending (s : State) (key : Nat) (a b : Nat × Nat) : (s.layerSwitched key a b).pending = s.pending := by simp [State.layerSwitched]

@[simp] theorem receiverPacket_pending (s : State) (key : Nat) (p : Passing) : (s.receiverPacket key p).pending = s.pending := by
  unfold State.receiverPacket
  split
  · rfl
  split
  · rfl
  extract_lets svc mine s1 st s2 enter cur moved s3 s4 point on
  have h1 : s1.pending = s.pending := by
    unfold s1
    split
    · exact (forwardState_pending ..).trans (updVleg_pending ..)
    · rfl
  have h2 : s2.pending = s1.pending := by
    unfold s2
    split
    · exact askSource_pending ..
    · rfl
  have h3 : s3.pending = s2.pending := by
    unfold s3
    split
    · exact updVleg_pending ..
    · rfl
  have h4 : s4.pending = s3.pending := by
    unfold s4
    split
    · exact (layerSwitched_pending ..).trans (updVleg_pending ..)
    · rfl
  have hall : s4.pending = s.pending := h4.trans (h3.trans (h2.trans h1))
  cases point with
  | none => exact hall
  | some c => simpa using hall

@[simp] theorem forward_pending (s : State) (p : Passing) : (s.forward p).pending = s.pending := by
  unfold State.forward
  exact foldl_pending (fun s a => by simp) ..

@[simp] theorem videoAccept_pending (s : State) (key t : Nat) (d : Bytes) : (s.videoAccept key t d).pending = s.pending := by
  unfold State.videoAccept
  repeat' split
  all_goals simp

@[simp] theorem refuseLate_pending (s : State) (key : Nat) : (s.refuseLate key).pending = s.pending := rfl

@[simp] theorem videoMedia_pending (s : State) (key t n : Nat) (d : Bytes) : (s.videoMedia key t n d).pending = s.pending := by
  unfold State.videoMedia
  split <;> simp

@[simp] theorem rtcpToHost_pending (s : State) (key port t : Nat) (d : Bytes) : (s.rtcpToHost key port t d).pending = s.pending := by
  unfold State.rtcpToHost
  split <;> simp

@[simp] theorem rtcpPart_pending (s : State) (key t : Nat) (d : Bytes) : (s.rtcpPart key t d).pending = s.pending := by
  unfold State.rtcpPart
  split
  · rfl
  next l _ =>
    extract_lets pt port fmt s1 a
    split
    · have h1 : s1.pending = s.pending := rtcpToHost_pending ..
      split
      · refine (foldl_pending (fun u k => ?_) ..).trans h1
        split
        · simp
        · rfl
      · exact h1
    split
    · split
      · rfl
      · split
        · exact request_pending ..
        · exact streamRequest_pending ..
    · simp

@[simp] theorem videoRtcp_pending (s : State) (key t : Nat) (d : Bytes) : (s.videoRtcp key t d).pending = s.pending := by
  unfold State.videoRtcp
  exact foldl_pending (fun s a => by simp) ..

@[simp] theorem effForwardSet_leaves (r : Req) (s : State) : (effForwardSet r s).leaves s.pending := by
  unfold effForwardSet
  dsimp only
  simp only [withHandle_leaves]
  intros
  repeat' split
  all_goals simp
  all_goals intros
  all_goals repeat' split
  all_goals simp

@[simp] theorem effForwardTargetSet_leaves (r : Req) (s : State) : (effForwardTargetSet r s).leaves s.pending := by
  unfold effForwardTargetSet
  simp only [withHandle_leaves]
  intros
  repeat' split
  all_goals simp

@[simp] theorem videoTimeout_pending (s : State) (key : Nat) : (s.videoTimeout key).pending = s.pending := by
  unfold State.videoTimeout
  split
  · rfl
  · dsimp only
    split
    · rfl
    · refine foldl_pending (fun u k => ?_) ..
      split
      · simp
      · rfl

@[simp] theorem vlegFlow_pending (s : State) (key : Nat) (on : Bool) : (s.vlegFlow key on).pending = s.pending := by
  unfold State.vlegFlow
  dsimp only
  repeat' split
  all_goals simp

@[simp] theorem sourceGone_pending (s : State) (src : Nat) : (s.sourceGone src).pending = s.pending := by
  unfold State.sourceGone
  exact foldl_pending (fun s a => by split <;> simp) ..

@[simp] theorem dropWhere_pending (s : State) (p : Sched → Bool) : (s.dropWhere p).pending = s.pending := by
  unfold State.dropWhere
  exact foldl_pending (fun s a => by split <;> simp) ..

@[simp] theorem dropScheds_pending (s : State) (p : Boundary → Bool) : (s.dropScheds p).pending = s.pending := by simp [State.dropScheds]
@[simp] theorem vlegFree_pending (s : State) (key : Nat) : (s.vlegFree key).pending = s.pending := by simp [State.vlegFree]

/-! ### Recorder.lean -/

@[simp] theorem freezeFull_pending (s : State) (key : Nat) (l : List Nat) : (s.freezeFull key l).pending = s.pending := by
  unfold State.freezeFull
  exact foldl_pending (fun s a => by simp) ..

@[simp] theorem execRecordWrite_has (part : Nat) (s : State) : nextHas (execRecordWrite part s) s.pending := by
  unfold execRecordWrite
  dsimp only
  repeat' split
  all_goals simp

@[simp] theorem execPictureCopyTimeout_has (part : Nat) (s : State) : nextHas (execPictureCopyTimeout part s) s.pending := by
  unfold execPictureCopyTimeout
  split <;> simp

@[simp] theorem execFreezeEnd_has (part range : Nat) (s : State) : nextHas (execFreezeEnd part range s) s.pending := by
  unfold execFreezeEnd
  split <;> simp

@[simp] theorem recorderFault_pending (s : State) : s.recorderFault.pending = s.pending := by simp [State.recorderFault]

@[simp] theorem recorderBlock_pending (s : State) : s.recorderBlock.pending = s.pending := by
  unfold State.recorderBlock
  exact foldl_pending (fun s a => by split <;> simp) ..

@[simp] theorem tapOutputs_pending (s : State) : s.tapOutputs.pending = s.pending := by
  unfold State.tapOutputs
  refine foldl_pending (fun u key => ?_) ..
  split
  · split
    · exact tapCopy_pending ..
    · rfl
  · rfl

@[simp] theorem effTapSet_leaves (r : Req) (s : State) : (effTapSet r s).leaves s.pending := by
  unfold effTapSet
  simp only [withHandle_leaves]
  intros
  repeat' split
  all_goals simp

@[simp] theorem tapOn_pending (s : State) (part i : Nat) : (s.tapOn part i).pending = s.pending := rfl
@[simp] theorem tapOff_pending (s : State) (part i : Nat) : (s.tapOff part i).pending = s.pending := rfl

@[simp] theorem dropTaps_pending (s : State) (obj : Nat) : (s.dropTaps obj).pending = s.pending := by
  unfold State.dropTaps
  exact foldl_pending (fun s a => by simp) ..

@[simp] theorem effPartitionCreate_leaves (r : Req) (s : State) : (effPartitionCreate r s).leaves s.pending := by
  unfold effPartitionCreate
  extract_lets p size
  refine (nullTarget_leaves ..).2 fun _ => (need_leaves ..).2 fun _ => (need_leaves ..).2 fun _ => (create_leaves ..).2 fun key _ =>
    (need_leaves ..).2 fun _ => ?_
  split
  · exact fail_leaves ..
  next base _ =>
    extract_lets s1 ans
    have h1 : s1.pending = s.pending := (State.updRec_pending ..).trans (addObj_pending ..)
    split
    · exact (later_leaves ..).2 ((schedule_pending ..).trans h1)
    · exact (done_leaves ..).2 h1

@[simp] theorem effPartitionDestroy_leaves (r : Req) (s : State) : (effPartitionDestroy r s).leaves s.pending := by
  unfold effPartitionDestroy
  simp only [withHandle_leaves]
  intros
  repeat' split
  all_goals simp

@[simp] theorem partFree_pending (s : State) (key : Nat) : (s.partFree key).pending = s.pending := by simp [State.partFree]

@[simp] theorem effPartitionEnable_leaves (r : Req) (s : State) : (effPartitionEnable r s).leaves s.pending := by
  unfold effPartitionEnable
  simp only [withHandle_leaves]
  intros
  repeat' split
  all_goals simp

@[simp] theorem effPartitionHold_leaves (r : Req) (s : State) : (effPartitionHold r s).leaves s.pending := by
  unfold effPartitionHold
  simp only [withHandle_leaves]
  intros
  repeat' split
  all_goals simp

@[simp] theorem effFreezeSet_leaves (r : Req) (s : State) : (effFreezeSet r s).leaves s.pending := by
  unfold effFreezeSet
  simp only [withHandle_leaves]
  intros
  repeat' split
  all_goals simp

@[simp] theorem effFreezeRelease_leaves (r : Req) (s : State) : (effFreezeRelease r s).leaves s.pending := by
  unfold effFreezeRelease
  simp only [withHandle_leaves]
  intros
  repeat' split
  all_goals simp

@[simp] theorem effExportSet_leaves (r : Req) (s : State) : (effExportSet r s).leaves s.pending := by
  unfold effExportSet
  simp only [withHandle_leaves]
  intros
  repeat' split
  all_goals simp

@[simp] theorem effExportAck_leaves (r : Req) (s : State) : (effExportAck r s).leaves s.pending := by
  unfold effExportAck
  simp only [withHandle_leaves]
  intros
  repeat' split
  all_goals simp

@[simp] theorem exportLag_pending (s : State) (key done at_ : Nat) : (s.exportLag key done at_).pending = s.pending := by
  unfold State.exportLag
  split <;> simp

@[simp] theorem execExportWrite_has (part : Nat) (s : State) : nextHas (execExportWrite part s) s.pending := by
  unfold execExportWrite
  dsimp only
  repeat' split
  all_goals simp

@[simp] theorem effRecorderRead_leaves (r : Req) (s : State) : (effRecorderRead r s).leaves s.pending := by
  unfold effRecorderRead
  simp only [withHandle_leaves]
  intros
  repeat' split
  all_goals simp

@[simp] theorem effPartitionStatsGet_leaves (r : Req) (s : State) : (effPartitionStatsGet r s).leaves s.pending := by
  unfold effPartitionStatsGet
  simp only [withHandle_leaves]
  intros
  repeat' split
  all_goals simp

@[simp] theorem effRecorderSurvivorsGet_leaves (r : Req) (s : State) : (effRecorderSurvivorsGet r s).leaves s.pending := by simp [effRecorderSurvivorsGet]

@[simp] theorem ringWalk_pending (base ring : Nat) (l : List Record) (a : Nat × Option Nat) (s : State) :
    (State.ringWalk base ring l a s).1.pending = s.pending := by
  induction l generalizing a s with
  | nil => rfl
  | cons r rs ih =>
    unfold State.ringWalk
    dsimp only
    split
    · exact (ih ..).trans (memRead_pending ..)
    · exact memRead_pending ..

@[simp] theorem effPartitionAdopt_leaves (r : Req) (s : State) : (effPartitionAdopt r s).leaves s.pending := by
  unfold effPartitionAdopt
  split <;> simp

/-! ### Opal.lean -/

@[simp] theorem effCompositionCreate_leaves (r : Req) (s : State) : (effCompositionCreate r s).leaves s.pending := by simp [effCompositionCreate]
@[simp] theorem effCompositionDestroy_leaves (r : Req) (s : State) : (effCompositionDestroy r s).leaves s.pending := by simp [effCompositionDestroy]
@[simp] theorem effCompositionEnable_leaves (r : Req) (s : State) : (effCompositionEnable r s).leaves s.pending := by simp [effCompositionEnable]
@[simp] theorem effCompositionHold_leaves (r : Req) (s : State) : (effCompositionHold r s).leaves s.pending := by simp [effCompositionHold]
@[simp] theorem compFree_pending (s : State) (key : Nat) : (s.compFree key).pending = s.pending := by simp [State.compFree]

theorem planeSource_leaves {k : Option Nat → Eff} {q : List Instr} (hk : ∀ a, (k a).leaves q) (s : State) (p : Bytes) :
    (s.planeSource p k).leaves q := by
  unfold State.planeSource
  split
  · simp [hk]
  split
  · simp [hk]
  · simp [hk]

@[simp] theorem effPlaneSet_leaves (r : Req) (s : State) : (effPlaneSet r s).leaves s.pending := by
  unfold effPlaneSet
  simp only [withHandle_leaves, needUnit_leaves]
  intro key _ _
  refine planeSource_leaves (fun src => ?_) ..
  split
  · exact fail_leaves ..
  · simp

@[simp] theorem schedFrom_pending (s : State) (b : Boundary) (o : Origin) (a : Act) (t : Nat) : (s.schedFrom b o a t).pending = s.pending := rfl

@[simp] theorem effCompositionCommit_leaves (r : Req) (s : State) : (effCompositionCommit r s).leaves s.pending := by
  unfold effCompositionCommit
  rw [withHandle_leaves]
  intro key _
  split
  · exact fail_leaves ..
  next c _ =>
    extract_lets failed
    have hfailed : failed.pending = s.pending := updComp_pending ..
    split
    · exact hfailed
    · have hleaves : (s.admission (compCost c.cfg c.shadow) (s.objCost key) fun s dec => .later [] 0
          { s with awaiting := plusCost s.awaiting dec }).leaves s.pending := by
        simp
      split
      next p n t he =>
        rw [he] at hleaves
        have ht : t.pending = s.pending := hleaves
        simp [ht]
      next => exact hfailed
      next => exact hleaves

@[simp] theorem effPlaneGet_leaves (r : Req) (s : State) : (effPlaneGet r s).leaves s.pending := by
  unfold effPlaneGet
  simp only [withHandle_leaves]
  intros
  repeat' split
  all_goals simp

@[simp] theorem effCompositionStatsGet_leaves (r : Req) (s : State) : (effCompositionStatsGet r s).leaves s.pending := by
  unfold effCompositionStatsGet
  simp only [withHandle_leaves]
  intros
  repeat' split
  all_goals simp

@[simp] theorem effOpalScalerTableGet_leaves (r : Req) (s : State) : (effOpalScalerTableGet r s).leaves s.pending := by simp [effOpalScalerTableGet]

@[simp] theorem planeStale_pending (s : State) (key plane st reason frame f : Nat) :
    (s.planeStale key plane st reason frame f).pending = s.pending := by simp [State.planeStale]

@[simp] theorem planeStates_pending (s : State) (key : Nat) (n : Nat) : (s.planeStates key n).pending = s.pending := by
  unfold State.planeStates
  split
  · rfl
  · dsimp only
    refine (foldl_pending (fun u e => ?_) ..).trans rfl
    split
    · exact planeStale_pending ..
    · rfl

@[simp] theorem opalItem_pending (s : State) (key : Nat) (c : Comp) (frame k b : Nat) : (s.opalItem key c frame k b).pending = s.pending := by simp [State.opalItem]

@[simp] theorem execCompositeSliceStart_has (comp k : Nat) (s : State) : nextHas (execCompositeSliceStart comp k s) s.pending := by
  unfold execCompositeSliceStart
  dsimp only
  repeat' split
  all_goals simp

@[simp] theorem compFrame_pending (s : State) (key : Nat) (n : Nat) : (s.compFrame key n).pending = s.pending := by
  unfold State.compFrame
  dsimp only
  repeat' split
  all_goals simp

@[simp] theorem opalEnd_pending (s : State) (key frame kb st res : Nat) : (s.opalEnd key frame kb st res).1.pending = s.pending := by
  unfold State.opalEnd
  dsimp only
  repeat' split
  all_goals simp

@[simp] theorem compDone_pending (s : State) (key frame : Nat) : (s.compDone key frame).pending = s.pending := by
  unfold State.compDone
  repeat' split
  all_goals simp

/-! ### Encode.lean -/

theorem withComps_leaves {k : List (Nat × Comp) → Eff} {q : List Instr} (hk : ∀ l, (k l).leaves q) (s : State) (p : List Bytes) :
    (s.withComps p k).leaves q := by
  induction p generalizing k with
  | nil => exact hk _
  | cons x r ih =>
    unfold State.withComps
    rw [withHandle_leaves]
    intro key _
    split
    · exact ih fun l => hk _
    · exact fail_leaves ..

@[simp] theorem effEncodingCreate_leaves (r : Req) (s : State) : (effEncodingCreate r s).leaves s.pending := by
  unfold effEncodingCreate
  dsimp only
  rw [nullTarget_leaves]
  intro _
  refine withComps_leaves (fun cs => ?_) ..
  simp only [need_leaves, create_leaves, admission_leaves]
  intro _ _ key _ _
  simp [foldl_pending (fun u i => addQueue_pending ..)]

@[simp] theorem effEncodingDestroy_leaves (r : Req) (s : State) : (effEncodingDestroy r s).leaves s.pending := by simp [effEncodingDestroy]
@[simp] theorem effEncodingEnable_leaves (r : Req) (s : State) : (effEncodingEnable r s).leaves s.pending := by simp [effEncodingEnable]
@[simp] theorem effEncodingHold_leaves (r : Req) (s : State) : (effEncodingHold r s).leaves s.pending := by simp [effEncodingHold]

@[simp] theorem effEncodingRateSet_leaves (r : Req) (s : State) : (effEncodingRateSet r s).leaves s.pending := by
  -- the composition's lookup stays opaque: its key's type number is a division that the kernel would unfold
  obtain ⟨comp, hcomp⟩ : ∃ f, f = s.comp := ⟨_, rfl⟩
  unfold effEncodingRateSet
  rw [← hcomp]
  refine (withHandle_leaves ..).2 fun key _ => ?_
  split
  · exact fail_leaves ..
  split
  · exact noUnit_leaves _
  split
  · exact fail_leaves ..
  · simp

@[simp] theorem applyRate_pending (s : State) (i : Nat) (p : Bytes) : (s.applyRate i p).pending = s.pending := by simp [State.applyRate]

@[simp] theorem effEncodingKeyFrame_leaves (r : Req) (s : State) : (effEncodingKeyFrame r s).leaves s.pending := by
  unfold effEncodingKeyFrame
  simp only [withHandle_leaves]
  intros
  repeat' split
  all_goals simp

@[simp] theorem effEncodingStatsGet_leaves (r : Req) (s : State) : (effEncodingStatsGet r s).leaves s.pending := by
  unfold effEncodingStatsGet
  simp only [withHandle_leaves]
  intros
  repeat' split
  all_goals simp

@[simp] theorem encFlow_pending (s : State) (key : Nat) (on : Bool) : (s.encFlow key on).pending = s.pending := by simp [State.encFlow]

@[simp] theorem encFree_pending (s : State) (key : Nat) : (s.encFree key).pending = s.pending := by
  unfold State.encFree
  dsimp only
  simp

@[simp] theorem encBoundary_pending (s : State) (key i : Nat) (c : Comp) (n : Nat) : (s.encBoundary key i c n).pending = s.pending := by
  unfold State.encBoundary
  repeat' split
  all_goals simp

@[simp] theorem encItem_pending (s : State) (key i : Nat) (live : Bool) (stage pic k : Nat) (d : Bytes) :
    (s.encItem key i live stage pic k d).pending = s.pending := by simp [State.encItem]

@[simp] theorem encodeReady_pending (s : State) (comp frame k : Nat) (whole : Bool) :
    (s.encodeReady comp frame k whole).pending = s.pending := by
  unfold State.encodeReady
  split
  · rfl
  · refine foldl_pending (fun u x => ?_) ..
    split
    · rfl
    split
    · rfl
    next p _ =>
      extract_lets l hit s1
      have h1 : s1.pending = u.pending := by
        unfold s1
        split
        · rfl
        · exact updStream_pending ..
      exact (foldl_pending (fun v i => encItem_pending ..) ..).trans h1

@[simp] theorem opalItemEnd_pending (s : State) (key frame kb st res : Nat) : (s.opalItemEnd key frame kb st res).pending = s.pending := by
  have hend := opalEnd_pending s key frame kb st res
  unfold State.opalItemEnd
  split
  next t he => rw [he] at hend; exact hend
  next t he =>
    rw [he] at hend
    split
    · exact hend
    · simpa using hend

@[simp] theorem rateCapped_pending (s : State) (key i mode ts : Nat) : (s.rateCapped key i mode ts).pending = s.pending := by
  unfold State.rateCapped
  split <;> simp

@[simp] theorem encPackets_pending (s : State) (key i : Nat) (p : EncPic) (dueBy tid : Nat) (l : List (Bytes × Bool × NalUnit)) :
    (s.encPackets key i p dueBy tid l).pending = s.pending := by
  unfold State.encPackets
  refine foldl_pending (fun u e => ?_) ..
  split
  · rfl
  split
  · rfl
  · simp

@[simp] theorem encPicEnd_pending (s : State) (key i : Nat) (e : Encoding) (c : Comp) (p : EncPic) :
    (s.encPicEnd key i e c p).pending = s.pending := by simp [State.encPicEnd]

@[simp] theorem sliceEnd_pending (s : State) (key i pid k : Nat) (coded : Bool) : (s.sliceEnd key i pid k coded).pending = s.pending := by
  unfold State.sliceEnd
  split
  · rfl
  split
  · rfl
  split
  · dsimp only
    split
    · rfl
    · simp
  · rfl

@[simp] theorem encItemEnd_pending (s : State) (obj stage pid k st : Nat) (d : Bytes) :
    (s.encItemEnd obj stage pid k st d).pending = s.pending := by
  unfold State.encItemEnd
  dsimp only
  split <;> simp

/-! ### Halt.lean -/

@[simp] theorem nvmWear_pending (s : State) : s.nvmWear.pending = s.pending := by simp [State.nvmWear]

@[simp] theorem checkLife_pending (s : State) : s.checkLife.pending = s.pending := by
  unfold State.checkLife
  dsimp only
  split <;> simp

@[simp] theorem retireSector_pending (s : State) (i : Nat) : (s.retireSector i).pending = s.pending := by simp [State.retireSector]

@[simp] theorem keepErased_pending (s : State) : s.keepErased.pending = s.pending := by
  unfold State.keepErased
  dsimp only
  repeat' split
  all_goals simp

@[simp] theorem eraseDone_pending (s : State) : s.eraseDone.pending = s.pending := by
  unfold State.eraseDone
  split <;> simp

@[simp] theorem beginRecord_pending (s : State) : s.beginRecord.pending = s.pending := by
  unfold State.beginRecord
  split <;> simp

@[simp] theorem flight_pending (s : State) (cause : Nat) (detail : Bytes) : (s.flight cause detail).pending = s.pending := by simp [State.flight]
@[simp] theorem recordDone_pending (s : State) (r : Bytes) : (s.recordDone r).pending = s.pending := by simp [State.recordDone]

@[simp] theorem wordDone_pending (s : State) : s.wordDone.pending = s.pending := by
  unfold State.wordDone
  split <;> simp

@[simp] theorem coreReset_pending (s : State) (kind src : Nat) (held promoted : Bool) :
    (s.coreReset kind src held promoted).pending = s.pending := by
  simp [State.coreReset]

@[simp] theorem resetRequest_pending (s : State) (cold : Bool) (src : Nat) : (s.resetRequest cold src).pending = s.pending := by
  unfold State.resetRequest
  repeat' split
  all_goals simp

@[simp] theorem pulseEnd_pending (s : State) : s.pulseEnd.pending = s.pending := by
  unfold State.pulseEnd
  dsimp only
  split <;> simp

@[simp] theorem quiesce_pending (s : State) : s.quiesce.pending = s.pending := by simp [State.quiesce]

@[simp] theorem fatal_pending (s : State) (cause : Nat) (detail : Bytes) : (s.fatal cause detail).pending = s.pending := by
  unfold State.fatal
  split <;> simp

@[simp] theorem recordCommitted_pending (s : State) : s.recordCommitted.pending = s.pending := by
  unfold State.recordCommitted
  repeat' split
  all_goals simp

@[simp] theorem execPwrFailNAssert_has (s : State) : nextHas (execPwrFailNAssert s) s.pending := by
  unfold execPwrFailNAssert
  split <;> simp

@[simp] theorem execPwrFailNRelease_has (s : State) : nextHas (execPwrFailNRelease s) s.pending := by
  unfold execPwrFailNRelease
  dsimp only
  repeat' split
  all_goals simp

@[simp] theorem driveEn_pending (s : State) (step level : Nat) : (s.driveEn step level).pending = s.pending := by
  unfold State.driveEn
  split <;> simp

@[simp] theorem sequence_pending (s : State) : s.sequence.pending = s.pending := rfl

@[simp] theorem execRstClrHaltCount_has (fn : Nat) (s : State) : nextHas (execRstClrHaltCount fn s) s.pending := by
  unfold execRstClrHaltCount
  repeat' split
  all_goals simp

@[simp] theorem secondLevel_pending (s : State) : s.secondLevel.pending = s.pending := by simp [State.secondLevel]

/-! ### Power.lean -/

@[simp] theorem powerAlarm_pending (s : State) (kind : Nat) : (s.powerAlarm kind).pending = s.pending := by simp [State.powerAlarm]

@[simp] theorem thermalAlarm_pending (s : State) (kind sensor : Nat) (temp : Int) :
    (s.thermalAlarm kind sensor temp).pending = s.pending := by simp [State.thermalAlarm]

@[simp] theorem shedHold_pending (s : State) (key : Nat) (o : Obj) : (s.shedHold key o).pending = s.pending := by simp [State.shedHold]

@[simp] theorem shedClassNow_pending (s : State) (cls : Nat) : (s.shedClassNow cls).pending = s.pending := by
  unfold State.shedClassNow
  exact foldl_pending (fun s a => by simp) ..

@[simp] theorem shedDestroy_pending (s : State) (key : Nat) (o : Obj) : (s.shedDestroy key o).pending = s.pending := by simp [State.shedDestroy]

@[simp] theorem shedToFit_pending (s : State) : s.shedToFit.pending = s.pending := by
  unfold State.shedToFit
  exact foldl_pending (fun s a => by simp) ..

@[simp] theorem enterShed_pending (s : State) : s.enterShed.pending = s.pending := by simp [State.enterShed]

@[simp] theorem execShedClassEscalation_has (s : State) : nextHas (execShedClassEscalation s) s.pending := by
  unfold execShedClassEscalation
  repeat' split
  all_goals simp

@[simp] theorem execShedExit_has (s : State) : nextHas (execShedExit s) s.pending := by
  unfold execShedExit
  split <;> simp

@[simp] theorem powerSample_pending (s : State) (w : Nat) : (s.powerSample w).pending = s.pending := by simp [State.powerSample]
@[simp] theorem powerBlock_pending (s : State) : s.powerBlock.pending = s.pending := by simp [State.powerBlock]
@[simp] theorem pwmOut_pending (s s0 : State) : (s.pwmOut s0).pending = s.pending := rfl
@[simp] theorem currentSample_pending (s : State) (phases : List Nat) : (s.currentSample phases).pending = s.pending := by simp [State.currentSample]

@[simp] theorem execCurrentSample_has (phases : List Nat) (s : State) : nextHas (execCurrentSample phases s) s.pending := by
  unfold execCurrentSample
  split <;> simp

@[simp] theorem execOverCurrentFault_has (phase decamp : Nat) (s : State) : nextHas (execOverCurrentFault phase decamp s) s.pending := by
  unfold execOverCurrentFault
  split <;> simp

@[simp] theorem avsUpdate_pending (s : State) (target : Nat) : (s.avsUpdate target).pending = s.pending := by simp [State.avsUpdate]
@[simp] theorem tripNow_pending (s : State) (sensor : Nat) (temp : Int) : (s.tripNow sensor temp).pending = s.pending := by simp [State.tripNow]
@[simp] theorem newThresholds_pending (s : State) : s.newThresholds.pending = s.pending := by simp [State.newThresholds]

@[simp] theorem temperatureSample_pending (s : State) (temps : List Int) : (s.temperatureSample temps).pending = s.pending := by
  unfold State.temperatureSample
  dsimp only
  repeat' split
  all_goals simp

@[simp] theorem execTemperatureSample_has (temps : List Int) (s : State) : nextHas (execTemperatureSample temps s) s.pending := by
  unfold execTemperatureSample
  split <;> simp

@[simp] theorem execAonTemperatureSample_has (temp : Int) (s : State) : nextHas (execAonTemperatureSample temp s) s.pending := by
  unfold execAonTemperatureSample
  dsimp only
  repeat' split
  all_goals simp

@[simp] theorem dramTemperature_pending (s : State) (temps : List Int) : (s.dramTemperature temps).pending = s.pending := by simp [State.dramTemperature]

@[simp] theorem execDramTemperatureRead_has (temps : List Int) (s : State) : nextHas (execDramTemperatureRead temps s) s.pending := by
  unfold execDramTemperatureRead
  split <;> simp

@[simp] theorem execRailPowerGood_has (rail : Nat) (s : State) : nextHas (execRailPowerGood rail s) s.pending := by
  unfold execRailPowerGood
  repeat' split
  all_goals simp

@[simp] theorem execRailSequenceStep_has (s : State) : nextHas (execRailSequenceStep s) s.pending := by
  unfold execRailSequenceStep
  split <;> simp

@[simp] theorem execPowerGoodTimeout_has (s : State) : nextHas (execPowerGoodTimeout s) s.pending := by
  unfold execPowerGoodTimeout
  split <;> simp

@[simp] theorem execRailPowerDownStep_has (s : State) : nextHas (execRailPowerDownStep s) s.pending := by
  unfold execRailPowerDownStep
  split <;> simp

@[simp] theorem execPowerGoodFall_has (rail : Nat) (s : State) : nextHas (execPowerGoodFall rail s) s.pending := by
  unfold execPowerGoodFall
  repeat' split
  all_goals simp

@[simp] theorem execRootPllLock_has (s : State) : nextHas (execRootPllLock s) s.pending := by
  unfold execRootPllLock
  split <;> simp

@[simp] theorem execPmbusUnsupportedCommand_has (code : Nat) (s : State) : nextHas (execPmbusUnsupportedCommand code s) s.pending := by
  unfold execPmbusUnsupportedCommand
  split <;> simp

@[simp] theorem effPowerClassSet_leaves (r : Req) (s : State) : (effPowerClassSet r s).leaves s.pending := by
  unfold effPowerClassSet
  simp only [nullTarget_leaves, need_leaves]
  intros
  repeat' split
  all_goals simp

@[simp] theorem effThermalSet_leaves (r : Req) (s : State) : (effThermalSet r s).leaves s.pending := by simp [effThermalSet]
@[simp] theorem effPowerStatusGet_leaves (r : Req) (s : State) : (effPowerStatusGet r s).leaves s.pending := by simp [effPowerStatusGet]
@[simp] theorem effNvmStatusGet_leaves (r : Req) (s : State) : (effNvmStatusGet r s).leaves s.pending := by simp [effNvmStatusGet]

/-! ### System.lean -/

@[simp] theorem mark_pending (s : State) (f : Nat) (begun : Bool) : (s.mark f begun).pending = s.pending := rfl
@[simp] theorem beginFence_pending (s : State) (f : Nat) : (s.beginFence f).pending = s.pending := by simp [State.beginFence]
@[simp] theorem unmark_pending (s : State) : s.unmark.pending = s.pending := rfl

@[simp] theorem resetOk_leaves {k : Eff} {q : List Instr} (hk : k.leaves q) (s : State) (r : Req) : (s.resetOk r k).leaves q := by
  simp [State.resetOk, hk]

@[simp] theorem restartOk_leaves {k : Eff} {q : List Instr} (hk : k.leaves q) (s : State) (r : Req) : (s.restartOk r k).leaves q := by
  simp [State.restartOk, hk]

@[simp] theorem takeSlot_pending (s : State) (f : Nat) (b : Bytes) : (s.takeSlot f b).pending = s.pending := by simp [State.takeSlot]

@[simp] theorem takeRung_pending (f : Nat) (l : List Bytes) (s : State) : (State.takeRung f l s).pending = s.pending := by
  induction l generalizing s with
  | nil => rfl
  | cons b rest ih =>
    unfold State.takeRung
    dsimp only
    split
    · rw [ih]
      simp
    · rfl

@[simp] theorem takeMore_pending (s : State) (f : Nat) : (s.takeMore f).pending = s.pending := by simp [State.takeMore]
@[simp] theorem doorbell_pending (s : State) (f tail : Nat) (slots : List Bytes) : (s.doorbell f tail slots).pending = s.pending := by simp [State.doorbell]

@[simp] theorem execMbxCmdTailDoorbell_has (fn tail : Nat) (slots : List Bytes) (s : State) :
    nextHas (execMbxCmdTailDoorbell fn tail slots s) s.pending := by
  unfold execMbxCmdTailDoorbell
  split <;> simp

@[simp] theorem execDoorbellGo_has (frame : Bytes) (s : State) : nextHas (execDoorbellGo frame s) s.pending := by
  unfold execDoorbellGo
  split
  · exact (next_has ..).2 rfl
  · refine (next_has ..).2 (chainFrame_pending (fun u b => ?_) ..)
    split
    · rfl
    split
    · rfl
    · exact (settleTaken_pending ..).trans (takeSlot_pending ..)

@[simp] theorem rspHead_pending (s : State) (f head : Nat) : (s.rspHead f head).pending = s.pending := by simp [State.rspHead]

@[simp] theorem execMbxRspHeadWrite_has (fn head : Nat) (s : State) : nextHas (execMbxRspHeadWrite fn head s) s.pending := by
  unfold execMbxRspHeadWrite
  split <;> simp

@[simp] theorem evtHead_pending (s : State) (f head : Nat) : (s.evtHead f head).pending = s.pending := by simp [State.evtHead]

@[simp] theorem execMbxEvtHeadWrite_has (fn head : Nat) (s : State) : nextHas (execMbxEvtHeadWrite fn head s) s.pending := by
  unfold execMbxEvtHeadWrite
  split <;> simp

@[simp] theorem cmdEnable_pending (s : State) (f : Nat) (on : Bool) : (s.cmdEnable f on).pending = s.pending := by simp [State.cmdEnable]
@[simp] theorem rspEnable_pending (s : State) (f : Nat) (on : Bool) : (s.rspEnable f on).pending = s.pending := by simp [State.rspEnable]
@[simp] theorem evtEnable_pending (s : State) (f : Nat) (on : Bool) : (s.evtEnable f on).pending = s.pending := by simp [State.evtEnable]

theorem ringEvent_has {s t : State} (h : t.pending = s.pending) (fn : Nat) : nextHas (ringEvent fn t) s.pending := by
  unfold ringEvent
  split <;> simp [h]

@[simp] theorem execCmdRingEnable_has (fn : Nat) (s : State) : nextHas (execCmdRingEnable fn s) s.pending := ringEvent_has (cmdEnable_pending ..) _
@[simp] theorem execCmdRingDisable_has (fn : Nat) (s : State) : nextHas (execCmdRingDisable fn s) s.pending := ringEvent_has (cmdEnable_pending ..) _
@[simp] theorem execRspRingEnable_has (fn : Nat) (s : State) : nextHas (execRspRingEnable fn s) s.pending := ringEvent_has (rspEnable_pending ..) _
@[simp] theorem execRspRingDisable_has (fn : Nat) (s : State) : nextHas (execRspRingDisable fn s) s.pending := ringEvent_has (rspEnable_pending ..) _
@[simp] theorem execEvtRingEnable_has (fn : Nat) (s : State) : nextHas (execEvtRingEnable fn s) s.pending := ringEvent_has (evtEnable_pending ..) _
@[simp] theorem execEvtRingDisable_has (fn : Nat) (s : State) : nextHas (execEvtRingDisable fn s) s.pending := ringEvent_has (evtEnable_pending ..) _
@[simp] theorem hotReset_pending (s : State) (f : Nat) : (s.hotReset f).pending = s.pending := by simp [State.hotReset]
@[simp] theorem execPcieHotReset_has (fn : Nat) (s : State) : nextHas (execPcieHotReset fn s) s.pending := ringEvent_has (hotReset_pending ..) _
@[simp] theorem unmask_pending (s : State) (f : Nat) (vec : Option Nat) : (s.unmask f vec).pending = s.pending := by simp [State.unmask]

@[simp] theorem execMsixVectorUnmask_has (fn : Nat) (vec : Option Nat) (s : State) : nextHas (execMsixVectorUnmask fn vec s) s.pending := by
  unfold execMsixVectorUnmask
  split <;> simp

@[simp] theorem effEcho_leaves (r : Req) (s : State) : (effEcho r s).leaves s.pending := by simp [effEcho]
@[simp] theorem effSysIdentify_leaves (r : Req) (s : State) : (effSysIdentify r s).leaves s.pending := by simp [effSysIdentify]
@[simp] theorem effSysModeGet_leaves (r : Req) (s : State) : (effSysModeGet r s).leaves s.pending := by simp [effSysModeGet]
@[simp] theorem effEventMaskSet_leaves (r : Req) (s : State) : (effEventMaskSet r s).leaves s.pending := by simp [effEventMaskSet]
@[simp] theorem effSysStatsGet_leaves (r : Req) (s : State) : (effSysStatsGet r s).leaves s.pending := by simp [effSysStatsGet]

@[simp] theorem abortAll_pending (s : State) (f : Nat) : (s.abortAll f).pending = s.pending := by
  unfold State.abortAll
  extract_lets s1 l
  have h1 : s1.pending = s.pending := by
    unfold s1
    split
    · exact respond_pending ..
    · rfl
  refine (foldl_pending (fun u t => ?_) ..).trans h1
  split <;> exact respond_pending ..

@[simp] theorem abortOf_pending (s : State) (l : List Nat) : (s.abortOf l).pending = s.pending := by
  unfold State.abortOf
  exact foldl_pending (fun s a => by simp) ..

@[simp] theorem clearMedia_pending (s : State) : s.clearMedia.pending = s.pending := by simp [State.clearMedia]
@[simp] theorem mediaRestart_pending (s : State) (by_ : Option Nat) (cause : Nat) : (s.mediaRestart by_ cause).pending = s.pending := by simp [State.mediaRestart]
@[simp] theorem readyAgain_pending (s : State) (f : Nat) (notice : Bytes) : (s.readyAgain f notice).pending = s.pending := by simp [State.readyAgain]

@[simp] theorem restartAnswer_pending (s : State) (f : Nat) : (s.restartAnswer f).pending = s.pending := by
  unfold State.restartAnswer
  split
  · exact finish_pending (s := s.updMb f _) ((done_leaves ..).2 rfl) ..
  · rfl

@[simp] theorem restartDone_pending (s : State) : s.restartDone.pending = s.pending := by
  unfold State.restartDone
  repeat' split
  all_goals simp

@[simp] theorem passFence_pending (s : State) (f : Nat) : (s.passFence f).pending = s.pending := by
  unfold State.passFence
  split <;> simp

@[simp] theorem effSystemReset_leaves (r : Req) (s : State) : (effSystemReset r s).leaves s.pending := by simp [effSystemReset]
@[simp] theorem execSystemReset_has (r : Req) (s : State) : nextHas (execSystemReset r s) s.pending := (next_has ..).2 ((passFence_pending ..).trans (command_pending (effSystemReset_leaves r) ..))

@[simp] theorem effMediaRestart_leaves (r : Req) (s : State) : (effMediaRestart r s).leaves s.pending := by
  unfold effMediaRestart
  split <;> simp

@[simp] theorem execMediaRestart_has (r : Req) (s : State) : nextHas (execMediaRestart r s) s.pending := (next_has ..).2 ((passFence_pending ..).trans (command_pending (effMediaRestart_leaves r) ..))

@[simp] theorem fenceRelease_pending (s : State) (f : Nat) : (s.fenceRelease f).pending = s.pending := by
  unfold State.fenceRelease State.fenceRelease.free
  split
  · rfl
  · simp

@[simp] theorem execFenceRelease_has (mbx : Nat) (s : State) : nextHas (execFenceRelease mbx s) s.pending := by
  unfold execFenceRelease
  split <;> simp

@[simp] theorem firstLevel_pending (s : State) (core : Nat) : (s.firstLevel core).pending = s.pending := by simp [State.firstLevel]

@[simp] theorem chainReset_pending (s : State) (code : Nat) (f : Bytes) : (s.chainReset code f).pending = s.pending := by
  unfold State.chainReset
  split
  · rfl
  · extract_lets go acted
    have hgo : go.pending = s.pending := chainFrame_pending (fun _ _ => rfl) ..
    split
    · exact (resetRequest_pending ..).trans hgo
    · exact hgo

@[simp] theorem effBudgetGet_leaves (r : Req) (s : State) : (effBudgetGet r s).leaves s.pending := by simp [effBudgetGet]

/-! ### Mode.lean -/

theorem endFlight_pending {own : Flight → State → Eff} (h : ∀ x s, (own x s).leaves s.pending) (s : State) (f : Nat) :
    (s.endFlight f own).pending = s.pending := by
  unfold State.endFlight
  split
  · rfl
  · exact (settleTaken_pending ..).trans (finish_pending (h ..) ..)

@[simp] theorem leaveMaintenance_pending (s : State) : s.leaveMaintenance.pending = s.pending := by simp [State.leaveMaintenance]

@[simp] theorem effModeSet_leaves (r : Req) (s : State) : (effModeSet r s).leaves s.pending := by
  unfold effModeSet
  simp only [nullTarget_leaves]
  intros
  repeat' split
  all_goals simp

@[simp] theorem effFlightRecordRead_leaves (r : Req) (s : State) : (effFlightRecordRead r s).leaves s.pending := by simp [effFlightRecordRead]
@[simp] theorem effFirmwareSlotWrite_leaves (r : Req) (s : State) : (effFirmwareSlotWrite r s).leaves s.pending := by simp [effFirmwareSlotWrite]
@[simp] theorem effFirmwareSlotWriteData_leaves (_r : Req) (d : Bytes) (s : State) : (effFirmwareSlotWriteData _r d s).leaves s.pending := by simp [effFirmwareSlotWriteData]

@[simp] theorem effFirmwareSlotWriteDone_leaves (x : Flight) (s : State) : (effFirmwareSlotWriteDone x s).leaves s.pending := by
  unfold effFirmwareSlotWriteDone
  split <;> simp

@[simp] theorem execFirmwareSlotWriteDone_has (s : State) : nextHas (execFirmwareSlotWriteDone s) s.pending := by
  unfold execFirmwareSlotWriteDone
  refine (next_has ..).2 (foldl_pending (fun u f => ?_) ..)
  split
  · split
    · exact endFlight_pending effFirmwareSlotWriteDone_leaves ..
    · rfl
  · rfl

@[simp] theorem effOtpKekWrite_leaves (r : Req) (s : State) : (effOtpKekWrite r s).leaves s.pending := by simp [effOtpKekWrite]
@[simp] theorem effFirmwareCommit_leaves (r : Req) (s : State) : (effFirmwareCommit r s).leaves s.pending := by simp [effFirmwareCommit]
@[simp] theorem effDebugChallengeGet_leaves (r : Req) (s : State) : (effDebugChallengeGet r s).leaves s.pending := by simp [effDebugChallengeGet]

@[simp] theorem effDebugUnlock_leaves (r : Req) (s : State) : (effDebugUnlock r s).leaves s.pending := by
  unfold effDebugUnlock
  simp only [nullTarget_leaves]
  intros
  repeat' split
  all_goals simp

@[simp] theorem effLaneTestSet_leaves (r : Req) (s : State) : (effLaneTestSet r s).leaves s.pending := by simp [effLaneTestSet]
@[simp] theorem effLaneTestGet_leaves (r : Req) (s : State) : (effLaneTestGet r s).leaves s.pending := by simp [effLaneTestGet]
@[simp] theorem aonReset_pending (s : State) : s.aonReset.pending = s.pending := rfl

@[simp] theorem execPowerOn_has (pclass pmaddr : Nat) (s : State) : nextHas (execPowerOn pclass pmaddr s) s.pending := by
  unfold execPowerOn
  split <;> simp

@[simp] theorem execResetRelease_has (s : State) : nextHas (execResetRelease s) s.pending := by
  unfold execResetRelease
  split <;> simp

@[simp] theorem bootRun_pending (s : State) : s.bootRun.pending = s.pending := by simp [State.bootRun]
@[simp] theorem raiseReady_pending (s : State) : s.raiseReady.pending = s.pending := by simp [State.raiseReady]
@[simp] theorem adaptLanes_pending (s : State) : s.adaptLanes.pending = s.pending := rfl

@[simp] theorem calibrate_pending (s : State) : s.calibrate.pending = s.pending := by
  unfold State.calibrate
  dsimp only
  repeat' split
  all_goals simp

/-! ### Quartz.lean -/

@[simp] theorem stepTime_pending (s : State) (ns frac : Nat) : (s.stepTime ns frac).pending = s.pending := by simp [State.stepTime]
@[simp] theorem updDom_pending (s : State) (d : Nat) (f : TimeDomain → TimeDomain) : (s.updDom d f).pending = s.pending := rfl
@[simp] theorem timeAlarm_pending (s : State) (kind dom : Nat) : (s.timeAlarm kind dom).pending = s.pending := by simp [State.timeAlarm]
@[simp] theorem setServo_pending (s : State) (st : Nat) (tell : Bool) : (s.setServo st tell).pending = s.pending := by simp [State.setServo]

@[simp] theorem timeCheck_pending (s : State) : s.timeCheck.pending = s.pending := by
  unfold State.timeCheck
  split <;> simp

@[simp] theorem activate_pending (s : State) (d cause : Nat) : (s.activate d cause).pending = s.pending := by simp [State.activate]
@[simp] theorem servoState_pending (s : State) (theta : Int) : (s.servoState theta).pending = s.pending := by simp [State.servoState]
@[simp] theorem servoUpdate_pending (s : State) (d : Nat) (theta : Int) (tau : Nat) : (s.servoUpdate d theta tau).pending = s.pending := by simp [State.servoUpdate]

@[simp] theorem timeUpdate_pending (s : State) (d : Nat) (theta : Int) (tau : Nat) : (s.timeUpdate d theta tau).pending = s.pending := by
  unfold State.timeUpdate
  dsimp only
  split <;> simp

@[simp] theorem domainLost_pending (s : State) (d : Nat) : (s.domainLost d).pending = s.pending := by simp [State.domainLost]

theorem ofDomain_pending {k : State → State} (h : ∀ s, (k s).pending = s.pending) (s : State) (d : Nat) (msg : Bytes) :
    (s.ofDomain d msg k).pending = s.pending := by
  unfold State.ofDomain
  split
  · rfl
  split
  · exact h s
  · rfl

@[simp] theorem announce_pending (s : State) (d : Nat) (m : Bytes) : (s.announce d m).pending = s.pending := by simp [State.announce]

@[simp] theorem execPtpAnnounceReceive_has (dom t : Nat) (msg : Bytes) (s : State) :
    nextHas (execPtpAnnounceReceive dom t msg s) s.pending := by
  unfold execPtpAnnounceReceive
  split
  · exact fault_has _ _
  · exact (next_has ..).2 ((ofDomain_pending (fun u => by simp) ..).trans (by simp))

@[simp] theorem domainTheta_pending (s : State) (d : Nat) (t1 t2 corr : Int) (tau : Nat) :
    (s.domainTheta d t1 t2 corr tau).pending = s.pending := by
  unfold State.domainTheta
  dsimp only
  split <;> simp

@[simp] theorem ptpSync_pending (s : State) (d t : Nat) (m : Bytes) : (s.ptpSync d t m).pending = s.pending := by
  unfold State.ptpSync
  dsimp only
  repeat' split
  all_goals simp

@[simp] theorem execPtpSyncReceive_has (dom t : Nat) (msg : Bytes) (s : State) : nextHas (execPtpSyncReceive dom t msg s) s.pending := by
  unfold execPtpSyncReceive
  split
  · exact fault_has _ _
  · exact (next_has ..).2 ((ofDomain_pending (fun u => by simp) ..).trans (by simp))

@[simp] theorem addDelay_pending (s : State) (d : Nat) (v : Int) : (s.addDelay d v).pending = s.pending := rfl

@[simp] theorem delayResponse_pending (s : State) (d t : Nat) (m : Bytes) : (s.delayResponse d t m).pending = s.pending := by
  unfold State.delayResponse
  dsimp only
  repeat' split
  all_goals simp

@[simp] theorem execPtpDelayResponseReceive_has (dom t : Nat) (msg : Bytes) (s : State) :
    nextHas (execPtpDelayResponseReceive dom t msg s) s.pending := by
  unfold execPtpDelayResponseReceive
  split
  · exact fault_has _ _
  · exact (next_has ..).2 ((ofDomain_pending (fun u => by simp) ..).trans (by simp))

@[simp] theorem firmwareQueue_pending (s : State) (q : Nat) : (s.firmwareQueue q).pending = s.pending := by simp [State.firmwareQueue]

@[simp] theorem ptpSend_pending (s : State) (x : TimeDomain) (peer event : Bool) (m : Bytes) :
    (s.ptpSend x peer event m).pending = s.pending := by simp [State.ptpSend]

@[simp] theorem pdelayAnswer_pending (s : State) (d t : Nat) (m : Bytes) : (s.pdelayAnswer d t m).pending = s.pending := by simp [State.pdelayAnswer]

@[simp] theorem execPtpPdelayReqReceive_has (port t : Nat) (msg : Bytes) (s : State) :
    nextHas (execPtpPdelayReqReceive port t msg s) s.pending := by
  unfold execPtpPdelayReqReceive
  dsimp only
  repeat' split
  all_goals simp

@[simp] theorem delayRequest_pending (s : State) (d t : Nat) : (s.delayRequest d t).pending = s.pending := by simp [State.delayRequest]

@[simp] theorem execPtpDelayReqSend_has (dom t : Nat) (s : State) : nextHas (execPtpDelayReqSend dom t s) s.pending := by
  unfold execPtpDelayReqSend
  split <;> simp

@[simp] theorem execDomainLossTimeout_has (dom : Nat) (s : State) : nextHas (execDomainLossTimeout dom s) s.pending := by
  unfold execDomainLossTimeout
  split <;> simp

@[simp] theorem effTimeDomainSet_leaves (r : Req) (s : State) : (effTimeDomainSet r s).leaves s.pending := by simp [effTimeDomainSet]
@[simp] theorem effTimeServoSet_leaves (r : Req) (s : State) : (effTimeServoSet r s).leaves s.pending := by simp [effTimeServoSet]
@[simp] theorem effTimeSelect_leaves (r : Req) (s : State) : (effTimeSelect r s).leaves s.pending := by simp [effTimeSelect]
@[simp] theorem effTimeStep_leaves (r : Req) (s : State) : (effTimeStep r s).leaves s.pending := by simp [effTimeStep]
@[simp] theorem effTimeStatusGet_leaves (r : Req) (s : State) : (effTimeStatusGet r s).leaves s.pending := by simp [effTimeStatusGet]
@[simp] theorem effTimeCaptureSet_leaves (r : Req) (s : State) : (effTimeCaptureSet r s).leaves s.pending := by simp [effTimeCaptureSet]
@[simp] theorem updPulse_pending (s : State) (n : Nat) (f : Pulse → Pulse) : (s.updPulse n f).pending = s.pending := rfl
@[simp] theorem drivePps_pending (s : State) (n : Nat) : (s.drivePps n).pending = s.pending := by simp [State.drivePps]
@[simp] theorem armPulse_pending (s : State) (n : Nat) : (s.armPulse n).pending = s.pending := by simp [State.armPulse]

@[simp] theorem execTimePulseArm_has (pulse : Nat) (s : State) : nextHas (execTimePulseArm pulse s) s.pending := by
  unfold execTimePulseArm
  split <;> simp

@[simp] theorem stopPulse_pending (s : State) (n : Nat) : (s.stopPulse n).pending = s.pending := by simp [State.stopPulse]

@[simp] theorem execTimePulseStop_has (pulse : Nat) (s : State) : nextHas (execTimePulseStop pulse s) s.pending := by
  unfold execTimePulseStop
  split <;> simp

@[simp] theorem pulseEdge_pending (s : State) (n : Nat) : (s.pulseEdge n).pending = s.pending := by
  unfold State.pulseEdge
  extract_lets x overTimes
  split
  · rfl
  split
  · exact (drivePps_pending ..).trans ((updPulse_pending ..).trans (at_pending ..))
  · exact (drivePps_pending ..).trans ((updPulse_pending ..).trans (at_pending ..))

@[simp] theorem execPulseEdge_has (pulse : Nat) (s : State) : nextHas (execPulseEdge pulse s) s.pending := by
  unfold execPulseEdge
  split <;> simp

@[simp] theorem tellCaptures_pending (s : State) : s.tellCaptures.pending = s.pending := by
  unfold State.tellCaptures
  split <;> simp

@[simp] theorem capture_pending (s : State) (pin t : Nat) (rising : Bool) : (s.capture pin t rising).pending = s.pending := by simp [State.capture]

@[simp] theorem execTsInEdge_has (pin t : Nat) (rising : Bool) (s : State) : nextHas (execTsInEdge pin t rising s) s.pending := by
  unfold execTsInEdge
  split <;> simp

@[simp] theorem relayGone_pending (s : State) : s.relayGone.pending = s.pending := by simp [State.relayGone]
@[simp] theorem relayBlock_pending (s : State) : s.relayBlock.pending = s.pending := by simp [State.relayBlock]
@[simp] theorem relayAnswer_pending (s : State) (src t : Nat) (p : Bytes) : (s.relayAnswer src t p).pending = s.pending := by simp [State.relayAnswer]
@[simp] theorem relayTheta_pending (s : State) (t : Nat) (p : Bytes) : (s.relayTheta t p).pending = s.pending := by simp [State.relayTheta]

@[simp] theorem takeTime_pending (link : Nat) (t : Nat) (s : State) (src a : Nat) (p : Bytes) :
    (s.takeTime link t src a p).pending = s.pending := by simp [State.takeTime]

@[simp] theorem execTime_has (link t : Nat) (data : Bytes) (s : State) : nextHas (execTime link t data s) s.pending := by
  unfold execTime
  split
  · exact fault_has _ _
  · exact (next_has ..).2 ((blpIn_pending (fun u a b p => takeTime_pending ..) ..).trans (at_pending ..))

/-! ### Regs.lean -/

@[simp] theorem hostByte_pending (s : State) (off : Nat) (b : Byte) : (s.hostByte off b).pending = s.pending := by simp [State.hostByte]
@[simp] theorem writeCtrl_pending (s : State) (f : Nat) (v : BitVec 32) : (s.writeCtrl f v).pending = s.pending := by simp [State.writeCtrl]
@[simp] theorem writeMsix_pending (s : State) (f i : Nat) (v : BitVec 32) : (s.writeMsix f i v).pending = s.pending := by simp [State.writeMsix]
@[simp] theorem writeMbx_pending (s : State) (f off : Nat) (v : BitVec 32) : (s.writeMbx f off v).pending = s.pending := by simp [State.writeMbx]
@[simp] theorem writeCrc_pending (s : State) (fn u off : Nat) (v : BitVec 32) : (s.writeCrc fn u off v).pending = s.pending := by simp [State.writeCrc]
@[simp] theorem writePulseCtrl_pending (s : State) (n : Nat) (v : BitVec 32) : (s.writePulseCtrl n v).pending = s.pending := by simp [State.writePulseCtrl]
@[simp] theorem writeTime_pending (s : State) (off : Nat) (v : BitVec 32) : (s.writeTime off v).pending = s.pending := by simp [State.writeTime]

@[simp] theorem drivePins_pending (s s0 : State) : (s.drivePins s0).pending = s.pending := by
  unfold State.drivePins
  exact (foldl_pending (fun u n => by simp) ..).trans (driveAll_pending s s0)

@[simp] theorem writePins_pending (s : State) (off : Nat) (v : BitVec 32) : (s.writePins off v).pending = s.pending := by simp [State.writePins]
@[simp] theorem regWrite32_pending (s : State) (fn off : Nat) (v : BitVec 32) : (s.regWrite32 fn off v).pending = s.pending := by simp [State.regWrite32]

@[simp] theorem regWrite_pending (s : State) (fn off : Nat) (data : List (Option Byte)) : (s.regWrite fn off data).pending = s.pending := by
  unfold State.regWrite
  dsimp only
  repeat' split
  all_goals simp

@[simp] theorem execRegisterWrite_has (fn off : Nat) (data : List (Option Byte)) (s : State) :
    nextHas (execRegisterWrite fn off data s) s.pending := by
  unfold execRegisterWrite
  repeat' split
  all_goals simp

@[simp] theorem rcClear_pending (s : State) (off : Nat) : (s.rcClear off).pending = s.pending := by simp [State.rcClear]

@[simp] theorem execRcRegisterRead_has (fn off : Nat) (s : State) : nextHas (execRcRegisterRead fn off s) s.pending := by
  unfold execRcRegisterRead
  repeat' split
  all_goals simp

/-! ### Trio.lean -/

@[simp] theorem noteConfig_pending (s : State) (entry addr : Nat) (d : BitVec 64) : (s.noteConfig entry addr d).pending = s.pending := rfl

@[simp] theorem exchange_pending (s : State) : s.exchange.pending = s.pending := by
  unfold State.exchange
  split <;> simp

@[simp] theorem effTrioCriticalSet_leaves (r : Req) (s : State) : (effTrioCriticalSet r s).leaves s.pending := by
  unfold effTrioCriticalSet
  simp only [nullTarget_leaves, need_leaves, withHandle_leaves]
  intros
  repeat' split
  all_goals simp

@[simp] theorem effTrioJoin_leaves (r : Req) (s : State) : (effTrioJoin r s).leaves s.pending := by simp [effTrioJoin]
@[simp] theorem effTrioForm_leaves (r : Req) (s : State) : (effTrioForm r s).leaves s.pending := by simp [effTrioForm]
@[simp] theorem trioRole_pending (s : State) (leader cause left : Nat) : (s.trioRole leader cause left).pending = s.pending := by simp [State.trioRole]

@[simp] theorem sendHeld_pending (s : State) : s.sendHeld.pending = s.pending := by
  unfold State.sendHeld
  split <;> simp

@[simp] theorem takeStandby_pending (s : State) : s.takeStandby.pending = s.pending := by
  unfold State.takeStandby
  exact foldl_pending (fun s a => by simp) ..

@[simp] theorem newLeader_pending (s : State) (a cause left : Nat) : (s.newLeader a cause left).pending = s.pending := by
  unfold State.newLeader
  dsimp only
  repeat' split
  all_goals simp

@[simp] theorem trioOut_pending (s : State) : s.trioOut.pending = s.pending := by simp [State.trioOut]

@[simp] theorem trioVote_pending (s : State) (entry outcome dissenter d : Nat) :
    (s.trioVote entry outcome dissenter d).pending = s.pending := by simp [State.trioVote]

@[simp] theorem voteEntry_pending (s : State) (d entry : Nat) : (s.voteEntry d entry).pending = s.pending := by
  unfold State.voteEntry
  dsimp only
  split <;> simp

@[simp] theorem endorse_pending (s : State) (a : Nat) : (s.endorse a).pending = s.pending := by simp [State.endorse]

@[simp] theorem endorseAtV_pending (s : State) (d : Nat) : (s.endorseAtV d).pending = s.pending := by
  unfold State.endorseAtV
  dsimp only
  repeat' split
  all_goals simp

@[simp] theorem vote_pending (s : State) : s.vote.pending = s.pending := by
  unfold State.vote
  extract_lets d es vs out s1 s2 me old s3 t pref back s4
  have h2 : s2.pending = s.pending := foldl_pending (fun u e => voteEntry_pending ..) ..
  split
  · exact (trioOut_pending ..).trans h2
  split
  · split
    · split
      · simpa [s3] using h2
      · exact h2
    · exact (endorseAtV_pending ..).trans h2
  · refine (endorseAtV_pending ..).trans (Eq.trans ?_ h2)
    simp [s4]

@[simp] theorem takeDigest_pending (s : State) (src a : Nat) (p : Bytes) : (s.takeDigest src a p).pending = s.pending := by simp [State.takeDigest]

@[simp] theorem execDigest_has (link : Nat) (data : Bytes) (s : State) : nextHas (execDigest link data s) s.pending := by
  unfold execDigest
  split
  · exact fault_has _ _
  · exact (next_has ..).2 (blpIn_pending (fun u a b p => by simp) ..)

@[simp] theorem takeEndorse_pending (s : State) (src a : Nat) (p : Bytes) : (s.takeEndorse src a p).pending = s.pending := by
  unfold State.takeEndorse
  dsimp only
  repeat' split
  all_goals simp

@[simp] theorem execEndorse_has (link : Nat) (data : Bytes) (s : State) : nextHas (execEndorse link data s) s.pending := by
  unfold execEndorse
  split
  · exact fault_has _ _
  · exact (next_has ..).2 (blpIn_pending (fun u a b p => by simp) ..)

@[simp] theorem sendDigests_pending (s : State) : s.sendDigests.pending = s.pending := by
  unfold State.sendDigests
  dsimp only
  split <;> simp

@[simp] theorem notePacket_pending (s : State) (key : Nat) (d : Bytes) : (s.notePacket key d).pending = s.pending := by
  unfold State.notePacket
  split <;> simp

@[simp] theorem syncNow_pending (s : State) (b : Nat) : (s.syncNow b).pending = s.pending := by
  unfold State.syncNow
  extract_lets s1
  have h1 : s1.pending = s.pending := by
    unfold s1
    split
    · refine foldl_pending (fun u e => ?_) ..
      split
      · simp
      · rfl
    · rfl
  exact (foldl_pending (fun u e => by simp) ..).trans h1

@[simp] theorem leaveTrio_pending (s : State) : s.leaveTrio.pending = s.pending := by simp [State.leaveTrio]

@[simp] theorem trioBlock_pending (s : State) : s.trioBlock.pending = s.pending := by
  unfold State.trioBlock
  dsimp only
  repeat' split
  all_goals simp

@[simp] theorem onTrio_leaves {k : Eff} {q : List Instr} (hk : k.leaves q) (s : State) (r : Req) : (s.onTrio r k).leaves q := by
  simp [State.onTrio, hk]

@[simp] theorem effTrioLeave_leaves (r : Req) (s : State) : (effTrioLeave r s).leaves s.pending := by simp [effTrioLeave]
@[simp] theorem effTrioHandover_leaves (r : Req) (s : State) : (effTrioHandover r s).leaves s.pending := by simp [effTrioHandover]
@[simp] theorem effTrioRevertSet_leaves (r : Req) (s : State) : (effTrioRevertSet r s).leaves s.pending := by simp [effTrioRevertSet]
@[simp] theorem effTrioRejoin_leaves (r : Req) (s : State) : (effTrioRejoin r s).leaves s.pending := by simp [effTrioRejoin]
@[simp] theorem effTrioStatusGet_leaves (r : Req) (s : State) : (effTrioStatusGet r s).leaves s.pending := by simp [effTrioStatusGet]

@[simp] theorem joinTrio_pending (s : State) (id leader sync : Nat) (present : List Nat) :
    (s.joinTrio id leader sync present).pending = s.pending := by
  unfold State.joinTrio
  split <;> simp

@[simp] theorem trioControl_pending (s : State) (src : Nat) (c : Control) : (s.trioControl src c).pending = s.pending := by
  have hother (d : Control) : (s.control src d).pending = s.pending := control_pending ..
  unfold State.trioControl
  cases c with
  | ready q t =>
    dsimp only
    split
    · split
      · exact hother _
      · refine (answer_pending (fun t r => (done_leaves ..).2 rfl) ..).trans ((foldl_pending (fun u x => ?_) ..).trans rfl)
        split
        · rfl
        · exact tell_pending ..
    · exact hother _
  | trio id leader sync there => simp
  | trioLeft => rfl
  | trioTurn b a => simp
  | trioRevert n => rfl
  | form => exact hother _
  | noRoom => exact hother _
  | wrongWiring => exact hother _
  | commit => exact hother _
  | abandon => exact hother _
  | room => exact hother _
  | trunkAsk => exact hother _
  | trunkYes => exact hother _
  | trunkNo => exact hother _
  | trunkCommit => exact hother _
  | trunkAbandon => exact hother _
  | trunkDrop => exact hother _

@[simp] theorem takeControl_pending (link : Nat) (s : State) (src a : Nat) (p : Bytes) :
    (s.takeControl link src a p).pending = s.pending := by
  unfold State.takeControl
  split <;> simp

@[simp] theorem execControl_has (link : Nat) (data : Bytes) (s : State) : nextHas (execControl link data s) s.pending := by
  unfold execControl
  split
  · exact fault_has _ _
  · exact (next_has ..).2 (blpIn_pending (fun u a b p => by simp) ..)

@[simp] theorem takeSnapshot_pending (s : State) (src a : Nat) (p : Bytes) : (s.takeSnapshot src a p).pending = s.pending := by
  unfold State.takeSnapshot
  split <;> simp

@[simp] theorem execSnapshot_has (link : Nat) (data : Bytes) (s : State) : nextHas (execSnapshot link data s) s.pending := by
  unfold execSnapshot
  split
  · exact fault_has _ _
  · exact (next_has ..).2 (blpIn_pending (fun u a b p => by simp) ..)

@[simp] theorem lateItem_pending (s : State) (key : Nat) : (s.lateItem key).pending = s.pending := by simp [State.lateItem]

/-! ### Egress.lean -/

@[simp] theorem setEgShaper_pending (s : State) (q : Nat) (x : Shaper) : (s.setEgShaper q x).pending = s.pending := by simp [State.setEgShaper]
@[simp] theorem countExpired_pending (s : State) (q : Nat) : (s.countExpired q).pending = s.pending := by simp [State.countExpired]

@[simp] theorem dropExpired_pending (port q n : Nat) (s : State) : (State.dropExpired port q n s).pending = s.pending := by
  induction n generalizing s with
  | zero => rfl
  | succ n ih =>
    unfold State.dropExpired
    split
    · rfl
    · simp [ih]

@[simp] theorem expireHead_pending (s : State) (port q : Nat) : (s.expireHead port q).pending = s.pending := by simp [State.expireHead]

@[simp] theorem resume_pending (s : State) (port prio : Nat) : (s.resume port prio).pending = s.pending := by
  unfold State.resume
  exact foldl_pending (fun s a => by simp) ..

@[simp] theorem execPauseExpiry_has (port prio : Nat) (s : State) : nextHas (execPauseExpiry port prio s) s.pending := by
  unfold execPauseExpiry
  split <;> simp

@[simp] theorem lookAt_pending (port c : Nat) (a : State × Option (Nat × Nat × Rec)) (q : Nat) :
    (State.lookAt port c a q).1.pending = a.1.pending := by
  unfold State.lookAt
  extract_lets s1
  have h1 : s1.pending = a.1.pending := expireHead_pending ..
  split
  · exact h1
  split
  · exact h1
  split
  · exact h1
  extract_lets k
  split
  · split <;> exact h1
  · exact h1

@[simp] theorem choose_pending (port : Nat) (l : List Nat) (s : State) : (State.choose port l s).1.pending = s.pending := by
  induction l generalizing s with
  | nil => rfl
  | cons c cs ih =>
    have hlook := foldl_fst_pending (fun x q => lookAt_pending port c x q) (s.classQueues port c) (s, none)
    unfold State.choose
    split
    next t k q r he => rw [he] at hlook; exact hlook
    next t he => rw [he] at hlook; exact (ih t).trans hlook

@[simp] theorem debitAll_pending (s : State) (port c q L : Nat) : (s.debitAll port c q L).pending = s.pending := rfl
@[simp] theorem launch_pending (s : State) (key port deadline : Nat) (f : Bytes) : (s.launch key port deadline f).pending = s.pending := by simp [State.launch]

@[simp] theorem launchOn_pending (s : State) (key : Nat) (x : Route) (deadline : Nat) (d : Bytes) :
    (s.launchOn key x deadline d).pending = s.pending := by
  unfold State.launchOn
  split <;> simp

@[simp] theorem depart_pending (s : State) (port q : Nat) (r : Rec) : (s.depart port q r).pending = s.pending := by
  unfold State.depart
  dsimp only
  repeat' split
  all_goals simp

@[simp] theorem select_pending (s : State) (port : Nat) : (s.select port).pending = s.pending := by
  unfold State.select
  split
  · rfl
  · have hchosen := choose_pending port [7, 6, 5, 4, 3, 2, 1, 0] s
    split
    next t he => rw [he] at hchosen; exact hchosen
    next t c q r he =>
      rw [he] at hchosen
      extract_lets t1
      have hread := readQueue_pending t1 q
      have hdebit : t1.pending = s.pending := (debitAll_pending ..).trans hchosen
      split
      next u r' hu => rw [hu] at hread; exact (depart_pending ..).trans (hread.trans hdebit)
      next u hu => rw [hu] at hread; exact hread.trans hdebit

@[simp] theorem execEgressSelect_has (port t : Nat) (s : State) : nextHas (execEgressSelect port t s) s.pending := by
  unfold execEgressSelect
  split <;> simp

@[simp] theorem execClassShaperRefill_has (shaper : Nat) (s : State) : nextHas (execClassShaperRefill shaper s) s.pending := by
  unfold execClassShaperRefill
  split <;> simp

@[simp] theorem effShaperSet_leaves (r : Req) (s : State) : (effShaperSet r s).leaves s.pending := by simp [effShaperSet]

@[simp] theorem effClassShaperSet_leaves (r : Req) (s : State) : (effClassShaperSet r s).leaves s.pending := by
  unfold effClassShaperSet
  simp only [nullTarget_leaves, need_leaves]
  intros
  repeat' split
  all_goals simp

@[simp] theorem effEgressPortSet_leaves (r : Req) (s : State) : (effEgressPortSet r s).leaves s.pending := by simp [effEgressPortSet]
@[simp] theorem effShaperGet_leaves (r : Req) (s : State) : (effShaperGet r s).leaves s.pending := by simp [effShaperGet]

/-! ### Apply.lean -/

@[simp] theorem cancelItems_pending (s : State) (key : Nat) (p : Item → Bool) : (s.cancelItems key p).pending = s.pending := by simp [State.cancelItems]

theorem redecode_pending {f : State → State} (h : ∀ s, (f s).pending = s.pending) (s : State) (key : Nat) :
    (s.redecode key f).pending = s.pending := by
  unfold State.redecode
  dsimp only
  split
  · exact (cancelItems_pending ..).trans (h s)
  · exact h s

@[simp] theorem leaveCritical_pending (s : State) (key : Nat) : (s.leaveCritical key).pending = s.pending := rfl
@[simp] theorem dropActs_pending (s : State) (key : Nat) : (s.dropActs key).pending = s.pending := by simp [State.dropActs]

@[simp] theorem freeObj_pending (s : State) (key : Nat) : (s.freeObj key).pending = s.pending := by
  unfold State.freeObj
  dsimp only
  split <;> simp

@[simp] theorem flowObj_pending (s : State) (key : Nat) (on : Bool) : (s.flowObj key on).pending = s.pending := by
  unfold State.flowObj
  dsimp only
  split <;> simp

@[simp] theorem applyAct_pending (s : State) (a : Act) : (s.applyAct a).pending = s.pending := by
  unfold State.applyAct
  split
  case h_17 => exact redecode_pending (fun u => applyDecode_pending ..) ..
  case h_18 => exact redecode_pending (fun u => clearDecode_pending ..) ..
  all_goals simp

@[simp] theorem applySched_pending (s : State) (e : Sched) : (s.applySched e).pending = s.pending := by simp [State.applySched]

@[simp] theorem runDue_pending (s : State) (p : Boundary → Bool) : (s.runDue p).pending = s.pending := by
  unfold State.runDue
  exact foldl_pending (fun s a => by simp) ..

@[simp] theorem keysTaken_pending (s : State) (key : Nat) (l : List Nat) : (s.keysTaken key l).pending = s.pending := by simp [State.keysTaken]

@[simp] theorem refillLeg_pending (s : State) (shaper : Nat) : (s.refillLeg shaper).pending = s.pending := by
  unfold State.refillLeg
  repeat' split
  all_goals simp

@[simp] theorem fireLeg_pending (s : State) (key : Nat) : (s.fireLeg key).pending = s.pending := by simp [State.fireLeg]
@[simp] theorem firePicture_pending (s : State) (key t : Nat) (decoded : Bool) : (s.firePicture key t decoded).pending = s.pending := by simp [State.firePicture]

theorem passing_pending {f : State → State} (h : ∀ s, (f s).pending = s.pending) (s : State) : (State.passing f s).pending = s.pending := by
  unfold State.passing
  dsimp only
  split
  · exact h s
  · exact (h _).trans (foldl_pending (fun u k => fireLeg_pending ..) ..)

@[simp] theorem opens_pending (s : State) (key t : Nat) (d : Bytes) : (s.opens key t d).pending = s.pending := by
  unfold State.opens
  split <;> simp

@[simp] theorem acceptVideo_pending (s : State) (key t : Nat) (d : Bytes) : (s.acceptVideo key t d).pending = s.pending := (passing_pending (fun u => videoAccept_pending u key t d) _).trans (opens_pending ..)

/-! ### Ingress.lean -/

@[simp] theorem frameToHost_pending (s : State) (port t : Nat) (d : Bytes) : (s.frameToHost port t d).pending = s.pending := by simp [State.frameToHost]

@[simp] theorem macControl_pending (s : State) (port : Nat) (b : Bytes) : (s.macControl port b).pending = s.pending := by
  unfold State.macControl
  split <;> simp

@[simp] theorem ptpFrameIn_pending (s : State) (port t : Nat) (d m : Bytes) : (s.ptpFrameIn port t d m).pending = s.pending := by simp [State.ptpFrameIn]

@[simp] theorem rtcpIn_pending (s : State) (key port t : Nat) (d : Bytes) : (s.rtcpIn key port t d).pending = s.pending := by
  unfold State.rtcpIn
  repeat' split
  all_goals simp

@[simp] theorem mediaIn_pending (s : State) (key t n : Nat) (d : Bytes) : (s.mediaIn key t n d).pending = s.pending := by
  unfold State.mediaIn
  split
  · exact legMedia_pending ..
  split
  · rfl
  · exact (passing_pending (fun u => videoMedia_pending u key t n d) _).trans (by simp)

@[simp] theorem notRtp_pending (s : State) (key : Nat) : (s.notRtp key).pending = s.pending := by simp [State.notRtp]

@[simp] theorem legPacket_pending (s : State) (key port t n : Nat) (onRtcp : Bool) (d : Bytes) :
    (s.legPacket key port t n onRtcp d).pending = s.pending := by simp [State.legPacket]

@[simp] theorem classify_pending (s : State) (port t n : Nat) (d : Bytes) : (s.classify port t n d).pending = s.pending := by
  unfold State.classify
  dsimp only
  repeat' split
  all_goals simp

@[simp] theorem etherIn_pending (s : State) (port t : Nat) (fecOk : Bool) (d : Bytes) : (s.etherIn port t fecOk d).pending = s.pending := by simp [State.etherIn]

@[simp] theorem execFrameReceive_has (port t : Nat) (fecOk : Bool) (data : Bytes) (s : State) :
    nextHas (execFrameReceive port t fecOk data s) s.pending := by
  unfold execFrameReceive
  split <;> simp

@[simp] theorem execGfpFrameReceive_has (group : Nat) (data : Bytes) (s : State) : nextHas (execGfpFrameReceive group data s) s.pending := by
  unfold execGfpFrameReceive
  repeat' split
  all_goals simp

@[simp] theorem hostRefused_pending (s : State) (port : Nat) : (s.hostRefused port).pending = s.pending := by simp [State.hostRefused]
@[simp] theorem hostFrame_pending (s : State) (port : Nat) (d : Bytes) : (s.hostFrame port d).pending = s.pending := by simp [State.hostFrame]

@[simp] theorem hostRtcp_pending (s : State) (fn key : Nat) (d : Bytes) : (s.hostRtcp fn key d).pending = s.pending := by
  unfold State.hostRtcp
  dsimp only
  repeat' split
  all_goals simp

@[simp] theorem hostRecord_pending (s : State) (fn : Nat) (r : Bytes) : (s.hostRecord fn r).pending = s.pending := by
  unfold State.hostRecord
  dsimp only
  repeat' split
  all_goals simp

@[simp] theorem hptTail_pending (s : State) (fn tail : Nat) (recs : List Bytes) : (s.hptTail fn tail recs).pending = s.pending := by
  unfold State.hptTail
  dsimp only
  split <;> simp

@[simp] theorem execHostTransmitDoorbell_has (fn tail : Nat) (recs : List Bytes) (s : State) :
    nextHas (execHostTransmitDoorbell fn tail recs s) s.pending := by
  unfold execHostTransmitDoorbell
  split <;> simp

@[simp] theorem takeMirror_pending (link : Nat) (s : State) (src a : Nat) (p : Bytes) : (s.takeMirror link src a p).pending = s.pending := by
  unfold State.takeMirror
  split <;> simp

@[simp] theorem execMirror_has (link : Nat) (data : Bytes) (s : State) : nextHas (execMirror link data s) s.pending := by
  unfold execMirror
  split
  · exact fault_has _ _
  · exact (next_has ..).2 (blpIn_pending (fun u a b p => by simp) ..)

/-! ### Delta.lean -/

theorem deltaOwn_leaves {s : State} {key op : Nat} {p : Bytes} {own : State → Eff} (h : s.deltaOwn key op p = some own) (t : State) :
    (own t).leaves t.pending := by
  unfold State.deltaOwn at h
  dsimp only at h
  split at h
  case h_28 => contradiction
  all_goals
    obtain rfl := Option.some.inj h
    simp

@[simp] theorem takeDelta_pending (s : State) (key op b : Nat) (p : Bytes) : (s.takeDelta key op b p).pending = s.pending := by
  unfold State.takeDelta
  extract_lets s0 s1
  have h0 : s0.pending = s.pending := by simp [s0]
  cases hown : s0.deltaOwn key op p with
  | none => exact h0
  | some own =>
    have hleaves := deltaOwn_leaves hown s1
    rw [Option.map_some]
    split
    next he => rw [Option.some.inj he] at hleaves; exact hleaves.trans h0
    next he => rw [Option.some.inj he] at hleaves; exact hleaves.trans h0
    next => exact h0

@[simp] theorem takeDeltaFrame_pending (link : Nat) (s : State) (src a : Nat) (p : Bytes) :
    (s.takeDeltaFrame link src a p).pending = s.pending := by
  unfold State.takeDeltaFrame
  dsimp only
  split <;> simp

@[simp] theorem execDelta_has (link : Nat) (data : Bytes) (s : State) : nextHas (execDelta link data s) s.pending := by
  unfold execDelta
  split
  · exact fault_has _ _
  · exact (next_has ..).2 (blpIn_pending (fun u a b p => by simp) ..)

@[simp] theorem takeFrame_pending (link kind t : Nat) (s : State) (a b : Nat) (p : Bytes) :
    (State.takeFrame link kind t s a b p).pending = s.pending := by
  unfold State.takeFrame
  split
  all_goals simp

/-! ### Engines.lean -/

@[simp] theorem setItemData_pending (s : State) (id : Nat) (d : Bytes) : (s.setItemData id d).pending = s.pending := by simp [State.setItemData]

@[simp] theorem startJob_pending (s : State) (inst : Nat) (i : Item) : (s.startJob inst i).pending = s.pending := by
  unfold State.startJob
  repeat' split
  all_goals simp

@[simp] theorem opened_pending (s : State) (key arrival : Nat) (rtcp : Bool) (d : Bytes) :
    (s.opened key arrival rtcp d).pending = s.pending := by simp [State.opened]

@[simp] theorem sealed_pending (s : State) (key port deadline : Nat) (d : Bytes) : (s.sealed_ key port deadline d).pending = s.pending := by
  unfold State.sealed_
  dsimp only
  split <;> simp

@[simp] theorem jobDone_pending (s : State) (i : Item) (st res : Nat) : (s.jobDone i st res).pending = s.pending := by
  unfold State.jobDone
  split
  · rfl
  · simp
  · simp
  · rw [serveLink_pending, ite_pending, blpRoute_pending (fun u a b p => takeFrame_pending ..), ite_self]
  · simp
  · simp
  next stage obj p n _ =>
    have hpass := passing_pending (fun u => encItemEnd_pending u obj stage p n st i.data) s
    simp [hpass]

@[simp] theorem settle_pending (s : State) : s.settle.pending = s.pending := by
  unfold State.settle
  exact foldl_pending (fun s a => by split <;> simp) ..

@[simp] theorem execWorkDispatch_has (kind inst : Nat) (s : State) : nextHas (execWorkDispatch kind inst s) s.pending := by
  unfold execWorkDispatch
  split
  · exact fault_has _ _
  split
  · exact (next_has ..).2 rfl
  · have hsent := dispatch_pending s kind inst
    split
    next t i he => rw [he] at hsent; exact (next_has ..).2 ((startJob_pending ..).trans hsent)
    next t he => rw [he] at hsent; exact (next_has ..).2 hsent

@[simp] theorem drainEnd_pending (s : State) (kind inst : Nat) : (s.drainEnd kind inst).pending = s.pending := by simp [State.drainEnd]

@[simp] theorem execItemComplete_has (id : Nat) (error : Bool) (result : Nat) (data : Bytes) (s : State) :
    nextHas (execItemComplete id error result data s) s.pending := by
  unfold execItemComplete
  repeat' split
  all_goals simp

@[simp] theorem execItemDeadlineExpiry_has (id : Nat) (s : State) : nextHas (execItemDeadlineExpiry id s) s.pending := by
  unfold execItemDeadlineExpiry
  repeat' split
  all_goals simp

@[simp] theorem countDrops_pending (s : State) (keys : List Nat) : (s.countDrops keys).pending = s.pending := by simp [State.countDrops]

@[simp] theorem faultDrop_pending (s : State) (kind inst : Nat) : (s.faultDrop kind inst).1.pending = s.pending := by
  unfold State.faultDrop
  repeat' split
  all_goals simp

@[simp] theorem giveUp_pending (s : State) (f : Nat) : (s.giveUp f).pending = s.pending := by
  unfold State.giveUp
  split
  · have hfail (u : State) : (u.answer f fun _ _ => .fail .aborted []).pending = u.pending := answer_pending (fun t r => fail_leaves ..) ..
    simp [hfail]
  · rfl

@[simp] theorem abortEvery_pending (s : State) : s.abortEvery.1.pending = s.pending := by simp [State.abortEvery]

@[simp] theorem engineFault_pending (s : State) (kind inst cause : Nat) : (s.engineFault kind inst cause).pending = s.pending := by
  unfold State.engineFault
  dsimp only
  repeat' split
  all_goals simp

@[simp] theorem execEngineFault_has (kind inst cause : Nat) (s : State) : nextHas (execEngineFault kind inst cause s) s.pending := by
  unfold execEngineFault
  split <;> simp

@[simp] theorem execItemTimeout_has (id : Nat) (s : State) : nextHas (execItemTimeout id s) s.pending := by
  unfold execItemTimeout
  repeat' split
  all_goals simp

@[simp] theorem stateReset_pending (s : State) (key slot : Nat) : (s.stateReset key slot).pending = s.pending := by
  unfold State.stateReset
  split <;> simp

@[simp] theorem rewriteTiles_pending (s : State) : s.rewriteTiles.pending = s.pending := by
  unfold State.rewriteTiles
  exact foldl_pending (fun s a => by simp) ..

@[simp] theorem instanceReturn_pending (s : State) (kind inst : Nat) : (s.instanceReturn kind inst).pending = s.pending := by
  unfold State.instanceReturn
  split <;> simp

@[simp] theorem execInstanceReturn_has (kind inst : Nat) (s : State) : nextHas (execInstanceReturn kind inst s) s.pending := by
  unfold execInstanceReturn
  repeat' split
  all_goals simp

@[simp] theorem effDispatchDisable_leaves (r : Req) (s : State) : (effDispatchDisable r s).leaves s.pending := by
  unfold effDispatchDisable
  simp only [nullTarget_leaves, need_leaves]
  intros
  repeat' split
  all_goals simp

@[simp] theorem execDispatchDisable_has (r : Req) (s : State) : nextHas (execDispatchDisable r s) s.pending := by
  unfold execDispatchDisable
  extract_lets k i t
  have ht : t.pending = s.pending := command_pending (effDispatchDisable_leaves r) ..
  simp [ht]

@[simp] theorem execDrainBoundExpiry_has (kind inst : Nat) (s : State) : nextHas (execDrainBoundExpiry kind inst s) s.pending := by
  unfold execDrainBoundExpiry
  dsimp only
  repeat' split
  all_goals simp

/-! ### Block.lean -/

theorem mixOver_pending (s : State) : s.mixOver.pending = s.pending := by
  unfold State.mixOver
  simp

@[simp] theorem mixEnd_pending (s : State) : s.mixEnd.pending = s.pending := by
  cases hm : s.matrix.mixing with
  | false => rw [mixEnd_idle (.inl hm)]
  | true =>
    cases hd : s.matrix.down with
    | false => rw [mixEnd_eq hm hd, endBursts_pending, tapOutputs_pending, trunkSend_pending, mixOver_pending, at_pending]
    | true => rw [mixEnd_idle (.inr hd)]

theorem again_leaves {x : Flight} {names : List Nat} {own : State → Eff} (h : x.again = some (names, own)) (s : State) :
    (own s).leaves s.pending := by
  unfold Flight.again at h
  dsimp only at h
  split at h
  case h_9 => contradiction
  all_goals
    injection h with h
    injection h with _ hown
    subst hown
    simp

@[simp] theorem retryRoom_pending (s : State) (f : Nat) : (s.retryRoom f).pending = s.pending := by
  unfold State.retryRoom
  split
  · rfl
  split
  · rfl
  split
  · rfl
  next names own hown => exact (settleTaken_pending ..).trans (judge_pending (again_leaves hown) ..)

@[simp] theorem swapBanks_pending (s : State) : s.swapBanks.pending = s.pending := rfl
@[simp] theorem beat_pending (s : State) : s.beat.pending = s.pending := by simp [State.beat]

@[simp] theorem submitChains_pending (s : State) : s.submitChains.pending = s.pending := by
  unfold State.submitChains
  exact foldl_pending (fun s a => by simp) ..

@[simp] theorem blockWork_pending (s : State) (n : Nat) : (s.blockWork n).pending = s.pending := by simp [State.blockWork]
@[simp] theorem blockStart_pending (s : State) : s.blockStart.pending = s.pending := by simp [State.blockStart]

@[simp] theorem frameBoundary_pending (s : State) (comp : Nat) : (s.frameBoundary comp).pending = s.pending := by
  unfold State.frameBoundary
  extract_lets key
  split
  · rfl
  next c _ =>
    extract_lets n s1 due gone s2 s3 s4
    have h2 : s2.pending = s1.pending := by simp [s2]
    have h4 : s4.pending = s.pending := (compFrame_pending ..).trans ((runDue_pending ..).trans (h2.trans (at_pending ..)))
    split
    · exact h4
    · refine (foldl_pending (fun u e => ?_) ..).trans h4
      dsimp only
      simp

@[simp] theorem execFrameBoundary_has (comp : Nat) (s : State) : nextHas (execFrameBoundary comp s) s.pending := by
  unfold execFrameBoundary
  split <;> simp

@[simp] theorem muteTdm_pending (s : State) : s.muteTdm.pending = s.pending := by
  unfold State.muteTdm
  exact foldl_pending (fun s a => by simp) ..

@[simp] theorem execLineFrame_has (lane t : Nat) (rx : LineRx) (s : State) : nextHas (execLineFrame lane t rx s) s.pending := by
  unfold execLineFrame
  repeat' split
  all_goals simp

/-! ### Dma.lean -/

theorem dmaOwn_leaves {x : Flight} {d : Bytes} {names : List Nat} {own : State → Eff} (h : dmaOwn x d = some (names, own)) (s : State) :
    (own s).leaves s.pending := by
  unfold dmaOwn at h
  dsimp only at h
  split at h
  case h_5 => contradiction
  all_goals
    injection h with h
    injection h with _ hown
    subst hown
    simp

@[simp] theorem readEnd_pending (s : State) (f : Nat) (res : DmaResult) : (s.readEnd f res).pending = s.pending := by
  unfold State.readEnd
  split
  · rfl
  split
  · rfl
  split
  · exact endFlight_pending (fun x t => fail_leaves ..) ..
  · dsimp only
    split
    · rfl
    next names own hown => exact (settleTaken_pending ..).trans (judge_pending (dmaOwn_leaves hown) ..)

@[simp] theorem execDmaReadDone_has (mbx : Nat) (res : DmaResult) (s : State) : nextHas (execDmaReadDone mbx res s) s.pending := by
  unfold execDmaReadDone
  split <;> simp

@[simp] theorem writeEnd_pending (s : State) (f : Nat) (res : DmaResult) : (s.writeEnd f res).pending = s.pending := by
  unfold State.writeEnd
  split
  · rfl
  split
  · rfl
  split
  · exact endFlight_pending (fun x t => fail_leaves ..) ..
  · exact endFlight_pending (fun x t => (done_leaves ..).2 rfl) ..

@[simp] theorem execDmaWriteReadbackDone_has (mbx : Nat) (res : DmaResult) (s : State) :
    nextHas (execDmaWriteReadbackDone mbx res s) s.pending := by
  unfold execDmaWriteReadbackDone
  split <;> simp

/-! ### The rows and the step -/

/-- A row leaves the queue: those of one command or one operation by that command or operation, the others by their own lemma. -/
theorem exec_has (i : Instr) (s : State) : nextHas (exec i s) s.pending := by
  cases i <;> simp [exec, command_pending,
    execNodeSet, execNodeSetBulk, execNodeFade, execNodeGet, execMatrixTileMapGet, execMatrixStatsGet, execMeterSubscribe, execMeterUnsubscribe,
    execDuckGroupCreate, execDuckGroupDestroy, execDuckMemberSet, execDuckForce, execDuckHangExpiry, execSessionMixSet, execSubmissionResume,
    execDispatchEnable, execDispatchStatsGet, execThrottledShareEnd, execQueueWriteResume, execPfcRefresh, execHostRingSet, execNetGroupSet,
    execPortSet, execNeighbourSet, execQueueNoticeSet, execQueueStatsGet, execPortStatsGet, execLineCreate, execE1PathCreate, execVcatGroupCreate,
    execPathDestroy, execPathEnable, execPathHold, execMspSet, execMspCommand, execCasSet, execFramerStatusGet, execKernelLoad, execKernelUnload,
    execKernelBind, execKernelUnbind, execKernelParamSet, execKernelStatsGet, execKeyLoad, execKeyDestroy, execKeyUpdate, execKeyStatsGet,
    execLinkKeyLoad, execKeySystemGet, execEntropyRecovered, execMemLayoutSet, execMemPolicySet, execMemStatusGet, execSessionCreate,
    execSessionDestroy, execLegDestroy, execLegEnable, execLegHold, execLegChainSet, execLegCodecSet, execLegToneStart, execLegToneStop,
    execLegPlay, execClipLoad, execClipFree, execLegStatsGet, execKeyFrameRequest, execVideoLegCreate, execVideoLegDestroy, execVideoLegEnable,
    execVideoLegHold, execVideoLegStatsGet, execDecodeSet, execDecodeClear, execDecodeStatsGet, execCascadeJoin, execCascadeForm,
    execTrunkDestroy, execSpanningCommandRollback, execSessionPlace, execSessionUnplace, execCascadeStatusGet, execDirectoryGet, execCascadeLeave,
    execLayerRecompute, execForwardSet, execForwardTargetSet, execMediaTimeout, execTapSet, execPartitionCreate, execPartitionDestroy,
    execPartitionEnable, execPartitionHold, execFreezeSet, execFreezeRelease, execExportSet, execExportAck, execRecorderRead,
    execPartitionStatsGet, execRecorderSurvivorsGet, execPartitionAdopt, execCompositionCreate, execCompositionDestroy, execCompositionEnable,
    execCompositionHold, execPlaneSet, execCompositionCommit, execPlaneGet, execCompositionStatsGet, execOpalScalerTableGet, execEncodingCreate,
    execEncodingDestroy, execEncodingEnable, execEncodingHold, execEncodingRateSet, execEncodingKeyFrame, execEncodingStatsGet, execNvmEraseDone,
    execNvmWordPulseEnd, execFlightRecordCommit, execResetNAssert, execSecondLevelWatchdogExpiry, execPowerSample, execAvsUpdate, execRailRetry,
    execTripCooldownExpiry, execRefclk25Loss, execRefclk25Return, execRootPllUnlock, execSerdesRefclkLoss, State.pmbus, execClearFaults,
    execVoutMode, execStatusWord, execReadVout, execReadIout, execReadTemperature1, execReadTemperature2, execReadPout, execMfrSeqStatus,
    execPowerClassSet, execThermalSet, execPowerStatusGet, execNvmStatusGet, execPcieRefclkLoss, execPerstNDeassert, execEcho, execSysIdentify,
    execSysModeGet, execEventMaskSet, execSysStatsGet, execMediaRestartDone, execFirstLevelWatchdogExpiry, execChainResetCold, execChainResetWarm,
    execBudgetGet, execModeSet, execFlightRecordRead, execFirmwareSlotWrite, execOtpKekWrite, execFirmwareCommit, execDebugChallengeGet,
    execDebugUnlock, execLaneTestSet, execLaneTestGet, execVddAonLoss, execBootRun, execCalibrateRun, execTimeDomainSet, execTimeServoSet,
    execTimeSelect, execTimeStep, execTimeStatusGet, execTimeCaptureSet, execTimeSnapTake, execTrioCriticalSet, execTrioJoin, execTrioForm,
    execVote, execLeaseExpiry, execTrioLeave, execTrioHandover, execTrioRevertSet, execTrioRejoin, execTrioStatusGet, execShaperSet,
    execClassShaperSet, execEgressPortSet, execShaperGet, execLegShaperRefill, execVideoLegBoundaryTimeout, execWorkCancel, execMixEnd,
    execBlockStart]

/-- Settles O2: the step takes the front command off, and no command touches the rest of the queue (`exec_has`). -/
theorem stepKeepsQueueOrder : Obligations.StepKeepsQueueOrder := by
  unfold Obligations.StepKeepsQueueOrder
  intro s t h
  unfold step at h
  split at h
  next hq => rw [← Host.Outcome.next.inj h, hq, List.tail_nil]
  next c rest hq => rw [hq, List.tail_cons, exec_has c _ t h]

end Sys2Proof.Machine
end
